-- ==== Sys2Proof/Word.lean ====
section
/-! DEFINITION. The words of the device and the shapes of what reaches it from outside: the operand types of the
commands (R32, R33, R46). No effect is given here. -/

namespace Sys2Proof

/-- One byte. -/
abbrev Byte := BitVec 8

/-- One register (R33). -/
abbrev Word := BitVec 32

/-- The Initiator ID every bus transaction carries (R46). -/
abbrev Iid := BitVec 6

/-- What the header check of a CSI-2 packet found (R107, R108), and what an ECC check of a stored line found (R426). -/
inductive Ecc where
  | ok
  | corrected
  | uncorrectable
deriving DecidableEq, Repr, Inhabited

/-- The errors that one access meets in the memories it reads (R234, R423, R426, R732): `ce` and `ue` list the 64-byte
lines, by DPA / 64, that read corrected and uncorrectable, `twinUe` those that the twin's copy reads uncorrectable; `sram` the 64-bit words of the executing hoop's SRAM, by
offset / 8, and `fs` those of the Frame Store, that read uncorrectable, and `sramCe` those of the hoop's that read corrected. -/
structure MemErr where
  ce : List Nat := []
  ue : List Nat := []
  sram : List Nat := []
  twinUe : List Nat := []
  fs : List Nat := []
  sramCe : List Nat := []
deriving DecidableEq, Repr, Inhabited

/-- No error met. -/
def MemErr.none : MemErr := { }

/-- A CAN frame on the bus (R128, R129). `sof` is the Device Time of its start-of-frame edge, in 1/256 ns. -/
structure CanFrame where
  id : BitVec 29
  ide : Bool
  fdf : Bool
  brs : Bool
  esi : Bool
  rtr : Bool
  data : List Byte
  sof : Nat
deriving DecidableEq, Repr, Inhabited

/-- How one syllable reaches a hoop (R308-R312). `opens` marks the first syllable of its bundle, which takes the copy of
the registers that every syllable of the bundle reads (R311); `closes` the last one, after which control moves.
`bundle` holds the bundle's eight 32-bit syllables, by slot, for the legality check of R312; slots it does not list
are NOP. -/
structure Issue where
  hoop : Fin 36
  pred : Fin 8
  pneg : Bool
  opens : Bool
  closes : Bool
  bundle : List Word
deriving DecidableEq, Repr, Inhabited

/-- The START and END fields of a message received on a Selvedge port (R562). `crcOk` says that END.CRC matched. -/
structure SvHead where
  port : Fin 2
  src : Fin 8
  dst : Fin 8
  bcast : Bool
  hops : Nat
  len : Nat
  e2e : BitVec 16
  lseq : BitVec 12
  crcOk : Bool
deriving DecidableEq, Repr, Inhabited

/-- The strap pins as sampled at POR_N rising (R694), TEST_EN among them (R693). -/
structure Straps where
  dev : Fin 8
  mem : Fin 8
  twin : Bool
  role : Bool
  testEn : Bool
deriving DecidableEq, Repr, Inhabited

/-- What the boot ROM and Paeno find in the flash (R649, R651): which Paeno slots pass, and the fields shown of the
one that is run. -/
structure BootFlash where
  paenoA : Bool
  paenoB : Bool
  version : Word
  rollback : BitVec 6
  rulesetA : Bool
  rulesetB : Bool
deriving DecidableEq, Repr, Inhabited

end Sys2Proof
end

