-- ==== Sys2Proof/Syntax.lean ====
section
/-! DEFINITION. The commands of the device: one constructor per row of spec/opcode_table.json, with the operands that the
row's rule reads from outside. Indices are `Fin`, so an index that names nothing cannot be written. -/

namespace Sys2Proof

/-- A command (a register access, a wire or pin event, an instant, an end of work, a Track command or a syllable). -/
inductive Instr where
  /-- REGISTER_WRITE (R36). A write to a register that has no row of its own sets, clears, stages or ignores its fields by their access codes. -/
  | registerWrite (iid : Iid) (off : Nat) (size : Nat) (value : BitVec 64)
  /-- GLB_FAULT_CLEAR (R52). A write of 1 to bit 0 clears GLB_FAULT_FIRST so that the next fault is latched. -/
  | glbFaultClear (iid : Iid) (value : Word)
  /-- LO_READ_LATCH (R33). A read of an _LO register latches its _HI for the reading Initiator ID. -/
  | loReadLatch (iid : Iid) (off : Nat) (size : Nat)
  /-- RC_READ (R39). A read of an RC field returns its value and clears it, keeping any event of the same cycle. -/
  | rcRead (iid : Iid) (off : Nat)
  /-- DEVICE_TIME_READ (R57). A read of HG_DT_LO latches HG_DT_HI and HG_DT_FRAC from the same cycle. -/
  | deviceTimeRead (iid : Iid)
  /-- EPOCH_READ (R63). A read of HG_EPOCH_NT_NS latches the published epoch seconds and metadata registers. -/
  | epochRead (iid : Iid)
  /-- NETWORK_TIME_READ (R93). A read of HG_DOM_NT_NS[d] latches the current seconds of that domain. -/
  | networkTimeRead (iid : Iid) (d : Fin 2)
  /-- DEVICE_TIME_START (R56). Device Time starts at 0 when the Hourglass PLL first locks after a cold or warm reset. -/
  | deviceTimeStart
  /-- REF_LOSS (R58). Loss of HG_REFCLK or PLL lock puts Device Time on the internal oscillator, sets HOLDOVER and reports 0x1001. -/
  | refLoss (refLost : Bool)
  /-- REF_LOCK_RETURN (R58). Return of lock clears HOLDOVER and resumes the normal rate without a jump. -/
  | refLockReturn
  /-- TURN_RUN (R60). A write of 1 to HG_TURN_CTL.RUN while ACTIVE is 0 arms turns to start at the epoch, or refuses an epoch too close. -/
  | turnRun (iid : Iid)
  /-- TURN_STOP (R62). A write of 0 to RUN lets the current turn end with no further turn, or stops armed turns at once. -/
  | turnStop (iid : Iid)
  /-- TURN_END_STOP (R62). At the end of the turn running when RUN was cleared, ACTIVE clears and turn-mode triggers stop. -/
  | turnEndStop
  /-- TURN_START (R18). At E + N × P a turn starts: epoch publication, generation switch, slot hand-over, absence, overrun and skip handling follow. -/
  | turnStart
  /-- HG_ACTIVE_WRITE (R67). A write to HG_ACTIVE by the time owner selects the output domain from the next turn start, or at once when turns are not running. -/
  | hgActiveWrite (iid : Iid) (value : Word)
  /-- DOMAIN_ENABLE (R68). Setting HG_DOM_CFG[d].EN resumes samples and timestamps from the held offset. -/
  | domainEnable (iid : Iid) (d : Fin 2) (value : Word)
  /-- DOMAIN_DISABLE (R68). Clearing EN holds the domain's offset and step count and makes outputs carry DOMAIN 0x00 where it is selected. -/
  | domainDisable (iid : Iid) (d : Fin 2) (value : Word)
  /-- SERVO_MODE_ENTER (R74). Setting MODE to SERVO ends any amortisation and starts the integral from ADJ_d. -/
  | servoModeEnter (iid : Iid) (d : Fin 2) (value : Word)
  /-- INC_MODE_ENTER (R74). Returning MODE to INC keeps the servo's last output as ADJ_d. -/
  | incModeEnter (iid : Iid) (d : Fin 2) (value : Word)
  /-- SAMPLE_SUBMIT (R70). The time owner's write of HG_DOM_MEAS_HI[d] submits an offset sample. -/
  | sampleSubmit (iid : Iid) (d : Fin 2) (hi : Word)
  /-- SAMPLE_APPLY (R71). Within 1 µs of submission the sample steps the domain or slews it in INC or SERVO mode. -/
  | sampleApply (d : Fin 2)
  /-- SLEW_COMPLETE (R72). The amortisation ends when the sample has been absorbed, and SLEWING clears. -/
  | slewComplete (d : Fin 2)
  /-- HG_DOM_ADJ_WRITE (R72). A write to HG_DOM_ADJ[d] sets the rate, clamped to HG_SLEW_LIM, and recomputes any amortisation. -/
  | hgDomAdjWrite (iid : Iid) (d : Fin 2) (value : Word)
  /-- HG_SLEW_LIM_WRITE (R72). A write to HG_SLEW_LIM applies the new limit at once to every domain's rate. -/
  | hgSlewLimWrite (iid : Iid) (value : Word)
  /-- TRIGGER_ARM (R77). A write of 1 to HG_TRIG_CFG[n].ARM arms a one-shot or starts a periodic trigger. -/
  | triggerArm (iid : Iid) (n : Fin 16) (value : Word)
  /-- TRIGGER_CMP_WRITE (R77). A write to HG_TRIG_CMP[n] retargets an armed one-shot at once. -/
  | triggerCmpWrite (iid : Iid) (n : Fin 16) (hi : Word)
  /-- TRIGGER_PERIOD_WRITE (R79). A change of HG_TRIG_PER[n] on a running periodic trigger continues the series, skipping past instants. -/
  | triggerPeriodWrite (iid : Iid) (n : Fin 16) (hi : Word)
  /-- TRIGGER_EDGE (R78). A compare, periodic or turn-mode instant is reached and the trigger starts a pulse. -/
  | triggerEdge (n : Fin 16)
  /-- TRIGGER_PULSE_END (R81). The pulse ends after HG_TRIG_WIDTH[n] and the pin returns inactive. -/
  | triggerPulseEnd (n : Fin 16)
  /-- CAPTURE_EDGE (R84). An accepted edge on a capture input is timestamped into its FIFO. -/
  | captureEdge (n : Fin 8) (rising : Bool) (pulse : Nat)
  /-- CAPTURE_POP (R85). A read of HG_CAP_DT_LO[n] pops the head entry and sets or clears POPPED. -/
  | capturePop (iid : Iid) (n : Fin 8)
  /-- TS_FIFO_POP (R87). A read of HG_TSTX_META or HG_TSRX_META pops the head timestamp entry. -/
  | tsFifoPop (iid : Iid) (rx : Bool)
  /-- ETH_FRAME_RECEIVE (R120). A received Ethernet frame is checked and classified to the MC queue or a point template stream. -/
  | ethFrameReceive (frame : List Byte) (fcsOk : Bool)
  /-- ETH_FRAME_TRANSMIT (R120). The MC transmits a frame, with transmit timestamping of PTP event messages. -/
  | ethFrameTransmit (frame : List Byte) (oneStep : Bool)
  /-- PTP_TX_DROP (R89). A PTP message waiting 200 µs after Ethernet PLL lock loss is dropped and reported with 0x1009. -/
  | ptpTxDrop
  /-- BACKUP_LOAD (R91). A write of 1 to HG_BK_CTL.LOAD by the MC sets the backup seconds and zeroes the sub-second count. -/
  | backupLoad (iid : Iid)
  /-- BACKUP_SEC_READ (R90). A read of HG_BK_SEC latches HG_BK_SUB. -/
  | backupSecRead (iid : Iid)
  /-- BACKUP_POWER_ON (R90). A power-on or brown-out of the VBAT node resets the backup counter, LOST and RF_SAFE_CAUSE. -/
  | backupPowerOn
  /-- STREAM_ENABLE (R105). A write of 1 to SP_STR_SRC[s].EN checks the stream configuration and enables it at its next frame start. -/
  | streamEnable (iid : Iid) (s : Fin 64) (value : Word)
  /-- STREAM_DISABLE (R105). A write clearing EN disables the stream at its next frame start, changing no other field. -/
  | streamDisable (iid : Iid) (s : Fin 64) (value : Word)
  /-- FRAME_START (R114). A CSI-2 frame-start packet opens a frame in the oldest free slot and stamps FS_TIME. -/
  | frameStart (p : Fin 8) (vc : Fin 16) (num : BitVec 16) (ecc : Ecc)
  /-- FRAME_END (R117). A frame-end packet closes the frame, stamping FE_TIME and setting COMPLETE. -/
  | frameEnd (p : Fin 8) (vc : Fin 16) (num : BitVec 16) (ecc : Ecc)
  /-- LONG_PACKET (R108). A CSI-2 long packet of an open frame is landed as a line or event payload, or discarded. -/
  | longPacket (p : Fin 8) (vc : Fin 16) (dt : BitVec 6) (payload : List Byte) (crcOk : Bool) (ecc : Ecc) (e : MemErr)
  /-- PHY_SYNC (R109). A D-PHY sync error or failed skew calibration discards the packet and reports 0x2003. -/
  | phySync (p : Fin 8) (skew : Bool)
  /-- FRAME_JUDGE (R152). Within 1 µs of a slot leaving LANDING the monitor judges the frame CLEARED or ABSENT. -/
  | frameJudge (s : Fin 64) (slot : Fin 8)
  /-- IMU_ENABLE (R125). Setting SP_IMU_CFG[i].EN in PERIOD mode schedules the first read at that instant. -/
  | imuEnable (iid : Iid) (i : Fin 4) (value : Word)
  /-- IMU_DRDY_EDGE (R125). An active IMU_DRDY edge starts and stamps a read. -/
  | imuDrdyEdge (i : Fin 4)
  /-- IMU_PERIOD_TICK (R125). A scheduled PERIOD instant starts a read stamped with that instant. -/
  | imuPeriodTick (i : Fin 4)
  /-- IMU_READ_COMPLETE (R126). A finished SPI read lands a 64-byte sample record in the IMU ring. -/
  | imuReadComplete (i : Fin 4) (data : List Byte)
  /-- IMU_TIMEOUT (R127). No DRDY edge within two periods sets TIMEOUT and reports 0x2020 once. -/
  | imuTimeout (i : Fin 4)
  /-- CAN_FRAME_RECEIVE (R129). A received CAN frame goes to the first matching mailbox and is logged with its start-of-frame time. -/
  | canFrameReceive (c : Fin 2) (f : CanFrame)
  /-- CAN_RX_TIMEOUT (R130). A silent mailbox times out, reports 0x2032 and marks wheel data absent where WHEEL is set. -/
  | canRxTimeout (c : Fin 2) (m : Fin 64)
  /-- CAN_TX_REQUEST (R131). Setting REQ enters a transmit mailbox into arbitration, or refuses it with 0x200B. -/
  | canTxRequest (iid : Iid) (c : Fin 2) (k : Fin 16) (value : Word)
  /-- CAN_TX_ABORT (R131). Setting ABORT withdraws a pending request and sets ABORTED. -/
  | canTxAbort (iid : Iid) (c : Fin 2) (k : Fin 16) (value : Word)
  /-- CAN_TX_DONE (R131). An acknowledged frame sets DONE and clears REQ. -/
  | canTxDone (c : Fin 2) (k : Fin 16)
  /-- CAN_BUS_ERROR (R132). A detected bus error updates the error counters and the fault-confinement state. -/
  | canBusError (c : Fin 2) (kind : Fin 5) (transmitter : Bool) (severe : Bool)
  /-- CAN_RECOVER (R133). A write of 1 to RECOVER starts the MANUAL bus-off recovery count. -/
  | canRecover (iid : Iid) (c : Fin 2) (value : Word)
  /-- CAN_RECOVERY_COMPLETE (R133). After 128 recessive sequences the counters clear, STATE is ERROR_ACTIVE and held mailboxes arbitrate. -/
  | canRecoveryComplete (c : Fin 2)
  /-- CAN_DISABLE (R133). Writing EN 0 removes the controller from the bus and, during bus-off, aborts every pending mailbox. -/
  | canDisable (iid : Iid) (c : Fin 2) (value : Word)
  /-- I2C_COMMAND_PUSH (R135). A write to SP_I2C_CMD[k] enters a command into the FIFO, or is counted when full. -/
  | i2cCommandPush (iid : Iid) (k : Fin 4) (value : Word)
  /-- I2C_COMMAND_EXECUTE (R135). The controller executes the next queued command on the bus. -/
  | i2cCommandExecute (k : Fin 4) (rd : Byte)
  /-- I2C_AT_FIRE (R135). The AT compare fires and releases the held command FIFO. -/
  | i2cAtFire (k : Fin 4)
  /-- I2C_NACK (R136). A NACK discards commands to the next STOP, issues STOP and reports 0x2038. -/
  | i2cNack (k : Fin 4)
  /-- I2C_TIMEOUT (R136). A stretch or stuck bus beyond STRETCH_TO is cleared with nine clocks and reported with 0x2039. -/
  | i2cTimeout (k : Fin 4)
  /-- I2C_RXD_POP (R135). A read of SP_I2C_RXD[k] pops one read byte. -/
  | i2cRxdPop (iid : Iid) (k : Fin 4)
  /-- HOLDOVER_EXPIRY (R157). Motion holdover beyond HOLD_MAX demands F4 until the absences end. -/
  | holdoverExpiry
  /-- EXPANSION_START (R187). The Weft expands a staged Pattern table into the free grid bank once both exist. -/
  | expansionStart
  /-- EXPANSION_COMPLETE (R178). Remap grid expansion ends and the Weft can report ready for the commit. -/
  | expansionComplete
  /-- ME_INPUT_PROCESS (R193). An IMU sample or wheel frame whose hold window has passed propagates or updates the ego-motion state. -/
  | meInputProcess
  /-- ZERO_VELOCITY_UPDATE (R194). No tick change on any enabled wheel for ZUPT_MS applies a zero-velocity update. -/
  | zeroVelocityUpdate
  /-- ME_RESET (R196). A write of 1 to ME_CTL.RESET resets the ME state without a fault code. -/
  | meReset (iid : Iid) (value : Word)
  /-- ME_TURN_UPDATE (R197). When the Scheduled partition completes a turn, the ME applies visual motion, updates tracks and writes its Ego Record. -/
  | meTurnUpdate
  /-- VIEW_WARP (R189). After the ME completes the turn, the Weft warps each enabled view into its raster buffer. -/
  | viewWarp
  /-- RECORD_ASSEMBLY (R216). The Loom builds the turn's records from the manifest and the EGO record in its staging buffer. -/
  | recordAssembly
  /-- REFEREE_VERDICT (R604). With all inputs held, the Referee judges the turn, updates window and step and stamps the verdict. -/
  | refereeVerdict
  /-- RELEASE (R218). After the verdict the Loom writes the turn's records to tenant memory and queues its view frames. -/
  | release
  /-- VIEW_FRAME_TRANSMIT (R212). A queued view frame starts on its port, taking its output time, and is sent whole. -/
  | viewFrameTransmit (p : Fin 2)
  /-- VIEW_LOCK_DROP (R224). A frame waiting 200 µs on an unlocked port PLL is dropped and counted. -/
  | viewLockDrop (p : Fin 2)
  /-- STX_LOCK_LOSS (R225). Loss of a transmit port PLL ends any frame on the wire without a frame end. -/
  | stxLockLoss (p : Fin 2)
  /-- STX_LOCK_RETURN (R224). The transmit port PLL locks and waiting frames may leave. -/
  | stxLockReturn (p : Fin 2)
  /-- LOOM_ENABLE (R440). Writing LM_CTL.EN 1 pin-walks the record ring and manifests. -/
  | loomEnable (iid : Iid) (value : Word)
  /-- LOOM_DISABLE (R440). Writing LM_CTL.EN 0 releases the Loom's pinned mappings. -/
  | loomDisable (iid : Iid) (value : Word)
  /-- HOOP_RETIRE (R254). A Referee write to TE_RETIRE power-gates the hoop, ends its work and may start a relocation. -/
  | hoopRetire (iid : Iid) (value : Word)
  /-- RELOCATION_APPLY (R258). After the retiring program ends, the engine checks the relocation entry and adopts its mapping, reloads and patches. -/
  | relocationApply
  /-- RELOCATION_COMPLETE (R257). All patches and reloads are done and the relocation state becomes SPENT. -/
  | relocationComplete
  /-- CHECKPOINT (R249). Reaching a checkpoint makes the Deadline Governor compute and send a VCORE change. -/
  | checkpoint (k : Fin 64)
  /-- AVS_RESPONSE (R251). An AVSBus status response completes a voltage frame, resending it once on error. -/
  | avsResponse (err : Bool) (status : BitVec 5)
  /-- AVS_RAMP_END (R249). The voltage ramp ends and a waiting command from the newest checkpoint is sent. -/
  | avsRampEnd
  /-- PROGRAM_END (R252). The turn program ends on every hoop: Witness reports go out, VCORE drops to VFLOOR and a pending turn starts. -/
  | programEnd
  /-- GOV_PRETURN_SET (R250). 50 µs before the next turn start the Governor sets the voltage for that turn. -/
  | govPreturnSet
  /-- FIRING_PLACE (R507). A free TOKEN or Lace hoop takes a ready actor and starts its firing. -/
  | firingPlace (h : Fin 36)
  /-- PARKED_FIRING_RESUME (R508). A parked firing continues at its bundle once its condition clears. -/
  | parkedFiringResume (h : Fin 36)
  /-- CTL_ADD (R327). S[d] = S[a] + S[b]. -/
  | ctlAdd (x : Issue) (d : Fin 32) (a : Fin 32) (b : Fin 32)
  /-- CTL_SUB (R327). S[d] = S[a] − S[b]. -/
  | ctlSub (x : Issue) (d : Fin 32) (a : Fin 32) (b : Fin 32)
  /-- CTL_MUL (R327). S[d] = low 32 bits of S[a] × S[b]. -/
  | ctlMul (x : Issue) (d : Fin 32) (a : Fin 32) (b : Fin 32)
  /-- CTL_AND (R327). Bitwise AND of S registers. -/
  | ctlAnd (x : Issue) (d : Fin 32) (a : Fin 32) (b : Fin 32)
  /-- CTL_OR (R327). Bitwise OR of S registers. -/
  | ctlOr (x : Issue) (d : Fin 32) (a : Fin 32) (b : Fin 32)
  /-- CTL_XOR (R327). Bitwise XOR of S registers. -/
  | ctlXor (x : Issue) (d : Fin 32) (a : Fin 32) (b : Fin 32)
  /-- CTL_SHL (R327). Left shift by S[b] mod 32. -/
  | ctlShl (x : Issue) (d : Fin 32) (a : Fin 32) (b : Fin 32)
  /-- CTL_SHR (R327). Logical right shift by S[b] mod 32. -/
  | ctlShr (x : Issue) (d : Fin 32) (a : Fin 32) (b : Fin 32)
  /-- CTL_SRA (R327). Arithmetic right shift by S[b] mod 32. -/
  | ctlSra (x : Issue) (d : Fin 32) (a : Fin 32) (b : Fin 32)
  /-- CTL_ADDI (R327). S[d] += sign-extended immediate. -/
  | ctlAddi (x : Issue) (d : Fin 32) (imm : BitVec 16)
  /-- CTL_MOVI (R327). S[d] = sign-extended immediate. -/
  | ctlMovi (x : Issue) (d : Fin 32) (imm : BitVec 16)
  /-- CTL_MOVHI (R327). Sets bits 31:16 of S[d] to the immediate. -/
  | ctlMovhi (x : Issue) (d : Fin 32) (imm : BitVec 16)
  /-- CTL_CMP_EQ (R327). P[pd] = (S[a] = S[b]). -/
  | ctlCmpEq (x : Issue) (pd : Fin 8) (a : Fin 32) (b : Fin 32)
  /-- CTL_CMP_LT (R327). P[pd] = signed S[a] < S[b]. -/
  | ctlCmpLt (x : Issue) (pd : Fin 8) (a : Fin 32) (b : Fin 32)
  /-- CTL_CMP_LTU (R327). P[pd] = unsigned S[a] < S[b]. -/
  | ctlCmpLtu (x : Issue) (pd : Fin 8) (a : Fin 32) (b : Fin 32)
  /-- CTL_PLOG (R327). P[pd] = P[pa] op P[pb]. -/
  | ctlPlog (x : Issue) (pd : Fin 8) (pa : Fin 8) (pb : Fin 8) (op : Fin 4)
  /-- CTL_BR (R315). Branches by a signed offset within the stream or body. -/
  | ctlBr (x : Issue) (off : BitVec 16)
  /-- CTL_LOOP (R327). Decrements S[a] and branches while it is not zero. -/
  | ctlLoop (x : Issue) (a : Fin 32) (off : BitVec 16)
  /-- CTL_END (R323). Ends the hoop's part of the program, or ends the firing, releasing and publishing tokens. -/
  | ctlEnd (x : Issue)
  /-- CTL_WAITTURN (R329). Ends this turn's work on the hoop and waits for the next program start with state kept. -/
  | ctlWaitturn (x : Issue)
  /-- CTL_CKPT (R248). Reports checkpoint k to the Deadline Governor. -/
  | ctlCkpt (x : Issue) (k : Fin 64)
  /-- CTL_FENCE (R314). Waits until every earlier memory, KV and token transfer of the hoop has completed. -/
  | ctlFence (x : Issue)
  /-- CTL_TDLD (R327). Loads a descriptor from the image or actor table into a TD register. -/
  | ctlTdld (x : Issue) (td : Fin 64) (idx : BitVec 14) (e : MemErr)
  /-- CTL_TDADD (R327). Adds 64 × S[a] to a descriptor's BASE. -/
  | ctlTdadd (x : Issue) (td : Fin 64) (a : Fin 32)
  /-- CTL_FLAGS (R328). Reads the Purl flag word into S[d], clearing it where asked. -/
  | ctlFlags (x : Issue) (d : Fin 32) (clr : Bool)
  /-- CTL_HCLR (R327). Clears the histogram banks named in the mask. -/
  | ctlHclr (x : Issue) (mask : BitVec 8)
  /-- CTL_SREG (R328). Reads a special value such as hoop, turn, tenant or Device Time into S[d]. -/
  | ctlSreg (x : Issue) (d : Fin 32) (sel : BitVec 5)
  /-- LD_T (R330). Copies a tensor between spaces, transposing and counting into a bank where asked. -/
  | ldT (x : Issue) (tdd : Fin 64) (tds : Fin 64) (t : Bool) (h : Fin 8) (e : MemErr)
  /-- SHF_T (R295). Transposing copy between Hoop SRAM tensors, counting into a bank. -/
  | shfT (x : Issue) (tdd : Fin 64) (tds : Fin 64) (h : Fin 8) (e : MemErr)
  /-- LD_V (R331). Loads L consecutive elements of a tensor into a V register. -/
  | ldV (x : Issue) (r : Fin 32) (td : Fin 64) (c : Fin 32) (e : MemErr)
  /-- LD_S (R331). Loads the bits of one tensor element into an S register. -/
  | ldS (x : Issue) (r : Fin 32) (td : Fin 64) (c : Fin 32) (e : MemErr)
  /-- KV_GATHER (R340). Copies KV entries of a sequence stream into a Hoop SRAM tensor, parking on non-resident Skeins. -/
  | kvGather (x : Issue) (td : Fin 64) (q : Fin 32) (l : Fin 32) (p : Fin 32) (pl : Bool) (e : MemErr)
  /-- MMA (R333). Accumulates A × B into a Needle tile, checked by the Witness as it retires. -/
  | mma (x : Issue) (n : Fin 8) (k : Fin 8) (tda : Fin 64) (tdb : Fin 64) (e : MemErr)
  /-- MMA_ATT (R334). Computes attention scores into a tile with bias, causal and candidate masking. -/
  | mmaAtt (x : Issue) (n : Fin 8) (k : Fin 8) (tdq : Fin 64) (tdk : Fin 64) (g : Fin 16) (e : MemErr)
  /-- NDL_CLR (R332). Sets the named tiles to zero and CLEARED. -/
  | ndlClr (x : Issue) (n : Fin 8) (mask : BitVec 8)
  /-- PRL_ADD (R335). Lanewise a + b. -/
  | prlAdd (x : Issue) (d : Fin 32) (a : Fin 32) (b : Fin 32) (fmt : Fin 4)
  /-- PRL_SUB (R335). Lanewise a − b. -/
  | prlSub (x : Issue) (d : Fin 32) (a : Fin 32) (b : Fin 32) (fmt : Fin 4)
  /-- PRL_MUL (R335). Lanewise a × b. -/
  | prlMul (x : Issue) (d : Fin 32) (a : Fin 32) (b : Fin 32) (fmt : Fin 4)
  /-- PRL_FMA (R335). Lanewise a × b + c with one rounding. -/
  | prlFma (x : Issue) (d : Fin 32) (a : Fin 32) (b : Fin 32) (c : Fin 32) (fmt : Fin 4)
  /-- PRL_DIV (R335). Lanewise a / b. -/
  | prlDiv (x : Issue) (d : Fin 32) (a : Fin 32) (b : Fin 32) (fmt : Fin 4)
  /-- PRL_SQRT (R335). Lanewise square root. -/
  | prlSqrt (x : Issue) (d : Fin 32) (a : Fin 32) (fmt : Fin 4)
  /-- PRL_MIN (R335). Lanewise IEEE minimum. -/
  | prlMin (x : Issue) (d : Fin 32) (a : Fin 32) (b : Fin 32) (fmt : Fin 4)
  /-- PRL_MAX (R335). Lanewise IEEE maximum. -/
  | prlMax (x : Issue) (d : Fin 32) (a : Fin 32) (b : Fin 32) (fmt : Fin 4)
  /-- PRL_ABS (R335). Lanewise absolute value. -/
  | prlAbs (x : Issue) (d : Fin 32) (a : Fin 32) (fmt : Fin 4)
  /-- PRL_NEG (R335). Lanewise negation. -/
  | prlNeg (x : Issue) (d : Fin 32) (a : Fin 32) (fmt : Fin 4)
  /-- PRL_MOV (R335). Vector move. -/
  | prlMov (x : Issue) (d : Fin 32) (a : Fin 32) (fmt : Fin 4)
  /-- PRL_CMP_EQ (R336). Lane all ones where a = b. -/
  | prlCmpEq (x : Issue) (d : Fin 32) (a : Fin 32) (b : Fin 32) (fmt : Fin 4)
  /-- PRL_CMP_LT (R336). Lane all ones where a < b. -/
  | prlCmpLt (x : Issue) (d : Fin 32) (a : Fin 32) (b : Fin 32) (fmt : Fin 4)
  /-- PRL_CMP_LE (R336). Lane all ones where a ≤ b. -/
  | prlCmpLe (x : Issue) (d : Fin 32) (a : Fin 32) (b : Fin 32) (fmt : Fin 4)
  /-- PRL_SEL (R335). Selects a or b by lane c. -/
  | prlSel (x : Issue) (d : Fin 32) (a : Fin 32) (b : Fin 32) (c : Fin 32) (fmt : Fin 4)
  /-- PRL_EXP2 (R336). Lanewise 2^a. -/
  | prlExp2 (x : Issue) (d : Fin 32) (a : Fin 32) (fmt : Fin 4)
  /-- PRL_RED_SUM (R336). Tree sum of the lanes into lane 0. -/
  | prlRedSum (x : Issue) (d : Fin 32) (a : Fin 32) (fmt : Fin 4)
  /-- PRL_RED_MAX (R335). Maximum of the lanes into lane 0. -/
  | prlRedMax (x : Issue) (d : Fin 32) (a : Fin 32) (fmt : Fin 4)
  /-- PRL_CVT (R336). Converts a vector between Purl formats. -/
  | prlCvt (x : Issue) (d : Fin 32) (a : Fin 32) (h : Bool) (src : Fin 4) (fmt : Fin 4)
  /-- PRL_BCAST (R336). Broadcasts S[a] into every lane. -/
  | prlBcast (x : Issue) (d : Fin 32) (a : Fin 32) (fmt : Fin 4)
  /-- PRL_RDACC (R336). Reads a quarter of an accumulator tile, scaled by F, into a V register. -/
  | prlRdacc (x : Issue) (d : Fin 32) (n : Fin 8) (k : Fin 8) (q : Fin 4)
  /-- PRL_LANE (R335). Reads the bits of one lane into an S register. -/
  | prlLane (x : Issue) (d : Fin 32) (a : Fin 32) (lane : Fin 128) (fmt : Fin 4)
  /-- ST_T (R338). Stores a tile into a tensor with quantisation, counting into a bank and clearing where asked. -/
  | stT (x : Issue) (tdd : Fin 64) (n : Fin 8) (k : Fin 8) (h : Fin 8) (clr : Bool) (e : MemErr)
  /-- ST_T_V (R338). Stores a V register into a tensor, counting into a bank. -/
  | stTV (x : Issue) (r : Fin 32) (td : Fin 64) (c : Fin 32) (h : Fin 8) (e : MemErr)
  /-- ST_S (R338). Writes the low bits of S[r] as one tensor element. -/
  | stS (x : Issue) (r : Fin 32) (td : Fin 64) (c : Fin 32) (e : MemErr)
  /-- ST_HIST (R337). Writes a histogram bank as its 272-byte block, clearing it where asked. -/
  | stHist (x : Issue) (h : Fin 8) (td : Fin 64) (clr : Bool) (e : MemErr)
  /-- KV_APPEND (R339). Writes KV entries into the Thimble and commits the length where cm is set, parking when places are short. -/
  | kvAppend (x : Issue) (td : Fin 64) (q : Fin 32) (l : Fin 32) (pl : Bool) (cm : Bool) (e : MemErr)
  /-- SYNC_SIG (R342). Adds 1 to a sync counter of a logical hoop after earlier transfers complete. -/
  | syncSig (x : Issue) (lh : Fin 32) (c : Fin 16)
  /-- SYNC_WAIT (R342). Waits until a sync counter reaches v, then subtracts v. -/
  | syncWait (x : Issue) (c : Fin 16) (v : BitVec 12)
  /-- TOK_RECV (R343). Copies a held input token to a tensor base. -/
  | tokRecv (x : Issue) (td : Fin 64) (ch : Fin 8) (idx : BitVec 8) (e : MemErr)
  /-- TOK_SEND (R343). Copies a token into a reserved output place, publishing where asked. -/
  | tokSend (x : Issue) (td : Fin 64) (ch : Fin 8) (idx : BitVec 8) (pub : Bool) (e : MemErr)
  /-- TOK_CREDIT (R343). Releases held input tokens as credits to the producer. -/
  | tokCredit (x : Issue) (ch : Fin 8) (n : BitVec 8)
  /-- LACE_STEP (R363). Steps the Lace network up to 64 time steps on events, writing output spikes. -/
  | laceStep (x : Issue) (tdi : Fin 64) (tdo : Fin 64) (a : Fin 32) (e : MemErr)
  /-- LACE_LEARN (R365). Applies a learning rule over recent steps into the pending-delta buffer. -/
  | laceLearn (x : Issue) (rule : Fin 16) (a : Fin 32)
  /-- LACE_COMMIT_SYLLABLE (R369). A commit point at which an armed Lace action takes effect. -/
  | laceCommitSyllable (x : Issue)
  /-- LACE_COMMIT_APPLY (R370). The armed APPLY or DISCARD takes effect on the pending-delta buffer and the command completes. -/
  | laceCommitApply (l : Fin 4)
  /-- LACE_LOAD (R357). A write of 1 to TE_LACE_CTL.LOAD requests a network image load. -/
  | laceLoad (iid : Iid) (l : Fin 4) (value : Word)
  /-- LACE_LOAD_RUN (R357). Once no firing runs, the image is read, checked and loaded, clearing state and setting TNOW. -/
  | laceLoadRun (l : Fin 4)
  /-- LACE_SAVE (R373). A write of 1 to TE_LACE_CTL.SAVE requests write-back of the synapse array. -/
  | laceSave (iid : Iid) (l : Fin 4) (value : Word)
  /-- LACE_SAVE_RUN (R373). Once no firing runs, the SYN array and CRC are written back into the image. -/
  | laceSaveRun (l : Fin 4)
  /-- THIMBLE_FLUSH (R393). Committed Thimble places are flushed in position order into Skeins, allocating and copying on write. -/
  | thimbleFlush (q : Fin 1024)
  /-- SKEIN_SPILL (R399). A victim Skein is written to the Reel spill partition. -/
  | skeinSpill (q : Fin 1024)
  /-- SPILL_COMPLETE (R390). A spill ends, the Skein becomes SPILLED and its Bobbin block is freed. -/
  | spillComplete (k : Nat)
  /-- BACKGROUND_SPILL (R400). Free pool below LOW_PCT starts background spills until HIGH_PCT is free. -/
  | backgroundSpill
  /-- SKEIN_RETURN (R401). A spilled Skein is read back from the Reel for a gather, prefetch or pin. -/
  | skeinReturn (q : Fin 1024) (k : Nat)
  /-- RETURN_COMPLETE (R390). A return ends and the Skein is LIVE, or LOST on a Reel error. -/
  | returnComplete (k : Nat) (ok : Bool)
  /-- FREEING_COMPLETE (R397). Once its gathers end, a FREEING sequence drops its references and becomes FREE. -/
  | freeingComplete (q : Fin 1024)
  /-- EXHAUSTED_RETRY (R402). An EXHAUSTED sequence retries its block request when a block or granule is freed. -/
  | exhaustedRetry (q : Fin 1024)
  /-- ATU_INVALIDATE (R443). A write of 1 to AT_INV_CTL[t].GO starts removal of cached translations of a range. -/
  | atuInvalidate (iid : Iid) (t : Fin 8) (value : Word)
  /-- ATU_INVALIDATE_DONE (R443). GO clears once the range is removed and every access through it has completed. -/
  | atuInvalidateDone (t : Fin 8)
  /-- ATU_FAULT_POP (R445). A read of AT_FAULT_INFO[t] pops the head fault and latches its VA. -/
  | atuFaultPop (iid : Iid) (t : Fin 8)
  /-- REEL_FILL_COMPLETE (R430). A Reel cache line fill ends and the waiting access is served. -/
  | reelFillComplete (line : Nat) (ok : Bool)
  /-- WRITEBACK_DRAIN (R430). A dirty line in the write-back buffer reaches the Reel, freeing buffer room. -/
  | writebackDrain
  /-- REEL_FLUSH (R431). A write of 1 to MEM_RC_CTL.FLUSH writes back every line dirty at that instant. -/
  | reelFlush (iid : Iid)
  /-- REEL_FLUSH_DONE (R431). The last flushed line reaches the Reel and FLUSH clears. -/
  | reelFlushDone
  /-- SCRUB_LINE (R446). Patrol scrub reads a line, writes back corrections and poisons uncorrectable lines. -/
  | scrubLine (line : Nat) (found : Ecc)
  /-- REGION_STATE_WRITE (R459). The fabric manager's write of PL_RGN_CFG[r].STATE moves a region, draining admitted accesses. -/
  | regionStateWrite (iid : Iid) (r : Fin 16) (value : Word)
  /-- REGION_DRAIN_COMPLETE (R460). Every access admitted before the move completes and the new state is shown. -/
  | regionDrainComplete (r : Fin 16)
  /-- POOL_WINDOW_ACCESS (R532). A request in the pool window reaches its DPA through the region and Pool checks. -/
  | poolWindowAccess (t : Fin 8) (off : Nat) (write : Bool) (len : Nat) (data : List Byte) (ep : Bool) (e : MemErr)
  /-- RECALL_GRACE_EXPIRY (R464). PL_RECALL_GRACE after a recall the extent enters REVOKING. -/
  | recallGraceExpiry (x : Fin 32)
  /-- REVOCATION_COMPLETE (R466). Every admitted unit completes and the extent becomes FREE, completing recall and release. -/
  | revocationComplete (x : Fin 32)
  /-- TRACK_CLAIM (R486). A read of TK_CLAIM claims a square with its CSN, or returns FULL or QUOTA. -/
  | trackClaim (iid : Iid)
  /-- SQUARE_WRITE (R488). A write to the square window fills a claimed square of its claimant. -/
  | squareWrite (iid : Iid) (n : Fin 4096) (w : Fin 32) (value : Word)
  /-- TRACK_PUBLISH (R489). A write to TK_PUBLISH publishes a claimed square. -/
  | trackPublish (iid : Iid) (value : Word)
  /-- LEASE_EXPIRY (R490). An unpublished square past TK_LEASE is voided with a 0x8002 completion. -/
  | leaseExpiry (n : Fin 4096)
  /-- COMMAND_ACCEPT (R492). A published square in view is copied into the command store and released. -/
  | commandAccept
  /-- COMPLETION_RECORD_WRITE (R497). A waiting completion record is written once the queue has room, with MSI-X where asked. -/
  | completionRecordWrite (req : Fin 10)
  /-- NOP (R498). Track command that completes at once. -/
  | nop (req : Fin 10) (csn : BitVec 16)
  /-- LAUNCH_TURN (R501). Pin-walks a turn program image and ranges and arms its start at a turn. -/
  | launchTurn (req : Fin 10) (csn : BitVec 16)
  /-- LAUNCH_ACTORS (R502). Admits a graph of Token actors and channels for the tenant. -/
  | launchActors (req : Fin 10) (csn : BitVec 16)
  /-- COPY (R500). Starts a block transfer between device, host and Frame Store spaces in 4 KiB granules. -/
  | copy (req : Fin 10) (csn : BitVec 16)
  /-- COPY_GRANULE (R500). One granule of a COPY is translated, checked and written whole, or suspends the COPY on a fault. -/
  | copyGranule (req : Fin 10) (csn : BitVec 16) (host : List Byte) (e : MemErr)
  /-- FENCE (R498). Completes when every earlier command of the requester in the named lanes has completed. -/
  | fence (req : Fin 10) (csn : BitVec 16)
  /-- TIME_EVENT (R498). Waits for a Device Time or turn start, or completes at once with 0x8009. -/
  | timeEvent (req : Fin 10) (csn : BitVec 16)
  /-- TIME_EVENT_REACHED (R498). The TIME_EVENT target is reached and the command completes. -/
  | timeEventReached (req : Fin 10) (csn : BitVec 16)
  /-- TABLE_STAGE (R503). Reads and checks a table and stages it under a generation. -/
  | tableStage (req : Fin 10) (csn : BitVec 16)
  /-- TABLE_COMMIT (R505). Makes a commit of staged tables and fields pending for a target turn. -/
  | tableCommit (req : Fin 10) (csn : BitVec 16)
  /-- KV_CREATE (R383). Creates a sequence from its descriptor and takes its Thimble area. -/
  | kvCreate (req : Fin 10) (csn : BitVec 16)
  /-- KV_FORK (R395). Forks a child sequence sharing the parent's prefix Skeins up to position f. -/
  | kvFork (req : Fin 10) (csn : BitVec 16)
  /-- KV_FREE (R397). Moves a sequence to FREEING and discards its Thimble places. -/
  | kvFree (req : Fin 10) (csn : BitVec 16)
  /-- KV_PIN_PIN (R398). Returns spilled Skeins of a range and pins every Skein in it. -/
  | kvPinPin (req : Fin 10) (csn : BitVec 16)
  /-- KV_PIN_UNPIN (R398). Removes an explicit pin from every Skein in the range. -/
  | kvPinUnpin (req : Fin 10) (csn : BitVec 16)
  /-- KV_PIN_PREFETCH (R398). Returns every spilled Skein in the range to the Bobbins. -/
  | kvPinPrefetch (req : Fin 10) (csn : BitVec 16)
  /-- KV_PIN_ROTATE (R409). Sends owned ring blocks of a range east and maps arriving foreign blocks. -/
  | kvPinRotate (req : Fin 10) (csn : BitVec 16)
  /-- KV_PIN_RELEASE (R409). Drops the pin of visiting ring blocks and frees their Skeins. -/
  | kvPinRelease (req : Fin 10) (csn : BitVec 16)
  /-- EXTENT_GRANT (R463). Grants a FREE extent to a holder with a new generation. -/
  | extentGrant (req : Fin 10) (csn : BitVec 16)
  /-- EXTENT_RECALL (R467). Recalls an extent, notifying its holder, or completes with 0x7010. -/
  | extentRecall (req : Fin 10) (csn : BitVec 16)
  /-- EXTENT_RELEASE (R467). The holder releases an extent, or completes with 0x7011 or 0x7008. -/
  | extentRelease (req : Fin 10) (csn : BitVec 16)
  /-- LACE_COMMIT (R369). Arms an APPLY or DISCARD of a Lace Hoop's pending deltas. -/
  | laceCommit (req : Fin 10) (csn : BitVec 16)
  /-- RESUME_COMMAND (R512). Retries a suspended COPY at its faulting granule. -/
  | resumeCommand (req : Fin 10) (csn : BitVec 16)
  /-- RESUME_ACTOR (R512). Reissues a held firing's faulting transfer, or lets the actor fire again. -/
  | resumeActor (req : Fin 10) (csn : BitVec 16)
  /-- ABORT_COMMAND (R512). Ends a suspended COPY or unexecuted command with 0x800B. -/
  | abortCommand (req : Fin 10) (csn : BitVec 16)
  /-- ABORT_ACTOR (R512). Discards an actor's held or parked firing and stops it firing again. -/
  | abortActor (req : Fin 10) (csn : BitVec 16)
  /-- ABORT_GRAPH (R512). Discards held and parked firings of a graph and frees it when none remains. -/
  | abortGraph (req : Fin 10) (csn : BitVec 16)
  /-- ABORT_TURN (R512). Ends the running turn program at once and stops later starts until a LAUNCH_TURN. -/
  | abortTurn (req : Fin 10) (csn : BitVec 16)
  /-- HANG_RELAUNCH (R613). When its ABORT completes, the Referee relaunches the copied turn image, reporting 0xB00C on failure. -/
  | hangRelaunch
  /-- FUNCTION_DISABLE (R547). A function entering the disabled state voids its squares, ends its work and reports 0x9009. -/
  | functionDisable (t : Fin 8) (mse : Bool) (bme : Bool) (vfe : Bool)
  /-- FUNCTION_LEVEL_RESET (R549). A Function Level Reset resets the function's queue and ATU registers within 100 ms. -/
  | functionLevelReset (t : Fin 8)
  /-- LINK_DOWN (R548). Loss of a PCIe link resets its functions' configuration space and reports 0x900A. -/
  | linkDown (port : Fin 2)
  /-- MSIX_PENDING_SEND (R531). A held MSI-X message is sent once its vector and function are enabled and unmasked. -/
  | msixPendingSend (t : Fin 8) (v : Fin 32)
  /-- SV_PORT_ENABLE (R561). Writing SV_PORT_CTL[p].EN 1 starts training the port's lanes. -/
  | svPortEnable (iid : Iid) (p : Fin 2)
  /-- SV_PORT_DISABLE (R561). Writing EN 0 returns the port to DOWN. -/
  | svPortDisable (iid : Iid) (p : Fin 2)
  /-- LANE_BLOCK_LOCK (R559). 64 valid sync headers give a lane block lock. -/
  | laneBlockLock (p : Fin 2) (l : Fin 4)
  /-- LANE_BLOCK_LOCK_LOSS (R559). 16 invalid headers in 64 lose block lock and send an UP port DOWN. -/
  | laneBlockLockLoss (p : Fin 2) (l : Fin 4)
  /-- LANE_MARKER_LOCK (R559). Markers at three spaced positions give marker lock; all lanes locked and deskewed move ALIGN to INIT. -/
  | laneMarkerLock (p : Fin 2) (l : Fin 4) (deskewed : Bool)
  /-- LANE_MARKER_LOCK_LOSS (R559). Four missing expected markers lose marker lock and send the port DOWN with 0xA002. -/
  | laneMarkerLockLoss (p : Fin 2) (l : Fin 4)
  /-- LINK_TRAIN_FAIL (R561). Training or alignment not done in time sends the port DOWN with 0xA001 and schedules a retry. -/
  | linkTrainFail (p : Fin 2)
  /-- SV_TRAIN_RETRY (R561). 100 ms after a training failure the port trains again. -/
  | svTrainRetry (p : Fin 2)
  /-- SV_INIT_DONE (R561). Both sides have exchanged initial credits and the port is UP. -/
  | svInitDone (p : Fin 2)
  /-- SELVEDGE_CAL (R561). Recalibration sends CAL, pauses the port for 20 µs and re-locks its lanes. -/
  | selvedgeCal (p : Fin 2)
  /-- CAL_TIMEOUT (R561). Lanes not re-locked within 100 µs send the port DOWN with 0xA002. -/
  | calTimeout (p : Fin 2)
  /-- CAL_RECEIVE (R561). A received CAL block makes the receiver ignore lock loss on that port for 100 µs. -/
  | calReceive (p : Fin 2)
  /-- CREDIT_BLOCK (R564). A CREDIT block returns credit units and acknowledges or NAKs link sequences, starting replay. -/
  | creditBlock (p : Fin 2) (ack : BitVec 16) (cls : Fin 4) (units : BitVec 16)
  /-- BAD_MSG (R563). A message of an unknown type is discarded and counted. -/
  | badMsg (m : SvHead) (kind : Byte)
  /-- HELLO (R570). A received HELLO advances pairing toward MEMBER and checks identity, ring order and roles. -/
  | hello (m : SvHead) (dev : Fin 8) (members : BitVec 4) (twin : Bool) (role : Bool) (stepping : Byte)
  /-- HEARTBEAT (R572). A received HEARTBEAT keeps its source LIVE and is forwarded until MEMBERS − 1 hops. -/
  | heartbeat (m : SvHead) (seq : Word) (live : Byte) (owner : Bool) (epoch : BitVec 64) (per : BitVec 64) (turn : BitVec 64) (run : Bool)
  /-- HEARTBEAT_SEND (R572). Every PER µs the device broadcasts a HEARTBEAT on both ports. -/
  | heartbeatSend
  /-- HEARTBEAT_LOSS (R572). No HEARTBEAT within PER × MISS declares the device lost with 0xA012, revoking its extents. -/
  | heartbeatLoss (d : Fin 8)
  /-- TIME_EXCHANGE_SEND (R567). Every 125 ms an UP port sends TIME to its neighbour. -/
  | timeExchangeSend (p : Fin 2)
  /-- TIME (R567). A TIME message is answered or completes an exchange that publishes peer offset and delay. -/
  | time (m : SvHead) (answer : Bool) (t1 : Nat) (t2 : Nat) (t3 : Nat)
  /-- TRIGGER_HANDOVER (R577). The MC's write to SV_HANDOVER sends HANDOVER naming the target Lead turn. -/
  | triggerHandover (iid : Iid) (value : Word)
  /-- HANDOVER (R577). A received HANDOVER schedules the ownership switch, or reports 0xA021 when the turn has passed. -/
  | handover (m : SvHead) (turn : Word) (mask : BitVec 16)
  /-- NOTICE (R465). A received extent recall notice for a remote holder. -/
  | notice (m : SvHead) (x : Fin 32) (gen : BitVec 16)
  /-- DETACH (R574). A received DETACH makes members treat the sender as lost at once. -/
  | detach (m : SvHead)
  /-- SV_DETACH (R574). A write of 1 to SV_CTL.DETACH sends DETACH and returns the device to ALONE once acknowledged. -/
  | svDetach (iid : Iid)
  /-- SV_ENABLE (R570). Setting SV_CTL.EN makes UP ports send HELLO and start pairing. -/
  | svEnable (iid : Iid)
  /-- MIRROR_WR (R579). A received mirror write is applied to the local copy and acknowledged. -/
  | mirrorWr (m : SvHead) (dpa : BitVec 40) (lines : List Byte) (e : MemErr)
  /-- MIRROR_ACK (R579). A received acknowledgement completes a mirrored write to its writer. -/
  | mirrorAck (m : SvHead) (dpa : BitVec 40) (status : BitVec 16)
  /-- POOL_RD (R579). A remote pool read passes the Pool check and is answered with data. -/
  | poolRd (m : SvHead) (dpa : BitVec 40) (len : Nat) (tenant : Fin 8) (e : MemErr)
  /-- POOL_RD_DATA (R579). Returned remote read data complete a pending pool read. -/
  | poolRdData (m : SvHead) (data : List Byte) (poison : List Bool) (status : BitVec 16)
  /-- POOL_WR (R579). A remote pool write passes the Pool check, is applied and acknowledged. -/
  | poolWr (m : SvHead) (dpa : BitVec 40) (lines : List Byte) (tenant : Fin 8) (e : MemErr)
  /-- POOL_WR_ACK (R579). A returned status completes a pending remote pool write. -/
  | poolWrAck (m : SvHead) (status : BitVec 16)
  /-- RING_BLOCK (R409). An arriving ring-attention block is mapped, held VISITING and forwarded east where required. -/
  | ringBlock (m : SvHead) (q : Fin 1024) (block : Nat) (region : Nat) (entries : List Byte) (last : Bool)
  /-- BLOCK_FETCH (R410). A request for a ring block is answered by its owner or mirror. -/
  | blockFetch (m : SvHead) (q : Fin 1024) (block : Nat)
  /-- RESILVER_GRANULE (R580). A dirty granule is sent to the twin; a granule dirty on both is taken from the Lead with 0xA030. -/
  | resilverGranule
  /-- TX_STALE_DROP (R568). A TIME, HEARTBEAT or HANDOVER not started 200 µs after transmit lock loss is dropped with 0xA031. -/
  | txStaleDrop (p : Fin 2)
  /-- RULESET_DOORBELL (R596). The MC's doorbell makes the Referee copy and check its ruleset image. -/
  | rulesetDoorbell (image : List Byte)
  /-- RULESET_CHECK_DONE (R597). The ruleset is put in force, or AUTH_FAIL sets and 0xB001 is reported. -/
  | rulesetCheckDone (sigOk : Bool)
  /-- LOCKSTEP_MISMATCH (R594). Differing core outputs record 0xB00E, assert SAFE_OFF_N, stop RF_HB and stop the cores. -/
  | lockstepMismatch
  /-- REF_SRAM_UNCORR (R594). An uncorrectable Referee SRAM error takes the safe state with 0xB00D. -/
  | refSramUncorr
  /-- CLOCK_MONITOR (R592). A Referee clock out of range for 10 µs takes the safe state with 0xB00F. -/
  | clockMonitor
  /-- RF_HB_TOGGLE (R618). Every HB_PER µs RF_HB changes level where the supervision pass has completed. -/
  | rfHbToggle
  /-- REFEREE_RESET_RELEASE (R617). After reset release the Referee arms its comparator and drives SAFE_OFF_N high within 5 ms. -/
  | refereeResetRelease
  /-- COLD_RESET (R645). POR_N rising starts the boot ROM, which authenticates Paeno and boots the device. -/
  | coldReset (straps : Straps) (flash : BootFlash)
  /-- WARM_RESET (R646). MC_RST_CTL.WARM, WARM_RST_N or the MC watchdog resets the device, keeping the Referee and Bobbins. -/
  | warmReset (iid : Option Iid)
  /-- PORT_RESET (R645). PERST_N of one port low resets that port's link and functions. -/
  | portReset (port : Fin 2)
  /-- POWER_GOOD_RISE (R642). A power-good input rises and the MC drives the next rail enable. -/
  | powerGoodRise (rail : Fin 4)
  /-- RAIL_FAULT (R644). A power-good late by 20 ms or lost is reported with 0xC007. -/
  | railFault (rail : Fin 4)
  /-- BOBBIN_TRAINING_DONE (R652). Bobbin training ends, retrying once and reporting 0xC003 on a second failure. -/
  | bobbinTrainingDone (ok : BitVec 4)
  /-- REEL_INIT (R652). A Reel controller not ready 80 ms after PG_REEL is reported with 0xC004. -/
  | reelInit
  /-- CONFIG_LOCK (R647). The MC's write of 1 to MC_LOCK.LOCK sets the configuration lock. -/
  | configLock (iid : Iid) (value : Word)
  /-- RECOVERY_LOAD (R653). A write of 1 to MC_RECOV_GO loads and checks a recovery image from host memory, reporting 0xC00A on failure. -/
  | recoveryLoad (iid : Iid) (value : Word) (ok : Bool) (version : Word)
  /-- ROLLBACK_COMMIT (R650). A write of 1 to MC_BOOT_CTL.RB_COMMIT raises FUSE_RB to the running image's ROLLBACK. -/
  | rollbackCommit (iid : Iid) (value : Word)
  /-- POWER_STATE_CHOOSE (R660). At an idle point the MC enters the deepest permitted state that fits before the next known event. -/
  | powerStateChoose
  /-- POWER_STATE_ENTRY_DONE (R654). Entry into a sleeping state completes with its rails removed. -/
  | powerStateEntryDone
  /-- POWER_STATE_EXIT_DONE (R655). Exit from a sleeping state completes in ACTIVE, restoring saved registers. -/
  | powerStateExitDone
  /-- PAUSE_EXIT (R662). Activity breaking the PAUSE conditions ends PAUSE without recording a reason. -/
  | pauseExit
  /-- WAKE_TIME (R662). Device Time reaching MC_WAKE_AT records TIME and begins exit. -/
  | wakeTime
  /-- WAKE_IN (R662). WAKE_IN low for 10 µs records a wake reason and begins exit. -/
  | wakeIn (ns : Nat)
  /-- HOST_WAKE (R664). A host access, CLKREQ_N or PERST_N rising records HOST_A or HOST_B and releases WAKE_N. -/
  | hostWake (port : Fin 2) (kind : Fin 3)
  /-- WAKE_REPORT (R665). Once the owner's port and function are enabled, pending reasons move to MC_WAKE_RPT with one MSI-X message. -/
  | wakeReport
  /-- PREP_OFF (R659). A write of 1 to MC_PWR_REQ.PREP_OFF flushes the Reel cache and then sets OFF_READY. -/
  | prepOff (iid : Iid) (value : Word)
  /-- THERMAL_SAMPLE (R670). Every 1 ms the MC samples temperatures and applies or releases the thermal cap. -/
  | thermalSample (die : List Int) (stack : List Int) (power : Nat)
  /-- WEAR_LEVEL (R666). Free Reel blocks below 2 % force wear levelling until 4 % is free. -/
  | wearLevel (free : Nat) (slcFree : Nat)
  /-- IDLE_CAL (R668). An idle window on a port past IDLE_MIN_S takes a CAL. -/
  | idleCal (p : Fin 2)
  /-- FORCED_CAL (R669). FORCE_S seconds after a port's last CAL a CAL is taken at once. -/
  | forcedCal (p : Fin 2)
  /-- ETH_SERDES_LOCK_LOSS (R89). The Ethernet SerDes PLL loses lock and PTP messages start waiting in the transmit queue. -/
  | ethSerdesLockLoss
  /-- ETH_SERDES_LOCK_RETURN (R89). The Ethernet SerDes PLL regains lock and waiting PTP messages leave, stamped at their actual start. -/
  | ethSerdesLockReturn
  /-- SV_TX_PLL_LOCK_LOSS (R568). A Selvedge port's transmit PLL loses lock and its TIME, HEARTBEAT and HANDOVER messages begin their 200 µs wait. -/
  | svTxPllLockLoss (p : Fin 2)
  /-- SV_TX_PLL_LOCK_RETURN (R568). A Selvedge port's transmit PLL regains lock and the held messages go out. -/
  | svTxPllLockReturn (p : Fin 2)
  /-- LANE_TRAINING_DONE (R561). All four lanes of a Selvedge port hold PLL lock, CDR lock and adaptation, and the port moves from TRAIN to ALIGN. -/
  | laneTrainingDone (p : Fin 2)
  /-- FUNCTION_ENABLE (R547). The host sets Memory Space Enable, Bus Master Enable or VF Enable again, and the function leaves the disabled state. -/
  | functionEnable (t : Fin 8) (mse : Bool) (bme : Bool) (vfe : Bool) (msix : Bool) (fmask : Bool)
  /-- FUNCTION_LEVEL_RESET_DONE (R549). A Function Level Reset completes within 100 ms, and HI_FUNC_STAT.FLR clears with the function's reset registers in place. -/
  | functionLevelResetDone (t : Fin 8)
  /-- REEL_READY (R652). The Reel controller becomes ready and MEM_STATUS.REEL_READY sets. -/
  | reelReady
  /-- WAKE_EVENT (R662). The next known event of R660 falls due during a sleeping state, records EVENT and begins exit. -/
  | wakeEvent
  /-- VBAT_LOW (R700). VBAT crosses 2.20 V and HG_BK_STAT.VBAT_LOW sets or clears. -/
  | vbatLow (low : Bool)
  /-- XTAL_OK_CHANGE (R90). The 32.768 kHz backup oscillator starts or stops, and HG_BK_STAT.XTAL_OK follows. -/
  | xtalOkChange (ok : Bool)
  /-- VDD_REF_FALL (R714). VDD_REF falls below 0.60 V while VDDIO_18 stays up, SAFE_OFF_N and RF_HB go to high impedance, and the pull-down takes SAFE_OFF_N low. -/
  | vddRefFall
deriving DecidableEq, Repr

end Sys2Proof
end

