-- ==== Sys2Proof/Decode.lean ====
section
/-! DEFINITION. The word form of commands. The device is no processor: the command table gives no row any bits. -/

namespace Sys2Proof

/-- The command that a word spells by the table's bits: none, since no row has bits (log entry 1). -/
def decodeTableWord (_nbits _w : Nat) : Option Instr := none

end Sys2Proof
end

