-- ==== Sys2Proof/Config.lean ====
section
/-! DEFINITION. What the spec leaves open. Every constant here is opaque: nothing can evaluate it, so a statement about the
machine holds whatever value the hardware takes (log entry 2). -/

namespace Sys2Proof.Config

/-- The n-th free value of a run: a value the spec leaves undefined, taken as a number and cut to the width it is used at. -/
opaque freeValue : Nat → Nat

/-- The NaN that a Needle writes where an operand is NaN (R276): its sign and payload, from the accumulator and the operands. -/
opaque needleNan : Nat → Nat → Nat

/-- PRL.EXP2 where the result is not exact (R336): by format (fmt field) and operand bits. -/
opaque exp2 : Nat → Nat → Nat

/-- The 32-bit sum of a TRACE rule whose terms leave 32 bits (R366): the spec says neither that it wraps nor that it saturates. -/
opaque traceSum : List Int → Nat

/-! ### The Board and the ME (06_board_fusion.md): the spec gives formulas over FP64 and FP32 numbers, and no order of rounding -/

/-- The functions of the formulas. -/
inductive RexFn where
  | neg | sqrt | sin | cos | tan | atan | acos
deriving DecidableEq, Repr, Inhabited

/-- A formula of the spec over FP64 and FP32 numbers (by their bits) and integers. -/
inductive Rex where
  | f64 (x : Nat)
  | f32 (x : Nat)
  | int (x : Int)
  | add (a b : Rex)
  | sub (a b : Rex)
  | mul (a b : Rex)
  | div (a b : Rex)
  | fn (f : RexFn) (a : Rex)
  | atan2 (y x : Rex)
deriving DecidableEq, Repr, Inhabited

/-- A formula's value as the hardware works it out, as FP64 bits, as FP32 bits, and as the nearest integer: where and in which
order it rounds on the way is open. -/
opaque eval64 : Rex → Nat
opaque eval32 : Rex → Nat
opaque evalInt : Rex → Int

/-- The value between grid nodes of which one that counts has no pixel (R178), from the sixteenths across and down. -/
opaque gridHole : Nat → Nat → List (Option (Nat × Nat)) → Option (Nat × Nat)

/-- A colour where a neighbour of its plane lies outside the image (R181), from those inside. -/
opaque edgeColour : List Nat → Nat

/-- The ME's bias-corrected angular rate, and its attitude, at an instant other than the state time (R181, R190): from the ME's
numbers, the state time and the instant, the attitude's with the source's entry. -/
opaque rateAt : List Nat → Nat → Nat → List Nat
opaque attitudeAt : List Nat → Nat → List (BitVec 8) → Nat → List Nat

/-- A pixel of a data type whose packing the spec does not give, from the data type, the line and the column. -/
opaque otherPixel : Nat → List (BitVec 8) → Nat → Nat

/-- The depth at which the direction (xn, yn) of a source is placed for a DREF that is not zero (R183), from the panel's and the
source's entry: FP64. -/
opaque eventDepth : List (BitVec 8) → List (BitVec 8) → Nat × Nat → Nat

/-- The spherical interpolation between two attitudes by a fraction (R190), FP64. -/
opaque slerp : List Nat → List Nat → Nat → List Nat

/-- The attitude with the roll and pitch of a mean accelerometer vector and the yaw of an attitude (R196), and the numbers of a
state that begins: attitude, velocity, position, biases, covariance by rows, angular rate. -/
opaque levelAttitude : List Nat → Nat → List Nat
opaque meInit : List Nat

/-- The covariance after propagation by an IMU sample (R193), from the table's noise densities, the numbers before, the rotated
sample less its biases and the time; and over a time without one (R196). -/
opaque covPropagate : List Nat → List Nat → List Nat → Nat → List Nat
opaque covCoast : List Nat → Nat → List Nat

/-- The ME's numbers after a Kalman update (R194), from its kind, its rows of measured value, the model's value and deviation,
and the numbers before. -/
opaque kalman : Nat → List (Nat × Nat × Nat) → List Nat → List Nat

/-- The clone of pose and cross-covariance at TDET, a signed time after the state time (R194), and the numbers after a visual
update between two clones. -/
opaque meClone : List Nat → Int → List Nat
opaque meVisual : List Nat → List Nat → List Nat → List (BitVec 8) → List Nat

/-- A track: the velocity and covariance with which it begins, its covariance over a time with acceleration noise Q_ACC, its
numbers after a hit (R197), and the code of its state in R200. -/
opaque trackStart : List (BitVec 8) → List Nat
opaque trackCov : Nat → List Nat → Nat → List Nat
opaque trackHit : List Nat → List (BitVec 8) → List Nat
opaque trackState : Nat → Nat

/-- The stepping byte of HELLO: the Revision ID of stepping A1 (DEDUCED from R1). -/
def stepping : Nat := 1

end Sys2Proof.Config
end

