-- ==== Sys2Proof/Machine/Flags.lean ====
section
/-! DEFINITION. The eight number formats, their exact arithmetic and the flags it raises (R268-R283). Every finite value is
an exact dyadic number; a result is formed exactly and rounded once, to nearest, ties to even (R271). -/

namespace Sys2Proof.Machine

/-- The element formats, by code (R268). -/
inductive Fmt where
  | fp64
  | fp32
  | fp16
  | bf16
  | e4m3
  | e5m2
  | e2m1
  | int8
deriving DecidableEq, Repr, Inhabited

/-- The format of a code. Codes 8–15 are reserved: a descriptor that holds one is malformed (R297). -/
def fmtOf (c : Nat) : Option Fmt :=
  match c with
  | 0 => some .fp64 | 1 => some .fp32 | 2 => some .fp16 | 3 => some .bf16
  | 4 => some .e4m3 | 5 => some .e5m2 | 6 => some .e2m1 | 7 => some .int8
  | _ => none

/-- Bits of an element. -/
def Fmt.bits : Fmt → Nat
  | .fp64 => 64 | .fp32 => 32 | .fp16 => 16 | .bf16 => 16 | .e4m3 => 8 | .e5m2 => 8 | .e2m1 => 4 | .int8 => 8

/-- Exponent bits. -/
def Fmt.eb : Fmt → Nat
  | .fp64 => 11 | .fp32 => 8 | .fp16 => 5 | .bf16 => 8 | .e4m3 => 4 | .e5m2 => 5 | .e2m1 => 2 | .int8 => 0

/-- Mantissa bits. -/
def Fmt.mb : Fmt → Nat
  | .fp64 => 52 | .fp32 => 23 | .fp16 => 10 | .bf16 => 7 | .e4m3 => 3 | .e5m2 => 2 | .e2m1 => 1 | .int8 => 7

/-- Exponent bias. -/
def Fmt.bias : Fmt → Nat
  | .fp64 => 1023 | .fp32 => 127 | .fp16 => 15 | .bf16 => 127 | .e4m3 => 7 | .e5m2 => 15 | .e2m1 => 1 | .int8 => 0

/-- The formats that carry fine scales (R278). -/
def Fmt.short : Fmt → Bool
  | .e4m3 => true | .e5m2 => true | .e2m1 => true | .int8 => true
  | _ => false

/-- The largest finite encoding, without its sign (R268). -/
def Fmt.maxFinite : Fmt → Nat
  | .fp64 => 0x7FEFFFFFFFFFFFFF | .fp32 => 0x7F7FFFFF | .fp16 => 0x7BFF | .bf16 => 0x7F7F
  | .e4m3 => 0x7E | .e5m2 => 0x7B | .e2m1 => 7 | .int8 => 127

/-- The default NaN (R270); FP4-E2M1 and INT8 have none and take zero (R277). -/
def Fmt.defNan : Fmt → Nat
  | .fp64 => 0x7FF8000000000000 | .fp32 => 0x7FC00000 | .fp16 => 0x7E00 | .bf16 => 0x7FC0
  | .e4m3 => 0x7F | .e5m2 => 0x7E | .e2m1 => 0 | .int8 => 0

/-- A value: a NaN with its sign, whether it signals, and its payload as a fraction of 2⁻⁵²; an infinity; or
(−1)^neg × m × 2^e. -/
inductive FVal where
  | nan (neg sig : Bool) (payload : Nat)
  | inf (neg : Bool)
  | fin (neg : Bool) (m : Nat) (e : Int)
deriving DecidableEq, Repr, Inhabited

/-- Zero. -/
def FVal.zero : FVal := .fin false 0 0

/-- The default NaN as a value. -/
def FVal.dnan : FVal := .nan false false (2 ^ 51)

/-- The value that an encoding stands for. -/
def fpDecode (f : Fmt) (bits : Nat) : FVal :=
  let mb := f.mb
  let neg := bits / 2 ^ (f.bits - 1) % 2 == 1
  let ef := bits / 2 ^ mb % 2 ^ f.eb
  let mf := bits % 2 ^ mb
  match f with
  | .int8 => let v := bits % 256
             if v < 128 then .fin false v 0 else .fin true (256 - v) 0
  | _ =>
    let top := 2 ^ f.eb - 1
    if ef = top ∧ f = .e4m3 ∧ mf = 7 then .nan neg false (2 ^ 51)
    else if ef = top ∧ f ≠ .e4m3 ∧ f ≠ .e2m1 then
      if mf = 0 then .inf neg else .nan neg (mf / 2 ^ (mb - 1) % 2 == 0) (mf * 2 ^ (52 - mb))
    else if ef = 0 then .fin neg mf (1 - (f.bias : Int) - mb)
    else .fin neg (2 ^ mb + mf) ((ef : Int) - f.bias - mb)

/-- `m × 2^e` rounded so that its last bit is not below 2^q: the new mantissa at 2^max(q, e), and whether bits were lost. -/
def roundAt (m : Nat) (e q : Int) : Nat × Int × Bool :=
  if q ≤ e then (m, e, false)
  else
    let s := (q - e).toNat
    let hi := m / 2 ^ s
    let r := m % 2 ^ s
    let up := 2 ^ s < 2 * r || (2 * r == 2 ^ s && hi % 2 == 1)
    (if up then hi + 1 else hi, q, r != 0)

/-- The exponent of the leading bit of `m × 2^e`. -/
def topExp (m : Nat) (e : Int) : Int := (Nat.log2 m : Int) + e

/-- The least normal exponent of a format. -/
def Fmt.emin (f : Fmt) : Int := 1 - (f.bias : Int)

/-- The last-bit exponent at which a value with leading exponent `t` is rounded. -/
def Fmt.lastBit (f : Fmt) (t : Int) : Int := max t f.emin - f.mb

/-- The encoding, without its sign, of a rounded magnitude that the format holds. -/
def fpPack (f : Fmt) (m : Nat) (e : Int) : Nat :=
  if m = 0 then 0
  else
    let t := topExp m e
    let q := f.lastBit t
    let k := if q ≤ e then m * 2 ^ (e - q).toNat else m / 2 ^ (q - e).toNat
    if k < 2 ^ f.mb then k else (t + f.bias).toNat * 2 ^ f.mb + (k - 2 ^ f.mb)

/-- The sign bit of a format. -/
def Fmt.signBit (f : Fmt) (neg : Bool) : Nat := if neg then 2 ^ (f.bits - 1) else 0

/-- A result and the flags it raises: 1 invalid, 2 divide-by-zero, 4 overflow, 8 underflow, 16 inexact, 32 SAT (R274). -/
structure FRes where
  bits : Nat
  flags : Nat := 0
deriving DecidableEq, Repr, Inhabited

/-- A NaN result of a format; a narrowing keeps the high bits of the payload (R273). -/
def nanBits (f : Fmt) (neg : Bool) (payload : Nat) : Nat :=
  match f with
  | .e2m1 => 0
  | .int8 => 0
  | .e4m3 => 0x7F + f.signBit neg
  | _ => f.signBit neg + (2 ^ f.eb - 1) * 2 ^ f.mb + (payload ||| 2 ^ 51) / 2 ^ (52 - f.mb) % 2 ^ f.mb

/-- Round to INT8 by R277: nearest integer, ties to even, saturating. -/
def toInt8 (neg : Bool) (m : Nat) (e : Int) : FRes :=
  let (k, ex, _) := roundAt m e 0
  let v := k * 2 ^ ex.toNat
  if neg then if 128 < v then ⟨128, 32⟩ else ⟨(256 - v) % 256, 0⟩
  else if 127 < v then ⟨127, 32⟩ else ⟨v, 0⟩

/-- Round a value into a format. FP64 and FP32 follow IEEE 754 with its flags (R272, R274); the others saturate (R277). -/
def fpRound (f : Fmt) (v : FVal) : FRes :=
  match v with
  | .nan neg _ p => ⟨nanBits f neg p, 0⟩
  | .inf neg =>
    match f with
    | .fp64 => ⟨f.signBit neg + 0x7FF0000000000000, 0⟩
    | .fp32 => ⟨f.signBit neg + 0x7F800000, 0⟩
    | .int8 => ⟨if neg then 128 else 127, 32⟩
    | _ => ⟨f.signBit neg + f.maxFinite, 32⟩
  | .fin neg m e =>
    if f = .int8 then toInt8 neg m e
    else if m = 0 then ⟨f.signBit neg, 0⟩
    else
      let t := topExp m e
      let (k, ex, lost) := roundAt m e (f.lastBit t)
      let tooBig := match fpDecode f f.maxFinite with
        | .fin _ mm me => decide ((mm : Int) * 2 ^ (me + 2000).toNat < (k : Int) * 2 ^ (ex + 2000).toNat)
        | _ => false
      let ieee := f = .fp64 ∨ f = .fp32
      if tooBig then
        if ieee then ⟨f.signBit neg + (2 ^ f.eb - 1) * 2 ^ f.mb, 4 + 16⟩ else ⟨f.signBit neg + f.maxFinite, 32⟩
      else
        let (k2, ex2, _) := roundAt m e (t - f.mb)
        let tiny := decide (topExp k2 ex2 < f.emin)
        ⟨f.signBit neg + fpPack f k ex, if ieee then (if lost then 16 else 0) + (if lost && tiny then 8 else 0) else 0⟩

/-- The sign of a value. -/
def FVal.neg? : FVal → Bool
  | .nan n _ _ => n
  | .inf n => n
  | .fin n _ _ => n

def FVal.isNan : FVal → Bool
  | .nan _ _ _ => true
  | _ => false

def FVal.isZero : FVal → Bool
  | .fin _ m _ => m == 0
  | _ => false

def FVal.isInf : FVal → Bool
  | .inf _ => true
  | _ => false

/-- A signalling NaN. -/
def FVal.signals : FVal → Bool
  | .nan _ s _ => s
  | _ => false

/-- A magnitude as a signed integer at exponent `e0`, which is not above the value's own. -/
def scaled (neg : Bool) (m : Nat) (e e0 : Int) : Int :=
  let v : Int := (m * 2 ^ (e - e0).toNat : Nat)
  if neg then -v else v

/-- A signed integer at exponent `e0` as a value; an exact zero takes the sign given. -/
def ofScaled (i : Int) (e0 : Int) (zneg : Bool) : FVal :=
  if i = 0 then .fin zneg 0 0 else .fin (decide (i < 0)) i.natAbs e0

/-- The exact sum of two values that are not NaN; the Bool says the operation is invalid (∞ − ∞). -/
def exactAdd (a b : FVal) : FVal × Bool :=
  match a, b with
  | .inf x, .inf y => if x = y then (.inf x, false) else (.dnan, true)
  | .inf x, _ => (.inf x, false)
  | _, .inf y => (.inf y, false)
  | .fin na ma ea, .fin nb mb eb =>
    let e0 := min ea eb
    (ofScaled (scaled na ma ea e0 + scaled nb mb eb e0) e0 (na && nb && ma == 0 && mb == 0), false)
  | a, _ => (a, false)

/-- The exact product of two values that are not NaN; invalid for 0 × ∞. -/
def exactMul (a b : FVal) : FVal × Bool :=
  match a, b with
  | .fin na ma ea, .fin nb mb eb => (.fin (na != nb) (ma * mb) (ea + eb), false)
  | a, b => if a.isZero || b.isZero then (.dnan, true) else (.inf (a.neg? != b.neg?), false)

/-- Integer square root, bit by bit from bit `i` down, with remainder left in the comparison. -/
def isqrt (m : Nat) : Nat → Nat → Nat
  | 0, r => r
  | i + 1, r => let r' := r + 2 ^ i
                isqrt m i (if r' * r' ≤ m then r' else r)

/-- The quotient of two non-zero magnitudes to far more bits than any format, the last bit sticky. -/
def quotient (ma : Nat) (ea : Int) (mb : Nat) (eb : Int) : Nat × Int :=
  let n := ma * 2 ^ 130
  let q := n / mb
  (2 * q + (if n % mb = 0 then 0 else 1), ea - eb - 131)

/-- The quotient of two values that are not NaN; the flags say 1 invalid, 2 divide-by-zero. -/
def exactDiv (a b : FVal) : FVal × Nat :=
  let s := a.neg? != b.neg?
  match a, b with
  | .inf _, .inf _ => (.dnan, 1)
  | .inf _, _ => (.inf s, 0)
  | _, .inf _ => (.fin s 0 0, 0)
  | .fin _ ma ea, .fin _ mb eb =>
    if mb = 0 then if ma = 0 then (.dnan, 1) else (.inf s, 2)
    else if ma = 0 then (.fin s 0 0, 0)
    else let (q, e) := quotient ma ea mb eb
         (.fin s q e, 0)
  | a, _ => (a, 0)

/-- The square root of a value that is not NaN; invalid below zero. -/
def exactSqrt (a : FVal) : FVal × Bool :=
  match a with
  | .inf false => (.inf false, false)
  | .fin n 0 _ => (.fin n 0 0, false)
  | .fin false m e =>
    let s : Nat := if (e - 140) % 2 = 0 then 140 else 141
    let v := m * 2 ^ s
    let r := isqrt v (Nat.log2 v / 2 + 1) 0
    (.fin false (2 * r + (if r * r = v then 0 else 1)) ((e - (s : Int)) / 2 - 1), false)
  | _ => (.dnan, true)

/-- R273: the first NaN operand quieted, with invalid where one signals. -/
def firstNan : List FVal → Option FVal
  | [] => none
  | .nan n _ p :: _ => some (.nan n false p)
  | _ :: r => firstNan r

/-- The invalid flag of the operands (R273). -/
def sigFlag (vs : List FVal) : Nat := if vs.any FVal.signals then 1 else 0

/-- Whether a format raises IEEE flags (R274, R275). -/
def Fmt.ieee (f : Fmt) : Bool := f == .fp64 || f == .fp32

/-- Keep the flags a format raises. -/
def keepFlags (f : Fmt) (n : Nat) : Nat := if f.ieee then n else n / 32 * 32

/-- Finish an operation: NaN operands first, else the exact value rounded, with the flags raised on the way. -/
def fpFinish (f : Fmt) (ops : List FVal) (v : FVal) (fl : Nat) : FRes :=
  match firstNan ops with
  | some n => ⟨(fpRound f n).bits, keepFlags f (sigFlag ops ||| fl)⟩
  | none => let r := fpRound f v
            ⟨r.bits, keepFlags f (r.flags ||| fl)⟩

/-- PRL.ADD. -/
def fpAdd (f : Fmt) (a b : Nat) : FRes :=
  let x := fpDecode f a; let y := fpDecode f b
  let (v, inv) := exactAdd x y
  fpFinish f [x, y] v (if inv && (firstNan [x, y]).isNone then 1 else 0)

/-- The value with its sign turned. -/
def FVal.flip : FVal → FVal
  | .nan n s p => .nan n s p
  | .inf n => .inf (!n)
  | .fin n m e => .fin (!n) m e

/-- PRL.SUB. -/
def fpSub (f : Fmt) (a b : Nat) : FRes :=
  let x := fpDecode f a; let y := fpDecode f b
  let (v, inv) := exactAdd x y.flip
  fpFinish f [x, y] v (if inv && (firstNan [x, y]).isNone then 1 else 0)

/-- PRL.MUL. -/
def fpMul (f : Fmt) (a b : Nat) : FRes :=
  let x := fpDecode f a; let y := fpDecode f b
  let (v, inv) := exactMul x y
  fpFinish f [x, y] v (if inv && (firstNan [x, y]).isNone then 1 else 0)

/-- PRL.FMA: one rounding; 0 × ∞ is invalid even beside a quiet NaN (R273). -/
def fpFma (f : Fmt) (a b c : Nat) : FRes :=
  let x := fpDecode f a; let y := fpDecode f b; let z := fpDecode f c
  let (p, inv) := exactMul x y
  let bad := inv && !x.isNan && !y.isNan
  if bad then fpFinish f [x, y, z] .dnan 1
  else let (v, inv2) := exactAdd p z
       fpFinish f [x, y, z] v (if inv2 && (firstNan [x, y, z]).isNone then 1 else 0)

/-- PRL.DIV. -/
def fpDiv (f : Fmt) (a b : Nat) : FRes :=
  let x := fpDecode f a; let y := fpDecode f b
  let (v, fl) := exactDiv x y
  fpFinish f [x, y] v (if (firstNan [x, y]).isNone then fl else 0)

/-- PRL.SQRT. -/
def fpSqrt (f : Fmt) (a : Nat) : FRes :=
  let x := fpDecode f a
  let (v, inv) := exactSqrt x
  fpFinish f [x] v (if inv && !x.isNan then 1 else 0)

/-- The order of two values that are not NaN: less, equal, greater as −1, 0, 1. -/
def fpCmp (a b : FVal) : Int :=
  match a, b with
  | .inf x, .inf y => if x = y then 0 else if x then -1 else 1
  | .inf x, _ => if x then -1 else 1
  | _, .inf y => if y then 1 else -1
  | .fin na ma ea, .fin nb mb eb =>
    let e0 := min ea eb
    let d := scaled na ma ea e0 - scaled nb mb eb e0
    if d < 0 then -1 else if d = 0 then 0 else 1
  | _, _ => 0

/-- Convert between formats. NaNs by R273; FP64 and FP32 results by IEEE 754, the others by R277. -/
def fpConvert (src dst : Fmt) (a : Nat) : FRes :=
  let x := fpDecode src a
  let r := fpRound dst x
  ⟨r.bits, (if x.signals then 1 else 0) ||| r.flags⟩

/-- A natural number in FP32. -/
def fp32OfNat (n : Nat) : Nat := (fpRound .fp32 (.fin false n 0)).bits

/-- An integer in FP32. -/
def fp32OfInt (i : Int) : Nat := (fpRound .fp32 (.fin (decide (i < 0)) i.natAbs 0)).bits

/-- The whole number nearest to a value, ties to even, at most `hi` and at least 0; a NaN gives 0. -/
def fpToNat (v : FVal) (hi : Nat) : Nat :=
  match v with
  | .nan _ _ _ => 0
  | .inf n => if n then 0 else hi
  | .fin n m e => if n then 0 else
      let (k, ex, _) := roundAt m e 0
      min hi (k * 2 ^ (min ex 64).toNat)

end Sys2Proof.Machine
end

