-- ==== Sys2Proof/Machine/Crc.lean ====
section
/-! DEFINITION. The check codes of the device: CRC-32C over records, tables and images (R32), and the reflected bitwise form
that every CRC of the spec shares. -/

namespace Sys2Proof.Machine

/-- `k` bits of a reflected CRC with the reversed polynomial `poly`. -/
def crcBits (poly : Word) : Nat → Word → Word
  | 0, c => c
  | k + 1, c => crcBits poly k (if c.getLsbD 0 then (c >>> 1) ^^^ poly else c >>> 1)

/-- Take bytes into a reflected CRC. -/
def crcBytes (poly : Word) : Word → List Byte → Word
  | c, [] => c
  | c, b :: r => crcBytes poly (crcBits poly 8 (c ^^^ b.zeroExtend 32)) r

/-- CRC-32C taken over bytes, from a running value. -/
def crc32cOn (c : Word) (bs : List Byte) : Word := crcBytes 0x82F63B78 c bs

/-- CRC-32C of bytes: start all ones, end inverted (R32). -/
def crc32c (bs : List Byte) : Word := ~~~ crc32cOn 0xFFFFFFFF bs

end Sys2Proof.Machine
end

