-- ==== Sys2Proof/Machine/Regs.lean ====
section
/-! DEFINITION. The names of the registers and of their fields: every register summary and field table of the spec
(R50, R51, R93, R94, R138, R139, R202, R203, R226, R227, R262, R263, R374, R375, R412, R413, R448, R449, R478, R479,
R518, R519, R551, R552, R583, R584, R622, R623, R672, R673). A register's name is its control-window offset. -/

namespace Sys2Proof.Machine

/-- A field: the register's offset, its lowest bit, its width in bits. -/
structure Fld where
  off : Nat
  lo : Nat
  w : Nat
deriving DecidableEq, Repr

namespace Reg

/-! ### 02_conventions.md R50 -/

def GLB_ID : Nat := 0x0
def GLB_FAULT_FIRST : Nat := 0x10
def GLB_FAULT_FIRST_CODE : Fld := ⟨GLB_FAULT_FIRST, 0, 16⟩
def GLB_FAULT_FIRST_IID : Fld := ⟨GLB_FAULT_FIRST, 16, 6⟩
def GLB_FAULT_LAST : Nat := 0x14
def GLB_FAULT_LAST_CODE : Fld := ⟨GLB_FAULT_LAST, 0, 16⟩
def GLB_FAULT_LAST_IID : Fld := ⟨GLB_FAULT_LAST, 16, 6⟩
def GLB_FAULT_COUNT : Nat := 0x18
def GLB_FAULT_CLEAR : Nat := 0x1C
/-! ### 03_hourglass.md R93 -/

def HG_STATUS : Nat := 0x100000
def HG_STATUS_PLL_LOCK : Fld := ⟨HG_STATUS, 0, 1⟩
def HG_STATUS_REF_OK : Fld := ⟨HG_STATUS, 1, 1⟩
def HG_STATUS_HOLDOVER : Fld := ⟨HG_STATUS, 2, 1⟩
def HG_OWNER : Nat := 0x100004
def HG_OWNER_IID : Fld := ⟨HG_OWNER, 0, 6⟩
def HG_DT_LO : Nat := 0x100008
def HG_DT_HI : Nat := 0x10000C
def HG_DT_FRAC : Nat := 0x100010
def HG_TURN_CTL : Nat := 0x100014
def HG_TURN_CTL_RUN : Fld := ⟨HG_TURN_CTL, 0, 1⟩
def HG_TURN_CTL_ACTIVE : Fld := ⟨HG_TURN_CTL, 1, 1⟩
def HG_TURN_CTL_STARTED : Fld := ⟨HG_TURN_CTL, 2, 1⟩
def HG_TURN_EPOCH_LO : Nat := 0x100018
def HG_TURN_EPOCH_HI : Nat := 0x10001C
def HG_TURN_PER_LO : Nat := 0x100020
def HG_TURN_PER_HI : Nat := 0x100024
def HG_TURN_NUM_LO : Nat := 0x100028
def HG_TURN_NUM_HI : Nat := 0x10002C
def HG_EPOCH_NT_NS : Nat := 0x100030
def HG_EPOCH_NT_SEC_LO : Nat := 0x100034
def HG_EPOCH_NT_SEC_HI : Nat := 0x100038
def HG_EPOCH_META : Nat := 0x10003C
def HG_EPOCH_META_STEP : Fld := ⟨HG_EPOCH_META, 0, 16⟩
def HG_EPOCH_META_DOMAIN : Fld := ⟨HG_EPOCH_META, 16, 8⟩
def HG_ACTIVE : Nat := 0x100040
def HG_ACTIVE_DOM : Fld := ⟨HG_ACTIVE, 0, 1⟩
def HG_ACTIVE_PENDING : Fld := ⟨HG_ACTIVE, 1, 1⟩
def HG_STEP_THR : Nat := 0x100044
def HG_SLEW_LIM : Nat := 0x100048
def HG_PTP_LAT : Nat := 0x10004C
def HG_PTP_LAT_TX : Fld := ⟨HG_PTP_LAT, 0, 16⟩
def HG_PTP_LAT_RX : Fld := ⟨HG_PTP_LAT, 16, 16⟩
def HG_DOM_CFG (d : Nat) : Nat := 0x100100 + 0x80 * d
def HG_DOM_CFG_EN (d : Nat) : Fld := ⟨HG_DOM_CFG d, 0, 1⟩
def HG_DOM_CFG_ROLE (d : Nat) : Fld := ⟨HG_DOM_CFG d, 1, 1⟩
def HG_DOM_CFG_MODE (d : Nat) : Fld := ⟨HG_DOM_CFG d, 2, 1⟩
def HG_DOM_CFG_PROFILE (d : Nat) : Fld := ⟨HG_DOM_CFG d, 3, 1⟩
def HG_DOM_CFG_PTP_DOMAIN (d : Nat) : Fld := ⟨HG_DOM_CFG d, 8, 8⟩
def HG_DOM_ADJ (d : Nat) : Nat := 0x100104 + 0x80 * d
def HG_DOM_OFS_LO (d : Nat) : Nat := 0x100108 + 0x80 * d
def HG_DOM_OFS_HI (d : Nat) : Nat := 0x10010C + 0x80 * d
def HG_DOM_OFS_FRAC (d : Nat) : Nat := 0x100110 + 0x80 * d
def HG_DOM_MEAS_LO (d : Nat) : Nat := 0x100118 + 0x80 * d
def HG_DOM_MEAS_HI (d : Nat) : Nat := 0x10011C + 0x80 * d
def HG_DOM_KP (d : Nat) : Nat := 0x100120 + 0x80 * d
def HG_DOM_KI (d : Nat) : Nat := 0x100124 + 0x80 * d
def HG_DOM_TS (d : Nat) : Nat := 0x100128 + 0x80 * d
def HG_DOM_STEP (d : Nat) : Nat := 0x10012C + 0x80 * d
def HG_DOM_STAT (d : Nat) : Nat := 0x100130 + 0x80 * d
def HG_DOM_STAT_LOCKED (d : Nat) : Fld := ⟨HG_DOM_STAT d, 0, 1⟩
def HG_DOM_STAT_SAT (d : Nat) : Fld := ⟨HG_DOM_STAT d, 1, 1⟩
def HG_DOM_STAT_SLEWING (d : Nat) : Fld := ⟨HG_DOM_STAT d, 2, 1⟩
def HG_DOM_INTEG (d : Nat) : Nat := 0x100134 + 0x80 * d
def HG_DOM_NT_NS (d : Nat) : Nat := 0x100138 + 0x80 * d
def HG_DOM_NT_SEC_LO (d : Nat) : Nat := 0x10013C + 0x80 * d
def HG_DOM_NT_SEC_HI (d : Nat) : Nat := 0x100140 + 0x80 * d
def HG_TSTX_META : Nat := 0x100200
def HG_TSTX_META_SEQ_ID : Fld := ⟨HG_TSTX_META, 0, 16⟩
def HG_TSTX_META_MSG_TYPE : Fld := ⟨HG_TSTX_META, 16, 4⟩
def HG_TSTX_META_DOM : Fld := ⟨HG_TSTX_META, 20, 1⟩
def HG_TSTX_META_VALID : Fld := ⟨HG_TSTX_META, 21, 1⟩
def HG_TSTX_NS : Nat := 0x100204
def HG_TSTX_SEC_LO : Nat := 0x100208
def HG_TSTX_SEC_HI : Nat := 0x10020C
def HG_TSRX_META : Nat := 0x100210
def HG_TSRX_META_SEQ_ID : Fld := ⟨HG_TSRX_META, 0, 16⟩
def HG_TSRX_META_MSG_TYPE : Fld := ⟨HG_TSRX_META, 16, 4⟩
def HG_TSRX_META_DOM : Fld := ⟨HG_TSRX_META, 20, 1⟩
def HG_TSRX_META_VALID : Fld := ⟨HG_TSRX_META, 21, 1⟩
def HG_TSRX_NS : Nat := 0x100214
def HG_TSRX_SEC_LO : Nat := 0x100218
def HG_TSRX_SEC_HI : Nat := 0x10021C
def HG_TS_STAT : Nat := 0x100220
def HG_TS_STAT_TX_LEVEL : Fld := ⟨HG_TS_STAT, 0, 5⟩
def HG_TS_STAT_RX_LEVEL : Fld := ⟨HG_TS_STAT, 8, 5⟩
def HG_TS_STAT_TX_DROP : Fld := ⟨HG_TS_STAT, 16, 8⟩
def HG_TS_STAT_OVF : Fld := ⟨HG_TS_STAT, 24, 1⟩
def HG_BK_STAT : Nat := 0x100300
def HG_BK_STAT_LOST : Fld := ⟨HG_BK_STAT, 0, 1⟩
def HG_BK_STAT_VBAT_LOW : Fld := ⟨HG_BK_STAT, 1, 1⟩
def HG_BK_STAT_XTAL_OK : Fld := ⟨HG_BK_STAT, 2, 1⟩
def HG_BK_SEC : Nat := 0x100304
def HG_BK_SUB : Nat := 0x100308
def HG_BK_SET_SEC : Nat := 0x10030C
def HG_BK_CTL : Nat := 0x100310
def HG_BK_CTL_LOAD : Fld := ⟨HG_BK_CTL, 0, 1⟩
def HG_TRIG_CFG (n : Nat) : Nat := 0x100400 + 0x20 * n
def HG_TRIG_CFG_MODE (n : Nat) : Fld := ⟨HG_TRIG_CFG n, 0, 2⟩
def HG_TRIG_CFG_POL (n : Nat) : Fld := ⟨HG_TRIG_CFG n, 2, 1⟩
def HG_TRIG_CFG_ARM (n : Nat) : Fld := ⟨HG_TRIG_CFG n, 3, 1⟩
def HG_TRIG_CFG_DIV (n : Nat) : Fld := ⟨HG_TRIG_CFG n, 4, 4⟩
def HG_TRIG_WIDTH (n : Nat) : Nat := 0x100404 + 0x20 * n
def HG_TRIG_CMP_LO (n : Nat) : Nat := 0x100408 + 0x20 * n
def HG_TRIG_CMP_HI (n : Nat) : Nat := 0x10040C + 0x20 * n
def HG_TRIG_PER_LO (n : Nat) : Nat := 0x100410 + 0x20 * n
def HG_TRIG_PER_HI (n : Nat) : Nat := 0x100414 + 0x20 * n
def HG_TRIG_PHASE (n : Nat) : Nat := 0x100418 + 0x20 * n
def HG_TRIG_STAT (n : Nat) : Nat := 0x10041C + 0x20 * n
def HG_TRIG_STAT_FIRED (n : Nat) : Fld := ⟨HG_TRIG_STAT n, 0, 16⟩
def HG_TRIG_STAT_LATE (n : Nat) : Fld := ⟨HG_TRIG_STAT n, 16, 1⟩
def HG_TRIG_STAT_OVERLAP (n : Nat) : Fld := ⟨HG_TRIG_STAT n, 17, 1⟩
def HG_TRIG_OE : Nat := 0x100600
def HG_CAP_CFG (n : Nat) : Nat := 0x100700 + 0x20 * n
def HG_CAP_CFG_EN (n : Nat) : Fld := ⟨HG_CAP_CFG n, 0, 1⟩
def HG_CAP_CFG_EDGE (n : Nat) : Fld := ⟨HG_CAP_CFG n, 1, 2⟩
def HG_CAP_CFG_DOM (n : Nat) : Fld := ⟨HG_CAP_CFG n, 3, 1⟩
def HG_CAP_CFG_FILT (n : Nat) : Fld := ⟨HG_CAP_CFG n, 8, 8⟩
def HG_CAP_STAT (n : Nat) : Nat := 0x100704 + 0x20 * n
def HG_CAP_STAT_LEVEL (n : Nat) : Fld := ⟨HG_CAP_STAT n, 0, 3⟩
def HG_CAP_STAT_OVF (n : Nat) : Fld := ⟨HG_CAP_STAT n, 8, 1⟩
def HG_CAP_STAT_POPPED (n : Nat) : Fld := ⟨HG_CAP_STAT n, 9, 1⟩
def HG_CAP_DT_LO (n : Nat) : Nat := 0x100708 + 0x20 * n
def HG_CAP_DT_HI (n : Nat) : Nat := 0x10070C + 0x20 * n
def HG_CAP_NT_NS (n : Nat) : Nat := 0x100710 + 0x20 * n
def HG_CAP_NT_SEC_LO (n : Nat) : Nat := 0x100714 + 0x20 * n
def HG_CAP_NT_SEC_HI (n : Nat) : Nat := 0x100718 + 0x20 * n
def HG_CAP_NT_SEC_HI_SEC (n : Nat) : Fld := ⟨HG_CAP_NT_SEC_HI n, 0, 16⟩
def HG_CAP_NT_SEC_HI_STEP (n : Nat) : Fld := ⟨HG_CAP_NT_SEC_HI n, 16, 16⟩
/-! ### 04_spindle.md R138 -/

def SP_PORT_CFG (p : Nat) : Nat := 0x200100 + 0x40 * p
def SP_PORT_CFG_EN (p : Nat) : Fld := ⟨SP_PORT_CFG p, 0, 1⟩
def SP_PORT_CFG_LANES (p : Nat) : Fld := ⟨SP_PORT_CFG p, 1, 2⟩
def SP_PORT_CFG_LANE_MAP (p : Nat) : Fld := ⟨SP_PORT_CFG p, 3, 8⟩
def SP_PORT_CFG_POL (p : Nat) : Fld := ⟨SP_PORT_CFG p, 11, 4⟩
def SP_PORT_CFG_DESKEW (p : Nat) : Fld := ⟨SP_PORT_CFG p, 15, 1⟩
def SP_PORT_LAT (p : Nat) : Nat := 0x200104 + 0x40 * p
def SP_PORT_STAT (p : Nat) : Nat := 0x200108 + 0x40 * p
def SP_PORT_STAT_CLK_HS (p : Nat) : Fld := ⟨SP_PORT_STAT p, 0, 1⟩
def SP_PORT_STAT_ULPS (p : Nat) : Fld := ⟨SP_PORT_STAT p, 1, 1⟩
def SP_PORT_STAT_DESKEW_OK (p : Nat) : Fld := ⟨SP_PORT_STAT p, 2, 1⟩
def SP_PORT_ERR (p : Nat) : Nat := 0x20010C + 0x40 * p
def SP_PORT_ERR_ECC_UNC (p : Nat) : Fld := ⟨SP_PORT_ERR p, 0, 8⟩
def SP_PORT_ERR_ECC_COR (p : Nat) : Fld := ⟨SP_PORT_ERR p, 8, 8⟩
def SP_PORT_ERR_UNMATCHED (p : Nat) : Fld := ⟨SP_PORT_ERR p, 16, 8⟩
def SP_PORT_ERR_SYNC (p : Nat) : Fld := ⟨SP_PORT_ERR p, 24, 8⟩
def SP_STR_SRC (s : Nat) : Nat := 0x201000 + 0x40 * s
def SP_STR_SRC_EN (s : Nat) : Fld := ⟨SP_STR_SRC s, 0, 1⟩
def SP_STR_SRC_KIND (s : Nat) : Fld := ⟨SP_STR_SRC s, 1, 1⟩
def SP_STR_SRC_PORT (s : Nat) : Fld := ⟨SP_STR_SRC s, 2, 3⟩
def SP_STR_SRC_VC (s : Nat) : Fld := ⟨SP_STR_SRC s, 5, 4⟩
def SP_STR_SRC_DT (s : Nat) : Fld := ⟨SP_STR_SRC s, 9, 6⟩
def SP_STR_SRC_TEMPLATE (s : Nat) : Fld := ⟨SP_STR_SRC s, 15, 2⟩
def SP_STR_SRC_TRIG (s : Nat) : Fld := ⟨SP_STR_SRC s, 17, 4⟩
def SP_STR_SRC_TRIG_VALID (s : Nat) : Fld := ⟨SP_STR_SRC s, 21, 1⟩
def SP_STR_FMT (s : Nat) : Nat := 0x201004 + 0x40 * s
def SP_STR_FMT_FORMAT (s : Nat) : Fld := ⟨SP_STR_FMT s, 0, 3⟩
def SP_STR_FMT_LINE_STRIDE (s : Nat) : Fld := ⟨SP_STR_FMT s, 8, 16⟩
def SP_STR_GEOM (s : Nat) : Nat := 0x201008 + 0x40 * s
def SP_STR_GEOM_LINES (s : Nat) : Fld := ⟨SP_STR_GEOM s, 0, 16⟩
def SP_STR_GEOM_LINE_BYTES (s : Nat) : Fld := ⟨SP_STR_GEOM s, 16, 16⟩
def SP_STR_SLOT (s : Nat) : Nat := 0x20100C + 0x40 * s
def SP_STR_SLOT_BASE (s : Nat) : Fld := ⟨SP_STR_SLOT s, 0, 10⟩
def SP_STR_SLOT_SIZE (s : Nat) : Fld := ⟨SP_STR_SLOT s, 10, 10⟩
def SP_STR_SLOT_COUNT (s : Nat) : Fld := ⟨SP_STR_SLOT s, 20, 4⟩
def SP_STR_STAT (s : Nat) : Nat := 0x201010 + 0x40 * s
def SP_STR_STAT_LANDING (s : Nat) : Fld := ⟨SP_STR_STAT s, 0, 3⟩
def SP_STR_STAT_LAST (s : Nat) : Fld := ⟨SP_STR_STAT s, 4, 3⟩
def SP_STR_STAT_OPEN (s : Nat) : Fld := ⟨SP_STR_STAT s, 8, 1⟩
def SP_STR_SEQ (s : Nat) : Nat := 0x201014 + 0x40 * s
def SP_STR_DROP (s : Nat) : Nat := 0x201018 + 0x40 * s
def SP_ETH_CFG : Nat := 0x202000
def SP_ETH_CFG_EN : Fld := ⟨SP_ETH_CFG, 0, 1⟩
def SP_ETH_CFG_MODE : Fld := ⟨SP_ETH_CFG, 1, 1⟩
def SP_ETH_MAC_LO : Nat := 0x202004
def SP_ETH_MAC_HI : Nat := 0x202008
def SP_ETH_STAT : Nat := 0x20200C
def SP_ETH_STAT_FCS_ERR : Fld := ⟨SP_ETH_STAT, 0, 16⟩
def SP_ETH_STAT_MC_DROP : Fld := ⟨SP_ETH_STAT, 16, 16⟩
def SP_PPT_MATCH (t : Nat) : Nat := 0x202100 + 0x100 * t
def SP_PPT_MATCH_UDP_PORT (t : Nat) : Fld := ⟨SP_PPT_MATCH t, 0, 16⟩
def SP_PPT_MATCH_IP (t : Nat) : Fld := ⟨SP_PPT_MATCH t, 16, 2⟩
def SP_PPT_MATCH_EN (t : Nat) : Fld := ⟨SP_PPT_MATCH t, 18, 1⟩
def SP_PPT_LAYOUT (t : Nat) : Nat := 0x202104 + 0x100 * t
def SP_PPT_LAYOUT_HDR_BYTES (t : Nat) : Fld := ⟨SP_PPT_LAYOUT t, 0, 12⟩
def SP_PPT_LAYOUT_REC_BYTES (t : Nat) : Fld := ⟨SP_PPT_LAYOUT t, 12, 8⟩
def SP_PPT_LAYOUT_POINTS (t : Nat) : Fld := ⟨SP_PPT_LAYOUT t, 20, 10⟩
def SP_PPT_LAYOUT_POLAR (t : Nat) : Fld := ⟨SP_PPT_LAYOUT t, 30, 1⟩
def SP_PPT_LAYOUT_FRAME_BY (t : Nat) : Fld := ⟨SP_PPT_LAYOUT t, 31, 1⟩
def SP_PPT_FIELD (t : Nat) (f : Nat) : Nat := 0x202180 + 0x100 * t + 0x8 * f
def SP_PPT_FIELD_OFFSET (t : Nat) (f : Nat) : Fld := ⟨SP_PPT_FIELD t f, 0, 8⟩
def SP_PPT_FIELD_WIDTH (t : Nat) (f : Nat) : Fld := ⟨SP_PPT_FIELD t f, 8, 2⟩
def SP_PPT_FIELD_TYPE (t : Nat) (f : Nat) : Fld := ⟨SP_PPT_FIELD t f, 10, 2⟩
def SP_PPT_FIELD_SLOT (t : Nat) (f : Nat) : Fld := ⟨SP_PPT_FIELD t f, 12, 4⟩
def SP_PPT_FIELD_IN_HDR (t : Nat) (f : Nat) : Fld := ⟨SP_PPT_FIELD t f, 16, 1⟩
def SP_PPT_SCALE (t : Nat) (f : Nat) : Nat := 0x202184 + 0x100 * t + 0x8 * f
def SP_IMU_CFG (i : Nat) : Nat := 0x203000 + 0x40 * i
def SP_IMU_CFG_EN (i : Nat) : Fld := ⟨SP_IMU_CFG i, 0, 1⟩
def SP_IMU_CFG_SRC (i : Nat) : Fld := ⟨SP_IMU_CFG i, 1, 1⟩
def SP_IMU_CFG_DRDY_POL (i : Nat) : Fld := ⟨SP_IMU_CFG i, 2, 1⟩
def SP_IMU_CFG_CMD_LEN (i : Nat) : Fld := ⟨SP_IMU_CFG i, 8, 3⟩
def SP_IMU_CFG_READ_LEN (i : Nat) : Fld := ⟨SP_IMU_CFG i, 16, 5⟩
def SP_IMU_CMD (i : Nat) : Nat := 0x203004 + 0x40 * i
def SP_IMU_PER (i : Nat) : Nat := 0x203008 + 0x40 * i
def SP_IMU_PER_PER (i : Nat) : Fld := ⟨SP_IMU_PER i, 0, 32⟩
def SP_IMU_RING (i : Nat) : Nat := 0x20300C + 0x40 * i
def SP_IMU_RING_BASE (i : Nat) : Fld := ⟨SP_IMU_RING i, 0, 10⟩
def SP_IMU_RING_SIZE (i : Nat) : Fld := ⟨SP_IMU_RING i, 12, 2⟩
def SP_IMU_STAT (i : Nat) : Nat := 0x203010 + 0x40 * i
def SP_IMU_STAT_HEAD (i : Nat) : Fld := ⟨SP_IMU_STAT i, 0, 10⟩
def SP_IMU_STAT_TIMEOUT (i : Nat) : Fld := ⟨SP_IMU_STAT i, 16, 1⟩
def SP_IMU_STAT_OVERRUN (i : Nat) : Fld := ⟨SP_IMU_STAT i, 17, 1⟩
def SP_SPI_CFG (m : Nat) : Nat := 0x203200 + 0x4 * m
def SP_SPI_CFG_DIV (m : Nat) : Fld := ⟨SP_SPI_CFG m, 0, 8⟩
def SP_SPI_CFG_MODE (m : Nat) : Fld := ⟨SP_SPI_CFG m, 8, 1⟩
def SP_CAN_CTL (c : Nat) : Nat := 0x204000 + 0x1000 * c
def SP_CAN_CTL_EN (c : Nat) : Fld := ⟨SP_CAN_CTL c, 0, 1⟩
def SP_CAN_CTL_FD_EN (c : Nat) : Fld := ⟨SP_CAN_CTL c, 1, 1⟩
def SP_CAN_CTL_BRS_EN (c : Nat) : Fld := ⟨SP_CAN_CTL c, 2, 1⟩
def SP_CAN_CTL_RECOVERY (c : Nat) : Fld := ⟨SP_CAN_CTL c, 3, 1⟩
def SP_CAN_CTL_RECOVER (c : Nat) : Fld := ⟨SP_CAN_CTL c, 4, 1⟩
def SP_CAN_NBT (c : Nat) : Nat := 0x204004 + 0x1000 * c
def SP_CAN_NBT_BRP (c : Nat) : Fld := ⟨SP_CAN_NBT c, 0, 9⟩
def SP_CAN_NBT_SEG1 (c : Nat) : Fld := ⟨SP_CAN_NBT c, 9, 8⟩
def SP_CAN_NBT_SEG2 (c : Nat) : Fld := ⟨SP_CAN_NBT c, 17, 7⟩
def SP_CAN_NBT_SJW (c : Nat) : Fld := ⟨SP_CAN_NBT c, 24, 7⟩
def SP_CAN_DBT (c : Nat) : Nat := 0x204008 + 0x1000 * c
def SP_CAN_DBT_BRP (c : Nat) : Fld := ⟨SP_CAN_DBT c, 0, 5⟩
def SP_CAN_DBT_SEG1 (c : Nat) : Fld := ⟨SP_CAN_DBT c, 5, 5⟩
def SP_CAN_DBT_SEG2 (c : Nat) : Fld := ⟨SP_CAN_DBT c, 10, 4⟩
def SP_CAN_DBT_SJW (c : Nat) : Fld := ⟨SP_CAN_DBT c, 14, 4⟩
def SP_CAN_DBT_TDC_EN (c : Nat) : Fld := ⟨SP_CAN_DBT c, 18, 1⟩
def SP_CAN_DBT_TDC_OFS (c : Nat) : Fld := ⟨SP_CAN_DBT c, 20, 7⟩
def SP_CAN_ECNT (c : Nat) : Nat := 0x20400C + 0x1000 * c
def SP_CAN_ECNT_TEC (c : Nat) : Fld := ⟨SP_CAN_ECNT c, 0, 9⟩
def SP_CAN_ECNT_REC (c : Nat) : Fld := ⟨SP_CAN_ECNT c, 16, 8⟩
def SP_CAN_ECNT_STATE (c : Nat) : Fld := ⟨SP_CAN_ECNT c, 24, 2⟩
def SP_CAN_STAT (c : Nat) : Nat := 0x204010 + 0x1000 * c
def SP_CAN_STAT_BOFF (c : Nat) : Fld := ⟨SP_CAN_STAT c, 0, 1⟩
def SP_CAN_STAT_EPASS (c : Nat) : Fld := ⟨SP_CAN_STAT c, 1, 1⟩
def SP_CAN_STAT_RECOVERING (c : Nat) : Fld := ⟨SP_CAN_STAT c, 2, 1⟩
def SP_CAN_STAT_LAST_ERR (c : Nat) : Fld := ⟨SP_CAN_STAT c, 8, 3⟩
def SP_CAN_STAT_RX_DISCARD (c : Nat) : Fld := ⟨SP_CAN_STAT c, 16, 16⟩
def SP_CAN_LOG (c : Nat) : Nat := 0x204014 + 0x1000 * c
def SP_CAN_LOG_BASE (c : Nat) : Fld := ⟨SP_CAN_LOG c, 0, 10⟩
def SP_CAN_LOG_SIZE (c : Nat) : Fld := ⟨SP_CAN_LOG c, 12, 1⟩
def SP_CAN_LOGHEAD (c : Nat) : Nat := 0x204018 + 0x1000 * c
def SP_CAN_RXF (c : Nat) (m : Nat) : Nat := 0x204100 + 0x1000 * c + 0x10 * m
def SP_CAN_RXF_ID (c : Nat) (m : Nat) : Fld := ⟨SP_CAN_RXF c m, 0, 29⟩
def SP_CAN_RXF_IDE (c : Nat) (m : Nat) : Fld := ⟨SP_CAN_RXF c m, 29, 1⟩
def SP_CAN_RXF_EN (c : Nat) (m : Nat) : Fld := ⟨SP_CAN_RXF c m, 30, 1⟩
def SP_CAN_RXM (c : Nat) (m : Nat) : Nat := 0x204104 + 0x1000 * c + 0x10 * m
def SP_CAN_RXM_MASK (c : Nat) (m : Nat) : Fld := ⟨SP_CAN_RXM c m, 0, 29⟩
def SP_CAN_RXC (c : Nat) (m : Nat) : Nat := 0x204108 + 0x1000 * c + 0x10 * m
def SP_CAN_RXC_TIMEOUT (c : Nat) (m : Nat) : Fld := ⟨SP_CAN_RXC c m, 0, 24⟩
def SP_CAN_RXC_WHEEL (c : Nat) (m : Nat) : Fld := ⟨SP_CAN_RXC c m, 24, 1⟩
def SP_CAN_RXS (c : Nat) (m : Nat) : Nat := 0x20410C + 0x1000 * c + 0x10 * m
def SP_CAN_RXS_LAST (c : Nat) (m : Nat) : Fld := ⟨SP_CAN_RXS c m, 0, 9⟩
def SP_CAN_RXS_TIMEOUT (c : Nat) (m : Nat) : Fld := ⟨SP_CAN_RXS c m, 16, 1⟩
def SP_CAN_TXH (c : Nat) (k : Nat) : Nat := 0x204800 + 0x1000 * c + 0x50 * k
def SP_CAN_TXH_ID (c : Nat) (k : Nat) : Fld := ⟨SP_CAN_TXH c k, 0, 29⟩
def SP_CAN_TXH_IDE (c : Nat) (k : Nat) : Fld := ⟨SP_CAN_TXH c k, 29, 1⟩
def SP_CAN_TXH_FDF (c : Nat) (k : Nat) : Fld := ⟨SP_CAN_TXH c k, 30, 1⟩
def SP_CAN_TXH_BRS (c : Nat) (k : Nat) : Fld := ⟨SP_CAN_TXH c k, 31, 1⟩
def SP_CAN_TXC (c : Nat) (k : Nat) : Nat := 0x204804 + 0x1000 * c + 0x50 * k
def SP_CAN_TXC_LEN (c : Nat) (k : Nat) : Fld := ⟨SP_CAN_TXC c k, 0, 7⟩
def SP_CAN_TXC_REQ (c : Nat) (k : Nat) : Fld := ⟨SP_CAN_TXC c k, 8, 1⟩
def SP_CAN_TXC_ABORT (c : Nat) (k : Nat) : Fld := ⟨SP_CAN_TXC c k, 9, 1⟩
def SP_CAN_TXC_DONE (c : Nat) (k : Nat) : Fld := ⟨SP_CAN_TXC c k, 10, 1⟩
def SP_CAN_TXC_HELD (c : Nat) (k : Nat) : Fld := ⟨SP_CAN_TXC c k, 11, 1⟩
def SP_CAN_TXC_ABORTED (c : Nat) (k : Nat) : Fld := ⟨SP_CAN_TXC c k, 12, 1⟩
def SP_CAN_TXD (c : Nat) (k : Nat) (w : Nat) : Nat := 0x204810 + 0x1000 * c + 0x50 * k + 0x4 * w
def SP_I2C_CFG (k : Nat) : Nat := 0x206000 + 0x100 * k
def SP_I2C_CFG_SPEED (k : Nat) : Fld := ⟨SP_I2C_CFG k, 0, 2⟩
def SP_I2C_CFG_EN (k : Nat) : Fld := ⟨SP_I2C_CFG k, 2, 1⟩
def SP_I2C_CFG_STRETCH_TO (k : Nat) : Fld := ⟨SP_I2C_CFG k, 8, 8⟩
def SP_I2C_STAT (k : Nat) : Nat := 0x206004 + 0x100 * k
def SP_I2C_STAT_CMD_LEVEL (k : Nat) : Fld := ⟨SP_I2C_STAT k, 0, 7⟩
def SP_I2C_STAT_RXD_LEVEL (k : Nat) : Fld := ⟨SP_I2C_STAT k, 8, 7⟩
def SP_I2C_STAT_BUSY (k : Nat) : Fld := ⟨SP_I2C_STAT k, 16, 1⟩
def SP_I2C_STAT_NACK (k : Nat) : Fld := ⟨SP_I2C_STAT k, 17, 1⟩
def SP_I2C_STAT_TIMEOUT (k : Nat) : Fld := ⟨SP_I2C_STAT k, 18, 1⟩
def SP_I2C_STAT_OVF (k : Nat) : Fld := ⟨SP_I2C_STAT k, 19, 1⟩
def SP_I2C_CMD (k : Nat) : Nat := 0x206008 + 0x100 * k
def SP_I2C_CMD_DATA (k : Nat) : Fld := ⟨SP_I2C_CMD k, 0, 8⟩
def SP_I2C_CMD_OP (k : Nat) : Fld := ⟨SP_I2C_CMD k, 8, 4⟩
def SP_I2C_RXD (k : Nat) : Nat := 0x20600C + 0x100 * k
def SP_I2C_RXD_DATA (k : Nat) : Fld := ⟨SP_I2C_RXD k, 0, 8⟩
def SP_I2C_RXD_VALID (k : Nat) : Fld := ⟨SP_I2C_RXD k, 8, 1⟩
def SP_I2C_AT_LO (k : Nat) : Nat := 0x206010 + 0x100 * k
def SP_I2C_AT_HI (k : Nat) : Nat := 0x206014 + 0x100 * k
/-! ### 06_board_fusion.md R202 -/

def WF_CTL : Nat := 0x300000
def WF_CTL_EN : Fld := ⟨WF_CTL, 0, 1⟩
def WF_STATUS : Nat := 0x300004
def WF_STATUS_PAINT_BANK : Fld := ⟨WF_STATUS, 0, 2⟩
def WF_STATUS_VIEW_BANK : Fld := ⟨WF_STATUS, 2, 2⟩
def WF_STATUS_FREE_BANK : Fld := ⟨WF_STATUS, 4, 2⟩
def WF_STATUS_EXPANDING : Fld := ⟨WF_STATUS, 8, 1⟩
def WF_STATUS_READY : Fld := ⟨WF_STATUS, 9, 1⟩
def WF_STATUS_BUF : Fld := ⟨WF_STATUS, 16, 2⟩
def WF_GEN_PAINT : Nat := 0x300008
def WF_GEN_VIEW : Nat := 0x30000C
def WF_BOARD_BYTES : Nat := 0x300010
def WF_PAINT_DONE : Nat := 0x300014
def WF_EXPAND_US : Nat := 0x300018
def WF_LATE_TILES : Nat := 0x30001C
def WF_OUTSIDE : Nat := 0x300020
def WF_VIEW_DONE (v : Nat) : Nat := 0x300040 + 0x4 * v
def ME_CTL : Nat := 0x400000
def ME_CTL_EN : Fld := ⟨ME_CTL, 0, 1⟩
def ME_CTL_RESET : Fld := ⟨ME_CTL, 1, 1⟩
def ME_STATUS : Nat := 0x400004
def ME_STATUS_RUNNING : Fld := ⟨ME_STATUS, 0, 1⟩
def ME_STATUS_HOLDOVER : Fld := ⟨ME_STATUS, 1, 1⟩
def ME_STATUS_USED : Fld := ⟨ME_STATUS, 2, 3⟩
def ME_STATUS_ZUPT : Fld := ⟨ME_STATUS, 5, 1⟩
def ME_STATUS_CONFIRMED : Fld := ⟨ME_STATUS, 8, 8⟩
def ME_STATUS_OTHER : Fld := ⟨ME_STATUS, 16, 8⟩
def ME_GEN : Nat := 0x400008
def ME_WINDOW : Nat := 0x40000C
def ME_STATE_DT_LO : Nat := 0x400010
def ME_STATE_DT_HI : Nat := 0x400014
def ME_SPEED : Nat := 0x400018
def ME_YAW_RATE : Nat := 0x40001C
def ME_COV_TRACE : Nat := 0x400020
def ME_REJECT : Nat := 0x400024
def ME_REJECT_IMU : Fld := ⟨ME_REJECT, 0, 8⟩
def ME_REJECT_WHEEL : Fld := ⟨ME_REJECT, 8, 8⟩
def ME_REJECT_STALE : Fld := ⟨ME_REJECT, 16, 8⟩
def ME_REJECT_VMR : Fld := ⟨ME_REJECT, 24, 8⟩
def ME_RESETS : Nat := 0x400028
/-! ### 07_loom.md R226 -/

def LM_CTL : Nat := 0x500000
def LM_CTL_EN : Fld := ⟨LM_CTL, 0, 1⟩
def LM_STATUS : Nat := 0x500004
def LM_STATUS_LOCK : Fld := ⟨LM_STATUS, 0, 2⟩
def LM_STATUS_AWAIT : Fld := ⟨LM_STATUS, 8, 1⟩
def LM_REC_CFG : Nat := 0x500010
def LM_REC_CFG_TENANT : Fld := ⟨LM_REC_CFG, 0, 3⟩
def LM_REC_CFG_LOG2COUNT : Fld := ⟨LM_REC_CFG, 4, 4⟩
def LM_REC_CFG_VEC : Fld := ⟨LM_REC_CFG, 8, 5⟩
def LM_REC_BASE_LO : Nat := 0x500014
def LM_REC_BASE_HI : Nat := 0x500018
def LM_REC_HEAD : Nat := 0x50001C
def LM_REC_TAIL : Nat := 0x500020
def LM_MAN_BASE_LO : Nat := 0x500024
def LM_MAN_BASE_HI : Nat := 0x500028
def LM_STAT : Nat := 0x500030
def LM_STAT_REC_DROP : Fld := ⟨LM_STAT, 0, 8⟩
def LM_STAT_NO_VERDICT : Fld := ⟨LM_STAT, 8, 8⟩
def LM_STAT_MAN_TRUNC : Fld := ⟨LM_STAT, 16, 8⟩
def LM_STAT_REC_FAULT : Fld := ⟨LM_STAT, 24, 8⟩
def LM_PORT_CFG (p : Nat) : Nat := 0x500100 + 0x40 * p
def LM_PORT_CFG_EN (p : Nat) : Fld := ⟨LM_PORT_CFG p, 0, 1⟩
def LM_PORT_CFG_LANES (p : Nat) : Fld := ⟨LM_PORT_CFG p, 1, 2⟩
def LM_PORT_CFG_CONT_CLK (p : Nat) : Fld := ⟨LM_PORT_CFG p, 3, 1⟩
def LM_PORT_CFG_RATE (p : Nat) : Fld := ⟨LM_PORT_CFG p, 4, 12⟩
def LM_PORT_TIMING (p : Nat) : Nat := 0x500104 + 0x40 * p
def LM_PORT_TIMING_LINE_GAP (p : Nat) : Fld := ⟨LM_PORT_TIMING p, 0, 12⟩
def LM_PORT_TIMING_FRAME_GAP (p : Nat) : Fld := ⟨LM_PORT_TIMING p, 16, 16⟩
def LM_PORT_STAT (p : Nat) : Nat := 0x500108 + 0x40 * p
def LM_PORT_STAT_LEVEL (p : Nat) : Fld := ⟨LM_PORT_STAT p, 0, 3⟩
def LM_PORT_STAT_LOCK (p : Nat) : Fld := ⟨LM_PORT_STAT p, 4, 1⟩
def LM_PORT_STAT_ULPS (p : Nat) : Fld := ⟨LM_PORT_STAT p, 5, 1⟩
def LM_PORT_DROP (p : Nat) : Nat := 0x50010C + 0x40 * p
def LM_PORT_DROP_LOCK_DROP (p : Nat) : Fld := ⟨LM_PORT_DROP p, 0, 8⟩
def LM_PORT_DROP_FIFO_DROP (p : Nat) : Fld := ⟨LM_PORT_DROP p, 8, 8⟩
def LM_PORT_DROP_ABORTED (p : Nat) : Fld := ⟨LM_PORT_DROP p, 16, 8⟩
def LM_VIEW_CFG (v : Nat) : Nat := 0x500200 + 0x10 * v
def LM_VIEW_CFG_PORT (v : Nat) : Fld := ⟨LM_VIEW_CFG v, 0, 1⟩
def LM_VIEW_CFG_VC (v : Nat) : Fld := ⟨LM_VIEW_CFG v, 1, 4⟩
def LM_VIEW_CFG_EMB_PAD (v : Nat) : Fld := ⟨LM_VIEW_CFG v, 8, 1⟩
def LM_VIEW_CFG_STALE_SUPPRESS (v : Nat) : Fld := ⟨LM_VIEW_CFG v, 9, 1⟩
def LM_VIEW_SEQ (v : Nat) : Nat := 0x500204 + 0x10 * v
/-! ### 08_tapestry.md R262 -/

def TE_CTL : Nat := 0x600000
def TE_CTL_EN : Fld := ⟨TE_CTL, 0, 1⟩
def TE_CTL_GOV_EN : Fld := ⟨TE_CTL, 1, 1⟩
def TE_STATUS : Nat := 0x600004
def TE_STATUS_SCHED_BUSY : Fld := ⟨TE_STATUS, 0, 1⟩
def TE_STATUS_PENDING : Fld := ⟨TE_STATUS, 1, 1⟩
def TE_STATUS_GOV_HOLD : Fld := ⟨TE_STATUS, 2, 1⟩
def TE_STATUS_RELOCATED : Fld := ⟨TE_STATUS, 3, 1⟩
def TE_PMAP_GEN : Nat := 0x600008
def TE_TURN_STAT : Nat := 0x60000C
def TE_TURN_STAT_RUNNING : Fld := ⟨TE_TURN_STAT, 0, 16⟩
def TE_TURN_STAT_PENDING_TURN : Fld := ⟨TE_TURN_STAT, 16, 16⟩
def TE_OVERRUN_CNT : Nat := 0x600010
def TE_SKIP_CNT : Nat := 0x600014
def TE_RETIRE : Nat := 0x600018
def TE_RETIRE_HOOP : Fld := ⟨TE_RETIRE, 0, 6⟩
def TE_RETIRED_LO : Nat := 0x60001C
def TE_RETIRED_HI : Nat := 0x600020
def TE_RELOC_STAT : Nat := 0x600024
def TE_RELOC_STAT_STATE : Fld := ⟨TE_RELOC_STAT, 0, 2⟩
def TE_RELOC_STAT_HOOP : Fld := ⟨TE_RELOC_STAT, 8, 6⟩
def TE_RELOC_STAT_LHOOP : Fld := ⟨TE_RELOC_STAT, 16, 5⟩
def TE_WIT_LIM : Nat := 0x600028
def TE_GOV_CFG : Nat := 0x600040
def TE_GOV_CFG_KV : Fld := ⟨TE_GOV_CFG, 0, 10⟩
def TE_GOV_CFG_HEADROOM : Fld := ⟨TE_GOV_CFG, 10, 6⟩
def TE_GOV_CFG_UP_MAX : Fld := ⟨TE_GOV_CFG, 16, 8⟩
def TE_GOV_CFG_DOWN_MAX : Fld := ⟨TE_GOV_CFG, 24, 8⟩
def TE_GOV_DEADLINE : Nat := 0x600044
def TE_GOV_GUARD : Nat := 0x600048
def TE_GOV_VLIM : Nat := 0x60004C
def TE_GOV_VLIM_VMIN : Fld := ⟨TE_GOV_VLIM, 0, 16⟩
def TE_GOV_VLIM_VMAX : Fld := ⟨TE_GOV_VLIM, 16, 16⟩
def TE_GOV_VFLOOR : Nat := 0x600050
def TE_GOV_VNOW : Nat := 0x600054
def TE_GOV_RATE : Nat := 0x600058
def TE_GOV_CKPT : Nat := 0x60005C
def TE_AVS_CFG : Nat := 0x600060
def TE_AVS_CFG_RAIL : Fld := ⟨TE_AVS_CFG, 0, 4⟩
def TE_AVS_CFG_CLK : Fld := ⟨TE_AVS_CFG, 8, 2⟩
def TE_AVS_CFG_SLEW : Fld := ⟨TE_AVS_CFG, 16, 8⟩
def TE_AVS_STAT : Nat := 0x600064
def TE_AVS_STAT_BUSY : Fld := ⟨TE_AVS_STAT, 0, 1⟩
def TE_AVS_STAT_ERR : Fld := ⟨TE_AVS_STAT, 1, 1⟩
def TE_AVS_STAT_LAST_STATUS : Fld := ⟨TE_AVS_STAT, 8, 5⟩
def TE_HOOP_STAT (h : Nat) : Nat := 0x600100 + 0x4 * h
def TE_HOOP_STAT_ROLE (h : Nat) : Fld := ⟨TE_HOOP_STAT h, 0, 2⟩
def TE_HOOP_STAT_RETIRED (h : Nat) : Fld := ⟨TE_HOOP_STAT h, 2, 1⟩
def TE_HOOP_STAT_BUSY (h : Nat) : Fld := ⟨TE_HOOP_STAT h, 3, 1⟩
def TE_HOOP_STAT_LHOOP (h : Nat) : Fld := ⟨TE_HOOP_STAT h, 8, 5⟩
def TE_HOOP_STAT_ECC_COR (h : Nat) : Fld := ⟨TE_HOOP_STAT h, 16, 8⟩
def TE_HOOP_STAT_WIT_FLAG (h : Nat) : Fld := ⟨TE_HOOP_STAT h, 24, 8⟩
/-! ### 11_lace.md R374 -/

def TE_LACE_CTL (l : Nat) : Nat := 0x600400 + 0x40 * l
def TE_LACE_CTL_EN (l : Nat) : Fld := ⟨TE_LACE_CTL l, 0, 1⟩
def TE_LACE_CTL_MODE (l : Nat) : Fld := ⟨TE_LACE_CTL l, 1, 1⟩
def TE_LACE_CTL_LOAD (l : Nat) : Fld := ⟨TE_LACE_CTL l, 2, 1⟩
def TE_LACE_CTL_SAVE (l : Nat) : Fld := ⟨TE_LACE_CTL l, 3, 1⟩
def TE_LACE_CTL_TENANT (l : Nat) : Fld := ⟨TE_LACE_CTL l, 4, 3⟩
def TE_LACE_NET_LO (l : Nat) : Nat := 0x600404 + 0x40 * l
def TE_LACE_NET_HI (l : Nat) : Nat := 0x600408 + 0x40 * l
def TE_LACE_DT (l : Nat) : Nat := 0x60040C + 0x40 * l
def TE_LACE_LAG (l : Nat) : Nat := 0x600410 + 0x40 * l
def TE_LACE_TNOW (l : Nat) : Nat := 0x600414 + 0x40 * l
def TE_LACE_STAT (l : Nat) : Nat := 0x600418 + 0x40 * l
def TE_LACE_STAT_LOADED (l : Nat) : Fld := ⟨TE_LACE_STAT l, 0, 1⟩
def TE_LACE_STAT_BUSY (l : Nat) : Fld := ⟨TE_LACE_STAT l, 1, 1⟩
def TE_LACE_STAT_COMMIT_ARMED (l : Nat) : Fld := ⟨TE_LACE_STAT l, 3, 1⟩
def TE_LACE_STAT_LOAD_ERR (l : Nat) : Fld := ⟨TE_LACE_STAT l, 8, 1⟩
def TE_LACE_STAT_DELTA_FULL (l : Nat) : Fld := ⟨TE_LACE_STAT l, 9, 1⟩
def TE_LACE_STAT_EVT_DROP (l : Nat) : Fld := ⟨TE_LACE_STAT l, 10, 1⟩
def TE_LACE_DELTAS (l : Nat) : Nat := 0x60041C + 0x40 * l
def TE_LACE_DROPS (l : Nat) : Nat := 0x600420 + 0x40 * l
def TE_LACE_DROPS_EVENTS (l : Nat) : Fld := ⟨TE_LACE_DROPS l, 0, 16⟩
def TE_LACE_DROPS_DELTAS (l : Nat) : Fld := ⟨TE_LACE_DROPS l, 16, 16⟩
def TE_LACE_GEN (l : Nat) : Nat := 0x600424 + 0x40 * l
def TE_LACE_REWARD (l : Nat) : Nat := 0x600428 + 0x40 * l
def TE_LACE_REWARD_R (l : Nat) : Fld := ⟨TE_LACE_REWARD l, 0, 8⟩
def TE_LACE_SRC (l : Nat) (j : Nat) : Nat := 0x600430 + 0x40 * l + 0x8 * j
def TE_LACE_SRC_STREAM (l : Nat) (j : Nat) : Fld := ⟨TE_LACE_SRC l j, 0, 6⟩
def TE_LACE_SRC_EN (l : Nat) (j : Nat) : Fld := ⟨TE_LACE_SRC l j, 7, 1⟩
def TE_LACE_SRC_SHIFT (l : Nat) (j : Nat) : Fld := ⟨TE_LACE_SRC l j, 8, 3⟩
def TE_LACE_SRC_POL (l : Nat) (j : Nat) : Fld := ⟨TE_LACE_SRC l j, 11, 1⟩
def TE_LACE_SRC_ROW (l : Nat) (j : Nat) : Fld := ⟨TE_LACE_SRC l j, 16, 12⟩
def TE_LACE_CHBASE (l : Nat) (j : Nat) : Nat := 0x600434 + 0x40 * l + 0x8 * j
/-! ### 12_sequences.md R412 -/

def SK_CTL : Nat := 0x700000
def SK_CTL_EN : Fld := ⟨SK_CTL, 0, 1⟩
def SK_STATUS : Nat := 0x700004
def SK_STATUS_LIVE : Fld := ⟨SK_STATUS, 0, 11⟩
def SK_STATUS_SPILLING : Fld := ⟨SK_STATUS, 16, 1⟩
def SK_STATUS_RETURNING : Fld := ⟨SK_STATUS, 17, 1⟩
def SK_STATUS_EXHAUSTED : Fld := ⟨SK_STATUS, 18, 1⟩
def SK_POOL_BASE_LO : Nat := 0x700008
def SK_POOL_BASE_HI : Nat := 0x70000C
def SK_POOL_SIZE : Nat := 0x700010
def SK_THIM_BASE_LO : Nat := 0x700014
def SK_THIM_BASE_HI : Nat := 0x700018
def SK_THIM_SIZE : Nat := 0x70001C
def SK_POOL_FREE : Nat := 0x700020
def SK_CFG : Nat := 0x700024
def SK_CFG_FLUSH_AT : Fld := ⟨SK_CFG, 0, 6⟩
def SK_CFG_AHEAD : Fld := ⟨SK_CFG, 8, 3⟩
def SK_CFG_LOW_PCT : Fld := ⟨SK_CFG, 16, 8⟩
def SK_CFG_HIGH_PCT : Fld := ⟨SK_CFG, 24, 8⟩
def SK_SPILL_USED : Nat := 0x700028
def SK_STAT : Nat := 0x70002C
def SK_STAT_SPILLS : Fld := ⟨SK_STAT, 0, 16⟩
def SK_STAT_RETURNS : Fld := ⟨SK_STAT, 16, 16⟩
def SK_RING_CFG : Nat := 0x700030
def SK_RING_CFG_WINDOW : Fld := ⟨SK_RING_CFG, 0, 7⟩
def SK_RING_STAT : Nat := 0x700034
def SK_RING_STAT_RECEIVED : Fld := ⟨SK_RING_STAT, 0, 16⟩
def SK_RING_STAT_DIRECT : Fld := ⟨SK_RING_STAT, 16, 8⟩
def SK_RING_STAT_MIRROR : Fld := ⟨SK_RING_STAT, 24, 8⟩
def SK_SEQ_STAT (q : Nat) : Nat := 0x701000 + 0x4 * q
def SK_SEQ_STAT_STATE (q : Nat) : Fld := ⟨SK_SEQ_STAT q, 0, 2⟩
def SK_SEQ_STAT_TENANT (q : Nat) : Fld := ⟨SK_SEQ_STAT q, 4, 3⟩
def SK_SEQ_STAT_LANE (q : Nat) : Fld := ⟨SK_SEQ_STAT q, 8, 2⟩
def SK_SEQ_STAT_PLACES (q : Nat) : Fld := ⟨SK_SEQ_STAT q, 10, 6⟩
def SK_SEQ_STAT_RING (q : Nat) : Fld := ⟨SK_SEQ_STAT q, 16, 1⟩
def SK_SEQ_LEN (q : Nat) : Nat := 0x702000 + 0x4 * q
/-! ### 13_memory.md R448 -/

def AT_CTL : Nat := 0x800000
def AT_CTL_EN : Fld := ⟨AT_CTL, 0, 1⟩
def AT_STATUS : Nat := 0x800004
def AT_STATUS_WALKING : Fld := ⟨AT_STATUS, 0, 1⟩
def AT_STATUS_INVALIDATING : Fld := ⟨AT_STATUS, 1, 1⟩
def AT_PTS_USED : Nat := 0x800008
def AT_STAT : Nat := 0x80000C
def AT_STAT_WALKS : Fld := ⟨AT_STAT, 0, 16⟩
def AT_STAT_PIN_LOST : Fld := ⟨AT_STAT, 16, 16⟩
def AT_TEN_CTL (t : Nat) : Nat := 0x801000 + 0x100 * t
def AT_TEN_CTL_EN (t : Nat) : Fld := ⟨AT_TEN_CTL t, 0, 1⟩
def AT_ROOT_LO (t : Nat) : Nat := 0x801004 + 0x100 * t
def AT_ROOT_HI (t : Nat) : Nat := 0x801008 + 0x100 * t
def AT_INV_VA_LO (t : Nat) : Nat := 0x801010 + 0x100 * t
def AT_INV_VA_HI (t : Nat) : Nat := 0x801014 + 0x100 * t
def AT_INV_CTL (t : Nat) : Nat := 0x801018 + 0x100 * t
def AT_INV_CTL_PAGES (t : Nat) : Fld := ⟨AT_INV_CTL t, 0, 20⟩
def AT_INV_CTL_ALL (t : Nat) : Fld := ⟨AT_INV_CTL t, 30, 1⟩
def AT_INV_CTL_GO (t : Nat) : Fld := ⟨AT_INV_CTL t, 31, 1⟩
def AT_FAULT_INFO (t : Nat) : Nat := 0x801020 + 0x100 * t
def AT_FAULT_INFO_REASON (t : Nat) : Fld := ⟨AT_FAULT_INFO t, 0, 4⟩
def AT_FAULT_INFO_LEVEL (t : Nat) : Fld := ⟨AT_FAULT_INFO t, 4, 2⟩
def AT_FAULT_INFO_WRITE (t : Nat) : Fld := ⟨AT_FAULT_INFO t, 6, 1⟩
def AT_FAULT_INFO_IID (t : Nat) : Fld := ⟨AT_FAULT_INFO t, 8, 6⟩
def AT_FAULT_INFO_VALID (t : Nat) : Fld := ⟨AT_FAULT_INFO t, 15, 1⟩
def AT_FAULT_VA_LO (t : Nat) : Nat := 0x801024 + 0x100 * t
def AT_FAULT_VA_HI (t : Nat) : Nat := 0x801028 + 0x100 * t
def AT_FAULT_STAT (t : Nat) : Nat := 0x80102C + 0x100 * t
def AT_FAULT_STAT_LEVEL (t : Nat) : Fld := ⟨AT_FAULT_STAT t, 0, 5⟩
def AT_FAULT_STAT_OVF (t : Nat) : Fld := ⟨AT_FAULT_STAT t, 8, 1⟩
def MEM_STATUS : Nat := 0x900000
def MEM_STATUS_TRAINED : Fld := ⟨MEM_STATUS, 0, 4⟩
def MEM_STATUS_REEL_READY : Fld := ⟨MEM_STATUS, 4, 1⟩
def MEM_STATUS_FLUSHING : Fld := ⟨MEM_STATUS, 5, 1⟩
def MEM_SCRUB_CFG : Nat := 0x900010
def MEM_SCRUB_CFG_EN : Fld := ⟨MEM_SCRUB_CFG, 0, 1⟩
def MEM_SCRUB_CFG_PASS_H : Fld := ⟨MEM_SCRUB_CFG, 8, 5⟩
def MEM_SCRUB_STAT : Nat := 0x900014
def MEM_SCRUB_STAT_PROGRESS : Fld := ⟨MEM_SCRUB_STAT, 0, 7⟩
def MEM_SCRUB_STAT_PASSES : Fld := ⟨MEM_SCRUB_STAT, 16, 16⟩
def MEM_SCRUB_UE_LO : Nat := 0x900018
def MEM_SCRUB_UE_HI : Nat := 0x90001C
def MEM_RC_CFG : Nat := 0x900020
def MEM_RC_CFG_SIZE : Fld := ⟨MEM_RC_CFG, 0, 5⟩
def MEM_RC_CTL : Nat := 0x900024
def MEM_RC_CTL_FLUSH : Fld := ⟨MEM_RC_CTL, 0, 1⟩
def MEM_RC_STAT : Nat := 0x900028
def MEM_RC_STAT_DIRTY : Fld := ⟨MEM_RC_STAT, 0, 21⟩
def MEM_RC_STAT_WB : Fld := ⟨MEM_RC_STAT, 21, 7⟩
def MEM_RC_MISS : Nat := 0x90002C
def MEM_REEL_STAT : Nat := 0x900030
def MEM_REEL_STAT_FREE_PCT : Fld := ⟨MEM_REEL_STAT, 0, 8⟩
def MEM_REEL_STAT_SLC_FREE_PCT : Fld := ⟨MEM_REEL_STAT, 8, 8⟩
def MEM_REEL_ERR : Nat := 0x900034
def MEM_REEL_ERR_CE : Fld := ⟨MEM_REEL_ERR, 0, 16⟩
def MEM_REEL_ERR_UE : Fld := ⟨MEM_REEL_ERR, 16, 16⟩
def MEM_BOB_STAT (b : Nat) : Nat := 0x900100 + 0x20 * b
def MEM_BOB_STAT_TEMP (b : Nat) : Fld := ⟨MEM_BOB_STAT b, 0, 8⟩
def MEM_BOB_STAT_HOT (b : Nat) : Fld := ⟨MEM_BOB_STAT b, 8, 1⟩
def MEM_ECC_CE (b : Nat) : Nat := 0x900104 + 0x20 * b
def MEM_ECC_UE (b : Nat) : Nat := 0x900108 + 0x20 * b
def MEM_ECC_ADDR_LO (b : Nat) : Nat := 0x90010C + 0x20 * b
def MEM_ECC_ADDR_HI (b : Nat) : Nat := 0x900110 + 0x20 * b
/-! ### 14_pool.md R478 -/

def PL_CTL : Nat := 0xA00000
def PL_CTL_EN : Fld := ⟨PL_CTL, 0, 1⟩
def PL_STATUS : Nat := 0xA00004
def PL_STATUS_TWIN : Fld := ⟨PL_STATUS, 0, 1⟩
def PL_STATUS_REVOKING : Fld := ⟨PL_STATUS, 1, 1⟩
def PL_FM : Nat := 0xA00008
def PL_FM_TENANT : Fld := ⟨PL_FM, 0, 3⟩
def PL_FM_VALID : Fld := ⟨PL_FM, 8, 1⟩
def PL_RECALL_GRACE : Nat := 0xA0000C
def PL_STAT : Nat := 0xA00010
def PL_STAT_REBUILT : Fld := ⟨PL_STAT, 0, 16⟩
def PL_STAT_DENIED : Fld := ⟨PL_STAT, 16, 16⟩
def PL_NOTICE (t : Nat) : Nat := 0xA00100 + 0x4 * t
def PL_NOTICE_VEC (t : Nat) : Nat := 0xA00120 + 0x4 * t
def PL_RGN_BASE (r : Nat) : Nat := 0xA01000 + 0x20 * r
def PL_RGN_SIZE (r : Nat) : Nat := 0xA01004 + 0x20 * r
def PL_RGN_CFG (r : Nat) : Nat := 0xA01008 + 0x20 * r
def PL_RGN_CFG_STATE (r : Nat) : Fld := ⟨PL_RGN_CFG r, 0, 2⟩
def PL_RGN_CFG_PROT (r : Nat) : Fld := ⟨PL_RGN_CFG r, 2, 2⟩
def PL_RGN_CFG_ERR_MODE (r : Nat) : Fld := ⟨PL_RGN_CFG r, 4, 1⟩
def PL_RGN_CFG_WRITER (r : Nat) : Fld := ⟨PL_RGN_CFG r, 8, 3⟩
def PL_RGN_READERS (r : Nat) : Nat := 0xA0100C + 0x20 * r
def PL_RGN_READERS_TENANTS (r : Nat) : Fld := ⟨PL_RGN_READERS r, 0, 8⟩
def PL_RGN_READERS_DEVICES (r : Nat) : Fld := ⟨PL_RGN_READERS r, 16, 8⟩
def PL_RGN_STAT (r : Nat) : Nat := 0xA01010 + 0x20 * r
def PL_RGN_STAT_DRAINING (r : Nat) : Fld := ⟨PL_RGN_STAT r, 0, 1⟩
def PL_RGN_STAT_DEGRADED (r : Nat) : Fld := ⟨PL_RGN_STAT r, 1, 1⟩
def PL_EXT_BASE (x : Nat) : Nat := 0xA02000 + 0x10 * x
def PL_EXT_SIZE (x : Nat) : Nat := 0xA02004 + 0x10 * x
def PL_EXT_STATE (x : Nat) : Nat := 0xA02008 + 0x10 * x
def PL_EXT_STATE_STATE (x : Nat) : Fld := ⟨PL_EXT_STATE x, 0, 2⟩
def PL_EXT_STATE_PROT (x : Nat) : Fld := ⟨PL_EXT_STATE x, 2, 2⟩
def PL_EXT_STATE_ERR_MODE (x : Nat) : Fld := ⟨PL_EXT_STATE x, 4, 1⟩
def PL_EXT_STATE_WR (x : Nat) : Fld := ⟨PL_EXT_STATE x, 5, 1⟩
def PL_EXT_STATE_HOLDER (x : Nat) : Fld := ⟨PL_EXT_STATE x, 8, 7⟩
def PL_EXT_STATE_GEN (x : Nat) : Fld := ⟨PL_EXT_STATE x, 16, 16⟩
/-! ### 15_track.md R518 -/

def TK_CTL : Nat := 0xB00000
def TK_CTL_EN : Fld := ⟨TK_CTL, 0, 1⟩
def TK_STATUS : Nat := 0xB00004
def TK_STATUS_COMMIT_PENDING : Fld := ⟨TK_STATUS, 0, 1⟩
def TK_STATUS_IMAGE : Fld := ⟨TK_STATUS, 1, 1⟩
def TK_CLAIM : Nat := 0xB00008
def TK_PUBLISH : Nat := 0xB0000C
def TK_PUBLISH_INDEX : Fld := ⟨TK_PUBLISH, 0, 12⟩
def TK_LEASE : Nat := 0xB00010
def TK_RING_STAT : Nat := 0xB00014
def TK_RING_STAT_HEAD : Fld := ⟨TK_RING_STAT, 0, 12⟩
def TK_RING_STAT_TAIL : Fld := ⟨TK_RING_STAT, 16, 12⟩
def TK_VOID_CNT : Nat := 0xB00018
def TK_STORE_USED : Nat := 0xB0001C
def TK_SKIP64 : Nat := 0xB00020
def TK_CFG_OWNER : Nat := 0xB00024
def TK_CFG_OWNER_IID : Fld := ⟨TK_CFG_OWNER, 0, 6⟩
def TK_CONFIG_GEN : Nat := 0xB00028
def TK_COMMIT_STAT : Nat := 0xB0002C
def TK_COMMIT_STAT_TRIES : Fld := ⟨TK_COMMIT_STAT, 0, 8⟩
def TK_COMMIT_STAT_TARGET : Fld := ⟨TK_COMMIT_STAT, 16, 16⟩
def TK_COMMIT_TRIES : Nat := 0xB00030
def TK_STAGE_STAT : Nat := 0xB00034
def TK_CQ_BASE_LO (t : Nat) : Nat := 0xB01000 + 0x40 * t
def TK_CQ_BASE_HI (t : Nat) : Nat := 0xB01004 + 0x40 * t
def TK_CQ_CFG (t : Nat) : Nat := 0xB01008 + 0x40 * t
def TK_CQ_CFG_LOG2 (t : Nat) : Fld := ⟨TK_CQ_CFG t, 0, 4⟩
def TK_CQ_CFG_VEC (t : Nat) : Fld := ⟨TK_CQ_CFG t, 8, 5⟩
def TK_CQ_CFG_EN (t : Nat) : Fld := ⟨TK_CQ_CFG t, 16, 1⟩
def TK_CQ_HEAD (t : Nat) : Nat := 0xB0100C + 0x40 * t
def TK_CQ_TAIL (t : Nat) : Nat := 0xB01010 + 0x40 * t
def TK_DONE_CSN (t : Nat) : Nat := 0xB01014 + 0x40 * t
def TK_QUOTA (t : Nat) : Nat := 0xB01018 + 0x40 * t
def TK_OUT (t : Nat) : Nat := 0xB0101C + 0x40 * t
def TK_OUT_OUTSTANDING (t : Nat) : Fld := ⟨TK_OUT t, 0, 9⟩
def TK_OUT_CQ_FULL (t : Nat) : Fld := ⟨TK_OUT t, 16, 1⟩
/-! ### 16_host_fences.md R551 -/

def HI_STATUS : Nat := 0xC00000
def HI_STATUS_UP_A : Fld := ⟨HI_STATUS, 0, 1⟩
def HI_STATUS_UP_B : Fld := ⟨HI_STATUS, 8, 1⟩
def HI_STATUS_SPEED_A : Fld := ⟨HI_STATUS, 1, 3⟩
def HI_STATUS_SPEED_B : Fld := ⟨HI_STATUS, 9, 3⟩
def HI_STATUS_WIDTH_A : Fld := ⟨HI_STATUS, 4, 3⟩
def HI_STATUS_WIDTH_B : Fld := ⟨HI_STATUS, 12, 3⟩
def HI_DENY_CNT : Nat := 0xC00004
def HI_DENY_CNT_REGION : Fld := ⟨HI_DENY_CNT, 0, 16⟩
def HI_DENY_CNT_REGISTER : Fld := ⟨HI_DENY_CNT, 16, 16⟩
def HI_FUNC_STAT (t : Nat) : Nat := 0xC00100 + 0x10 * t
def HI_FUNC_STAT_PRESENT (t : Nat) : Fld := ⟨HI_FUNC_STAT t, 0, 1⟩
def HI_FUNC_STAT_MSE (t : Nat) : Fld := ⟨HI_FUNC_STAT t, 1, 1⟩
def HI_FUNC_STAT_BME (t : Nat) : Fld := ⟨HI_FUNC_STAT t, 2, 1⟩
def HI_FUNC_STAT_FLR (t : Nat) : Fld := ⟨HI_FUNC_STAT t, 3, 1⟩
def HI_FUNC_STAT_DISABLED (t : Nat) : Fld := ⟨HI_FUNC_STAT t, 4, 1⟩
def HI_PWIN_BASE (t : Nat) : Nat := 0xC00104 + 0x10 * t
def HI_PWIN_SIZE (t : Nat) : Nat := 0xC00108 + 0x10 * t
def HI_FS_WIN (t : Nat) (w : Nat) : Nat := 0xC00200 + 0x10 * t + 0x4 * w
def HI_FS_WIN_FIRST (t : Nat) (w : Nat) : Fld := ⟨HI_FS_WIN t w, 0, 10⟩
def HI_FS_WIN_COUNT (t : Nat) (w : Nat) : Fld := ⟨HI_FS_WIN t w, 10, 10⟩
def HI_FS_WIN_EN (t : Nat) (w : Nat) : Fld := ⟨HI_FS_WIN t w, 31, 1⟩
def HI_FENCE_FIRST (e : Nat) : Nat := 0xC01000 + 0x10 * e
def HI_FENCE_FIRST_FIRST (e : Nat) : Fld := ⟨HI_FENCE_FIRST e, 0, 28⟩
def HI_FENCE_FIRST_EN (e : Nat) : Fld := ⟨HI_FENCE_FIRST e, 31, 1⟩
def HI_FENCE_LAST (e : Nat) : Nat := 0xC01004 + 0x10 * e
def HI_FENCE_RD (e : Nat) : Nat := 0xC01008 + 0x10 * e
def HI_FENCE_WR (e : Nat) : Nat := 0xC0100C + 0x10 * e
def HI_PAGE_RD (g : Nat) : Nat := 0xC10000 + 0x8 * g
def HI_PAGE_WR (g : Nat) : Nat := 0xC10004 + 0x8 * g
/-! ### 17_selvedge.md R583 -/

def SV_CTL : Nat := 0xD00000
def SV_CTL_EN : Fld := ⟨SV_CTL, 0, 1⟩
def SV_CTL_DETACH : Fld := ⟨SV_CTL, 1, 1⟩
def SV_CFG : Nat := 0xD00004
def SV_CFG_DEV_ID : Fld := ⟨SV_CFG, 0, 3⟩
def SV_CFG_MEMBERS : Fld := ⟨SV_CFG, 4, 4⟩
def SV_CFG_TWIN : Fld := ⟨SV_CFG, 8, 1⟩
def SV_CFG_ROLE : Fld := ⟨SV_CFG, 9, 1⟩
def SV_STATUS : Nat := 0xD00008
def SV_STATUS_STATE : Fld := ⟨SV_STATUS, 0, 2⟩
def SV_STATUS_OWNER : Fld := ⟨SV_STATUS, 2, 1⟩
def SV_STATUS_LIVE : Fld := ⟨SV_STATUS, 8, 8⟩
def SV_HB_CFG : Nat := 0xD0000C
def SV_HB_CFG_PER : Fld := ⟨SV_HB_CFG, 0, 16⟩
def SV_HB_CFG_MISS : Fld := ⟨SV_HB_CFG, 16, 4⟩
def SV_TRIG_MASK : Nat := 0xD00010
def SV_HANDOVER : Nat := 0xD00014
def SV_PEER_TURN : Nat := 0xD00018
def SV_RESILVER_CFG : Nat := 0xD00020
def SV_RESILVER_STAT : Nat := 0xD00024
def SV_RESILVER_STAT_PENDING : Fld := ⟨SV_RESILVER_STAT, 0, 24⟩
def SV_RESILVER_STAT_CONFLICT : Fld := ⟨SV_RESILVER_STAT, 24, 8⟩
def SV_PORT_CTL (p : Nat) : Nat := 0xD00100 + 0x40 * p
def SV_PORT_CTL_EN (p : Nat) : Fld := ⟨SV_PORT_CTL p, 0, 1⟩
def SV_PORT_STAT (p : Nat) : Nat := 0xD00104 + 0x40 * p
def SV_PORT_STAT_STATE (p : Nat) : Fld := ⟨SV_PORT_STAT p, 0, 3⟩
def SV_PORT_STAT_LANES_LOCKED (p : Nat) : Fld := ⟨SV_PORT_STAT p, 8, 4⟩
def SV_PORT_STAT_NEIGHBOUR (p : Nat) : Fld := ⟨SV_PORT_STAT p, 16, 3⟩
def SV_PORT_ERR (p : Nat) : Nat := 0xD00108 + 0x40 * p
def SV_PORT_ERR_CRC (p : Nat) : Fld := ⟨SV_PORT_ERR p, 0, 8⟩
def SV_PORT_ERR_REPLAY (p : Nat) : Fld := ⟨SV_PORT_ERR p, 8, 8⟩
def SV_PORT_ERR_BAD_MSG (p : Nat) : Fld := ⟨SV_PORT_ERR p, 16, 8⟩
def SV_PORT_ERR_STALE (p : Nat) : Fld := ⟨SV_PORT_ERR p, 24, 8⟩
def SV_PEER_OFS_LO (p : Nat) : Nat := 0xD0010C + 0x40 * p
def SV_PEER_OFS_HI (p : Nat) : Nat := 0xD00110 + 0x40 * p
def SV_PEER_DELAY (p : Nat) : Nat := 0xD00114 + 0x40 * p
/-! ### 18_referee.md R622 -/

def RF_STATUS : Nat := 0xE00000
def RF_STATUS_RUNNING : Fld := ⟨RF_STATUS, 0, 1⟩
def RF_STATUS_RULESET : Fld := ⟨RF_STATUS, 1, 1⟩
def RF_STATUS_AUTH_FAIL : Fld := ⟨RF_STATUS, 2, 1⟩
def RF_STATUS_JUDGING : Fld := ⟨RF_STATUS, 3, 1⟩
def RF_STATUS_HB : Fld := ⟨RF_STATUS, 4, 1⟩
def RF_STATUS_RELAUNCH : Fld := ⟨RF_STATUS, 5, 1⟩
def RF_STATUS_HOLDOVER : Fld := ⟨RF_STATUS, 6, 1⟩
def RF_RULESET_ID : Nat := 0xE00004
def RF_RULESET_VER : Nat := 0xE00008
def RF_STEP : Nat := 0xE0000C
def RF_STEP_S : Fld := ⟨RF_STEP, 0, 3⟩
def RF_STEP_D : Fld := ⟨RF_STEP, 8, 3⟩
def RF_STEP_CLEAN : Fld := ⟨RF_STEP, 16, 6⟩
def RF_WINDOW : Nat := 0xE00010
def RF_WINDOW_BITS : Fld := ⟨RF_WINDOW, 0, 16⟩
def RF_WINDOW_COUNT : Fld := ⟨RF_WINDOW, 16, 5⟩
def RF_LAST_TURN : Nat := 0xE00014
def RF_LAST_VERDICT : Nat := 0xE00018
def RF_LAST_VERDICT_VERDICT : Fld := ⟨RF_LAST_VERDICT, 0, 2⟩
def RF_LAST_VERDICT_CAUSES : Fld := ⟨RF_LAST_VERDICT, 8, 7⟩
def RF_VERDICT_LAT : Nat := 0xE0001C
def RF_REJECTS : Nat := 0xE00020
def RF_MISSED : Nat := 0xE00024
def RF_MISMATCH : Nat := 0xE00028
def RF_MISMATCH_HOOP : Fld := ⟨RF_MISMATCH, 0, 6⟩
def RF_MISMATCH_NEEDLE : Fld := ⟨RF_MISMATCH, 8, 3⟩
def RF_MISMATCH_TURN : Fld := ⟨RF_MISMATCH, 16, 16⟩
def RF_SRAM_ECC : Nat := 0xE0002C
def RF_HB_PER : Nat := 0xE00030
def RF_LOG_HEAD : Nat := 0xE00034
def RF_SAFE_CAUSE : Nat := 0xE00038
def RF_SAFE_CAUSE_CODE : Fld := ⟨RF_SAFE_CAUSE, 0, 16⟩
def RF_SAFE_CAUSE_COUNT : Fld := ⟨RF_SAFE_CAUSE, 16, 8⟩
def RF_SAFE_CAUSE_VALID : Fld := ⟨RF_SAFE_CAUSE, 31, 1⟩
def RF_LOG (i : Nat) : Nat := 0xE01000 + 0x10 * i
/-! ### 20_power_startup.md R672 -/

def MC_STATUS : Nat := 0xF00000
def MC_STATUS_STAGE : Fld := ⟨MC_STATUS, 0, 4⟩
def MC_STATUS_SLOT : Fld := ⟨MC_STATUS, 4, 1⟩
def MC_STATUS_RECOVERY : Fld := ⟨MC_STATUS, 5, 1⟩
def MC_STATUS_FUSE_RB : Fld := ⟨MC_STATUS, 8, 6⟩
def MC_BOOT_VER : Nat := 0xF00004
def MC_LOCK : Nat := 0xF00008
def MC_LOCK_LOCK : Fld := ⟨MC_LOCK, 0, 1⟩
def MC_RST_CTL : Nat := 0xF0000C
def MC_RST_CTL_WARM : Fld := ⟨MC_RST_CTL, 0, 1⟩
def MC_PWR_OWNER : Nat := 0xF00010
def MC_PWR_OWNER_TENANT : Fld := ⟨MC_PWR_OWNER, 0, 3⟩
def MC_PWR_OWNER_VALID : Fld := ⟨MC_PWR_OWNER, 8, 1⟩
def MC_RAIL_STAT : Nat := 0xF00014
def MC_RAIL_STAT_EN : Fld := ⟨MC_RAIL_STAT, 0, 4⟩
def MC_RAIL_STAT_PG : Fld := ⟨MC_RAIL_STAT, 8, 4⟩
def MC_TEMP_MAX : Nat := 0xF00018
def MC_TEMP_MAX_TJ : Fld := ⟨MC_TEMP_MAX, 0, 8⟩
def MC_TEMP_MAX_SENSOR : Fld := ⟨MC_TEMP_MAX, 8, 4⟩
def MC_POWER : Nat := 0xF0001C
def MC_THERM_CFG : Nat := 0xF00020
def MC_THERM_CFG_WARN : Fld := ⟨MC_THERM_CFG, 0, 8⟩
def MC_THERM_CFG_CRIT : Fld := ⟨MC_THERM_CFG, 8, 8⟩
def MC_BG_STAT : Nat := 0xF00024
def MC_BG_STAT_SCRUB_FORCED : Fld := ⟨MC_BG_STAT, 0, 8⟩
def MC_BG_STAT_WEAR_FORCED : Fld := ⟨MC_BG_STAT, 8, 8⟩
def MC_BG_STAT_CAL_IDLE : Fld := ⟨MC_BG_STAT, 16, 8⟩
def MC_BG_STAT_CAL_FORCED : Fld := ⟨MC_BG_STAT, 24, 8⟩
def MC_CAL_CFG : Nat := 0xF00028
def MC_CAL_CFG_WINDOW_US : Fld := ⟨MC_CAL_CFG, 0, 8⟩
def MC_CAL_CFG_IDLE_MIN_S : Fld := ⟨MC_CAL_CFG, 8, 8⟩
def MC_CAL_CFG_FORCE_S : Fld := ⟨MC_CAL_CFG, 16, 16⟩
def MC_PWR_REQ : Nat := 0xF01000
def MC_PWR_REQ_DEEPEST : Fld := ⟨MC_PWR_REQ, 0, 3⟩
def MC_PWR_REQ_PREP_OFF : Fld := ⟨MC_PWR_REQ, 8, 1⟩
def MC_PWR_STAT : Nat := 0xF01004
def MC_PWR_STAT_STATE : Fld := ⟨MC_PWR_STAT, 0, 3⟩
def MC_PWR_STAT_MOVING : Fld := ⟨MC_PWR_STAT, 3, 1⟩
def MC_PWR_STAT_OFF_READY : Fld := ⟨MC_PWR_STAT, 8, 1⟩
def MC_PWR_GUARD : Nat := 0xF01008
def MC_NEXT_EV_LO : Nat := 0xF0100C
def MC_NEXT_EV_HI : Nat := 0xF01010
def MC_WAKE_AT_LO : Nat := 0xF01014
def MC_WAKE_AT_HI : Nat := 0xF01018
def MC_WAKE_EN : Nat := 0xF0101C
def MC_WAKE_PEND : Nat := 0xF01020
def MC_WAKE_RPT : Nat := 0xF01024
def MC_WAKE_CFG : Nat := 0xF01028
def MC_WAKE_CFG_VEC : Fld := ⟨MC_WAKE_CFG, 0, 5⟩
def MC_WAKE_CNT : Nat := 0xF0102C
def MC_BOOT_CTL : Nat := 0xF01030
def MC_BOOT_CTL_RB_COMMIT : Fld := ⟨MC_BOOT_CTL, 0, 1⟩
def MC_RECOV_ADDR_LO : Nat := 0xF02000
def MC_RECOV_ADDR_HI : Nat := 0xF02004
def MC_RECOV_LEN : Nat := 0xF02008
def MC_RECOV_GO : Nat := 0xF0200C
def MC_RECOV_GO_GO : Fld := ⟨MC_RECOV_GO, 0, 1⟩

end Reg

end Sys2Proof.Machine
end

