-- ==== Sys2Proof/Machine/RegTable.lean ====
section
/-! DEFINITION. What an access does to each register: its access codes by bit (R36), its reset value, the ranges of its
fields (R731), its place in an _LO/_HI pair (R33, R730), its tenant class (R543) and whether its first index is a tenant
number (R544). Transcribed from the register summaries and field tables; a register that lists no fields has the access
code of its row over the bits its purpose names. -/

namespace Sys2Proof.Machine

/-- The tenant classes of R543: `none` takes no tenant write; `lace` and `recTail` are the two rules of R543 that look at
the tenant named in a register; `fabric` is R533 and R456; `power` is R661 and R665. -/
inductive TenantClass where
  | none
  | open
  | grantable
  | config
  | lace
  | recTail
  | fabric
  | power
deriving DecidableEq, Repr

/-- A register, or an array of registers: `dims` holds the number of instances and the stride of each index. -/
structure RegRow where
  base : Nat
  dims : List (Nat × Nat) := []
  reset : Nat := 0
  rw : Nat := 0
  lk : Nat := 0
  st : Nat := 0
  wo : Nat := 0
  w1c : Nat := 0
  w1s : Nat := 0
  rc : Nat := 0
  half : Option Bool := none
  tenant : Bool := false
  cls : TenantClass := .none
  ranges : List (Nat × Nat × Nat × Nat) := []
deriving DecidableEq, Repr

def regTableGlb0 : List RegRow := [
  -- GLB_ID
  { base := 0x0, reset := 0x4E440960 },
  -- GLB_FAULT_FIRST
  { base := 0x10 },
  -- GLB_FAULT_LAST
  { base := 0x14 },
  -- GLB_FAULT_COUNT
  { base := 0x18, rc := 0xFFFFFFFF },
  -- GLB_FAULT_CLEAR
  { base := 0x1C, wo := 0xFFFFFFFF }]

/-- The Glb block. -/
def regTableGlb : List RegRow :=
  regTableGlb0

def regTableHg0 : List RegRow := [
  -- HG_STATUS
  { base := 0x100000 },
  -- HG_OWNER
  { base := 0x100004, reset := 0x9, lk := 0x3F },
  -- HG_DT_LO
  { base := 0x100008, half := some false },
  -- HG_DT_HI
  { base := 0x10000C, half := some true },
  -- HG_DT_FRAC
  { base := 0x100010 },
  -- HG_TURN_CTL
  { base := 0x100014, rw := 0x1, cls := .config },
  -- HG_TURN_EPOCH_LO
  { base := 0x100018, rw := 0xFFFFFFFF, half := some false, cls := .config },
  -- HG_TURN_EPOCH_HI
  { base := 0x10001C, rw := 0xFFFFFFFF, half := some true, cls := .config },
  -- HG_TURN_PER_LO
  { base := 0x100020, reset := 0xFE502AAB, rw := 0xFFFFFFFF, half := some false, cls := .config },
  -- HG_TURN_PER_HI
  { base := 0x100024, rw := 0xFFFFFFFF, half := some true, cls := .config },
  -- HG_TURN_NUM_LO
  { base := 0x100028, half := some false },
  -- HG_TURN_NUM_HI
  { base := 0x10002C, half := some true }]

def regTableHg1 : List RegRow := [
  -- HG_EPOCH_NT_NS
  { base := 0x100030 },
  -- HG_EPOCH_NT_SEC_LO
  { base := 0x100034, half := some false },
  -- HG_EPOCH_NT_SEC_HI
  { base := 0x100038, half := some true },
  -- HG_EPOCH_META
  { base := 0x10003C },
  -- HG_ACTIVE
  { base := 0x100040, rw := 0x1 },
  -- HG_STEP_THR
  { base := 0x100044, reset := 0x3E8, rw := 0xFFFFFFFF, ranges := [(0, 32, 1, 1000000)] },
  -- HG_SLEW_LIM
  { base := 0x100048, reset := 0x1F4, rw := 0xFFFFFFFF, ranges := [(0, 32, 1, 1953)] },
  -- HG_PTP_LAT
  { base := 0x10004C, rw := 0xFFFFFFFF },
  -- HG_DOM_CFG
  { base := 0x100100, dims := [(2, 0x80)], rw := 0xFF0F },
  -- HG_DOM_ADJ
  { base := 0x100104, dims := [(2, 0x80)], rw := 0xFFFFFFFF },
  -- HG_DOM_OFS_LO
  { base := 0x100108, dims := [(2, 0x80)], half := some false },
  -- HG_DOM_OFS_HI
  { base := 0x10010C, dims := [(2, 0x80)], half := some true }]

def regTableHg2 : List RegRow := [
  -- HG_DOM_OFS_FRAC
  { base := 0x100110, dims := [(2, 0x80)] },
  -- HG_DOM_MEAS_LO
  { base := 0x100118, dims := [(2, 0x80)], wo := 0xFFFFFFFF, half := some false },
  -- HG_DOM_MEAS_HI
  { base := 0x10011C, dims := [(2, 0x80)], wo := 0xFFFFFFFF, half := some true },
  -- HG_DOM_KP
  { base := 0x100120, dims := [(2, 0x80)], reset := 0x8000, rw := 0xFFFFFFFF },
  -- HG_DOM_KI
  { base := 0x100124, dims := [(2, 0x80)], reset := 0x1000, rw := 0xFFFFFFFF },
  -- HG_DOM_TS
  { base := 0x100128, dims := [(2, 0x80)], reset := 0x1E848, rw := 0xFFFFFFFF, ranges := [(0, 32, 1, 4294967295)] },
  -- HG_DOM_STEP
  { base := 0x10012C, dims := [(2, 0x80)] },
  -- HG_DOM_STAT
  { base := 0x100130, dims := [(2, 0x80)], w1c := 0x2 },
  -- HG_DOM_INTEG
  { base := 0x100134, dims := [(2, 0x80)] },
  -- HG_DOM_NT_NS
  { base := 0x100138, dims := [(2, 0x80)] },
  -- HG_DOM_NT_SEC_LO
  { base := 0x10013C, dims := [(2, 0x80)], half := some false },
  -- HG_DOM_NT_SEC_HI
  { base := 0x100140, dims := [(2, 0x80)], half := some true }]

def regTableHg3 : List RegRow := [
  -- HG_TSTX_META
  { base := 0x100200 },
  -- HG_TSTX_NS
  { base := 0x100204 },
  -- HG_TSTX_SEC_LO
  { base := 0x100208, half := some false },
  -- HG_TSTX_SEC_HI
  { base := 0x10020C, half := some true },
  -- HG_TSRX_META
  { base := 0x100210 },
  -- HG_TSRX_NS
  { base := 0x100214 },
  -- HG_TSRX_SEC_LO
  { base := 0x100218, half := some false },
  -- HG_TSRX_SEC_HI
  { base := 0x10021C, half := some true },
  -- HG_TS_STAT
  { base := 0x100220, w1c := 0x1000000 },
  -- HG_BK_STAT
  { base := 0x100300, reset := 0x1, w1c := 0x1 },
  -- HG_BK_SEC
  { base := 0x100304 },
  -- HG_BK_SUB
  { base := 0x100308 }]

def regTableHg4 : List RegRow := [
  -- HG_BK_SET_SEC
  { base := 0x10030C, rw := 0xFFFFFFFF },
  -- HG_BK_CTL
  { base := 0x100310, w1s := 0x1 },
  -- HG_TRIG_CFG
  { base := 0x100400, dims := [(16, 0x20)], rw := 0x7, st := 0xF0, w1s := 0x8, cls := .config },
  -- HG_TRIG_WIDTH
  { base := 0x100404, dims := [(16, 0x20)], reset := 0x3E8, rw := 0xFFFFFFFF, cls := .config, ranges := [(0, 32, 8, 1000000000)] },
  -- HG_TRIG_CMP_LO
  { base := 0x100408, dims := [(16, 0x20)], rw := 0xFFFFFFFF, half := some false, cls := .config },
  -- HG_TRIG_CMP_HI
  { base := 0x10040C, dims := [(16, 0x20)], rw := 0xFF, half := some true, cls := .config },
  -- HG_TRIG_PER_LO
  { base := 0x100410, dims := [(16, 0x20)], rw := 0xFFFFFFFF, half := some false, cls := .config },
  -- HG_TRIG_PER_HI
  { base := 0x100414, dims := [(16, 0x20)], rw := 0xFFFFFFFF, half := some true, cls := .config },
  -- HG_TRIG_PHASE
  { base := 0x100418, dims := [(16, 0x20)], st := 0xFFFFFFFF, cls := .config },
  -- HG_TRIG_STAT
  { base := 0x10041C, dims := [(16, 0x20)], w1c := 0x30000, cls := .config },
  -- HG_TRIG_OE
  { base := 0x100600, rw := 0xFFFF, cls := .config },
  -- HG_CAP_CFG
  { base := 0x100700, dims := [(8, 0x20)], rw := 0xFF0F, cls := .config, ranges := [(1, 2, 0, 2)] }]

def regTableHg5 : List RegRow := [
  -- HG_CAP_STAT
  { base := 0x100704, dims := [(8, 0x20)], w1c := 0x100 },
  -- HG_CAP_DT_LO
  { base := 0x100708, dims := [(8, 0x20)], half := some false },
  -- HG_CAP_DT_HI
  { base := 0x10070C, dims := [(8, 0x20)], half := some true },
  -- HG_CAP_NT_NS
  { base := 0x100710, dims := [(8, 0x20)] },
  -- HG_CAP_NT_SEC_LO
  { base := 0x100714, dims := [(8, 0x20)], half := some false },
  -- HG_CAP_NT_SEC_HI
  { base := 0x100718, dims := [(8, 0x20)], half := some true }]

/-- The Hg block. -/
def regTableHg : List RegRow :=
  regTableHg0 ++ regTableHg1 ++ regTableHg2 ++ regTableHg3 ++ regTableHg4 ++ regTableHg5

def regTableSp0 : List RegRow := [
  -- SP_PORT_CFG
  { base := 0x200100, dims := [(8, 0x40)], reset := 0x720, rw := 0xFFFF, cls := .config, ranges := [(1, 2, 0, 2)] },
  -- SP_PORT_LAT
  { base := 0x200104, dims := [(8, 0x40)], rw := 0xFFFFFFFF, cls := .config },
  -- SP_PORT_STAT
  { base := 0x200108, dims := [(8, 0x40)] },
  -- SP_PORT_ERR
  { base := 0x20010C, dims := [(8, 0x40)], rc := 0xFFFFFFFF },
  -- SP_STR_SRC
  { base := 0x201000, dims := [(64, 0x40)], rw := 0x3FFFFF, cls := .config },
  -- SP_STR_FMT
  { base := 0x201004, dims := [(64, 0x40)], rw := 0xFFFF07, cls := .config },
  -- SP_STR_GEOM
  { base := 0x201008, dims := [(64, 0x40)], rw := 0xFFFFFFFF, cls := .config },
  -- SP_STR_SLOT
  { base := 0x20100C, dims := [(64, 0x40)], rw := 0xFFFFFF, cls := .config },
  -- SP_STR_STAT
  { base := 0x201010, dims := [(64, 0x40)] },
  -- SP_STR_SEQ
  { base := 0x201014, dims := [(64, 0x40)] },
  -- SP_STR_DROP
  { base := 0x201018, dims := [(64, 0x40)], rc := 0xFFFFFFFF },
  -- SP_ETH_CFG
  { base := 0x202000, rw := 0x3, cls := .config }]

def regTableSp1 : List RegRow := [
  -- SP_ETH_MAC_LO
  { base := 0x202004, rw := 0xFFFFFFFF, half := some false, cls := .config },
  -- SP_ETH_MAC_HI
  { base := 0x202008, rw := 0xFFFF, half := some true, cls := .config },
  -- SP_ETH_STAT
  { base := 0x20200C, rc := 0xFFFFFFFF },
  -- SP_PPT_MATCH
  { base := 0x202100, dims := [(4, 0x100)], rw := 0x7FFFF, cls := .config, ranges := [(16, 2, 0, 2)] },
  -- SP_PPT_LAYOUT
  { base := 0x202104, dims := [(4, 0x100)], rw := 0xFFFFFFFF, cls := .config, ranges := [(12, 8, 1, 255)] },
  -- SP_PPT_FIELD
  { base := 0x202180, dims := [(4, 0x100), (16, 0x8)], rw := 0x1FFFF, cls := .config, ranges := [(8, 2, 0, 2), (10, 2, 0, 2)] },
  -- SP_PPT_SCALE
  { base := 0x202184, dims := [(4, 0x100), (16, 0x8)], reset := 0x3F800000, rw := 0xFFFFFFFF, cls := .config },
  -- SP_IMU_CFG
  { base := 0x203000, dims := [(4, 0x40)], rw := 0x1F0707, cls := .config, ranges := [(8, 3, 0, 4), (16, 5, 0, 31)] },
  -- SP_IMU_CMD
  { base := 0x203004, dims := [(4, 0x40)], rw := 0xFFFFFFFF, cls := .config },
  -- SP_IMU_PER
  { base := 0x203008, dims := [(4, 0x40)], reset := 0xF4240, rw := 0xFFFFFFFF, cls := .config, ranges := [(0, 32, 50000, 100000000)] },
  -- SP_IMU_RING
  { base := 0x20300C, dims := [(4, 0x40)], rw := 0x33FF, cls := .config, ranges := [(12, 2, 0, 2), (0, 10, 0, 767)] },
  -- SP_IMU_STAT
  { base := 0x203010, dims := [(4, 0x40)], w1c := 0x30000 }]

def regTableSp2 : List RegRow := [
  -- SP_SPI_CFG
  { base := 0x203200, dims := [(2, 0x4)], reset := 0x3, rw := 0x1FF, cls := .config, ranges := [(0, 8, 3, 255)] },
  -- SP_CAN_CTL
  { base := 0x204000, dims := [(2, 0x1000)], rw := 0xF, w1s := 0x10, cls := .config },
  -- SP_CAN_NBT
  { base := 0x204004, dims := [(2, 0x1000)], reset := 0xF1E7C01, rw := 0x7FFFFFFF, cls := .config },
  -- SP_CAN_DBT
  { base := 0x204008, dims := [(2, 0x1000)], reset := 0x1E66780, rw := 0x7F7FFFF, cls := .config },
  -- SP_CAN_ECNT
  { base := 0x20400C, dims := [(2, 0x1000)] },
  -- SP_CAN_STAT
  { base := 0x204010, dims := [(2, 0x1000)], w1c := 0x3 },
  -- SP_CAN_LOG
  { base := 0x204014, dims := [(2, 0x1000)], rw := 0x13FF, cls := .config, ranges := [(0, 10, 0, 767)] },
  -- SP_CAN_LOGHEAD
  { base := 0x204018, dims := [(2, 0x1000)] },
  -- SP_CAN_RXF
  { base := 0x204100, dims := [(2, 0x1000), (64, 0x10)], rw := 0x7FFFFFFF, cls := .config },
  -- SP_CAN_RXM
  { base := 0x204104, dims := [(2, 0x1000), (64, 0x10)], rw := 0x1FFFFFFF, cls := .config },
  -- SP_CAN_RXC
  { base := 0x204108, dims := [(2, 0x1000), (64, 0x10)], rw := 0x1FFFFFF, cls := .config },
  -- SP_CAN_RXS
  { base := 0x20410C, dims := [(2, 0x1000), (64, 0x10)], w1c := 0x10000 }]

def regTableSp3 : List RegRow := [
  -- SP_CAN_TXH
  { base := 0x204800, dims := [(2, 0x1000), (16, 0x50)], rw := 0xFFFFFFFF, cls := .grantable },
  -- SP_CAN_TXC
  { base := 0x204804, dims := [(2, 0x1000), (16, 0x50)], rw := 0x7F, w1c := 0x1400, w1s := 0x300, cls := .grantable },
  -- SP_CAN_TXD
  { base := 0x204810, dims := [(2, 0x1000), (16, 0x50), (16, 0x4)], rw := 0xFFFFFFFF, cls := .grantable },
  -- SP_I2C_CFG
  { base := 0x206000, dims := [(4, 0x100)], reset := 0x1900, rw := 0xFF07, cls := .grantable, ranges := [(0, 2, 0, 2), (8, 8, 1, 255)] },
  -- SP_I2C_STAT
  { base := 0x206004, dims := [(4, 0x100)], w1c := 0xE0000, cls := .grantable },
  -- SP_I2C_CMD
  { base := 0x206008, dims := [(4, 0x100)], wo := 0xFFF, cls := .grantable },
  -- SP_I2C_RXD
  { base := 0x20600C, dims := [(4, 0x100)], cls := .grantable },
  -- SP_I2C_AT_LO
  { base := 0x206010, dims := [(4, 0x100)], rw := 0xFFFFFFFF, half := some false, cls := .grantable },
  -- SP_I2C_AT_HI
  { base := 0x206014, dims := [(4, 0x100)], rw := 0xFF, half := some true, cls := .grantable }]

/-- The Sp block. -/
def regTableSp : List RegRow :=
  regTableSp0 ++ regTableSp1 ++ regTableSp2 ++ regTableSp3

def regTableWf0 : List RegRow := [
  -- WF_CTL
  { base := 0x300000, rw := 0x1, cls := .config },
  -- WF_STATUS
  { base := 0x300004, reset := 0x200 },
  -- WF_GEN_PAINT
  { base := 0x300008 },
  -- WF_GEN_VIEW
  { base := 0x30000C },
  -- WF_BOARD_BYTES
  { base := 0x300010 },
  -- WF_PAINT_DONE
  { base := 0x300014 },
  -- WF_EXPAND_US
  { base := 0x300018 },
  -- WF_LATE_TILES
  { base := 0x30001C, rc := 0xFFFFFFFF },
  -- WF_OUTSIDE
  { base := 0x300020, rc := 0xFFFFFFFF },
  -- WF_VIEW_DONE
  { base := 0x300040, dims := [(4, 0x4)] }]

/-- The Wf block. -/
def regTableWf : List RegRow :=
  regTableWf0

def regTableMe0 : List RegRow := [
  -- ME_CTL
  { base := 0x400000, rw := 0x1, w1s := 0x2, cls := .config },
  -- ME_STATUS
  { base := 0x400004 },
  -- ME_GEN
  { base := 0x400008 },
  -- ME_WINDOW
  { base := 0x40000C, reset := 0x7D0, rw := 0xFFFFFFFF, cls := .config, ranges := [(0, 32, 100, 50000)] },
  -- ME_STATE_DT_LO
  { base := 0x400010, half := some false },
  -- ME_STATE_DT_HI
  { base := 0x400014, half := some true },
  -- ME_SPEED
  { base := 0x400018 },
  -- ME_YAW_RATE
  { base := 0x40001C },
  -- ME_COV_TRACE
  { base := 0x400020 },
  -- ME_REJECT
  { base := 0x400024, rc := 0xFFFFFFFF },
  -- ME_RESETS
  { base := 0x400028, rc := 0xFFFFFFFF }]

/-- The Me block. -/
def regTableMe : List RegRow :=
  regTableMe0

def regTableLm0 : List RegRow := [
  -- LM_CTL
  { base := 0x500000, rw := 0x1, cls := .grantable },
  -- LM_STATUS
  { base := 0x500004, cls := .grantable },
  -- LM_REC_CFG
  { base := 0x500010, reset := 0x40, rw := 0x1FF7, cls := .grantable, ranges := [(4, 4, 4, 12)] },
  -- LM_REC_BASE_LO
  { base := 0x500014, rw := 0xFFFFFFFF, half := some false, cls := .grantable },
  -- LM_REC_BASE_HI
  { base := 0x500018, rw := 0xFFFF, half := some true, cls := .grantable },
  -- LM_REC_HEAD
  { base := 0x50001C, cls := .grantable },
  -- LM_REC_TAIL
  { base := 0x500020, rw := 0xFFFFFFFF, cls := .recTail },
  -- LM_MAN_BASE_LO
  { base := 0x500024, rw := 0xFFFFFFFF, half := some false, cls := .grantable },
  -- LM_MAN_BASE_HI
  { base := 0x500028, rw := 0xFFFF, half := some true, cls := .grantable },
  -- LM_STAT
  { base := 0x500030, rc := 0xFFFFFFFF, cls := .grantable },
  -- LM_PORT_CFG
  { base := 0x500100, dims := [(2, 0x40)], reset := 0xFA4, rw := 0xFFFF, cls := .grantable, ranges := [(1, 2, 0, 2), (4, 12, 8, 250)] },
  -- LM_PORT_TIMING
  { base := 0x500104, dims := [(2, 0x40)], reset := 0x2710012C, rw := 0xFFFF0FFF, cls := .grantable, ranges := [(0, 12, 200, 4095), (16, 16, 1000, 65535)] }]

def regTableLm1 : List RegRow := [
  -- LM_PORT_STAT
  { base := 0x500108, dims := [(2, 0x40)], cls := .grantable },
  -- LM_PORT_DROP
  { base := 0x50010C, dims := [(2, 0x40)], rc := 0xFFFFFF, cls := .grantable },
  -- LM_VIEW_CFG
  { base := 0x500200, dims := [(4, 0x10)], rw := 0x31F, cls := .grantable },
  -- LM_VIEW_SEQ
  { base := 0x500204, dims := [(4, 0x10)], cls := .grantable }]

/-- The Lm block. -/
def regTableLm : List RegRow :=
  regTableLm0 ++ regTableLm1

def regTableTe0 : List RegRow := [
  -- TE_CTL
  { base := 0x600000, rw := 0x3, cls := .config },
  -- TE_STATUS
  { base := 0x600004 },
  -- TE_PMAP_GEN
  { base := 0x600008 },
  -- TE_TURN_STAT
  { base := 0x60000C },
  -- TE_OVERRUN_CNT
  { base := 0x600010, rc := 0xFFFFFFFF },
  -- TE_SKIP_CNT
  { base := 0x600014, rc := 0xFFFFFFFF },
  -- TE_RETIRE
  { base := 0x600018, wo := 0x3F },
  -- TE_RETIRED_LO
  { base := 0x60001C, half := some false },
  -- TE_RETIRED_HI
  { base := 0x600020, half := some true },
  -- TE_RELOC_STAT
  { base := 0x600024 },
  -- TE_WIT_LIM
  { base := 0x600028, reset := 0x35800000, rw := 0xFFFFFFFF },
  -- TE_GOV_CFG
  { base := 0x600040, reset := 0xA32152C, rw := 0xFFFFFFFF, cls := .config, ranges := [(0, 10, 1, 1023), (10, 6, 0, 50), (16, 8, 5, 255), (24, 8, 5, 255)] }]

def regTableTe1 : List RegRow := [
  -- TE_GOV_DEADLINE
  { base := 0x600044, reset := 0x989680, rw := 0xFFFFFFFF, cls := .config },
  -- TE_GOV_GUARD
  { base := 0x600048, reset := 0x30D40, rw := 0xFFFFFFFF, cls := .config },
  -- TE_GOV_VLIM
  { base := 0x60004C, reset := 0x384028A, rw := 0xFFFFFFFF, cls := .config, ranges := [(0, 16, 650, 900), (16, 16, 0, 900)] },
  -- TE_GOV_VFLOOR
  { base := 0x600050, reset := 0x320, rw := 0xFFFFFFFF, cls := .config },
  -- TE_GOV_VNOW
  { base := 0x600054, reset := 0x320 },
  -- TE_GOV_RATE
  { base := 0x600058 },
  -- TE_GOV_CKPT
  { base := 0x60005C },
  -- TE_AVS_CFG
  { base := 0x600060, reset := 0xA0200, rw := 0xFF030F, cls := .config, ranges := [(8, 2, 0, 2), (16, 8, 1, 255)] },
  -- TE_AVS_STAT
  { base := 0x600064, w1c := 0x2 },
  -- TE_HOOP_STAT
  { base := 0x600100, dims := [(36, 0x4)] },
  -- TE_LACE_CTL
  { base := 0x600400, dims := [(4, 0x40)], rw := 0x73, w1s := 0xC, cls := .lace },
  -- TE_LACE_NET_LO
  { base := 0x600404, dims := [(4, 0x40)], rw := 0xFFFFFFFF, half := some false, cls := .lace }]

def regTableTe2 : List RegRow := [
  -- TE_LACE_NET_HI
  { base := 0x600408, dims := [(4, 0x40)], rw := 0xFFFF, half := some true, cls := .lace },
  -- TE_LACE_DT
  { base := 0x60040C, dims := [(4, 0x40)], reset := 0x3E8, rw := 0xFFFFFFFF, cls := .lace, ranges := [(0, 32, 100, 100000)] },
  -- TE_LACE_LAG
  { base := 0x600410, dims := [(4, 0x40)], reset := 0x7D0, rw := 0xFFFFFFFF, cls := .lace, ranges := [(0, 32, 0, 65535)] },
  -- TE_LACE_TNOW
  { base := 0x600414, dims := [(4, 0x40)], cls := .lace },
  -- TE_LACE_STAT
  { base := 0x600418, dims := [(4, 0x40)], w1c := 0x700, cls := .lace },
  -- TE_LACE_DELTAS
  { base := 0x60041C, dims := [(4, 0x40)], cls := .lace },
  -- TE_LACE_DROPS
  { base := 0x600420, dims := [(4, 0x40)], rc := 0xFFFFFFFF, cls := .lace },
  -- TE_LACE_GEN
  { base := 0x600424, dims := [(4, 0x40)], cls := .lace },
  -- TE_LACE_REWARD
  { base := 0x600428, dims := [(4, 0x40)], rw := 0xFF, cls := .lace },
  -- TE_LACE_SRC
  { base := 0x600430, dims := [(4, 0x40), (2, 0x8)], rw := 0xFFF0FBF, cls := .lace, ranges := [(16, 12, 1, 4095)] },
  -- TE_LACE_CHBASE
  { base := 0x600434, dims := [(4, 0x40), (2, 0x8)], rw := 0x3FFF, cls := .lace }]

/-- The Te block. -/
def regTableTe : List RegRow :=
  regTableTe0 ++ regTableTe1 ++ regTableTe2

def regTableSk0 : List RegRow := [
  -- SK_CTL
  { base := 0x700000, rw := 0x1 },
  -- SK_STATUS
  { base := 0x700004 },
  -- SK_POOL_BASE_LO
  { base := 0x700008, lk := 0xFFFFFFFF, half := some false },
  -- SK_POOL_BASE_HI
  { base := 0x70000C, lk := 0xFFFF, half := some true },
  -- SK_POOL_SIZE
  { base := 0x700010, lk := 0xFFFFFFFF, ranges := [(0, 32, 0, 30720)] },
  -- SK_THIM_BASE_LO
  { base := 0x700014, lk := 0xFFFFFFFF, half := some false },
  -- SK_THIM_BASE_HI
  { base := 0x700018, lk := 0xFFFF, half := some true },
  -- SK_THIM_SIZE
  { base := 0x70001C, lk := 0xFFFFFFFF },
  -- SK_POOL_FREE
  { base := 0x700020 },
  -- SK_CFG
  { base := 0x700024, reset := 0xA050208, rw := 0xFFFF073F, cls := .config, ranges := [(0, 6, 1, 32), (8, 3, 0, 7), (16, 8, 1, 50), (24, 8, 0, 60)] },
  -- SK_SPILL_USED
  { base := 0x700028 },
  -- SK_STAT
  { base := 0x70002C, rc := 0xFFFFFFFF }]

def regTableSk1 : List RegRow := [
  -- SK_RING_CFG
  { base := 0x700030, reset := 0x4, rw := 0x7F, cls := .config, ranges := [(0, 7, 2, 64)] },
  -- SK_RING_STAT
  { base := 0x700034, rc := 0xFFFFFFFF },
  -- SK_SEQ_STAT
  { base := 0x701000, dims := [(1024, 0x4)] },
  -- SK_SEQ_LEN
  { base := 0x702000, dims := [(1024, 0x4)] }]

/-- The Sk block. -/
def regTableSk : List RegRow :=
  regTableSk0 ++ regTableSk1

def regTableAt0 : List RegRow := [
  -- AT_CTL
  { base := 0x800000, rw := 0x1 },
  -- AT_STATUS
  { base := 0x800004 },
  -- AT_PTS_USED
  { base := 0x800008 },
  -- AT_STAT
  { base := 0x80000C, rc := 0xFFFFFFFF },
  -- AT_TEN_CTL
  { base := 0x801000, dims := [(8, 0x100)], rw := 0x1, tenant := true, cls := .open },
  -- AT_ROOT_LO
  { base := 0x801004, dims := [(8, 0x100)], rw := 0xFFFFF000, half := some false, tenant := true, cls := .open },
  -- AT_ROOT_HI
  { base := 0x801008, dims := [(8, 0x100)], rw := 0xFF, half := some true, tenant := true, cls := .open },
  -- AT_INV_VA_LO
  { base := 0x801010, dims := [(8, 0x100)], rw := 0xFFFFF000, half := some false, tenant := true, cls := .open },
  -- AT_INV_VA_HI
  { base := 0x801014, dims := [(8, 0x100)], rw := 0xFFFF, half := some true, tenant := true, cls := .open },
  -- AT_INV_CTL
  { base := 0x801018, dims := [(8, 0x100)], rw := 0x400FFFFF, w1s := 0x80000000, tenant := true, cls := .open, ranges := [(0, 20, 1, 1048575)] },
  -- AT_FAULT_INFO
  { base := 0x801020, dims := [(8, 0x100)], tenant := true },
  -- AT_FAULT_VA_LO
  { base := 0x801024, dims := [(8, 0x100)], half := some false, tenant := true }]

def regTableAt1 : List RegRow := [
  -- AT_FAULT_VA_HI
  { base := 0x801028, dims := [(8, 0x100)], half := some true, tenant := true },
  -- AT_FAULT_STAT
  { base := 0x80102C, dims := [(8, 0x100)], w1c := 0x100, tenant := true }]

/-- The At block. -/
def regTableAt : List RegRow :=
  regTableAt0 ++ regTableAt1

def regTableMem0 : List RegRow := [
  -- MEM_STATUS
  { base := 0x900000 },
  -- MEM_SCRUB_CFG
  { base := 0x900010, reset := 0x1801, rw := 0x1F01, ranges := [(8, 5, 1, 24)] },
  -- MEM_SCRUB_STAT
  { base := 0x900014 },
  -- MEM_SCRUB_UE_LO
  { base := 0x900018, half := some false },
  -- MEM_SCRUB_UE_HI
  { base := 0x90001C, half := some true },
  -- MEM_RC_CFG
  { base := 0x900020, lk := 0x1F, ranges := [(0, 5, 0, 16)] },
  -- MEM_RC_CTL
  { base := 0x900024, w1s := 0x1 },
  -- MEM_RC_STAT
  { base := 0x900028 },
  -- MEM_RC_MISS
  { base := 0x90002C, rc := 0xFFFFFFFF },
  -- MEM_REEL_STAT
  { base := 0x900030 },
  -- MEM_REEL_ERR
  { base := 0x900034, rc := 0xFFFFFFFF },
  -- MEM_BOB_STAT
  { base := 0x900100, dims := [(4, 0x20)] }]

def regTableMem1 : List RegRow := [
  -- MEM_ECC_CE
  { base := 0x900104, dims := [(4, 0x20)], rc := 0xFFFFFFFF },
  -- MEM_ECC_UE
  { base := 0x900108, dims := [(4, 0x20)], rc := 0xFFFFFFFF },
  -- MEM_ECC_ADDR_LO
  { base := 0x90010C, dims := [(4, 0x20)], half := some false },
  -- MEM_ECC_ADDR_HI
  { base := 0x900110, dims := [(4, 0x20)], half := some true }]

/-- The Mem block. -/
def regTableMem : List RegRow :=
  regTableMem0 ++ regTableMem1

def regTablePl0 : List RegRow := [
  -- PL_CTL
  { base := 0xA00000, rw := 0x1 },
  -- PL_STATUS
  { base := 0xA00004 },
  -- PL_FM
  { base := 0xA00008, lk := 0x107 },
  -- PL_RECALL_GRACE
  { base := 0xA0000C, reset := 0x2710, rw := 0xFFFFFFFF, ranges := [(0, 32, 0, 1000000)] },
  -- PL_STAT
  { base := 0xA00010, rc := 0xFFFFFFFF },
  -- PL_NOTICE
  { base := 0xA00100, dims := [(8, 0x4)], tenant := true },
  -- PL_NOTICE_VEC
  { base := 0xA00120, dims := [(8, 0x4)], rw := 0x1F, tenant := true },
  -- PL_RGN_BASE
  { base := 0xA01000, dims := [(16, 0x20)], rw := 0x7FFFF, cls := .open },
  -- PL_RGN_SIZE
  { base := 0xA01004, dims := [(16, 0x20)], rw := 0xFFFFFFFF, cls := .open, ranges := [(0, 32, 1, 8192)] },
  -- PL_RGN_CFG
  { base := 0xA01008, dims := [(16, 0x20)], rw := 0x71F, cls := .open, ranges := [(0, 2, 0, 2), (2, 2, 0, 2)] },
  -- PL_RGN_READERS
  { base := 0xA0100C, dims := [(16, 0x20)], rw := 0xFF00FF, cls := .open },
  -- PL_RGN_STAT
  { base := 0xA01010, dims := [(16, 0x20)], cls := .open }]

def regTablePl1 : List RegRow := [
  -- PL_EXT_BASE
  { base := 0xA02000, dims := [(32, 0x10)] },
  -- PL_EXT_SIZE
  { base := 0xA02004, dims := [(32, 0x10)] },
  -- PL_EXT_STATE
  { base := 0xA02008, dims := [(32, 0x10)] }]

/-- The Pl block. -/
def regTablePl : List RegRow :=
  regTablePl0 ++ regTablePl1

def regTableTk0 : List RegRow := [
  -- TK_CTL
  { base := 0xB00000, rw := 0x1 },
  -- TK_STATUS
  { base := 0xB00004 },
  -- TK_CLAIM
  { base := 0xB00008 },
  -- TK_PUBLISH
  { base := 0xB0000C, wo := 0xFFF, cls := .open },
  -- TK_LEASE
  { base := 0xB00010, reset := 0x3E8, rw := 0xFFFFFFFF },
  -- TK_RING_STAT
  { base := 0xB00014 },
  -- TK_VOID_CNT
  { base := 0xB00018, rc := 0xFFFFFFFF },
  -- TK_STORE_USED
  { base := 0xB0001C },
  -- TK_SKIP64
  { base := 0xB00020 },
  -- TK_CFG_OWNER
  { base := 0xB00024, reset := 0x9, lk := 0x3F },
  -- TK_CONFIG_GEN
  { base := 0xB00028 },
  -- TK_COMMIT_STAT
  { base := 0xB0002C }]

def regTableTk1 : List RegRow := [
  -- TK_COMMIT_TRIES
  { base := 0xB00030, reset := 0x10, rw := 0xFFFFFFFF, ranges := [(0, 32, 1, 255)] },
  -- TK_STAGE_STAT
  { base := 0xB00034 },
  -- TK_CQ_BASE_LO
  { base := 0xB01000, dims := [(8, 0x40)], rw := 0xFFFFFFC0, half := some false, tenant := true, cls := .open },
  -- TK_CQ_BASE_HI
  { base := 0xB01004, dims := [(8, 0x40)], rw := 0xFFFFFFFF, half := some true, tenant := true, cls := .open },
  -- TK_CQ_CFG
  { base := 0xB01008, dims := [(8, 0x40)], reset := 0x4, rw := 0x11F0F, tenant := true, cls := .open, ranges := [(0, 4, 4, 12)] },
  -- TK_CQ_HEAD
  { base := 0xB0100C, dims := [(8, 0x40)], tenant := true },
  -- TK_CQ_TAIL
  { base := 0xB01010, dims := [(8, 0x40)], rw := 0xFFFFFFFF, tenant := true, cls := .open },
  -- TK_DONE_CSN
  { base := 0xB01014, dims := [(8, 0x40)], tenant := true },
  -- TK_QUOTA
  { base := 0xB01018, dims := [(8, 0x40)], reset := 0x40, rw := 0xFFFFFFFF, tenant := true, ranges := [(0, 32, 1, 256)] },
  -- TK_OUT
  { base := 0xB0101C, dims := [(8, 0x40)], tenant := true }]

/-- The Tk block. -/
def regTableTk : List RegRow :=
  regTableTk0 ++ regTableTk1

def regTableHi0 : List RegRow := [
  -- HI_STATUS
  { base := 0xC00000 },
  -- HI_DENY_CNT
  { base := 0xC00004, rc := 0xFFFFFFFF },
  -- HI_FUNC_STAT
  { base := 0xC00100, dims := [(8, 0x10)], tenant := true },
  -- HI_PWIN_BASE
  { base := 0xC00104, dims := [(8, 0x10)], rw := 0x7FFFF, tenant := true, cls := .fabric },
  -- HI_PWIN_SIZE
  { base := 0xC00108, dims := [(8, 0x10)], rw := 0xFFFFFFFF, tenant := true, cls := .fabric, ranges := [(0, 32, 0, 8192)] },
  -- HI_FS_WIN
  { base := 0xC00200, dims := [(8, 0x10), (4, 0x4)], lk := 0x800FFFFF, tenant := true, ranges := [(0, 10, 0, 767), (10, 10, 1, 768)] },
  -- HI_FENCE_FIRST
  { base := 0xC01000, dims := [(64, 0x10)], lk := 0x8FFFFFFF },
  -- HI_FENCE_LAST
  { base := 0xC01004, dims := [(64, 0x10)], lk := 0xFFFFFFF },
  -- HI_FENCE_RD
  { base := 0xC01008, dims := [(64, 0x10)], lk := 0xFFFFFFFF },
  -- HI_FENCE_WR
  { base := 0xC0100C, dims := [(64, 0x10)], lk := 0xFFFFFFFF },
  -- HI_PAGE_RD
  { base := 0xC10000, dims := [(4096, 0x8)], lk := 0xFFFFFFFF },
  -- HI_PAGE_WR
  { base := 0xC10004, dims := [(4096, 0x8)], lk := 0xFFFFFFFF }]

/-- The Hi block. -/
def regTableHi : List RegRow :=
  regTableHi0

def regTableSv0 : List RegRow := [
  -- SV_CTL
  { base := 0xD00000, rw := 0x1, w1s := 0x2 },
  -- SV_CFG
  { base := 0xD00004, reset := 0x10, lk := 0x3F7, ranges := [(4, 4, 1, 8)] },
  -- SV_STATUS
  { base := 0xD00008 },
  -- SV_HB_CFG
  { base := 0xD0000C, reset := 0x403E8, rw := 0xFFFFF, ranges := [(0, 16, 100, 10000), (16, 4, 2, 15)] },
  -- SV_TRIG_MASK
  { base := 0xD00010, rw := 0xFFFF },
  -- SV_HANDOVER
  { base := 0xD00014, wo := 0xFFFFFFFF },
  -- SV_PEER_TURN
  { base := 0xD00018 },
  -- SV_RESILVER_CFG
  { base := 0xD00020, reset := 0x3E8, rw := 0xFFFFFFFF, ranges := [(0, 32, 100, 4000)] },
  -- SV_RESILVER_STAT
  { base := 0xD00024 },
  -- SV_PORT_CTL
  { base := 0xD00100, dims := [(2, 0x40)], rw := 0x1 },
  -- SV_PORT_STAT
  { base := 0xD00104, dims := [(2, 0x40)] },
  -- SV_PORT_ERR
  { base := 0xD00108, dims := [(2, 0x40)], rc := 0xFFFFFFFF }]

def regTableSv1 : List RegRow := [
  -- SV_PEER_OFS_LO
  { base := 0xD0010C, dims := [(2, 0x40)], half := some false },
  -- SV_PEER_OFS_HI
  { base := 0xD00110, dims := [(2, 0x40)], half := some true },
  -- SV_PEER_DELAY
  { base := 0xD00114, dims := [(2, 0x40)] }]

/-- The Sv block. -/
def regTableSv : List RegRow :=
  regTableSv0 ++ regTableSv1

def regTableRf0 : List RegRow := [
  -- RF_STATUS
  { base := 0xE00000 },
  -- RF_RULESET_ID
  { base := 0xE00004 },
  -- RF_RULESET_VER
  { base := 0xE00008 },
  -- RF_STEP
  { base := 0xE0000C },
  -- RF_WINDOW
  { base := 0xE00010 },
  -- RF_LAST_TURN
  { base := 0xE00014 },
  -- RF_LAST_VERDICT
  { base := 0xE00018 },
  -- RF_VERDICT_LAT
  { base := 0xE0001C },
  -- RF_REJECTS
  { base := 0xE00020 },
  -- RF_MISSED
  { base := 0xE00024 },
  -- RF_MISMATCH
  { base := 0xE00028 },
  -- RF_SRAM_ECC
  { base := 0xE0002C }]

def regTableRf1 : List RegRow := [
  -- RF_HB_PER
  { base := 0xE00030, reset := 0x1388 },
  -- RF_LOG_HEAD
  { base := 0xE00034 },
  -- RF_SAFE_CAUSE
  { base := 0xE00038 },
  -- RF_LOG
  { base := 0xE01000, dims := [(256, 0x10), (4, 0x4)] }]

/-- The Rf block. -/
def regTableRf : List RegRow :=
  regTableRf0 ++ regTableRf1

def regTableMc0 : List RegRow := [
  -- MC_STATUS
  { base := 0xF00000 },
  -- MC_BOOT_VER
  { base := 0xF00004 },
  -- MC_LOCK
  { base := 0xF00008, w1s := 0x1 },
  -- MC_RST_CTL
  { base := 0xF0000C, w1s := 0x1 },
  -- MC_PWR_OWNER
  { base := 0xF00010, lk := 0x107 },
  -- MC_RAIL_STAT
  { base := 0xF00014 },
  -- MC_TEMP_MAX
  { base := 0xF00018 },
  -- MC_POWER
  { base := 0xF0001C },
  -- MC_THERM_CFG
  { base := 0xF00020, reset := 0x7D73, rw := 0xFFFF, ranges := [(0, 8, 60, 125), (8, 8, 60, 125)] },
  -- MC_BG_STAT
  { base := 0xF00024, rc := 0xFFFFFFFF },
  -- MC_CAL_CFG
  { base := 0xF00028, reset := 0x2583C32, rw := 0xFFFFFFFF, ranges := [(0, 8, 20, 255), (8, 8, 10, 255), (16, 16, 0, 600)] },
  -- MC_PWR_REQ
  { base := 0xF01000, reset := 0x1, rw := 0x7, w1s := 0x100, cls := .power, ranges := [(0, 3, 0, 4)] }]

def regTableMc1 : List RegRow := [
  -- MC_PWR_STAT
  { base := 0xF01004 },
  -- MC_PWR_GUARD
  { base := 0xF01008, reset := 0x64, rw := 0xFFFFFFFF, cls := .power, ranges := [(0, 32, 0, 1000000)] },
  -- MC_NEXT_EV_LO
  { base := 0xF0100C, half := some false },
  -- MC_NEXT_EV_HI
  { base := 0xF01010, reset := 0xFFFFFFFF, half := some true },
  -- MC_WAKE_AT_LO
  { base := 0xF01014, rw := 0xFFFFFFFF, half := some false, cls := .power },
  -- MC_WAKE_AT_HI
  { base := 0xF01018, rw := 0xFFFFFFFF, half := some true, cls := .power },
  -- MC_WAKE_EN
  { base := 0xF0101C, reset := 0xE, rw := 0x1F1, cls := .power },
  -- MC_WAKE_PEND
  { base := 0xF01020 },
  -- MC_WAKE_RPT
  { base := 0xF01024, w1c := 0xFFFFFFFF, cls := .power },
  -- MC_WAKE_CFG
  { base := 0xF01028, rw := 0x1F, cls := .power },
  -- MC_WAKE_CNT
  { base := 0xF0102C },
  -- MC_BOOT_CTL
  { base := 0xF01030, w1s := 0x1, cls := .power }]

def regTableMc2 : List RegRow := [
  -- MC_RECOV_ADDR_LO
  { base := 0xF02000, rw := 0xFFFFFFFF, half := some false },
  -- MC_RECOV_ADDR_HI
  { base := 0xF02004, rw := 0xFFFFFFFF, half := some true },
  -- MC_RECOV_LEN
  { base := 0xF02008, rw := 0xFFFFFFFF },
  -- MC_RECOV_GO
  { base := 0xF0200C, w1s := 0x1 }]

/-- The Mc block. -/
def regTableMc : List RegRow :=
  regTableMc0 ++ regTableMc1 ++ regTableMc2

/-- The registers of a block, bits 23:20 of the offset (R681). -/
def regBlock : Nat → List RegRow
  | 0 => regTableGlb
  | 1 => regTableHg
  | 2 => regTableSp
  | 3 => regTableWf
  | 4 => regTableMe
  | 5 => regTableLm
  | 6 => regTableTe
  | 7 => regTableSk
  | 8 => regTableAt
  | 9 => regTableMem
  | 10 => regTablePl
  | 11 => regTableTk
  | 12 => regTableHi
  | 13 => regTableSv
  | 14 => regTableRf
  | 15 => regTableMc
  | _ => []

end Sys2Proof.Machine
end

