-- ==== Sys2Proof/Machine/Sparse.lean ====
section
/-! DEFINITION. Sparse arrays: the one shape of every register file, memory and table of the machine. A sparse array is a
list of (index, value) pairs; an index that is not listed holds the array's default value. Canonical form: indices
strictly rising, and no listed value equal to the default of its index (`spWf`). -/

namespace Sys2Proof.Machine

/-- Pairs of an index and the value there. -/
abbrev Sparse (α : Type) := List (Nat × α)

/-- The value at an index, `d` giving what an unlisted index holds. -/
def spGet {α : Type} (d : Nat → α) : Sparse α → Nat → α
  | [], k => d k
  | (k', v) :: r, k => if k' = k then v else spGet d r k

/-- Take an index off the list. -/
def spDel {α : Type} (k : Nat) : Sparse α → Sparse α
  | [] => []
  | (k', v) :: r => if k' = k then spDel k r else (k', v) :: spDel k r

/-- Put a pair before the first pair with a greater index. -/
def spIns {α : Type} (k : Nat) (v : α) : Sparse α → Sparse α
  | [] => [(k, v)]
  | (k', v') :: r => if k < k' then (k, v) :: (k', v') :: r else (k', v') :: spIns k v r

/-- Write a value; writing the default takes the index off the list. -/
def spPut {α : Type} [DecidableEq α] (d : Nat → α) (m : Sparse α) (k : Nat) (v : α) : Sparse α :=
  if v = d k then spDel k m else spIns k v (spDel k m)

/-- The canonical form. -/
def spWf {α : Type} [DecidableEq α] (d : Nat → α) : Sparse α → Bool
  | [] => true
  | (k, v) :: r => decide (v ≠ d k) && r.all (fun p => decide (k < p.1)) && spWf d r

/-- Write a run of values from an index on. -/
def spPuts {α : Type} [DecidableEq α] (d : Nat → α) (m : Sparse α) (k : Nat) : List α → Sparse α
  | [] => m
  | v :: r => spPuts d (spPut d m k v) (k + 1) r

/-- Read a run of `n` values from an index on. -/
def spGets {α : Type} (d : Nat → α) (m : Sparse α) (k : Nat) : Nat → List α
  | 0 => []
  | n + 1 => spGet d m k :: spGets d m (k + 1) n

end Sys2Proof.Machine
end

