-- ==== Sys2Proof/Machine/State.lean ====
section
/-! DEFINITION. The state of the device: every register, FIFO, buffer, counter, mode and pin the spec gives it, the queue
of waiting commands, and the machine after reset. -/

namespace Sys2Proof.Machine

/-! ### The Hourglass (03_hourglass.md) -/

/-- A timestamp entry of R87: Network Time in ns, sequenceId, messageType and domain. -/
structure TsEntry where
  nt : Nat
  seqId : BitVec 16
  msgType : BitVec 4
  dom : Bool
deriving DecidableEq, Repr, Inhabited

/-- A capture entry of R84: whole-ns Device Time, Network Time in ns, step count. -/
structure CapEntry where
  dt : Nat
  nt : Nat
  step : Nat
deriving DecidableEq, Repr, Inhabited

/-- One PTP domain. Offset and amortisation in 2⁻⁴⁰ ns (R65, R72); the servo integral in 1/1000 of that, which holds
every value of R73 exactly. -/
structure HgDom where
  ofs : Int := 0
  rem : Int := 0
  integ : Int := 0
  good : Nat := 0
  clamped : Nat := 0
  samples : List Int := []
deriving DecidableEq, Repr, Inhabited

/-- One trigger (R77-R83). Instants are in Device Time units, but `turnEdges` and `edges`, which are whole ns. `edges`
holds the edges of the last 2³² ns, newest first, and `total` counts every edge. -/
structure Trig where
  armed : Bool := false
  next : Option Nat := none
  last : Option Nat := none
  turnEdges : List Nat := []
  pulseEnd : Option Nat := none
  edges : List Nat := []
  total : Nat := 0
deriving DecidableEq, Repr, Inhabited

/-- The Hourglass. `dt` is Device Time in 1/256 ns (R41). -/
structure Hg where
  dt : Nat := 0
  running : Bool := false
  domA : HgDom := {}
  domB : HgDom := {}
  /-- The domain that stamps outputs, whether its letter shows, and what waits for a turn start (R67, R68). -/
  act : Bool := false
  letter : Bool := false
  pendAct : Option Bool := none
  pendLetter : Bool := false
  /-- The number of the next turn to start (R60). -/
  nextTurn : Nat := 0
  /-- How many times turns have been armed: a turn is named by its run and its number. -/
  run : Nat := 0
  trigs : Sparse Trig := []
  caps : Sparse (List CapEntry) := []
  tsTx : List TsEntry := []
  tsRx : List TsEntry := []
  /-- The backup counter (R90): seconds, sub-second count, and the part of the next count in 1e-9. -/
  bkSec : BitVec 32 := 0
  bkSub : Nat := 0
  bkAcc : Nat := 0
deriving DecidableEq, Repr, Inhabited

/-! ### The Spindle (04_spindle.md, 05_freshness_fallback.md) -/

/-- A frame (R115). The stream's configuration is that of its frame start (R105); instants are in Device Time units. `turn`
is the run and number of the turn it belongs to (R116); `entry` the Freshness entry to judge it by (R152). -/
structure SpFrame where
  src : Word := 0
  fmt : Word := 0
  expLines : Nat := 0
  addr : Nat := 0
  cap : Nat := 0
  fs : Nat := 0
  fe : Nat := 0
  num : Nat := 0
  lines : Nat := 0
  rows : Nat := 0
  bytes : Nat := 0
  seq : Nat := 0
  crc : Word := 0xFFFFFFFF
  flags : Nat := 0
  crcLines : Nat := 0
  turnField : Nat := 0
  turn : Option (Nat × Nat) := none
  trigFired : Nat := 0
  lstep : Nat := 1
  bstep : Nat := 1
  pixels : Nat := 0
  badPixels : Nat := 0
  cds : Nat := 0
  points : Nat := 0
  ext : Bool := false
  crcSaid : Bool := false
  truncSaid : Bool := false
  entry : List Byte := []
deriving DecidableEq, Repr, Inhabited

/-- The states of a slot (R118). -/
inductive SlotSt where
  | free
  | landing
  | landed
  | held
deriving DecidableEq, Repr, Inhabited

/-- A slot: its state, its frame, and whether the frame waits to be judged (R152). -/
structure SpSlot where
  st : SlotSt := .free
  frame : SpFrame := {}
  toJudge : Bool := false
deriving DecidableEq, Repr, Inhabited

/-- What the monitor keeps of the last judged frame (R152). -/
structure SpPred where
  num : Nat
  trigFired : Nat
  sig : Word
deriving DecidableEq, Repr, Inhabited

/-- A stream context. `order` lists the FREE slots, freed longest ago first; `opened` the slot and the frame that lands. -/
structure SpStream where
  slots : List SpSlot := []
  order : List Nat := []
  opened : Option (Nat × SpFrame) := none
  pred : Option SpPred := none
  run : Nat := 0
  timeBase : Nat := 0
  anchor : Option (Nat × Nat) := none
  noAnchorSaid : Bool := false
  trigAtEn : Nat := 0
  sweep : Option Nat := none
  /-- The point frame that datagrams make up now found no slot (R118, R123). -/
  pptDropped : Bool := false
  /-- Consecutive absent turns, and absence in the turn last judged (R155, R156). -/
  absCount : Nat := 0
  absent : Bool := false
deriving DecidableEq, Repr, Inhabited

/-- One IMU slot (R124-R127). Instants in units. -/
structure Imu where
  /-- The stamp of the read in progress. -/
  cur : Option Nat := none
  /-- The next PERIOD instant. -/
  next : Option Nat := none
  /-- The instant from which silence is counted. -/
  since : Nat := 0
  said : Bool := false
  inTimeout : Bool := false
  /-- The slot was in timeout at some instant of the current turn. -/
  toSeen : Bool := false
  ovrFlag : Bool := false
  toFlag : Bool := false
  /-- FLAGS of the read in progress (R126). -/
  curFlags : Nat := 0
  seq : Nat := 0
  /-- Samples stamped in the current turn (R157). -/
  count : Nat := 0
deriving DecidableEq, Repr, Inhabited

/-- One CAN receive mailbox (R130): since when it is silent, whether the report is made, whether its mark stands. -/
structure CanRx where
  since : Nat := 0
  said : Bool := false
  mark : Bool := false
deriving DecidableEq, Repr, Inhabited

/-- One CAN controller. `tx` is the transmit mailbox in arbitration or on the bus. -/
structure Can where
  tx : Option Nat := none
  rx : Sparse CanRx := []
  logSeq : Nat := 0
deriving DecidableEq, Repr, Inhabited

/-- One I²C controller. -/
structure I2c where
  cmds : List Nat := []
  rxd : List Byte := []
  /-- The command FIFO is held by an AT (R135). -/
  atHold : Bool := false
  /-- Commands are discarded to the next STOP (R136). -/
  skip : Bool := false
deriving DecidableEq, Repr, Inhabited

/-- The Ethernet MAC: the MC receive queue, and PTP messages that wait for the SerDes PLL with the instant they began to
wait (R89, R120). -/
structure Eth where
  mcRx : List (List Byte) := []
  txWait : List (Nat × Bool × List Byte) := []
  locked : Bool := false
deriving DecidableEq, Repr, Inhabited

/-- The Freshness Monitor's motion part (R157): since when wheel or IMU data are absent, and the HOLD_MAX demand. -/
structure Fresh where
  imuAbsent : Bool := false
  /-- The IMU slots absent from the turn, by bit. -/
  imuGone : Nat := 0
  holdSince : Option Nat := none
  expired : Bool := false
  /-- The present mask of the turn last started (R158). -/
  present : BitVec 64 := BitVec.allOnes 64
  /-- The steps that absent streams, absent groups and skipped turns demand in this turn (R156, R515). -/
  strStep : Nat := 0
  grpStep : Nat := 0
  skipStep : Nat := 0
  /-- The highest step demanded since the last turn start of the interval of R160, and its causes by bit of R217; the same
  for the interval before that turn start, and the instant of that turn start (R526). -/
  demand : Nat := 0
  causes : Nat := 0
  before : Nat := 0
  causesBefore : Nat := 0
  startAt : Option Nat := none
deriving DecidableEq, Repr, Inhabited

/-! ### Memory, translation and the Pool (13_memory.md, 14_pool.md) -/

/-- The Bobbins and the Reel. `bob` holds Bobbin data by DPA; `reel` what the Reel's main partition holds; `reelNew` the
bytes of cached or buffered Reel lines that differ from it. `poison` marks 64-byte lines by DPA / 64 (R427). -/
structure Mem where
  bob : Sparse Byte := []
  poison : Sparse Bool := []
  reel : Sparse Byte := []
  reelNew : Sparse (Option Byte) := []
  /-- The Reel cache: the lines of each set, by DPA / 16 KiB, most recently used first, with their dirty mark (R429). -/
  cache : Sparse (List (Nat × Bool)) := []
  /-- The write-back buffer, oldest first (R430). -/
  wb : List Nat := []
  /-- Lines whose fill has not ended. -/
  filling : List Nat := []
  /-- Lines that the flush in progress still writes back (R431). -/
  flush : List Nat := []
  /-- Lines that the current scrub pass has read (R446). -/
  scrubbed : Nat := 0
deriving DecidableEq, Repr, Inhabited

/-- An entry of a tenant's fault FIFO (R444): `level` is the level minus 1. -/
structure AtuFault where
  reason : Nat
  level : Nat
  write : Bool
  iid : Nat
  va : Nat
deriving DecidableEq, Repr, Inhabited

/-- The owners of pinned mappings (R440). A WEFT entry names its Pattern generation, a TURN one its LAUNCH_TURN, a RELOC one
its map. -/
inductive PinOwner where
  | turn (launch : Nat)
  | weft (gen : Nat)
  | loom
  | reloc (map : Nat)
deriving DecidableEq, Repr, Inhabited

/-- An entry of the Pinned Translation Store (R439): a leaf of a tenant, from VA page `page` on, 2^cont pages. -/
structure PtsEntry where
  owner : PinOwner
  tenant : Nat
  page : Nat
  cont : Nat
  dpa : Nat
  rd : Bool
  wr : Bool
deriving DecidableEq, Repr, Inhabited

/-- The ATU. -/
structure Atu where
  faults : Sparse (List AtuFault) := []
  pts : List PtsEntry := []
deriving DecidableEq, Repr, Inhabited

/-- One dynamic extent beside its registers: whether a recall has acted on this grant, when the grace began, and the
commands that wait for FREE, with the code each completes with (R464-R467). A command is named by requester and CSN. -/
structure Ext where
  recalled : Bool := false
  graceFrom : Nat := 0
  waiters : List (Nat × BitVec 16 × Nat) := []
deriving DecidableEq, Repr, Inhabited

/-- The Pool unit. `next` holds the state that a draining region moves to (R460); `dirty` the 4 KiB granules of MIRROR
ranges that the twin lacks (R473). -/
structure Pool where
  next : Sparse (Option Nat) := []
  exts : Sparse Ext := []
  dirty : Sparse Bool := []
  /-- Ranges whose 0x7023 has been reported: region r as r, extent x as 16 + x. -/
  degradedSaid : List Nat := []
  /-- Mirrored writes, by DPA, that the twin has not acknowledged (R472). -/
  mirrorWait : List Nat := []
  /-- Granules re-silvered to the twin and not yet acknowledged, and those whose conflict has been counted (R580). -/
  resent : List Nat := []
  clash : List Nat := []
deriving DecidableEq, Repr, Inhabited

/-! ### Host functions and the Track (15_track.md, 16_host_fences.md) -/

/-- A tenant's PCIe function as the host has set it up (R531, R547): MSI-X Enable, Function Mask and the pending bits. -/
structure HostFn where
  msixEn : Bool := false
  fmask : Bool := false
  pend : BitVec 32 := 0
deriving DecidableEq, Repr, Inhabited

/-- A square of the Track (R485-R491): its claimant, CSN and instant of claim, whether it is published, and whether it has
been accepted or voided and waits for the head to pass. -/
structure Square where
  owner : Option Nat := none
  csn : BitVec 16 := 0
  since : Nat := 0
  published : Bool := false
  passed : Bool := false
deriving DecidableEq, Repr, Inhabited

/-- How far a command of the store has come (R494, R509). -/
inductive TkPhase where
  | accepted
  | running
  | suspended
deriving DecidableEq, Repr, Inhabited

/-- A command in the command store (R492): requester 0–7 tenants, 8 Referee, 9 MC; the 128 bytes of its square; the order of
acceptance; for a COPY the bytes copied, whether poison was delivered, and the mirrored writes it waits for. -/
structure TkCmd where
  req : Nat
  csn : BitVec 16
  square : Nat
  bytes : List Byte
  ord : Nat
  phase : TkPhase := .accepted
  done : Nat := 0
  status : Nat := 0
  waits : List Nat := []
deriving DecidableEq, Repr, Inhabited

/-- A completion record that waits to be written (R497). -/
structure TkRec where
  csn : BitVec 16
  square : Nat
  tag : Nat
  status : Nat
  opcode : Nat
  notice : Bool
  result : Nat
  irq : Bool
  lane : Nat
deriving DecidableEq, Repr, Inhabited

/-- A staged table (R503, R504): 0 FRESHNESS, 1 PATTERN, 2 MOTION, 3 PMAP; `ord` says which was staged last. -/
structure Staged where
  kind : Nat
  gen : Nat
  bytes : List Byte
  ord : Nat
deriving DecidableEq, Repr, Inhabited

/-- The pending commit (R505, R506). `target` is none while it acts as one executed while turns are not running. -/
structure Commit where
  req : Nat
  csn : BitVec 16
  units : Nat
  gen : Nat
  target : Option Nat
  tries : Nat
  /-- 0x3002 has been reported for this attempt (R187). -/
  phaseSaid : Bool
deriving DecidableEq, Repr, Inhabited

/-- The Track. -/
structure Track where
  squares : Sparse Square := []
  /-- The squares' contents, word w of square n at 32 × n + w. -/
  words : Sparse Word := []
  head : Nat := 0
  used : Nat := 0
  store : List TkCmd := []
  ord : Nat := 0
  /-- The next CSN, DONE_CSN, the completed CSNs beyond it, the records that wait, the outstanding count, and the PHASE of
  the ring's pass, by requester. -/
  csn : Sparse (BitVec 16) := []
  done : Sparse (BitVec 16) := []
  fin : Sparse (List (BitVec 16)) := []
  recs : Sparse (List TkRec) := []
  out : Sparse Nat := []
  phase : Sparse Bool := []
  /-- The records of the Referee's and the MC's own queues, newest first (R497). -/
  own : Sparse (List TkRec) := []
  staged : List Staged := []
  stageOrd : Nat := 0
  commit : Option Commit := none
  /-- Whether each of the last 64 turns was skipped, newest first (R515). -/
  skips : List Bool := []
deriving DecidableEq, Repr, Inhabited

/-! ### Tables in force and staged (R503-R505) -/

/-- A table: its bytes and its generation. -/
structure Table where
  gen : Nat := 0
  bytes : List Byte := []
deriving DecidableEq, Repr, Inhabited

/-! ### The Tapestry Engine (08_tapestry.md, 10_stitch_isa.md) -/

/-- An accumulator tile: FP32 element (i, j) at i + 32 × j, the coarse factor F, and CLEARED (R280, R304). -/
structure Tile where
  v : Sparse Word := []
  f : Word := 0
  cleared : Bool := true
deriving DecidableEq, Repr, Inhabited

/-- A hoop's architectural registers (R304): tile k of Needle n at 8 × n + k, histogram counter b of bank h at 68 × h + b. -/
structure HRegs where
  s : Sparse Word := []
  v : Sparse (BitVec 4096) := []
  td : Sparse (BitVec 512) := []
  acc : Sparse Tile := []
  p : Sparse Bool := []
  flags : BitVec 6 := 0
  hist : Sparse Nat := []
  c : Sparse Nat := []
deriving DecidableEq, Repr, Inhabited

/-- What a hoop does: nothing, its program or firing, or, in a turn program, CTL.WAITTURN or CTL.END has been reached. -/
inductive HoopSt where
  | idle
  | running
  | waiting
  | ended
deriving DecidableEq, Repr, Inhabited

/-- Why a firing does not go on: a restartable fault holds it (R509), or it is parked on a sequence
until places are free, or Skeins or ring blocks are in the Bobbins (R339, R340, R410). -/
inductive Stall where
  | none
  | held (code : Nat)
  | parked (seq need : Nat) (skeins blocks : List Nat)
deriving DecidableEq, Repr, Inhabited

/-- An input or output of a firing (R322, R343): its channel, the first of its tokens, how many, how many are released or
published, and the indices sent. -/
structure Port where
  ch : Nat
  first : Nat
  count : Nat
  gone : Nat := 0
  sent : List Nat := []
deriving DecidableEq, Repr, Inhabited

/-- A firing on a hoop: its graph (64 × tenant + number), its actor, and its inputs and outputs. -/
structure Firing where
  graph : Nat
  actor : Nat
  turn : Nat := 0
  ins : List Port := []
  outs : List Port := []
  /-- The configuration generation in force when the firing started (R22, R328). -/
  gen : Nat := 0
deriving DecidableEq, Repr, Inhabited

/-- What the Witness of one Needle has counted (R236, R237). -/
structure Wit where
  tiles : Nat := 0
  flagged : Nat := 0
  max : Word := 0
deriving DecidableEq, Repr, Inhabited

/-- How control leaves the bundle that issues: a taken branch, CTL.END, CTL.WAITTURN (R311, R347). -/
structure Leave where
  branch : Option Int := none
  ends : Bool := false
  waits : Bool := false
deriving DecidableEq, Repr, Inhabited

/-- A hoop. `snap` holds the registers as they stood before the bundle that issues (R311); `defer` says that the bundle's end
waits for a transfer that will be reissued (R509). -/
structure Hoop where
  r : HRegs := {}
  snap : Option HRegs := none
  leave : Leave := {}
  /-- The flags that this bundle has raised (R328). -/
  raised : BitVec 6 := 0
  /-- The syllables of this bundle that a stall holds, the first to stall first. -/
  stuck : List Word := []
  defer : Bool := false
  sram : Sparse Byte := []
  sramBad : Sparse Bool := []
  st : HoopSt := .idle
  pc : Nat := 0
  ckpt : Option Nat := none
  firing : Option Firing := none
  stall : Stall := .none
  wit : Sparse Wit := []
  /-- 0x400B has been reported for this firing (R238). -/
  witSaid : Bool := false
  /-- The tenant of the last firing (R325), and how many firings have been placed here (R507). -/
  lastTenant : Option Nat := none
  placed : Nat := 0
deriving DecidableEq, Repr, Inhabited

/-- A turn program image in force or to come (R499, R501), named by the ordinal of its launch. -/
structure Image where
  ord : Nat
  tenant : Nat
  va : Nat
  pages : Nat
deriving DecidableEq, Repr, Inhabited

/-- The LAUNCH_TURN that waits for its first turn. -/
structure Launch where
  image : Image
  first : Nat
  req : Nat
  csn : BitVec 16
  /-- The run of turns and the next turn at the pin-walk, which is before the program's turn start. -/
  since : Nat × Nat
deriving DecidableEq, Repr, Inhabited

/-- A Witness report (R237). -/
structure WitReport where
  turn : Nat
  hoop : Nat
  needle : Nat
  flagged : Nat
  tiles : Nat
  max : Word
deriving DecidableEq, Repr, Inhabited

/-- The Scheduled partition (R252, R316, R317, R501). `header` is the resident image's; instants in Device Time units. -/
structure Sched where
  image : Option Image := none
  next : Option Launch := none
  running : Option Nat := none
  pending : Option Nat := none
  turnAt : Nat := 0
  startAt : Nat := 0
  resident : Option Nat := none
  mustLoad : Bool := false
  header : List Byte := []
  /-- The checkpoint last reached, with its instant. -/
  reached : Option (Nat × Nat) := none
  /-- The Scheduled fault of the program that runs, 0 for none (R513). -/
  fault : Nat := 0
  /-- The configuration generation of the turn whose program runs (R22, R328). -/
  gen : Nat := 0
deriving DecidableEq, Repr, Inhabited

/-- The Deadline Governor (R249-R251): the voltage last sent, the newest result that waits, the frame in progress and whether
it has been resent, whether a ramp runs, V_end, and whether the program ended early. -/
structure Gov where
  v : Nat := 800
  wait : Option Nat := none
  frame : Option (Nat × Bool) := none
  ramp : Bool := false
  vEnd : Nat := 800
  early : Bool := false
  satSaid : Bool := false
deriving DecidableEq, Repr, Inhabited

/-- A patch of R256. -/
structure Patch where
  lhoop : Nat
  syl : Nat
  bundle : Nat
  value : Nat
deriving DecidableEq, Repr, Inhabited

/-- Relocation (R255-R259): the mapping adopted and its patches; whether an application waits and whether it stopped; the
logical hoops whose retired hoop has no spare. -/
structure Reloc where
  logical : Option (List Nat) := none
  patches : List Patch := []
  noSpare : Bool := false
  /-- The entry that is being applied, by the turn before which it may not begin. -/
  applying : Option Nat := none
  /-- A further SCHED hoop retired meanwhile (R265). -/
  second : Bool := false
deriving DecidableEq, Repr, Inhabited

/-- A channel (R321, R322): tokens published, taken by the consumer and released, and places reserved. -/
structure Chan where
  ring : Nat
  cap : Nat
  units : Nat
  prod : Nat
  cons : Nat
  pub : Nat
  taken : Nat := 0
  rel : Nat := 0
  res : Nat := 0
deriving DecidableEq, Repr, Inhabited

/-- What an actor does between firings: it may fire, it fires, it is held without a firing, or it never fires again. -/
inductive ActSt where
  | ready
  | firing
  | held
  | dead
deriving DecidableEq, Repr, Inhabited

/-- An actor of a graph: its header (none, with the fault, where it could not be read), its state, its firings since launch,
and since when it has been ready. -/
structure Actor where
  va : Nat
  header : List Byte
  fault : Nat := 0
  st : ActSt := .ready
  firings : Nat := 0
  since : Option Nat := none
deriving DecidableEq, Repr, Inhabited

/-- A graph (R502): its launch, its actors and its channels. -/
structure Graph where
  cmd : TkCmd
  actors : List Actor
  chans : List Chan
  ending : Bool := false
deriving DecidableEq, Repr, Inhabited

/-- The Token partition: the graphs, by 64 × tenant + number, and the order in which actors became ready. -/
structure Token where
  graphs : Sparse (Option Graph) := []
  ord : Nat := 0
deriving DecidableEq, Repr, Inhabited

/-- One step of a Lace Hoop's history (R354): the axons an input event reached, the synapses a spike reached, the neurons
that spiked, and the traces. -/
structure LaceStep where
  axons : List Nat := []
  syns : List Nat := []
  spikes : List Nat := []
  x : Sparse Nat := []
  y : Sparse Nat := []
deriving DecidableEq, Repr, Inhabited

/-- A Lace Hoop's network and its state (R353-R373). `due` lists the deliveries that wait in the delay accumulators, as step
and synapse; `step` counts the steps run since the load; `past` lists the steps held, newest first; `queue` the input events,
as channel and landed T; `dropped` says that one was dropped since the last LACE.STEP; `armed` the action, requester and CSN of
the commit. -/
structure Lace where
  header : List Byte := []
  neuron : Sparse (BitVec 16) := []
  route : Sparse (BitVec 16) := []
  syn : Sparse (BitVec 16) := []
  v : Sparse Int := []
  refr : Sparse Nat := []
  x : Sparse Nat := []
  y : Sparse Nat := []
  due : List (Nat × Nat) := []
  step : Nat := 0
  past : List LaceStep := []
  queue : List (Nat × Nat) := []
  dropped : Bool := false
  deltas : Sparse (Int × Int) := []
  armed : Option (Nat × Nat × BitVec 16) := none
deriving DecidableEq, Repr, Inhabited

/-- The Tapestry Engine. -/
structure Engine where
  hoops : Sparse Hoop := []
  /-- The partition map in force (R240, R242). -/
  pmap : Option Table := none
  sched : Sched := {}
  gov : Gov := {}
  reloc : Reloc := {}
  token : Token := {}
  lace : Sparse Lace := []
deriving DecidableEq, Repr, Inhabited

/-! ### Sequences (12_sequences.md) -/

/-- A Thimble place that is not FREE: its position, whether it is COMMITTED (else SPEC), and its entries by region. -/
structure SkPlace where
  pos : Nat
  committed : Bool := false
  data : Sparse (List Byte) := []
deriving DecidableEq, Repr, Inhabited

/-- The states of a Skein that is not FREE (R390). -/
inductive SkSt where
  | live
  | spilling
  | spilled
  | returning
  | orphan
  | lost
deriving DecidableEq, Repr, Inhabited

/-- A Skein: its block of 2^log units of 4 KiB in the pool, its counts, the order of its allocation, the lane of the sequence
that allocated it, and what the Reel holds of it. -/
structure Skein where
  unit : Nat
  log : Nat
  refs : Nat := 1
  pins : Nat := 0
  st : SkSt := .live
  ord : Nat
  lane : Nat
  saved : List Byte := []
deriving DecidableEq, Repr, Inhabited

/-- A ring block that is not ABSENT (R409): whether its last entry has arrived, the order of arrival, the device that sent it,
the bytes that have arrived by region, and the Skeins it pins. -/
structure RingBlk where
  visiting : Bool := false
  ord : Nat := 0
  src : Nat := 0
  got : Sparse Nat := []
  pins : List Nat := []
deriving DecidableEq, Repr, Inhabited

/-- What a sequence has asked for and not been given: a block of 2^log units, or the return of a Skein. -/
inductive SkWant where
  | block (log : Nat)
  | back (skein : Nat)
deriving DecidableEq, Repr, Inhabited

/-- A sequence that is not FREE (R382-R388): its descriptor, its length, its places by k, its leaves (Skein by
2²⁰ × region + offset / 4 KiB), and what it waits for. -/
structure Seq where
  tenant : Nat
  lane : Nat
  exhausted : Bool := false
  freeing : Bool := false
  streams : Nat
  fmt : Nat
  dim : Nat
  min : Nat
  max : Nat
  maxLen : Nat
  ring : Bool := false
  members : Nat := 0
  blockLog : Nat := 0
  ownerVa : Nat := 0
  len : Nat := 0
  area : Nat × Nat
  places : Sparse (Option SkPlace) := []
  leaves : Sparse (Option Nat) := []
  want : Option SkWant := none
  returns : List Nat := []
  blocks : Sparse (Option RingBlk) := []
deriving DecidableEq, Repr, Inhabited

/-- The Skein Manager. `cut` lists the pool's 2 MiB units that are allocated or split, `free` the free blocks below 2 MiB. -/
structure Sk where
  seqs : Sparse (Option Seq) := []
  skeins : Sparse (Option Skein) := []
  nextId : Nat := 0
  cut : List Nat := []
  free : List (Nat × Nat) := []
  /-- Background spills run (R400). -/
  bg : Bool := false
deriving DecidableEq, Repr, Inhabited

/-! ### The Board, the ME and the outputs of a turn (06_board_fusion.md, 07_loom.md, 18_referee.md) -/

/-- A packet that has landed, as the Weft reads it (R21): its stream, its frame as it stands, the row, the bytes, the CD words,
and whether the line holds an uncorrectable word (R423). -/
structure WfLine where
  stream : Nat
  frame : SpFrame
  row : Nat
  bytes : List Byte
  cds : List Nat
  bad : Bool
deriving DecidableEq, Repr, Inhabited

/-- What one source has painted on a Board: its frame by FS_TIME and SEQ, the rows painted, and those not painted (R423). -/
structure WfSrc where
  frame : Option (Nat × Nat) := none
  rows : Nat := 0
  bad : List Nat := []
deriving DecidableEq, Repr, Inhabited

/-- A Board buffer (R180): the turn whose Board it is, the table that paints it, its sources, the FP32 distance kept by each
DEPTH and POINT cell, by byte offset, the VA pages of dropped writes (R174), the lines and the clearing that wait for a program
to end (R186), and the instant of the last write. -/
structure Canvas where
  run : Nat
  turn : Nat
  tab : Table
  srcs : Sparse WfSrc := []
  near : Sparse Word := []
  lost : List Nat := []
  wait : List WfLine := []
  clear : Bool := false
  last : Option Nat := none
deriving DecidableEq, Repr, Inhabited

/-- An expansion (R178, R187): the staged table, by the order of its staging, its bank, when it began, whether it is done. -/
structure WfExp where
  ord : Nat
  gen : Nat
  bank : Nat
  start : Nat
  done : Bool := false
deriving DecidableEq, Repr, Inhabited

/-- The Weft: the Pattern table in force and its bank, the Boards by buffer, the generation each bank holds, the banks that
turns use, the generation and bank of the views, and the reference attitudes of the views as FP64 bits (R190). -/
structure Weft where
  tab : Option Table := none
  bank : Nat := 0
  canv : Sparse (Option Canvas) := []
  gens : Sparse (Option Nat) := []
  uses : List (Nat × Nat × Nat) := []
  viewGen : Nat := 0
  viewBank : Nat := 0
  exp : Option WfExp := none
  /-- The turn in which 0x3003 has been reported. -/
  boardSaid : Option (Nat × Nat) := none
  stab : Sparse (List Nat) := []
deriving DecidableEq, Repr, Inhabited

/-- A track (R199): ID, class, state (0 TENTATIVE, 1 CONFIRMED, 2 COASTING), hits, consecutive misses, and its FP64 numbers:
position, velocity, covariance. -/
structure MeTrack where
  id : Nat
  cls : Nat
  st : Nat := 0
  hits : Nat := 1
  misses : Nat := 0
  num : List Nat
deriving DecidableEq, Repr, Inhabited

/-- An input that waits for its hold window (R193): an IMU sample of a slot, or a frame of a CAN mailbox. -/
structure MeInput where
  imu : Bool
  stamp : Nat
  unit : Nat
  box : Nat := 0
  data : List Byte
deriving DecidableEq, Repr, Inhabited

/-- A wheel: the stamp and count of its last frame, its last speed (FP64), since when its count stands, and whether it has
moved on since the last yaw update. -/
structure MeWheel where
  stamp : Nat
  ticks : Nat
  speed : Option Nat := none
  still : Nat
  fresh : Bool := false
deriving DecidableEq, Repr, Inhabited

/-- The Motion Estimator. `past` lists the tables that were in force, with the instant of the switch to the next one; `num` is
the state and its covariance in FP64 (q, v, p, bg, ba, angular rate, covariance); `time` is t_state. -/
structure Me where
  tab : Option Table := none
  past : List (Nat × Option Table) := []
  num : List Nat := []
  time : Nat := 0
  queue : List MeInput := []
  wheels : Sparse (Option MeWheel) := []
  /-- Sources used since the last turn update, those of the last turn, and whether a reset has come since. -/
  used : Nat := 0
  last : Nat := 0
  wasReset : Bool := false
  tracks : Sparse (Option MeTrack) := []
  nextId : Nat := 0
  tdet : Option Nat := none
  clones : List (Nat × List Nat) := []
deriving DecidableEq, Repr, Inhabited

/-- An assembled record (R216, R217). -/
structure LmRec where
  id : Nat
  cls : Nat
  groups : Nat
  payload : List Byte
  trunc : Bool := false
deriving DecidableEq, Repr, Inhabited

/-- A stamp of the Referee (R605): verdict, step, causes, FRESH by view, the motion status and holdover time (R158). -/
structure Stamp where
  verdict : Nat
  step : Nat
  causes : Nat
  fresh : List Nat
  motion : Nat
  holdMs : Nat
deriving DecidableEq, Repr, Inhabited

/-- A turn, from its start until its records and views are released or discarded. `gone` are the groups wholly absent, `frames`
the frames offered to it, CLEARED ones, by stream; `held` says that the ME or the Loom waits on a restartable fault; `seq` counts turn starts since the cold reset, and `ready` is when the
records were assembled. -/
structure TurnRec where
  run : Nat
  turn : Nat
  seq : Nat := 0
  ready : Nat := 0
  gen : Nat
  pat : Option Table := none
  present : BitVec 64 := BitVec.allOnes 64
  imu : Bool := true
  gone : Nat := 0
  frames : List (Nat × SpFrame) := []
  ended : Bool := false
  fault : Nat := 0
  reports : List WitReport := []
  meDone : Bool := false
  held : Bool := false
  motGen : Nat := 0
  ego : List Byte := []
  warped : Bool := false
  viewFlags : List Nat := []
  recs : Option (List LmRec) := none
  stamp : Option Stamp := none
deriving DecidableEq, Repr, Inhabited

/-- A frame entry of a transmit FIFO (R224): the view and turn, when it entered, its raster, and its embedded-data line but for
the time, the counts and the CRC. On the wire the line is whole, and `seqWas` is the VIEW_SEQ of the frame sent before it. -/
structure LmFrame where
  view : Nat
  run : Nat
  turn : Nat
  since : Nat
  tenant : Nat
  va : Nat
  rows : Nat
  rowBytes : Nat
  fmt : Nat
  emb : List Byte
  seqWas : Word := 0
deriving DecidableEq, Repr, Inhabited

/-- A transmit port: its FIFO, oldest first, the frame on the wire with the instants of its end and of the next start, and when
lock was lost. -/
structure LmPort where
  fifo : List LmFrame := []
  wire : Option (LmFrame × Nat × Nat) := none
  locked : Bool := false
  lost : Nat := 0
deriving DecidableEq, Repr, Inhabited

/-- The Loom. `ring` is false while the record ring has stopped (R547). -/
structure Loom where
  turns : List TurnRec := []
  ports : Sparse LmPort := []
  recSeq : Nat := 0
  lostTurns : Nat := 0
  dropped : Sparse Nat := []
  sent : Sparse Nat := []
  ring : Bool := true
deriving DecidableEq, Repr, Inhabited

/-- A mismatch of a Needle (R610), at the turn that was the `at_`-th to start since the cold reset. -/
structure Mismatch where
  hoop : Nat
  needle : Nat
  at_ : Nat
deriving DecidableEq, Repr, Inhabited

/-- The Referee. `rung` says that a doorbell has been taken and `image` what it brought, until it is checked; `window` the
verdicts, newest first, true for a reject; `high` the highest D of the clean turns (R160); `turns` how many turns have started;
`abort` and `relaunch` the CSNs of the ABORT and LAUNCH_TURN that are out (R613); `launch` the copied square with its tenant
(R612). SAFE_OFF_N and RF_HB are pins: `on` says that the Referee drives them, `off` that SAFE_OFF_N is asserted. -/
structure Ref where
  running : Bool := false
  halted : Bool := false
  rung : Bool := false
  image : Option (List Byte) := none
  rules : Option (List Byte) := none
  window : List Bool := []
  high : Nat := 0
  mism : List Mismatch := []
  turns : Nat := 0
  abort : Option (BitVec 16) := none
  relaunch : Option (BitVec 16) := none
  noRelaunch : Bool := false
  launch : Option (Nat × List Byte) := none
  on : Bool := false
  off : Bool := true
  hb : Bool := false
  hbAt : Nat := 0
deriving DecidableEq, Repr, Inhabited

/-! ### The Selvedge link (17_selvedge.md) -/

/-- A message on the link (R563). -/
inductive SvMsg where
  | hello (dev members : Nat) (twin role : Bool) (stepping : Nat)
  | heartbeat (seq live : Nat) (owner : Bool) (epoch per turn : Nat) (run : Bool)
  | time (answer : Bool) (t1 t2 t3 : Nat)
  | handover (turn mask : Nat)
  | notice (x gen : Nat)
  | detach
  | mirrorWr (dpa : Nat) (lines : List Byte)
  | mirrorAck (dpa status : Nat)
  | poolRd (dpa len tenant : Nat)
  | poolRdData (data : List Byte) (poison : List Bool) (status : Nat)
  | poolWr (dpa : Nat) (lines : List Byte) (tenant : Nat)
  | poolWrAck (status : Nat)
  | ringBlock (q block region : Nat) (entries : List Byte) (last : Bool)
  | blockFetch (q block : Nat)
deriving DecidableEq, Repr, Inhabited

/-- A message to be sent, with its START and END fields (R562); `tries` counts its replays. -/
structure SvTx where
  msg : SvMsg
  src : Nat
  dst : Nat
  bcast : Bool := false
  hops : Nat := 0
  e2e : Nat := 0
  lseq : Nat := 0
  tries : Nat := 0
deriving DecidableEq, Repr, Inhabited

/-- A port beside its registers: the instant of its state, the lanes with block lock, deskew, the transmit PLL's lock and when it
was lost, the instant of a retry, the instant of a received CAL, the next LSEQ, what waits, what is not acknowledged, the credits
by class, the last LSEQ received in order, the neighbour out of ring order (R570), the last TIME exchange, and the last CAL (R667). -/
structure SvPort where
  since : Nat := 0
  blk : Nat := 0
  desk : Bool := false
  locked : Bool := false
  lostAt : Nat := 0
  staleSaid : Bool := false
  retry : Option Nat := none
  calRx : Option Nat := none
  lseq : Nat := 0
  queue : List SvTx := []
  unacked : List SvTx := []
  credit : List Nat := [0, 0, 0, 0]
  rxLseq : Nat := 4095
  bad : Bool := false
  ofs : Option Int := none
  timeAt : Nat := 0
  calAt : Nat := 0
deriving DecidableEq, Repr, Inhabited

/-- What is known of device d: its HELLO as MEMBERS, TWIN, ROLE, stepping and place in the ring, whether it is LIVE and the
instant of its last HEARTBEAT, whether it is lost, and what its HEARTBEAT said: owner, epoch, period, turn, RUN. -/
structure SvPeer where
  hello : Option (Nat × Bool × Bool × Nat × Nat) := none
  hbAt : Option Nat := none
  lost : Bool := false
  staleSaid : Bool := false
  owner : Bool := false
  epoch : Nat := 0
  per : Nat := 0
  turn : Nat := 0
  run : Bool := false
deriving DecidableEq, Repr, Inhabited

/-- A message that has arrived and waits: the port, and its units of the class's buffer. -/
structure SvHeld where
  head : SvHead
  msg : SvMsg
deriving DecidableEq, Repr

/-- The Selvedge unit. E2E numbers by destination or source and class; `early` waits for E2E order (R566), `full` for room of the
ring (R409); `give` and `take` are handovers that wait for a turn (R577) with their masks; `widow` says that the owner is lost
(R578); `oeLate` are pins whose last pulse runs; `fetch` lists direct fetches as sequence, block, device, and whether that is the
mirror (R410). -/
structure Sv where
  ports : Sparse SvPort := []
  peers : Sparse SvPeer := []
  tx : Sparse Nat := []
  rx : Sparse Nat := []
  early : List SvHeld := []
  full : List SvHeld := []
  hbSeq : Nat := 0
  hbAt : Nat := 0
  detaching : Bool := false
  give : Option (Nat × Nat) := none
  take : Option (Nat × Nat) := none
  widow : Bool := false
  oeLate : Nat := 0
  fetch : List (Nat × Nat × Nat × Bool) := []
  conflictSaid : List Nat := []
deriving DecidableEq, Repr

/-! ### Start-up and power states (20_power_startup.md) -/

/-- What start-up has settled, and the configuration lock (R645-R653). `stage`, `slot`, `recovery` and `version` are those of
MC_STATUS and MC_BOOT_VER; `fuse` is FUSE_RB; `flash` and `straps` are as sampled at POR_N rising; `retried` holds the stacks trained
once more. Only the commands of start-up change it. -/
structure Boot where
  lock : Bool := false
  fuse : Nat := 0
  stage : Nat := 0
  slot : Bool := false
  recovery : Bool := false
  version : Word := 0
  rollback : Nat := 0
  flash : BootFlash := ⟨false, false, 0, 0, false, false⟩
  straps : Straps := ⟨0, 0, false, false, false⟩
  retried : Nat := 0
deriving DecidableEq, Repr

/-- The power states beside their registers: the state that is being entered or left, since when, and the entry time that a wake
reason cut short; by port, in bits 0 and 1: PERST_N low, WAKE_N asserted, and the host's resume seen since PERST_N fell; when the last
message of R665 went; the value of MC_WAKE_AT that has been reached; the thermal cap with THERM_N low, and Tj at or above WARN and CRIT;
forced wear levelling of the main and spill partitions; PREP_OFF's flush; the frames that CAN controllers hold (R663); the voltage from
before PAUSE; when the state in force was reached; the start of the scrub schedule's pass, and whether scrub is forced (R666, R667). -/
structure Pwr where
  entering : Option Nat := none
  leaving : Option Nat := none
  since : Nat := 0
  spent : Nat := 0
  perst : Nat := 0
  wakeN : Nat := 0
  resumed : Nat := 0
  msgAt : Option Nat := none
  wakeMet : Option Nat := none
  cap : Bool := false
  warm : Bool := false
  crit : Bool := false
  wear : Bool := false
  slc : Bool := false
  off : Bool := false
  held : List (Nat × CanFrame) := []
  v : Nat := 0
  slept : Nat := 0
  scrubFrom : Option Nat := none
  scrubForced : Bool := false
deriving DecidableEq, Repr

/-! ### What leaves the device -/

/-- What the device sends out. -/
inductive Out where
  /-- The value a register read returns to its reader (R36). -/
  | readData (iid : Iid) (off : Nat) (value : BitVec 64)
  /-- An Ethernet frame on the wire (R120), stamped or not (R87). -/
  | ethFrame (frame : List Byte)
  /-- A CAN frame that has been acknowledged (R131). -/
  | canFrame (c k : Nat)
  /-- A step on an I²C bus (R135, R136). -/
  | i2c (k op data : Nat)
  /-- A message that starts on a Selvedge port, a CREDIT block and a CAL block (R561, R562). -/
  | svMsg (port : Nat) (x : SvTx)
  | svCredit (port ack : Nat) (nak : Bool) (cls units : Nat)
  | svCal (port : Nat)
  /-- An MSI-X message of a tenant's function (R531). -/
  | msix (tenant vector : Nat)
  /-- ERR_FATAL of a tenant's function (R474). -/
  | errFatal (tenant : Nat)
  /-- A view frame on a transmit port (R212): port, virtual channel, data type, embedded-data line and image lines; and its end
  without a frame end (R225, R231). -/
  | viewFrame (port vc dt : Nat) (emb : List Byte) (rows : List (List Byte))
  | viewCut (port : Nat)
  /-- The completion of a pool window request: data with a poison mark, or Completer Abort (R474, R532). -/
  | poolData (tenant : Nat) (bytes : List Byte) (ep : Bool)
  | poolAbort (tenant : Nat)
  /-- A write through a tenant's function into host memory, with the EP mark (R474, R497, R500). -/
  | hostWrite (tenant addr : Nat) (bytes : List Byte) (ep : Bool)
  /-- A recall notice that has come from a remote device, to its holder (R465). -/
  | noticeIn (device x gen : Nat)
deriving DecidableEq, Repr, Inhabited

/-! ### The whole machine -/

/-- Reasons a step stops with a fault. No meaning of this model raises one. -/
inductive Fault where
  /-- Not raised: every fault of the spec is reported into the global fault registers (R50) and the device goes on. Safe. -/
  | none
deriving DecidableEq, Repr

/-- Reasons a command is refused. -/
inductive Refusal where
  /-- Raised by the arms of exec for a command that has no meaning yet. Safe: nothing is claimed of it. -/
  | notModelled (mnemonic : String)
deriving DecidableEq, Repr

/-- The state of the device. -/
structure State where
  /-- The commands that wait, first in, first out. -/
  pending : List Instr := []
  /-- The control-window registers, by offset; an unlisted one holds its reset value. -/
  regs : Sparse Word := []
  /-- Staged values of ST registers (R38), by offset. -/
  staged : Sparse (Option Word) := []
  /-- Held _LO writes (R730), by offset × 64 + Initiator ID. -/
  heldLo : Sparse (Option Word) := []
  /-- Latched registers (R33), by offset × 64 + Initiator ID. -/
  latch : Sparse (Option Word) := []
  hg : Hg := {}
  /-- The Frame Store (R103), by byte, and its words that hold an uncorrectable error (R732), by offset / 8. -/
  fs : Sparse Byte := []
  fsBad : Sparse Bool := []
  streams : Sparse SpStream := []
  imus : Sparse Imu := []
  cans : Sparse Can := []
  i2cs : Sparse I2c := []
  eth : Eth := {}
  fresh : Fresh := {}
  mem : Mem := {}
  atu : Atu := {}
  pool : Pool := {}
  hostFns : Sparse HostFn := []
  /-- The functions' MSI-X tables, entry word i of tenant t at 128 × t + i (R530); a vector is masked after reset. -/
  msixTab : Sparse Word := []
  track : Track := {}
  eng : Engine := {}
  sk : Sk := {}
  weft : Weft := {}
  me : Me := {}
  loom : Loom := {}
  ref : Ref := {}
  sv : Sv := {}
  boot : Boot := {}
  pwr : Pwr := {}
  /-- The Freshness table in force (R148). -/
  freshTab : Table := { bytes := [0, 0, 0, 0, 0, 0, 0, 0, 0xB8, 0x0B] }
  /-- What has left the device, newest first. -/
  outbox : List Out := []
  /-- How many free values the run has taken (the model's own; log entry 2). -/
  freeCtr : Nat := 0
deriving DecidableEq, Repr

/-- The machine right after a cold reset with no command waiting. -/
def State.reset : State := {}

end Sys2Proof.Machine
end

