-- ==== Sys2Proof/Machine/Ops.lean ====
section
/-! DEFINITION. The named operations over registers, fields, faults and outputs (02_conventions.md). -/

namespace Sys2Proof.Machine

/-- The outcome of a command. -/
abbrev Ans := Host.Outcome State Fault Refusal

/-- A command's outcome. The queue is the step's, and what start-up has settled, the configuration lock and FUSE_RB among it, is
left as it was (R647, R650). -/
def State.done (s t : State) : Ans := .next { t with pending := s.pending, boot := s.boot }

/-- The outcome of a command of start-up. -/
def State.booted (s t : State) : Ans := .next { t with pending := s.pending }

/-! ### Bits -/

/-- Bits `lo + w - 1 : lo` of a number. -/
def bitsOf (v lo w : Nat) : Nat := v / 2 ^ lo % 2 ^ w

/-- `v` with bits `lo + w - 1 : lo` set to the low `w` bits of `x`. -/
def setBits (v lo w x : Nat) : Nat := 2 ^ lo * (x % 2 ^ w) + (v - 2 ^ lo * bitsOf v lo w)

/-- The low `w` bits of `v` read as a signed number. -/
def signed (w v : Nat) : Int := if v % 2 ^ w < 2 ^ (w - 1) then (v % 2 ^ w : Nat) else (v % 2 ^ w : Nat) - (2 ^ w : Nat)

/-- A signed number as a w-bit pattern. -/
def unsign (w : Nat) (i : Int) : Nat := (i % (2 ^ w : Nat)).toNat

/-- Rounding to nearest, ties to even, of `a / b` for a positive `b`. -/
def roundEven (a : Int) (b : Nat) : Int :=
  let q := a / (b : Int)
  let r := a % (b : Int)
  if 2 * r < b then q else if (b : Int) < 2 * r then q + 1 else if q % 2 = 0 then q else q + 1

/-- Clamp to `-l … l`. -/
def clampAbs (l : Nat) (i : Int) : Int := if i < -(l : Int) then -(l : Int) else if (l : Int) < i then l else i

/-- Replace entry `i` of a list. -/
def listSet {α : Type} : List α → Nat → α → List α
  | [], _, _ => []
  | _ :: r, 0, v => v :: r
  | x :: r, n + 1, v => x :: listSet r n v

/-- The lowest index below `n` that satisfies `p`. -/
def firstIdx (p : Nat → Bool) : Nat → Option Nat
  | 0 => none
  | n + 1 => match firstIdx p n with
    | some k => some k
    | none => if p n then some n else none

/-! ### Registers -/

/-- An offset from a row's base lies on an element of the row's array. -/
def rowHit : List (Nat × Nat) → Nat → Bool
  | [], rel => rel == 0
  | (c, st) :: r, rel => decide (rel / st < c) && rowHit r (rel % st)

/-- The row of a register offset in a block's table. -/
def findRow : List RegRow → Nat → Option RegRow
  | [], _ => none
  | x :: r, off => if x.base ≤ off && rowHit x.dims (off - x.base) then some x else findRow r off

/-- The row of the register at an offset; none for an unassigned offset (R683). -/
def regRow (off : Nat) : Option RegRow := findRow (regBlock (off / 0x100000)) off

/-- The first index of an array element (R544). -/
def rowIndex (r : RegRow) (off : Nat) : Nat :=
  match r.dims with
  | [] => 0
  | (_, st) :: _ => (off - r.base) / st

/-- The write mask of register page g after reset (R542). -/
def pageWrReset (g : Nat) : Nat :=
  if g / 256 = 6 then 0x300
  else if g = 0x801 ∨ g = 0xA01 ∨ g = 0xB00 ∨ g = 0xB01 ∨ (0xB80 ≤ g ∧ g ≤ 0xBFF) then 0x3FF
  else if g / 256 = 0xE then 0
  else 0x200

/-- The read mask of register page g after reset (R542). -/
def pageRdReset (g : Nat) : Nat := if g / 256 = 2 ∨ g / 256 = 9 then 0x300 else 0x3FF

/-- The reset value of the register at an offset: the register summaries, R542 for the page masks and R227 for the views. -/
def regReset (off : Nat) : Word :=
  if 0xC10000 ≤ off ∧ off < 0xC18000 then
    BitVec.ofNat 32 (if off % 8 = 0 then pageRdReset ((off - 0xC10000) / 8) else pageWrReset ((off - 0xC10000) / 8))
  else if off = Reg.LM_VIEW_CFG 1 then 2
  else if off = Reg.LM_VIEW_CFG 2 then 1
  else if off = Reg.LM_VIEW_CFG 3 then 3
  else match regRow off with
    | some r => BitVec.ofNat 32 r.reset
    | none => 0

/-- The value held by the register at an offset. -/
def State.reg (s : State) (off : Nat) : Word := spGet regReset s.regs off

/-- Place a value in a register. -/
def State.setReg (s : State) (off : Nat) (v : Word) : State := { s with regs := spPut regReset s.regs off v }

/-- The value of a field. -/
def State.get (s : State) (f : Fld) : Nat := bitsOf (s.reg f.off).toNat f.lo f.w

/-- Place a value in a field. -/
def State.put (s : State) (f : Fld) (v : Nat) : State :=
  s.setReg f.off (BitVec.ofNat 32 (setBits (s.reg f.off).toNat f.lo f.w v))

/-- A one-bit field is 1. -/
def State.is (s : State) (f : Fld) : Bool := s.get f == 1

/-- Set a one-bit field. -/
def State.putB (s : State) (f : Fld) (b : Bool) : State := s.put f (if b then 1 else 0)

/-- Add to a saturating count. -/
def State.bump (s : State) (f : Fld) (n : Nat := 1) : State := s.put f (min (s.get f + n) (2 ^ f.w - 1))

/-- A whole register as a field. -/
def whole (off : Nat) : Fld := ⟨off, 0, 32⟩

/-- The 64-bit value of an _LO/_HI pair. -/
def State.pair (s : State) (lo : Nat) : Nat := (s.reg lo).toNat + 2 ^ 32 * (s.reg (lo + 4)).toNat

/-- Place both halves of a pair. -/
def State.setPair (s : State) (lo : Nat) (v : Nat) : State :=
  (s.setReg lo (BitVec.ofNat 32 v)).setReg (lo + 4) (BitVec.ofNat 32 (v / 2 ^ 32))

/-! ### Faults (R48-R54) -/

/-- Report fault code `code` caused by Initiator ID `iid` (R50-R52). -/
def State.report (s : State) (code iid : Nat) : State :=
  let w : Word := BitVec.ofNat 32 (code + 0x10000 * (iid % 64))
  let s1 := if s.reg Reg.GLB_FAULT_FIRST = 0 then s.setReg Reg.GLB_FAULT_FIRST w else s
  (s1.setReg Reg.GLB_FAULT_LAST w).bump (whole Reg.GLB_FAULT_COUNT)

/-- Report two faults that one cause raises in the same cycle; the Initiator ID is the same, so FIRST and LAST take the
lower code (R53). -/
def State.report2 (s : State) (c1 c2 iid : Nat) : State :=
  let lo := min c1 c2
  let s1 := s.report lo iid
  s1.bump (whole Reg.GLB_FAULT_COUNT)

/-- Report every code that one cause raises in the same cycle: FIRST and LAST take the lowest (R53). -/
def State.reportAll (s : State) (iid : Nat) : List Nat → State
  | [] => s
  | c :: r => (s.report (r.foldl min c) iid).bump (whole Reg.GLB_FAULT_COUNT) r.length

/-- Write an entry of the safety log (R620). -/
def State.safetyLog (s : State) (turn code a b detail : Nat) : State :=
  let h := s.get (whole Reg.RF_LOG_HEAD) % 256
  let o := Reg.RF_LOG h
  ((s.setPair o turn).setReg (o + 8) (BitVec.ofNat 32 (code % 65536 + 2 ^ 16 * (a % 256) + 2 ^ 24 * (b % 256)))).setReg (o + 12)
    (BitVec.ofNat 32 detail) |>.setReg Reg.RF_LOG_HEAD (BitVec.ofNat 32 ((h + 1) % 256))

/-- Report a Safety code while the Referee runs: Initiator ID 8, and the safety log, under the turn being judged or the current
one (R620, R621). -/
def State.safety (s : State) (code : Nat) (a : Nat := 0) (b : Nat := 0) (detail : Nat := 0) (turn : Option Nat := none) : State :=
  if s.ref.running then (s.report code 8).safetyLog (turn.getD (s.pair Reg.HG_TURN_NUM_LO)) code a b detail else s

/-- The Referee logs a fault of the Hourglass that it sees (R609, R620). -/
def State.refSees (s : State) (code detail : Nat) : State :=
  if s.ref.running then s.safetyLog (s.pair Reg.HG_TURN_NUM_LO) code 0 0 detail else s

/-! ### Outputs and free values -/

/-- Send something out. -/
def State.emit (s : State) (o : Out) : State := { s with outbox := o :: s.outbox }

/-- A free value (log entry 2): one that the spec leaves undefined. -/
def State.free (s : State) : Nat := Config.freeValue s.freeCtr

/-- The state after a free value has been taken. -/
def State.took (s : State) : State := { s with freeCtr := s.freeCtr + 1 }

end Sys2Proof.Machine
end

