-- ==== Sys2Proof/Machine/Operands.lean ====
section
/-! DEFINITION. The form of operands that lie in memory: little-endian bytes and the fields of a record (R32). -/

namespace Sys2Proof.Machine

/-- Little-endian bytes of a number (R32). -/
def leBytes : Nat → Nat → List Byte
  | 0, _ => []
  | n + 1, v => BitVec.ofNat 8 v :: leBytes n (v / 256)

/-- The number that little-endian bytes hold. -/
def leNat : List Byte → Nat
  | [] => 0
  | b :: r => b.toNat + 256 * leNat r

/-- `n` bytes of a record from `off`, as a number; bytes past its end are zero. -/
def leAt (r : List Byte) (off n : Nat) : Nat := leNat ((r.drop off).take n)

end Sys2Proof.Machine
end

