-- ==== Sys2Proof/Machine/Rays.lean ====
section
/-! DEFINITION. The geometry of the Board: vectors and quaternions, the projections of panels, the camera models and their
inversion, the nodes of remap grids, rolling shutter, sampling, and projection onto cells (06_board_fusion.md R170, R171,
R177-R179, R181-R184, R189, R190). Each formula stands as the spec writes it; its rounding is open (log entry 2). -/

namespace Sys2Proof.Machine

open Sys2Proof.Config (Rex)

/-! ### Formulas -/

/-- The FP64 value of a formula: that of a number is the number. -/
def rex64 : Rex → Nat
  | .f64 x => x
  | .f32 x => (fpConvert .fp32 .fp64 x).bits
  | .int (.ofNat n) => (fpRound .fp64 (.fin false n 0)).bits
  | .int (.negSucc n) => (fpRound .fp64 (.fin true (n + 1) 0)).bits
  | e => Config.eval64 e % 2 ^ 64

/-- The FP32 value of a formula. -/
def rex32 : Rex → Nat
  | .f32 x => x
  | .int (.ofNat n) => (fpRound .fp32 (.fin false n 0)).bits
  | .int (.negSucc n) => (fpRound .fp32 (.fin true (n + 1) 0)).bits
  | e => Config.eval32 e % 2 ^ 32

/-- A formula evaluated in FP64 and stored in FP32 (R178). -/
def rexStored (e : Rex) : Nat := (fpConvert .fp64 .fp32 (rex64 e)).bits

/-- The formula's FP64 value is above zero; it is zero. -/
def rexPos (e : Rex) : Bool := fpCmp FVal.zero (fpDecode .fp64 (rex64 e)) == -1

def rexZero (e : Rex) : Bool := (fpDecode .fp64 (rex64 e)).isZero

def rexSqrt (e : Rex) : Rex := .fn .sqrt e

/-- A sum of formulas. -/
def rexSum : List Rex → Rex
  | [] => .int 0
  | a :: r => r.foldl Rex.add a

/-- The FP32 field of an entry. -/
def fieldAt (b : List Byte) (i : Nat) : Rex := .f32 (leAt b i 4)

/-! ### Vectors and quaternions (R170) -/

structure Vec3 where
  x : Rex
  y : Rex
  z : Rex
deriving DecidableEq, Repr, Inhabited

structure Quat where
  w : Rex
  x : Rex
  y : Rex
  z : Rex
deriving DecidableEq, Repr, Inhabited

def Vec3.add (a b : Vec3) : Vec3 := ⟨a.x.add b.x, a.y.add b.y, a.z.add b.z⟩

def Vec3.sub (a b : Vec3) : Vec3 := ⟨a.x.sub b.x, a.y.sub b.y, a.z.sub b.z⟩

def Vec3.scale (k : Rex) (a : Vec3) : Vec3 := ⟨k.mul a.x, k.mul a.y, k.mul a.z⟩

def Vec3.norm (a : Vec3) : Rex := rexSqrt (((a.x.mul a.x).add (a.y.mul a.y)).add (a.z.mul a.z))

def Vec3.unit (a : Vec3) : Vec3 := ⟨a.x.div a.norm, a.y.div a.norm, a.z.div a.norm⟩

def Quat.conj (q : Quat) : Quat := ⟨q.w, .fn .neg q.x, .fn .neg q.y, .fn .neg q.z⟩

/-- The product of two quaternions. -/
def Quat.mul (p q : Quat) : Quat where
  w := (((p.w.mul q.w).sub (p.x.mul q.x)).sub (p.y.mul q.y)).sub (p.z.mul q.z)
  x := (((p.w.mul q.x).add (p.x.mul q.w)).add (p.y.mul q.z)).sub (p.z.mul q.y)
  y := (((p.w.mul q.y).sub (p.x.mul q.z)).add (p.y.mul q.w)).add (p.z.mul q.x)
  z := (((p.w.mul q.z).add (p.x.mul q.y)).sub (p.y.mul q.x)).add (p.z.mul q.w)

/-- The vector rotated by a unit quaternion: the vector part of q v q*. -/
def Quat.rotate (q : Quat) (v : Vec3) : Vec3 :=
  let r := (q.mul ⟨.int 0, v.x, v.y, v.z⟩).mul q.conj
  ⟨r.x, r.y, r.z⟩

/-- quat_exp of a vector (R193): cos of its length, and its direction by the sine. -/
def Quat.exp (v : Vec3) : Quat :=
  let a := v.norm
  if rexZero a then ⟨.int 1, .int 0, .int 0, .int 0⟩
  else ⟨.fn .cos a, (v.x.div a).mul (.fn .sin a), (v.y.div a).mul (.fn .sin a), (v.z.div a).mul (.fn .sin a)⟩

def quatField (b : List Byte) (i : Nat) : Quat := ⟨fieldAt b i, fieldAt b (i + 4), fieldAt b (i + 8), fieldAt b (i + 12)⟩

def vecField (b : List Byte) (i : Nat) : Vec3 := ⟨fieldAt b i, fieldAt b (i + 4), fieldAt b (i + 8)⟩

/-- The numbers of a quaternion as FP64, and back; an absent one is the identity. -/
def Quat.nums (q : Quat) : List Nat := [rex64 q.w, rex64 q.x, rex64 q.y, rex64 q.z]

def Quat.ofNums : List Nat → Quat
  | [w, x, y, z] => ⟨.f64 w, .f64 x, .f64 y, .f64 z⟩
  | _ => ⟨.int 1, .int 0, .int 0, .int 0⟩

/-! ### Panels and views (R171, R179) -/

/-- The ray of (x, y) of a camera entry whose FX, FY, CX, CY stand at byte 8, by a projection. -/
def entryRay (e : List Byte) (proj x y : Nat) : Vec3 :=
  let a := ((Rex.int x).sub (fieldAt e 16)).div (fieldAt e 8)
  let b := ((Rex.int y).sub (fieldAt e 20)).div (fieldAt e 12)
  (if proj = 0 then Vec3.mk a b (.int 1) else ⟨.fn .sin a, b, .fn .cos a⟩).unit

/-- A panel's pose: Q at byte 24 and T at byte 40. -/
def panelQ (p : List Byte) : Quat := quatField p 24

def panelT (p : List Byte) : Vec3 := vecField p 40

/-- DREF is 0: infinity. -/
def farAway (p : List Byte) : Bool := leAt p 52 4 % 2 ^ 31 == 0

/-- A source's pose: Q at byte 72 and T at byte 88. -/
def sourceQ (src : List Byte) : Quat := quatField src 72

def sourceT (src : List Byte) : Vec3 := vecField src 88

/-- The ray of a panel's cell in the frame of a source (R179). -/
def panelToSensor (p src : List Byte) (x y : Nat) : Vec3 :=
  let d := (panelQ p).rotate (entryRay p (leAt p 4 1) x y)
  (sourceQ src).conj.rotate
    (if farAway p then d else ((panelT p).add (Vec3.scale (fieldAt p 52) d)).sub (sourceT src))

/-- The ray of a view's pixel in the frame of a source, turned by its stabilisation (R179, R190). -/
def viewToSensor (v src : List Byte) (rot : List Nat) (x y : Nat) : Vec3 :=
  (sourceQ src).conj.rotate ((Quat.ofNums rot).rotate ((quatField v 24).rotate (entryRay v 0 x y)))

/-! ### Camera models (R177, R178) -/

/-- K[i] of a source. -/
def coeff (src : List Byte) (i : Nat) : Rex := fieldAt src (40 + 4 * i)

/-- 1 + a·t + b·t² + c·t³. -/
def cubic (t a b c : Rex) : Rex :=
  (((Rex.int 1).add (a.mul t)).add (b.mul (t.mul t))).add (c.mul ((t.mul t).mul t))

/-- s of the rational model. -/
def rationalScale (src : List Byte) (r2 : Rex) : Rex :=
  (cubic r2 (coeff src 0) (coeff src 1) (coeff src 4)).div (cubic r2 (coeff src 5) (coeff src 6) (coeff src 7))

/-- The tangential parts of the rational model. -/
def rationalShift (src : List Byte) (x y r2 : Rex) : Rex × Rex :=
  let p1 := coeff src 2
  let p2 := coeff src 3
  let two := Rex.int 2
  ((((two.mul p1).mul x).mul y).add (p2.mul (r2.add (two.mul (x.mul x)))),
   (p1.mul (r2.add (two.mul (y.mul y)))).add (((two.mul p2).mul x).mul y))

/-- θd of the fisheye model. -/
def fisheyeAngle (src : List Byte) (t : Rex) : Rex :=
  let t2 := t.mul t
  t.mul ((cubic t2 (coeff src 0) (coeff src 1) (coeff src 2)).add ((coeff src 3).mul ((t2.mul t2).mul (t2.mul t2))))

/-- The derivative of θd. -/
def fisheyeSlope (src : List Byte) (t : Rex) : Rex :=
  let t2 := t.mul t
  (cubic t2 ((Rex.int 3).mul (coeff src 0)) ((Rex.int 5).mul (coeff src 1)) ((Rex.int 7).mul (coeff src 2))).add
    (((Rex.int 9).mul (coeff src 3)).mul ((t2.mul t2).mul (t2.mul t2)))

/-- (xd, yd) of (xn, yn) by a source's model. -/
def distort (src : List Byte) (x y : Rex) : Rex × Rex :=
  let r2 := (x.mul x).add (y.mul y)
  if leAt src 3 1 = 0 then
    let s := rationalScale src r2
    let t := rationalShift src x y r2
    ((x.mul s).add t.1, (y.mul s).add t.2)
  else
    let r := rexSqrt r2
    if rexZero r then (.int 0, .int 0)
    else
      let d := fisheyeAngle src (.fn .atan r)
      ((x.mul d).div r, (y.mul d).div r)

/-- The pixel of a ray in the sensor frame, as FP32 (R177, R178). -/
def sensorPixel (src : List Byte) (v : Vec3) : Option (Nat × Nat) :=
  if rexPos v.z then
    let d := distort src (v.x.div v.z) (v.y.div v.z)
    some (rexStored (((fieldAt src 24).mul d.1).add (fieldAt src 32)), rexStored (((fieldAt src 28).mul d.2).add (fieldAt src 36)))
  else none

/-- Fixed-point iterations that invert the rational model (R178). -/
def rationalInverse (src : List Byte) (xd yd : Rex) : Nat → Rex × Rex → Rex × Rex
  | 0, p => p
  | n + 1, (x, y) =>
    let r2 := (x.mul x).add (y.mul y)
    let s := rationalScale src r2
    let t := rationalShift src x y r2
    rationalInverse src xd yd n ((xd.sub t.1).div s, (yd.sub t.2).div s)

/-- Newton iterations that invert the fisheye model (R178). -/
def fisheyeInverse (src : List Byte) (d : Rex) : Nat → Rex → Rex
  | 0, t => t
  | n + 1, t => fisheyeInverse src d n (t.sub (((fisheyeAngle src t).sub d).div (fisheyeSlope src t)))

/-- (xn, yn) of (xd, yd): 20 iterations of the rational model, 10 of the fisheye model; both begin at the distorted value. -/
def undistort (src : List Byte) (xd yd : Rex) : Rex × Rex :=
  if leAt src 3 1 = 0 then rationalInverse src xd yd 20 (xd, yd)
  else
    let d := rexSqrt ((xd.mul xd).add (yd.mul yd))
    if rexZero d then (.int 0, .int 0)
    else
      let k := (Rex.fn .tan (fisheyeInverse src d 10 d)).div d
      (xd.mul k, yd.mul k)

/-! ### Remap grids (R178) -/

/-- A node of an image source's backward grid, at a cell of its panel. -/
def panelNode (p src : List Byte) (x y : Nat) : Option (Nat × Nat) := sensorPixel src (panelToSensor p src x y)

/-- A node of a view's backward grid. -/
def viewNode (v src : List Byte) (rot : List Nat) (x y : Nat) : Option (Nat × Nat) := sensorPixel src (viewToSensor v src rot x y)

/-- A node of a source's forward grid, at a pixel: its undistorted (xn, yn). -/
def forwardNode (src : List Byte) (x y : Nat) : Option (Nat × Nat) :=
  let p := undistort src (((Rex.int x).sub (fieldAt src 32)).div (fieldAt src 24)) (((Rex.int y).sub (fieldAt src 36)).div (fieldAt src 28))
  some (rexStored p.1, rexStored p.2)

/-- The bilinear interpolation of four numbers with weights a and b. -/
def bilinear (a b n00 n10 n01 n11 : Rex) : Rex :=
  let a' := (Rex.int 1).sub a
  let b' := (Rex.int 1).sub b
  ((((a'.mul b').mul n00).add ((a.mul b').mul n10)).add ((a'.mul b).mul n01)).add ((a.mul b).mul n11)

/-- The value between four nodes, from the sixteenths across and down. -/
def gridMix (fx fy : Nat) (l : List (Option (Nat × Nat))) : Option (Nat × Nat) :=
  match l with
  | [some a, some b, some c, some d] =>
    let mix (f : Nat × Nat → Nat) := rex32 (bilinear ((Rex.int fx).div (.int 16)) ((Rex.int fy).div (.int 16)) (.f32 (f a)) (.f32 (f b))
      (.f32 (f c)) (.f32 (f d)))
    some (mix Prod.fst, mix Prod.snd)
  | _ => Config.gridHole fx fy l

/-- The grid value at (x, y) of a grid whose node (0, 0) lies at (x0, y0). -/
def gridAt (node : Nat → Nat → Option (Nat × Nat)) (x0 y0 x y : Nat) : Option (Nat × Nat) :=
  let i := x0 + (x - x0) / 16 * 16
  let j := y0 + (y - y0) / 16 * 16
  if x = i ∧ y = j then node i j
  else gridMix (x - i) (y - j) [node i j, node (i + 16) j, node i (j + 16), node (i + 16) (j + 16)]

/-! ### Rolling shutter and samples (R181) -/

/-- The sampled position of a source with RS, from the angular rate at FS_TIME in the vehicle frame and the grid position. -/
def shutter (src : List Byte) (rate : List Nat) (p : Nat × Nat) : Nat × Nat :=
  let u0 := Rex.f32 p.1
  let v0 := Rex.f32 p.2
  let w := (sourceQ src).conj.rotate ⟨.f64 (rate.getD 0 0), .f64 (rate.getD 1 0), .f64 (rate.getD 2 0)⟩
  let dt := ((v0.sub ((Rex.int (leAt src 10 2)).div (.int 2))).mul (.int (leAt src 12 4))).div (.int 256000000000)
  let fx := fieldAt src 24
  let fy := fieldAt src 28
  let cx := fieldAt src 32
  let cy := fieldAt src 36
  (rex32 (u0.add (dt.mul (((Rex.fn .neg fx).mul w.y).add ((v0.sub cy).mul w.z)))),
   rex32 (v0.add (dt.mul ((fy.mul w.x).sub ((u0.sub cx).mul w.z)))))

/-- The colour of a pixel of a CFA pattern: 0 R, 1 G, 2 B. -/
def cfaColour (cfa : Nat) (r c : Int) : Nat :=
  let odd (a b : Nat) := if c % 2 = 0 then a else b
  let row (a b d e : Nat) := if r % 2 = 0 then odd a b else odd d e
  if cfa = 1 then row 0 1 1 2 else if cfa = 2 then row 1 0 2 1 else if cfa = 3 then row 1 2 0 1 else row 2 1 1 0

/-- The pixels whose mean is a channel of a CFA pattern at a pixel: bilinear interpolation within its colour plane. -/
def planeNeighbours (cfa ch : Nat) (r c : Int) : List (Int × Int) :=
  if cfa = 0 ∨ cfaColour cfa r c = ch then [(r, c)]
  else if ch = 1 then [(r - 1, c), (r, c - 1), (r, c + 1), (r + 1, c)]
  else if cfaColour cfa r c ≠ 1 then [(r - 1, c - 1), (r - 1, c + 1), (r + 1, c - 1), (r + 1, c + 1)]
  else if cfaColour cfa r (c + 1) = ch then [(r, c - 1), (r, c + 1)]
  else [(r - 1, c), (r + 1, c)]

/-- A channel at a pixel of an image of h rows of w pixels. -/
def colourAt (cfa ch w h : Nat) (px : Nat → Nat → Nat) (r c : Nat) : Rex :=
  let l := planeNeighbours cfa ch r c
  let inside := l.filter fun (p : Int × Int) => decide (0 ≤ p.1 ∧ p.1 < (h : Int) ∧ 0 ≤ p.2 ∧ p.2 < (w : Int))
  let vals := inside.map fun p => px p.1.toNat p.2.toNat
  if inside.length = l.length then (Rex.int (vals.foldl (· + ·) 0 : Nat)).div (.int l.length)
  else .int (Config.edgeColour vals)

/-- The integer part of a value that is not negative. -/
def fpFloor : FVal → Nat
  | .fin false m e => if 0 ≤ e then m * 2 ^ e.toNat else m / 2 ^ (-e).toNat
  | _ => 0

/-- A formula's value as a 16-bit number. -/
def rexU16 (e : Rex) : Nat := min 65535 (Config.evalInt e).toNat

/-- A channel sampled bilinearly at a position inside the image, rounded to nearest, ties to even. -/
def sampleCh (cfa ch w h : Nat) (px : Nat → Nat → Nat) (p : Nat × Nat) : Nat :=
  let c := fpFloor (fpDecode .fp32 p.1)
  let r := fpFloor (fpDecode .fp32 p.2)
  let at' (r c : Nat) := colourAt cfa ch w h px (min r (h - 1)) (min c (w - 1))
  rexU16 (bilinear ((Rex.f32 p.1).sub (.int c)) ((Rex.f32 p.2).sub (.int r)) (at' r c) (at' r (c + 1)) (at' (r + 1) c) (at' (r + 1) (c + 1)))

/-! ### Projection onto a panel (R182-R184) -/

/-- A point of a source's frame, or a direction, in a panel's frame. -/
def pointToPanel (p src : List Byte) (v : Vec3) : Vec3 :=
  (panelQ p).conj.rotate ((((sourceQ src).rotate v).add (sourceT src)).sub (panelT p))

def directionToPanel (p src : List Byte) (v : Vec3) : Vec3 := (panelQ p).conj.rotate ((sourceQ src).rotate v)

/-- The nearest cell of a place in a panel's frame, and its distance from the panel's origin as FP32: the inverse of R171; none
behind the panel. -/
def panelCell (p : List Byte) (v : Vec3) : Option (Int × Int × Nat) :=
  let cell (a b : Rex) := (Config.evalInt (((fieldAt p 8).mul a).add (fieldAt p 16)),
    Config.evalInt (((fieldAt p 12).mul b).add (fieldAt p 20)), rex32 v.norm)
  if leAt p 4 1 = 0 then (if rexPos v.z then some (cell (v.x.div v.z) (v.y.div v.z)) else none)
  else
    let r := rexSqrt ((v.x.mul v.x).add (v.z.mul v.z))
    if rexPos r then some (cell (.atan2 v.x v.z) (v.y.div r)) else none

/-- (xn, yn, 1) of a pixel by the forward grid, times a depth. -/
def pixelRay (src : List Byte) (x y : Nat) (z : Nat × Nat → Rex) : Option Vec3 :=
  (gridAt (forwardNode src) 0 0 x y).map fun n => Vec3.scale (z n) ⟨.f32 n.1, .f32 n.2, .int 1⟩

/-- A depth pixel of 0.25 mm units (R111, R182). -/
def projectDepth (p src : List Byte) (row col z : Nat) : Option (Int × Int × Nat) :=
  (pixelRay src col row fun _ => (Rex.int z).div (.int 4000)).bind fun v => panelCell p (pointToPanel p src v)

/-- An event's pixel at DREF, or as a direction at infinity (R183). -/
def projectEvent (p src : List Byte) (x y : Nat) : Option (Int × Int × Nat) :=
  if farAway p then (pixelRay src x y fun _ => .int 1).bind fun v => panelCell p (directionToPanel p src v)
  else (pixelRay src x y fun n => .f64 (Config.eventDepth p src n)).bind fun v => panelCell p (pointToPanel p src v)

/-- The point of a record, polar or not (R182). -/
def recordPoint (a b c : Nat) (polar : Bool) : Vec3 :=
  let r := Rex.f32 a
  let az := Rex.f32 b
  let el := Rex.f32 c
  if polar then ⟨(r.mul (.fn .cos el)).mul (.fn .cos az), (r.mul (.fn .cos el)).mul (.fn .sin az), r.mul (.fn .sin el)⟩
  else ⟨r, az, el⟩

def projectPoint (p src : List Byte) (a b c : Nat) (polar : Bool) : Option (Int × Int × Nat) :=
  panelCell p (pointToPanel p src (recordPoint a b c polar))

/-! ### Views (R189, R190) -/

/-- Y of ITU-R BT.601 limited range, of 8-bit R, G and B. -/
def lumaOf (r g b : Rex) : Rex :=
  (Rex.int 16).add (((((Rex.int 299).mul r).add ((Rex.int 587).mul g)).add ((Rex.int 114).mul b)).mul ((Rex.int 219).div (.int 255000)))

/-- The full-range luma of R, G and B. -/
def grey (r g b : Rex) : Rex := ((((Rex.int 299).mul r).add ((Rex.int 587).mul g)).add ((Rex.int 114).mul b)).div (.int 1000)

/-- Cb and Cr. -/
def chromaBlue (r g b : Rex) : Rex := ((b.sub (grey r g b)).mul ((Rex.int 224000).div (.int (255 * 1772)))).add (.int 128)

def chromaRed (r g b : Rex) : Rex := ((r.sub (grey r g b)).mul ((Rex.int 224000).div (.int (255 * 1402)))).add (.int 128)

/-- Two pixels as Cb, Y, Cr, Y, their chroma averaged. -/
def yuvPair : List Nat → List Byte
  | [r0, g0, b0, r1, g1, b1] =>
    let i (n : Nat) := Rex.int n
    let mean (a b : Rex) := (a.add b).div (.int 2)
    [mean (chromaBlue (i r0) (i g0) (i b0)) (chromaBlue (i r1) (i g1) (i b1)), lumaOf (i r0) (i g0) (i b0),
      mean (chromaRed (i r0) (i g0) (i b0)) (chromaRed (i r1) (i g1) (i b1)), lumaOf (i r1) (i g1) (i b1)].flatMap fun e =>
        leBytes 1 (min 255 (Config.evalInt e).toNat)
  | _ => [0, 0, 0, 0]

/-- The fraction of the way that the reference attitude moves in a turn: P/STAB_TAU, at most 1 (R190). -/
def stabFraction (v : List Byte) (p : Nat) : Nat :=
  let f := rex64 (((Rex.int p).div (.int 256000000000)).div (fieldAt v 44))
  let one := (fpRound .fp64 (.fin false 1 0)).bits
  if fpCmp (fpDecode .fp64 f) (fpDecode .fp64 one) == -1 then f else one

/-- The rotation from attitude `att` to the reference attitude, its angle clamped to STAB_LIM. -/
def stabTurn (v : List Byte) (att ref : List Nat) : List Nat :=
  let q := (Quat.ofNums att).conj.mul (Quat.ofNums ref)
  let half := rexSqrt (((q.x.mul q.x).add (q.y.mul q.y)).add (q.z.mul q.z))
  let angle := (Rex.int 2).mul (.atan2 half (rexSqrt (q.w.mul q.w)))
  if rexPos (angle.sub (fieldAt v 40)) then Config.slerp (Quat.ofNums []).nums q.nums (rex64 ((fieldAt v 40).div angle)) else q.nums

end Sys2Proof.Machine
end

