-- ==== Sys2Proof/Machine/Motion.lean ====
section
/-! DEFINITION. The formulas of the Motion Estimator: propagation, measurements and their deviations, traces, tracks
(06_board_fusion.md R193-R197). Each formula stands as the spec writes it; its rounding is open, and so are the covariance's
Jacobians and the gain of a Kalman update, which the spec does not write out (log entry 2). -/

namespace Sys2Proof.Machine

open Sys2Proof.Config (Rex)

/-! ### The numbers (R193): attitude 0-3, velocity 4-6, position 7-9, gyro bias 10-12, accelerometer bias 13-15, the 15 × 15
covariance by rows 16-240 in the order attitude, velocity, position, gyro bias, accelerometer bias, angular rate 241-243 -/

def numAt (n : List Nat) (i : Nat) : Rex := .f64 (n.getD i 0)

def numVec (n : List Nat) (i : Nat) : Vec3 := ⟨numAt n i, numAt n (i + 1), numAt n (i + 2)⟩

def Vec3.nums (v : Vec3) : List Nat := [rex64 v.x, rex64 v.y, rex64 v.z]

def attitudeOf (n : List Nat) : Quat := ⟨numAt n 0, numAt n 1, numAt n 2, numAt n 3⟩

/-- The velocity in the vehicle frame. -/
def bodyVelocity (n : List Nat) : Vec3 := (attitudeOf n).conj.rotate (numVec n 4)

/-- The forward speed, as FP64. -/
def meForward (n : List Nat) : Nat := rex64 (bodyVelocity n).x

/-- The trace of rows of the covariance, as FP64. -/
def traceOf (n : List Nat) (rows : List Nat) : Nat := rex64 (rexSum (rows.map fun k => numAt n (16 + 16 * k)))

/-- The trace of the velocity and position covariance (R196); that of the whole covariance (R200). -/
def meTrace (n : List Nat) : Nat := traceOf n [3, 4, 5, 6, 7, 8]

def meTraceAll (n : List Nat) : Nat := traceOf n (List.range 15)

/-- A time in units of 1/256 ns, in seconds. -/
def secondsOf (u : Int) : Rex := (Rex.int u).div (.int 256000000000)

/-! ### Propagation (R193, R196) -/

/-- The gravity that the propagation takes off. -/
def gravity : Vec3 := ⟨.int 0, .int 0, (Rex.int 980665).div (.int 100000)⟩

/-- A sample of an IMU entry in the vehicle frame: three raw values by their scale, turned by the mount. -/
def imuVector (e : List Byte) (scale : Nat) (raw : List Nat) : Vec3 :=
  let v (k : Nat) : Rex := (Rex.int (signed 32 (raw.getD k 0))).mul (fieldAt e scale)
  (quatField e 16).rotate ⟨v 0, v 1, v 2⟩

/-- propagate(g, a, t) by the IMU slot and the six raw values of a sample, over a time in units (R193). -/
def mePropagate (b : List Byte) (n : List Nat) (sample : List Nat) (u : Nat) : List Nat :=
  let e := (b.drop (64 + 64 * sample.getD 0 0)).take 64
  let dt := secondsOf u
  let w := (imuVector e 8 (sample.drop 1)).sub (numVec n 10)
  let f := (imuVector e 12 (sample.drop 4)).sub (numVec n 13)
  let q := (attitudeOf n).mul (Quat.exp (Vec3.scale (dt.div (.int 2)) w))
  let v := (numVec n 4).add (Vec3.scale dt ((q.rotate f).sub gravity))
  let p := (numVec n 7).add (Vec3.scale dt v)
  q.nums ++ v.nums ++ p.nums ++ (n.drop 10).take 6 ++ (Config.covPropagate [leAt b 44 4, leAt b 48 4] n (w.nums ++ f.nums) u).take 225 ++
    w.nums

/-- The state a time on, at constant velocity and angular rate (R196). -/
def meCoast (n : List Nat) (u : Nat) : List Nat :=
  let dt := secondsOf u
  let w := numVec n 241
  ((attitudeOf n).mul (Quat.exp (Vec3.scale (dt.div (.int 2)) w))).nums ++ (numVec n 4).nums ++
    ((numVec n 7).add (Vec3.scale dt (numVec n 4))).nums ++ (n.drop 10).take 6 ++ (Config.covCoast n u).take 225 ++ w.nums

/-- The numbers after a reset (R196): roll and pitch from the mean accelerometer vector, yaw and biases kept, velocity forward at
the mean of the rear wheels' speeds or zero, position zero, covariance initial. -/
def meReset (n : List Nat) (acc : Nat) (rear : List Nat) : List Nat :=
  let q := Quat.ofNums ((Config.levelAttitude (n.take 4) acc).take 4)
  let mean := (rexSum (rear.map .f64)).div (.int rear.length)
  let v := if rear.isEmpty then ⟨.int 0, .int 0, .int 0⟩ else q.rotate ⟨mean, .int 0, .int 0⟩
  q.nums ++ v.nums ++ [0, 0, 0] ++ (n.drop 10).take 6 ++ (Config.meInit.drop 16).take 225 ++ (n.drop 241).take 3

/-! ### Measurements (R194) -/

/-- The rows of a measurement by table b, each its measured value, the state's value and its deviation: 0 forward speed from the
rear wheels' speeds, 1 non-holonomic, 2 yaw from the wheels' speeds RL, RR, 3 yaw from a raw steering value, 4 zero velocity. -/
def measureRows (b : List Byte) (kind : Nat) (args : List Nat) (n : List Nat) : List (Rex × Rex × Rex) :=
  let body := bodyVelocity n
  let yaw := numAt n 243
  let width := fieldAt b 20
  let base := fieldAt b 24
  let wheel := fieldAt b 52
  let still := (Rex.int 1).div (.int 100)
  if kind = 0 then [((rexSum (args.map .f64)).div (.int args.length), body.x, wheel)]
  else if kind = 1 then [(.int 0, body.y, fieldAt b 56), (.int 0, body.z, fieldAt b 56)]
  else if kind = 2 then [(((numAt args 1).sub (numAt args 0)).div width, yaw, wheel.div width)]
  else if kind = 3 then
    let steer := (b.drop 448).take 16
    let raw := args.getD 0 0
    let signal : Int := if leAt steer 7 1 = 1 then signed (leAt steer 4 1) raw else raw
    let angle := ((Rex.int signal).mul (fieldAt steer 8)).add (fieldAt steer 12)
    [((body.x.mul (.fn .tan angle)).div base, yaw, wheel.div base)]
  else [(.int 0, numAt n 4, still), (.int 0, numAt n 5, still), (.int 0, numAt n 6, still)]

/-- The Kalman update of a measurement. -/
def meUpdate (b : List Byte) (kind : Nat) (args : List Nat) (n : List Nat) : List Nat :=
  Config.kalman kind ((measureRows b kind args n).map fun r => (rex64 r.1, rex64 r.2.1, rex64 r.2.2)) n

/-! ### A covariance is positive definite (R195) -/

/-- FP32 numbers as integers of one scale. -/
def scaledInts (l : List Nat) : List Int :=
  l.map fun x => match fpDecode .fp32 x with
    | .fin neg m e => (if neg then -1 else 1) * ((m * 2 ^ (e + 149).toNat : Nat) : Int)
    | _ => 0

/-- Row i, column j of a symmetric 6 × 6 matrix from its upper triangle by rows. -/
def upperAt (l : List Int) (i j : Nat) : Int :=
  let a := min i j
  l.getD (a * 6 - a * (a - 1) / 2 + (max i j - a)) 0

/-- Symmetric elimination of a matrix by its first row, each row multiplied by the pivot, which is positive: the sign of every
leading minor of what remains is that of the whole. -/
def eliminate : Nat → List (List Int) → Bool
  | 0, _ => true
  | _ + 1, [] => true
  | n + 1, row :: rest =>
    let p := row.headD 0
    decide (0 < p) && eliminate n (rest.map fun r =>
      (List.range (r.length - 1)).map fun k => p * r.getD (k + 1) 0 - r.headD 0 * row.getD (k + 1) 0)

/-- The covariance whose upper triangle has these FP32 numbers is positive definite. -/
def posDef (l : List Nat) : Bool :=
  let m := scaledInts l
  eliminate 6 ((List.range 6).map fun i => (List.range 6).map fun j => upperAt m i j)

/-! ### Tracks (R197): position 0-2, velocity 3-5, covariance by rows 6-41, in FP64 -/

/-- A new track, at the detection's position. -/
def trackBirth (d : List Byte) : List Nat := (vecField d 4).nums ++ (Config.trackStart d).take 39

/-- A track over a signed time in units: constant velocity. -/
def trackPredict (b : List Byte) (n : List Nat) (u : Int) : List Nat :=
  ((numVec n 0).add (Vec3.scale (secondsOf u) (numVec n 3))).nums ++ (n.drop 3).take 3 ++
    (Config.trackCov (leAt b 60 4) n (unsign 128 u)).take 36

/-- The squared Mahalanobis distance of a detection: yᵀ S⁻¹ y for y the difference of positions and S the sum of their
covariances, by the adjugate of S. -/
def trackDist (n : List Nat) (d : List Byte) : Nat :=
  let y := (vecField d 4).sub (numVec n 0)
  let s (i j k : Nat) : Rex := (numAt n (6 + 6 * i + j)).add (fieldAt d (16 + 4 * k))
  let a := s 0 0 0
  let b := s 0 1 1
  let c := s 0 2 2
  let e := s 1 1 3
  let f := s 1 2 4
  let g := s 2 2 5
  let c00 := (e.mul g).sub (f.mul f)
  let c01 := (c.mul f).sub (b.mul g)
  let c02 := (b.mul f).sub (c.mul e)
  let c11 := (a.mul g).sub (c.mul c)
  let c12 := (b.mul c).sub (a.mul f)
  let c22 := (a.mul e).sub (b.mul b)
  let det := rexSum [a.mul c00, b.mul c01, c.mul c02]
  let two := Rex.int 2
  rex64 ((rexSum [(y.x.mul y.x).mul c00, (y.y.mul y.y).mul c11, (y.z.mul y.z).mul c22, (two.mul (y.x.mul y.y)).mul c01,
    (two.mul (y.x.mul y.z)).mul c02, (two.mul (y.y.mul y.z)).mul c12]).div det)

/-- A track's position variance trace. -/
def trackTrace (n : List Nat) : Nat := rex64 (rexSum [numAt n 6, numAt n 13, numAt n 20])

end Sys2Proof.Machine
end

