-- ==== Sys2Proof/Machine/Time.lean ====
section
/-! DEFINITION. Device Time, Network Time and the backup counter as they run (R41-R44, R55-R57, R63-R68, R72, R90). -/

namespace Sys2Proof.Machine

open Reg

/-- Domain d: 0 is A, any other number B. -/
def State.dom (s : State) (d : Nat) : HgDom := if d = 0 then s.hg.domA else s.hg.domB

def State.setDom (s : State) (d : Nat) (x : HgDom) : State :=
  if d = 0 then { s with hg := { s.hg with domA := x } } else { s with hg := { s.hg with domB := x } }

/-- ADJ_d, in 2⁻⁴⁰ (R65). -/
def State.adj (s : State) (d : Nat) : Int := signed 32 (s.reg (HG_DOM_ADJ d)).toNat

/-- HG_SLEW_LIM in 2⁻⁴⁰, rounded down (R66, R72). -/
def State.slewLim (s : State) : Nat := 2 ^ 40 * (s.reg HG_SLEW_LIM).toNat / 1000000

/-- The magnitude of the amortising rate (R72). -/
def State.amort (s : State) (d : Nat) : Nat := s.slewLim - (s.adj d).natAbs

/-- `k` Hourglass cycles of a domain at rate `adj`, absorbing at rate `mag` (R65, R72). -/
def HgDom.cycles (x : HgDom) (adj : Int) (mag k : Nat) : HgDom :=
  let a := clampAbs (4 * mag * k) x.rem
  { x with ofs := x.ofs + 4 * adj * k + a, rem := x.rem - a }

/-- `k` cycles of domain d; a disabled domain holds its offset (R68). -/
def State.domCycles (s : State) (d k : Nat) : HgDom :=
  if s.is (HG_DOM_CFG_EN d) then (s.dom d).cycles (s.adj d) (s.amort d) k else s.dom d

/-- `k` cycles of 4 ns of the backup counter, while its oscillator runs (R90). -/
def State.backupCycles (s : State) (k : Nat) : State :=
  if s.is HG_BK_STAT_XTAL_OK then
    let acc := s.hg.bkAcc + k * 4 * 32768
    let sub := s.hg.bkSub + acc / 1000000000
    { s with hg := { s.hg with bkAcc := acc % 1000000000, bkSub := sub % 32768,
                               bkSec := s.hg.bkSec + BitVec.ofNat 32 (sub / 32768) } }
  else s

/-- Let Device Time run on to instant `t`, in units; an instant already past changes nothing (R55, R56). -/
def State.advanceTo (s : State) (t : Nat) : State :=
  if s.hg.running ∧ s.hg.dt < t then
    let k := t / 1024 - s.hg.dt / 1024
    let a := s.domCycles 0 k
    let b := s.domCycles 1 k
    { s with hg := { s.hg with dt := t, domA := a, domB := b } }.backupCycles k
  else s

/-- One Hourglass cycle, 4 ns: what the device does when no command waits (log entry 6). -/
def State.tick (s : State) : State :=
  if s.hg.running then s.advanceTo (s.hg.dt + 1024) else s.backupCycles 1

/-- Device Time in whole nanoseconds. -/
def State.now (s : State) : Nat := s.hg.dt / 256

/-- Network Time of domain d in ns, to nearest, ties to even (R65, R84, R213). -/
def State.netTime (s : State) (d : Nat) : Nat :=
  (roundEven ((s.hg.dt : Int) * 2 ^ 32 + (s.dom d).ofs) (2 ^ 40)).toNat

/-- The domain that HG_ACTIVE selects for outputs. -/
def State.actDom (s : State) : Nat := if s.hg.act then 1 else 0

/-- The DOMAIN byte of outputs: 0x41 or 0x42, and 0x00 while the selected domain is disabled or its letter still waits for
a turn start (R43, R68). -/
def State.domLetter (s : State) : Nat :=
  if s.hg.letter && s.is (HG_DOM_CFG_EN s.actDom) then 0x41 + s.actDom else 0

/-- Put `v` ns into the published epoch, with the step count and the domain letter in force (R63). -/
def State.putEpoch (s : State) (v : Nat) : State :=
  let sec := v / 1000000000
  (((s.setReg HG_EPOCH_NT_NS (BitVec.ofNat 32 (v % 1000000000))).setReg HG_EPOCH_NT_SEC_LO (BitVec.ofNat 32 sec)).setReg
    HG_EPOCH_NT_SEC_HI (BitVec.ofNat 32 (sec / 2 ^ 32 % 65536))).setReg HG_EPOCH_META
      (BitVec.ofNat 32 (s.get (whole (HG_DOM_STEP s.actDom)) % 65536 + s.domLetter * 65536))

/-- Publish the epoch in Network Time of the active domain (R63): the Network Time of the start of turn N less N × P is
the epoch plus the domain's offset. Before 0 it is outside the range of R65, and the value is free (log entry 2). -/
def State.publishEpoch (s : State) : State :=
  let v := roundEven ((s.pair HG_TURN_EPOCH_LO : Int) * 2 ^ 40 + (s.dom s.actDom).ofs) (2 ^ 40)
  if 0 ≤ v then s.putEpoch v.toNat else s.took.putEpoch s.free

/-- The output time triple of R43 for Network Time `nt` in ns. -/
def timeTriple (nt step letter : Nat) : List Byte :=
  leBytes 4 (nt % 1000000000) ++ leBytes 6 (nt / 1000000000) ++ leBytes 2 step ++ leBytes 1 letter ++ leBytes 3 0

/-- The output time triple at this instant, in the active domain. -/
def State.outTime (s : State) : List Byte :=
  timeTriple (s.netTime s.actDom) (s.get (whole (HG_DOM_STEP s.actDom))) s.domLetter

/-- Device Time in the 16 bytes of R41. -/
def dtBytes (units : Nat) : List Byte := leBytes 9 units ++ leBytes 7 0

end Sys2Proof.Machine
end

