-- ==== Sys2Proof/Machine/Shown.lean ====
section
/-! DEFINITION. What registers show of state that is held elsewhere, where it takes more than a field: the partition map and
the roles it gives (R240-R244, R254), the Skein pool (R389, R412), and the Track (R487, R518). -/

namespace Sys2Proof.Machine

open Reg

def State.hoop (s : State) (h : Nat) : Hoop := spGet (fun _ => {}) s.eng.hoops h

/-- The map in force until the first commit (R242). -/
def pmapReset : List Byte :=
  List.replicate 28 1 ++ [3] ++ List.replicate 7 2 ++ [28, 0, 0, 0] ++ (List.range 28).map (BitVec.ofNat 8 ·) ++
    List.replicate 4 0xFF ++ List.replicate 56 0

def State.pmap (s : State) : List Byte := (s.eng.pmap.map (·.bytes)).getD pmapReset

/-- SCHED_COUNT. -/
def State.schedCount (s : State) : Nat := leAt s.pmap 36 1

/-- The hoop is retired (R254). -/
def State.retired (s : State) (h : Nat) : Bool :=
  if h < 32 then (s.reg TE_RETIRED_LO).getLsbD h else (s.reg TE_RETIRED_HI).getLsbD (h - 32)

/-- The physical hoop of logical hoop j, by the relocation in force (R258) or by the map. -/
def State.physical (s : State) (j : Nat) : Nat :=
  match s.eng.reloc.logical with
  | some l => l.getD j 0xFF
  | none => leAt s.pmap (40 + j) 1

/-- The logical hoop that physical hoop h is. -/
def State.logicalOf (s : State) (h : Nat) : Option Nat := firstIdx (fun j => s.physical j == h) s.schedCount

/-- The role that a map gives a hoop: 0 OFF, 1 SCHED, 2 TOKEN, 3 SPARE. -/
def roleIn (m : List Byte) (h : Nat) : Nat := leAt m h 1

/-- The role of a hoop. A retired one has left its partition; after a relocation the logical hoops alone are SCHED. -/
def State.role (s : State) (h : Nat) : Nat :=
  if s.retired h then 0
  else if (s.logicalOf h).isSome then 1
  else if roleIn s.pmap h = 1 then 0
  else roleIn s.pmap h

/-- What TE_HOOP_STAT[h] shows (R263): ROLE is that of the partition map, SCHED for a spare that took over a logical hoop. -/
def State.hoopStat (s : State) (h : Nat) : Nat :=
  let b (x : Bool) (i : Nat) := if x then 2 ^ i else 0
  (if (s.logicalOf h).isSome then 1 else roleIn s.pmap h % 4) + b (s.retired h) 2 + b ((s.hoop h).firing.isSome || (s.eng.sched.running.isSome && s.role h == 1)) 3 +
    256 * (s.logicalOf h).getD 0 + 2 ^ 16 * s.get (TE_HOOP_STAT_ECC_COR h) +
    2 ^ 24 * s.get (TE_HOOP_STAT_WIT_FLAG h)

/-- What TE_STATUS shows (R263). -/
def State.engStatus (s : State) : Nat :=
  let b (x : Bool) (i : Nat) := if x then 2 ^ i else 0
  b s.eng.sched.running.isSome 0 + b s.eng.sched.pending.isSome 1 + b (s.is TE_STATUS_GOV_HOLD) 2 +
    b s.eng.reloc.logical.isSome 3

/-! ### The Skein Manager -/

/-- The pool's size in 2 MiB units. -/
def State.skSize (s : State) : Nat := (s.reg SK_POOL_SIZE).toNat

/-- Free pool in 4 KiB units (R412). -/
def State.skFree (s : State) : Nat :=
  (s.skSize - s.sk.cut.length) * 512 + (s.sk.free.map fun b => 2 ^ b.2).foldl (· + ·) 0

/-- The units of 4 KiB of the Skeins in some states. -/
def State.skUnits (s : State) (p : SkSt → Bool) : Nat :=
  (s.sk.skeins.map fun x => match x.2 with
    | some x => if p x.st then 2 ^ x.log else 0
    | none => 0).foldl (· + ·) 0

/-- Spill granules in use (R412). -/
def State.spillUsed (s : State) : Nat := s.skUnits fun x => x == .spilling || x == .spilled || x == .returning

def State.seq? (s : State) (q : Nat) : Option Seq := spGet (fun _ => none) s.sk.seqs q

def State.skein? (s : State) (i : Nat) : Option Skein := spGet (fun _ => none) s.sk.skeins i

/-- Some Skein is in state `x`. -/
def State.someSkein (s : State) (x : SkSt) : Bool := s.sk.skeins.any fun p => (p.2.map fun y => y.st == x).getD false

/-- What SK_SEQ_STAT[q] shows (R413). -/
def State.seqStat (s : State) (q : Nat) : Nat :=
  match s.seq? q with
  | none => 0
  | some x => (if x.freeing then 3 else if x.exhausted then 2 else 1) + x.tenant * 16 + x.lane * 256 + x.places.length * 1024 +
      (if x.ring then 2 ^ 16 else 0)

/-- What SK_STATUS shows (R413). -/
def State.skStatus (s : State) : Nat :=
  let b (x : Bool) (i : Nat) := if x then 2 ^ i else 0
  s.sk.seqs.length + b (s.someSkein .spilling) 16 + b (s.someSkein .returning) 17 +
    b (s.sk.seqs.any fun p => (p.2.map (·.exhausted)).getD false) 18

/-! ### The Track -/

/-- The records that a tenant's ring holds at most (R497). -/
def State.cqSize (s : State) (t : Nat) : Nat := 2 ^ s.get (TK_CQ_CFG_LOG2 t)

/-- The tenant's ring has room: HEAD and TAIL are ring indices, and equal ones mean an empty ring (log entry 18). -/
def State.cqRoom (s : State) (t : Nat) : Bool :=
  s.is (TK_CQ_CFG_EN t) && ((s.reg (TK_CQ_HEAD t)).toNat + 1) % s.cqSize t != (s.reg (TK_CQ_TAIL t)).toNat % s.cqSize t

/-- What TK_OUT[t] shows (R487, R519). -/
def State.tkOut (s : State) (t : Nat) : Nat :=
  spGet (fun _ => 0) s.track.out t +
    (if !(spGet (fun _ => []) s.track.recs t).isEmpty && !s.cqRoom t then 2 ^ 16 else 0)

/-- Staging slots in use of a KIND (R504). -/
def State.slotsUsed (s : State) (k : Nat) : Nat := (s.track.staged.filter fun x => x.kind == k).length

/-- Skips among the 64 most recent turns (R515). -/
def State.skip64 (s : State) : Nat := (s.track.skips.filter id).length

end Sys2Proof.Machine
end

