-- ==== Sys2Proof/Machine/Pattern.lean ====
section
/-! DEFINITION. The Pattern table's fields, the layout of a Board buffer, the grid banks of the Weft, the table it expands and
its readiness (06_board_fusion.md R172-R176, R187, R203). -/

namespace Sys2Proof.Machine

open Reg

def roundUp (n m : Nat) : Nat := (n + m - 1) / m * m

/-! ### The Pattern table (R175) -/

/-- The entries in use, each as its bytes. -/
def patPanel (b : List Byte) (i : Nat) : List Byte := (b.drop (64 + 64 * i)).take 64

def patSource (b : List Byte) (j : Nat) : List Byte := (b.drop (576 + 128 * j)).take 128

def patView (b : List Byte) (v : Nat) : List Byte := (b.drop (4672 + 64 * v)).take 64

def patPanels (b : List Byte) : Nat := min (leAt b 17 1) 8

def patSources (b : List Byte) : Nat := min (leAt b 18 1) 32

def patTenant (b : List Byte) : Nat := leAt b 16 1 % 8

/-- A view's EN. -/
def patViewEn (b : List Byte) (v : Nat) : Bool := leAt (patView b v) 3 1 % 2 == 1

/-- The views whose EN is set. -/
def patViews (b : List Byte) : List Nat := (List.range 4).filter (patViewEn b)

/-- A source's VIEW_ONLY. -/
def viewOnly (src : List Byte) : Bool := leAt src 5 1 / 2 % 2 == 1

/-- The painted sources, by index. -/
def patPainted (b : List Byte) : List Nat := (List.range (patSources b)).filter fun j => !viewOnly (patSource b j)

/-- The first source entry of a stream. -/
def patSourceOf (b : List Byte) (stream : Nat) : Option Nat :=
  firstIdx (fun j => leAt (patSource b j) 0 1 == stream) (patSources b)

/-! ### The layout of a buffer (R172, R173) -/

/-- Bytes per cell of a layer kind. -/
def cellBytes (kind : Nat) : Nat := if kind = 0 then 2 else if kind = 1 then 6 else 4

def panelW (p : List Byte) : Nat := leAt p 0 2

def panelH (p : List Byte) : Nat := leAt p 2 2

def panelLayers (p : List Byte) : Nat := min (leAt p 5 1) 8

/-- The kind of a layer. -/
def layerKind (p : List Byte) (l : Nat) : Nat := leAt p (56 + l) 1

/-- The bytes of one row of a layer. -/
def rowPitch (p : List Byte) (l : Nat) : Nat := roundUp (panelW p * cellBytes (layerKind p l)) 64

/-- The bytes of a layer. -/
def layerBytes (p : List Byte) (l : Nat) : Nat := roundUp (rowPitch p l * panelH p) 4096

/-- The bytes of the layers of a panel below layer `l`. -/
def layersBytes (p : List Byte) (l : Nat) : Nat := ((List.range l).map (layerBytes p)).foldl (· + ·) 0

/-- The bytes of the layers of the panels below panel `i`. -/
def panelsBytes (b : List Byte) (i : Nat) : Nat :=
  ((List.range i).map fun k => layersBytes (patPanel b k) (panelLayers (patPanel b k))).foldl (· + ·) 0

/-- The bytes of a panel's validity map. -/
def mapBytes (p : List Byte) : Nat := roundUp (panelW p / 16 * (panelH p / 16)) 4096

/-- The offset of panel i's validity map. -/
def mapOff (b : List Byte) (i : Nat) : Nat :=
  panelsBytes b (patPanels b) + ((List.range i).map fun k => mapBytes (patPanel b k)).foldl (· + ·) 0

/-- The size of one Board buffer. -/
def boardBytes (b : List Byte) : Nat := mapOff b (patPanels b)

/-- The virtual address of a buffer. -/
def boardVa (b : List Byte) (buf : Nat) : Nat := leAt b 0 8 + buf * boardBytes b

/-- The offset of a cell in its buffer. -/
def cellOff (b : List Byte) (i l x y : Nat) : Nat :=
  let p := patPanel b i
  panelsBytes b i + layersBytes p l + y * rowPitch p l + x * cellBytes (layerKind p l)

/-- The bytes of a raster row of a view, its raster, and the stride between rasters (R176). -/
def rasterRow (v : List Byte) : Nat := leAt v 4 2 * (if leAt v 2 1 = 0 then 3 else 2)

def rasterBytes (v : List Byte) : Nat := rasterRow v * leAt v 6 2

def rasterStride (b : List Byte) : Nat := roundUp (((patViews b).map fun v => rasterBytes (patView b v)).foldl max 0) 4096

/-- The virtual address of the raster of view v in buffer k. -/
def rasterVa (b : List Byte) (v k : Nat) : Nat := leAt b 8 8 + (2 * v + k) * rasterStride b

/-! ### Banks and readiness (R187) -/

/-- The staged value of a register, or the value in force where none is staged. -/
def State.stagedReg (s : State) (off : Nat) : Word :=
  match spGet (fun _ => none) s.staged off, regRow off with
  | some v, some r => (s.reg off &&& ~~~ BitVec.ofNat 32 r.st) ||| v
  | _, _ => s.reg off

/-- Some output of a turn is still to come: its Board is being painted, it is open, or a view frame of it has not left. -/
def State.turnLive (s : State) (r n : Nat) : Bool :=
  (r == s.hg.run && s.is HG_TURN_CTL_ACTIVE && n == s.hg.nextTurn) ||
    s.loom.turns.any (fun x => x.run == r && x.turn == n) ||
    s.loom.ports.any fun p =>
      p.2.fifo.any (fun f => f.run == r && f.turn == n) ||
        (p.2.wire.map fun w => w.1.run == r && w.1.turn == n && decide (s.hg.dt < w.2.1)).getD false

/-- A turn that is open depends on the bank. -/
def State.bankUsed (s : State) (b : Nat) : Bool := s.weft.uses.any fun u => u.2.2 == b && s.turnLive u.1 u.2.1

/-- The bank is free. -/
def State.bankFree (s : State) (b : Nat) : Bool := !(s.weft.tab.isSome && s.weft.bank == b) && !s.bankUsed b

/-- The free bank: the one that an expansion uses, else the lowest. -/
def State.freeBank (s : State) : Option Nat := (s.weft.exp.map (·.bank)).orElse fun _ => firstIdx s.bankFree 3

/-- A pending commit carries the staged table. -/
def State.carried (s : State) (x : Staged) : Bool :=
  (s.track.commit.map fun c => c.gen == x.gen && c.units.testBit (if x.kind = 0 then 0 else x.kind)).getD false

/-- The staged Pattern table that the free bank expands. -/
def State.patPick (s : State) : Option Staged :=
  let all := s.track.staged.filter fun x => x.kind == 1
  (all.find? s.carried).orElse fun _ => all.foldl (fun m x => match m with
    | some y => if y.ord < x.ord then some x else m
    | none => some x) none

/-- PHASE and TRIG_DIV of every source whose stream names a trigger equal what is staged for that trigger. -/
def State.phasesOk (s : State) (b : List Byte) : Bool :=
  (List.range (patSources b)).all fun j =>
    let src := patSource b j
    let st := leAt src 0 1 % 64
    let n := s.get (SP_STR_SRC_TRIG st)
    !s.is (SP_STR_SRC_TRIG_VALID st) ||
      ((s.stagedReg (HG_TRIG_PHASE n)).toNat == leAt src 20 4 && bitsOf (s.stagedReg (HG_TRIG_CFG n)).toNat 4 4 == leAt src 7 1)

/-- The expansion of a staged table is complete. -/
def State.expanded (s : State) (x : Staged) : Bool := (s.weft.exp.map fun e => e.ord == x.ord && e.done).getD false

/-- READY (R203). -/
def State.wfReady (s : State) : Bool :=
  match s.patPick with
  | none => true
  | some x => s.expanded x && (!s.carried x || s.phasesOk x.bytes)

/-- What WF_STATUS shows (R203). -/
def State.wfStatus (s : State) : Nat :=
  let b (x : Bool) (i : Nat) := if x then 2 ^ i else 0
  s.weft.bank + s.weft.viewBank * 4 + s.freeBank.getD 3 * 16 + b ((s.weft.exp.map fun e => !e.done).getD false) 8 +
    b s.wfReady 9 + (if s.is HG_TURN_CTL_ACTIVE && s.weft.tab.isSome then s.hg.nextTurn % 3 else 0) * 2 ^ 16

/-! ### The Motion Estimator -/

/-- RUNNING (R198). -/
def State.meOn (s : State) : Bool := s.me.tab.isSome && s.is ME_CTL_EN

/-- The tracks in a state. -/
def State.trackCount (s : State) (p : Nat → Bool) : Nat :=
  (s.me.tracks.filter fun x => (x.2.map fun t => p t.st).getD false).length

end Sys2Proof.Machine
end

