-- ==== Sys2Proof/Machine/Views.lean ====
section
/-! DEFINITION. What a register read returns where the register shows state that is held elsewhere. -/

namespace Sys2Proof.Machine

open Reg

/-- HG_DOM_* (R93): offset, Network Time and servo integral of domain d; `r` is the offset within the domain's registers. -/
def hgDomView (s : State) (d r : Nat) : Option Nat :=
  let o := (s.dom d).ofs
  let nt := s.netTime d
  if r = 0x08 then some (unsign 32 (o / 2 ^ 40))
  else if r = 0x0C then some (unsign 32 (o / 2 ^ 40 / 2 ^ 32))
  else if r = 0x10 then some (unsign 8 (o / 2 ^ 32))
  else if r = 0x34 then some (unsign 32 (roundEven (s.dom d).integ (1000 * 2 ^ 40)))
  else if r = 0x38 then some (nt % 1000000000)
  else if r = 0x3C then some (nt / 1000000000)
  else if r = 0x40 then some (nt / 1000000000 / 2 ^ 32 % 65536)
  else none

/-- The entry registers of a timestamp FIFO (R87): the head entry, or zeros. -/
def tsView (q : List TsEntry) (r : Nat) : Option Nat :=
  let e := q.head?
  let nt := (e.map (·.nt)).getD 0
  if r = 0 then some ((e.map fun x => x.seqId.toNat + x.msgType.toNat * 2 ^ 16 + (if x.dom then 2 ^ 20 else 0) + 2 ^ 21).getD 0)
  else if r = 4 then some (nt % 1000000000)
  else if r = 8 then some (nt / 1000000000)
  else if r = 12 then some (nt / 1000000000 / 2 ^ 32 % 65536)
  else none

/-- The capture registers (R85): the head entry, or zeros, and the level. -/
def capView (s : State) (n r : Nat) : Option Nat :=
  let q := spGet (fun _ => []) s.hg.caps n
  let e := q.head?
  let dt := (e.map (·.dt)).getD 0
  let nt := (e.map (·.nt)).getD 0
  if r = 4 then some (setBits (s.reg (HG_CAP_STAT n)).toNat 0 3 q.length)
  else if r = 8 then some dt
  else if r = 12 then some (dt / 2 ^ 32)
  else if r = 16 then some (nt % 1000000000)
  else if r = 20 then some (nt / 1000000000)
  else if r = 24 then some (nt / 1000000000 / 2 ^ 32 % 65536 + (e.map (·.step)).getD 0 % 65536 * 65536)
  else none

/-- The registers of the Hourglass that show running state. -/
def hgView (s : State) (off : Nat) : Option Nat :=
  if off = HG_DT_LO then some s.now
  else if off = HG_DT_HI then some (s.now / 2 ^ 32)
  else if off = HG_DT_FRAC then some (s.hg.dt % 256)
  else if 0x100100 ≤ off ∧ off < 0x100200 then hgDomView s ((off - 0x100100) / 0x80) ((off - 0x100100) % 0x80)
  else if 0x100200 ≤ off ∧ off < 0x100210 then tsView s.hg.tsTx (off - 0x100200)
  else if 0x100210 ≤ off ∧ off < 0x100220 then tsView s.hg.tsRx (off - 0x100210)
  else if off = HG_TS_STAT then
    some (setBits (setBits (s.reg HG_TS_STAT).toNat 0 5 s.hg.tsTx.length) 8 5 s.hg.tsRx.length)
  else if off = HG_BK_SEC then some s.hg.bkSec.toNat
  else if off = HG_BK_SUB then some s.hg.bkSub
  else if 0x100700 ≤ off ∧ off < 0x100800 then capView s ((off - 0x100700) / 0x20) ((off - 0x100700) % 0x20)
  else none

/-- The registers of the I²C controllers that show their FIFOs (R135, R139). -/
def i2cView (s : State) (off : Nat) : Option Nat :=
  let k := (off - 0x206000) / 0x100
  let x := spGet (fun _ => {}) s.i2cs k
  if off = SP_I2C_STAT k then
    some (setBits (setBits (s.reg off).toNat 0 7 x.cmds.length) 8 7 x.rxd.length)
  else if off = SP_I2C_RXD k then some ((x.rxd.head?.map fun b => b.toNat + 256).getD 0)
  else none

/-- The registers of the ATU that show its FIFOs and its stores (R448, R449). -/
def atView (s : State) (off : Nat) : Option Nat :=
  let t := (off - 0x801000) / 0x100
  let q := spGet (fun _ => []) s.atu.faults t
  let h := q.head?
  let b (x : Bool) (i : Nat) := if x then 2 ^ i else 0
  let va := (h.map (·.va)).getD 0
  if off = AT_PTS_USED then some s.atu.pts.length
  else if off = AT_STATUS then some (if (List.range 8).any fun t => s.is (AT_INV_CTL_GO t) then 2 else 0)
  else if off < 0x801000 ∨ 0x801800 ≤ off then none
  else if off = AT_FAULT_INFO t then
    some ((h.map fun f => f.reason + f.level * 16 + b f.write 6 + f.iid * 256 + 2 ^ 15).getD 0)
  else if off = AT_FAULT_VA_LO t then some va
  else if off = AT_FAULT_VA_HI t then some (va / 2 ^ 32)
  else if off = AT_FAULT_STAT t then some (setBits (s.reg off).toNat 0 5 q.length)
  else none

/-- The registers of the Memory block that show the Reel cache (R448). -/
def memView (s : State) (off : Nat) : Option Nat :=
  if off = MEM_RC_STAT then
    some ((s.mem.cache.map fun p => (p.2.filter (·.2)).length).foldl (· + ·) 0 + s.mem.wb.length * 2 ^ 21)
  else none

/-- The registers of the Engine that show its state (R262, R263). -/
def engView (s : State) (off : Nat) : Option Nat :=
  if off = TE_STATUS then some s.engStatus
  else if off = TE_TURN_STAT then
    some (s.eng.sched.running.getD 0 % 65536 + s.eng.sched.pending.getD 0 % 65536 * 65536)
  else if off = TE_PMAP_GEN then some ((s.eng.pmap.map (·.gen)).getD 0)
  else if 0x600100 ≤ off ∧ off < 0x600190 then some (s.hoopStat ((off - 0x600100) / 4))
  else if 0x600400 ≤ off ∧ off < 0x600500 ∧ off % 0x40 = 0x1C then
    some (spGet (fun _ => {}) s.eng.lace ((off - 0x600400) / 0x40)).deltas.length
  else none

/-- The registers of the Skein Manager that show its state (R412, R413). -/
def skView (s : State) (off : Nat) : Option Nat :=
  if off = SK_STATUS then some s.skStatus
  else if off = SK_POOL_FREE then some s.skFree
  else if off = SK_SPILL_USED then some s.spillUsed
  else if 0x701000 ≤ off ∧ off < 0x702000 then some (s.seqStat ((off - 0x701000) / 4))
  else if 0x702000 ≤ off ∧ off < 0x703000 then some (((s.seq? ((off - 0x702000) / 4)).map (·.len)).getD 0)
  else none

/-- The registers of the Track that show its state (R518, R519). TAIL of the ring is the next square to be claimed. -/
def tkView (s : State) (off : Nat) : Option Nat :=
  let b (x : Bool) (i : Nat) := if x then 2 ^ i else 0
  let t := (off - 0xB01000) / 0x40
  if off = TK_STATUS then some (b s.track.commit.isSome 0 + b s.eng.sched.image.isSome 1)
  else if off = TK_RING_STAT then some (s.track.head + (s.track.head + s.track.used) % 4032 * 65536)
  else if off = TK_STORE_USED then some (s.track.store.filter fun c => decide (c.req < 8)).length
  else if off = TK_SKIP64 then some s.skip64
  else if off = TK_COMMIT_STAT then
    some ((s.track.commit.map fun c => c.tries % 256 + c.target.getD 0 % 65536 * 65536).getD 0)
  else if off = TK_STAGE_STAT then some (s.slotsUsed 0 + 4 * s.slotsUsed 1 + 16 * s.slotsUsed 2 + 64 * s.slotsUsed 3)
  else if off < 0xB01000 ∨ 0xB01200 ≤ off then none
  else if off = TK_DONE_CSN t then some (spGet (fun _ => 0) s.track.done t).toNat
  else if off = TK_OUT t then some (s.tkOut t)
  else none

/-- The registers of the Weft that show its state (R202, R203). -/
def wfView (s : State) (off : Nat) : Option Nat :=
  if off = WF_STATUS then some s.wfStatus
  else if off = WF_GEN_PAINT then some ((s.weft.tab.map (·.gen)).getD 0)
  else if off = WF_GEN_VIEW then some s.weft.viewGen
  else if off = WF_BOARD_BYTES then some ((s.weft.tab.map fun t => boardBytes t.bytes).getD 0)
  else none

/-- An FP64 number of the ME as FP32; zero while it does not run, which keeps no state (R198). -/
def State.fp32Shown (s : State) (x : Nat) : Nat := if s.meOn then (fpConvert .fp64 .fp32 x).bits else 0

/-- The registers of the ME that show its state (R202, R203). HOLDOVER follows the monitor's motion holdover while the ME runs. -/
def meView (s : State) (off : Nat) : Option Nat :=
  let b (x : Bool) (i : Nat) := if x then 2 ^ i else 0
  if off = ME_STATUS then
    some (b s.meOn 0 + b (s.meOn && s.fresh.holdSince.isSome) 1 + s.me.last % 16 * 4 + min (s.trackCount (· == 1)) 255 * 256 +
      s.trackCount (· != 1) % 256 * 65536)
  else if off = ME_GEN then some ((s.me.tab.map (·.gen)).getD 0)
  else if off = ME_STATE_DT_LO then some (if s.meOn then s.me.time / 256 else 0)
  else if off = ME_STATE_DT_HI then some (if s.meOn then s.me.time / 256 / 2 ^ 32 else 0)
  else if off = ME_SPEED then some (s.fp32Shown (meForward s.me.num))
  else if off = ME_YAW_RATE then some (s.fp32Shown (s.me.num.getD 243 0))
  else if off = ME_COV_TRACE then some (s.fp32Shown (meTraceAll s.me.num))
  else none

/-- The registers of the Loom that show its state (R227). While a frame of a view is on the wire, the last one sent is the one before. -/
def lmView (s : State) (off : Nat) : Option Nat :=
  let port (p : Nat) := spGet (fun _ => ({} : LmPort)) s.loom.ports p
  let b (x : Bool) (i : Nat) := if x then 2 ^ i else 0
  if off = LM_STATUS then
    some (b (port 0).locked 0 + b (port 1).locked 1 + b (s.loom.turns.any fun x => x.recs.isSome && x.stamp.isNone) 8)
  else if off = LM_PORT_STAT 0 then some ((port 0).fifo.length + b (port 0).locked 4)
  else if off = LM_PORT_STAT 1 then some ((port 1).fifo.length + b (port 1).locked 4)
  else
    let on := (((port 0).wire.toList ++ (port 1).wire.toList).filter fun w => decide (s.hg.dt < w.2.1) && off == LM_VIEW_SEQ w.1.view)
    (on.head?).map fun w => w.1.seqWas.toNat

/-- The registers of the Referee that show its state (R623). JUDGING: an assembled turn waits for its verdict. -/
def rfView (s : State) (off : Nat) : Option Nat :=
  let b (x : Bool) (i : Nat) := if x then 2 ^ i else 0
  let r := s.ref
  if off = RF_STATUS then
    some (b r.running 0 + b r.rules.isSome 1 + b (s.is RF_STATUS_AUTH_FAIL) 2 +
      b (r.running && r.rules.isSome && s.loom.turns.any fun x => x.recs.isSome && x.stamp.isNone) 3 + b r.hb 4 +
      b (r.abort.isSome || r.relaunch.isSome) 5 + b (r.running && s.is HG_STATUS_HOLDOVER) 6)
  else if off = RF_WINDOW then
    some (((List.range 16).map fun i => b (r.window.getD i false) i).foldl (· + ·) 0 + (r.window.filter id).length * 2 ^ 16)
  else none

/-- The registers of the MC that show start-up (R673). -/
def mcView (s : State) (off : Nat) : Option Nat :=
  let b := s.boot
  let bit (x : Bool) (i : Nat) := if x then 2 ^ i else 0
  if off = MC_STATUS then some (b.stage + bit b.slot 4 + bit b.recovery 5 + b.fuse * 2 ^ 8)
  else if off = MC_BOOT_VER then some b.version.toNat
  else if off = MC_LOCK then some (bit b.lock 0)
  else none

/-- The value that a unit computes for a register. -/
def viewOf (s : State) (off : Nat) : Option Nat :=
  let b := off / 0x100000
  if b = 1 then hgView s off
  else if 0x206000 ≤ off ∧ off < 0x206400 then i2cView s off
  else if b = 3 then wfView s off
  else if b = 4 then meView s off
  else if b = 5 then lmView s off
  else if b = 8 then atView s off
  else if b = 9 then memView s off
  else if b = 6 then engView s off
  else if b = 7 then skView s off
  else if b = 0xB then tkView s off
  else if b = 0xE then rfView s off
  else if b = 0xF then mcView s off
  else if off = SV_RESILVER_STAT then
    some (min s.pool.dirty.length (2 ^ 24 - 1) + s.get SV_RESILVER_STAT_CONFLICT * 2 ^ 24)
  else none

/-- The value a register shows. -/
def State.view (s : State) (off : Nat) : Word :=
  match viewOf s off with
  | some v => BitVec.ofNat 32 v
  | none => s.reg off

end Sys2Proof.Machine
end

