-- ==== Sys2Proof/Machine/Access.lean ====
section
/-! DEFINITION. A register access: the checks of R554 in their order, what a refusal does, what a read latches and clears,
and what a plain write places (R33-R40, R541-R545, R683-R687, R730, R731). -/

namespace Sys2Proof.Machine

open Reg

/-- The fabric manager is this Initiator ID (R456). -/
def State.isFm (s : State) (iid : Nat) : Bool := s.is PL_FM_VALID && s.get PL_FM_TENANT == iid

/-- The configuration lock is set (R647). -/
def State.locked (s : State) : Bool := s.boot.lock

/-- R653: in recovery only the Global and MC blocks grant access, and T0 writes page 0x00F0_2000. -/
def State.recoveryPage (s : State) (iid off : Nat) (wr : Bool) : Option Bool :=
  if !s.boot.recovery then none
  else if off / 0x100000 ≠ 0 ∧ off / 0x100000 ≠ 0xF then some false
  else if off / 0x1000 = 0xF02 ∧ iid = 0 ∧ wr then some true
  else none

/-- R34, R684: a 4-byte aligned access, or an aligned 8-byte access that covers an _LO/_HI pair. -/
def widthOk (off size : Nat) : Bool :=
  (size == 4 && off % 4 == 0) ||
  (size == 8 && off % 8 == 0 && ((regRow off).bind (·.half)) == some false)

/-- R541: the page masks. -/
def State.pageOk (s : State) (iid off : Nat) (wr : Bool) : Bool :=
  (s.recoveryPage iid off wr).getD ((s.reg (if wr then HI_PAGE_WR (off / 4096) else HI_PAGE_RD (off / 4096))).getLsbD iid)

/-- R543: the register class, for a write. -/
def State.classOk (s : State) (iid off : Nat) (r : RegRow) : Bool :=
  if iid = 8 ∨ iid = 9 ∨ s.recoveryPage iid off true = some true then true
  else match r.cls with
    | .none => false
    | .open => true
    | .grantable => true
    | .config => iid == s.get TK_CFG_OWNER_IID
    | .lace => s.get (TE_LACE_CTL_TENANT ((off - 0x600400) / 0x40)) == iid || decide (8 ≤ iid)
    | .recTail => s.get LM_REC_CFG_TENANT == iid
    | .fabric => s.isFm iid
    | .power => s.is MC_PWR_OWNER_VALID && s.get MC_PWR_OWNER_TENANT == iid

/-- R544: the own-index rule, and no tenant read of an RC register. -/
def State.indexOk (s : State) (iid off : Nat) (wr : Bool) (r : RegRow) : Bool :=
  decide (8 ≤ iid) ||
    ((!r.tenant || rowIndex r off == iid || (r.cls == .fabric && s.isFm iid)) && (wr || r.rc == 0))

/-- Offsets of the function's own MSI-X table and pending bit array (R530). -/
def isMsix (off : Nat) : Bool := decide (0x1000000 ≤ off ∧ off < 0x1000200) || off == 0x1001000

/-- The Track's square window (R530, R488). -/
def isSquare (off : Nat) : Bool := decide (0xB80000 ≤ off ∧ off < 0xC00000)

/-- The first failing check of R554, as its code; none when the access is admitted. -/
def State.regCheck (s : State) (iid off size : Nat) (wr : Bool) : Option Nat :=
  if 28 ≤ iid then some 0x9007
  else if !widthOk off size then some 0x9001
  else if off < 0x1000000 then
    if !s.pageOk iid off wr then some 0x9004
    else if isSquare off then none
    else match regRow off with
      | none => some 0x900B
      | some r =>
        if wr && !s.classOk iid off r then some 0x9004
        else if !s.indexOk iid off wr r then some 0x9005
        else none
  else if isMsix off && decide (iid < 8) then none
  else some 0x900B

/-- A refused register access: reported and counted, without any other effect (R545, R552, R687). -/
def State.refuse (s : State) (code iid : Nat) : State := (s.report code iid).bump HI_DENY_CNT_REGISTER

/-! ### Reads -/

/-- The registers whose value a read of another register captures (R33). -/
def latchList (off : Nat) : List Nat :=
  if off = HG_DT_LO then [HG_DT_HI, HG_DT_FRAC]
  else if off = HG_EPOCH_NT_NS then [HG_EPOCH_NT_SEC_LO, HG_EPOCH_NT_SEC_HI, HG_EPOCH_META]
  else if off = HG_DOM_NT_NS 0 ∨ off = HG_DOM_NT_NS 1 then [off + 4, off + 8]
  else if off = HG_TSTX_META ∨ off = HG_TSRX_META then [off + 4, off + 8, off + 12]
  else if 0x100700 ≤ off ∧ off < 0x100800 ∧ off % 0x20 = 8 then [off + 4, off + 8, off + 12, off + 16]
  else if off = HG_BK_SEC then [HG_BK_SUB]
  else if 0x801000 ≤ off ∧ off < 0x801800 ∧ off % 0x100 = 0x20 then [off + 4, off + 8]
  else if off = HG_EPOCH_NT_SEC_LO ∨ off = HG_DOM_NT_SEC_LO 0 ∨ off = HG_DOM_NT_SEC_LO 1 ∨ off = HG_TSTX_SEC_LO ∨
      off = HG_TSRX_SEC_LO ∨ (0x100700 ≤ off ∧ off < 0x100800 ∧ off % 0x20 = 0x14) ∨
      (0x801000 ≤ off ∧ off < 0x801800 ∧ off % 0x100 = 0x24) then []
  else match (regRow off).bind (·.half) with
    | some false => [off + 4]
    | _ => []

/-- A register that a read of another one latches, and whose value in force R730 does not show: every such register but
the _HI of a pair that writes change. -/
def isLatched (off : Nat) : Bool :=
  off == HG_DT_FRAC || off == HG_EPOCH_META || off == HG_EPOCH_NT_SEC_LO || off == HG_DOM_NT_SEC_LO 0 ||
  off == HG_DOM_NT_SEC_LO 1 || off == HG_TSTX_NS || off == HG_TSTX_SEC_LO || off == HG_TSRX_NS || off == HG_TSRX_SEC_LO ||
  off == HG_BK_SUB ||
  decide (0x100700 ≤ off ∧ off < 0x100800 ∧ (off % 0x20 = 0x10 ∨ off % 0x20 = 0x14)) ||
  decide (0x801000 ≤ off ∧ off < 0x801800 ∧ off % 0x100 = 0x24) ||
  match regRow off with
  | some r => r.half == some true && r.rw == 0 && r.lk == 0 && r.wo == 0
  | none => false

def State.latchKey (off iid : Nat) : Nat := off * 64 + iid

/-- What a read of an admitted register returns to this Initiator ID (R33, R36). -/
def State.readVal (s : State) (iid off : Nat) : Word :=
  if isLatched off then (spGet (fun _ => none) s.latch (State.latchKey off iid)).getD (regReset off)
  else match regRow off with
    | some r => s.view off &&& ~~~ BitVec.ofNat 32 r.wo
    | none => s.view off

/-- Capture the registers that a read of `off` latches (R33). -/
def State.latchAll (s : State) (iid : Nat) : List Nat → State
  | [] => s
  | o :: r => State.latchAll { s with latch := spPut (fun _ => none) s.latch (State.latchKey o iid) (some (s.view o)) } iid r

/-- Clear the RC fields of a register that has been read (R36). -/
def State.clearRc (s : State) (off : Nat) : State :=
  match regRow off with
  | some r => if r.rc = 0 then s else s.setReg off (s.reg off &&& ~~~ BitVec.ofNat 32 r.rc)
  | none => s

/-- The whole effect of an admitted 4-byte read but what pops: the value goes out, the latches load, RC fields clear. -/
def State.readReg (s : State) (iid off : Nat) : State :=
  ((s.emit (.readData (BitVec.ofNat 6 iid) off ((s.readVal iid off).zeroExtend 64))).latchAll iid (latchList off)).clearRc off

/-- An admitted 8-byte read of a pair: _LO first, so _HI comes from the same instant (R33, R34). -/
def State.readReg8 (s : State) (iid off : Nat) : State :=
  let s1 := s.latchAll iid (latchList off)
  s1.emit (.readData (BitVec.ofNat 6 iid) off
    ((s1.readVal iid (off + 4)).zeroExtend 64 <<< 32 ||| (s.readVal iid off).zeroExtend 64))

/-- A refused read returns 0 (R545, R540). -/
def State.refuseRead (s : State) (code iid off : Nat) : State :=
  (s.refuse code iid).emit (.readData (BitVec.ofNat 6 iid) off 0)

/-- A 4-byte read with a further effect `f` of the unit where the read is admitted. -/
def State.readWith (s : State) (iid : Iid) (off : Nat) (f : State → State) : State :=
  match s.regCheck iid.toNat off 4 false with
  | some c => s.refuseRead c iid.toNat off
  | none => f (s.readReg iid.toNat off)

/-! ### Writes -/

/-- Every field of a row is in its range (R731). -/
def rangesOk (r : RegRow) (v : Nat) : Bool := r.ranges.all fun (lo, w, a, b) => a ≤ bitsOf v lo w && bitsOf v lo w ≤ b

/-- The range code of a block (R731); 0 where the block reports none. -/
def rangeCode (off : Nat) : Nat :=
  if off / 0x100000 = 1 then 0x1003 else if off / 0x100000 = 2 then 0x200B else if off / 0x100000 = 6 then 0x400D else 0

/-- Report an out-of-range write with its block's code (R731). -/
def State.rangeFault (s : State) (iid off : Nat) : State := if rangeCode off = 0 then s else s.report (rangeCode off) iid

/-- What a register holds after a plain write of `v`: RW and LK fields take it, W1C bits clear, W1S bits set, and the
rest stays (R36). -/
def placed (r : RegRow) (old v : Word) : Word :=
  let m := BitVec.ofNat 32 (r.rw ||| r.lk)
  let set := v &&& BitVec.ofNat 32 r.w1s
  ((old &&& ~~~ m) ||| (v &&& m) ||| set) &&& ~~~ (v &&& BitVec.ofNat 32 r.w1c)

/-- The value in force with the staged bits of `v` (R38). -/
def State.stage (s : State) (r : RegRow) (off : Nat) (v : Word) : State :=
  if r.st = 0 then s
  else
    let m := BitVec.ofNat 32 r.st
    { s with staged := spPut (fun _ => none) s.staged off (some (v &&& m)) }

/-- A plain 4-byte write by access codes (R36, R38, R731). -/
def State.plainWrite (s : State) (iid off : Nat) (v : Word) : State :=
  match regRow off with
  | none => s
  | some r =>
    let n := placed r (s.reg off) v
    if rangesOk r (n ||| (v &&& BitVec.ofNat 32 r.st)).toNat then (s.setReg off n).stage r off v else s.rangeFault iid off

/-- Hold a write to _LO for its writer (R730). -/
def State.holdLo (s : State) (iid off : Nat) (v : Word) : State :=
  { s with heldLo := spPut (fun _ => none) s.heldLo (State.latchKey off iid) (some v) }

/-- Discard a held _LO. -/
def State.dropLo (s : State) (iid off : Nat) : State :=
  { s with heldLo := spPut (fun _ => none) s.heldLo (State.latchKey off iid) none }

/-- The 64-bit value that a write to _HI places: beside the held _LO, or the _LO in force (R730). -/
def State.pairValue (s : State) (iid lo : Nat) (hi : Word) : Nat :=
  ((spGet (fun _ => none) s.heldLo (State.latchKey lo iid)).getD (s.reg lo)).toNat + 2 ^ 32 * hi.toNat

/-- A 4-byte write with effect `f` where it is admitted; an LK register after the lock is ignored (R37). -/
def State.writeWith (s : State) (iid : Iid) (off : Nat) (f : State → State) : State :=
  match s.regCheck iid.toNat off 4 true with
  | some c => s.refuse c iid.toNat
  | none =>
    match regRow off with
    | some r => if s.locked && r.lk != 0 then s.refuse 0x9002 iid.toNat else f s
    | none => f s

end Sys2Proof.Machine
end

