-- ==== Sys2Proof/Machine/Hourglass.lean ====
section
/-! DEFINITION. The Hourglass: turns, the two domains, samples, captures and the backup counter (03_hourglass.md). What other
units do at the same event is added in Events.lean and Turn.lean. -/

namespace Sys2Proof.Machine

open Reg

/-- The Initiator ID of reports of the Hourglass that no master caused (R92). -/
def hgIid : Nat := 9

/-- R70: only the time owner; another writer is ignored and reported with 0x100D. -/
def State.ownerOnly (s : State) (iid : Iid) (f : State → State) : State :=
  if iid.toNat = s.get HG_OWNER_IID then f s else s.report 0x100D iid.toNat

/-- R91: only Initiator ID 9 writes the backup registers. -/
def State.backupOnly (s : State) (iid : Iid) (f : State → State) : State :=
  if iid = 9 then f s else s.report 0x100D iid.toNat

/-- Turns are armed or running. -/
def State.active (s : State) : Bool := s.is HG_TURN_CTL_ACTIVE

/-- Turns run: turn 0 has started (R60). -/
def State.turnsRun (s : State) : Bool := s.is HG_TURN_CTL_ACTIVE && s.is HG_TURN_CTL_STARTED

/-! ### Device Time -/

/-- R56: the PLL locks first; Device Time starts at 0. Before the first lock only. -/
def State.hgStart (s : State) : State :=
  if s.hg.running then s
  else ({ s with hg := { s.hg with running := true, dt := 0 } }.putB HG_STATUS_PLL_LOCK true).putB HG_STATUS_REF_OK true

/-- R58: the reference is lost, or the PLL unlocks; Device Time goes on without a jump. -/
def State.hgRefLoss (s : State) (refLost : Bool) : State :=
  let s1 := (s.putB HG_STATUS_HOLDOVER true).putB HG_STATUS_PLL_LOCK false
  (if refLost then s1.putB HG_STATUS_REF_OK false else s1).report 0x1001 hgIid

/-- R58: lock returns. -/
def State.hgRefReturn (s : State) : State :=
  ((s.putB HG_STATUS_HOLDOVER false).putB HG_STATUS_PLL_LOCK true).putB HG_STATUS_REF_OK true

/-! ### Turns -/

/-- The start of turn N, in Device Time units (R18, R59). -/
def State.turnInstant (s : State) (n : Nat) : Nat := 256 * s.pair HG_TURN_EPOCH_LO + n * s.pair HG_TURN_PER_LO

/-- R60: an admitted write of 1 to RUN. -/
def State.hgRun (s : State) (iid : Nat) : State :=
  if s.active then s
  else if s.hg.dt + 100000 * 256 ≤ s.pair HG_TURN_EPOCH_LO * 256 then
    let s1 := ((s.putB HG_TURN_CTL_RUN true).putB HG_TURN_CTL_ACTIVE true).putB HG_TURN_CTL_STARTED false
    { s1.setPair HG_TURN_NUM_LO 0 with hg := { s1.hg with nextTurn := 0, run := s1.hg.run + 1 } }
  else s.report 0x1002 iid

/-- R67, R68: a switch or a letter that waits takes effect. -/
def State.hgApplyPending (s : State) : State :=
  match s.hg.pendAct with
  | some a =>
    let s1 : State := { s with hg := { s.hg with act := a, pendAct := none, pendLetter := false } }
    { s1.putB HG_ACTIVE_PENDING false with
        hg := { s1.hg with letter := s1.is (HG_DOM_CFG_EN s1.actDom) } }.putB HG_ACTIVE_DOM a
  | none =>
    if s.hg.pendLetter then
      { s with hg := { s.hg with pendLetter := false, letter := s.is (HG_DOM_CFG_EN s.actDom) } }
    else s

/-- ACTIVE clears (R62): what still waits for a turn start takes effect, and the epoch is published (R67, R68). -/
def State.hgStop (s : State) : State :=
  let s1 := (s.putB HG_TURN_CTL_RUN false).putB HG_TURN_CTL_ACTIVE false
  if s1.hg.pendAct.isSome || s1.hg.pendLetter then s1.hgApplyPending.publishEpoch else s1

/-- R62: an admitted write of 0 to RUN, but for what other units do when armed turns stop. -/
def State.hgStopWrite (s : State) : State :=
  if !s.active then s
  else if s.is HG_TURN_CTL_STARTED then s.putB HG_TURN_CTL_RUN false
  else s.hgStop

/-- R61: the period and the epoch are written only while ACTIVE is 0, the period within R59. -/
def State.hgTurnPair (s : State) (iid lo v : Nat) : State :=
  if s.active || (lo == HG_TURN_PER_LO && !(decide (2133333334 ≤ v ∧ v ≤ 25600000000))) then s.report 0x1003 iid
  else s.setPair lo v

/-- R67: an admitted write to HG_ACTIVE by the time owner. -/
def State.hgActive (s : State) (iid d : Nat) : State :=
  if !s.is (HG_DOM_CFG_EN d) then s.report 0x100C iid
  else
    let s1 : State := { s with hg := { s.hg with pendAct := some (d != 0) } }
    if s.active then s1.putB HG_ACTIVE_PENDING true else s1.hgApplyPending.publishEpoch

/-! ### Domains -/

/-- End an amortisation, discarding what it has not absorbed (R68, R71, R74). -/
def State.endSlew (s : State) (d : Nat) : State :=
  (s.setDom d { s.dom d with rem := 0 }).putB (HG_DOM_STAT_SLEWING d) false

/-- EN goes from 1 to 0 (R68, R97). -/
def State.hgDomOff (s : State) (d : Nat) : State :=
  let s1 := s.endSlew d
  let s2 := s1.setDom d { s1.dom d with samples := [] }
  if s2.actDom = d then
    { s2 with hg := { s2.hg with letter := false, pendLetter := false } }.put HG_EPOCH_META_DOMAIN 0
  else s2

/-- EN goes from 0 to 1 (R68): where the domain is selected its letter returns at the next turn start, or at once. -/
def State.hgDomOn (s : State) (d : Nat) : State :=
  if s.actDom = d then
    if s.turnsRun then { s with hg := { s.hg with pendLetter := true } }
    else { s with hg := { s.hg with letter := true } }.publishEpoch
  else s

/-- R74: enter SERVO mode; the integral starts at ADJ_d × Ts. -/
def State.hgServoIn (s : State) (d : Nat) : State :=
  let s1 := s.endSlew d
  s1.setDom d { s1.dom d with integ := s1.adj d * (s1.reg (HG_DOM_TS d)).toNat * 1000000, clamped := 0 }

/-- R74, R75: return to INC mode; ADJ_d keeps the last output, and a run of clamped samples ends. -/
def State.hgServoOut (s : State) (d : Nat) : State := s.setDom d { s.dom d with clamped := 0 }

/-- A write to HG_DOM_CFG[d] by the time owner (R68, R74). -/
def State.hgDomCfg (s : State) (d : Nat) (v : Word) : State :=
  let en := s.is (HG_DOM_CFG_EN d)
  let servo := s.is (HG_DOM_CFG_MODE d)
  let s1 := s.plainWrite hgIid (HG_DOM_CFG d) v
  let s2 := if en && !v.getLsbD 0 then s1.hgDomOff d else if !en && v.getLsbD 0 then s1.hgDomOn d else s1
  if !servo && v.getLsbD 2 then s2.hgServoIn d else if servo && !v.getLsbD 2 then s2.hgServoOut d else s2

/-- A write to HG_DOM_ADJ[d] by the time owner (R72, R74). -/
def State.hgAdj (s : State) (d : Nat) (v : Word) : State :=
  if s.is (HG_DOM_CFG_MODE d) then s
  else s.setReg (HG_DOM_ADJ d) (BitVec.ofInt 32 (clampAbs s.slewLim (signed 32 v.toNat)))

/-- Hold ADJ_d within HG_SLEW_LIM (R72). -/
def State.clampAdj (s : State) (d : Nat) : State :=
  s.setReg (HG_DOM_ADJ d) (BitVec.ofInt 32 (clampAbs s.slewLim (s.adj d)))

/-- A write to HG_SLEW_LIM by the time owner (R66, R72). -/
def State.hgSlewLimW (s : State) (iid : Nat) (v : Word) : State :=
  if 1 ≤ v.toNat ∧ v.toNat ≤ 1953 then ((s.setReg HG_SLEW_LIM v).clampAdj 0).clampAdj 1 else s.report 0x1003 iid

/-! ### Samples -/

/-- R70, R97: a sample is submitted; while the domain's EN is 0 it is ignored. -/
def State.hgSubmit (s : State) (d : Nat) (theta : Int) : State :=
  if s.is (HG_DOM_CFG_EN d) then s.setDom d { s.dom d with samples := (s.dom d).samples ++ [theta] } else s

/-- The write of HG_DOM_MEAS_HI[d] by the time owner (R70, R730). -/
def State.hgMeasHi (s : State) (iid d : Nat) (hi : Word) : State :=
  let v := s.pairValue iid (HG_DOM_MEAS_LO d) hi
  (((s.setPair (HG_DOM_MEAS_LO d) v).dropLo iid (HG_DOM_MEAS_LO d))).hgSubmit d (signed 64 v)

/-- R71: a step keeps Network Time in its range. -/
def State.stepFits (s : State) (d : Nat) (theta : Int) : Bool :=
  let t := (s.hg.dt : Int) * 2 ^ 32 + (s.dom d).ofs + theta * 2 ^ 40
  decide (0 ≤ t ∧ t < 2 ^ 103)

/-- R71: the domain steps by `theta`. -/
def State.hgStep (s : State) (d : Nat) (theta : Int) : State :=
  if s.stepFits d theta then
    let s1 := s.endSlew d
    let s2 := s1.setDom d { s1.dom d with ofs := (s1.dom d).ofs + theta * 2 ^ 40, good := 0, clamped := 0 }
    let s3 := (s2.setReg (HG_DOM_STEP d) (BitVec.ofNat 32 ((s2.get (whole (HG_DOM_STEP d)) + 1) % 65536))).putB
      (HG_DOM_STAT_LOCKED d) false
    let s4 := if s3.actDom = d then s3.publishEpoch else s3
    s4.report 0x1007 hgIid
  else s.report 0x100E hgIid

/-- R72: an INC-mode slew starts, in place of any in progress. -/
def State.hgIncSlew (s : State) (d : Nat) (theta : Int) : State :=
  (s.setDom d { s.dom d with rem := theta * 2 ^ 40 }).putB (HG_DOM_STAT_SLEWING d) (theta != 0)

/-- R73, R75: one servo sample. The bound on both the integral and the output is HG_SLEW_LIM × Ts. -/
def State.hgServo (s : State) (d : Nat) (theta : Int) : State :=
  let ts := (s.reg (HG_DOM_TS d)).toNat
  let lim := 2 ^ 40 * ((s.reg HG_SLEW_LIM).toNat * ts)
  let k (off : Nat) : Int := ((s.reg off).toNat : Int) * theta * (2 ^ 24 * 1000)
  let i := clampAbs lim ((s.dom d).integ + k (HG_DOM_KI d))
  let x := k (HG_DOM_KP d) + i
  let sat := decide (lim < x.natAbs)
  let run := if sat then (s.dom d).clamped + 1 else 0
  let s1 := (s.setDom d { s.dom d with integ := i, clamped := run }).setReg (HG_DOM_ADJ d)
    (BitVec.ofInt 32 (roundEven (clampAbs lim x) (ts * 1000000)))
  let s2 := if sat then s1.putB (HG_DOM_STAT_SAT d) true else s1
  if run = 16 then s2.report 0x1008 hgIid else s2

/-- R75: LOCKED follows an applied sample that did not step. -/
def State.hgLocked (s : State) (d : Nat) (theta : Int) : State :=
  let n := if theta.natAbs < 100 then (s.dom d).good + 1 else 0
  let s1 := s.setDom d { s.dom d with good := n }
  if 8 ≤ n then s1.putB (HG_DOM_STAT_LOCKED d) true
  else if 1000 ≤ theta.natAbs then s1.putB (HG_DOM_STAT_LOCKED d) false else s1

/-- R71-R75: the oldest submitted sample of the domain is applied; none waiting, nothing happens. -/
def State.hgApply (s : State) (d : Nat) : State :=
  match (s.dom d).samples with
  | [] => s
  | theta :: r =>
    let s1 := s.setDom d { s.dom d with samples := r }
    if (s.reg HG_STEP_THR).toNat * 1000 < theta.natAbs then s1.hgStep d theta
    else (if s1.is (HG_DOM_CFG_MODE d) then s1.hgServo d theta else s1.hgIncSlew d theta).hgLocked d theta

/-- R72: the amortisation has absorbed its sample; Device Time runs on to that instant where it lies ahead. -/
def State.hgSlewDone (s : State) (d : Nat) : State :=
  if !s.is (HG_DOM_STAT_SLEWING d) then s
  else if (s.dom d).rem = 0 then s.endSlew d
  else if s.amort d = 0 || !s.is (HG_DOM_CFG_EN d) || !s.hg.running then s
  else
    let c := 4 * s.amort d
    (s.advanceTo ((s.hg.dt / 1024 + ((s.dom d).rem.natAbs + c - 1) / c) * 1024)).endSlew d

/-! ### Captures and timestamps -/

/-- R84, R85: an edge on capture input n, its pulse `pulse` ns long. -/
def State.hgCapture (s : State) (n : Nat) (rising : Bool) (pulse : Nat) : State :=
  let sel := s.get (HG_CAP_CFG_EDGE n)
  if !s.is (HG_CAP_CFG_EN n) || decide (pulse < s.get (HG_CAP_CFG_FILT n)) || !(sel == 2 || (sel == 0) == rising) then s
  else
    let q := spGet (fun _ => []) s.hg.caps n
    if 4 ≤ q.length then (s.putB (HG_CAP_STAT_OVF n) true).report 0x1006 hgIid
    else
      let d := s.get (HG_CAP_CFG_DOM n)
      let e : CapEntry := { dt := s.now, nt := s.netTime d, step := s.get (whole (HG_DOM_STEP d)) }
      { s with hg := { s.hg with caps := spPut (fun _ => []) s.hg.caps n (q ++ [e]) } }

/-- R85: what a read of HG_CAP_DT_LO[n] pops. -/
def State.hgCapPop (s : State) (n : Nat) : State :=
  match spGet (fun _ => []) s.hg.caps n with
  | [] => s.putB (HG_CAP_STAT_POPPED n) false
  | _ :: r => { s with hg := { s.hg with caps := spPut (fun _ => []) s.hg.caps n r } }.putB (HG_CAP_STAT_POPPED n) true

/-- R87: a timestamp enters its FIFO, or is dropped at a full one. -/
def State.hgStamp (s : State) (rx : Bool) (e : TsEntry) : State :=
  if 16 ≤ (if rx then s.hg.tsRx else s.hg.tsTx).length then (s.putB HG_TS_STAT_OVF true).report 0x100A hgIid
  else if rx then { s with hg := { s.hg with tsRx := s.hg.tsRx ++ [e] } }
  else { s with hg := { s.hg with tsTx := s.hg.tsTx ++ [e] } }

/-- R87: what a read of a META register pops. -/
def State.hgTsPop (s : State) (rx : Bool) : State :=
  if rx then { s with hg := { s.hg with tsRx := s.hg.tsRx.tail } } else { s with hg := { s.hg with tsTx := s.hg.tsTx.tail } }

/-! ### The backup counter -/

/-- R91, R101: LOAD. -/
def State.hgBkLoad (s : State) : State :=
  { s with hg := { s.hg with bkSec := s.reg HG_BK_SET_SEC, bkSub := 0, bkAcc := 0 } }

/-- R90: power-on or brown-out of the backup node. -/
def State.hgBkPowerOn (s : State) : State :=
  { s with hg := { s.hg with bkSec := 0, bkSub := 0, bkAcc := 0 } }.setReg HG_BK_STAT 1

/-! ### The commands that are the Hourglass's alone -/

/-- DEVICE_TIME_READ (R57). -/
def execDeviceTimeRead (iid : Iid) (s : State) : Ans := s.done (s.readWith iid HG_DT_LO id)

/-- EPOCH_READ (R63). -/
def execEpochRead (iid : Iid) (s : State) : Ans := s.done (s.readWith iid HG_EPOCH_NT_NS id)

/-- NETWORK_TIME_READ (R93). -/
def execNetworkTimeRead (iid : Iid) (d : Fin 2) (s : State) : Ans := s.done (s.readWith iid (HG_DOM_NT_NS d) id)

/-- DEVICE_TIME_START (R56). -/
def execDeviceTimeStart (s : State) : Ans := s.done s.hgStart

/-- REF_LOCK_RETURN (R58). -/
def execRefLockReturn (s : State) : Ans := s.done s.hgRefReturn

/-- HG_ACTIVE_WRITE (R67). -/
def execHgActiveWrite (iid : Iid) (v : Word) (s : State) : Ans :=
  s.done (s.writeWith iid HG_ACTIVE fun s => s.ownerOnly iid fun s => s.hgActive iid.toNat (v.toNat % 2))

/-- DOMAIN_ENABLE (R68). -/
def execDomainEnable (iid : Iid) (d : Fin 2) (v : Word) (s : State) : Ans :=
  s.done (s.writeWith iid (HG_DOM_CFG d) fun s => s.ownerOnly iid fun s => s.hgDomCfg d v)

/-- DOMAIN_DISABLE (R68). -/
def execDomainDisable (iid : Iid) (d : Fin 2) (v : Word) (s : State) : Ans :=
  s.done (s.writeWith iid (HG_DOM_CFG d) fun s => s.ownerOnly iid fun s => s.hgDomCfg d v)

/-- SERVO_MODE_ENTER (R74). -/
def execServoModeEnter (iid : Iid) (d : Fin 2) (v : Word) (s : State) : Ans :=
  s.done (s.writeWith iid (HG_DOM_CFG d) fun s => s.ownerOnly iid fun s => s.hgDomCfg d v)

/-- INC_MODE_ENTER (R74). -/
def execIncModeEnter (iid : Iid) (d : Fin 2) (v : Word) (s : State) : Ans :=
  s.done (s.writeWith iid (HG_DOM_CFG d) fun s => s.ownerOnly iid fun s => s.hgDomCfg d v)

/-- SAMPLE_SUBMIT (R70). -/
def execSampleSubmit (iid : Iid) (d : Fin 2) (hi : Word) (s : State) : Ans :=
  s.done (s.writeWith iid (HG_DOM_MEAS_HI d) fun s => s.ownerOnly iid fun s => s.hgMeasHi iid.toNat d hi)

/-- SLEW_COMPLETE (R72). -/
def execSlewComplete (d : Fin 2) (s : State) : Ans := s.done (s.hgSlewDone d)

/-- HG_DOM_ADJ_WRITE (R72). -/
def execHgDomAdjWrite (iid : Iid) (d : Fin 2) (v : Word) (s : State) : Ans :=
  s.done (s.writeWith iid (HG_DOM_ADJ d) fun s => s.ownerOnly iid fun s => s.hgAdj d v)

/-- HG_SLEW_LIM_WRITE (R72). -/
def execHgSlewLimWrite (iid : Iid) (v : Word) (s : State) : Ans :=
  s.done (s.writeWith iid HG_SLEW_LIM fun s => s.ownerOnly iid fun s => s.hgSlewLimW iid.toNat v)

/-- CAPTURE_POP (R85). -/
def execCapturePop (iid : Iid) (n : Fin 8) (s : State) : Ans :=
  s.done (s.readWith iid (HG_CAP_DT_LO n) fun s => s.hgCapPop n)

/-- TS_FIFO_POP (R87). Only the time owner pops (R70); any other reader meets an empty FIFO. -/
def execTsFifoPop (iid : Iid) (rx : Bool) (s : State) : Ans :=
  let off := if rx then HG_TSRX_META else HG_TSTX_META
  s.done <| match s.regCheck iid.toNat off 4 false with
    | some c => s.refuseRead c iid.toNat off
    | none => if iid.toNat = s.get HG_OWNER_IID then (s.readReg iid.toNat off).hgTsPop rx
              else (s.emit (.readData iid off 0))

/-- BACKUP_LOAD (R91). -/
def execBackupLoad (iid : Iid) (s : State) : Ans :=
  s.done (s.writeWith iid HG_BK_CTL fun s => s.backupOnly iid State.hgBkLoad)

/-- BACKUP_SEC_READ (R90). -/
def execBackupSecRead (iid : Iid) (s : State) : Ans := s.done (s.readWith iid HG_BK_SEC id)

/-- VBAT_LOW (R700). -/
def execVbatLow (low : Bool) (s : State) : Ans := s.done (s.putB HG_BK_STAT_VBAT_LOW low)

/-- XTAL_OK_CHANGE (R90). -/
def execXtalOkChange (ok : Bool) (s : State) : Ans := s.done (s.putB HG_BK_STAT_XTAL_OK ok)

end Sys2Proof.Machine
end

