-- ==== Sys2Proof/Machine/Trigger.lean ====
section
/-! DEFINITION. Compares and triggers (R76-R83). -/

namespace Sys2Proof.Machine

open Reg

def State.trig (s : State) (n : Nat) : Trig := spGet (fun _ => {}) s.hg.trigs n

def State.setTrig (s : State) (n : Nat) (t : Trig) : State :=
  { s with hg := { s.hg with trigs := spPut (fun _ => {}) s.hg.trigs n t } }

/-- R76: the signed 40-bit difference between now and a compare value. -/
def cmpDiff (now cmp : Nat) : Int := signed 40 (unsign 40 ((now : Int) - cmp))

/-- R76: the first whole nanosecond at which an armed compare fires. -/
def cmpInstant (now cmp : Nat) : Nat := ((now : Int) - min 0 (cmpDiff now cmp)).toNat

/-- The compare value of trigger n, bits 39:0 (R76). -/
def State.trigCmp (s : State) (n : Nat) : Nat := s.pair (HG_TRIG_CMP_LO n) % 2 ^ 40

/-- The period of trigger n, in units (R78). -/
def State.trigPer (s : State) (n : Nat) : Nat := s.pair (HG_TRIG_PER_LO n)

/-- R79: the whole nanosecond nearest to instant u, ties upward. -/
def nearestNs (u : Nat) : Nat := (u + 128) / 256

/-- The first instant of the series `u, u + per, …` whose nanosecond lies after `now` (R77, R79). -/
def firstAhead (now u per : Nat) : Nat :=
  if now < nearestNs u then u
  else if per = 0 then u
  else u + ((now + 1) * 256 - 128 - u + per - 1) / per * per

/-- An edge of trigger n at this instant (R81, R83): it starts a pulse and is counted, or it falls into the current pulse
and is refused. -/
def State.trigPulse (s : State) (n : Nat) : State :=
  let t := s.trig n
  let busy := match t.pulseEnd with
    | some e => decide (s.hg.dt < e)
    | none => false
  if busy then (s.putB (HG_TRIG_STAT_OVERLAP n) true).report 0x1005 hgIid
  else
    let s1 := s.put (HG_TRIG_STAT_FIRED n) (s.get (HG_TRIG_STAT_FIRED n) + 1)
    s1.setTrig n { t with pulseEnd := some (s.hg.dt + (s.reg (HG_TRIG_WIDTH n)).toNat * 256), total := t.total + 1,
                          edges := s.now :: t.edges.filter fun e => s.now < e + 2 ^ 32 }

/-- HG_TRIG_STAT[n].FIRED as it stood at instant `u`: edges after it are not counted (R115). -/
def State.firedAt (s : State) (n u : Nat) : Nat :=
  (s.get (HG_TRIG_STAT_FIRED n) + 65536 - ((s.trig n).edges.filter fun e => u < e * 256).length % 65536) % 65536

/-- LATE sets, and 0x1004 is reported (R77). -/
def State.trigLate (s : State) (n : Nat) : State := (s.putB (HG_TRIG_STAT_LATE n) true).report 0x1004 hgIid

/-- A one-shot has had its instant: ARM clears (R94). -/
def State.disarm (s : State) (n : Nat) : State :=
  (s.setTrig n { s.trig n with armed := false, next := none }).putB (HG_TRIG_CFG_ARM n) false

/-- R77: arm a one-shot, which fires at once where its target has been reached. -/
def State.armOneShot (s : State) (n : Nat) : State :=
  let s1 := (s.setTrig n { s.trig n with armed := true }).putB (HG_TRIG_CFG_ARM n) true
  if 0 ≤ cmpDiff s.now (s.trigCmp n) then ((s1.trigPulse n).disarm n).trigLate n else s1

/-- R77: start a periodic trigger; where u₀ has been reached it drives one edge at once and skips to the first instant
still ahead. -/
def State.armPeriodic (s : State) (n : Nat) : State :=
  let d := cmpDiff s.now (s.trigCmp n)
  let u0 := ((s.now : Int) - d).toNat * 256
  let s1 := s.putB (HG_TRIG_CFG_ARM n) true
  if d < 0 then s1.setTrig n { s1.trig n with armed := true, next := some u0, last := none }
  else
    let s2 := s1.trigPulse n
    let nx := if s.trigPer n < 2048 then none else some (firstAhead s.now (u0 + s.trigPer n) (s.trigPer n))
    (s2.setTrig n { s2.trig n with armed := true, last := some u0, next := nx }).trigLate n

/-- The whole nanosecond at which the edge of turn N falls in TURN mode (R78-R80). -/
def State.turnEdgeNs (s : State) (n N : Nat) : Nat :=
  let st := s.turnInstant N
  max (nearestNs (st + 256 * (s.reg (HG_TRIG_PHASE n)).toNat)) ((st + 255) / 256)

/-- Put an instant in time order. -/
def insertNs (t : Nat) : List Nat → List Nat
  | [] => [t]
  | x :: r => if t < x then t :: x :: r else x :: insertNs t r

/-- TURN mode takes the edge of turn N, where N is a multiple of the divisor (R78). -/
def State.turnEdge (s : State) (n N : Nat) : State :=
  if s.get (HG_TRIG_CFG_MODE n) = 3 ∧ N % (s.get (HG_TRIG_CFG_DIV n) + 1) = 0 then
    s.setTrig n { s.trig n with turnEdges := insertNs (s.turnEdgeNs n N) (s.trig n).turnEdges }
  else s

/-- The edges of the last `k` turns that have started, of which the ones still ahead are kept: what TURN mode still has to
drive when it is entered. -/
def State.turnEdgesAhead (s : State) (n : Nat) : Nat → List Nat
  | 0 => []
  | k + 1 =>
    let N := s.hg.nextTurn - 1 - k
    let r := s.turnEdgesAhead n k
    if k < s.hg.nextTurn ∧ N % (s.get (HG_TRIG_CFG_DIV n) + 1) = 0 ∧ s.now < s.turnEdgeNs n N then
      insertNs (s.turnEdgeNs n N) r
    else r

/-- The trigger enters TURN mode. -/
def State.enterTurnMode (s : State) (n : Nat) : State :=
  if s.turnsRun then
    s.setTrig n { s.trig n with
      turnEdges := s.turnEdgesAhead n ((s.reg (HG_TRIG_PHASE n)).toNat * 256 / s.pair HG_TURN_PER_LO + 2) }
  else s

/-- A write to HG_TRIG_CFG[n] (R77, R78, R82, R94): MODE and POL at once, DIV staged; leaving ONE_SHOT or PERIODIC clears
ARM; then a write of 1 to ARM acts where ARM is 0 (R40). -/
def State.trigCfg (s : State) (n : Nat) (v : Word) : State :=
  let old := s.get (HG_TRIG_CFG_MODE n)
  let mode := v.toNat % 4
  let s1 := ((s.put (HG_TRIG_CFG_MODE n) mode).putB (HG_TRIG_CFG_POL n) (v.getLsbD 2))
  let s2 := { s1 with staged := spPut (fun _ => none) s1.staged (HG_TRIG_CFG n) (some (v &&& 0xF0)) }
  let s3 := if old = mode then s2
    else
      let c := (s2.disarm n)
      let c := c.setTrig n { c.trig n with turnEdges := [], last := none }
      if mode = 3 then c.enterTurnMode n else c
  if v.getLsbD 3 && !s3.is (HG_TRIG_CFG_ARM n) then
    if mode = 1 then s3.armOneShot n else if mode = 2 then s3.armPeriodic n else s3
  else s3

/-- R77: a new compare value; an armed one-shot is retargeted, and fires at once where the new target has been reached. -/
def State.trigCmpPlace (s : State) (n v : Nat) : State :=
  let s1 := s.setPair (HG_TRIG_CMP_LO n) (v % 2 ^ 40)
  if s1.get (HG_TRIG_CFG_MODE n) = 1 ∧ (s1.trig n).armed = true ∧ 0 ≤ cmpDiff s1.now (s1.trigCmp n) then
    ((s1.trigPulse n).disarm n).trigLate n
  else s1

/-- R79, R83: a new period; a running series goes on from its last instant, past the instants already reached. -/
def State.trigPerPlace (s : State) (iid n v : Nat) : State :=
  if v < 2048 then s.report 0x1003 iid
  else
    let s1 := s.setPair (HG_TRIG_PER_LO n) v
    let t := s1.trig n
    if s1.get (HG_TRIG_CFG_MODE n) = 2 ∧ t.armed = true then
      match t.last with
      | none => s1
      | some u =>
        let nx := firstAhead s1.now (u + v) v
        let s2 := s1.setTrig n { t with next := some nx }
        if nx = u + v then s2 else s2.trigLate n
    else s1

/-- The next edge instant of trigger n, in whole ns, where it has one (R76, R78-R80). -/
def State.trigDue (s : State) (n : Nat) : Option Nat :=
  let t := s.trig n
  let mode := s.get (HG_TRIG_CFG_MODE n)
  if mode = 1 ∧ t.armed = true then some (cmpInstant s.now (s.trigCmp n))
  else if mode = 2 ∧ t.armed = true then t.next.map nearestNs
  else if mode = 3 then t.turnEdges.head?
  else none

/-- The instant of trigger n has had its edge: a one-shot is done, a series goes on by PER, a turn edge leaves the list. A
series whose PER is below the range of R78 has no further instant. -/
def State.trigNext (s : State) (n : Nat) : State :=
  let t := s.trig n
  let mode := s.get (HG_TRIG_CFG_MODE n)
  if mode = 1 then s.disarm n
  else if mode = 2 then
    s.setTrig n { t with last := t.next, next := if s.trigPer n < 2048 then none else t.next.map (· + s.trigPer n) }
  else s.setTrig n { t with turnEdges := t.turnEdges.tail }

/-- TRIGGER_EDGE (R78): Device Time runs on to the next edge instant, and the edge falls. -/
def State.trigEdge (s : State) (n : Nat) : State :=
  match s.trigDue n with
  | none => s
  | some ns => ((s.advanceTo (ns * 256)).trigPulse n).trigNext n

/-- TRIGGER_PULSE_END (R81); the bit of a pin that has been handed over clears (R577). -/
def State.trigPulseEnd (s : State) (n : Nat) : State :=
  match (s.trig n).pulseEnd with
  | none => s
  | some e =>
    let s1 := s.advanceTo e
    let s2 := s1.setTrig n { s1.trig n with pulseEnd := none }
    if s2.sv.oeLate.testBit n then
      { s2.setReg HG_TRIG_OE (s2.reg HG_TRIG_OE &&& ~~~ (BitVec.twoPow 32 n)) with
          sv := { s2.sv with oeLate := s2.sv.oeLate - 2 ^ n } }
    else s2

/-- The level of pin TRIGn (R81): active during a pulse while its bit of HG_TRIG_OE is 1. -/
def State.trigPin (s : State) (n : Nat) : Bool :=
  let on := (s.trig n).pulseEnd.isSome && (s.reg HG_TRIG_OE).getLsbD n
  on != s.is (HG_TRIG_CFG_POL n)

/-- TRIGGER_ARM (R77). -/
def execTriggerArm (iid : Iid) (n : Fin 16) (v : Word) (s : State) : Ans :=
  s.done (s.writeWith iid (HG_TRIG_CFG n) fun s => s.trigCfg n v)

/-- TRIGGER_CMP_WRITE (R77, R730). -/
def execTriggerCmpWrite (iid : Iid) (n : Fin 16) (hi : Word) (s : State) : Ans :=
  s.done (s.writeWith iid (HG_TRIG_CMP_HI n) fun s =>
    (s.dropLo iid.toNat (HG_TRIG_CMP_LO n)).trigCmpPlace n (s.pairValue iid.toNat (HG_TRIG_CMP_LO n) hi))

/-- TRIGGER_PERIOD_WRITE (R79, R730). -/
def execTriggerPeriodWrite (iid : Iid) (n : Fin 16) (hi : Word) (s : State) : Ans :=
  s.done (s.writeWith iid (HG_TRIG_PER_HI n) fun s =>
    (s.dropLo iid.toNat (HG_TRIG_PER_LO n)).trigPerPlace iid.toNat n (s.pairValue iid.toNat (HG_TRIG_PER_LO n) hi))

/-- TRIGGER_EDGE (R78). -/
def execTriggerEdge (n : Fin 16) (s : State) : Ans := s.done (s.trigEdge n)

/-- TRIGGER_PULSE_END (R81). -/
def execTriggerPulseEnd (n : Fin 16) (s : State) : Ans := s.done (s.trigPulseEnd n)

end Sys2Proof.Machine
end

