-- ==== Sys2Proof/Machine/FrameStore.lean ====
section
/-! DEFINITION. The Frame Store: allocations, landing and ECC (R103, R423, R732). -/

namespace Sys2Proof.Machine

open Reg

/-- The Initiator ID of the Spindle's own units (R137). -/
def spIid : Nat := 16

/-- A byte of the Frame Store that nothing has written (log entry 3). -/
def fsUnset : Nat → Byte := fun _ => 0

/-- The frame store's words that hold an uncorrectable error. -/
def State.fsIsBad (s : State) (w : Nat) : Bool := spGet (fun _ => false) s.fsBad w

/-- Clear the errors of `n` whole words from word `w` on. -/
def clearBad : Sparse Bool → Nat → Nat → Sparse Bool
  | [], _, _ => []
  | (k, v) :: r, w, n => if w ≤ k ∧ k < w + n then clearBad r w n else (k, v) :: clearBad r w n

/-- The words of which a write of `n` bytes at `a` covers only a part (R732). -/
def partWords (a n : Nat) : List Nat :=
  if n = 0 then []
  else
    let w0 := a / 8
    let w1 := (a + n - 1) / 8
    let p0 := a % 8 != 0 || a + n < w0 * 8 + 8
    let p1 := (a + n) % 8 != 0
    (if p0 then [w0] else []) ++ (if p1 && w1 != w0 then [w1] else [])

/-- R732: a write of bytes into the Frame Store; `bad` lists the words that read uncorrectable where they are merged. -/
def State.fsWrite (s : State) (iid a : Nat) (bs : List Byte) (bad : List Nat) : State :=
  let part := partWords a bs.length
  let found := part.filter fun w => bad.contains w || s.fsIsBad w
  let w0 := (a + 7) / 8
  let s1 : State := { s with fs := spPuts fsUnset s.fs a bs, fsBad := clearBad s.fsBad w0 ((a + bs.length) / 8 - w0) }
  let s2 := found.foldl (fun s _ => s.report 0x5012 iid) s1
  { s2 with fsBad := found.foldl (fun m w => spPut (fun _ => false) m w true) s2.fsBad }

/-- `n` bytes of the Frame Store from offset `a`. -/
def State.fsRead (s : State) (a n : Nat) : List Byte := spGets fsUnset s.fs a n

/-- A user of the Frame Store: stream s as s, IMU ring i as 64 + i, CAN log c as 68 + c. -/
abbrev FsUser := Nat

/-- The bytes a user owns, as offset and length; none while it is disabled (R103, R126, R129). -/
def State.fsAlloc (s : State) (u : FsUser) : Option (Nat × Nat) :=
  if u < 64 then
    if s.is (SP_STR_SRC_EN u) then
      some (s.get (SP_STR_SLOT_BASE u) * 65536, s.get (SP_STR_SLOT_SIZE u) * s.get (SP_STR_SLOT_COUNT u) * 65536)
    else none
  else if u < 68 then
    if s.is (SP_IMU_CFG_EN (u - 64)) then
      some (s.get (SP_IMU_RING_BASE (u - 64)) * 65536, 64 * (256 * 2 ^ s.get (SP_IMU_RING_SIZE (u - 64))))
    else none
  else if s.is (SP_CAN_CTL_EN (u - 68)) then
    some (s.get (SP_CAN_LOG_BASE (u - 68)) * 65536, 128 * (256 * 2 ^ s.get (SP_CAN_LOG_SIZE (u - 68))))
  else none

/-- The spans that users below `n` other than `u` own. -/
def State.fsOthers (s : State) (u : FsUser) : Nat → List (Nat × Nat)
  | 0 => []
  | n + 1 => (if n = u then [] else (s.fsAlloc n).toList) ++ s.fsOthers u n

/-- R103: what lands in an overlap is undefined: a free value in place of each such byte. -/
def State.blur (s : State) (spans : List (Nat × Nat)) (a : Nat) : List Byte → List Byte × State
  | [] => ([], s)
  | b :: r =>
    let hit := spans.any fun (o, n) => decide (o ≤ a ∧ a < o + n)
    let (b', s') := if hit then (BitVec.ofNat 8 s.free, s.took) else (b, s)
    let (r', s2) := s'.blur spans (a + 1) r
    (b' :: r', s2)

/-- The Frame Store's size (R422). -/
def fsSize : Nat := 48 * 2 ^ 20

/-- Bytes of user `u` land at `a`. Nothing outside the Frame Store is touched (R103). -/
def State.land (s : State) (u : FsUser) (a : Nat) (bs : List Byte) (bad : List Nat) : State :=
  let bs := bs.take (fsSize - a)
  let spans := (s.fsOthers u 70).filter fun (o, n) => decide (o < a + bs.length ∧ a < o + n)
  if spans.isEmpty then s.fsWrite spIid a bs bad
  else
    let (bs', s1) := s.blur spans a bs
    s1.fsWrite spIid a bs' bad

end Sys2Proof.Machine
end

