-- ==== Sys2Proof/Machine/Freshness.lean ====
section
/-! DEFINITION. The Frame Freshness Monitor: the frame header, judging a frame, absence, and the steps that absence demands
(05_freshness_fallback.md; R115, R118). -/

namespace Sys2Proof.Machine

open Reg

/-! ### The Freshness table -/

/-- The entry of stream n in the table in force (R150). -/
def State.freshEntry (s : State) (n : Nat) : List Byte := (s.freshTab.bytes.drop (64 + 16 * n)).take 16

/-- HOLD_MAX in force, in ms (R149). -/
def State.holdMax (s : State) : Nat := leAt s.freshTab.bytes 8 2

/-! ### Streams -/

def State.stream (s : State) (n : Nat) : SpStream := spGet (fun _ => {}) s.streams n

def State.setStream (s : State) (n : Nat) (x : SpStream) : State := { s with streams := spPut (fun _ => {}) s.streams n x }

/-- The frame's payload format (R139). -/
def SpFrame.format (f : SpFrame) : Nat := f.fmt.toNat % 8

def SpFrame.flag (f : SpFrame) (b : Nat) : Bool := f.flags / 2 ^ b % 2 == 1

def SpFrame.setFlag (f : SpFrame) (b : Nat) : SpFrame := { f with flags := f.flags ||| 2 ^ b }

/-- The content signature (R151). -/
def SpFrame.sig (f : SpFrame) : Word := ~~~ f.crc

/-- The 64-byte frame header (R115). SIG is zero while the frame is open. -/
def SpFrame.header (f : SpFrame) (closed : Bool) : List Byte :=
  dtBytes f.fs ++ dtBytes f.fe ++ leBytes 2 f.num ++ leBytes 2 f.lines ++ leBytes 4 f.bytes ++ leBytes 4 f.seq ++
    leBytes 4 (if closed then f.sig.toNat else 0) ++ leBytes 2 f.flags ++ leBytes 2 f.crcLines ++ leBytes 4 f.turnField ++
    leBytes 2 f.trigFired ++ leBytes 6 0

/-- Write the frame's header into its slot. -/
def State.putHeader (s : State) (n : Nat) (f : SpFrame) (closed : Bool) : State := s.land n f.addr (f.header closed) []

/-- A slot becomes FREE, the last in the order (R118). -/
def SpStream.freeSlot (x : SpStream) (k : Nat) : SpStream := { x with slots := listSet x.slots k {}, order := x.order ++ [k] }

/-! ### Judging (R152-R154) -/

/-- R154: the plausibility limits of an entry. -/
def limitsPass (f : SpFrame) (e : List Byte) : Bool :=
  let lo := leAt e 10 2
  let hi := leAt e 12 2
  if f.format = 1 then hi == 0 || decide (f.badPixels * 256 ≤ hi * f.pixels)
  else if f.format = 3 then decide (lo * 1024 ≤ f.cds) && (hi == 0 || decide (f.cds ≤ hi * 1024))
  else if f.format = 4 then decide (lo * 16 ≤ f.points)
  else true

/-- What the monitor finds of a frame. -/
structure Verdict where
  ok : Bool
  codes : List Nat
  implausible : Bool
  run : Nat
deriving DecidableEq, Repr

/-- The successor of a frame number (R150). -/
def fnSucc (mode n : Nat) : Nat := if n = 0xFFFF then (if mode = 1 then 1 else 0) else n + 1

/-- R152: judge a frame against its predecessor. -/
def judge (f : SpFrame) (p : Option SpPred) (run : Nat) : Verdict :=
  let e := f.entry
  let fl := leAt e 0 1
  let fn := fl / 4 % 4
  let trigCheck := fl / 16 % 2 == 1
  let frozenN := leAt e 1 1
  let delta (q : SpPred) := (f.trigFired + 65536 - q.trigFired) % 65536
  let repeated := match p with
    | none => false
    | some q => (fn != 0 && f.num == q.num) || (trigCheck && delta q == 0)
  let gap := match p with
    | none => false
    | some q => (fn != 0 && f.num != q.num && f.num != fnSucc fn q.num) || (trigCheck && decide (1 < delta q))
  let run' := match p with
    | none => 1
    | some q => if f.sig = q.sig then run + 1 else 1
  let frozen := frozenN != 0 && decide (frozenN ≤ run')
  let within := limitsPass f e
  let anchored := f.format != 3 || !trigCheck || f.ext
  let whole := f.flag 0 && !f.flag 1 && !f.flag 3 && !f.flag 4 && !f.flag 5 && decide (f.crcLines ≤ leAt e 4 2)
  { ok := whole && !repeated && !frozen && within && anchored
    codes := (if frozen then [0x2040] else []) ++ (if repeated then [0x2041] else []) ++ (if gap then [0x2042] else [])
    implausible := !within
    run := run' }

/-- R118: the frame's slot leaves LANDED once it is judged: it belongs to no turn of the turns that run. -/
def State.ofNoTurn (s : State) (f : SpFrame) : Bool :=
  match f.turn with
  | none => true
  | some (r, _) => !(s.turnsRun && r == s.hg.run)

/-- FRAME_JUDGE (R152, R606): judge the frame of a slot that has left LANDING and waits. -/
def State.judgeSlot (s : State) (n k : Nat) : State :=
  let x := s.stream n
  match x.slots[k]? with
  | none => s
  | some sl =>
    if !sl.toJudge then s
    else
      let v := judge sl.frame x.pred x.run
      let f := sl.frame.setFlag (if v.ok then 6 else 7)
      let x1 := { x with pred := some ⟨f.num, f.trigFired, f.sig⟩, run := v.run,
                         slots := listSet x.slots k { sl with frame := f, toJudge := false } }
      let x2 := if s.ofNoTurn f then x1.freeSlot k else x1
      let s1 := ((s.putHeader n f true).setStream n x2).reportAll spIid v.codes
      if v.implausible then s1.safety 0xB005 (a := n) else s1

/-- Judge every waiting frame of the first `k` slots of a stream, lowest slot first. -/
def State.judgeSlots (s : State) (n : Nat) : Nat → State
  | 0 => s
  | k + 1 => (s.judgeSlots n k).judgeSlot n k

/-- Judge every waiting frame of the first `n` streams. -/
def State.judgeAll (s : State) : Nat → State
  | 0 => s
  | n + 1 => (s.judgeAll n).judgeSlots n 8

/-! ### Demands (R156, R157, R160) -/

/-- The causes with cause bit `c` where the step is above F0. -/
def causeBit (d c : Nat) : Nat := if d = 0 then 0 else 2 ^ c

/-- A cause, by its bit of R217, demands a step in the interval. -/
def State.demandStep (s : State) (d c : Nat) : State :=
  { s with fresh := { s.fresh with demand := max s.fresh.demand d, causes := s.fresh.causes ||| causeBit d c } }

/-- A receive mailbox of controller c. -/
def State.canRx (s : State) (c m : Nat) : CanRx := spGet (fun _ => {}) (spGet (fun _ => {}) s.cans c).rx m

/-- Some mailbox of the first `m` of controller c carries a mark of wheel data absent (R130). -/
def State.canMark (s : State) (c : Nat) : Nat → Bool
  | 0 => false
  | m + 1 => (s.canRx c m).mark || s.canMark c m

/-- Wheel data are absent (R157). -/
def State.wheelAbsent (s : State) : Bool :=
  let req := leAt s.freshTab.bytes 12 1
  (req % 2 == 1 && s.canMark 0 64) || (req / 2 % 2 == 1 && s.canMark 1 64)

/-- Holdover runs (R157). -/
def State.holdover (s : State) : Bool := s.fresh.holdSince.isSome

/-- The holdover time, in whole ms (R158). -/
def State.holdMs (s : State) : Nat :=
  match s.fresh.holdSince with
  | none => 0
  | some t => (s.hg.dt - t) / 256000000

/-- The step that an expired holdover demands (R157). -/
def State.expiredStep (s : State) : Nat := if s.fresh.expired then 4 else 0

/-- The causes that stand from one turn to the next demand their steps: the skip window, wheel data absent, holdover. An absence
judged at a turn start demands its step there (R724, log entry 67). -/
def State.demandLasting (s : State) : State :=
  ((s.demandStep s.fresh.skipStep 2).demandStep (if s.wheelAbsent then 3 else 0) 3).demandStep s.expiredStep 4

/-- Every cause that persists at this instant demands its step, the absences of the turn that runs among them. -/
def State.demandStanding (s : State) : State :=
  ((s.demandLasting.demandStep s.fresh.strStep 0).demandStep s.fresh.grpStep 1).demandStep (if s.fresh.imuAbsent then 3 else 0) 3

/-- R157: holdover starts with the first absence and ends with the last; one that has run beyond HOLD_MAX by then counts
(R167). -/
def State.holdUpdate (s : State) : State :=
  let absent := s.fresh.imuAbsent || s.wheelAbsent
  let wheel := if s.wheelAbsent then 3 else 0
  match s.fresh.holdSince with
  | none => if absent then { s with fresh := { s.fresh with holdSince := some s.hg.dt } }.demandStep wheel 3 else s
  | some t =>
    if absent then s.demandStep wheel 3
    else
      let s1 := if t + s.holdMax * 256000000 ≤ s.hg.dt then s.demandStep 4 4 else s
      { s1 with fresh := { s1.fresh with holdSince := none, expired := false } }

/-- HOLDOVER_EXPIRY (R157): Device Time runs on to the instant at which holdover exceeds HOLD_MAX. -/
def State.holdExpire (s : State) : State :=
  match s.fresh.holdSince with
  | none => s
  | some t =>
    let s1 := s.advanceTo (t + s.holdMax * 256000000)
    { s1 with fresh := { s1.fresh with expired := true } }.demandStep 4 4

/-! ### Absence (R155, R156) -/

/-- The stream's trigger fired an edge from instant a up to instant b, in units. -/
def State.trigFiredIn (s : State) (t a b : Nat) : Bool := (s.trig t).edges.any fun e => a ≤ e * 256 && decide (e * 256 < b)

/-- R155: stream n is expected in turn N. -/
def State.expected (s : State) (n N : Nat) : Bool :=
  let x := leAt (s.freshEntry n) 0 1 % 4
  x == 1 || (x == 2 && s.is (SP_STR_SRC_TRIG_VALID n) && N != 0 &&
    s.trigFiredIn (s.get (SP_STR_SRC_TRIG n)) (s.turnInstant (N - 1)) (s.turnInstant N))

/-- A CLEARED frame is offered to the turn that starts. -/
def State.offered (s : State) (n : Nat) : Bool := (s.stream n).slots.any fun sl => sl.st == .held && sl.frame.flag 6

/-- Presence of streams below `n` at the start of turn N: counts, 0x2043, and the present mask. -/
def State.absences (s : State) (N : Nat) : Nat → State
  | 0 => { s with fresh := { s.fresh with present := BitVec.allOnes 64 } }
  | n + 1 =>
    let s1 := s.absences N n
    let x := s1.stream n
    if !s1.expected n N then s1.setStream n { x with absent := false }
    else if s1.offered n then s1.setStream n { x with absent := false, absCount := 0 }
    else
      let s2 := (s1.setStream n { x with absent := true, absCount := x.absCount + 1 }).report 0x2043 spIid
      { s2 with fresh := { s2.fresh with present := s2.fresh.present &&& ~~~ (BitVec.twoPow 64 n) } }

/-- The step that streams below `n` demand by their own absence (R156). -/
def State.streamStep (s : State) : Nat → Nat
  | 0 => 0
  | n + 1 =>
    let e := s.freshEntry n
    let c := (s.stream n).absCount
    max (s.streamStep n) (if c != 0 && decide (leAt e 7 1 ≤ c) then leAt e 6 1 else 0)

/-- The members of group g among the streams below `n` that are expected in turn N. -/
def State.members (s : State) (N g : Nat) : Nat → List Nat
  | 0 => []
  | n + 1 =>
    let b := leAt (s.freshEntry n) 8 1
    s.members N g n ++ (if b / 128 == 1 && b % 8 == g && s.expected n N then [n] else [])

/-- The step that groups below `g` demand in turn N (R156). -/
def State.groupStep (s : State) (N : Nat) : Nat → Nat
  | 0 => 0
  | g + 1 =>
    let ms := s.members N g 64
    max (s.groupStep N g) (if !ms.isEmpty && ms.all (fun n => (s.stream n).absent) then leAt s.freshTab.bytes g 1 else 0)

def State.imu (s : State) (i : Nat) : Imu := spGet (fun _ => {}) s.imus i

def State.setImu (s : State) (i : Nat) (x : Imu) : State := { s with imus := spPut (fun _ => {}) s.imus i x }

/-- R157: the required IMU slots below `i` that are absent from turn N, which starts, by bit. No sample is stamped in a turn before
turn 0 (log entry 68). -/
def State.imuMissing (s : State) (N : Nat) : Nat → Nat
  | 0 => 0
  | i + 1 =>
    let k := if N = 0 then 0 else (s.imu i).count
    s.imuMissing N i + if leAt s.freshTab.bytes 10 1 / 2 ^ i % 2 == 1 &&
      (decide (k < leAt s.freshTab.bytes 11 1) || (decide (N ≠ 0) && (s.imu i).toSeen)) then 2 ^ i else 0

/-- A new turn begins for the IMU slots below `i`. -/
def State.imuTurn (s : State) : Nat → State
  | 0 => s
  | i + 1 =>
    let s1 := s.imuTurn i
    let x := s1.imu i
    s1.setImu i { x with count := 0, toSeen := x.inTimeout }

/-- R155-R158: the monitor's work at the start of turn N, after frames have been offered and under turn N's table. -/
def State.freshTurn (s : State) (N : Nat) : State :=
  let s1 := s.absences N 64
  let s2 : State := { s1 with fresh := { s1.fresh with imuAbsent := s1.imuMissing N 4 != 0, imuGone := s1.imuMissing N 4 } }
  let s3 : State := { s2 with fresh := { s2.fresh with strStep := s2.streamStep 64, grpStep := s2.groupStep N 8 } }
  let s4 := ((s3.demandStep s3.fresh.strStep 0).demandStep s3.fresh.grpStep 1).demandStep (if s3.fresh.imuAbsent then 3 else 0) 3
  (s4.imuTurn 4).holdUpdate

/-! ### Slots at a turn boundary (R116, R118) -/

/-- The slots of a stream from index k on, at the start of turn N of run r: HELD ones become FREE; LANDED ones are offered
to the turn, or become FREE. -/
def handSlots (r N : Nat) (x : SpStream) : Nat → List SpSlot → SpStream
  | _, [] => x
  | k, sl :: rest =>
    let x1 := match sl.st with
      | .held => x.freeSlot k
      | .landed =>
        if N != 0 && sl.frame.turn == some (r, N - 1) && !sl.frame.flag 5 then
          { x with slots := listSet x.slots k { sl with st := .held } }
        else x.freeSlot k
      | _ => x
    handSlots r N x1 (k + 1) rest

/-- Slots of the streams below `n` at the start of turn N. -/
def State.handOver (s : State) (N : Nat) : Nat → State
  | 0 => s
  | n + 1 =>
    let s1 := s.handOver N n
    let x := s1.stream n
    s1.setStream n (handSlots s1.hg.run N x 0 x.slots)

/-- The slots of a stream from index k on, as turns stop. -/
def dropSlots (x : SpStream) : Nat → List SpSlot → SpStream
  | _, [] => x
  | k, sl :: rest => dropSlots (if sl.st == .held || sl.st == .landed then x.freeSlot k else x) (k + 1) rest

/-- Turns stop (R62, R118): LANDED and HELD slots of the streams below `n` become FREE. -/
def State.slotsStop (s : State) : Nat → State
  | 0 => s
  | n + 1 =>
    let s1 := s.slotsStop n
    let x := s1.stream n
    s1.setStream n (dropSlots x 0 x.slots)

/-- FRAME_JUDGE (R152). -/
def execFrameJudge (n : Fin 64) (k : Fin 8) (s : State) : Ans := s.done (s.judgeSlot n k)

/-- HOLDOVER_EXPIRY (R157). -/
def execHoldoverExpiry (s : State) : Ans := s.done s.holdExpire

end Sys2Proof.Machine
end

