-- ==== Sys2Proof/Machine/Spindle.lean ====
section
/-! DEFINITION. Streams and CSI-2 receive: stream configuration, frame start and end, and long packets (R103-R118, R140,
R141). -/

namespace Sys2Proof.Machine

open Reg

/-! ### Stream configuration (R105) -/

/-- The configuration of stream n is in range (R139) and its ring ends within the Frame Store. -/
def State.streamCfgOk (s : State) (n : Nat) : Bool :=
  let fmt := s.get (SP_STR_FMT_FORMAT n)
  let base := s.get (SP_STR_SLOT_BASE n)
  let size := s.get (SP_STR_SLOT_SIZE n)
  let count := s.get (SP_STR_SLOT_COUNT n)
  decide (fmt ≤ 4) && decide (1 ≤ s.get (SP_STR_FMT_LINE_STRIDE n)) && decide (base ≤ 767) &&
    decide (1 ≤ size ∧ size ≤ 768) && decide (2 ≤ count ∧ count ≤ 8) && decide (base + size * count ≤ 768) &&
    (fmt != 3 || s.is (SP_STR_SRC_TRIG_VALID n))

/-- EN goes to 1 (R105, R115, R118): every slot becomes FREE at once and the counts start again; a frame that still lands
keeps its slot and completes. -/
def State.streamOn (s : State) (n : Nat) : State :=
  let x := s.stream n
  let count := s.get (SP_STR_SLOT_COUNT n)
  let land : Option Nat := x.opened.map (·.1)
  let slots := (List.range count).map fun k => if land = some k then { st := .landing } else ({} : SpSlot)
  let s1 := s.setStream n { slots := slots, order := (List.range count).filter fun k => land != some k, opened := x.opened,
                            trigAtEn := (s.trig (s.get (SP_STR_SRC_TRIG n))).total, absCount := x.absCount, absent := x.absent }
  s1.setReg (SP_STR_SEQ n) 0

/-- The configuration fields of SP_STR_SRC: every field but EN. -/
def srcMask : Word := 0x3FFFFE

/-- A write to SP_STR_SRC[n] (R105). -/
def State.strSrcWrite (s : State) (iid n : Nat) (v : Word) : State :=
  let old := s.reg (SP_STR_SRC n)
  if s.is (SP_STR_SRC_EN n) then
    let s1 := if v.getLsbD 0 then s else s.putB (SP_STR_SRC_EN n) false
    if v.getLsbD 0 || (v &&& srcMask) != (old &&& srcMask) then s1.report 0x2008 iid else s1
  else
    let s1 := s.setReg (SP_STR_SRC n) (v &&& srcMask)
    if !v.getLsbD 0 then s1
    else if s1.streamCfgOk n then (s1.putB (SP_STR_SRC_EN n) true).streamOn n
    else s1.report 0x200B iid

/-- A write to another configuration register of stream n (R105): its ranges are checked at EN. -/
def State.strCfgWrite (s : State) (iid n off : Nat) (v : Word) : State :=
  if s.is (SP_STR_SRC_EN n) then s.report 0x2008 iid
  else match regRow off with
    | some r => s.setReg off (placed r (s.reg off) v)
    | none => s

/-! ### Matching (R106-R108) -/

/-- SP_STR_SRC value `w` names CSI-2 port p and virtual channel vc. -/
def srcIs (w : Word) (p vc : Nat) : Bool := !w.getLsbD 1 && bitsOf w.toNat 2 3 == p && bitsOf w.toNat 5 4 == vc

/-- Its data type. -/
def srcDt (w : Word) : Nat := bitsOf w.toNat 9 6

/-- The configuration by which stream n takes packets: that of the frame that lands, or its own while EN is 1. -/
def State.srcOf (s : State) (n : Nat) : Option Word :=
  match (s.stream n).opened with
  | some (_, f) => some f.src
  | none => if s.is (SP_STR_SRC_EN n) then some (s.reg (SP_STR_SRC n)) else none

/-- The streams below `n` of a port and virtual channel; of two with one data type only the lower-numbered (R106). -/
def State.streamsOf (s : State) (p vc : Nat) : Nat → List (Nat × Nat)
  | 0 => []
  | n + 1 =>
    let r := s.streamsOf p vc n
    match s.srcOf n with
    | some w => if srcIs w p vc && !r.any (fun q => q.2 == srcDt w) then r ++ [(n, srcDt w)] else r
    | none => r

/-- What the header check does (R108): the packet is used, or the state in which it is discarded. -/
def State.header (s : State) (p : Nat) (ecc : Ecc) : State × Bool :=
  match ecc with
  | .ok => (s, true)
  | .corrected => (s.bump (SP_PORT_ERR_ECC_COR p), true)
  | .uncorrectable => ((s.bump (SP_PORT_ERR_ECC_UNC p)).report 0x2001 spIid, false)

/-! ### Opening and closing (R114-R118) -/

/-- A stamp at port p (R114). -/
def State.stamp (s : State) (p : Nat) : Nat := s.hg.dt - (s.reg (SP_PORT_LAT p)).toNat * 256

/-- The turn in which an instant falls (R116): none while turns are not running. -/
def State.turnAt (s : State) (u : Nat) : Option Nat :=
  if s.turnsRun && decide (s.turnInstant 0 ≤ u) then
    some (min (s.hg.nextTurn - 1) ((u - s.turnInstant 0) / s.pair HG_TURN_PER_LO))
  else none

/-- A frame of stream n that starts at stamp u with frame number `num`, in slot k, SEQ being the count before it. -/
def State.newFrame (s : State) (n k u num : Nat) : SpFrame :=
  let t := s.turnAt u
  let src := s.reg (SP_STR_SRC n)
  let e := s.freshEntry n
  let size := s.get (SP_STR_SLOT_SIZE n) * 65536
  { src := src, fmt := s.reg (SP_STR_FMT n), expLines := s.get (SP_STR_GEOM_LINES n),
    addr := s.get (SP_STR_SLOT_BASE n) * 65536 + k * size, cap := size, fs := u, num := num,
    seq := (s.reg (SP_STR_SEQ n)).toNat,
    turnField := (t.getD (s.reg HG_TURN_NUM_LO).toNat) % 2 ^ 32, turn := t.map fun N => (s.hg.run, N),
    trigFired := if src.getLsbD 21 then s.firedAt (s.get (SP_STR_SRC_TRIG n)) u else 0,
    lstep := max 1 (leAt e 2 1), bstep := max 1 (leAt e 3 1) }

/-- The frame of an earlier stay in a slot is judged before the slot takes another (R152). -/
def State.openIn (s : State) (n k u num : Nat) : State :=
  let s0 := s.judgeSlot n k
  let x := s0.stream n
  let f := s0.newFrame n k u num
  let x1 := { x with slots := listSet x.slots k { st := .landing }, order := x.order.filter (· != k), opened := some (k, f) }
  (((s0.setStream n x1).put (SP_STR_STAT_LANDING n) k).putB (SP_STR_STAT_OPEN n) true).putHeader n f false

/-- A frame start on stream n that EN enables (R114, R118): a slot, or a drop; SEQ advances either way. -/
def State.openFrame (s : State) (n u num : Nat) : State :=
  let s1 := match (s.stream n).order with
    | k :: _ => s.openIn n k u num
    | [] => (s.bump (whole (SP_STR_DROP n))).report 0x2005 spIid
  s1.setReg (SP_STR_SEQ n) (s1.reg (SP_STR_SEQ n) + 1)

/-- R116: the frame is late: the turn that would use it starts at or before the instant of its close. -/
def State.isLate (s : State) (f : SpFrame) (close : Nat) : Bool :=
  match f.turn with
  | none => false
  | some (r, N) => r == s.hg.run && s.turnsRun && (s.is HG_TURN_CTL_RUN || decide (N + 1 < s.hg.nextTurn)) &&
      decide (s.turnInstant (N + 1) ≤ close)

/-- The frame of stream n that lands closes at instant `close`: its slot leaves LANDING (R116-R118). -/
def State.closeWith (s : State) (n close : Nat) (f0 : SpFrame) (k : Nat) : State :=
  let late := s.isLate f0 close
  let f := { (if late then f0.setFlag 5 else f0) with entry := s.freshEntry n }
  let x := s.stream n
  let x1 := { x with opened := none, slots := listSet x.slots k { st := .landed, frame := f, toJudge := true } }
  let s1 := (((s.setStream n x1).put (SP_STR_STAT_LAST n) k).putB (SP_STR_STAT_OPEN n) false).putHeader n f true
  if late then s1.report 0x2006 spIid else s1

/-- A frame end (R117): COMPLETE, FE_TIME, and SHORT where lines are missing. -/
def State.closeComplete (s : State) (n fe : Nat) : State :=
  match (s.stream n).opened with
  | none => s
  | some (k, f) =>
    let short := decide (f.lines < f.expLines)
    let f1 := { f with fe := fe }.setFlag 0
    let s1 := s.closeWith n fe (if short then f1.setFlag 3 else f1) k
    if short then s1.report 0x2007 spIid else s1

/-- A close by a new frame start at stamp u (R117): NO_FE; FE_TIME stays zero. -/
def State.closeNoFe (s : State) (n u : Nat) : State :=
  match (s.stream n).opened with
  | none => s
  | some (k, f) => s.closeWith n u (f.setFlag 4) k

/-- A frame start packet on one stream: it ends the frame that lands, and opens the next where EN is 1 (R105). -/
def State.streamFs (s : State) (n u num : Nat) : State :=
  let s1 := s.closeNoFe n u
  if s1.is (SP_STR_SRC_EN n) then s1.openFrame n u num else s1

/-- A short packet that no stream takes (R108). -/
def State.unmatched (s : State) (p : Nat) : State := s.bump (SP_PORT_ERR_UNMATCHED p)

/-- FRAME_START (R108, R114). -/
def State.spFrameStart (s : State) (p vc num : Nat) (ecc : Ecc) : State :=
  if !s.is (SP_PORT_CFG_EN p) then s
  else
    let (s1, use) := s.header p ecc
    if !use then s1
    else match s1.streamsOf p vc 64 with
      | [] => s1.unmatched p
      | l => l.foldl (fun s q => s.streamFs q.1 (s.stamp p) num) s1

/-- FRAME_END (R108, R117). -/
def State.spFrameEnd (s : State) (p vc : Nat) (ecc : Ecc) : State :=
  if !s.is (SP_PORT_CFG_EN p) then s
  else
    let (s1, use) := s.header p ecc
    if !use then s1
    else match s1.streamsOf p vc 64 with
      | [] => s1.unmatched p
      | l => l.foldl (fun s q => s.closeComplete q.1 (s.stamp p)) s1

/-! ### Long packets (R108-R113) -/

/-- What a long packet has landed, for the units that read it on: the stream, the frame, where the bytes lie, and the CD
words. -/
structure Landed where
  stream : Nat
  row : Nat
  addr : Nat
  bytes : List Byte
  cds : List Nat
deriving DecidableEq, Repr

/-- The bytes of the blocks that a signature takes from a line: every `step`-th 64-byte block (R151). -/
def sampleBlocks (step : Nat) : Nat → List Byte → Nat → List Byte
  | 0, _, _ => []
  | k + 1, bs, i =>
    if bs.isEmpty then []
    else (if i % step = 0 then bs.take 64 else []) ++ sampleBlocks step k (bs.drop 64) (i + 1)

/-- The 16-bit pixels of bytes, as all of them and those at 0x0000 or 0xFFFF (R154). -/
def depthCount : List Byte → Nat × Nat
  | a :: b :: r =>
    let (n, m) := depthCount r
    (n + 1, if (a = 0 ∧ b = 0) ∨ (a = 0xFF ∧ b = 0xFF) then m + 1 else m)
  | _ => (0, 0)

/-- Place the frame that lands. -/
def State.setOpen (s : State) (n k : Nat) (f : SpFrame) : State := s.setStream n { s.stream n with opened := some (k, f) }

/-- R108: a payload CRC error of the frame that lands. -/
def State.lineCrc (s : State) (n k : Nat) (f : SpFrame) (crcOk : Bool) : State × SpFrame :=
  if crcOk then (s, f)
  else
    let f1 := { f.setFlag 2 with crcLines := min (f.crcLines + 1) 65535, crcSaid := true }
    (if f.crcSaid then s else (s.report 0x2002 spIid).setOpen n k f1, f1)

/-- R117: a line or payload would pass the slot's end. -/
def State.truncated (s : State) (n k : Nat) (f : SpFrame) : State :=
  let s1 := s.setOpen n k { f.setFlag 1 with truncSaid := true }
  if f.truncSaid then s1 else s1.report 0x2004 spIid

/-- A line of a framed stream (R110, R111, R114, R151). -/
def State.landLine (s : State) (n k : Nat) (f : SpFrame) (payload : List Byte) (bad : List Nat) : State × Option Landed :=
  let stride := bitsOf f.fmt.toNat 8 16 * 64
  let off := 64 + f.rows * stride
  let bs := payload.take stride
  if f.cap < off + bs.length then (s.truncated n k { f with rows := f.rows + 1 }, none)
  else
    let sample := if f.rows % f.lstep = 0 then sampleBlocks f.bstep (bs.length / 64 + 1) bs 0 else []
    let (px, bpx) := if f.format = 1 then depthCount sample else (0, 0)
    let f1 := { f with rows := f.rows + 1, lines := min (f.lines + 1) 65535, bytes := f.bytes + bs.length,
                       crc := crc32cOn f.crc sample, pixels := f.pixels + px, badPixels := f.badPixels + bpx }
    ((s.setOpen n k f1).land n (f.addr + off) bs bad, some ⟨n, f.rows, f.addr + off, bs, []⟩)

/-- Payload that follows what the frame holds already: event words and points (R112, R122). -/
def State.landRun (s : State) (n k : Nat) (f : SpFrame) (bs : List Byte) (cds : List Nat) (bad : List Nat) :
    State × Option Landed :=
  let off := 64 + f.bytes
  if f.cap < off + bs.length then (s.truncated n k f, none)
  else
    let f1 := { f with rows := f.rows + 1, lines := min (f.lines + 1) 65535, bytes := f.bytes + bs.length,
                       crc := crc32cOn f.crc bs, cds := f.cds + cds.length }
    ((s.setOpen n k f1).land n (f.addr + off) bs bad, some ⟨n, f.rows, f.addr + off, bs, cds⟩)

/-- The 64-bit words of a payload. -/
def words64 : List Byte → List Nat
  | a :: b :: c :: d :: e :: f :: g :: h :: r => leNat [a, b, c, d, e, f, g, h] :: words64 r
  | _ => []

/-- The landed T of a word whose sensor time is `t` (R113). -/
def landedT (anchor : Nat × Nat) (t : Nat) : Nat := unsign 32 ((anchor.2 / 1000 : Nat) + ((t : Int) - anchor.1))

/-- One event word (R112, R113): the stream, the frame, and what lands of it; `trig` is the frame's trigger. -/
def State.eventWord (s : State) (n : Nat) (f : SpFrame) (w : Nat) : State × SpFrame × Option Nat :=
  let x := s.stream n
  let ty := bitsOf w 60 4
  let t := x.timeBase * 2 ^ 32 + w % 2 ^ 32
  let keep (a : Nat × Nat) := some (setBits w 0 32 (landedT a t))
  if ty = 0x8 then (s.setStream n { x with timeBase := w % 2 ^ 32 }, f, none)
  else if ty = 0xA then
    let tr := s.trig (bitsOf f.src.toNat 17 4)
    match tr.edges with
    | e :: _ =>
      if x.trigAtEn < tr.total then
        let a := (t, e)
        (s.setStream n { x with anchor := some a }, { f with ext := true }, keep a)
      else (s.bump (whole (SP_STR_DROP n)), f, none)
    | [] => (s.bump (whole (SP_STR_DROP n)), f, none)
  else if ty ≤ 1 then
    match x.anchor with
    | some a => (s, f, keep a)
    | none =>
      let s1 := (s.setStream n { x with noAnchorSaid := true }).bump (whole (SP_STR_DROP n))
      (if x.noAnchorSaid then s1 else s1.report 0x2009 spIid, f, none)
  else (s, f, none)

/-- The words of an event packet in order. -/
def State.eventWords (s : State) (n : Nat) (f : SpFrame) : List Nat → State × SpFrame × List Nat
  | [] => (s, f, [])
  | w :: r =>
    let (s1, f1, o) := s.eventWord n f w
    let (s2, f2, l) := s1.eventWords n f1 r
    (s2, f2, o.toList ++ l)

/-- A packet of event words (R112). -/
def State.landEvents (s : State) (n k : Nat) (f : SpFrame) (payload : List Byte) (bad : List Nat) : State × Option Landed :=
  if payload.length % 8 ≠ 0 then ((s.setOpen n k f).report 0x200A spIid, none)
  else
    let (s1, f1, ws) := s.eventWords n f (words64 payload)
    s1.landRun n k f1 (ws.flatMap fun w => leBytes 8 w) (ws.filter fun w => bitsOf w 60 4 ≤ 1) bad

/-- A long packet of the frame that lands on stream n. -/
def State.landPacket (s : State) (n k : Nat) (f : SpFrame) (payload : List Byte) (crcOk : Bool) (bad : List Nat) :
    State × Option Landed :=
  let (s1, f1) := s.lineCrc n k f crcOk
  if f1.format = 3 then s1.landEvents n k f1 payload bad
  else if f1.format = 4 then s1.landRun n k f1 payload [] bad
  else s1.landLine n k f1 payload bad

/-- The data types of R107. -/
def dtSupported (dt : Nat) : Bool :=
  [0x12, 0x1E, 0x24, 0x2A, 0x2B, 0x2C, 0x2D, 0x2E].contains dt || decide (0x30 ≤ dt ∧ dt ≤ 0x37)

/-- LONG_PACKET (R108): a packet that lands, with what has landed. -/
def State.spLongPacket (s : State) (p vc dt : Nat) (payload : List Byte) (crcOk : Bool) (ecc : Ecc) (bad : List Nat) :
    State × Option Landed :=
  if !s.is (SP_PORT_CFG_EN p) then (s, none)
  else
    let (s1, use) := s.header p ecc
    if !use then (s1, none)
    else if !dtSupported dt then (s1.unmatched p, none)
    else match (s1.streamsOf p vc 64).find? fun q => q.2 == dt with
      | none => (s1.unmatched p, none)
      | some (n, _) => match (s1.stream n).opened with
        | none => (s1.unmatched p, none)
        | some (k, f) => s1.landPacket n k f payload crcOk bad

/-- PHY_SYNC (R109): the packet in progress is discarded. DESKEW_OK shows whether the last skew calibration converged. -/
def State.spPhySync (s : State) (p : Nat) (skew : Bool) : State :=
  if !s.is (SP_PORT_CFG_EN p) then s
  else if skew then (s.putB (SP_PORT_STAT_DESKEW_OK p) false).report 0x2003 spIid
  else (s.bump (SP_PORT_ERR_SYNC p)).report 0x2003 spIid

/-- STREAM_ENABLE (R105). -/
def execStreamEnable (iid : Iid) (n : Fin 64) (v : Word) (s : State) : Ans :=
  s.done (s.writeWith iid (SP_STR_SRC n) fun s => s.strSrcWrite iid.toNat n v)

/-- STREAM_DISABLE (R105). -/
def execStreamDisable (iid : Iid) (n : Fin 64) (v : Word) (s : State) : Ans :=
  s.done (s.writeWith iid (SP_STR_SRC n) fun s => s.strSrcWrite iid.toNat n v)

/-- FRAME_START (R114). -/
def execFrameStart (p : Fin 8) (vc : Fin 16) (num : BitVec 16) (ecc : Ecc) (s : State) : Ans :=
  s.done (s.spFrameStart p vc num.toNat ecc)

/-- FRAME_END (R117). -/
def execFrameEnd (p : Fin 8) (vc : Fin 16) (_num : BitVec 16) (ecc : Ecc) (s : State) : Ans := s.done (s.spFrameEnd p vc ecc)

/-- PHY_SYNC (R109). -/
def execPhySync (p : Fin 8) (skew : Bool) (s : State) : Ans := s.done (s.spPhySync p skew)

end Sys2Proof.Machine
end

