-- ==== Sys2Proof/Machine/Imu.lean ====
section
/-! DEFINITION. The IMU slots over SPI (R124-R127, R146). -/

namespace Sys2Proof.Machine

open Reg

/-- Slot i is enabled in mode `period` (R125). -/
def State.imuMode (s : State) (i : Nat) (period : Bool) : Bool := s.is (SP_IMU_CFG_EN i) && s.is (SP_IMU_CFG_SRC i) == period

/-- A write to SP_IMU_CFG[i] (R125, R146): the first PERIOD instant is the one at which the slot becomes enabled in that mode
(log entry 12). -/
def State.imuCfg (s : State) (iid i : Nat) (v : Word) : State :=
  let s1 := s.plainWrite iid (SP_IMU_CFG i) v
  let x := s1.imu i
  let x1 := if s1.imuMode i true then (if s.imuMode i true then x else { x with next := some s.hg.dt }) else { x with next := none }
  s1.setImu i (if s1.imuMode i false && !s.imuMode i false then { x1 with since := s.hg.dt, said := false } else x1)

/-- OVERRUN (R127): an edge or an instant while a read is in progress. -/
def State.imuOverrun (s : State) (i : Nat) : State :=
  ((s.putB (SP_IMU_STAT_OVERRUN i) true).report 0x2021 spIid).setImu i { s.imu i with ovrFlag := true }

/-- A read starts, stamped with this instant (R125); a timeout ends (R157). Its sample follows the overrun and the timeout that
came since the last start (R126). -/
def State.imuStart (s : State) (i : Nat) : State :=
  let x := s.imu i
  s.setImu i { x with
    cur := some s.hg.dt, inTimeout := false, ovrFlag := false, toFlag := false
    curFlags := (if x.ovrFlag then 1 else 0) + (if x.toFlag then 2 else 0) }

/-- IMU_DRDY_EDGE (R125, R127). -/
def State.imuEdge (s : State) (i : Nat) : State :=
  if !s.imuMode i false then s
  else
    let s1 := s.setImu i { s.imu i with since := s.hg.dt, said := false }
    if (s1.imu i).cur.isSome then s1.imuOverrun i else s1.imuStart i

/-- IMU_PERIOD_TICK (R125, R127): Device Time runs on to the scheduled instant. -/
def State.imuTick (s : State) (i : Nat) : State :=
  match (s.imu i).next with
  | none => s
  | some t =>
    let s1 := s.advanceTo t
    let s2 := s1.setImu i { s1.imu i with next := some (t + (s1.reg (SP_IMU_PER i)).toNat * 256) }
    if (s2.imu i).cur.isSome then s2.imuOverrun i else s2.imuStart i

/-- IMU_TIMEOUT (R127): two periods without a data-ready edge, reported once for each silence. -/
def State.imuSilence (s : State) (i : Nat) : State :=
  if !s.imuMode i false || (s.imu i).said then s
  else
    let s1 := s.advanceTo ((s.imu i).since + (s.reg (SP_IMU_PER i)).toNat * 512)
    ((s1.setImu i { s1.imu i with said := true, inTimeout := true, toSeen := true, toFlag := true }).putB
      (SP_IMU_STAT_TIMEOUT i) true).report 0x2020 spIid

/-- The bytes clocked in: `n` of them; a bit that no device drives is not defined (R126). -/
def State.imuData (s : State) : Nat → List Byte → List Byte × State
  | 0, _ => ([], s)
  | n + 1, b :: r => let (bs, s1) := s.imuData n r; (b :: bs, s1)
  | n + 1, [] => let (bs, s1) := s.took.imuData n []; (BitVec.ofNat 8 s.free :: bs, s1)

/-- A stamp falls in the turn that runs. -/
def State.inTurn (s : State) (u : Nat) : Bool := !s.turnsRun || decide (s.turnInstant (s.hg.nextTurn - 1) ≤ u)

/-- IMU_READ_COMPLETE (R126): the sample lands; answers its stamp and its bytes. -/
def State.imuLand (s : State) (i : Nat) (data : List Byte) : State × Option (Nat × List Byte) :=
  match (s.imu i).cur with
  | none => (s, none)
  | some t =>
    let n := s.get (SP_IMU_CFG_READ_LEN i) + 1
    let (bs, s1) := s.imuData n data
    let x := s1.imu i
    let size := 256 * 2 ^ s1.get (SP_IMU_RING_SIZE i)
    let head := s1.get (SP_IMU_STAT_HEAD i) % size
    let record := dtBytes t ++ leBytes 4 x.seq ++ leBytes 1 n ++ leBytes 1 x.curFlags ++ leBytes 2 0 ++ bs ++ leBytes (32 - n) 0 ++
      leBytes 8 0
    let s2 := s1.land (64 + i) (s1.get (SP_IMU_RING_BASE i) * 65536 + head * 64) record []
    ((s2.put (SP_IMU_STAT_HEAD i) ((head + 1) % size)).setImu i { x with
        cur := none, seq := (x.seq + 1) % 2 ^ 32,
        count := if s2.inTurn t then x.count + 1 else x.count }, some (t, bs))

/-- IMU_ENABLE (R125). -/
def execImuEnable (iid : Iid) (i : Fin 4) (v : Word) (s : State) : Ans :=
  s.done (s.writeWith iid (SP_IMU_CFG i) fun s => s.imuCfg iid.toNat i v)

/-- IMU_DRDY_EDGE (R125). -/
def execImuDrdyEdge (i : Fin 4) (s : State) : Ans := s.done (s.imuEdge i)

/-- IMU_PERIOD_TICK (R125). -/
def execImuPeriodTick (i : Fin 4) (s : State) : Ans := s.done (s.imuTick i)

/-- IMU_TIMEOUT (R127). -/
def execImuTimeout (i : Fin 4) (s : State) : Ans := s.done (s.imuSilence i)

end Sys2Proof.Machine
end

