-- ==== Sys2Proof/Machine/Can.lean ====
section
/-! DEFINITION. The CAN FD controllers (R128-R133, R143-R145). Fault confinement follows ISO 11898-1, which R132 names. -/

namespace Sys2Proof.Machine

open Reg

def State.can (s : State) (c : Nat) : Can := spGet (fun _ => {}) s.cans c

def State.setCan (s : State) (c : Nat) (x : Can) : State := { s with cans := spPut (fun _ => {}) s.cans c x }

def State.setCanRx (s : State) (c m : Nat) (x : CanRx) : State :=
  s.setCan c { s.can c with rx := spPut (fun _ => {}) (s.can c).rx m x }

/-- The controller is in BUS_OFF (R132). -/
def State.busOff (s : State) (c : Nat) : Bool := s.get (SP_CAN_ECNT_STATE c) == 2

/-- The controller takes part in the bus. -/
def State.onBus (s : State) (c : Nat) : Bool := s.is (SP_CAN_CTL_EN c) && !s.busOff c

/-! ### Transmit (R131, R133) -/

/-- The rank of a transmit mailbox in arbitration: the identifier as it goes on the wire, a base frame before an extended
one with the same first eleven bits (ISO 11898-1). -/
def State.canRank (s : State) (c k : Nat) : Nat :=
  let id := s.get (SP_CAN_TXH_ID c k)
  if s.is (SP_CAN_TXH_IDE c k) then id / 2 ^ 18 * 2 ^ 19 + 2 ^ 18 + id % 2 ^ 18 else id % 2 ^ 11 * 2 ^ 19

/-- The transmit mailbox below `k` that enters arbitration first (R131). -/
def State.canFirst (s : State) (c : Nat) : Nat → Option Nat
  | 0 => none
  | k + 1 =>
    let r := s.canFirst c k
    if !s.is (SP_CAN_TXC_REQ c k) then r
    else match r with
      | none => some k
      | some j => if s.canRank c k < s.canRank c j then some k else r

/-- Where the bus is free for this controller, a mailbox enters arbitration. -/
def State.canPick (s : State) (c : Nat) : State :=
  if (s.can c).tx.isSome || !s.onBus c then s else s.setCan c { s.can c with tx := s.canFirst c 16 }

/-- A request leaves mailbox k; the next one may enter arbitration. -/
def State.canLeave (s : State) (c k : Nat) : State :=
  let s1 := ((s.putB (SP_CAN_TXC_REQ c k) false).putB (SP_CAN_TXC_HELD c k) false).putB (SP_CAN_TXC_ABORT c k) false
  if (s1.can c).tx = some k then (s1.setCan c { s1.can c with tx := none }).canPick c else s1

/-- A request is withdrawn (R131, R144). -/
def State.canWithdraw (s : State) (c k : Nat) : State := (s.canLeave c k).putB (SP_CAN_TXC_ABORTED c k) true

/-- ABORT of a pending request: one that is in arbitration or on the bus stays. Whether the mailbox that is next has
reached the bus is not shown by any register, so it is a free value (R131, R144). -/
def State.canAbort (s : State) (c k : Nat) : State :=
  if !s.is (SP_CAN_TXC_REQ c k) then s
  else if (s.can c).tx = some k then (if s.free % 2 = 1 then s.took.canWithdraw c k else s.took)
  else s.canWithdraw c k

/-- R128, R131: what a transmit request asks of the mailbox. -/
def State.canReqOk (s : State) (c k : Nat) : Bool :=
  let len := s.get (SP_CAN_TXC_LEN c k)
  (decide (len ≤ 8) || [12, 16, 20, 24, 32, 48, 64].contains len) &&
    (!s.is (SP_CAN_TXH_FDF c k) || s.is (SP_CAN_CTL_FD_EN c)) && (!s.is (SP_CAN_TXH_BRS c k) || s.is (SP_CAN_CTL_BRS_EN c))

/-- A write to SP_CAN_TXC[c][k] (R131, R133, R144). -/
def State.canTxc (s : State) (iid c k : Nat) (v : Word) : State :=
  let w1c (f : Fld) (s : State) : State := if v.getLsbD f.lo then s.putB f false else s
  let s1 := w1c (SP_CAN_TXC_DONE c k) (w1c (SP_CAN_TXC_ABORTED c k) (s.put (SP_CAN_TXC_LEN c k) v.toNat))
  let req := v.getLsbD 8
  let s2 := if req && !s1.canReqOk c k then s1.report 0x200B iid
    else if req && v.getLsbD 9 then s1.canWithdraw c k
    else if req then
      let s2 := s1.putB (SP_CAN_TXC_REQ c k) true
      if s2.busOff c then s2.putB (SP_CAN_TXC_HELD c k) true else s2.canPick c
    else s1
  if v.getLsbD 9 then s2.canAbort c k else s2

/-- Apply `f` to the transmit mailboxes below `k`. -/
def State.eachTx (s : State) (f : State → Nat → State) : Nat → State
  | 0 => s
  | k + 1 => f (s.eachTx f k) k

/-! ### Fault confinement (R132, R133) -/

/-- Entry to BUS_OFF (R132, R133, R145): every pending mailbox is held; in AUTO the count starts at once. -/
def State.canBusOff (s : State) (c : Nat) : State :=
  let s1 := (s.put (SP_CAN_ECNT_STATE c) 2).putB (SP_CAN_STAT_BOFF c) true
  let s2 := (s1.setCan c { s1.can c with tx := none }).eachTx
    (fun s k => if s.is (SP_CAN_TXC_REQ c k) then s.putB (SP_CAN_TXC_HELD c k) true else s) 16
  (s2.putB (SP_CAN_STAT_RECOVERING c) (!s2.is (SP_CAN_CTL_RECOVERY c))).report 0x2031 spIid

/-- STATE follows the counters (R132); `tec` is not yet cut to the register's width. -/
def State.canCount (s : State) (c tec rec : Nat) : State :=
  let s1 := (s.put (SP_CAN_ECNT_TEC c) (min tec 511)).put (SP_CAN_ECNT_REC c) (min rec 255)
  if 255 < tec then s1.canBusOff c
  else if 127 < tec ∨ 127 < rec then
    if s1.get (SP_CAN_ECNT_STATE c) = 1 then s1
    else ((s1.put (SP_CAN_ECNT_STATE c) 1).putB (SP_CAN_STAT_EPASS c) true).report 0x2030 spIid
  else s1.put (SP_CAN_ECNT_STATE c) 0

/-- CAN_BUS_ERROR: a transmitter adds 8, but an error-passive one that meets no acknowledgement and no dominant bit adds
nothing; a receiver adds 1, or 8 for a severe error (ISO 11898-1). -/
def State.canError (s : State) (c kind : Nat) (transmitter severe : Bool) : State :=
  if !s.onBus c then s
  else
    let s1 := s.put (SP_CAN_STAT_LAST_ERR c) (kind + 1)
    let tec := s1.get (SP_CAN_ECNT_TEC c)
    let rec' := s1.get (SP_CAN_ECNT_REC c)
    if transmitter then
      if kind = 4 && !severe && s1.get (SP_CAN_ECNT_STATE c) = 1 then s1 else s1.canCount c (tec + 8) rec'
    else s1.canCount c tec (rec' + if severe then 8 else 1)

/-- CAN_TX_DONE (R131): the frame in mailbox k is acknowledged. -/
def State.canDone (s : State) (c k : Nat) : State :=
  if !s.onBus c || !s.is (SP_CAN_TXC_REQ c k) then s
  else
    let s1 := (s.emit (.canFrame c k)).canCount c (s.get (SP_CAN_ECNT_TEC c) - 1) (s.get (SP_CAN_ECNT_REC c))
    (s1.putB (SP_CAN_TXC_DONE c k) true).canLeave c k

/-- A frame has been received without error: REC falls by 1, or from above 127 to a value from 119 to 127 that ISO 11898-1
leaves open. -/
def State.canGood (s : State) (c : Nat) : State :=
  let rec' := s.get (SP_CAN_ECNT_REC c)
  if 127 < rec' then s.took.canCount c (s.get (SP_CAN_ECNT_TEC c)) (119 + s.free % 9)
  else s.canCount c (s.get (SP_CAN_ECNT_TEC c)) (rec' - 1)

/-! ### Receive (R129, R130) -/

/-- Mailbox m takes the frame (R129). -/
def State.canTakes (s : State) (c m : Nat) (f : CanFrame) : Bool :=
  s.is (SP_CAN_RXF_EN c m) && s.is (SP_CAN_RXF_IDE c m) == f.ide &&
    (f.id.toNat ^^^ s.get (SP_CAN_RXF_ID c m)) &&& s.get (SP_CAN_RXM_MASK c m) == 0

/-- The lowest-numbered mailbox below `m` that takes the frame. -/
def State.canMailbox (s : State) (c : Nat) (f : CanFrame) : Nat → Option Nat
  | 0 => none
  | m + 1 => match s.canMailbox c f m with
    | some j => some j
    | none => if s.canTakes c m f then some m else none

/-- A log entry (R129). -/
def canEntry (f : CanFrame) (m seq : Nat) : List Byte :=
  let b (x : Bool) (i : Nat) := if x then 2 ^ i else 0
  dtBytes f.sof ++ leBytes 4 (f.id.toNat + b f.ide 29 + b f.fdf 30 + b f.brs 31) ++ leBytes 1 f.data.length ++ leBytes 1 m ++
    leBytes 1 (b f.esi 0) ++ leBytes 1 0 ++ leBytes 4 seq ++ leBytes 4 0 ++ f.data.take 64 ++ leBytes (64 - f.data.length) 0 ++
    leBytes 32 0

/-- A frame enters the log and its mailbox; the mailbox's silence and its mark end (R129, R130, R143). -/
def State.canLog (s : State) (c m : Nat) (f : CanFrame) : State :=
  let size := 256 * 2 ^ s.get (SP_CAN_LOG_SIZE c)
  let head := (s.reg (SP_CAN_LOGHEAD c)).toNat % size
  let x := s.can c
  let s1 := s.land (68 + c) (s.get (SP_CAN_LOG_BASE c) * 65536 + head * 128) (canEntry f m x.logSeq) []
  let s2 := (s1.setCan c { x with logSeq := (x.logSeq + 1) % 2 ^ 32 }).setReg (SP_CAN_LOGHEAD c) (BitVec.ofNat 32 ((head + 1) % size))
  ((s2.put (SP_CAN_RXS_LAST c m) head).setCanRx c m { since := s2.hg.dt }).holdUpdate

/-- CAN_FRAME_RECEIVE (R128, R129): answers the mailbox that took the frame. -/
def State.canReceive (s : State) (c : Nat) (f : CanFrame) : State × Option Nat :=
  if !s.onBus c || (f.fdf && !s.is (SP_CAN_CTL_FD_EN c)) then (s, none)
  else
    let s1 := s.canGood c
    if f.rtr then (s1, none)
    else match s1.canMailbox c f 64 with
      | none => (s1.bump (SP_CAN_STAT_RX_DISCARD c), none)
      | some m => (s1.canLog c m f, some m)

/-- The mailbox counts silence (R130). -/
def State.canWatched (s : State) (c m : Nat) : Bool := s.is (SP_CAN_RXF_EN c m) && s.get (SP_CAN_RXC_TIMEOUT c m) != 0

/-- CAN_RX_TIMEOUT (R130): Device Time runs on to the end of the silence. -/
def State.canSilence (s : State) (c m : Nat) : State :=
  let x := s.canRx c m
  if !s.canWatched c m || x.said then s
  else
    let s1 := s.advanceTo (x.since + s.get (SP_CAN_RXC_TIMEOUT c m) * 256000)
    let s2 := (s1.putB (SP_CAN_RXS_TIMEOUT c m) true).report 0x2032 spIid
    (s2.setCanRx c m { x with said := true, mark := s2.is (SP_CAN_RXC_WHEEL c m) }).holdUpdate

/-- A write to SP_CAN_RXF[c][m] (R130). -/
def State.canRxf (s : State) (iid c m : Nat) (v : Word) : State :=
  let was := s.canWatched c m
  let s1 := s.plainWrite iid (SP_CAN_RXF c m) v
  let x := s1.canRx c m
  let x1 := if s1.canWatched c m && !was then { x with since := s.hg.dt, said := false } else x
  (s1.setCanRx c m (if s1.is (SP_CAN_RXF_EN c m) then x1 else { x1 with mark := false })).holdUpdate

/-- A write to SP_CAN_RXC[c][m] (R130): the silence is counted afresh; the mark ends where WHEEL or TIMEOUT is cleared. -/
def State.canRxc (s : State) (iid c m : Nat) (v : Word) : State :=
  let s1 := s.plainWrite iid (SP_CAN_RXC c m) v
  let keep := s1.is (SP_CAN_RXC_WHEEL c m) && s1.get (SP_CAN_RXC_TIMEOUT c m) != 0
  (s1.setCanRx c m { since := s.hg.dt, said := false, mark := (s1.canRx c m).mark && keep }).holdUpdate

/-! ### Control (R133) -/

/-- A write to SP_CAN_CTL[c] (R133). -/
def State.canCtl (s : State) (c : Nat) (v : Word) : State :=
  let was := s.is (SP_CAN_CTL_EN c)
  let s1 := s.setReg (SP_CAN_CTL c) ((s.reg (SP_CAN_CTL c) &&& 0x10) ||| (v &&& 0xF))
  let s2 := if was && !v.getLsbD 0 then
      let s2 := s1.setCan c { s1.can c with tx := none }
      if s2.busOff c then s2.eachTx (fun s k => if s.is (SP_CAN_TXC_REQ c k) then s.canWithdraw c k else s) 16 else s2
    else s1.canPick c
  let start := s2.busOff c && s2.is (SP_CAN_CTL_EN c) && (v.getLsbD 4 || !s2.is (SP_CAN_CTL_RECOVERY c))
  if start then (s2.putB (SP_CAN_STAT_RECOVERING c) true).putB (SP_CAN_CTL_RECOVER c) (v.getLsbD 4) else s2

/-- CAN_RECOVERY_COMPLETE (R133). -/
def State.canRecovered (s : State) (c : Nat) : State :=
  if !s.is (SP_CAN_STAT_RECOVERING c) || !s.is (SP_CAN_CTL_EN c) then s
  else
    let s1 := ((s.putB (SP_CAN_STAT_RECOVERING c) false).putB (SP_CAN_CTL_RECOVER c) false).setReg (SP_CAN_ECNT c) 0
    (s1.eachTx (fun s k => s.putB (SP_CAN_TXC_HELD c k) false) 16).canPick c

/-- CAN_RX_TIMEOUT (R130). -/
def execCanRxTimeout (c : Fin 2) (m : Fin 64) (s : State) : Ans := s.done (s.canSilence c m)

/-- CAN_TX_REQUEST (R131). -/
def execCanTxRequest (iid : Iid) (c : Fin 2) (k : Fin 16) (v : Word) (s : State) : Ans :=
  s.done (s.writeWith iid (SP_CAN_TXC c k) fun s => s.canTxc iid.toNat c k v)

/-- CAN_TX_ABORT (R131, R144). -/
def execCanTxAbort (iid : Iid) (c : Fin 2) (k : Fin 16) (v : Word) (s : State) : Ans :=
  s.done (s.writeWith iid (SP_CAN_TXC c k) fun s => s.canTxc iid.toNat c k v)

/-- CAN_TX_DONE (R131). -/
def execCanTxDone (c : Fin 2) (k : Fin 16) (s : State) : Ans := s.done (s.canDone c k)

/-- CAN_BUS_ERROR (R132). -/
def execCanBusError (c : Fin 2) (kind : Fin 5) (transmitter severe : Bool) (s : State) : Ans :=
  s.done (s.canError c kind transmitter severe)

/-- CAN_RECOVER (R133). -/
def execCanRecover (iid : Iid) (c : Fin 2) (v : Word) (s : State) : Ans :=
  s.done (s.writeWith iid (SP_CAN_CTL c) fun s => s.canCtl c v)

/-- CAN_RECOVERY_COMPLETE (R133). -/
def execCanRecoveryComplete (c : Fin 2) (s : State) : Ans := s.done (s.canRecovered c)

/-- CAN_DISABLE (R133). -/
def execCanDisable (iid : Iid) (c : Fin 2) (v : Word) (s : State) : Ans :=
  s.done (s.writeWith iid (SP_CAN_CTL c) fun s => s.canCtl c v)

end Sys2Proof.Machine
end

