-- ==== Sys2Proof/Machine/I2cUnit.lean ====
section
/-! DEFINITION. The I²C controllers (R134-R136, R147). -/

namespace Sys2Proof.Machine

open Reg

def State.i2c (s : State) (k : Nat) : I2c := spGet (fun _ => {}) s.i2cs k

def State.setI2c (s : State) (k : Nat) (x : I2c) : State := { s with i2cs := spPut (fun _ => {}) s.i2cs k x }

/-- The OP of a command (R139). -/
def i2cOp (c : Nat) : Nat := bitsOf c 8 4

/-- I2C_COMMAND_PUSH (R135): a write to a full FIFO is ignored and shown by OVF; one that R136 discards goes nowhere. -/
def State.i2cPush (s : State) (k : Nat) (v : Word) : State :=
  let x := s.i2c k
  let c := v.toNat % 4096
  if x.skip then s.setI2c k { x with skip := i2cOp c != 5 }
  else if 64 ≤ x.cmds.length then s.putB (SP_I2C_STAT_OVF k) true
  else s.setI2c k { x with cmds := x.cmds ++ [c] }

/-- A byte read from the bus enters the read FIFO, or is discarded at a full one (R135). -/
def State.i2cRead (s : State) (k : Nat) (b : Byte) : State :=
  let x := s.i2c k
  if 64 ≤ x.rxd.length then s.putB (SP_I2C_STAT_OVF k) true else s.setI2c k { x with rxd := x.rxd ++ [b] }

/-- The compare of an AT command, 40 bits (R135). -/
def State.i2cAt (s : State) (k : Nat) : Nat := s.pair (SP_I2C_AT_LO k) % 2 ^ 40

/-- I2C_COMMAND_EXECUTE (R135): the next command; `rd` is the byte that a read clocks in. An OP that R139 does not list
has no effect (log entry 13). -/
def State.i2cStep (s : State) (k : Nat) (rd : Byte) : State :=
  let x := s.i2c k
  if !s.is (SP_I2C_CFG_EN k) || x.atHold then s
  else match x.cmds with
    | [] => s
    | c :: r =>
      let op := i2cOp c
      let s1 := s.setI2c k { x with cmds := r }
      if op = 6 then
        if 0 ≤ cmpDiff s.now (s.i2cAt k) then s1.report 0x203A spIid else s1.setI2c k { s1.i2c k with atHold := true }
      else if 6 < op then s1
      else
        let s2 := s1.emit (.i2c k op (c % 256))
        if op ≤ 1 then s2.putB (SP_I2C_STAT_BUSY k) true
        else if op = 5 then s2.putB (SP_I2C_STAT_BUSY k) false
        else if op = 2 then s2
        else s2.i2cRead k rd

/-- I2C_AT_FIRE (R135): Device Time runs on to the compare's instant, and the FIFO goes on. -/
def State.i2cFire (s : State) (k : Nat) : State :=
  if !(s.i2c k).atHold then s
  else
    let s1 := s.advanceTo (cmpInstant s.now (s.i2cAt k) * 256)
    s1.setI2c k { s1.i2c k with atHold := false }

/-- The commands after the next STOP; none where no STOP is queued. -/
def afterStop : List Nat → Option (List Nat)
  | [] => none
  | c :: r => if i2cOp c = 5 then some r else afterStop r

/-- R136: the controller issues a STOP and discards the commands up to and including the next STOP. -/
def State.i2cAbandon (s : State) (k : Nat) : State :=
  let x := s.i2c k
  let s1 := match afterStop x.cmds with
    | some r => s.setI2c k { x with cmds := r, atHold := false }
    | none => s.setI2c k { x with cmds := [], skip := true, atHold := false }
  (s1.emit (.i2c k 5 0)).putB (SP_I2C_STAT_BUSY k) false

/-- I2C_NACK (R136): the target of the transfer in progress does not acknowledge. -/
def State.i2cNack (s : State) (k : Nat) : State :=
  if !s.is (SP_I2C_STAT_BUSY k) then s else ((s.i2cAbandon k).putB (SP_I2C_STAT_NACK k) true).report 0x2038 spIid

/-- A START is the next command. -/
def State.i2cStarting (s : State) (k : Nat) : Bool :=
  match (s.i2c k).cmds with
  | c :: _ => decide (i2cOp c ≤ 1)
  | [] => false

/-- I2C_TIMEOUT (R136, R147): a stretch in a transfer, or SDA low at a START. -/
def State.i2cTimeout (s : State) (k : Nat) : State :=
  if !s.is (SP_I2C_STAT_BUSY k) && !(s.is (SP_I2C_CFG_EN k) && s.i2cStarting k) then s
  else ((s.i2cAbandon k).putB (SP_I2C_STAT_TIMEOUT k) true).report 0x2039 spIid

/-- What a read of SP_I2C_RXD[k] pops (R135). -/
def State.i2cPop (s : State) (k : Nat) : State := s.setI2c k { s.i2c k with rxd := (s.i2c k).rxd.tail }

/-- I2C_COMMAND_PUSH (R135). -/
def execI2cCommandPush (iid : Iid) (k : Fin 4) (v : Word) (s : State) : Ans :=
  s.done (s.writeWith iid (SP_I2C_CMD k) fun s => s.i2cPush k v)

/-- I2C_COMMAND_EXECUTE (R135). -/
def execI2cCommandExecute (k : Fin 4) (rd : Byte) (s : State) : Ans := s.done (s.i2cStep k rd)

/-- I2C_AT_FIRE (R135). -/
def execI2cAtFire (k : Fin 4) (s : State) : Ans := s.done (s.i2cFire k)

/-- I2C_NACK (R136). -/
def execI2cNack (k : Fin 4) (s : State) : Ans := s.done (s.i2cNack k)

/-- I2C_TIMEOUT (R136). -/
def execI2cTimeout (k : Fin 4) (s : State) : Ans := s.done (s.i2cTimeout k)

/-- I2C_RXD_POP (R135). -/
def execI2cRxdPop (iid : Iid) (k : Fin 4) (s : State) : Ans :=
  s.done (s.readWith iid (SP_I2C_RXD k) fun s => s.i2cPop k)

end Sys2Proof.Machine
end

