-- ==== Sys2Proof/Machine/Ethernet.lean ====
section
/-! DEFINITION. The Ethernet MAC: PTP timestamps and one-step insertion, and point datagrams (R86-R89, R119-R123, R142). -/

namespace Sys2Proof.Machine

open Reg

/-- A number of `n` big-endian bytes at `off` (network order). -/
def beAt (bs : List Byte) (off n : Nat) : Nat := leNat ((bs.drop off).take n).reverse

/-- Big-endian bytes. -/
def beBytes (n v : Nat) : List Byte := (leBytes n v).reverse

/-! ### Frames -/

/-- What a frame carries: the offset of its EtherType's payload, the EtherType, and where it is UDP the offset of its UDP
header and whether it is IPv6. `bad` says that it carries more than one tag (R119). -/
structure EthParse where
  body : Nat
  type : Nat
  udp : Option (Nat × Bool)
  bad : Bool
deriving DecidableEq, Repr

/-- The UDP header of an IP packet at `o`, where it is UDP and no fragment (R120). -/
def udpAt (f : List Byte) (o type : Nat) : Option (Nat × Bool) :=
  if type = 0x0800 ∧ beAt f (o + 9) 1 = 17 ∧ beAt f (o + 6) 2 % 0x4000 = 0 then some (o + beAt f o 1 % 16 * 4, false)
  else if type = 0x86DD ∧ beAt f (o + 6) 1 = 17 then some (o + 40, true)
  else none

/-- Read a frame from its destination address on, without its check sequence (R119). -/
def ethParse (f : List Byte) : EthParse :=
  let tagged := beAt f 12 2 == 0x8100
  let o := if tagged then 18 else 14
  let t := beAt f (o - 2) 2
  ⟨o, t, udpAt f o t, tagged && t == 0x8100⟩

/-- The offset of a PTP message in a frame (R120). -/
def ptpAt (f : List Byte) : Option Nat :=
  let p := ethParse f
  if p.type = 0x88F7 then some p.body
  else match p.udp with
    | some (u, _) => if beAt f (u + 2) 2 = 319 ∨ beAt f (u + 2) 2 = 320 then some (u + 8) else none
    | none => none

/-- The PTP multicast addresses (IEEE 1588; log entry 14). -/
def ptpMulticast : List Nat :=
  [0x011B19000000, 0x0180C200000E, 0x01005E000181, 0x01005E00006B, 0x333300000181, 0x33330000006B]

/-- SP_ETH_MAC as a number in network order. -/
def State.ethMac (s : State) : Nat :=
  beAt (leBytes 4 (s.reg SP_ETH_MAC_LO).toNat ++ leBytes 2 (s.reg SP_ETH_MAC_HI).toNat) 0 6

/-- The frame is addressed to this MAC (R119). -/
def State.ethForMe (s : State) (f : List Byte) : Bool :=
  let d := beAt f 0 6
  d == s.ethMac || d == 0xFFFFFFFFFFFF || ptpMulticast.contains d

/-! ### PTP timestamps (R86-R88) -/

/-- The enabled domain of a PTP event message at `o` (R86). -/
def State.ptpDomain (s : State) (f : List Byte) (o : Nat) : Option Nat :=
  if 4 ≤ beAt f o 1 % 16 then none
  else if s.is (HG_DOM_CFG_EN 0) && s.get (HG_DOM_CFG_PTP_DOMAIN 0) == beAt f (o + 4) 1 then some 0
  else if s.is (HG_DOM_CFG_EN 1) && s.get (HG_DOM_CFG_PTP_DOMAIN 1) == beAt f (o + 4) 1 then some 1
  else none

/-- A timestamp of this instant in domain d, moved by `lat` ns (R86). -/
def State.ptpStamp (s : State) (f : List Byte) (o d : Nat) (lat : Int) : TsEntry :=
  { nt := ((s.netTime d : Int) + lat).toNat, seqId := BitVec.ofNat 16 (beAt f (o + 30) 2),
    msgType := BitVec.ofNat 4 (beAt f o 1), dom := d != 0 }

/-- Replace bytes from `o` on. -/
def patch (f : List Byte) (o : Nat) (bs : List Byte) : List Byte := f.take o ++ bs ++ f.drop (o + bs.length)

/-- The sum of the 16-bit words of bytes. -/
def sum16 : List Byte → Nat
  | a :: b :: r => a.toNat * 256 + b.toNat + sum16 r
  | [a] => a.toNat * 256
  | [] => 0

/-- Fold a sum into 16 bits with end-around carry. -/
def fold16 (n : Nat) : Nat :=
  let a := n / 65536 + n % 65536
  let b := a / 65536 + a % 65536
  b / 65536 + b % 65536

/-- The UDP checksum after `old` bytes have become `new` ones (R88). -/
def udpUpdate (c : Nat) (old new : List Byte) : Nat :=
  let n := 65535 - fold16 ((65535 - c) + (old.length / 2 * 65535 - sum16 old) + sum16 new)
  if n = 0 then 65535 else n

/-- R88: the origin time and the correction of a one-step Sync at `o`, its start being this instant in domain d. -/
def State.oneStep (s : State) (f : List Byte) (o d : Nat) : List Byte :=
  let t := ((s.hg.dt : Int) * 2 ^ 32 + (s.dom d).ofs + (s.get HG_PTP_LAT_TX : Int) * 2 ^ 40).toNat
  let ns := t / 2 ^ 40
  let corr := beAt f (o + 8) 8 + t % 2 ^ 40 / 2 ^ 24
  let f1 := patch (patch f (o + 8) (beBytes 8 corr)) (o + 34) (beBytes 6 (ns / 1000000000) ++ beBytes 4 (ns % 1000000000))
  match (ethParse f).udp with
  | none => f1
  | some (u, v6) =>
    let c := beAt f (u + 6) 2
    if c = 0 && !v6 then f1
    else
      let part (g : List Byte) := (g.drop (o + 8)).take 8 ++ (g.drop (o + 34)).take 10
      patch f1 (u + 6) (beBytes 2 (udpUpdate c (part f) (part f1)))

/-- A frame starts on the wire (R86-R89). -/
def State.ethSend (s : State) (f : List Byte) (oneStep : Bool) : State :=
  match ptpAt f with
  | none => s.emit (.ethFrame f)
  | some o => match s.ptpDomain f o with
    | none => s.emit (.ethFrame f)
    | some d =>
      if oneStep && beAt f o 1 % 16 == 0 then s.emit (.ethFrame (s.oneStep f o d))
      else (s.emit (.ethFrame f)).hgStamp false (s.ptpStamp f o d (s.get HG_PTP_LAT_TX))

/-- ETH_FRAME_TRANSMIT (R89, R120): while the SerDes PLL is out of lock the frame waits. -/
def State.ethTransmit (s : State) (f : List Byte) (oneStep : Bool) : State :=
  if !s.is SP_ETH_CFG_EN then s
  else if s.eth.locked then s.ethSend f oneStep
  else { s with eth := { s.eth with txWait := s.eth.txWait ++ [(s.hg.dt, oneStep, f)] } }

/-- Take the first waiting PTP message off a queue. -/
def takePtp : List (Nat × Bool × List Byte) → Option (Nat × List (Nat × Bool × List Byte))
  | [] => none
  | (t, o, f) :: r =>
    if (ptpAt f).isSome then some (t, r) else (takePtp r).map fun (u, q) => (u, (t, o, f) :: q)

/-- PTP_TX_DROP (R89): the PTP message that has waited longest reaches 200 µs. -/
def State.ptpDrop (s : State) : State :=
  if s.eth.locked then s
  else match takePtp s.eth.txWait with
    | none => s
    | some (t, q) =>
      let s1 := s.advanceTo (t + 200000 * 256)
      ({ s1 with eth := { s1.eth with txWait := q } }.bump HG_TS_STAT_TX_DROP).report 0x1009 hgIid

/-- ETH_SERDES_LOCK_RETURN (R89): what waits leaves, in order. -/
def State.ethLock (s : State) : State :=
  let q := s.eth.txWait
  q.foldl (fun s w => s.ethSend w.2.2 w.2.1) { s with eth := { s.eth with txWait := [], locked := true } }

/-! ### Point datagrams (R121-R123) -/

/-- The raw bytes of field f of template t, in header `h` or record `r`. -/
def State.pptRaw (s : State) (t f : Nat) (h r : List Byte) : List Byte :=
  ((if s.is (SP_PPT_FIELD_IN_HDR t f) then h else r).drop (s.get (SP_PPT_FIELD_OFFSET t f))).take (2 ^ s.get (SP_PPT_FIELD_WIDTH t f))

/-- The scaled FP32 value of a field (R122): little-endian, by TYPE, times SCALE. -/
def State.pptValue (s : State) (t f : Nat) (raw : List Byte) : Nat :=
  let v := leNat raw
  let w := 8 * 2 ^ s.get (SP_PPT_FIELD_WIDTH t f)
  let ty := s.get (SP_PPT_FIELD_TYPE t f)
  let x := if ty = 2 then v else if ty = 1 then fp32OfInt (signed w v) else fp32OfNat v
  (fpMul .fp32 x (s.reg (SP_PPT_SCALE t f)).toNat).bits

/-- The field entries of template t below `f` that fill slot `sl`; the highest-numbered one counts (log entry 15). -/
def State.pptField (s : State) (t sl : Nat) : Nat → Option Nat
  | 0 => none
  | f + 1 => if s.get (SP_PPT_FIELD_SLOT t f) = sl then some f else s.pptField t sl f

/-- The scaled value of slot `sl` of a record; zero where no entry fills it (R122). -/
def State.pptSlot (s : State) (t sl : Nat) (h r : List Byte) : Nat :=
  match s.pptField t sl 16 with
  | none => 0
  | some f => s.pptValue t f (s.pptRaw t f h r)

/-- A value as an unsigned number of at most `hi`, saturating; that of a NaN is stated nowhere: a free value. -/
def State.pptUint (s : State) (v hi : Nat) : Nat × State :=
  match fpDecode .fp32 v with
  | .nan _ _ _ => (s.free % (hi + 1), s.took)
  | x => (fpToNat x hi, s)

/-- TOFS (R122): `off` units of 1/256 ns and a value in 2 µs. -/
def State.pptTofs (s : State) (off v : Nat) : Nat × State :=
  match fpDecode .fp32 v with
  | .nan _ _ _ => (s.free % 65536, s.took)
  | .inf n => (if n then 0 else 65535, s)
  | .fin n m e =>
    let k := (-e).toNat
    let t : Int := m * 2 ^ e.toNat
    let x : Int := (off : Int) * 2 ^ k + (if n then -t else t) * 512000
    ((max 0 (min 65535 (roundEven x (512000 * 2 ^ k)))).toNat, s)

/-- One POINT16 record (R122). -/
def State.pptPoint (s : State) (t off : Nat) (h r : List Byte) : List Byte × State :=
  let (tofs, s1) := s.pptTofs off (s.pptSlot t 6 h r)
  let (i, s2) := s1.pptUint (s.pptSlot t 4 h r) 255
  let (ring, s3) := s2.pptUint (s.pptSlot t 5 h r) 255
  (leBytes 4 (s.pptSlot t 1 h r) ++ leBytes 4 (s.pptSlot t 2 h r) ++ leBytes 4 (s.pptSlot t 3 h r) ++ leBytes 2 tofs ++
    leBytes 1 i ++ leBytes 1 ring, s3)

/-- The records of a datagram. -/
def State.pptPoints (s : State) (t off : Nat) (h : List Byte) : Nat → List Byte → List Byte × State
  | 0, _ => ([], s)
  | n + 1, bs =>
    let rec' := s.get (SP_PPT_LAYOUT_REC_BYTES t)
    let (p, s1) := s.pptPoint t off h (bs.take rec')
    let (q, s2) := s1.pptPoints t off h n (bs.drop rec')
    (p ++ q, s2)

/-- The number of records of a datagram (R121): a COUNT field, POINTS, or what its length holds. -/
def State.pptCount (s : State) (t : Nat) (payload : List Byte) : Nat × State :=
  let hdr := s.get (SP_PPT_LAYOUT_HDR_BYTES t)
  match s.pptField t 9 16 with
  | some f => s.pptUint (s.pptValue t f (s.pptRaw t f (payload.take hdr) [])) (2 ^ 32)
  | none =>
    let p := s.get (SP_PPT_LAYOUT_POINTS t)
    (if p ≠ 0 then p else (payload.length - hdr) / s.get (SP_PPT_LAYOUT_REC_BYTES t), s)

/-- The raw SWEEP value of a datagram (R123). -/
def State.pptSweep (s : State) (t : Nat) (h : List Byte) : Option Nat :=
  (s.pptField t 8 16).map fun f => leNat (s.pptRaw t f h [])

/-- A point frame ends: FE_TIME is the arrival of its last datagram (R123). -/
def State.pptClose (s : State) (n : Nat) : State :=
  let s1 := match (s.stream n).opened with
    | some (_, f) => s.closeComplete n f.fe
    | none => s
  s1.setStream n { s1.stream n with pptDropped := false }

/-- The first datagram of a frame opens it (R123); no frame-start packet gives it a number: a free value. -/
def State.pptOpen (s : State) (n : Nat) : State :=
  let x := s.stream n
  if x.opened.isSome || x.pptDropped || !s.is (SP_STR_SRC_EN n) then s
  else
    let s1 := s.took.openFrame n s.hg.dt (s.free % 65536)
    if (s1.stream n).opened.isSome then s1 else s1.setStream n { s1.stream n with pptDropped := true }

/-- A datagram of template t lands on stream n (R121-R123). -/
def State.pptLand (s0 : State) (n t : Nat) (payload : List Byte) : State × Option Landed :=
  let hdr := s0.get (SP_PPT_LAYOUT_HDR_BYTES t)
  let h := payload.take hdr
  let (k, s) := s0.pptCount t payload
  if payload.length < hdr + k * s.get (SP_PPT_LAYOUT_REC_BYTES t) then (s.report 0x2010 spIid, none)
  else
    let sw := s.pptSweep t h
    let x := s.stream n
    let s1 := if s.is (SP_PPT_LAYOUT_FRAME_BY t) && sw != x.sweep && x.sweep.isSome then s.pptClose n else s
    let s2 := s1.setStream n { s1.stream n with sweep := sw }
    let s3 := s2.pptOpen n
    match (s3.stream n).opened with
    | none => (s3, none)
    | some (sl, f) =>
      let (pts, s4) := s3.pptPoints t (s.hg.dt - f.fs) h k (payload.drop hdr)
      s4.landRun n sl { f with fe := s.hg.dt, points := f.points + k } pts [] []

/-- The stream below `n` that takes template t (R120). -/
def State.pptStream (s : State) (t : Nat) : Nat → Option Nat
  | 0 => none
  | n + 1 => match s.pptStream t n with
    | some j => some j
    | none => match s.srcOf n with
      | some w => if w.getLsbD 1 && bitsOf w.toNat 15 2 == t then some n else none
      | none => none

/-- The enabled template below `t` that a datagram matches (R120). -/
def State.pptTemplate (s : State) (port : Nat) (v6 : Bool) : Nat → Option Nat
  | 0 => none
  | t + 1 => match s.pptTemplate port v6 t with
    | some j => some j
    | none =>
      let ip := s.get (SP_PPT_MATCH_IP t)
      if s.is (SP_PPT_MATCH_EN t) && s.get (SP_PPT_MATCH_UDP_PORT t) == port && (ip == 2 || ip == (if v6 then 1 else 0)) then some t
      else none

/-- A frame for the MC's receive queue; how many it holds is stated nowhere, so whether it is full is a free value (R120). -/
def State.mcQueue (s : State) (f : List Byte) : State :=
  if s.free % 2 = 1 then s.took.bump SP_ETH_STAT_MC_DROP
  else { s.took with eth := { s.took.eth with mcRx := s.took.eth.mcRx ++ [f] } }

/-- Without its tag (R119). -/
def untag (f : List Byte) : List Byte := if beAt f 12 2 = 0x8100 then f.take 12 ++ f.drop 16 else f

/-- The points that a datagram has landed are as many as its records. -/
def State.ethReceive (s : State) (f : List Byte) (fcsOk : Bool) : State × Option Landed :=
  if !s.is SP_ETH_CFG_EN then (s, none)
  else if !fcsOk then (s.bump SP_ETH_STAT_FCS_ERR, none)
  else if 9216 < f.length || (ethParse f).bad || !s.ethForMe f then (s, none)
  else match ptpAt f with
    | some o =>
      let s1 := match s.ptpDomain f o with
        | some d => s.hgStamp true (s.ptpStamp f o d (-(s.get HG_PTP_LAT_RX : Int)))
        | none => s
      (s1.mcQueue (untag f), none)
    | none => match (ethParse f).udp with
      | none => (s.mcQueue (untag f), none)
      | some (u, v6) => match s.pptTemplate (beAt f (u + 2) 2) v6 4 with
        | none => (s.mcQueue (untag f), none)
        | some t => match s.pptStream t 64 with
          | none => (s, none)
          | some n => s.pptLand n t ((f.drop (u + 8)).take (beAt f (u + 4) 2 - 8))

/-- FRAME_BY 0: the point frames of the streams below `n` close at a turn start (R123). -/
def State.pptTurn (s : State) : Nat → State
  | 0 => s
  | n + 1 =>
    let s1 := s.pptTurn n
    match s1.srcOf n with
    | some w => if w.getLsbD 1 && !s1.is (SP_PPT_LAYOUT_FRAME_BY (bitsOf w.toNat 15 2)) then s1.pptClose n else s1
    | none => s1

/-- ETH_FRAME_TRANSMIT (R120). -/
def execEthFrameTransmit (f : List Byte) (oneStep : Bool) (s : State) : Ans := s.done (s.ethTransmit f oneStep)

/-- PTP_TX_DROP (R89). -/
def execPtpTxDrop (s : State) : Ans := s.done s.ptpDrop

/-- ETH_SERDES_LOCK_LOSS (R89). -/
def execEthSerdesLockLoss (s : State) : Ans := s.done { s with eth := { s.eth with locked := false } }

/-- ETH_SERDES_LOCK_RETURN (R89). -/
def execEthSerdesLockReturn (s : State) : Ans := s.done s.ethLock

end Sys2Proof.Machine
end

