-- ==== Sys2Proof/Machine/Wake.lean ====
section
/-! DEFINITION. Wake reasons, and the beginning of an exit from a power state (R655, R658, R662, R664, R665, R674). -/

namespace Sys2Proof.Machine

open Reg

/-- The power state in force, or the deeper one that is being entered or left; 2 and above are the sleeping states. -/
def State.sleepLevel (s : State) : Nat :=
  max (s.get MC_PWR_STAT_STATE) (max (s.pwr.entering.getD 0) (s.pwr.leaving.getD 0))

/-- The rails that a state takes off, by bit of MC_RAIL_STAT.EN: 0 SOC, 1 REEL, 2 LINK, 3 CORE (R654). -/
def railsOff (k : Nat) : Nat := if k = 2 then 8 else if k = 3 then 12 else if k = 4 then 15 else 0

/-- Exit begins, from where the entry stands or from the state in force; the rails are enabled again (R655, R658). -/
def State.beginExit (s : State) : State :=
  let go (k spent : Nat) : State :=
    let s1 : State := { s with pwr := { s.pwr with entering := none, leaving := some k, since := s.hg.dt, spent := spent } }
    (s1.putB MC_PWR_STAT_MOVING true).put MC_RAIL_STAT_EN (s1.get MC_RAIL_STAT_EN ||| railsOff (s1.get MC_PWR_STAT_STATE))
  if s.pwr.leaving.isSome then s
  else match s.pwr.entering with
    | some k => go k (s.hg.dt - s.pwr.since)
    | none => if s.get MC_PWR_STAT_STATE = 0 then s else go (s.get MC_PWR_STAT_STATE) 0

/-- The reasons enabled in MC_WAKE_EN; bits 1–3 are always (R662). -/
def State.wakeOn (s : State) (b : Nat) : Bool := (s.reg MC_WAKE_EN).getLsbD b || (decide (1 ≤ b) && decide (b ≤ 3))

/-- The deepest sleeping state from which a reason wakes (R662). -/
def wakeDepth (b : Nat) : Nat := if b = 4 then 3 else if b = 7 then 2 else 4

/-- WAKE_N of the owner's port is asserted for a reason other than the host's (R664, R674). -/
def State.assertWake (s : State) (b : Nat) : State :=
  let p := s.get MC_PWR_OWNER_TENANT / 4
  if b ≠ 2 ∧ b ≠ 3 ∧ s.is MC_PWR_OWNER_VALID = true ∧ s.pwr.perst.testBit p = true ∧ s.pwr.resumed.testBit p = false then
    { s with pwr := { s.pwr with wakeN := setBits s.pwr.wakeN p 1 1 } }
  else s

/-- Reason `b` sets its bit in MC_WAKE_PEND; one that is there already is counted (R665). -/
def State.pendWake (s : State) (b : Nat) : State :=
  if (s.reg MC_WAKE_PEND).getLsbD b then s.put ⟨MC_WAKE_CNT, 0, 16⟩ (min (s.get ⟨MC_WAKE_CNT, 0, 16⟩ + 1) 65535)
  else s.setReg MC_WAKE_PEND (s.reg MC_WAKE_PEND ||| BitVec.twoPow 32 b)

/-- A wake reason arrives: recorded while the device sleeps, enters a sleeping state or leaves one, and exit begins (R658, R662). -/
def State.recordWake (s : State) (b : Nat) : State :=
  if s.wakeOn b && decide (2 ≤ s.sleepLevel) && decide (s.sleepLevel ≤ wakeDepth b) then
    ((s.pendWake b).assertWake b).beginExit
  else s

end Sys2Proof.Machine
end

