-- ==== Sys2Proof/Machine/SvLink.lean ====
section
/-! DEFINITION. Messages that leave on the Selvedge link: classes, credits, link and end-to-end sequences, and routes (R562-R566,
R568, R571). -/

namespace Sys2Proof.Machine

open Reg

def State.setSv (s : State) (f : Sv → Sv) : State := { s with sv := f s.sv }

def State.svPort (s : State) (p : Nat) : SvPort := spGet (fun _ => {}) s.sv.ports p

def State.setSvPort (s : State) (p : Nat) (x : SvPort) : State :=
  s.setSv fun v => { v with ports := spPut (fun _ => {}) v.ports p x }

def State.svPeer (s : State) (d : Nat) : SvPeer := spGet (fun _ => {}) s.sv.peers d

def State.setSvPeer (s : State) (d : Nat) (x : SvPeer) : State :=
  s.setSv fun v => { v with peers := spPut (fun _ => {}) v.peers d x }

/-- The Initiator ID of port p (R582). -/
def svIid (p : Nat) : Nat := 24 + p

/-- DEV_ID and MEMBERS (R569). -/
def State.svDev (s : State) : Nat := s.get SV_CFG_DEV_ID

def State.svMembers (s : State) : Nat := max 1 (s.get SV_CFG_MEMBERS)

/-- The port's state (R584): 4 is UP, 5 CAL. -/
def State.svState (s : State) (p : Nat) : Nat := s.get (SV_PORT_STAT_STATE p)

/-! ### Messages (R563, R564) -/

/-- The credit class. -/
def SvMsg.cls : SvMsg → Nat
  | .mirrorWr _ _ => 1
  | .poolRd _ _ _ => 1
  | .poolWr _ _ _ => 1
  | .mirrorAck _ _ => 2
  | .poolRdData _ _ _ => 2
  | .poolWrAck _ => 2
  | .ringBlock _ _ _ _ _ => 3
  | .blockFetch _ _ => 3
  | _ => 0

/-- The data blocks of the payload (DESIGN CHOICE; the spec gives the fields and no layout). -/
def SvMsg.blocks : SvMsg → Nat
  | .hello _ _ _ _ _ => 1
  | .heartbeat _ _ _ _ _ _ _ => 4
  | .time _ _ _ _ => 4
  | .handover _ _ => 1
  | .notice _ _ => 1
  | .detach => 0
  | .mirrorWr _ l => 1 + (l.length + 7) / 8
  | .mirrorAck _ _ => 1
  | .poolRd _ _ _ => 2
  | .poolRdData d _ _ => 2 + (d.length + 7) / 8
  | .poolWr _ l _ => 2 + (l.length + 7) / 8
  | .poolWrAck _ => 1
  | .ringBlock _ _ _ d _ => 1 + (d.length + 7) / 8
  | .blockFetch _ _ => 1

/-- The units of a message of `len` data blocks (R564): 64 bytes each, START and END with it. -/
def svUnits (len : Nat) : Nat := (len + 2 + 7) / 8

/-- The units of a class's buffer (R564). -/
def svCap (cls : Nat) : Nat := if cls = 0 then 64 else if cls = 3 then 4096 else 1024

/-- A message that goes stale (R568). -/
def SvMsg.stale : SvMsg → Bool
  | .heartbeat _ _ _ _ _ _ _ => true
  | .time _ _ _ _ => true
  | .handover _ _ => true
  | _ => false

/-- A message that concerns its own port only and is not sent again through the other one. -/
def SvMsg.here : SvMsg → Bool
  | .hello _ _ _ _ _ => true
  | .heartbeat _ _ _ _ _ _ _ => true
  | .time _ _ _ _ => true
  | _ => false

/-- A message that may be dropped, or that says what the device is: it is not kept for its E2E order (DEDUCED: no later message
could otherwise arrive). -/
def SvMsg.loose : SvMsg → Bool
  | .detach => true
  | .hello _ _ _ _ _ => true
  | m => m.stale

/-- A TIME message takes the instant at which it starts (R567). -/
def SvMsg.start (now : Nat) : SvMsg → SvMsg
  | .time false _ t2 t3 => .time false now t2 t3
  | .time true t1 t2 _ => .time true t1 t2 now
  | m => m

/-! ### Sending -/

/-- The messages of a queue that start now, oldest first: one without credits, or for which the replay buffer has no room, holds
back the later ones of its class. -/
def svStart (now : Nat) : SvPort → List Nat → List SvTx → SvPort × List SvTx
  | x, _, [] => ({ x with queue := [] }, [])
  | x, held, m :: r =>
    let c := m.msg.cls
    let u := svUnits m.msg.blocks
    let have_ := x.credit.getD c 0
    if held.contains c || decide (have_ < u ∨ 64 ≤ x.unacked.length) then
      let (y, out) := svStart now x (c :: held) r
      ({ y with queue := m :: y.queue }, out)
    else
      let m1 := { m with lseq := x.lseq, msg := m.msg.start now }
      let (y, out) := svStart now { x with
        lseq := (x.lseq + 1) % 4096, unacked := x.unacked ++ [m1],
        credit := (List.range 4).map fun k => if k = c then have_ - u else x.credit.getD k 0 } held r
      (y, m1 :: out)

/-- What can leave port p leaves. -/
def State.svPump (s : State) (p : Nat) : State :=
  let x := s.svPort p
  if s.svState p ≠ 4 ∨ x.locked = false ∨ x.bad then s
  else
    let (y, out) := svStart s.now x [] x.queue
    out.foldl (fun s m => s.emit (.svMsg p m)) (s.setSvPort p y)

/-- A message waits for port p: one that goes stale is dropped where the transmit lock has been away too long (R568). -/
def State.svQueue (s : State) (p : Nat) (m : SvTx) : State :=
  let x := s.svPort p
  if m.msg.stale && s.svState p == 4 && !x.locked && decide (x.lostAt + 200000 * 256 ≤ s.hg.dt) then
    let s1 := s.bump (SV_PORT_ERR_STALE p)
    if x.staleSaid then s1 else (s1.setSvPort p { x with staleSaid := true }).report 0xA031 (svIid p)
  else (s.setSvPort p { x with queue := x.queue ++ [m] }).svPump p

/-- The port is UP, or pauses in CAL, and in ring order. -/
def State.svUsable (s : State) (p : Nat) : Bool := (s.svState p == 4 || s.svState p == 5) && !(s.svPort p).bad

/-- The port towards a device (R571). -/
def State.svRoute (s : State) (dst : Nat) : Nat :=
  let m := s.svMembers
  let pref := if 2 * ((dst + m - s.svDev % m) % m) ≤ m then 0 else 1
  if s.svUsable pref || !s.svUsable (1 - pref) then pref else 1 - pref

/-- The next E2E number towards a destination in a class; broadcasts count apart. -/
def State.svE2e (s : State) (key : Nat) : State × Nat :=
  let n := spGet (fun _ => 0) s.sv.tx key
  (s.setSv fun v => { v with tx := spPut (fun _ => 0) v.tx key ((n + 1) % 65536) }, n)

/-- The E2E count of a message to a device. -/
def svKey (dst : Nat) (msg : SvMsg) : Nat := if msg.loose then 64 + dst else dst * 4 + msg.cls

/-- Send a message to a device. -/
def State.svSend (s : State) (dst : Nat) (msg : SvMsg) : State :=
  let (s1, n) := s.svE2e (svKey dst msg)
  s1.svQueue (s1.svRoute dst) { msg := msg, src := s1.svDev, dst := dst, e2e := n }

/-- Send a message to the neighbour on port p. -/
def State.svNeighbour (s : State) (p : Nat) (msg : SvMsg) : State :=
  let m := s.svMembers
  let dst := if p = 0 then (s.svDev + 1) % m else (s.svDev + m - 1) % m
  let (s1, n) := s.svE2e (svKey dst msg)
  s1.svQueue p { msg := msg, src := s1.svDev, dst := dst, e2e := n }

/-- Broadcast a message on port p. -/
def State.svBcast (s : State) (p : Nat) (msg : SvMsg) : State :=
  let (s1, n) := s.svE2e (32 + p)
  s1.svQueue p { msg := msg, src := s1.svDev, dst := 0, bcast := true, e2e := n }

/-- The twin's DEV_ID. -/
def State.twinDev (s : State) : Nat := (s.svDev + 1) % 2

/-- The twin is paired and its link is up (R472, R473). -/
def State.twinUp (s : State) : Bool := s.is PL_STATUS_TWIN && (s.svUsable 0 || s.svUsable 1)

/-- The unit keeps a bit of HG_TRIG_OE in a twin: another master's write does not change it (R575). -/
def State.oeWrite (s : State) (v : Word) : State :=
  let m := if s.is SV_CFG_TWIN then s.reg SV_TRIG_MASK else 0
  s.setReg HG_TRIG_OE ((v &&& ~~~ m ||| s.reg HG_TRIG_OE &&& m) &&& 0xFFFF)

/-- A device can be reached: it is not lost, and a port is usable. -/
def State.svReach (s : State) (d : Nat) : Bool := !(s.svPeer d).lost && (s.svUsable 0 || s.svUsable 1)

end Sys2Proof.Machine
end

