-- ==== Sys2Proof/Machine/Memory.lean ====
section
/-! DEFINITION. The Bobbins, the Reel behind its cache, ECC and poison, and the checks every DPA access passes: the Fence region
check and the Pool check (R422-R432, R446, R457, R466, R470-R473, R476, R538-R540). -/

namespace Sys2Proof.Machine

open Reg

/-! ### The DPA map (R424, R425) -/

/-- The Reel cache's size in bytes. -/
def State.cacheBytes (s : State) : Nat := 2 ^ 30 * s.get MEM_RC_CFG_SIZE

/-- A Bobbin data DPA. -/
def isBob (a : Nat) : Bool := decide (a < 0xF00000000)

/-- Bobbin data outside the cache area. -/
def State.isBobData (s : State) (a : Nat) : Bool := decide (a < 0xF00000000 - s.cacheBytes)

/-- The Reel main partition. -/
def isReel (a : Nat) : Bool := decide (0x8000000000 ≤ a ∧ a < 0xF000000000)

/-- The Bobbin of a Bobbin data address. -/
def bobbinOf (a : Nat) : Nat := bitsOf a 12 2 ^^^ bitsOf a 14 2

/-! ### Ranges of the Pool (R457, R458) -/

/-- Region r covers DPA a. -/
def State.rgnHas (s : State) (r a : Nat) : Bool :=
  let b := 2 ^ 21 * (s.reg (PL_RGN_BASE r)).toNat
  decide (b ≤ a ∧ a < b + 2 ^ 21 * (s.reg (PL_RGN_SIZE r)).toNat)

/-- Extent x is not FREE and covers DPA a. -/
def State.extHas (s : State) (x a : Nat) : Bool :=
  let b := 2 ^ 21 * (s.reg (PL_EXT_BASE x)).toNat
  s.get (PL_EXT_STATE_STATE x) != 0 && decide (b ≤ a ∧ a < b + 2 ^ 21 * (s.reg (PL_EXT_SIZE x)).toNat)

/-- The protection of a DPA: the range (region r as r, extent x as 16 + x), its base, PROT and ERR_MODE. -/
structure Prot where
  range : Nat
  base : Nat
  prot : Nat
  fatal : Bool
deriving DecidableEq, Repr

/-- Region r as a range. -/
def State.rgnProt (s : State) (r : Nat) : Prot :=
  ⟨r, 2 ^ 21 * (s.reg (PL_RGN_BASE r)).toNat, s.get (PL_RGN_CFG_PROT r), s.is (PL_RGN_CFG_ERR_MODE r)⟩

/-- Extent x as a range, numbered after the regions. -/
def State.extProt (s : State) (x : Nat) : Prot :=
  ⟨16 + x, 2 ^ 21 * (s.reg (PL_EXT_BASE x)).toNat, s.get (PL_EXT_STATE_PROT x), s.is (PL_EXT_STATE_ERR_MODE x)⟩

/-- The range that holds a DPA; none without protection. -/
def State.protOf (s : State) (a : Nat) : Option Prot :=
  ((firstIdx (fun r => s.rgnHas r a) 16).map s.rgnProt).or ((firstIdx (fun x => s.extHas x a) 32).map s.extProt)

/-- PARITY: the DPA of the parity byte over DPA a (R470). -/
def parityAddr (base a : Nat) : Nat :=
  let k := (a - base) / 0x4000
  base + k * 0x4000 + k % 4 * 0x1000 + a % 0x1000

/-- The four DPAs, one in each granule, of the block that holds a. -/
def parityGroup (base a : Nat) : List Nat :=
  (List.range 4).map fun g => base + (a - base) / 0x4000 * 0x4000 + g * 0x1000 + a % 0x1000

/-- DPA a lies in a parity granule (R470). -/
def inParity (p : Prot) (a : Nat) : Bool := p.prot == 1 && parityAddr p.base a / 0x1000 == a / 0x1000

/-! ### The checks (R457, R538-R540) -/

/-- Who accesses: the effective ID of R536, or a device of the twin or ring and its tenant (R461, R579). -/
inductive Who where
  | local (id : Nat)
  | remote (dev tenant : Nat)
deriving DecidableEq, Repr

/-- Region entry e admits the access (R538). -/
def State.fenceEntry (s : State) (e id a n : Nat) (wr : Bool) : Bool :=
  let first := (s.reg (HI_FENCE_FIRST e)).toNat
  first / 2 ^ 31 == 1 && decide (first % 2 ^ 28 * 4096 ≤ a) &&
    decide (a + n ≤ ((s.reg (HI_FENCE_LAST e)).toNat % 2 ^ 28 + 1) * 4096) &&
    (s.reg (if wr then HI_FENCE_WR e else HI_FENCE_RD e)).getLsbD id

/-- R538, R539: the region check. -/
def State.fenceOk (s : State) (id a n : Nat) (wr : Bool) : Bool :=
  (id == 9 && !s.locked) || (firstIdx (fun e => s.fenceEntry e id a n wr) 64).isSome

/-- The state of a region that admits accesses: a move in progress counts already (R460). -/
def State.rgnState (s : State) (r : Nat) : Nat := (spGet (fun _ => none) s.pool.next r).getD (s.get (PL_RGN_CFG_STATE r))

/-- R459, R461: region r refuses. -/
def State.rgnDenies (s : State) (r : Nat) (w : Who) (wr : Bool) : Bool :=
  let st := s.rgnState r
  match w with
  | .local id =>
    !((st == 1 && s.get (PL_RGN_CFG_WRITER r) == id) ||
      (st == 2 && !wr && decide (id < 8) && (s.reg (PL_RGN_READERS r)).getLsbD id))
  | .remote d _ => !(st == 2 && !wr && (s.reg (PL_RGN_READERS r)).getLsbD (16 + d))

/-- The HOLDER field that stands for a requester (R479). -/
def Who.holder : Who → Nat
  | .local id => id
  | .remote d t => t + 8 + 16 * d

/-- The holder that a HOLDER field names: a local one has no device (R479). -/
def holderOf (h : Nat) : Nat := if h.testBit 3 then h % 128 else h % 8

/-- R464, R466: what extent x answers: none where it admits. -/
def State.extDenies (s : State) (x : Nat) (w : Who) (wr : Bool) : Option Nat :=
  let localOk := match w with
    | .local id => decide (id < 8)
    | .remote _ _ => true
  if !localOk || holderOf (s.get (PL_EXT_STATE_HOLDER x)) != w.holder then some 0x7002
  else if s.get (PL_EXT_STATE_STATE x) == 3 then some 0x7006
  else if wr && !s.is (PL_EXT_STATE_WR x) then some 0x7002
  else none

/-- R457: the Pool check. -/
def State.poolCheck (s : State) (w : Who) (a : Nat) (wr : Bool) : Option Nat :=
  if !s.is PL_CTL_EN then none
  else if (firstIdx (fun r => s.rgnHas r a && s.rgnDenies r w wr) 16).isSome then some 0x7002
  else match firstIdx (fun x => s.extHas x a && (s.extDenies x w wr).isSome) 32 with
    | some x => s.extDenies x w wr
    | none => match s.protOf a with
      | some p => if inParity p a then some 0x7002 else none
      | none => none

/-- Both checks on an access within one granule: the code of the refusal (R554). -/
def State.dpaCheck (s : State) (w : Who) (a n : Nat) (wr : Bool) : Option Nat :=
  match w with
  | .local id => if !s.fenceOk id a n wr then some 0x9003 else s.poolCheck w a wr
  | .remote _ _ => s.poolCheck w a wr

/-- Report and count a refused access (R540, R457, R552). -/
def State.dpaRefuse (s : State) (code iid : Nat) : State :=
  let s1 := s.report code iid
  if code / 0x1000 = 9 then s1.bump HI_DENY_CNT_REGION else s1.bump PL_STAT_DENIED

/-! ### The Reel cache (R429-R432, R476) -/

/-- 16 KiB lines: the sets of the cache (log entry 16). -/
def State.cacheSets (s : State) : Nat := s.cacheBytes / (16 * 16384)

/-- Move the new bytes of line `l` to the Reel. -/
def Mem.toReel (m : Mem) (l : Nat) : Mem :=
  let mine := m.reelNew.filter fun p => p.1 / 16384 == l
  { m with reelNew := m.reelNew.filter (fun p => p.1 / 16384 != l),
           reel := mine.foldl (fun r p => spPut (fun _ => 0) r p.1 (p.2.getD 0)) m.reel }

/-- The oldest line of the write-back buffer reaches the Reel. -/
def Mem.drain (m : Mem) : Mem :=
  match m.wb with
  | [] => m
  | l :: r => { m.toReel l with wb := r }

/-- A line leaves the cache: a dirty one to the write-back buffer, which drains first where it is full (R430). -/
def Mem.evict (m : Mem) : Option (Nat × Bool) → Mem
  | some (l, true) =>
    let m1 := if 64 ≤ m.wb.length then m.drain else m
    { m1 with wb := m1.wb ++ [l] }
  | _ => m

/-- An access to Reel line `l`: a hit is moved to the front; a miss allocates, and counts (R430, R476). -/
def State.reelTouch (s : State) (l : Nat) (wr : Bool) : State :=
  let set := l % max 1 s.cacheSets
  let ways := spGet (fun _ => []) s.mem.cache set
  let place (m : Mem) (ws : List (Nat × Bool)) : Mem := { m with cache := spPut (fun _ => []) m.cache set ws }
  match ways.find? (fun w => w.1 == l) with
  | some (_, d) => { s with mem := place s.mem ((l, d || wr) :: ways.filter fun w => w.1 != l) }
  | none =>
    if s.mem.wb.contains l then
      if wr then
        let m := { s.mem with wb := s.mem.wb.filter (· != l) }
        { s with mem := place (m.evict ((ways.drop 15).head?)) ((l, true) :: ways.take 15) }
      else s
    else
      let m := { s.mem with filling := l :: s.mem.filling.filter (· != l) }
      { s with mem := place (m.evict ((ways.drop 15).head?)) ((l, wr) :: ways.take 15) }.bump (whole MEM_RC_MISS)

/-! ### Bytes -/

/-- The byte at a DPA. What nothing has written reads as 0 (log entry 3). -/
def State.byteAt (s : State) (a : Nat) : Byte :=
  if isReel a then (spGet (fun _ => none) s.mem.reelNew a).getD (spGet (fun _ => 0) s.mem.reel a)
  else spGet (fun _ => 0) s.mem.bob a

/-- `n` bytes from DPA a on. -/
def State.bytesAt (s : State) (a : Nat) : Nat → List Byte
  | 0 => []
  | n + 1 => s.byteAt a :: s.bytesAt (a + 1) n

/-- Place a byte at a DPA. -/
def Mem.put (m : Mem) (a : Nat) (b : Byte) : Mem :=
  if isReel a then { m with reelNew := spPut (fun _ => none) m.reelNew a (if b = spGet (fun _ => 0) m.reel a then none else some b) }
  else { m with bob := spPut (fun _ => 0) m.bob a b }

/-- Place bytes from DPA a on. -/
def Mem.puts (m : Mem) (a : Nat) : List Byte → Mem
  | [] => m
  | b :: r => (m.put a b).puts (a + 1) r

def State.poisoned (s : State) (l : Nat) : Bool := spGet (fun _ => false) s.mem.poison l

def State.setPoison (s : State) (l : Nat) (b : Bool) : State :=
  { s with mem := { s.mem with poison := spPut (fun _ => false) s.mem.poison l b } }

/-- Poison `n` lines from `l` on. -/
def State.poisonLines (s : State) (l : Nat) : Nat → State
  | 0 => s
  | n + 1 => (s.setPoison l true).poisonLines (l + 1) n

/-! ### ECC (R426, R427, R432, R471, R472) -/

/-- R426: an uncorrectable read of line l by `iid`, reported and latched. -/
def State.eccUe (s : State) (iid l : Nat) : State :=
  if isReel (l * 64) then (s.bump MEM_REEL_ERR_UE).report 0x5020 26
  else
    let b := bobbinOf (l * 64)
    ((s.bump (whole (MEM_ECC_UE b))).setPair (MEM_ECC_ADDR_LO b) (l * 64)).report 0x5010 iid

/-- A line that R426 finds uncorrectable, in a range with protection or none: whether it stays lost. -/
def State.recoverBy (s : State) (iid l : Nat) (e : MemErr) : Option Prot → State × Bool
  | some p =>
    if p.prot = 1 then
      let others := (parityGroup p.base (l * 64)).filter fun a => a / 64 != l
      if others.any (fun a => e.ue.contains (a / 64) || s.poisoned (a / 64)) then (s.report 0x7022 iid, true)
      else (s.bump PL_STAT_REBUILT, false)
    else if p.prot = 2 && s.twinUp && !spGet (fun _ => false) s.pool.dirty (l / 64) then
      if e.twinUe.contains l then (s.report 0x7024 iid, true) else (s, false)
    else (s, true)
  | none => (s, true)

/-- A line that R426 finds uncorrectable, by its protection (R471-R473, R581): whether it stays lost. -/
def State.recover (s : State) (iid l : Nat) (e : MemErr) : State × Bool := s.recoverBy iid l e (s.protOf (l * 64))

/-- Read line l: whether its data come back poisoned. An uncorrectable Reel fill poisons its whole line of 16 KiB (R432). -/
def State.lineRead (s : State) (iid l : Nat) (e : MemErr) : State × Bool :=
  if s.poisoned l then (s, true)
  else if e.ue.contains l then
    let (s1, lost) := (s.eccUe iid l).recover iid l e
    if lost && isReel (l * 64) then (s1.poisonLines (l / 256 * 256) 256, true) else (s1, lost)
  else if e.ce.contains l then
    (if isReel (l * 64) then s.bump MEM_REEL_ERR_CE else s.bump (whole (MEM_ECC_CE (bobbinOf (l * 64)))), false)
  else (s, false)

/-- Read `n` lines from l on: those that come back poisoned. -/
def State.linesRead (s : State) (iid l : Nat) (e : MemErr) : Nat → State × List Nat
  | 0 => (s, [])
  | n + 1 =>
    let (s1, p) := s.lineRead iid l e
    let (s2, r) := s1.linesRead iid (l + 1) e n
    (s2, if p then l :: r else r)

/-- Bring the Reel lines of an access into the cache; a write clears OFF_READY (R659). -/
def State.reelSpan (s : State) (a n : Nat) (wr : Bool) : State :=
  if isReel a then
    (List.range ((a + n + 16383) / 16384 - a / 16384)).foldl (fun s i => s.reelTouch (a / 16384 + i) wr)
      (if wr then s.putB MC_PWR_STAT_OFF_READY false else s)
  else s

/-- A checked read of `n` bytes at DPA a: the state after, the bytes, and the lines that are poisoned. -/
def State.dpaRead (s : State) (iid a n : Nat) (e : MemErr) : State × List Byte × List Nat :=
  if n = 0 then (s, [], [])
  else
    let s1 := s.reelSpan a n false
    let (s2, p) := s1.linesRead iid (a / 64) e ((a + n - 1) / 64 - a / 64 + 1)
    (s2, s2.bytesAt a n, p)

/-- Line l is written: whole, it is correct; in part, a line that reads uncorrectable is written back poisoned (R427). -/
def State.lineWrite (s : State) (iid l : Nat) (wholeLine : Bool) (e : MemErr) : State :=
  if wholeLine then s.setPoison l false
  else
    let (s1, lost) := s.lineRead iid l e
    if lost then s1.setPoison l true else s1

/-- The lines of a write of `n` bytes at a, from line l on. -/
def State.linesWrite (s : State) (iid a n l : Nat) (e : MemErr) : Nat → State
  | 0 => s
  | k + 1 => (s.lineWrite iid l (decide (a ≤ l * 64 ∧ l * 64 + 64 ≤ a + n)) e).linesWrite iid a n (l + 1) e k

/-- The parity lines over `n` lines from l on are rewritten (R470). -/
def State.parityLines (s : State) (base l : Nat) : Nat → State
  | 0 => s
  | n + 1 =>
    let pa := parityAddr base (l * 64)
    let data := (parityGroup base (l * 64)).filter fun g => g / 0x1000 != pa / 0x1000
    let bs := (List.range 64).map fun i => data.foldl (fun x g => x ^^^ s.byteAt (g / 64 * 64 + i)) (0 : Byte)
    ({ s with mem := s.mem.puts (pa / 64 * 64) bs }).parityLines base (l + 1) n

/-- The lines of a write of `n` bytes at a go to the twin, at most seven in a message (R472, R563; log entry 23): `k` bounds the
messages. -/
def State.mirrorSend (s : State) (l n : Nat) : Nat → State
  | 0 => s
  | k + 1 =>
    if n = 0 then s
    else
      let m := min n 7
      let s1 : State := { s with pool := { s.pool with mirrorWait := s.pool.mirrorWait ++ [l * 64] } }
      (s1.svSend s.twinDev (.mirrorWr (l * 64) (s.bytesAt (l * 64) (64 * m)))).mirrorSend (l + m) (n - m) k

/-- R473: a write to a degraded MIRROR range is tracked. -/
def State.degraded (s : State) (p : Prot) (a : Nat) : State :=
    let said := s.pool.degradedSaid.contains p.range
    let s1 : State := { s with pool := { s.pool with
      dirty := spPut (fun _ => false) s.pool.dirty (a / 4096) true,
      degradedSaid := if said then s.pool.degradedSaid else p.range :: s.pool.degradedSaid } }
    let s2 := if p.range < 16 then s1.putB (PL_RGN_STAT_DEGRADED p.range) true else s1
    if said then s2 else s2.report 0x7023 22

/-- R472, R473: the twin's copy of a MIRROR range, or its tracking while it is degraded. -/
def State.mirror (s : State) (p : Prot) (a n : Nat) : State :=
  if s.twinUp then s.mirrorSend (a / 64) ((a + n + 63) / 64 - a / 64) 64 else s.degraded p a

/-- A checked write at DPA a, within one granule; `twin` says that it goes on to the twin's copy of a MIRROR range. -/
def State.dpaWrite (s : State) (iid a : Nat) (bs : List Byte) (e : MemErr) (twin : Bool := true) : State :=
  if bs.isEmpty then s
  else
    let n := bs.length
    let l := a / 64
    let k := (a + n - 1) / 64 - l + 1
    let s1 := (s.reelSpan a n true).linesWrite iid a n l e k
    let s2 : State := { s1 with mem := s1.mem.puts a bs }
    match s2.protOf a with
    | some p => if p.prot = 1 then s2.parityLines p.base l k else if p.prot = 2 ∧ twin then s2.mirror p a n else s2
    | none => s2

/-! ### Commands of the memory (R430, R431, R446, R451) -/

/-- REEL_FILL_COMPLETE (R430, R432). -/
def State.reelFilled (s : State) (l : Nat) (ok : Bool) : State :=
  if !s.mem.filling.contains l then s
  else
    let s1 : State := { s with mem := { s.mem with filling := s.mem.filling.filter (· != l) } }
    if ok then s1 else ((s1.bump MEM_REEL_ERR_UE).report 0x5020 26).poisonLines (l * 256) 256

/-- The dirty lines of the cache. -/
def Mem.dirtyLines (m : Mem) : List Nat := m.cache.flatMap fun p => (p.2.filter (·.2)).map (·.1)

/-- The lines that the Reel does not hold as they stand: dirty in the cache, or in the write-back buffer. -/
def Mem.unwritten (m : Mem) : List Nat := m.dirtyLines ++ m.wb

/-- REEL_FLUSH (R431). -/
def State.reelFlush (s : State) : State :=
  { s with mem := { s.mem with flush := s.mem.unwritten } }.putB MEM_RC_CTL_FLUSH true |>.putB MEM_STATUS_FLUSHING true

/-- Write back lines and mark them clean. -/
def Mem.clean (m : Mem) (ls : List Nat) : Mem :=
  let m1 := { m with
    wb := m.wb.filter fun l => !ls.contains l
    cache := m.cache.map fun p => (p.1, p.2.map fun w => if ls.contains w.1 then (w.1, false) else w) }
  ls.foldl Mem.toReel m1

/-- REEL_FLUSH_DONE (R431). -/
def State.reelFlushed (s : State) : State :=
  if !s.is MEM_RC_CTL_FLUSH then s
  else { s with mem := { s.mem.clean s.mem.flush with flush := [] } }.putB MEM_RC_CTL_FLUSH false |>.putB MEM_STATUS_FLUSHING false

/-- The lines of a scrub pass: 64 GiB. -/
def scrubLines : Nat := 2 ^ 30

/-- The pass moves on by one line (R446). -/
def State.scrubNext (s : State) : State :=
  let n := s.mem.scrubbed + 1
  let done := decide (scrubLines ≤ n)
  let n' := if done then 0 else n
  let s1 := { s with mem := { s.mem with scrubbed := n' } }.put MEM_SCRUB_STAT_PROGRESS (n' * 100 / scrubLines)
  if done then s1.put MEM_SCRUB_STAT_PASSES (s1.get MEM_SCRUB_STAT_PASSES + 1) else s1

/-- The length of a pass by the schedule, in Device Time units. -/
def State.scrubPass (s : State) : Nat := 3600000000000 * 256 * s.get MEM_SCRUB_CFG_PASS_H

/-- The floor of scrub (R666, R667): a pass more than 1 % behind its schedule is forced, and counted, until it is back on it. -/
def State.scrubFloor (s : State) : State :=
  let from_ := s.pwr.scrubFrom.getD s.hg.dt
  let due := (s.hg.dt - from_) * scrubLines / max 1 s.scrubPass
  let force := if s.pwr.scrubForced then decide (s.mem.scrubbed < due) else decide (s.mem.scrubbed + scrubLines / 100 < due)
  let s1 : State := { s with pwr := { s.pwr with scrubFrom := some from_, scrubForced := force } }
  if force && !s.pwr.scrubForced then s1.bump MC_BG_STAT_SCRUB_FORCED else s1

/-- The next pass begins where its schedule puts it. -/
def State.scrubStep (s : State) : State :=
  let s1 := s.scrubFloor.scrubNext
  if s1.mem.scrubbed = 0 then { s1 with pwr := { s1.pwr with scrubFrom := s1.pwr.scrubFrom.map (· + s.scrubPass) } } else s1

/-- SCRUB_LINE (R426, R446): line `l` by DPA / 64; the schedule holds in ACTIVE and PAUSE. -/
def State.scrub (s : State) (l : Nat) (found : Ecc) : State :=
  if !s.is MEM_SCRUB_CFG_EN || decide (2 ≤ s.get MC_PWR_STAT_STATE) then s
  else
    let s1 := s.scrubStep
    let b := bobbinOf (l * 64)
    match found with
    | .ok => s1
    | .corrected => s1.bump (whole (MEM_ECC_CE b))
    | .uncorrectable =>
      if s1.poisoned l then s1
      else (((s1.bump (whole (MEM_ECC_UE b))).setPoison l true).setPair MEM_SCRUB_UE_LO (l * 64)).report 0x5011 27

/-- REEL_FILL_COMPLETE (R430). -/
def execReelFillComplete (l : Nat) (ok : Bool) (s : State) : Ans := s.done (s.reelFilled l ok)

/-- WRITEBACK_DRAIN (R430). -/
def execWritebackDrain (s : State) : Ans := s.done { s with mem := s.mem.drain }

/-- REEL_FLUSH (R431). -/
def execReelFlush (iid : Iid) (s : State) : Ans := s.done (s.writeWith iid MEM_RC_CTL State.reelFlush)

/-- SCRUB_LINE (R446). -/
def execScrubLine (l : Nat) (found : Ecc) (s : State) : Ans := s.done (s.scrub l found)

end Sys2Proof.Machine
end

