-- ==== Sys2Proof/Machine/Atu.lean ====
section
/-! DEFINITION. Address translation: walks, faults, pinned mappings and invalidation (R424, R433-R445, R448, R450-R455). Every
access is walked when it is made: how many leaves the ATU caches is stated nowhere (log entry 17). -/

namespace Sys2Proof.Machine

open Reg

/-! ### Walks (R434-R438) -/

/-- A leaf that a walk has reached: the DPA of the address, the first VA page and CONT of its group, its OA and its bits. -/
structure Leaf where
  dpa : Nat
  page : Nat
  cont : Nat
  oa : Nat
  pin : Bool
  rd : Bool
  wr : Bool
deriving DecidableEq, Repr

/-- What a walk finds. A fault has a reason of R444 and the level minus 1. -/
inductive Walk where
  | leaf (l : Leaf)
  | fault (reason level : Nat)
deriving DecidableEq, Repr

/-- The Initiator ID of table reads (R438). -/
def walkIid : Nat := 21

/-- Read a table entry for tenant t (R436, R438): none where the read is uncorrectable; a refused one reads zero (R540). -/
def State.tableRead (s : State) (t a : Nat) (e : MemErr) : State × Option Nat :=
  match s.dpaCheck (.local t) a 8 false with
  | some c => (s.dpaRefuse c walkIid, some 0)
  | none =>
    let (s1, bs, p) := s.dpaRead walkIid a 8 e
    (s1, if p.isEmpty then some (leNat bs) else none)

/-- The index of a virtual address at level `l` (R434). -/
def vaIndex (va l : Nat) : Nat := bitsOf va (48 - 9 * l) 9

/-- R437: the entries of a leaf's group agree and its OA is aligned. -/
def State.groupOk (s : State) (a c entry : Nat) : Bool :=
  let first := a / (8 * 2 ^ c) * (8 * 2 ^ c)
  entry / 4096 % 2 ^ c == 0 &&
    (List.range (2 ^ c)).all fun i => leNat (s.bytesAt (first + 8 * i) 8) == entry

/-- A leaf entry read at DPA `a` (R424, R435-R437). -/
def State.leafOf (s : State) (va a entry : Nat) : State × Walk :=
  let cont := bitsOf entry 6 4
  let oa := bitsOf entry 12 28 * 4096
  if bitsOf entry 4 2 != 0 || bitsOf entry 10 2 != 0 || entry / 2 ^ 40 != 0 || decide (9 < cont) then (s, .fault 3 3)
  else if !s.isBobData oa && !isReel oa then (s, .fault 4 3)
  else if isReel oa && s.get MEM_RC_CFG_SIZE == 0 then (s, .fault 5 3)
  else
    let mk (d : Nat) : Walk := .leaf ⟨d, va / 4096 / 2 ^ cont * 2 ^ cont, cont, oa, entry.testBit 3, entry.testBit 1, entry.testBit 2⟩
    if s.groupOk a cont entry then (s, mk (oa + va % (4096 * 2 ^ cont)))
    else (s.took, mk (s.free % 2 ^ 28 * 4096 + va % 4096))

/-- A walk from level `5 - n` on, whose table lies at `base`; `up` is the level field of the entry that named it. -/
def State.walkFrom (s : State) (t va : Nat) (e : MemErr) : Nat → Nat → Nat → State × Walk
  | 0, _, _ => (s, .fault 3 3)
  | n + 1, base, up =>
    let l := 4 - n
    if !s.isBobData base then (s, .fault 4 up)
    else
      let a := base + vaIndex va l * 8
      match s.tableRead t a e with
      | (s1, none) => (s1, .fault 3 (l - 1))
      | (s1, some entry) =>
        if entry % 2 = 0 then (s1, .fault 1 (l - 1))
        else if l = 4 then s1.leafOf va a entry
        else if bitsOf entry 1 5 != 0 || bitsOf entry 6 6 != 0 || entry / 2 ^ 40 != 0 then (s1, .fault 3 (l - 1))
        else s1.walkFrom t va e n (bitsOf entry 12 28 * 4096) (l - 1)

/-- The root of tenant t's table. -/
def State.atRoot (s : State) (t : Nat) : Nat := 4096 * (s.pair (AT_ROOT_LO t) / 4096 % 2 ^ 28)

/-- Walk for tenant t (R434, R448). -/
def State.walk (s : State) (t va : Nat) (e : MemErr) : State × Walk :=
  if !s.is AT_CTL_EN || !s.is (AT_TEN_CTL_EN t) then (s, .fault 1 0)
  else (s.bump AT_STAT_WALKS).walkFrom t (va % 2 ^ 48) e 4 (s.atRoot t) 0

/-! ### Faults (R444, R445) -/

/-- The code of a reason (R444). -/
def faultCode (reason : Nat) : Nat := if reason = 5 then 0x5021 else 0x5000 + reason

/-- Record and report a restartable fault of tenant t (R444, R445). -/
def State.atuFault (s : State) (t : Nat) (f : AtuFault) : State :=
  let q := spGet (fun _ => []) s.atu.faults t
  let s1 := s.report (faultCode f.reason) f.iid
  if 16 ≤ q.length then (s1.putB (AT_FAULT_STAT_OVF t) true).report 0x5007 f.iid
  else { s1 with atu := { s1.atu with faults := spPut (fun _ => []) s1.atu.faults t (q ++ [f]) } }

/-- Translate one address of tenant t: a DPA, or the code of the fault that holds the requester (R436, R444). -/
def State.xlate (s : State) (iid t va : Nat) (wr : Bool) (e : MemErr) : State × Except Nat Nat :=
  let va := va % 2 ^ 48
  match s.walk t va e with
  | (s1, .fault r l) => (s1.atuFault t ⟨r, l, wr, iid, va⟩, .error (faultCode r))
  | (s1, .leaf l) =>
    if (if wr then l.wr else l.rd) then (s1, .ok l.dpa) else (s1.atuFault t ⟨2, 3, wr, iid, va⟩, .error 0x5002)

/-! ### Translated accesses -/

/-- What a read or a write meets: the bytes read, whether some of them were poisoned, the code of a check that refused a
part of it, and the code of the fault at which it stopped. -/
structure VRes where
  bytes : List Byte := []
  poison : Bool := false
  refused : Option Nat := none
  fault : Option Nat := none
deriving DecidableEq, Repr, Inhabited

/-- The bytes of an access that lie in the page of its first byte. -/
def inPage (va n : Nat) : Nat := min n (4096 - va % 4096)

/-- A read for tenant t, page by page (R436, R438, R457, R466); `k` bounds the pages. A refused part reads zero. -/
def State.vaRead (s : State) (iid t : Nat) (e : MemErr) : Nat → Nat → Nat → State × VRes
  | 0, _, _ => (s, {})
  | k + 1, va, n =>
    if n = 0 then (s, {})
    else
      let m := inPage va n
      match s.xlate iid t va false e with
      | (s1, .error c) => (s1, { fault := some c })
      | (s1, .ok a) =>
        let (s2, bs, p, r) := match s1.dpaCheck (.local t) a m false with
          | some c => (s1.dpaRefuse c iid, List.replicate m (0 : Byte), false, some c)
          | none => let (s2, bs, p) := s1.dpaRead iid a m e
                    (s2, bs, !p.isEmpty, none)
        let (s3, x) := s2.vaRead iid t e k (va + m) (n - m)
        (s3, { x with bytes := bs ++ x.bytes, poison := p || x.poison, refused := r.orElse fun _ => x.refused })

/-- The pages an access can touch. -/
def pagesOf (n : Nat) : Nat := n / 4096 + 2

/-- Read `n` bytes at a tenant's virtual address. -/
def State.tenantRead (s : State) (iid t va n : Nat) (e : MemErr) : State × VRes := s.vaRead iid t e (pagesOf n) va n

/-- A write for tenant t, page by page; a refused part has no effect. -/
def State.vaWrite (s : State) (iid t : Nat) (e : MemErr) : Nat → Nat → List Byte → State × VRes
  | 0, _, _ => (s, {})
  | k + 1, va, bs =>
    if bs.isEmpty then (s, {})
    else
      let m := inPage va bs.length
      match s.xlate iid t va true e with
      | (s1, .error c) => (s1, { fault := some c })
      | (s1, .ok a) =>
        let (s2, r) := match s1.dpaCheck (.local t) a m true with
          | some c => (s1.dpaRefuse c iid, some c)
          | none => (s1.dpaWrite iid a (bs.take m) e, none)
        let (s3, x) := s2.vaWrite iid t e k (va + m) (bs.drop m)
        (s3, { x with refused := r.orElse fun _ => x.refused })

/-- Write bytes at a tenant's virtual address. -/
def State.tenantWrite (s : State) (iid t va : Nat) (bs : List Byte) (e : MemErr) : State × VRes :=
  s.vaWrite iid t e (pagesOf bs.length) va bs

/-! ### Pinned mappings (R439-R442) -/

/-- Entry p maps VA `va` of tenant t for the direction. -/
def PtsEntry.covers (p : PtsEntry) (t va : Nat) (wr : Bool) : Bool :=
  p.tenant == t && decide (p.page ≤ va / 4096 ∧ va / 4096 < p.page + 2 ^ p.cont) && (if wr then p.wr else p.rd)

/-- The DPA of a pinned address (R441). -/
def State.ptsFind (s : State) (t va : Nat) (wr : Bool) : Option Nat :=
  ((s.atu.pts.find? fun p => p.covers t (va % 2 ^ 48) wr)).map fun p => p.dpa + (va % 2 ^ 48 - p.page * 4096)

/-- A pinned read, page by page: none where some page has no pinned mapping (R441). -/
def State.pinRead (s : State) (iid t : Nat) (e : MemErr) : Nat → Nat → Nat → State × Option VRes
  | 0, _, _ => (s, some {})
  | k + 1, va, n =>
    if n = 0 then (s, some {})
    else
      let m := inPage va n
      match s.ptsFind t va false with
      | none => (s, none)
      | some a =>
        let (s2, bs, p, r) := match s.dpaCheck (.local t) a m false with
          | some c => (s.dpaRefuse c iid, List.replicate m (0 : Byte), false, some c)
          | none => let (s2, bs, p) := s.dpaRead iid a m e
                    (s2, bs, !p.isEmpty, none)
        let (s3, x) := s2.pinRead iid t e k (va + m) (n - m)
        (s3, x.map fun x => { x with bytes := bs ++ x.bytes, poison := p || x.poison, refused := r.orElse fun _ => x.refused })

/-- Read `n` bytes through pinned mappings. -/
def State.pinnedRead (s : State) (iid t va n : Nat) (e : MemErr) : State × Option VRes := s.pinRead iid t e (pagesOf n) va n

/-- A pinned write, page by page: false where some page has no pinned mapping; the pages before it are written. -/
def State.pinWrite (s : State) (iid t : Nat) (e : MemErr) : Nat → Nat → List Byte → State × Bool
  | 0, _, _ => (s, true)
  | k + 1, va, bs =>
    if bs.isEmpty then (s, true)
    else
      let m := inPage va bs.length
      match s.ptsFind t va true with
      | none => (s, false)
      | some a =>
        let s1 := match s.dpaCheck (.local t) a m true with
          | some c => s.dpaRefuse c iid
          | none => s.dpaWrite iid a (bs.take m) e
        s1.pinWrite iid t e k (va + m) (bs.drop m)

/-- Write bytes through pinned mappings. -/
def State.pinnedWrite (s : State) (iid t va : Nat) (bs : List Byte) (e : MemErr) : State × Bool :=
  s.pinWrite iid t e (pagesOf bs.length) va bs

/-- R439: the leaf meets the conditions of a pin. -/
def State.pinOk (s : State) (l : Leaf) (wr : Bool) : Bool := l.pin && l.rd && (!wr || l.wr) && s.isBobData l.oa

/-- R439: pin-walk `k` pages from page `pg` on: whether it holds; a failure keeps the entries already made. -/
def State.pinPages (s : State) (o : PinOwner) (t : Nat) (wr : Bool) (e : MemErr) : Nat → Nat → State × Bool
  | 0, _ => (s, true)
  | k + 1, pg =>
    if s.atu.pts.any (fun p => decide (p.owner = o) && p.covers t (pg * 4096) wr) then s.pinPages o t wr e k (pg + 1)
    else match s.walk t (pg * 4096) e with
      | (s1, .fault _ _) => (s1.report 0x5005 walkIid, false)
      | (s1, .leaf l) =>
        if !s1.pinOk l wr then (s1.report 0x5005 walkIid, false)
        else if 8192 ≤ s1.atu.pts.length then (s1.report 0x5006 walkIid, false)
        else
          let p : PtsEntry := ⟨o, t, l.page, l.cont, l.oa, l.rd, l.wr⟩
          ({ s1 with atu := { s1.atu with pts := s1.atu.pts ++ [p] } }).pinPages o t wr e k (pg + 1)

/-- R439: pin-walk the pages that `n` bytes at `va` touch. -/
def State.pinWalk (s : State) (o : PinOwner) (t va n : Nat) (wr : Bool) (e : MemErr) : State × Bool :=
  if n = 0 then (s, true) else s.pinPages o t wr e ((va + n - 1) / 4096 - va / 4096 + 1) (va / 4096)

/-- R440: release the entries of every owner that satisfies `f`. -/
def State.unpin (s : State) (f : PinOwner → Bool) : State :=
  { s with atu := { s.atu with pts := s.atu.pts.filter fun p => !f p.owner } }

/-! ### Invalidation (R442, R443) -/

/-- The PTS entry lies in the range that AT_INV_VA and AT_INV_CTL of tenant t name. -/
def State.invHits (s : State) (t : Nat) (p : PtsEntry) : Bool :=
  let first := s.pair (AT_INV_VA_LO t) % 2 ^ 48 / 4096
  p.tenant == t && (s.is (AT_INV_CTL_ALL t) ||
    decide (first < p.page + 2 ^ p.cont ∧ p.page < first + s.get (AT_INV_CTL_PAGES t)))

/-- ATU_INVALIDATE (R443): a write to AT_INV_CTL[t]; PTS entries of the range go at once (R442). -/
def State.atInvCtl (s : State) (t : Nat) (v : Word) : State :=
  let s1 := s.putB (AT_INV_CTL_ALL t) (v.getLsbD 30)
  let s2 := if v.toNat % 2 ^ 20 = 0 then s1 else s1.put (AT_INV_CTL_PAGES t) v.toNat
  if !v.getLsbD 31 then s2
  else
    let gone := (s2.atu.pts.filter fun p => s2.invHits t p).length
    let s3 : State := { s2 with atu := { s2.atu with pts := s2.atu.pts.filter fun p => !s2.invHits t p } }
    (s3.bump AT_STAT_PIN_LOST gone).putB (AT_INV_CTL_GO t) true

/-- A write to AT_ROOT (R448). -/
def State.atRootWrite (s : State) (iid t off : Nat) (v : Word) : State :=
  if s.is (AT_TEN_CTL_EN t) then s else s.plainWrite iid off v

/-- What a read of AT_FAULT_INFO[t] pops (R445). -/
def State.atFaultPop (s : State) (t : Nat) : State :=
  { s with atu := { s.atu with faults := spPut (fun _ => []) s.atu.faults t (spGet (fun _ => []) s.atu.faults t).tail } }

/-- ATU_INVALIDATE (R443). -/
def execAtuInvalidate (iid : Iid) (t : Fin 8) (v : Word) (s : State) : Ans :=
  s.done (s.writeWith iid (AT_INV_CTL t) fun s => s.atInvCtl t v)

/-- ATU_INVALIDATE_DONE (R443). -/
def execAtuInvalidateDone (t : Fin 8) (s : State) : Ans := s.done (s.putB (AT_INV_CTL_GO t) false)

/-- ATU_FAULT_POP (R445). -/
def execAtuFaultPop (iid : Iid) (t : Fin 8) (s : State) : Ans :=
  s.done (s.readWith iid (AT_FAULT_INFO t) fun s => s.atFaultPop t)

end Sys2Proof.Machine
end

