-- ==== Sys2Proof/Machine/Track.lean ====
section
/-! DEFINITION. MSI-X messages, and the Track's squares, store, execution order and completion records (R485-R498, R516,
R520, R524, R531). -/

namespace Sys2Proof.Machine

open Reg

/-! ### MSI-X (R531) -/

def State.hostFn (s : State) (t : Nat) : HostFn := spGet (fun _ => {}) s.hostFns t

def State.setHostFn (s : State) (t : Nat) (x : HostFn) : State := { s with hostFns := spPut (fun _ => {}) s.hostFns t x }

/-- A word of an MSI-X table that nothing has written: every vector is masked. -/
def msixUnset (i : Nat) : Word := if i % 4 = 3 then 1 else 0

/-- Vector v of tenant t may send. -/
def State.msixOpen (s : State) (t v : Nat) : Bool :=
  (s.hostFn t).msixEn && !(s.hostFn t).fmask && !(spGet msixUnset s.msixTab (128 * t + 4 * v + 3)).getLsbD 0 &&
    !s.is (HI_FUNC_STAT_DISABLED t)

/-- Send a message, or hold it (R531). -/
def State.msix (s : State) (t v : Nat) : State :=
  if s.msixOpen t v then s.emit (.msix t v)
  else s.setHostFn t { s.hostFn t with pend := (s.hostFn t).pend ||| BitVec.twoPow 32 v }

/-- MSIX_PENDING_SEND (R531). -/
def State.msixSend (s : State) (t v : Nat) : State :=
  if (s.hostFn t).pend.getLsbD v && s.msixOpen t v then
    (s.setHostFn t { s.hostFn t with pend := (s.hostFn t).pend &&& ~~~ (BitVec.twoPow 32 v) }).emit (.msix t v)
  else s

/-! ### Squares (R485-R491) -/

def State.square (s : State) (n : Nat) : Square := spGet (fun _ => {}) s.track.squares n

def State.setTrack (s : State) (f : Track → Track) : State := { s with track := f s.track }

def State.setSquare (s : State) (n : Nat) (x : Square) : State :=
  s.setTrack fun t => { t with squares := spPut (fun _ => {}) t.squares n x }

/-- The CSN that the next claim of a requester takes (R486). -/
def State.nextCsn (s : State) (r : Nat) : BitVec 16 := spGet (fun _ => 1) s.track.csn r

/-- The outstanding count (R487). -/
def State.outstanding (s : State) (r : Nat) : Nat := spGet (fun _ => 0) s.track.out r

def State.setOut (s : State) (r n : Nat) : State := s.setTrack fun t => { t with out := spPut (fun _ => 0) t.out r n }

/-- The content of a square becomes undefined: a free value in each word (R488). -/
def State.blankSquare (s : State) (n : Nat) : Nat → State
  | 0 => s
  | w + 1 =>
    let s1 := s.blankSquare n w
    let v := BitVec.ofNat 32 s1.free
    s1.took.setTrack fun t => { t with words := spPut (fun _ => 0) t.words (32 * n + w) v }

/-- The first square of a requester's own 32 (R485). -/
def ownBase (r : Nat) : Nat := if r = 9 then 4032 else 4064

/-- The square that a claim would take, where one is free (R486, R487). -/
def State.freeSquare (s : State) (r : Nat) : Option Nat :=
  if r < 8 then if s.track.used < 4032 then some ((s.track.head + s.track.used) % 4032) else none
  else (firstIdx (fun i => (s.square (ownBase r + i)).owner.isNone) 32).map (ownBase r + ·)

/-- The tenant is at its quota (R487), or above one that has been lowered (log entry 35). -/
def State.atQuota (s : State) (r : Nat) : Bool := decide (r < 8 ∧ (s.reg (TK_QUOTA r)).toNat ≤ s.outstanding r)

/-- Claims are open to the requester: TK_CTL.EN, and a tenant's completion queue (R487, R518). -/
def State.claimOpen (s : State) (r : Nat) : Bool := s.is TK_CTL_EN && (decide (8 ≤ r) || s.is (TK_CQ_CFG_EN r))

/-- Claim square n for requester r (R486, R488). -/
def State.claimSquare (s : State) (r n : Nat) : State :=
  let c := s.nextCsn r
  let s1 := (s.blankSquare n 32).setSquare n { owner := some r, csn := c, since := s.hg.dt }
  let w2 := 32 * n + 2
  let s2 := s1.setTrack fun t => { t with
    csn := spPut (fun _ => 1) t.csn r (c + 1), used := if r < 8 then t.used + 1 else t.used,
    words := spPut (fun _ => 0) t.words w2
      (BitVec.ofNat 32 (setBits (spGet (fun _ => 0) t.words w2).toNat 16 16 c.toNat)) }
  s2.setOut r (s2.outstanding r + 1)

/-- TRACK_CLAIM (R486, R487): the state after, and the value the read returns. -/
def State.tkClaim (s : State) (r : Nat) : State × Nat :=
  if !s.claimOpen r then (s, 2 ^ 31)
  else if s.atQuota r then (s, 2 ^ 31 + 2 ^ 30)
  else match s.freeSquare r with
    | none => (s, 2 ^ 31)
    | some n => (s.claimSquare r n, n + (s.nextCsn r).toNat * 2 ^ 12)

/-- SQUARE_WRITE (R488): bytes 10 and 11 stay. -/
def State.squareWrite (s : State) (iid n w : Nat) (v : Word) : State :=
  let q := s.square n
  if q.owner != some iid || q.published || q.passed then s.report 0x8003 iid
  else
    let i := 32 * n + w
    let old := spGet (fun _ => 0) s.track.words i
    let nv := if w = 2 then (old &&& 0xFFFF0000) ||| (v &&& 0xFFFF) else v
    s.setTrack fun t => { t with words := spPut (fun _ => 0) t.words i nv }

/-- What a read of a square returns (R488). -/
def State.squareRead (s : State) (iid n w : Nat) : Word :=
  if (s.square n).owner = some iid then spGet (fun _ => 0) s.track.words (32 * n + w) else 0

/-- The instant at which a claim's lease ends (R490). -/
def State.leaseEnd (s : State) (q : Square) : Nat := q.since + (s.reg TK_LEASE).toNat * 256000

/-- TRACK_PUBLISH (R489, R520). -/
def State.tkPublish (s : State) (iid n : Nat) : State :=
  let q := s.square n
  if q.owner != some iid || q.published || q.passed || decide (s.leaseEnd q ≤ s.hg.dt) then s.report 0x8003 iid
  else s.setSquare n { q with published := true }

/-- The bytes of a square. -/
def State.squareBytes (s : State) (n : Nat) : List Byte :=
  (spGets (fun _ => 0) s.track.words (32 * n) 32).flatMap fun w => leBytes 4 w.toNat

/-- The head moves past squares that have been accepted or voided (R491); `k` bounds the squares. -/
def State.moveHead (s : State) : Nat → State
  | 0 => s
  | k + 1 =>
    if s.track.used ≠ 0 ∧ (s.square s.track.head).passed = true then
      ((s.setSquare s.track.head {}).setTrack fun t => { t with head := (t.head + 1) % 4032, used := t.used - 1 }).moveHead k
    else s

/-- A square has been accepted or voided (R491, R492). -/
def State.passSquare (s : State) (n : Nat) : State :=
  if n < 4032 then (s.setSquare n { s.square n with owner := none, published := false, passed := true }).moveHead 4032 else s.setSquare n {}

/-! ### Completion (R493, R497) -/

def State.tkRecs (s : State) (r : Nat) : List TkRec := spGet (fun _ => []) s.track.recs r

/-- A record waits for its requester's queue. -/
def State.addRec (s : State) (r : Nat) (x : TkRec) : State :=
  s.setTrack fun t => { t with recs := spPut (fun _ => []) t.recs r (s.tkRecs r ++ [x]) }

/-- A field of a command: `n` bytes at `off` of its square. -/
def TkCmd.u (c : TkCmd) (off n : Nat) : Nat := leAt c.bytes off n

/-- Its lane (R496). -/
def TkCmd.lane (c : TkCmd) : Nat := c.u 1 1 % 4

/-- The tenant for which it acts (R495, R496). -/
def TkCmd.tenant (c : TkCmd) : Option Nat :=
  if c.u 2 1 / 128 = 1 then some (c.u 2 1 % 8) else if c.req < 8 then some c.req else none

/-- The record of a command (R497). -/
def TkCmd.record (c : TkCmd) (status result : Nat) (notice : Bool) : TkRec :=
  ⟨c.csn, c.square, c.u 4 4, status, c.u 0 1, notice, result, c.u 1 1 / 4 % 2 == 1, c.lane⟩

/-- Take a command off the store. -/
def State.dropCmd (s : State) (c : TkCmd) : State :=
  s.setTrack fun t => { t with store := t.store.filter fun x => !(x.req == c.req && x.csn == c.csn) }

/-- Put a command back as it now stands. -/
def State.putCmd (s : State) (c : TkCmd) : State :=
  s.setTrack fun t => { t with store := t.store.map fun x => if x.req == c.req && x.csn == c.csn then c else x }

/-- A command completes: its record waits to be written. -/
def State.complete (s : State) (c : TkCmd) (status result : Nat) : State := (s.dropCmd c).addRec c.req (c.record status result false)

/-- The codes that appear in completion records only (R468, R517). -/
def quietCode (c : Nat) : Bool := [0x8009, 0x800B, 0x7010, 0x7011].contains c

/-- A command completes with a code, which is reported with its requester's Initiator ID (R517). -/
def State.fail (s : State) (c : TkCmd) (code result : Nat) : State :=
  (if quietCode code then s else s.report code c.req).complete c code result

/-- A notice about a command's work (R497, R511). -/
def State.notice (s : State) (c : TkCmd) (status result : Nat) : State := s.addRec c.req (c.record status result true)

/-- DONE_CSN (R493). -/
def State.doneCsn (s : State) (r : Nat) : BitVec 16 := spGet (fun _ => 0) s.track.done r

/-- DONE_CSN moves through completed CSNs. -/
def advanceDone (d : BitVec 16) (fin : List (BitVec 16)) : Nat → BitVec 16 × List (BitVec 16)
  | 0 => (d, fin)
  | k + 1 => if fin.contains (d + 1) then advanceDone (d + 1) (fin.filter (· != d + 1)) k else (d, fin)

/-- A CSN has completed. -/
def State.finish (s : State) (r : Nat) (c : BitVec 16) : State :=
  let fin := c :: spGet (fun _ => []) s.track.fin r
  let (d, f) := advanceDone (s.doneCsn r) fin fin.length
  (s.setTrack fun t => { t with done := spPut (fun _ => 0) t.done r d, fin := spPut (fun _ => []) t.fin r f }).setOut r
    (s.outstanding r - 1)

/-- The 32 bytes of a record (R497). -/
def TkRec.bytes (x : TkRec) (phase : Bool) (time : Nat) : List Byte :=
  leBytes 2 x.csn.toNat ++ leBytes 2 x.square ++ leBytes 4 x.tag ++ leBytes 2 x.status ++ leBytes 1 x.opcode ++
    leBytes 1 ((if phase then 1 else 0) + (if x.notice then 2 else 0)) ++ leBytes 4 0 ++ leBytes 8 x.result ++ leBytes 8 time

/-- Write a record into tenant t's ring (R497). -/
def State.cqWrite (s : State) (t : Nat) (x : TkRec) : State :=
  let head := (s.reg (TK_CQ_HEAD t)).toNat % s.cqSize t
  let phase := spGet (fun _ => true) s.track.phase t
  let next := (head + 1) % s.cqSize t
  let addr := s.pair (TK_CQ_BASE_LO t) / 64 * 64 + 32 * head
  let s1 := (s.emit (.hostWrite t addr (x.bytes phase s.now) false)).setReg (TK_CQ_HEAD t) (BitVec.ofNat 32 next)
  let s2 := s1.setTrack fun k => { k with phase := spPut (fun _ => true) k.phase t (if next = 0 then !phase else phase) }
  if x.irq || x.notice then s2.msix t (s2.get (TK_CQ_CFG_VEC t)) else s2

/-- COMPLETION_RECORD_WRITE (R493, R497): the record that has waited longest. -/
def State.recordWrite (s : State) (r : Nat) : State :=
  match s.tkRecs r with
  | [] => s
  | x :: rest =>
    if r < 8 && !s.cqRoom r then s
    else
      let s1 := s.setTrack fun t => { t with recs := spPut (fun _ => []) t.recs r rest }
      let s2 := if r < 8 then s1.cqWrite r x
        else s1.setTrack fun t => { t with own := spPut (fun _ => []) t.own r (x :: spGet (fun _ => []) t.own r) }
      if x.notice then s2 else s2.finish r x.csn

/-- LEASE_EXPIRY (R490): Device Time runs on to the lease's end, and the square is VOID. -/
def State.leaseExpire (s : State) (n : Nat) : State :=
  let q := s.square n
  match q.owner with
  | none => s
  | some r =>
    if q.published then s
    else
      let s1 := s.advanceTo (s.leaseEnd q)
      let i := 32 * n
      let s2 := s1.setTrack fun t => { t with
        words := spPut (fun _ => 0) t.words i (spGet (fun _ => 0) t.words i ||| 0xFF) }
      let b := s2.squareBytes n
      let x : TkRec := ⟨q.csn, n, leAt b 4 4, 0x8002, 0xFF, false, 0, leAt b 1 1 / 4 % 2 == 1, leAt b 1 1 % 4⟩
      (((s2.bump (whole TK_VOID_CNT)).report 0x8002 r).addRec r x).passSquare n

/-! ### Acceptance (R491, R492) -/

/-- The commands of the store that one pool of entries holds: the tenants', or one requester's own. -/
def State.storeCount (s : State) (r : Nat) : Nat :=
  (s.track.store.filter fun c => if r < 8 then c.req < 8 else c.req == r).length

/-- The lowest published square of the Referee or the MC. -/
def State.ownPublished (s : State) (r : Nat) : Option Nat :=
  if 32 ≤ s.storeCount r then none
  else (firstIdx (fun i => (s.square (ownBase r + i)).published) 32).map (ownBase r + ·)

/-- The published square of lane `l` in the window that lies nearest the head. -/
def State.windowLane (s : State) (l : Nat) : Option Nat :=
  (firstIdx (fun i => decide (i < s.track.used) && (s.square ((s.track.head + i) % 4032)).published &&
    (spGet (fun _ => 0) s.track.words (32 * ((s.track.head + i) % 4032))).toNat / 256 % 4 == l) 256).map
    fun i => (s.track.head + i) % 4032

/-- The square that is accepted next (R492). -/
def State.nextSquare (s : State) : Option Nat :=
  (s.ownPublished 8).orElse fun _ => (s.ownPublished 9).orElse fun _ =>
    if 512 ≤ s.storeCount 0 then none
    else (firstIdx (fun l => (s.windowLane l).isSome) 4).bind s.windowLane

/-- COMMAND_ACCEPT (R492): the square is copied into the store and released. -/
def State.accept (s : State) : State :=
  if !s.is TK_CTL_EN then s
  else match s.nextSquare with
    | none => s
    | some n =>
      let q := s.square n
      let c : TkCmd := { req := q.owner.getD 0, csn := q.csn, square := n, bytes := s.squareBytes n, ord := s.track.ord }
      (s.setTrack fun t => { t with store := t.store ++ [c], ord := t.ord + 1 }).passSquare n

/-! ### Validity and permission (R495, R496, R498-R500) -/

/-- Every byte of a square that no used span covers is zero; the CSN bytes are the dispatcher's. -/
def unusedZero (bytes : List Byte) (used : List (Nat × Nat)) : Bool :=
  (List.range 128).all fun i =>
    ((0, 3) :: (4, 8) :: used).any (fun (o, n) => decide (o ≤ i ∧ i < o + n)) || (bytes[i]?).getD 0 == 0

/-- The payload spans of an opcode (R499). -/
def payloadSpans (c : TkCmd) : List (Nat × Nat) :=
  match c.u 0 1 with
  | 0x01 => [(16, 13), (32, 8)] ++ (List.range (c.u 28 1)).map fun r => (40 + 12 * r, 10)
  | 0x02 => [(16, 1), (18, 4), (24, 16)]
  | 0x03 => [(16, 2), (20, 20)]
  | 0x04 => [(16, 1)]
  | 0x05 => [(16, 1), (24, 8)]
  | 0x08 => [(16, 1), (20, 16)]
  | 0x09 => [(16, 1), (20, 12)]
  | 0x10 => [(16, 2), (24, 8)]
  | 0x11 => [(16, 9)]
  | 0x12 => [(16, 2)]
  | 0x13 => [(16, 3), (20, 8)]
  | 0x18 => [(16, 3), (20, 8)]
  | 0x19 => [(16, 4)]
  | 0x1A => [(16, 1), (18, 2)]
  | 0x20 => [(16, 2)]
  | 0x30 => [(16, 1), (18, 3), (22, 2)]
  | 0x31 => [(16, 1), (18, 3), (22, 2)]
  | _ => []

/-- The fields of a payload are in range (R499, R500). -/
def State.payloadOk (s : State) (c : TkCmd) : Bool :=
  match c.u 0 1 with
  | 0x00 => true
  | 0x01 => c.u 16 8 % 4096 == 0 && decide (1 ≤ c.u 24 4 ∧ c.u 24 4 ≤ 262144 ∧ c.u 28 1 ≤ 7) &&
      (List.range (c.u 28 1)).all fun r => c.u (40 + 12 * r) 6 % 4096 == 0 &&
        decide (1 ≤ c.u (46 + 12 * r) 4 ∧ c.u (46 + 12 * r) 4 ≤ 262144)
  | 0x02 => decide (c.u 16 1 < 64 ∧ 1 ≤ c.u 18 2 ∧ c.u 18 2 ≤ 1024 ∧ 1 ≤ c.u 20 2 ∧ c.u 20 2 ≤ 4096)
  | 0x03 => decide (c.u 16 1 ≤ 2 ∧ c.u 17 1 ≤ 1 ∧ 1 ≤ c.u 20 4) && !(c.u 16 1 == 1 && c.u 17 1 == 1)
  | 0x04 => decide (c.u 16 1 < 16)
  | 0x05 => decide (c.u 16 1 ≤ 1)
  | 0x08 => decide (c.u 16 1 ≤ 3) && c.u 20 4 != 0
  | 0x09 => decide (c.u 16 1 < 32) && c.u 20 4 != 0 && c.u 20 4 != (s.reg TK_CONFIG_GEN).toNat
  | 0x10 => decide (c.u 16 2 < 1024)
  | 0x11 => decide (c.u 16 2 < 1024 ∧ c.u 18 2 < 1024 ∧ c.u 24 1 < 4)
  | 0x12 => decide (c.u 16 2 < 1024)
  | 0x13 => decide (c.u 16 2 < 1024 ∧ c.u 18 1 ≤ 4)
  | 0x18 => decide (c.u 16 1 < 32 ∧ c.u 17 1 < 128 ∧ c.u 18 1 < 16 ∧ c.u 18 1 / 2 % 4 ≤ 2)
  | 0x19 => decide (c.u 16 1 < 32 ∧ c.u 17 1 < 2)
  | 0x1A => decide (c.u 16 1 < 32)
  | 0x20 => decide (c.u 16 1 < 4 ∧ c.u 17 1 < 2)
  | 0x30 => decide (c.u 16 1 < 4)
  | 0x31 => decide (c.u 16 1 < 4)
  | _ => false

/-- R498: the opcode, its fields and its reserved bytes. -/
def State.cmdValid (s : State) (c : TkCmd) : Bool :=
  s.payloadOk c && unusedZero c.bytes (payloadSpans c) && decide (c.u 1 1 < 16) && c.u 2 1 / 8 % 16 == 0

/-- R495, R496: the requester may issue the command. -/
def State.cmdPermitted (s : State) (c : TkCmd) : Bool :=
  decide (8 ≤ c.req) ||
    (c.u 2 1 / 128 == 0 &&
      (!([0x01, 0x08, 0x09].contains (c.u 0 1) || (c.u 0 1 == 0x31 && c.u 16 1 == 3)) || c.req == s.get TK_CFG_OWNER_IID))

/-- The code with which a command that may execute completes at once; FM commands by R456. -/
def State.cmdCode (s : State) (c : TkCmd) : Option Nat :=
  if !s.cmdValid c then some 0x8001
  else if !s.cmdPermitted c then some 0x8006
  else if (c.u 0 1 == 0x18 || c.u 0 1 == 0x19) && decide (c.req < 8) && !s.isFm c.req then some 0x7001
  else none

/-! ### Execution (R493, R494) -/

/-- The signed 16-bit difference of two CSNs (R493). -/
def csnDiff (a b : BitVec 16) : Int := (a - b).toInt

/-- WAIT holds (R493). -/
def State.waitHolds (s : State) (c : TkCmd) : Bool :=
  c.u 1 1 / 8 % 2 == 0 || decide (0 ≤ csnDiff (s.doneCsn c.req) (BitVec.ofNat 16 (c.u 8 2)))

/-- The targets that a command serialises, as a class and a number (R494): 1 COPY, 3 commits, 4 the Scheduled partition,
5 a graph, 6 a sequence, 7 a Lace Hoop. -/
def TkCmd.targets (c : TkCmd) : List (Nat × Nat) :=
  match c.u 0 1 with
  | 0x01 => [(4, 0)]
  | 0x02 => [(5, (c.tenant.getD 0) * 64 + c.u 16 1)]
  | 0x03 => [(1, 0)]
  | 0x09 => [(3, 0)]
  | 0x10 => [(6, c.u 16 2)]
  | 0x11 => [(6, c.u 16 2), (6, c.u 18 2)]
  | 0x12 => [(6, c.u 16 2)]
  | 0x13 => [(6, c.u 16 2)]
  | 0x20 => [(7, c.u 16 1)]
  | _ => []

/-- A target is free: no running command holds it, or of the copy engines fewer than eight are taken. -/
def State.targetFree (s : State) (k : Nat × Nat) : Bool :=
  let held := (s.track.store.filter fun c => c.phase != .accepted && c.targets.contains k).length
  if k.1 = 1 then decide (held < 8) else held == 0

/-- Every earlier-CSN command of the requester in the lanes has completed (R498). -/
def State.fenceHolds (s : State) (c : TkCmd) : Bool :=
  let lanes := c.u 16 1
  let before (x : BitVec 16) := decide (csnDiff x c.csn < 0)
  !(s.track.store.any fun x => x.req == c.req && before x.csn && lanes.testBit x.lane) &&
  !((s.tkRecs c.req).any fun x => !x.notice && before x.csn && lanes.testBit x.lane) &&
  !(s.track.squares.any fun p => p.2.owner == some c.req && before p.2.csn &&
    (!p.2.published || lanes.testBit ((spGet (fun _ => 0) s.track.words (32 * p.1)).toNat / 256 % 4)))

/-- An accepted command may execute: its wait holds, and it either completes at once with a code or finds its targets free. -/
def State.mayExec (s : State) (c : TkCmd) : Bool :=
  s.is TK_CTL_EN && c.phase == .accepted && s.waitHolds c &&
    ((s.cmdCode c).isSome || (c.targets.all s.targetFree && (c.u 0 1 != 0x04 || s.fenceHolds c)))

/-- The place of a command in the order of R494. -/
def TkCmd.rank (c : TkCmd) : Nat :=
  2 ^ 64 * (if c.req = 8 then 0 else if c.req = 9 then 1 else 2 + c.lane) + c.ord

/-- No command that may execute on one of its targets goes before it (R494). -/
def State.isNext (s : State) (c : TkCmd) : Bool :=
  !(s.track.store.any fun x => decide (x.rank < c.rank) && x.targets.any (c.targets.contains ·) && s.mayExec x)

/-- The accepted command of a requester with a CSN. -/
def State.cmd? (s : State) (r : Nat) (n : BitVec 16) : Option TkCmd := s.track.store.find? fun c => c.req == r && c.csn == n

/-- Execute a command whose bytes satisfy `p`: one that is invalid or not permitted completes with its code. Where the
command is not there or may not execute yet, nothing happens (log entry 5). -/
def State.runCmd (s : State) (r : Nat) (n : BitVec 16) (p : TkCmd → Bool) (f : TkCmd → State → State) : State :=
  match s.cmd? r n with
  | none => s
  | some c =>
    if !p c || !s.mayExec c || !s.isNext c then s
    else match s.cmdCode c with
      | some code => s.fail c code 0
      | none => f c s

/-- The command is of this opcode. -/
def isOp (op : Nat) (c : TkCmd) : Bool := c.u 0 1 == op

/-- The opcodes of R498. -/
def opcodes : List Nat :=
  [0x00, 0x01, 0x02, 0x03, 0x04, 0x05, 0x08, 0x09, 0x10, 0x11, 0x12, 0x13, 0x18, 0x19, 0x1A, 0x20, 0x30, 0x31]

/-- A command starts and goes on. -/
def State.startCmd (s : State) (c : TkCmd) : State := s.putCmd { c with phase := .running }

/-- TIME_EVENT (R498). -/
def State.timeEvent (c : TkCmd) (s : State) : State :=
  let v := c.u 24 8
  let passed := if c.u 16 1 = 0 then decide (v < s.now) else s.turnsRun && decide (v < s.hg.nextTurn)
  if passed then s.complete c 0x8009 v else s.startCmd c

/-- TIME_EVENT_REACHED (R498): a time is run on to; a turn's start has come. -/
def State.timeReached (s : State) (r : Nat) (n : BitVec 16) : State :=
  match s.cmd? r n with
  | none => s
  | some c =>
    let v := c.u 24 8
    if !isOp 0x05 c || c.phase != .running then s
    else if c.u 16 1 = 0 then (s.advanceTo (v * 256)).complete c 0 v
    else if s.turnsRun && decide (v < s.hg.nextTurn) then s.complete c 0 v
    else s

/-! ### The commands that are the Track's alone -/

/-- TRACK_CLAIM (R486). -/
def execTrackClaim (iid : Iid) (s : State) : Ans :=
  s.done <| match s.regCheck iid.toNat TK_CLAIM 4 false with
    | some c => s.refuseRead c iid.toNat TK_CLAIM
    | none => let (s1, v) := s.tkClaim iid.toNat
              s1.emit (.readData iid TK_CLAIM (BitVec.ofNat 64 v))

/-- SQUARE_WRITE (R488). -/
def execSquareWrite (iid : Iid) (n : Fin 4096) (w : Fin 32) (v : Word) (s : State) : Ans :=
  s.done (s.writeWith iid (0xB80000 + 0x80 * n + 4 * w) fun s => s.squareWrite iid.toNat n w v)

/-- TRACK_PUBLISH (R489). -/
def execTrackPublish (iid : Iid) (v : Word) (s : State) : Ans :=
  s.done (s.writeWith iid TK_PUBLISH fun s => s.tkPublish iid.toNat (v.toNat % 4096))

/-- LEASE_EXPIRY (R490). -/
def execLeaseExpiry (n : Fin 4096) (s : State) : Ans := s.done (s.leaseExpire n)

/-- COMMAND_ACCEPT (R492). -/
def execCommandAccept (s : State) : Ans := s.done s.accept

/-- COMPLETION_RECORD_WRITE (R497). -/
def execCompletionRecordWrite (r : Fin 10) (s : State) : Ans := s.done (s.recordWrite r)

/-- NOP (R498); a command whose opcode R498 does not list executes here too, and completes with 0x8001. -/
def execNop (r : Fin 10) (n : BitVec 16) (s : State) : Ans :=
  s.done (s.runCmd r n (fun c => isOp 0 c || !opcodes.contains (c.u 0 1)) fun c s => s.complete c 0 0)

/-- FENCE (R498). -/
def execFence (r : Fin 10) (n : BitVec 16) (s : State) : Ans := s.done (s.runCmd r n (isOp 0x04) fun c s => s.complete c 0 0)

/-- TIME_EVENT (R498). -/
def execTimeEvent (r : Fin 10) (n : BitVec 16) (s : State) : Ans := s.done (s.runCmd r n (isOp 0x05) State.timeEvent)

/-- TIME_EVENT_REACHED (R498). -/
def execTimeEventReached (r : Fin 10) (n : BitVec 16) (s : State) : Ans := s.done (s.timeReached r n)

/-- MSIX_PENDING_SEND (R531). -/
def execMsixPendingSend (t : Fin 8) (v : Fin 32) (s : State) : Ans := s.done (s.msixSend t v)

end Sys2Proof.Machine
end

