-- ==== Sys2Proof/Machine/Copy.lean ====
section
/-! DEFINITION. COPY, and RESUME and ABORT of a command (R474, R500, R509, R511, R512, R517, R546). -/

namespace Sys2Proof.Machine

open Reg

/-! ### The pieces of a granule -/

/-- Translate and check `n` bytes at a tenant's virtual address, page by page: the DPA of each piece (none where the region
check refuses it: R540) and its length, or the code that suspends the COPY (R509); `k` bounds the pages. -/
def State.vaMap (s : State) (iid t : Nat) (wr : Bool) (e : MemErr) : Nat → Nat → Nat → State × Except Nat (List (Option Nat × Nat))
  | 0, _, _ => (s, .ok [])
  | k + 1, va, n =>
    if n = 0 then (s, .ok [])
    else
      let m := inPage va n
      match s.xlate iid t va wr e with
      | (s1, .error c) => (s1, .error c)
      | (s1, .ok a) =>
        match s1.dpaCheck (.local t) a m wr with
        | none => match s1.vaMap iid t wr e k (va + m) (n - m) with
          | (s2, .ok r) => (s2, .ok ((some a, m) :: r))
          | (s2, .error c) => (s2, .error c)
        | some c =>
          if c / 0x1000 = 9 then
            match (s1.dpaRefuse c iid).vaMap iid t wr e k (va + m) (n - m) with
            | (s2, .ok r) => (s2, .ok ((none, m) :: r))
            | (s2, .error c) => (s2, .error c)
          else (s1.dpaRefuse c iid, .error c)

/-- What a granule carries: its bytes, the lines among its source that came back poisoned, and for each byte whether it is
of such a line. -/
structure Load where
  bytes : List Byte := []
  lines : List Nat := []
  marks : List Bool := []
deriving DecidableEq, Repr, Inhabited

/-- Bytes that an uncorrectable line or word held are free values (log entry 2). -/
def blurred (v : Nat) : List Byte → List Bool → List Byte
  | b :: r, m :: q => (if m then BitVec.ofNat 8 v else b) :: blurred (v / 256) r q
  | bs, _ => bs

/-- Read the pieces of a granule; a refused piece reads zero. -/
def State.readPieces (s : State) (iid : Nat) (e : MemErr) : List (Option Nat × Nat) → State × Load
  | [] => (s, {})
  | (none, n) :: r =>
    let (s1, x) := s.readPieces iid e r
    (s1, { x with bytes := List.replicate n (0 : Byte) ++ x.bytes, marks := List.replicate n false ++ x.marks })
  | (some a, n) :: r =>
    let (s1, bs, p) := s.dpaRead iid a n e
    let ms := (List.range n).map fun i => p.contains ((a + i) / 64)
    let (s2, x) := s1.took.readPieces iid e r
    (s2, ⟨blurred s1.free bs ms ++ x.bytes, p ++ x.lines, ms ++ x.marks⟩)

/-- Write the pieces of a granule: a refused piece has no effect; a line that poisoned bytes reach is poisoned (R427). -/
def State.writePieces (s : State) (iid : Nat) (e : MemErr) : List (Option Nat × Nat) → Load → State
  | [], _ => s
  | (none, n) :: r, x => s.writePieces iid e r { x with bytes := x.bytes.drop n, marks := x.marks.drop n }
  | (some a, n) :: r, x =>
    let s1 := s.dpaWrite iid a (x.bytes.take n) e
    let s2 := ((x.marks.take n).zipIdx).foldl (fun s p => if p.1 then s.setPoison ((a + p.2) / 64) true else s) s1
    s2.writePieces iid e r { x with bytes := x.bytes.drop n, marks := x.marks.drop n }

/-- Read `n` bytes of the Frame Store from `a`: each uncorrectable word is reported (R423). -/
def State.fsLoad (s : State) (iid a n : Nat) (e : MemErr) : State × Load :=
  let bad := ((List.range ((a + n + 7) / 8 - a / 8)).map (a / 8 + ·)).filter fun w => e.fs.contains w || s.fsIsBad w
  let s1 := bad.foldl (fun s _ => s.report 0x5012 iid) s
  let ms := (List.range n).map fun i => bad.contains ((a + i) / 8)
  (s1.took, { bytes := blurred s1.free (s.fsRead a n) ms, marks := List.replicate n false })

/-! ### A COPY -/

/-- R546: the Frame Store range lies in one enabled window of the tenant. -/
def State.fsWindow (s : State) (t a n : Nat) : Bool :=
  (List.range 4).any fun w => s.is (HI_FS_WIN_EN t w) && decide (s.get (HI_FS_WIN_FIRST t w) * 65536 ≤ a) &&
    decide (a + n ≤ (s.get (HI_FS_WIN_FIRST t w) + s.get (HI_FS_WIN_COUNT t w)) * 65536)

/-- COPY starts (R500, R546). -/
def State.copyStart (c : TkCmd) (s : State) : State :=
  match c.tenant with
  | none => s.fail c 0x8001 0
  | some t =>
    if c.u 16 1 = 2 ∧ s.fsWindow t (c.u 24 8) (c.u 20 4) = false then
      (s.bump HI_DENY_CNT_REGION).fail c 0x9006 0
    else s.startCmd c

/-- The command is suspended at its faulting granule (R509, R511). -/
def State.copySuspend (s : State) (c : TkCmd) (code : Nat) : State :=
  (s.putCmd { c with phase := .suspended }).notice c code c.done

/-- The COPY ends once its last granule is written, a mirrored one in both copies (R472, R498). -/
def State.copyEnd (s : State) (c : TkCmd) : State :=
  if c.done = c.u 20 4 ∧ c.waits = [] then s.complete c c.status c.done else s.putCmd c

/-- The length of the next granule: up to the next 4 KiB boundary of the destination (R500). -/
def TkCmd.granule (c : TkCmd) : Nat := min (c.u 20 4 - c.done) (4096 - (c.u 32 8 + c.done) % 4096)

/-- The source of a granule: its bytes, or the code that suspends the COPY. -/
def State.copySource (s : State) (c : TkCmd) (t n : Nat) (host : List Byte) (e : MemErr) :
    State × Except Nat (Load ⊕ List (Option Nat × Nat)) :=
  let a := c.u 24 8 + c.done
  if c.u 16 1 = 0 then
    match s.vaMap c.req t false e 3 a n with
    | (s1, .error x) => (s1, .error x)
    | (s1, .ok ps) => (s1, .ok (.inr ps))
  else if c.u 16 1 = 1 then (s, .ok (.inl { bytes := host, marks := List.replicate n false }))
  else (s, .ok (.inl {}))

/-- Read the source once every check has passed. -/
def State.copyLoad (s : State) (c : TkCmd) (n : Nat) (e : MemErr) : Load ⊕ List (Option Nat × Nat) → State × Load
  | .inr ps => s.readPieces c.req e ps
  | .inl x => if c.u 16 1 = 2 then s.fsLoad c.req (c.u 24 8 + c.done) n e else (s, x)

/-- A granule into host memory (R474). -/
def State.copyToHost (s : State) (c : TkCmd) (t n : Nat) (x : Load) : State :=
  let c1 := { c with done := c.done + n }
  if x.lines.isEmpty then (s.emit (.hostWrite t (c.u 32 8 + c.done) x.bytes false)).copyEnd c1
  else
    let s1 := s.report 0x7020 t
    if x.lines.any fun l => ((s.protOf (l * 64)).map (·.fatal)).getD false then
      (s1.emit (.errFatal t)).complete c 0x7020 c.done
    else (s1.emit (.hostWrite t (c.u 32 8 + c.done) x.bytes true)).copyEnd { c1 with status := 0x7020 }

/-- A granule into device memory. -/
def State.copyToDevice (s : State) (c : TkCmd) (n : Nat) (e : MemErr) (ps : List (Option Nat × Nat)) (x : Load) : State :=
  let w := s.pool.mirrorWait.length
  let s1 := s.writePieces c.req e ps x
  s1.copyEnd { c with done := c.done + n, waits := c.waits ++ s1.pool.mirrorWait.drop w }

/-- One granule of a running COPY of tenant t (R500). -/
def State.copyGranule (s : State) (c : TkCmd) (t : Nat) (host : List Byte) (e : MemErr) : State :=
  let n := c.granule
  match s.copySource c t n host e with
  | (s1, .error x) => s1.copySuspend c x
  | (s1, .ok src) =>
    if c.u 17 1 = 1 then
      let (s2, x) := s1.copyLoad c n e src
      s2.copyToHost c t n x
    else match s1.vaMap c.req t true e 3 (c.u 32 8 + c.done) n with
      | (s2, .error x) => s2.copySuspend c x
      | (s2, .ok ps) =>
        let (s3, x) := s2.copyLoad c n e src
        s3.copyToDevice c n e ps x

/-- A HOST side is reached through the tenant's function, which a disabled one does not do (R535, R547). -/
def State.hostReach (s : State) (c : TkCmd) (t : Nat) : Bool :=
  (c.u 16 1 != 1 && c.u 17 1 != 1) || !s.is (HI_FUNC_STAT_DISABLED t)

/-- COPY_GRANULE (R500): `host` holds the granule's bytes where the source is HOST. -/
def State.copyNext (s : State) (r : Nat) (n : BitVec 16) (host : List Byte) (e : MemErr) : State :=
  match s.cmd? r n with
  | none => s
  | some c =>
    if !isOp 0x03 c || c.phase != .running || c.granule == 0 || (c.u 16 1 == 1 && host.length != c.granule) then s
    else match c.tenant with
      | none => s
      | some t => if s.hostReach c t then s.copyGranule c t host e else s

/-! ### RESUME and ABORT of a command (R512) -/

/-- The requester whose commands a RESUME or an ABORT names (R495). -/
def TkCmd.targetReq (c : TkCmd) : Nat := if c.u 2 1 / 128 = 1 then c.u 2 1 % 8 else c.req

/-- The command that a RESUME or an ABORT names, but not itself. -/
def State.target? (s : State) (c : TkCmd) : Option TkCmd :=
  (s.cmd? c.targetReq (BitVec.ofNat 16 (c.u 18 2))).filter fun x => !(x.req == c.req && x.csn == c.csn)

/-- RESUME of a command. -/
def State.resumeCmd (c : TkCmd) (s : State) : State :=
  if c.u 16 1 ≠ 0 then s.fail c 0x800A 0
  else match s.target? c with
  | some x => if x.phase = .suspended then (s.putCmd { x with phase := .running }).complete c 0 0 else s.fail c 0x800A 0
  | none => s.fail c 0x800A 0

/-- ABORT of a command: a suspended COPY, or a command that does not execute yet. -/
def State.abortCmd (c : TkCmd) (s : State) : State :=
  match s.target? c with
  | some x => if x.phase = .running then s.fail c 0x800A 0 else (s.fail x 0x800B x.done).complete c 0 0
  | none => s.fail c 0x800A 0

/-- A RESUME or ABORT of this KIND. A KIND that has no row of its own is the COMMAND row's: one that R499 does not give
completes with 0x8001, and a RESUME of a GRAPH or TURN, which are never held, with 0x800A. -/
def isKind (op k : Nat) (c : TkCmd) : Bool :=
  isOp op c && (c.u 16 1 == k || (k == 0 && (decide (4 ≤ c.u 16 1) || (op == 0x30 && decide (2 ≤ c.u 16 1)))))

/-- COPY (R500). -/
def execCopy (r : Fin 10) (n : BitVec 16) (s : State) : Ans := s.done (s.runCmd r n (isOp 0x03) State.copyStart)

/-- COPY_GRANULE (R500). -/
def execCopyGranule (r : Fin 10) (n : BitVec 16) (host : List Byte) (e : MemErr) (s : State) : Ans :=
  s.done (s.copyNext r n host e)

/-- RESUME_COMMAND (R512). -/
def execResumeCommand (r : Fin 10) (n : BitVec 16) (s : State) : Ans := s.done (s.runCmd r n (isKind 0x30 0) State.resumeCmd)

/-- ABORT_COMMAND (R512). -/
def execAbortCommand (r : Fin 10) (n : BitVec 16) (s : State) : Ans := s.done (s.runCmd r n (isKind 0x31 0) State.abortCmd)

end Sys2Proof.Machine
end

