-- ==== Sys2Proof/Machine/Pool.lean ====
section
/-! DEFINITION. The Pool unit: shared regions and dynamic extents (R456-R469, R478-R482). -/

namespace Sys2Proof.Machine

open Reg

/-- The Pool unit's Initiator ID (R477). -/
def poolIid : Nat := 22

/-! ### Ranges (R458) -/

/-- Two ranges in units of 2 MiB overlap. -/
def rangesMeet (b1 n1 b2 n2 : Nat) : Bool := decide (b1 < b2 + n2 ∧ b2 < b1 + n1)

/-- Some region but `skip`, or some extent that is not FREE, overlaps the range. -/
def State.rangeTaken (s : State) (skip b n : Nat) : Bool :=
  ((List.range 16).any fun r => r != skip && rangesMeet b n (s.reg (PL_RGN_BASE r)).toNat (s.reg (PL_RGN_SIZE r)).toNat) ||
  (List.range 32).any fun x => s.get (PL_EXT_STATE_STATE x) != 0 &&
    rangesMeet b n (s.reg (PL_EXT_BASE x)).toNat (s.reg (PL_EXT_SIZE x)).toNat

/-- R458: a range of `n` units from unit `b`, with its protection. -/
def State.rangeValid (s : State) (skip b n prot : Nat) : Bool :=
  let first := b * 2 ^ 21
  let last := (b + n) * 2 ^ 21 - 1
  decide (1 ≤ n ∧ n ≤ 8192 ∧ prot ≤ 2) && ((s.isBobData first && s.isBobData last) || (isReel first && isReel last && prot == 0)) &&
    !s.rangeTaken skip b n

/-- The code that refuses a range and its protection (R458, R463, R477). -/
def State.rangeCheck (s : State) (skip b n prot : Nat) : Option Nat :=
  if !s.rangeValid skip b n prot then some 0x7004
  else if prot = 2 ∧ s.is PL_STATUS_TWIN = false then some 0x7005
  else none

/-! ### Regions (R459, R460) -/

/-- The moves of R459. -/
def rgnMove (old new : Nat) : Bool := (old == 0 && new == 1) || (old == 1 && (new == 2 || new == 0)) || (old == 2 && new == 0)

/-- The region moves from `old`; sealing, and closing a sealed region, drains first (R460). -/
def State.rgnGo (s : State) (r old new : Nat) : State :=
  if old = 0 ∨ (old = 1 ∧ new = 0) then
    ({ s with pool := { s.pool with next := spPut (fun _ => none) s.pool.next r none } }.put (PL_RGN_CFG_STATE r) new).putB
      (PL_RGN_STAT_DRAINING r) false
  else { s with pool := { s.pool with next := spPut (fun _ => none) s.pool.next r (some new) } }.putB (PL_RGN_STAT_DRAINING r) true

/-- The fields of PL_RGN_CFG beside STATE. -/
def rgnCfgMask : Nat := 0x71C

/-- A write by the fabric manager to PL_RGN_CFG[r] (R459): fields outside CLOSED keep their values. -/
def State.rgnCfg (s : State) (iid r : Nat) (v : Word) : State :=
  let old := s.get (PL_RGN_CFG_STATE r)
  let new := v.toNat % 4
  let cur := s.reg (PL_RGN_CFG r)
  let m : Word := BitVec.ofNat 32 rgnCfgMask
  let other := (cur &&& m) != (v &&& m)
  if old = 0 then
    let s1 := s.setReg (PL_RGN_CFG r) ((cur &&& ~~~ m) ||| (v &&& m))
    if new = 0 then if bitsOf v.toNat 2 2 = 3 then s.report 0x7004 iid else s1
    else if new ≠ 1 then s.report 0x7004 iid
    else match s1.rangeCheck r (s1.reg (PL_RGN_BASE r)).toNat (s1.reg (PL_RGN_SIZE r)).toNat (s1.get (PL_RGN_CFG_PROT r)) with
      | some c => s.report c iid
      | none => s1.rgnGo r 0 1
  else
    let s1 := if other then s.report 0x7004 iid else s
    if new = old then s1
    else if rgnMove old new then s1.rgnGo r old new
    else if other then s1 else s1.report 0x7004 iid

/-- A write to a PL_RGN register (R456, R459). -/
def State.rgnWrite (s : State) (iid off : Nat) (v : Word) : State :=
  let r := (off - 0xA01000) / 0x20
  if !s.isFm iid then s.report 0x7001 iid
  else if off = PL_RGN_CFG r then s.rgnCfg iid r v
  else if off = PL_RGN_STAT r then s
  else if s.get (PL_RGN_CFG_STATE r) ≠ 0 then s.report 0x7004 iid
  else if off = PL_RGN_SIZE r ∧ (v = 0 ∨ 8192 < v.toNat) then s.report 0x7004 iid
  else s.plainWrite iid off v

/-- REGION_DRAIN_COMPLETE (R460): the new state shows; a sealed region's dirty Reel lines are written back first. -/
def State.rgnDrained (s : State) (r : Nat) : State :=
  match spGet (fun _ => none) s.pool.next r with
  | none => s
  | some st =>
    let lines := s.mem.unwritten.filter fun l => s.rgnHas r (l * 16384)
    let s1 : State := if st = 2 then { s with mem := s.mem.clean lines } else s
    ({ s1 with pool := { s1.pool with next := spPut (fun _ => none) s1.pool.next r none } }.put (PL_RGN_CFG_STATE r) st).putB
      (PL_RGN_STAT_DRAINING r) false

/-! ### Extents (R462-R469) -/

def State.ext (s : State) (x : Nat) : Ext := spGet (fun _ => {}) s.pool.exts x

def State.setExt (s : State) (x : Nat) (e : Ext) : State :=
  { s with pool := { s.pool with exts := spPut (fun _ => {}) s.pool.exts x e } }

/-- An extent's state, with PL_STATUS.REVOKING as it then stands. -/
def State.extState (s : State) (x st : Nat) : State :=
  let s1 := s.put (PL_EXT_STATE_STATE x) st
  s1.putB PL_STATUS_REVOKING ((List.range 32).any fun x => s1.get (PL_EXT_STATE_STATE x) == 3)

/-- EXTENT_GRANT (R463). -/
def State.extGrant (c : TkCmd) (s : State) : State :=
  let x := c.u 16 1
  let gen := s.get (PL_EXT_STATE_GEN x)
  let g := if gen = 0xFFFF then 1 else gen + 1
  if !s.is PL_FM_VALID then s.fail c 0x7001 0
  else if s.get (PL_EXT_STATE_STATE x) ≠ 0 then s.fail c 0x7003 0
  else match s.rangeCheck 16 (c.u 20 4) (c.u 24 4) (c.u 18 1 / 2 % 4) with
    | some code => s.fail c code 0
    | none =>
      let f := c.u 18 1
      let st := 1 + f / 2 % 4 * 4 + f / 8 % 2 * 16 + f % 2 * 32 + c.u 17 1 * 256 + g * 65536
      ((((s.setReg (PL_EXT_BASE x) (BitVec.ofNat 32 (c.u 20 4))).setReg (PL_EXT_SIZE x) (BitVec.ofNat 32 (c.u 24 4))).setReg
        (PL_EXT_STATE x) (BitVec.ofNat 32 st)).setExt x {}).complete c 0 g

/-- The command waits for FREE and then completes with `code`. -/
def State.extWait (s : State) (c : TkCmd) (x code : Nat) : State :=
  (s.setExt x { s.ext x with waiters := (s.ext x).waiters ++ [(c.req, c.csn, code)] }).startCmd c

/-- The notice of R465 to the extent's holder. -/
def State.extNotice (s : State) (x : Nat) : State :=
  let h := s.get (PL_EXT_STATE_HOLDER x)
  let t := h % 8
  if h.testBit 3 then s.svSend (h / 16 % 8) (.notice x (s.get (PL_EXT_STATE_GEN x)))
  else (s.setReg (PL_NOTICE t) (s.reg (PL_NOTICE t) ||| BitVec.twoPow 32 x)).msix t ((s.reg (PL_NOTICE_VEC t)).toNat % 32)

/-- EXTENT_RECALL (R464, R467). -/
def State.extRecall (c : TkCmd) (s : State) : State :=
  let x := c.u 16 1
  let g := c.u 18 2
  let st := s.get (PL_EXT_STATE_STATE x)
  if g ≠ s.get (PL_EXT_STATE_GEN x) ∨ st = 0 then s.fail c 0x7010 g
  else if st ≠ 1 then s.extWait c x 0x7010
  else
    let s1 := (s.extWait c x 0).setExt x { (s.extWait c x 0).ext x with recalled := true, graceFrom := s.hg.dt }
    if c.u 17 1 = 1 then s1.extState x 3 else (s1.extState x 2).extNotice x

/-- EXTENT_RELEASE (R467, R468). -/
def State.extRelease (c : TkCmd) (s : State) : State :=
  let x := c.u 16 1
  let g := c.u 18 2
  let st := s.get (PL_EXT_STATE_STATE x)
  if g ≠ s.get (PL_EXT_STATE_GEN x) then s.fail c 0x7011 g
  else if some (holderOf (s.get (PL_EXT_STATE_HOLDER x))) ≠ c.tenant then s.fail c 0x7008 g
  else if st = 0 then s.fail c (if (s.ext x).recalled then 0x7011 else 0x7008) g
  else if st = 1 then (s.extWait c x 0).extState x 3
  else if st = 2 then (s.extWait c x 0x7011).extState x 3
  else s.extWait c x (if (s.ext x).recalled then 0x7011 else 0)

/-- RECALL_GRACE_EXPIRY (R464): Device Time runs on to the end of the grace. -/
def State.graceEnds (s : State) (x : Nat) : State :=
  if s.get (PL_EXT_STATE_STATE x) ≠ 2 then s
  else (s.advanceTo ((s.ext x).graceFrom + (s.reg PL_RECALL_GRACE).toNat * 256000)).extState x 3

/-- The commands that wait for FREE complete (R466, R467). -/
def State.wake (s : State) (g : Nat) : List (Nat × BitVec 16 × Nat) → State
  | [] => s
  | (r, n, code) :: rest =>
    match s.cmd? r n with
    | some c => (s.complete c code g).wake g rest
    | none => s.wake g rest

/-- REVOCATION_COMPLETE (R464-R466). -/
def State.revoked (s : State) (x : Nat) : State :=
  if s.get (PL_EXT_STATE_STATE x) ≠ 3 then s
  else
    let t := s.get (PL_EXT_STATE_HOLDER x) % 8
    let s1 := (s.extState x 0).setReg (PL_NOTICE t) (s.reg (PL_NOTICE t) &&& ~~~ (BitVec.twoPow 32 x))
    let e := s1.ext x
    (s1.setExt x { e with waiters := [] }).wake (s.get (PL_EXT_STATE_GEN x)) e.waiters

/-- The extents that are held, GRANTED or RECALLING, by a holder that `p` names. -/
def State.heldBy (s : State) (p : Nat → Bool) : List Nat :=
  (List.range 32).filter fun x =>
    (s.get (PL_EXT_STATE_STATE x) == 1 || s.get (PL_EXT_STATE_STATE x) == 2) && p (holderOf (s.get (PL_EXT_STATE_HOLDER x)))

/-- R469: their holder is lost. -/
def State.holderLost (s : State) (p : Nat → Bool) : State :=
  let xs := s.heldBy p
  let s1 := xs.foldl (fun s x => (s.extState x 3).report 0x7009 poolIid) s
  if xs.isEmpty || !s.is PL_FM_VALID then s1
  else s1.msix (s.get PL_FM_TENANT) ((s.reg (PL_NOTICE_VEC (s.get PL_FM_TENANT))).toNat % 32)

/-- The Pool's commands act while PL_CTL.EN is 1 (R478); one that is not valid or not permitted completes all the same. -/
def State.poolCmd (s : State) (r : Nat) (n : BitVec 16) (op : Nat) (f : TkCmd → State → State) : State :=
  s.runCmd r n (fun c => isOp op c && (s.is PL_CTL_EN || (s.cmdCode c).isSome)) f

/-- REGION_STATE_WRITE (R459). -/
def execRegionStateWrite (iid : Iid) (r : Fin 16) (v : Word) (s : State) : Ans :=
  s.done (s.writeWith iid (PL_RGN_CFG r) fun s => s.rgnWrite iid.toNat (PL_RGN_CFG r) v)

/-- REGION_DRAIN_COMPLETE (R460). -/
def execRegionDrainComplete (r : Fin 16) (s : State) : Ans := s.done (s.rgnDrained r)

/-- EXTENT_GRANT (R463). -/
def execExtentGrant (r : Fin 10) (n : BitVec 16) (s : State) : Ans := s.done (s.poolCmd r n 0x18 State.extGrant)

/-- EXTENT_RECALL (R467). -/
def execExtentRecall (r : Fin 10) (n : BitVec 16) (s : State) : Ans := s.done (s.poolCmd r n 0x19 State.extRecall)

/-- EXTENT_RELEASE (R467). -/
def execExtentRelease (r : Fin 10) (n : BitVec 16) (s : State) : Ans := s.done (s.poolCmd r n 0x1A State.extRelease)

/-- RECALL_GRACE_EXPIRY (R464). -/
def execRecallGraceExpiry (x : Fin 32) (s : State) : Ans := s.done (s.graceEnds x)

/-- REVOCATION_COMPLETE (R466). -/
def execRevocationComplete (x : Fin 32) (s : State) : Ans := s.done (s.revoked x)

end Sys2Proof.Machine
end

