-- ==== Sys2Proof/Machine/Skein.lean ====
section
/-! DEFINITION. The Skein Manager: the pool of Skeins, sequences, Thimble flushes, copy on write, spills and returns
(R382-R402, R414-R419). -/

namespace Sys2Proof.Machine

open Reg

/-- The Skein Manager's Initiator ID (R411). -/
def skIid : Nat := 20

def State.setSk (s : State) (f : Sk → Sk) : State := { s with sk := f s.sk }

def State.setSeq (s : State) (q : Nat) (x : Option Seq) : State :=
  s.setSk fun k => { k with seqs := spPut (fun _ => none) k.seqs q x }

def State.setSkein (s : State) (i : Nat) (x : Option Skein) : State :=
  s.setSk fun k => { k with skeins := spPut (fun _ => none) k.skeins i x }

/-! ### The pool (R389): a buddy system of blocks of 1 to 512 units of 4 KiB -/

/-- The lowest 2 MiB unit from `m` on that is whole and free; `k` bounds the search. -/
def lowTop (cut : List Nat) : Nat → Nat → Nat
  | 0, m => m
  | k + 1, m => if cut.contains m then lowTop cut k (m + 1) else m

/-- The upper halves left over when a block of 2^l units at `u` is split down to 2^log. -/
def halves (u log l : Nat) : List (Nat × Nat) := (List.range (l - log)).map fun i => (u + 2 ^ (log + i), log + i)

/-- The smaller of two free blocks, the lower one of equal size (the spec leaves that choice open). -/
def betterBlock (a b : Nat × Nat) : Nat × Nat := if a.2 < b.2 ∨ (a.2 = b.2 ∧ a.1 ≤ b.1) then a else b

/-- Take a block of 2^log units from a pool of `size` units of 2 MiB. -/
def Sk.take (x : Sk) (size log : Nat) : Option (Nat × Sk) :=
  match x.free.filter fun b => log ≤ b.2 with
  | b :: r =>
    let (u, l) := r.foldl betterBlock b
    some (u, { x with free := x.free.filter (· != (u, l)) ++ halves u log l })
  | [] =>
    let t := lowTop x.cut (x.cut.length + 1) 0
    if t < size then some (512 * t, { x with cut := t :: x.cut, free := x.free ++ halves (512 * t) log 9 }) else none

/-- Give a block back; it merges with its free buddy at once. `k` bounds the merges. -/
def Sk.give (x : Sk) (u log : Nat) : Nat → Sk
  | 0 => x
  | k + 1 =>
    if log = 9 then { x with cut := x.cut.filter (· != u / 512) }
    else
      let b := u ^^^ 2 ^ log
      if x.free.contains (b, log) then { x with free := x.free.filter (· != (b, log)) }.give (min u b) (log + 1) k
      else { x with free := x.free ++ [(u, log)] }

/-- The pool's first DPA. -/
def State.skBase (s : State) : Nat := 2 ^ 21 * (s.pair SK_POOL_BASE_LO / 2 ^ 21)

/-- A new LIVE Skein of 2^log units with one reference (R389, R390). -/
def State.skNew (s : State) (lane log : Nat) : Option (State × Nat) :=
  match s.sk.take s.skSize log with
  | none => none
  | some (u, k) =>
    let i := k.nextId
    some (({ s with sk := { k with nextId := i + 1 } }).setSkein i (some { unit := u, log := log, ord := i, lane := lane }), i)

/-- The Skein is FREE: its block goes back to the pool. -/
def State.skRelease (s : State) (i : Nat) : State :=
  match s.skein? i with
  | none => s
  | some x =>
    let s1 := s.setSkein i none
    if x.st = .spilled ∨ x.st = .lost then s1 else s1.setSk fun k => k.give x.unit x.log 10

/-- One reference less (R390, R419). -/
def State.dropRef (s : State) (i : Nat) : State :=
  match s.skein? i with
  | none => s
  | some x =>
    let y := { x with refs := x.refs - 1 }
    if y.refs ≠ 0 ∨ y.st = .returning then s.setSkein i (some y)
    else if y.st = .live ∧ y.pins ≠ 0 then s.setSkein i (some { y with st := .orphan })
    else (s.setSkein i (some y)).skRelease i

/-- One pin more: a spill in progress is cancelled (R390, R414). -/
def State.addPin (s : State) (i : Nat) : State :=
  match s.skein? i with
  | none => s
  | some x => s.setSkein i (some { x with pins := x.pins + 1, st := if x.st = .spilling then .live else x.st })

/-- One pin less: an ORPHAN without pins is FREE. -/
def State.dropPin (s : State) (i : Nat) : State :=
  match s.skein? i with
  | none => s
  | some x =>
    let s1 := s.setSkein i (some { x with pins := x.pins - 1 })
    if x.st = .orphan ∧ x.pins ≤ 1 then s1.skRelease i else s1

/-- The pins of a sequence's ring blocks are dropped. -/
def State.dropBlocks (s : State) (x : Seq) : State :=
  (x.blocks.flatMap fun p => (p.2.map (·.pins)).getD []).foldl State.dropPin s

/-! ### Where an entry lies (R384, R386, R387) -/

/-- Round up to a power of two; `k` bounds the doublings. -/
def pow2Up (n : Nat) : Nat → Nat → Nat
  | 0, m => m
  | k + 1, m => if n ≤ m then m else pow2Up n k (2 * m)

/-- ED: bytes of an entry's data part. -/
def entryData (fmt dim : Nat) : Nat := pow2Up ((dim * ((fmtOf fmt).map Fmt.bits).getD 0 + 7) / 8) 20 64

/-- ES: bytes of its scale part. -/
def entryScale (fmt dim : Nat) : Nat :=
  if ((fmtOf fmt).map Fmt.short).getD false then pow2Up ((dim + 31) / 32) 20 1 else 0

def Seq.ed (x : Seq) : Nat := entryData x.fmt x.dim

def Seq.es (x : Seq) : Nat := entryScale x.fmt x.dim

/-- The entry size of region r. -/
def Seq.entry (x : Seq) (r : Nat) : Nat := if r % 2 = 0 then x.ed else x.es

/-- The regions of a sequence. -/
def Seq.regions (x : Seq) : List Nat :=
  (List.range (4 * x.streams)).filter fun r => r % 2 == 0 || x.es != 0

/-- The Skein that covers offset `off`: its first offset and its size. -/
def Seq.skeinAt (x : Seq) (off : Nat) : Nat × Nat :=
  let u := 4096 * 2 ^ x.min
  let c := 4096 * 2 ^ x.max
  if off < u then (0, u) else if off < c then (2 ^ Nat.log2 off, 2 ^ Nat.log2 off) else (off / c * c, c)

/-- The leaf of region r that covers offset `off`. -/
def leafKey (r start : Nat) : Nat := 2 ^ 20 * r + start / 4096

def Seq.leaf (x : Seq) (r off : Nat) : Option Nat := spGet (fun _ => none) x.leaves (leafKey r (x.skeinAt off).1)

/-- Place k of the Thimble holds a position p with p mod 32 = k (R391). -/
def Seq.place (x : Seq) (p : Nat) : Option SkPlace := (spGet (fun _ => none) x.places (p % 32)).filter (·.pos == p)

/-- Thimble places that are not FREE. -/
def Seq.used (x : Seq) : Nat := x.places.length

/-! ### Checked accesses for a sequence's owner (R433, R438, R536) -/

/-- Read `n` bytes of one granule at DPA `a` for tenant t: the bytes, and whether some are poisoned. -/
def State.ownRead (s : State) (iid t a n : Nat) (e : MemErr) : State × List Byte × Bool :=
  match s.dpaCheck (.local t) a n false with
  | some c => (s.dpaRefuse c iid, List.replicate n (0 : Byte), false)
  | none =>
    let (s1, bs, p) := s.dpaRead iid a n e
    (s1, bs, !p.isEmpty)

/-- Write bytes of one granule at DPA `a` for tenant t. -/
def State.ownWrite (s : State) (iid t a : Nat) (bs : List Byte) (e : MemErr) : State :=
  match s.dpaCheck (.local t) a bs.length true with
  | some c => s.dpaRefuse c iid
  | none => s.dpaWrite iid a bs e

/-- The DPA of a Skein's block. -/
def State.skDpa (s : State) (x : Skein) : Nat := s.skBase + 4096 * x.unit

/-- The DPA of the entry of position p in region r, where its Skein is in the Bobbins. -/
def State.entryDpa (s : State) (q : Seq) (x : Skein) (r p : Nat) : Nat :=
  let off := p * q.entry r
  s.skDpa x + (off - (q.skeinAt off).1)

/-- Copy `n` units of 4 KiB for tenant t (R396). -/
def State.copyUnits (s : State) (t src dst : Nat) : Nat → State
  | 0 => s
  | n + 1 =>
    let (s1, bs, _) := s.ownRead skIid t src 4096 {}
    (s1.ownWrite skIid t dst bs {}).copyUnits t (src + 4096) (dst + 4096) n

/-! ### Requests (R399, R402) -/

/-- Skein i is the tail of some region of a sequence. -/
def Seq.tailIs (x : Seq) (i : Nat) : Bool :=
  x.leaves.any fun p => p.2 == some i && !(x.leaves.any fun y => y.1 / 2 ^ 20 == p.1 / 2 ^ 20 && decide (p.1 < y.1))

/-- R399: the Skein may be chosen as a victim. -/
def State.mayVictim (s : State) (i : Nat) (x : Skein) : Bool :=
  x.st == .live && x.pins == 0 && !(s.sk.seqs.any fun p => (p.2.map fun y => y.tailIs i).getD false)

/-- The victim among the Skeins of a lane: the one allocated earliest that the spill partition can hold. -/
def State.victim (s : State) (lane : Nat) : Option (Nat × Skein) :=
  (s.sk.skeins.filterMap fun p => match p.2 with
    | some x => if x.lane == lane && s.mayVictim p.1 x && decide (s.spillUsed + 2 ^ x.log ≤ 2 ^ 24) then some (p.1, x) else none
    | none => none).foldl (fun b x => match b with
      | some y => if x.2.ord < y.2.ord then some x else some y
      | none => some x) none

/-- A request that the pool does not meet now may still be met: a victim exists, or a spill runs. -/
def State.skHope (s : State) (lane : Nat) : Bool :=
  (s.victim lane).isSome || s.someSkein .spilling

/-- Skein i is SPILLED, and no return of it can be made: the pool has no block for it, and cannot get one (R402). -/
def State.noReturn (s : State) (lane i : Nat) : Bool :=
  match s.skein? i with
  | some y => y.st == .spilled && (s.sk.take s.skSize y.log).isNone && !s.skHope lane
  | none => false

/-- Sequence q asks for something the pool cannot give now: it waits, or is EXHAUSTED (R402). -/
def State.skAsk (s : State) (q : Nat) (w : SkWant) : State :=
  match s.seq? q with
  | none => s
  | some x =>
    if s.skHope x.lane then s.setSeq q (some { x with want := some w })
    else
      let s1 := s.setSeq q (some { x with want := some w, exhausted := true })
      if x.exhausted then s1 else s1.report 0x6002 skIid

/-- What q asked for has been given: it is ACTIVE (R402). -/
def State.skGiven (s : State) (q : Nat) : State :=
  match s.seq? q with
  | none => s
  | some x => s.setSeq q (some { x with want := none, exhausted := false })

/-! ### Flushes (R393, R396) -/

/-- The Skein that region r of sequence q writes at offset `off`: allocated, or copied where it is shared; otherwise what the
sequence must ask for. -/
def State.skFor (s : State) (q : Nat) (x : Seq) (r off : Nat) : State × Except SkWant Nat :=
  let st := (x.skeinAt off).1
  let log := Nat.log2 ((x.skeinAt off).2 / 4096)
  let setLeaf (s : State) (i : Nat) : State :=
    match s.seq? q with
    | some y => s.setSeq q (some { y with leaves := spPut (fun _ => none) y.leaves (leafKey r st) (some i) })
    | none => s
  match x.leaf r off with
  | none => match s.skNew x.lane log with
    | some (s1, i) => (setLeaf s1 i, .ok i)
    | none => (s, .error (.block log))
  | some i => match s.skein? i with
    | none => (s, .ok i)
    | some y =>
      if y.st = .spilled ∨ y.st = .returning ∨ y.st = .lost then (s, .error (.back i))
      else if y.refs ≤ 1 then
        (if y.st = .spilling then s.setSkein i (some { y with st := .live }) else s, .ok i)
      else match s.skNew x.lane log with
        | none => (s, .error (.block log))
        | some (s0, j) =>
          let s1 := (s0.addPin i).dropPin i
          let dst := ((s1.skein? j).map s1.skDpa).getD 0
          ((setLeaf (s1.copyUnits x.tenant (s1.skDpa y) dst (2 ^ log)) j).dropRef i, .ok j)

/-- Find or make the Skeins of position p in every region. -/
def State.skForAll (s : State) (q p : Nat) : List Nat → State × Option SkWant
  | [] => (s, none)
  | r :: rest => match s.seq? q with
    | none => (s, none)
    | some x => match s.skFor q x r (p * x.entry r) with
      | (s1, .ok _) => s1.skForAll q p rest
      | (s1, .error w) => (s1, some w)

/-- Write the entries of a place into its Skeins. -/
def State.flushWrite (s : State) (x : Seq) (pl : SkPlace) : List Nat → State
  | [] => s
  | r :: rest =>
    let bs := (spGet (fun _ => []) pl.data r ++ List.replicate (x.entry r) (0 : Byte)).take (x.entry r)
    match (x.leaf r (pl.pos * x.entry r)).bind s.skein? with
    | some y => (s.ownWrite skIid x.tenant (s.entryDpa x y r pl.pos) bs {}).flushWrite x pl rest
    | none => s.flushWrite x pl rest

/-- The committed place of lowest position. -/
def Seq.oldest (x : Seq) : Option SkPlace :=
  (x.places.filterMap fun p => p.2.filter (·.committed)).foldl (fun b y => match b with
    | some z => if y.pos < z.pos then some y else some z
    | none => some y) none

/-- Sequence q lacks something: a Skein that is away is asked back. -/
def State.skNeed (s : State) (q : Nat) : SkWant → State
  | .block l => s.skAsk q (.block l)
  | .back i => match s.seq? q with
    | none => s
    | some x => if x.returns.contains i then s else s.setSeq q (some { x with returns := x.returns ++ [i] })

/-- Flush one place of q: whether it has been flushed. -/
def State.flushOne (s : State) (q : Nat) : State × Bool :=
  match s.seq? q with
  | none => (s, false)
  | some x => match x.oldest with
    | none => (s, false)
    | some pl => match s.skForAll q pl.pos x.regions with
      | (s1, some w) => (s1.skNeed q w, false)
      | (s1, none) => match s1.seq? q with
        | none => (s1, false)
        | some y =>
          let s2 := (s1.skGiven q).flushWrite y pl y.regions
          (match s2.seq? q with
            | some z => s2.setSeq q (some { z with places := spPut (fun _ => none) z.places (pl.pos % 32) none })
            | none => s2, true)

/-- A KV_FORK of q waits for committed places below its fork position (R395). -/
def State.forkWaits (s : State) (q : Nat) (pos : Nat) : Bool :=
  s.track.store.any fun c => isOp 0x11 c && c.phase == .running && c.u 16 2 == q && decide (pos < c.u 20 4)

/-- R393: a committed position is the last of its data Skein of region 0. -/
def Seq.pageFull (x : Seq) : Bool :=
  x.places.any fun p => (p.2.map fun y => y.committed &&
    ((y.pos + 1) * x.ed == (x.skeinAt (y.pos * x.ed)).1 + (x.skeinAt (y.pos * x.ed)).2)).getD false

/-- R393: a flush of q is due. -/
def State.flushDue (s : State) (q : Nat) : Bool :=
  match s.seq? q with
  | none => false
  | some x =>
    let n := (x.places.filter fun p => (p.2.map (·.committed)).getD false).length
    decide (s.get SK_CFG_FLUSH_AT ≤ n) || x.pageFull || ((x.oldest.map fun y => s.forkWaits q y.pos).getD false)

/-! ### Spills and returns (R390, R399-R402) -/

/-- Skein i begins to spill. -/
def State.spillStart (s : State) (i : Nat) (x : Skein) : State := s.setSkein i (some { x with st := .spilling })

/-- SKEIN_SPILL (R399): a victim for the block that q has asked for. -/
def State.skSpill (s : State) (q : Nat) : State :=
  match s.seq? q with
  | none => s
  | some x =>
    let log := match x.want with
      | some (.block l) => some l
      | some (.back i) => (s.skein? i).map (·.log)
      | none => none
    match log, s.victim x.lane with
    | some l, some (i, y) => if (s.sk.take s.skSize l).isSome then s else s.spillStart i y
    | _, _ => s

/-- SPILL_COMPLETE (R390): the Reel holds what the block held, and the block is free. -/
def State.spillDone (s : State) (i : Nat) : State :=
  match s.skein? i with
  | none => s
  | some x =>
    if x.st ≠ .spilling then s
    else
      let bs := s.bytesAt (s.skDpa x) (2 ^ x.log * 4096)
      ((s.setSkein i (some { x with st := .spilled, saved := bs })).setSk fun k => k.give x.unit x.log 10).bump SK_STAT_SPILLS

/-- BACKGROUND_SPILL (R400): one victim, of the lane served last first. -/
def State.bgSpill (s : State) : State :=
  let total := s.skSize * 512
  let soon := s.skUnits (· == .spilling)
  let low := decide (s.skFree * 100 < s.get SK_CFG_LOW_PCT * total)
  let enough := decide (s.get SK_CFG_HIGH_PCT * total ≤ (s.skFree + soon) * 100)
  let on := (s.sk.bg || low) && !enough
  let s1 := s.setSk fun k => { k with bg := on }
  if !on then s1
  else match ((s1.victim 3).orElse fun _ => (s1.victim 2).orElse fun _ => (s1.victim 1).orElse fun _ => s1.victim 0) with
    | some (i, x) => s1.spillStart i x
    | none => s1

/-- Sequence q asks for the return of Skein i (R401). -/
def State.askReturn (s : State) (q i : Nat) : State :=
  match s.seq? q with
  | none => s
  | some x => if x.returns.contains i then s else s.setSeq q (some { x with returns := x.returns ++ [i] })

/-- SKEIN_RETURN (R401): the Skein's return starts in a block of its size; whether it has started. -/
def State.returnStart (s : State) (q i : Nat) : State × Bool :=
  match s.seq? q, s.skein? i with
  | some x, some y =>
    if y.st ≠ .spilled ∨ x.returns.contains i = false then (s, false)
    else match s.sk.take s.skSize y.log with
      | some (u, k) => (({ s with sk := k }).setSkein i (some { y with st := .returning, unit := u }) |>.skGiven q, true)
      | none => (s.skAsk q (.back i), false)
  | _, _ => (s, false)

/-- Skein i has come back, or is lost: nobody asks for it any longer. -/
def State.returned (s : State) (i : Nat) : State :=
  s.setSk fun k => { k with seqs := k.seqs.map fun p => (p.1, p.2.map fun x => { x with returns := x.returns.filter (· != i) }) }

/-- RETURN_COMPLETE (R390, R419, R432). -/
def State.returnDone (s : State) (i : Nat) (ok : Bool) : State :=
  match s.skein? i with
  | none => s
  | some x =>
    if x.st ≠ .returning then s
    else if ok then
      let s1 : State := { s with mem := s.mem.puts (s.skDpa x) x.saved }
      let s2 := (List.range (2 ^ x.log * 64)).foldl (fun s l => s.setPoison (s.skDpa x / 64 + l) false) s1
      let s3 := ((s2.setSkein i (some { x with st := .live, saved := [] })).returned i).bump SK_STAT_RETURNS
      if x.refs ≠ 0 then s3
      else if x.pins ≠ 0 then s3.setSkein i (some { x with st := .orphan, saved := [] }) else s3.skRelease i
    else
      let s1 := ((s.bump MEM_REEL_ERR_UE).report 0x5020 26).setSk fun k => k.give x.unit x.log 10
      if x.refs ≠ 0 then (s1.setSkein i (some { x with st := .lost, saved := [] })).returned i
      else (s1.setSkein i none).returned i

/-- EXHAUSTED_RETRY (R402). -/
def State.skRetry (s : State) (q : Nat) : State :=
  match s.seq? q with
  | none => s
  | some x =>
    if !x.exhausted then s
    else match x.want with
      | some (.back i) => (s.returnStart q i).1
      | _ => (s.flushOne q).1

/-! ### Commands on sequences (R382-R398) -/

/-- The tenant of a KV command, where the sequence is its own and live. -/
def State.kvSeq (s : State) (c : TkCmd) (q : Nat) : Option Seq :=
  if !s.is SK_CTL_EN then none
  else (s.seq? q).filter fun x => !x.freeing && some x.tenant == c.tenant

/-- A descriptor in range (R383, R384). -/
def descOk (d : List Byte) : Bool :=
  let u (o n : Nat) := leAt d o n
  decide (1 ≤ u 0 2 ∧ u 0 2 ≤ 1024 ∧ 1 ≤ u 2 1 ∧ u 2 1 ≤ 7 ∧ 1 ≤ u 4 2 ∧ u 4 2 ≤ 4096 ∧ u 6 1 ≤ u 7 1 ∧ u 7 1 ≤ 9 ∧
    1 ≤ u 8 4 ∧ u 8 4 ≤ 1048576 ∧ entryData (u 2 1) (u 4 2) ≤ 4096) &&
  u 3 1 &&& 0xEC == 0 && (u 2 1 != 6 || u 4 2 % 2 == 0) &&
  (if u 3 1 / 16 % 2 = 1 then decide (2 ≤ u 12 1 ∧ u 12 1 ≤ 8 ∧ 4 ≤ u 13 1 ∧ u 13 1 ≤ 16) else leAt d 12 8 == 0) &&
  (d.drop 20).all (· == 0)

/-- The first free run of `n` units of 64 KiB in the Thimble region (R391). -/
def State.thimRoom (s : State) (n : Nat) : Option Nat :=
  let areas := s.sk.seqs.filterMap fun p => p.2.map (·.area)
  let fits (b : Nat) := decide (b + n ≤ (s.reg SK_THIM_SIZE).toNat) && areas.all fun a => !(decide (b < a.1 + a.2 ∧ a.1 < b + n))
  ((0 :: areas.map fun a => a.1 + a.2).filter fits).foldl (fun m b => match m with
    | some x => some (min x b)
    | none => some b) none

/-- The units of 64 KiB of a Thimble area. -/
def thimUnits (streams ed es : Nat) : Nat := (64 * streams * (ed + es) + 65535) / 65536

/-- KV_CREATE (R383, R384, R391). -/
def State.kvCreate (c : TkCmd) (s : State) : State :=
  let q := c.u 16 2
  match c.tenant with
  | none => s.fail c 0x8001 0
  | some t =>
    if !s.is SK_CTL_EN then s.fail c 0x6001 0
    else if (s.seq? q).isSome then s.fail c 0x6006 0
    else match s.tenantRead c.req t (c.u 24 8) 64 {} with
      | (s1, r) => match r.fault with
        | some f => s1.complete c f 0
        | none =>
          let d := r.bytes
          if r.poison || !descOk d then s1.fail c 0x6004 0
          else
            let n := thimUnits (leAt d 0 2) (entryData (leAt d 2 1) (leAt d 4 2)) (entryScale (leAt d 2 1) (leAt d 4 2))
            match s1.thimRoom n with
            | none => s1.fail c 0x6005 0
            | some b =>
              (s1.setSeq q (some {
                tenant := t, lane := leAt d 3 1 % 4, streams := leAt d 0 2, fmt := leAt d 2 1, dim := leAt d 4 2,
                min := leAt d 6 1, max := leAt d 7 1, maxLen := leAt d 8 4, ring := leAt d 3 1 / 16 % 2 == 1,
                members := leAt d 12 1, blockLog := leAt d 13 1, ownerVa := leAt d 14 6, area := (b, n) })).complete c 0 q

/-- The fork itself: the child shares every parent leaf below f (R395). -/
def State.kvForkNow (c : TkCmd) (x : Seq) (s : State) : State :=
  let f := c.u 20 4
  if (s.seq? (c.u 18 2)).isSome then s.fail c 0x6006 0
  else match s.thimRoom x.area.2 with
  | none => s.fail c 0x6005 0
  | some b =>
    let ls := x.leaves.filter fun p => decide (p.1 % 2 ^ 20 * 4096 < f * x.entry (p.1 / 2 ^ 20))
    let s1 := ls.foldl (fun s p => match p.2.bind fun i => (s.skein? i).map fun y => (i, y) with
      | some (i, y) => s.setSkein i (some { y with refs := y.refs + 1 })
      | none => s) s
    (s1.setSeq (c.u 18 2) (some { x with
      lane := c.u 24 1, exhausted := false, len := f, area := (b, x.area.2), places := [],
      leaves := ls, want := none, returns := [], blocks := [] })).complete c 0 (c.u 18 2)

/-- The fork goes on once no committed place below f is left (R395). -/
def State.kvForkGo (c : TkCmd) (s : State) : State :=
  match s.seq? (c.u 16 2) with
  | none => s.fail c 0x6001 0
  | some x =>
    if x.places.any fun p => (p.2.map fun y => y.committed && decide (y.pos < c.u 20 4)).getD false then s
    else s.kvForkNow c x

/-- KV_FORK (R395). -/
def State.kvFork (c : TkCmd) (s : State) : State :=
  match s.kvSeq c (c.u 16 2) with
  | none => s.fail c 0x6001 0
  | some x =>
    if (s.seq? (c.u 18 2)).isSome ∨ x.len < c.u 20 4 then s.fail c 0x6006 0
    else (s.startCmd c).kvForkGo { c with phase := .running }

/-- THIMBLE_FLUSH (R393): one place; a fork that waited for it goes on. -/
def State.thimbleFlush (s : State) (q : Nat) : State :=
  if !s.flushDue q then s
  else
    let s1 := (s.flushOne q).1
    match s1.track.store.find? fun c => isOp 0x11 c && c.phase == .running && c.u 16 2 == q with
    | some c => s1.kvForkGo c
    | none => s1

/-- The Skeins of q that a range of positions touches. -/
def Seq.skeinsIn (x : Seq) (p0 p1 : Nat) : List Nat :=
  x.leaves.filterMap fun p =>
    let e := x.entry (p.1 / 2 ^ 20)
    let st := p.1 % 2 ^ 20 * 4096
    if st < p1 * e ∧ p0 * e < st + (x.skeinAt st).2 ∧ p0 < p1 then p.2 else none

/-- The Skein waits to return. -/
def State.away (s : State) (i : Nat) : Bool :=
  ((s.skein? i).map fun x => x.st == .spilled || x.st == .returning).getD false

/-- A PIN or PREFETCH takes effect once every Skein of its range is in the Bobbins (R398). -/
def State.kvPinGo (c : TkCmd) (s : State) : State :=
  match s.seq? (c.u 16 2) with
  | none => s.fail c 0x6001 0
  | some x =>
    let is := x.skeinsIn (c.u 20 4) (c.u 24 4)
    if is.any s.away then s
    else if c.u 18 1 ≠ 0 then s.complete c 0 (c.u 16 2)
    else if is.any fun i => ((s.skein? i).map fun y => decide (65535 ≤ y.pins)).getD false then s.fail c 0x600A 0
    else (is.foldl State.addPin s).complete c 0 (c.u 16 2)

/-- KV_PIN PIN and PREFETCH (R398). -/
def State.kvPinBack (c : TkCmd) (s : State) : State :=
  match s.kvSeq c (c.u 16 2) with
  | none => s.fail c 0x6001 0
  | some x =>
    if x.maxLen < c.u 24 4 ∨ c.u 24 4 < c.u 20 4 then s.fail c 0x6003 0
    else
      let is := (x.skeinsIn (c.u 20 4) (c.u 24 4)).filter s.away
      ((is.foldl (fun s i => s.askReturn (c.u 16 2) i) s).startCmd c).kvPinGo { c with phase := .running }

/-- KV_PIN UNPIN (R398). -/
def State.kvUnpin (c : TkCmd) (s : State) : State :=
  match s.kvSeq c (c.u 16 2) with
  | none => s.fail c 0x6001 0
  | some x =>
    if x.maxLen < c.u 24 4 ∨ c.u 24 4 < c.u 20 4 then s.fail c 0x6003 0
    else ((x.skeinsIn (c.u 20 4) (c.u 24 4)).foldl (fun s i =>
      if ((s.skein? i).map fun y => y.pins != 0).getD false then s.dropPin i else s) s).complete c 0 (c.u 16 2)

/-- The KV_PIN commands that wait for a return look again. -/
def State.pinsLook (s : State) : State :=
  (s.track.store.filter fun c => isOp 0x13 c && c.phase == .running && (c.u 18 1 == 0 || c.u 18 1 == 2)).foldl
    (fun s c => s.kvPinGo c) s

/-- A KV_PIN of this ACTION; one that R499 does not give is PIN's, and completes with 0x8001. -/
def isPin (a : Nat) (c : TkCmd) : Bool := isOp 0x13 c && (c.u 18 1 == a || (a == 0 && decide (4 < c.u 18 1)))

/-- THIMBLE_FLUSH (R393). -/
def execThimbleFlush (q : Fin 1024) (s : State) : Ans := s.done (s.thimbleFlush q)

/-- SKEIN_SPILL (R399). -/
def execSkeinSpill (q : Fin 1024) (s : State) : Ans := s.done (s.skSpill q)

/-- SPILL_COMPLETE (R390). -/
def execSpillComplete (i : Nat) (s : State) : Ans := s.done (s.spillDone i)

/-- BACKGROUND_SPILL (R400). -/
def execBackgroundSpill (s : State) : Ans := s.done s.bgSpill

/-- SKEIN_RETURN (R401). -/
def execSkeinReturn (q : Fin 1024) (i : Nat) (s : State) : Ans := s.done (s.returnStart q i).1

/-- RETURN_COMPLETE (R390). -/
def execReturnComplete (i : Nat) (ok : Bool) (s : State) : Ans := s.done (s.returnDone i ok).pinsLook

/-- EXHAUSTED_RETRY (R402). -/
def execExhaustedRetry (q : Fin 1024) (s : State) : Ans := s.done (s.skRetry q)

/-- KV_CREATE (R383). -/
def execKvCreate (r : Fin 10) (n : BitVec 16) (s : State) : Ans := s.done (s.runCmd r n (isOp 0x10) State.kvCreate)

/-- KV_FORK (R395). -/
def execKvFork (r : Fin 10) (n : BitVec 16) (s : State) : Ans := s.done (s.runCmd r n (isOp 0x11) State.kvFork)

/-- KV_PIN PIN (R398). -/
def execKvPinPin (r : Fin 10) (n : BitVec 16) (s : State) : Ans := s.done (s.runCmd r n (isPin 0) State.kvPinBack)

/-- KV_PIN UNPIN (R398). -/
def execKvPinUnpin (r : Fin 10) (n : BitVec 16) (s : State) : Ans := s.done (s.runCmd r n (isPin 1) State.kvUnpin)

/-- KV_PIN PREFETCH (R398). -/
def execKvPinPrefetch (r : Fin 10) (n : BitVec 16) (s : State) : Ans := s.done (s.runCmd r n (isPin 2) State.kvPinBack)

end Sys2Proof.Machine
end

