-- ==== Sys2Proof/Machine/Hoops.lean ====
section
/-! DEFINITION. The hoops of the Tapestry Engine, the partition map and the roles it gives, and the end of the Scheduled
program on a fault (R235, R240-R244, R254, R306, R513). -/

namespace Sys2Proof.Machine

open Reg

/-- The Initiator IDs of the Engine (R261). -/
def schedIid : Nat := 10

/-- The Initiator ID of a firing on hoop h: 11, or 12 + l on Lace Hoop l. -/
def fireIid (h : Nat) : Nat := if h < 32 then 11 else h - 20

def State.setEng (s : State) (f : Engine → Engine) : State := { s with eng := f s.eng }

def State.setHoop (s : State) (h : Nat) (x : Hoop) : State := s.setEng fun e => { e with hoops := spPut (fun _ => {}) e.hoops h x }

def State.modHoop (s : State) (h : Nat) (f : Hoop → Hoop) : State := s.setHoop h (f (s.hoop h))

def State.setSched (s : State) (f : Sched → Sched) : State := s.setEng fun e => { e with sched := f e.sched }

/-- Logical hoops that have a stream: LHOOPS of the resident image, below SCHED_COUNT (R317). -/
def State.loadedHoops (s : State) : List Nat := (List.range (min (leAt s.eng.sched.header 2 1) s.schedCount)).map s.physical

/-! ### Turn programs in general -/

/-- The start of a program at bundle 0, or of a firing (R306): flags and histogram banks are kept. -/
def HRegs.fresh (r : HRegs) : HRegs := { flags := r.flags, hist := r.hist }

/-- The hoop's part of the program is over. -/
def Hoop.stop (x : Hoop) : Hoop := { x with st := .ended, snap := none, leave := {}, stuck := [], defer := false }

/-- Every SCHED hoop stops; the next program starts at bundle 0 (R513). -/
def State.stopSched (s : State) : State := s.loadedHoops.foldl (fun s h => s.modHoop h Hoop.stop) s

/-- A fault ends the running turn program (R513); `report` says whether the fault is still to be reported. -/
def State.schedFault (s : State) (code : Nat) (report : Bool := true) : State :=
  match s.eng.sched.running with
  | none => s
  | some _ =>
    let s1 := if report then s.report code schedIid else s
    if s1.eng.sched.fault != 0 then s1 else s1.stopSched.setSched fun d => { d with fault := code }

/-- A pinned read for the Scheduled partition; a miss ends the program with 0x800C, poisoned data with 0x5010. -/
def State.schedRead (s : State) (t va n : Nat) (e : MemErr) : State × Option (List Byte) :=
  match s.pinnedRead schedIid t va n e with
  | (s1, none) => (s1.schedFault 0x800C, none)
  | (s1, some r) => if r.poison then (s1.schedFault 0x5010 false, none) else (s1, some r.bytes)

end Sys2Proof.Machine
end

