-- ==== Sys2Proof/Machine/Token.lean ====
section
/-! DEFINITION. The Token partition: graphs, actors and channels, the placing, holding, discarding and ending of firings, and
RESUME and ABORT of actors and graphs (R319-R325, R502, R507-R512, R525). -/

namespace Sys2Proof.Machine

open Reg

def State.setToken (s : State) (f : Token → Token) : State := s.setEng fun e => { e with token := f e.token }

/-- Graph k: 64 × tenant + number. -/
def State.graph? (s : State) (k : Nat) : Option Graph := spGet (fun _ => none) s.eng.token.graphs k

def State.setGraph (s : State) (k : Nat) (g : Option Graph) : State :=
  s.setToken fun x => { x with graphs := spPut (fun _ => none) x.graphs k g }

/-! ### Actor headers (R319, R324) -/

def Actor.u (a : Actor) (off n : Nat) : Nat := leAt a.header off n

/-- N_IN and N_OUT, at most 8 channels each. -/
def Actor.nIn (a : Actor) : Nat := min (a.u 2 1) 8

def Actor.nOut (a : Actor) : Nat := min (a.u 3 1) 8

/-- IN[i] and OUT[o]: channel and count. -/
def Actor.input (a : Actor) (i : Nat) : Nat × Nat := (a.u (8 + 3 * i) 2 % 4096, a.u (10 + 3 * i) 1)

def Actor.output (a : Actor) (o : Nat) : Nat × Nat := (a.u (32 + 3 * o) 2 % 4096, a.u (34 + 3 * o) 1)

/-- FLAGS.LACE. -/
def Actor.lace (a : Actor) : Bool := a.u 56 1 % 2 == 1

/-- The channels of one side agree with the graph: `who` is the channel's actor on that side. -/
def portsOk (g : Graph) (n : Nat) (port : Nat → Nat × Nat) (who : Chan → Nat) (i : Nat) : Bool :=
  (List.range n).all fun k =>
    match g.chans[(port k).1]? with
    | some c => who c == i && decide (1 ≤ (port k).2 ∧ (port k).2 ≤ c.cap)
    | none => false

/-- R324: actor i may fire on a hoop of its kind. -/
def actorOk (g : Graph) (i : Nat) (a : Actor) (lace : Bool) : Bool :=
  a.fault == 0 && a.u 0 1 == 1 && decide (a.u 1 1 ≤ 3 ∧ a.u 2 1 ≤ 8 ∧ a.u 3 1 ≤ 8 ∧ 1 ≤ a.u 4 2 ∧ a.u 4 2 ≤ 32768 ∧ a.u 6 2 ≤ 16384) &&
    portsOk g a.nIn a.input (·.cons) i && portsOk g a.nOut a.output (·.prod) i &&
    a.lace == lace && !(a.lace && decide (16384 < a.u 4 2))

/-! ### Readiness (R322) -/

def Chan.avail (c : Chan) : Nat := c.pub - c.taken

def Chan.credits (c : Chan) : Nat := c.cap - (c.pub - c.rel) - c.res

/-- An actor may fire: its tokens and credits are there. One whose header fails is placed, to be found out (R324). -/
def mayFire (g : Graph) (i : Nat) (a : Actor) : Bool :=
  a.st == .ready && (!actorOk g i a a.lace ||
    ((List.range a.nIn).all (fun k => ((g.chans[(a.input k).1]?).map fun c => decide ((a.input k).2 ≤ c.avail)).getD false) &&
     (List.range a.nOut).all fun k => ((g.chans[(a.output k).1]?).map fun c => decide ((a.output k).2 ≤ c.credits)).getD false))

/-- Note since when each actor of a graph has been ready. -/
def Graph.refresh (g : Graph) (ord : Nat) : Graph :=
  { g with actors := g.actors.mapIdx fun i a =>
      { a with since := if mayFire g i a then some (a.since.getD ord) else none } }

/-- Put a graph back after its channels or actors have changed. -/
def State.putGraph (s : State) (k : Nat) (g : Graph) : State :=
  (s.setGraph k (some (g.refresh s.eng.token.ord))).setToken fun x => { x with ord := x.ord + 1 }

def Graph.modActor (g : Graph) (i : Nat) (f : Actor → Actor) : Graph :=
  match g.actors[i]? with
  | some a => { g with actors := listSet g.actors i (f a) }
  | none => g

def Graph.modChan (g : Graph) (c : Nat) (f : Chan → Chan) : Graph :=
  match g.chans[c]? with
  | some x => { g with chans := listSet g.chans c (f x) }
  | none => g

/-! ### Notices (R511) -/

/-- The NOTICE record of a held firing or actor. -/
def State.actNotice (s : State) (k hoop actor bundle code : Nat) : State :=
  match s.graph? k with
  | some g => s.notice g.cmd code (k % 64 + hoop * 2 ^ 8 + actor * 2 ^ 16 + bundle * 2 ^ 32)
  | none => s

/-! ### Firings -/

/-- Hold the tokens of an input and reserve the places of an output. -/
def Graph.hold (g : Graph) (p : Nat × Nat) : Graph × Port :=
  match g.chans[p.1]? with
  | some c => (g.modChan p.1 fun c => { c with taken := c.taken + p.2 }, ⟨p.1, c.taken, p.2, 0, []⟩)
  | none => (g, ⟨p.1, 0, p.2, 0, []⟩)

def Graph.reserve (g : Graph) (p : Nat × Nat) : Graph × Port :=
  match g.chans[p.1]? with
  | some c => (g.modChan p.1 fun c => { c with res := c.res + p.2 }, ⟨p.1, c.pub + c.res, p.2, 0, []⟩)
  | none => (g, ⟨p.1, 0, p.2, 0, []⟩)

def Graph.ports (g : Graph) (f : Graph → Nat × Nat → Graph × Port) : List (Nat × Nat) → Graph × List Port
  | [] => (g, [])
  | p :: r =>
    let (g1, x) := f g p
    let (g2, xs) := g1.ports f r
    (g2, x :: xs)

/-- The commit that is pending changes the role of hoop h (R245). -/
def State.roleChanges (s : State) (h : Nat) : Bool :=
  match s.track.commit with
  | some c => c.units.testBit 3 && s.track.staged.any fun x => x.kind == 3 && x.gen == c.gen && roleIn x.bytes h != roleIn s.pmap h
  | none => false

/-- Hoop h may take a firing (R245, R357, R373). -/
def State.hoopFree (s : State) (h : Nat) : Bool :=
  s.role h == 2 && (s.hoop h).firing.isNone && !s.roleChanges h &&
    (decide (h < 32) || (!s.is (TE_LACE_CTL_LOAD (h - 32)) && !s.is (TE_LACE_CTL_SAVE (h - 32))))

/-- A ready actor: graph key, actor index, its lane, since when. -/
structure Cand where
  key : Nat
  actor : Nat
  lane : Nat
  since : Nat
deriving DecidableEq, Repr

/-- The ready actors that may run on hoop h (R322, R355). -/
def State.cands (s : State) (h : Nat) : List Cand :=
  s.eng.token.graphs.flatMap fun p => match p.2 with
    | none => []
    | some g =>
      if g.ending || (decide (32 ≤ h) && s.get (TE_LACE_CTL_TENANT (h - 32)) != p.1 / 64) then []
      else (g.actors.zipIdx).filterMap fun (a, i) =>
        if a.lace == decide (32 ≤ h) then a.since.map fun t => ⟨p.1, i, a.u 1 1 % 4, t⟩ else none

/-- The order of R507; `lanes` is false for every sixteenth placement. -/
def Cand.before (lanes : Bool) (a b : Cand) : Bool :=
  let k (c : Cand) := ((if lanes then c.lane else 0, c.since), (c.key % 64 * 8 + c.key / 64, c.actor))
  let lt (x y : Nat × Nat) := decide (x.1 < y.1 ∨ (x.1 = y.1 ∧ x.2 < y.2))
  lt (k a).1 (k b).1 || ((k a).1 == (k b).1 && lt (k a).2 (k b).2)

/-- The actor that hoop h takes next. -/
def State.choose (s : State) (h : Nat) : Option Cand :=
  let lanes := ((s.hoop h).placed + 1) % 16 != 0
  (s.cands h).foldl (fun b c => match b with
    | some x => if c.before lanes x then some c else some x
    | none => some c) none

/-- The current turn. -/
def State.curTurn (s : State) : Nat := if s.turnsRun then s.hg.nextTurn - 1 else 0

/-- The offsets of a hoop's data area that R325 zeroes: 5 MiB, or 2 MiB in a Lace Hoop. -/
def dataBytes (h : Nat) : Nat := if h < 32 then 5 * 2 ^ 20 else 2 ^ 21

/-- A firing of actor i of graph k starts on hoop h (R306, R322, R325). -/
def State.fire (s : State) (h k i : Nat) (g : Graph) (a : Actor) : State :=
  let (g1, ins) := g.ports Graph.hold ((List.range a.nIn).map a.input)
  let (g2, outs) := g1.ports Graph.reserve ((List.range a.nOut).map a.output)
  let g3 := g2.modActor i fun a => { a with st := .firing, firings := a.firings + 1 }
  let x := s.hoop h
  let kept := decide (x.lastTenant = some (k / 64) ∨ x.lastTenant = none)
  let sram := if kept then x.sram else x.sram.filter fun p => dataBytes h ≤ p.1
  let bad := if kept then x.sramBad else x.sramBad.filter fun p => dataBytes h ≤ 8 * p.1
  let y : Hoop := { x with
    r := x.r.fresh, snap := none, leave := {}, stuck := [], defer := false, sram := sram, sramBad := bad, st := .running, pc := 0,
    firing := some ⟨k, i, s.curTurn, ins, outs, (s.reg TK_CONFIG_GEN).toNat⟩, stall := .none, wit := [], witSaid := false, lastTenant := some (k / 64),
    placed := x.placed + 1 }
  (s.setHoop h y).putGraph k g3

/-- An actor is held without a firing (R509, R511). -/
def State.holdActor (s : State) (k i code : Nat) : State :=
  match s.graph? k with
  | some g => (s.putGraph k (g.modActor i fun a => { a with st := .held })).actNotice k 0xFF i 0 code
  | none => s

/-- FIRING_PLACE (R324, R507). -/
def State.place (s : State) (h : Nat) : State :=
  let first := fun l => s.hoopFree l && (s.choose l).isSome
  if !first h || (firstIdx first h).isSome then s
  else match s.choose h with
    | none => s
    | some c => match s.graph? c.key with
      | none => s
      | some g => match g.actors[c.actor]? with
        | none => s
        | some a =>
          if actorOk g c.actor a (decide (32 ≤ h)) then s.fire h c.key c.actor g a
          else if a.fault ≠ 0 then s.holdActor c.key c.actor a.fault
          else (s.report 0x4011 (fireIid h)).holdActor c.key c.actor 0x4011

/-- Hoop h has no firing any longer. -/
def State.idleHoop (s : State) (h : Nat) : State :=
  s.modHoop h fun x => { x with st := .idle, firing := none, stall := .none, snap := none, leave := {}, stuck := [], defer := false }

/-- The commands that wait for the end of a graph complete. -/
def State.graphGone (s : State) (k : Nat) : List TkCmd → State
  | [] => s
  | c :: r => (s.complete c 0 0).graphGone k r

/-- The target of a RESUME or an ABORT of an actor or a graph. -/
def TkCmd.graphKey (c : TkCmd) : Nat := c.tenant.getD 8 * 64 + c.u 20 1

/-- A graph that ends is freed when none of its firings remains (R512). -/
def State.freeGraph (s : State) (k : Nat) : State :=
  match s.graph? k with
  | some g =>
    if g.ending && !((List.range 36).any fun h => ((s.hoop h).firing.map fun f => f.graph == k).getD false) then
      (s.setGraph k none).graphGone k
        (s.track.store.filter fun c => isOp 0x31 c && c.u 16 1 == 2 && c.phase == .running && c.graphKey == k)
    else s
  | none => s

/-- R510: what a discarded firing held and reserved goes back. -/
def Graph.undo (g : Graph) (f : Firing) : Graph :=
  let g1 := f.ins.foldl (fun g p => g.modChan p.ch fun c => { c with taken := c.taken - (p.count - p.gone) }) g
  f.outs.foldl (fun g p => g.modChan p.ch fun c => { c with res := c.res - (p.count - p.gone) }) g1

/-- Discard the firing of hoop h; its actor is then in state `st` (R510). -/
def State.discard (s : State) (h : Nat) (st : ActSt) : State :=
  match (s.hoop h).firing with
  | none => s
  | some f => match s.graph? f.graph with
    | none => s.idleHoop h
    | some g => ((s.idleHoop h).putGraph f.graph ((g.undo f).modActor f.actor fun a => { a with st := st })).freeGraph f.graph

/-- A non-restartable fault of the firing on hoop h (R509, R511). -/
def State.killFiring (s : State) (h code : Nat) : State :=
  match (s.hoop h).firing with
  | none => s
  | some f => (s.discard h .held).actNotice f.graph 0xFF f.actor 0 code

/-- A restartable fault of the firing on hoop h (R509, R511); in a graph that ends, the ABORT wins (R525). -/
def State.holdFiring (s : State) (h code : Nat) : State :=
  match (s.hoop h).firing with
  | none => s
  | some f =>
    if ((s.graph? f.graph).map (·.ending)).getD false then s.discard h .dead
    else (s.modHoop h fun x => { x with stall := .held code }).actNotice f.graph h f.actor (s.hoop h).pc code

/-- The place of token n of a channel, and its bytes (R321). -/
def Chan.slot (c : Chan) (n : Nat) : Nat := c.ring + 64 * c.units * (n % max c.cap 1)

def Chan.bytes (c : Chan) : Nat := 64 * c.units

/-- The tokens that CTL.END publishes take the next places in index order (R323). From the first index that was not sent on, the
spec does not say what those places then hold. -/
def State.gapFill (s : State) (h : Nat) (f : Firing) (g : Graph) : State :=
  f.outs.foldl (fun s p => match g.chans[p.ch]? with
    | none => s
    | some c =>
      let n := (p.sent.filter fun t => decide (p.gone ≤ t)).length
      let gap (j : Nat) := (List.range (j + 1)).any fun i => !p.sent.contains (p.gone + i)
      ((List.range n).filter gap).foldl (fun s j =>
        (s.took.tenantWrite (fireIid h) (f.graph / 64) (c.slot (p.first + p.gone + j)) (leBytes c.bytes s.free) {}).1) s) s

/-- CTL.END of a firing (R323). -/
def State.endFiring (s : State) (h : Nat) : State :=
  match (s.hoop h).firing with
  | none => s
  | some f => match s.graph? f.graph with
    | none => s.idleHoop h
    | some g =>
      let g1 := f.ins.foldl (fun g p => g.modChan p.ch fun c => { c with rel := c.rel + (p.count - p.gone) }) g
      let g2 := f.outs.foldl (fun g p => g.modChan p.ch fun c =>
        { c with pub := c.pub + (p.sent.filter fun t => decide (p.gone ≤ t)).length, res := c.res - (p.count - p.gone) }) g1
      (((s.gapFill h f g).idleHoop h).putGraph f.graph (g2.modActor f.actor fun a => { a with st := .ready })).freeGraph f.graph

/-! ### LAUNCH_ACTORS (R502, R321) -/

/-- A channel of the channel table. -/
def chanOf (b : List Byte) : Chan :=
  { ring := leAt b 0 6, cap := leAt b 6 2, units := leAt b 8 2, prod := leAt b 10 2, cons := leAt b 12 2, pub := leAt b 14 2 }

/-- Cut a table into entries of `n` bytes. -/
def entries (b : List Byte) (n count : Nat) : List (List Byte) := (List.range count).map fun i => (b.drop (n * i)).take n

/-- Read the actors' headers (log entry 19): one that cannot be read carries the fault of its first placement. -/
def State.readActors (s : State) (iid t : Nat) : List Nat → State × List Actor
  | [] => (s, [])
  | va :: r =>
    let (s1, x) := s.tenantRead iid t va 64 {}
    let fault := x.fault.getD (if x.poison then 0x5010 else 0)
    let (s2, as) := s1.readActors iid t r
    (s2, { va := va, header := x.bytes, fault := fault } :: as)

/-- Actors and channels across all live graphs. -/
def State.actorCount (s : State) : Nat × Nat :=
  s.eng.token.graphs.foldl (fun n p => match p.2 with
    | some g => (n.1 + g.actors.length, n.2 + g.chans.length)
    | none => n) (0, 0)

/-- LAUNCH_ACTORS (R502). -/
def State.launchActors (c : TkCmd) (s : State) : State :=
  match c.tenant with
  | none => s.fail c 0x8001 0
  | some t =>
    let k := t * 64 + c.u 16 1
    let (na, nc) := s.actorCount
    if (s.graph? k).isSome then s.fail c 0x800F 0
    else if 8192 < na + c.u 18 2 ∨ 16384 < nc + c.u 20 2 then s.fail c 0x8010 0
    else match s.tenantRead c.req t (c.u 24 8) (8 * c.u 18 2) {} with
      | (s1, x) => match x.fault.orElse fun _ => if x.poison then some 0x5010 else none with
        | some f => s1.complete c f 0
        | none => match s1.tenantRead c.req t (c.u 32 8) (32 * c.u 20 2) {} with
          | (s2, y) => match y.fault.orElse fun _ => if y.poison then some 0x5010 else none with
            | some f => s2.complete c f 0
            | none =>
              let (s3, as) := s2.readActors c.req t ((entries x.bytes 8 (c.u 18 2)).map fun b => leNat b % 2 ^ 48)
              (s3.putGraph k { cmd := c, actors := as, chans := (entries y.bytes 32 (c.u 20 2)).map chanOf }).complete c 0 (c.u 16 1)

/-! ### RESUME and ABORT (R512, R525, R352) -/

/-- The hoop that fires actor i of graph k. -/
def State.firingOf (s : State) (k i : Nat) : Option Nat :=
  firstIdx (fun h => ((s.hoop h).firing.map fun f => f.graph == k && f.actor == i).getD false) 36

/-- The firing on hoop h is held or parked. -/
def State.stalled (s : State) (h : Nat) : Bool := (s.hoop h).stall != .none

/-- RESUME of an actor: the faulting transfer is reissued, or the actor may fire again. -/
def State.resumeActor (c : TkCmd) (s : State) : State :=
  let k := c.graphKey
  let i := c.u 22 2
  match s.graph? k with
  | none => s.fail c 0x800A 0
  | some g =>
    match s.firingOf k i, g.actors[i]? with
    | some h, _ => match (s.hoop h).stall with
      | .held _ => (s.modHoop h fun x => { x with stall := .none }).complete c 0 0
      | _ => s.fail c 0x800A 0
    | none, some a =>
      if a.st = .held then (s.putGraph k (g.modActor i fun a => { a with st := .ready })).complete c 0 0 else s.fail c 0x800A 0
    | none, none => s.fail c 0x800A 0

/-- ABORT of an actor: its held or parked firing is discarded, and it never fires again. -/
def State.abortActor (c : TkCmd) (s : State) : State :=
  let k := c.graphKey
  let i := c.u 22 2
  match s.graph? k with
  | none => s.fail c 0x800A 0
  | some g =>
    match s.firingOf k i, g.actors[i]? with
    | some h, _ => if s.stalled h then (s.discard h .dead).complete c 0 0 else s.fail c 0x800A 0
    | none, some a =>
      if a.st = .held then (s.putGraph k (g.modActor i fun a => { a with st := .dead })).complete c 0 0 else s.fail c 0x800A 0
    | none, none => s.fail c 0x800A 0

/-- A graph ends: held and parked firings are discarded, running ones complete. -/
def State.endGraph (s : State) (k : Nat) : State :=
  match s.graph? k with
  | none => s
  | some g =>
    let s1 := s.setGraph k (some { g with ending := true })
    ((List.range 36).foldl (fun s h =>
      if ((s.hoop h).firing.map fun f => f.graph == k).getD false && s.stalled h then s.discard h .dead else s) s1).freeGraph k

/-- ABORT of a graph; it completes when the graph is freed. -/
def State.abortGraph (c : TkCmd) (s : State) : State :=
  if (s.graph? c.graphKey).isSome then (s.startCmd c).endGraph c.graphKey else s.fail c 0x800A 0

/-- R421: a KV_FREE takes effect on the appends parked on the sequence; they fault with 0x6001. -/
def State.faultParked (s : State) (q : Nat) : State :=
  (List.range 36).foldl (fun s h => match (s.hoop h).stall with
    | .parked q' n _ _ => if q' = q ∧ n ≠ 0 then
        (s.report 0x6001 (((s.hoop h).firing.map fun f => f.graph / 64).getD skIid)).holdFiring h 0x6001 else s
    | _ => s) s

/-- KV_FREE (R397, R421). -/
def State.kvFree (c : TkCmd) (s : State) : State :=
  let q := c.u 16 2
  match s.kvSeq c q with
  | none => s.fail c 0x6001 0
  | some x => ((s.setSeq q (some { x with freeing := true, places := [], want := none })).startCmd c).faultParked q

/-- A gather on sequence q is parked, and so has not ended. -/
def State.gathers (s : State) (q : Nat) : Bool :=
  (List.range 36).any fun h => match (s.hoop h).stall with
    | .parked q' 0 _ _ => q' == q
    | _ => false

/-- FREEING_COMPLETE (R397): the gathers have ended. -/
def State.freed (s : State) (q : Nat) : State :=
  match s.seq? q with
  | none => s
  | some x =>
    if !x.freeing || s.gathers q then s
    else
      let s1 := ((x.leaves.filterMap (·.2)).foldl State.dropRef s).dropBlocks x
      let s2 := s1.setSeq q none
      (s2.track.store.filter fun c => isOp 0x12 c && c.phase == .running && c.u 16 2 == q).foldl (fun s c => s.complete c 0 q) s2

/-- What a parked firing waits for is there (R339, R340, R410). -/
def State.unparks (s : State) (q need : Nat) (skeins blocks : List Nat) : Bool :=
  match s.seq? q with
  | none => true
  | some x => x.exhausted || (decide (need + x.places.length ≤ 32) && !skeins.any s.away &&
      blocks.all fun b => ((spGet (fun _ => none) x.blocks b).map (·.visiting)).getD false)

/-- PARKED_FIRING_RESUME (R508). -/
def State.unpark (s : State) (h : Nat) : State :=
  match (s.hoop h).stall with
  | .parked q n ks bs => if s.unparks q n ks bs then s.modHoop h fun x => { x with stall := .none } else s
  | _ => s

/-- Launches are accepted while TE_CTL.EN is 1 (R263); one that is not valid or not permitted completes all the same. -/
def State.launchCmd (s : State) (r : Nat) (n : BitVec 16) (op : Nat) (f : TkCmd → State → State) : State :=
  s.runCmd r n (fun c => isOp op c && (s.is TE_CTL_EN || (s.cmdCode c).isSome)) f

/-- FIRING_PLACE (R507). -/
def execFiringPlace (h : Fin 36) (s : State) : Ans := s.done (s.place h)

/-- PARKED_FIRING_RESUME (R508). -/
def execParkedFiringResume (h : Fin 36) (s : State) : Ans := s.done (s.unpark h)

/-- LAUNCH_ACTORS (R502). -/
def execLaunchActors (r : Fin 10) (n : BitVec 16) (s : State) : Ans := s.done (s.launchCmd r n 0x02 State.launchActors)

/-- RESUME_ACTOR (R512). -/
def execResumeActor (r : Fin 10) (n : BitVec 16) (s : State) : Ans := s.done (s.runCmd r n (isKind 0x30 1) State.resumeActor)

/-- ABORT_ACTOR (R512). -/
def execAbortActor (r : Fin 10) (n : BitVec 16) (s : State) : Ans := s.done (s.runCmd r n (isKind 0x31 1) State.abortActor)

/-- ABORT_GRAPH (R512). -/
def execAbortGraph (r : Fin 10) (n : BitVec 16) (s : State) : Ans := s.done (s.runCmd r n (isKind 0x31 2) State.abortGraph)

/-- KV_FREE (R397). -/
def execKvFree (r : Fin 10) (n : BitVec 16) (s : State) : Ans := s.done (s.runCmd r n (isOp 0x12) State.kvFree)

/-- FREEING_COMPLETE (R397). -/
def execFreeingComplete (q : Fin 1024) (s : State) : Ans := s.done (s.freed q)

end Sys2Proof.Machine
end

