-- ==== Sys2Proof/Machine/Sched.lean ====
section
/-! DEFINITION. The Scheduled partition: images, program starts and ends, the Deadline Governor, overrun and skip, retirement
and relocation (R237, R248-R260, R264-R267, R316, R317, R501, R512, R513). -/

namespace Sys2Proof.Machine

open Reg

def State.setGov (s : State) (f : Gov → Gov) : State := s.setEng fun e => { e with gov := f e.gov }

def State.setReloc (s : State) (f : Reloc → Reloc) : State := s.setEng fun e => { e with reloc := f e.reloc }

/-! ### The Governor (R248-R251, R266, R267) -/

/-- Send a voltage command. -/
def State.govSend (s : State) (v : Nat) : State :=
  (s.setGov fun g => { g with v := v, frame := some (v, false), wait := none }).putB TE_AVS_STAT_BUSY true

/-- A voltage that the Governor wants: sent at once, or it waits for the ramp or frame in progress (R249);
the thermal cap holds it to 0.75 V (R670). -/
def State.govSet (s : State) (want : Nat) : State :=
  let g := s.eng.gov
  let v := if s.pwr.cap then min want 750 else want
  if s.is TE_STATUS_GOV_HOLD then s
  else if g.ramp || g.frame.isSome then s.setGov fun g => { g with wait := some v }
  else if v = g.v then s
  else s.govSend v

/-- Round a positive change up to 5 mV, any other toward zero, and limit it (R249); the change is num / den. -/
def govStep (num : Int) (den : Nat) (up down : Nat) : Int :=
  if 0 < num then min (5 * ((num + (5 * den - 1)) / (5 * den : Nat))) up
  else max (-(5 * ((-num) / (5 * den : Nat)))) (-(down : Int))

/-- s[k] of the resident image (R316). -/
def State.plan (s : State) (k : Nat) : Nat := leAt s.eng.sched.header (576 + 4 * k) 4

/-- K, the index of the last checkpoint. -/
def State.lastCkpt (s : State) : Nat := leAt s.eng.sched.header 3 1 - 1

/-- r_meas at checkpoint k, reached now: planned steps and the time they took, in units. -/
def State.measure (s : State) (k : Nat) : Nat × Nat :=
  let d := s.eng.sched
  match d.reached with
  | some (j, t) => (s.plan k - s.plan j, s.hg.dt - t)
  | none => (s.plan k, s.hg.dt - d.startAt)

/-- Checkpoint k is noted: TE_GOV_CKPT and TE_GOV_RATE, in M steps/s, rounded down (log entry 20). -/
def State.noteCkpt (s : State) (k : Nat) : State :=
  let (ds, dt) := s.measure k
  let s1 := s.setReg TE_GOV_CKPT (BitVec.ofNat 32 k)
  let s2 := s1.setReg TE_GOV_RATE (BitVec.ofNat 32 (ds * 256000 / max dt 1))
  s2.setSched fun d => { d with reached := some (k, s.hg.dt) }

/-- The Governor's result at checkpoint k (R249). -/
def State.govern (s : State) (k : Nat) : State :=
  let (ds, dt) := s.measure k
  let left : Int := ((s.reg TE_GOV_DEADLINE).toNat : Int) * 256 - (s.reg TE_GOV_GUARD).toNat * 256 - (s.hg.dt - s.eng.sched.turnAt : Nat)
  let up := s.get TE_GOV_CFG_UP_MAX
  let req := (s.plan s.lastCkpt - s.plan k) * (100 + s.get TE_GOV_CFG_HEADROOM) * dt
  let have_ := left.toNat * 100 * ds
  let short := decide (left ≤ 0) || decide (have_ < req)
  let dv : Int :=
    if left ≤ 0 ∨ have_ = 0 then up
    else govStep (s.get TE_GOV_CFG_KV * ((req : Int) - have_)) have_ up (s.get TE_GOV_CFG_DOWN_MAX)
  let lo := max (s.get TE_GOV_VLIM_VMIN) (s.reg TE_GOV_VFLOOR).toNat
  let hi := if s.pwr.cap then min 750 (s.get TE_GOV_VLIM_VMAX) else s.get TE_GOV_VLIM_VMAX
  let v := (min (max ((s.eng.gov.v : Int) + dv) lo) hi).toNat
  let s1 := s.govSet v
  if v = hi ∧ short ∧ s.eng.gov.satSaid = false then
    (s1.report 0x4006 schedIid).setGov fun g => { g with satSaid := true }
  else s1

/-- Every SCHED hoop whose stream holds checkpoint k has executed it (R248). -/
def State.ckptReached (s : State) (k : Nat) : Bool :=
  (List.range (min (leAt s.eng.sched.header 2 1) s.schedCount)).all fun j =>
    !(leAt s.eng.sched.header (72 + 16 * j) 8).testBit k ||
      ((s.hoop (s.physical j)).ckpt.map fun c => decide (k ≤ c)).getD false

/-- CHECKPOINT (R248, R249, R266). -/
def State.checkpoint (s : State) (k : Nat) : State :=
  match s.eng.sched.running with
  | none => s
  | some _ =>
    let past := (s.eng.sched.reached.map fun x => decide (k ≤ x.1)).getD false
    if past || decide (s.lastCkpt < k) || !s.ckptReached k then s
    else if s.is TE_CTL_GOV_EN then (s.govern k).noteCkpt k else s.noteCkpt k

/-- AVS_RESPONSE (R251): a good one starts the ramp; a bad one resends the frame, and a second bad one fails it. -/
def State.avsResponse (s : State) (err : Bool) (status : Nat) : State :=
  match s.eng.gov.frame with
  | none => s
  | some (v, again) =>
    let s1 := (s.put TE_AVS_STAT_LAST_STATUS status).putB TE_AVS_STAT_ERR (err || s.is TE_AVS_STAT_ERR)
    if !err then (s1.setReg TE_GOV_VNOW (BitVec.ofNat 32 v)).setGov fun g => { g with frame := none, ramp := true }
    else if !again then s1.setGov fun g => { g with frame := some (v, true) }
    else
      (((s1.report 0x4007 schedIid).putB TE_STATUS_GOV_HOLD true).putB TE_AVS_STAT_BUSY false).setGov fun g =>
        { g with frame := none, wait := none, v := (s.reg TE_GOV_VNOW).toNat }

/-- AVS_RAMP_END (R249): the newest result that waited is sent. -/
def State.rampEnd (s : State) : State :=
  if !s.eng.gov.ramp then s
  else
    let s1 := (s.setGov fun g => { g with ramp := false }).putB TE_AVS_STAT_BUSY false
    match s.eng.gov.wait with
    | some v => (s1.setGov fun g => { g with wait := none }).govSet v
    | none => s1

/-- GOV_PRETURN_SET (R250): 50 µs before the next turn start; Device Time runs on to it. -/
def State.preturn (s : State) : State :=
  if s.is TE_CTL_GOV_EN && s.is HG_TURN_CTL_ACTIVE && s.eng.sched.running.isNone then
    let g := s.eng.gov
    let v := if g.early then g.vEnd - s.get TE_GOV_CFG_DOWN_MAX else g.vEnd
    (s.advanceTo (s.turnInstant s.hg.nextTurn - 50000 * 256)).govSet (max v (s.reg TE_GOV_VFLOOR).toNat)
  else s

/-- A write to TE_CTL: GOV_EN written 0 holds VFLOOR, and written 1 after it ends GOV_HOLD (R250, R251). -/
def State.teCtl (s : State) (iid : Nat) (v : Word) : State :=
  let old := s.is TE_CTL_GOV_EN
  let s1 := s.plainWrite iid TE_CTL v
  if s1.is TE_CTL_GOV_EN then if old then s1 else s1.putB TE_STATUS_GOV_HOLD false
  else s1.govSet (s.reg TE_GOV_VFLOOR).toNat

/-- A write to TE_GOV_VFLOOR. -/
def State.teVfloor (s : State) (iid : Nat) (v : Word) : State :=
  let s1 := s.plainWrite iid TE_GOV_VFLOOR v
  if s1.is TE_CTL_GOV_EN then s1 else s1.govSet (s1.reg TE_GOV_VFLOOR).toNat

/-- A write to TE_GOV_VLIM: VMAX is at least VMIN (R263). -/
def State.teVlim (s : State) (iid : Nat) (v : Word) : State :=
  if bitsOf v.toNat 16 16 < bitsOf v.toNat 0 16 then s.rangeFault iid TE_GOV_VLIM else s.plainWrite iid TE_GOV_VLIM v

/-! ### Program loads (R317) -/

/-- Write a stream into Hoop SRAM with the patches of logical hoop j (R258, R260). -/
def patched (ps : List Patch) (j : Nat) (code : List Byte) : List Byte :=
  (ps.filter (·.lhoop == j)).foldl (fun c p =>
    let o := 32 * p.bundle + 4 * p.syl
    if o + 4 ≤ c.length then c.take o ++ leBytes 4 p.value ++ c.drop (o + 4) else c) code

/-- Load the streams of logical hoops `js`. -/
def State.loadStreams (s : State) (m : Image) (hdr : List Byte) : List Nat → State × Bool
  | [] => (s, true)
  | j :: r =>
    match s.schedRead m.tenant (m.va + leAt hdr (64 + 16 * j) 4) (32 * leAt hdr (68 + 16 * j) 4) {} with
    | (s1, none) => (s1, false)
    | (s1, some code) =>
      let bs := patched s.eng.reloc.patches j code
      (s1.modHoop (s1.physical j) fun x => { x with
        sram := spPuts (fun _ => 0) x.sram (leAt hdr 4 4 % (6 * 2 ^ 20)) bs }).loadStreams m hdr r

/-- Start a loaded hoop: at bundle 0, or on after CTL.WAITTURN (R306, R329). -/
def Hoop.begin (x : Hoop) (fromZero : Bool) : Hoop :=
  let y := { x with st := .running, snap := none, leave := {}, stuck := [], defer := false, ckpt := none, wit := [], stall := .none }
  if fromZero || x.st != .waiting then { y with r := x.r.fresh, pc := 0 } else { y with r := { x.r with c := [] } }

/-- The hoops of the program issue. -/
def State.beginHoops (s : State) (fromZero : Bool) : State :=
  s.loadedHoops.foldl (fun s h => s.modHoop h fun x => x.begin fromZero) s

/-- The program of turn n runs on image m: code is loaded where R317 asks for it. -/
def State.runImage (s : State) (m : Image) : State :=
  let d := s.eng.sched
  if d.resident = some m.ord ∧ d.mustLoad = false then s.beginHoops false
  else match s.schedRead m.tenant m.va 1024 {} with
    | (s1, none) => s1
    | (s1, some hdr) =>
      let s2 := s1.setSched fun d => { d with header := hdr }
      match s2.loadStreams m hdr (List.range (min (leAt hdr 2 1) s2.schedCount)) with
      | (s3, false) => s3
      | (s3, true) => (s3.setSched fun d => { d with resident := some m.ord, mustLoad := false }).beginHoops true

/-- The turns that are open, as changed by `f`. -/
def State.setTurns (s : State) (f : List TurnRec → List TurnRec) : State := { s with loom := { s.loom with turns := f s.loom.turns } }

/-- Turns that satisfy `p` leave without an output. -/
def State.dropTurns (s : State) (p : TurnRec → Bool) : State := s.setTurns fun l => l.filter fun x => !p x

/-- Change the first turn that satisfies `p`. -/
def modFirst (p : TurnRec → Bool) (f : TurnRec → TurnRec) : List TurnRec → List TurnRec
  | [] => []
  | x :: r => if p x then f x :: r else x :: modFirst p f r

/-- A LAUNCH_TURN's image comes into force (R501), and its square is copied for the Referee (R612, R613). -/
def State.newImage (s : State) (l : Launch) (n : Nat) : State :=
  let old := s.eng.sched.image
  let s1 := s.setSched fun d => { d with image := some l.image, next := none }
  let s2 := match old with
    | some m => s1.unpin fun o => decide (o = PinOwner.turn m.ord)
    | none => s1
  match s2.cmd? l.req l.csn with
  | some c => { s2 with ref := { s2.ref with
      launch := some (l.image.tenant, c.bytes), noRelaunch := s2.ref.noRelaunch && decide (8 ≤ l.req) } }.complete c 0 n
  | none => s2

/-- The image of a LAUNCH_TURN is that of turn n: the turn's start is at or after FIRST_TURN and after the pin-walk (R501). -/
def State.launchDue (s : State) (l : Launch) (n : Nat) : Bool :=
  decide (l.first ≤ n) && (l.since.1 != s.hg.run || decide (l.since.2 ≤ n))

/-- The program of turn n starts, where there is one (R252, R259, R501). -/
def State.progStart (s : State) (n : Nat) : State :=
  let s1 := match s.eng.sched.next with
    | some l => if s.launchDue l n then s.newImage l n else s
    | none => s
  match s1.eng.sched.image with
  | none => (s1.setSched fun d => { d with pending := none }).dropTurns fun x => x.turn == n && !x.ended
  | some m =>
    let s2 := (s1.setSched fun d => { d with
      fault := 0, running := some n, pending := none, turnAt := s1.turnInstant n, startAt := s1.hg.dt, reached := none,
      gen := (s1.reg TK_CONFIG_GEN).toNat }).setGov fun g =>
        { g with satSaid := false }
    if s2.eng.reloc.noSpare then s2.schedFault 0x400A false else s2.runImage m

/-! ### Program ends (R237, R250, R252, R329) -/

/-- The Witness reports of the SCHED hoops (R237). -/
def State.witReports (s : State) (n : Nat) : List WitReport :=
  (List.range s.schedCount).flatMap fun j => (List.range 8).map fun k =>
    let w := spGet (fun _ => {}) (s.hoop (s.physical j)).wit k
    ⟨n % 2 ^ 32, s.physical j, k, min w.flagged 65535, min w.tiles (2 ^ 32 - 1), w.max⟩

/-- The program of turn n has ended: its fault and its Witness reports are known (R217, R237). -/
def State.turnEnded (s : State) (n : Nat) : State :=
  s.setTurns (modFirst (fun x => x.turn == n && !x.ended) fun x => { x with
    ended := true, fault := s.eng.sched.fault, reports := s.witReports n })

/-- An application in progress keeps programs from starting (R258). -/
def State.applying (s : State) : Bool := s.get TE_RELOC_STAT_STATE == 2

/-- Every loaded hoop has reached CTL.END or CTL.WAITTURN, or the program has been ended. -/
def State.progDone (s : State) : Bool :=
  s.eng.sched.running.isSome && s.loadedHoops.all fun h => (s.hoop h).st != .running

/-- The Governor's part of a program end. -/
def State.govEnd (s : State) : State :=
  let dl := (s.reg TE_GOV_DEADLINE).toNat * 256
  let took := s.hg.dt - s.eng.sched.turnAt
  let s1 := if dl < took then s.report 0x4005 schedIid else s
  let s2 := s1.setGov fun g => { g with vEnd := (s.reg TE_GOV_VNOW).toNat, early := decide (took * 10 + dl ≤ dl * 10) }
  s2.govSet (s.reg TE_GOV_VFLOOR).toNat

/-- PROGRAM_END (R237, R248, R250, R252): a pending turn's program then starts at once. -/
def State.progEnd (s : State) : State :=
  match s.eng.sched.running with
  | none => s
  | some n =>
    if !s.progDone then s
    else
      let s1 := if (s.eng.sched.reached.map (·.1)) = some s.lastCkpt then s else s.noteCkpt s.lastCkpt
      let s2 := (s1.turnEnded n).setSched fun d => { d with running := none }
      let s3 := s2.govEnd
      match s3.eng.sched.pending with
      | some p => if s3.applying then s3 else s3.progStart p
      | none => s3

/-- The Engine's part of the start of turn n (R252, R253). -/
def State.engTurn (s0 : State) (n : Nat) : State :=
  let s := if s0.progDone then s0.progEnd else s0
  let d := s.eng.sched
  let skip (s : State) (p : Nat) : State :=
    ((s.bump (whole TE_SKIP_CNT)).report 0x4004 schedIid).dropTurns fun x => x.turn == p && !x.ended
  match d.running, d.pending with
  | none, none => if s.applying && (d.image.isSome || (d.next.map fun l => s.launchDue l n).getD false) then s.setSched fun d => { d with pending := some n } else s.progStart n
  | none, some p => (skip s p).setSched fun d => { d with pending := some n }
  | some m, none =>
    let s1 := s.setSched fun d => { d with pending := some n }
    if m + 1 = n then (s1.bump (whole TE_OVERRUN_CNT)).report 0x4003 schedIid else s1
  | some _, some p => (skip s p).setSched fun d => { d with pending := some n }

/-! ### LAUNCH_TURN and ABORT of the TURN (R501, R512) -/

/-- The ranges that a LAUNCH_TURN pins: the image first. -/
def TkCmd.pinRanges (c : TkCmd) : List (Nat × Nat) :=
  (c.u 16 8 % 2 ^ 48, c.u 24 4) :: (List.range (c.u 28 1)).map fun r => (c.u (40 + 12 * r) 6, c.u (46 + 12 * r) 4)

/-- Pin every range; a failure carries the ATU's code. -/
def State.pinAll (s : State) (o : PinOwner) (t : Nat) : List (Nat × Nat) → State × Nat
  | [] => (s, 0)
  | (va, pages) :: r =>
    match s.pinWalk o t va (4096 * pages) false {} with
    | (s1, true) => s1.pinAll o t r
    | (s1, false) => (s1, if s1.atu.pts.length < 8192 then 0x5005 else 0x5006)

/-- LAUNCH_TURN (R501). A failed pin-walk keeps the entries it has made (R439). -/
def State.launchTurn (c : TkCmd) (s : State) : State :=
  match c.tenant with
  | none => s.fail c 0x8001 0
  | some t => match s.pinAll (.turn c.ord) t c.pinRanges with
    | (s1, 0) => (s1.startCmd c).setSched fun d => { d with
        next := some ⟨⟨c.ord, t, c.u 16 8 % 2 ^ 48, c.u 24 4⟩, c.u 32 8, c.req, c.csn, (s1.hg.run, s1.hg.nextTurn)⟩ }
    | (s1, code) => s1.complete c code 0

/-- The program ends at once, with no further issue. -/
def State.killTurn (s : State) : State := if s.eng.sched.running.isSome then s.schedFault 0x800B false else s

/-- ABORT of the TURN (R512, R513): a LAUNCH_TURN not yet in force is cancelled, and the pins are released. -/
def State.abortTurn (c : TkCmd) (s : State) : State :=
  let d := s.eng.sched
  if d.image.isNone && d.next.isNone then s.fail c 0x800A 0
  else
    let s1 := s.killTurn
    let s2 := match d.next.bind fun l => s1.cmd? l.req l.csn with
      | some x => s1.complete x 0x800B 0
      | none => s1
    let s3 := s2.unpin fun o => match o with
      | .turn _ => true
      | _ => false
    let s4 := s3.dropTurns fun x => some x.turn == d.pending && !x.ended
    (s4.setSched fun d => { d with image := none, next := none, pending := none, resident := none }).complete c 0 0

/-! ### Relocation (R255-R259, R264, R265) -/

/-- The relocation table that the map in force names: its address and tenant. -/
def State.relocVa (s : State) : Nat := leAt s.pmap 72 8

def State.relocTenant (s : State) : Nat := leAt s.pmap 80 1 % 8

/-- The application stops or fails: RELOC_INVALID, and its entry is not in force (R258, R265). -/
def State.relocFail (s : State) : State :=
  let s1 := ((s.report 0x4002 schedIid).put TE_RELOC_STAT_STATE 0).setReloc fun r =>
    { r with logical := none, patches := [], applying := none, noSpare := true, second := false }
  match s1.eng.sched.running, s1.eng.sched.pending with
  | none, some p => s1.progStart p
  | _, _ => s1

/-- Entry j of the table, checked (R256, R258): NEW_LOGICAL, patches and reloads. -/
def State.relocEntryOk (s : State) (b : List Byte) : Bool :=
  let l := s.schedCount
  let p := leAt b 32 2
  let q := leAt b 34 2
  let hoops := (List.range l).map fun j => leAt b j 1
  decide (p ≤ 400 ∧ q ≤ 50) &&
    hoops.all (fun h => decide (h < 32) && !s.retired h && (s.role h == 1 || s.role h == 3)) &&
    (List.range (32 - l)).all (fun j => leAt b (l + j) 1 == 0xFF) &&
    (List.range p).all (fun i => decide (leAt b (36 + 8 * i) 1 < l ∧ leAt b (37 + 8 * i) 1 < 8)) &&
    (List.range q).all fun i =>
      let o := 36 + 8 * p + 16 * i
      decide (leAt b (o + 6) 1 < l) && leAt b (o + 7) 1 == 0 && leAt b (o + 12) 4 % 64 == 0 &&
        decide (leAt b (o + 8) 4 + leAt b (o + 12) 4 ≤ 6 * 2 ^ 20)

def patchesOf (b : List Byte) : List Patch :=
  (List.range (leAt b 32 2)).map fun i =>
    ⟨leAt b (36 + 8 * i) 1, leAt b (37 + 8 * i) 1, leAt b (38 + 8 * i) 2, leAt b (40 + 8 * i) 4⟩

/-- Load the reloads; false where one cannot be read. -/
def State.reloads (s : State) (t : Nat) (b : List Byte) : List Nat → State × Bool
  | [] => (s, true)
  | i :: r =>
    let o := 36 + 8 * leAt b 32 2 + 16 * i
    match s.pinnedRead schedIid t (leAt b o 6) (leAt b (o + 12) 4) {} with
    | (s1, some x) =>
      if x.poison then (s1, false)
      else (s1.modHoop (s1.physical (leAt b (o + 6) 1)) fun h => { h with
        sram := spPuts (fun _ => 0) h.sram (leAt b (o + 8) 4) x.bytes }).reloads t b r
    | (s1, none) => (s1, false)

/-- RELOCATION_APPLY (R258): the table's first page and the entry of the retired logical hoop are read and checked. -/
def State.relocApply (s : State) : State :=
  match s.eng.reloc.applying with
  | none => s
  | some turn =>
    if s.eng.sched.running.isSome || decide (s.hg.nextTurn ≤ turn) || s.eng.reloc.logical.isSome then s
    else
      let va := s.relocVa
      let t := s.relocTenant
      match s.pinnedRead schedIid t va 12 {} with
      | (s1, none) => s1.relocFail
      | (s1, some hd) =>
        match s1.pinnedRead schedIid t (va + 4) (leAt hd.bytes 4 4 - 4) {} with
        | (s2, none) => s2.relocFail
        | (s2, some body) =>
          let b := (body.bytes.drop (4096 * (s.get TE_RELOC_STAT_LHOOP + 1) - 4)).take 4096
          if hd.poison || body.poison || crc32c body.bytes != leAt hd.bytes 0 4 || leAt hd.bytes 8 1 != s.schedCount ||
              !s2.relocEntryOk b then s2.relocFail
          else
            let s3 := s2.setReloc fun r => { r with
              logical := some ((List.range s.schedCount).map fun j => leAt b j 1), patches := patchesOf b }
            match s3.reloads t b (List.range (leAt b 34 2)) with
            | (s4, true) => s4
            | (s4, false) => s4.relocFail

/-- RELOCATION_COMPLETE (R257): a program that waited for it starts. -/
def State.relocDone (s : State) : State :=
  if s.eng.reloc.applying.isNone || s.eng.reloc.logical.isNone then s
  else
    let s1 := ((s.put TE_RELOC_STAT_STATE 3).setReloc fun r =>
      { r with applying := none, noSpare := r.noSpare || r.second, second := false }).setSched fun d => { d with mustLoad := true }
    match s1.eng.sched.running, s1.eng.sched.pending with
    | none, some p => s1.progStart p
    | _, _ => s1

/-! ### Retirement (R254, R255, R259, R265, R380) -/

/-- What a Lace Hoop loses with its power (R358, R380): its network, deltas and history; an armed commit ends with 0. -/
def State.laceLost (s : State) (l : Nat) : State :=
  let x := spGet (fun _ => {}) s.eng.lace l
  let s1 := s.setEng fun e => { e with lace := spPut (fun _ => {}) e.lace l {} }
  let s2 := ((((s1.putB (TE_LACE_STAT_LOADED l) false).putB (TE_LACE_STAT_COMMIT_ARMED l) false).putB (TE_LACE_STAT_BUSY l) false)).setReg
    (TE_LACE_GEN l) 0
  match x.armed.bind fun a => s2.cmd? a.2.1 a.2.2 with
  | some c => s2.complete c 0 0
  | none => s2

/-- Hoop h loses power: what it holds is lost (R235); what it holds when it has power again is that of reset (log entry 21). -/
def State.gateHoop (s : State) (h : Nat) : State :=
  let s1 := s.setHoop h {}
  if 32 ≤ h then s1.laceLost (h - 32) else s1

/-- A SCHED hoop, logical hoop j, has retired: a relocation starts, or there is no spare (R255, R259, R265). TE_RELOC_STAT shows
the first one until the next map (R260). -/
def State.schedRetired (s : State) (h j : Nat) : State :=
  let st := s.get TE_RELOC_STAT_STATE
  let shown (s : State) := (s.put TE_RELOC_STAT_HOOP h).put TE_RELOC_STAT_LHOOP j
  if st = 1 then (shown (s.put TE_RELOC_STAT_STATE 2)).setReloc fun r => { r with applying := some s.hg.nextTurn }
  else
    let s1 := (if st = 0 ∧ s.eng.reloc.noSpare = false then shown s else s).report 0x400A schedIid
    if st = 2 then s1.setReloc fun r => { r with second := true } else s1.setReloc fun r => { r with noSpare := true }

/-- HOOP_RETIRE (R254): an admitted write to TE_RETIRE by the Referee. -/
def State.retire (s : State) (h : Nat) : State :=
  if 36 ≤ h ∨ s.retired h then s
  else
    let was := s.role h
    let j := s.logicalOf h
    let named := s.applying && ((s.eng.reloc.logical.map fun l => l.contains h).getD false)
    let s1 := s.report 0x4009 (if was = 2 ∨ 32 ≤ h then fireIid h else schedIid)
    let s2 := if was = 1 then s1.schedFault 0x4009 false else s1.killFiring h 0x4009
    let s3 := s2.gateHoop h
    let s4 := if h < 32 then s3.setReg TE_RETIRED_LO (s3.reg TE_RETIRED_LO ||| BitVec.twoPow 32 h)
      else s3.setReg TE_RETIRED_HI (s3.reg TE_RETIRED_HI ||| BitVec.twoPow 32 (h - 32))
    let s5 := match j with
      | some j => if was = 1 then s4.schedRetired h j else s4
      | none => s4
    if named then s5.relocFail else s5

/-- A write to TE_RETIRE or TE_WIT_LIM by another master than the Referee (R239). -/
def State.refereeOnly (s : State) (iid : Nat) (f : State → State) : State :=
  if iid = 8 then f s else s.report 0x400C iid

/-! ### The switch of a partition map (R235, R256, R257, R264) -/

/-- The first retired hoop that a new map still gives a logical hoop is to be relocated (R264); a further one has no spare. -/
def State.pmapRetired (s : State) (m : Table) : List Nat → State
  | [] => s
  | h :: r =>
    let j := (firstIdx (fun j => leAt m.bytes (40 + j) 1 == h) 32).getD 0
    if s.relocVa = 0 then s.setReloc fun r => { r with noSpare := true }
    else (((s.put TE_RELOC_STAT_STATE 2).put TE_RELOC_STAT_HOOP h).put TE_RELOC_STAT_LHOOP j).setReloc fun x =>
      { x with applying := some (s.hg.nextTurn - 1), second := !r.isEmpty }

/-- A new map is in force. -/
def State.pmapSwitch (s : State) (m : Table) : State :=
  let old := (List.range 36).map s.role
  let s1 := (s.unpin fun o => match o with
    | .reloc _ => true
    | _ => false).setEng fun e => { e with pmap := some m, reloc := {}, sched := { e.sched with mustLoad := true } }
  let s2 := ((s1.put TE_RELOC_STAT_STATE 0).put TE_RELOC_STAT_HOOP 0).put TE_RELOC_STAT_LHOOP 0
  let s3 := (List.range 36).foldl (fun s h => if s.role h = 0 ∧ old.getD h 0 ≠ 0 then s.gateHoop h else s) s2
  let s4 := if s3.relocVa = 0 then s3
    else ((s3.pinWalk (.reloc m.gen) s3.relocTenant s3.relocVa (4096 * (s3.schedCount + 1)) false {}).1).put TE_RELOC_STAT_STATE 1
  s4.pmapRetired m ((List.range 36).filter fun h => s4.retired h && roleIn m.bytes h == 1)

/-- HOOP_RETIRE (R254). -/
def execHoopRetire (iid : Iid) (v : Word) (s : State) : Ans :=
  s.done (s.writeWith iid TE_RETIRE fun s => s.refereeOnly iid.toNat fun s => s.retire (v.toNat % 64))

/-- RELOCATION_APPLY (R258). -/
def execRelocationApply (s : State) : Ans := s.done s.relocApply

/-- RELOCATION_COMPLETE (R257). -/
def execRelocationComplete (s : State) : Ans := s.done s.relocDone

/-- CHECKPOINT (R248). -/
def execCheckpoint (k : Fin 64) (s : State) : Ans := s.done (s.checkpoint k)

/-- AVS_RESPONSE (R251). -/
def execAvsResponse (err : Bool) (status : BitVec 5) (s : State) : Ans := s.done (s.avsResponse err status.toNat)

/-- AVS_RAMP_END (R249). -/
def execAvsRampEnd (s : State) : Ans := s.done s.rampEnd

/-- GOV_PRETURN_SET (R250). -/
def execGovPreturnSet (s : State) : Ans := s.done s.preturn

/-- LAUNCH_TURN (R501). -/
def execLaunchTurn (r : Fin 10) (n : BitVec 16) (s : State) : Ans := s.done (s.launchCmd r n 0x01 State.launchTurn)

/-- ABORT_TURN (R512). -/
def execAbortTurn (r : Fin 10) (n : BitVec 16) (s : State) : Ans := s.done (s.runCmd r n (isKind 0x31 3) State.abortTurn)

end Sys2Proof.Machine
end

