-- ==== Sys2Proof/Machine/Tensor.lean ====
section
/-! DEFINITION. Tensor descriptors, the places of their elements, loads, stores, quantisation, transposition and the exponent
histogram (R234, R277-R297, R302, R303, R330, R355, R732). -/

namespace Sys2Proof.Machine

open Reg

/-! ### Accesses of a hoop -/

/-- What an access is made for: the hoop, whether it runs a turn program, the tenant, the Initiator ID, and the errors met. -/
structure Cx where
  h : Nat
  sched : Bool
  tenant : Nat
  iid : Nat
  e : MemErr
deriving DecidableEq, Repr

def State.cx (s : State) (h : Nat) (e : MemErr) : Cx :=
  match (s.hoop h).firing with
  | some f => ⟨h, false, f.graph / 64, fireIid h, e⟩
  | none => ⟨h, true, (s.eng.sched.image.map (·.tenant)).getD 0, schedIid, e⟩

/-- An access answers a value, or the code of the fault that stops it. -/
abbrev Got (α : Type) := State × Except Nat α

/-- Do `f` on each item until one stops. -/
def State.each {α : Type} (f : State → α → State × Option Nat) (s : State) : List α → State × Option Nat
  | [] => (s, none)
  | x :: r => match f s x with
    | (s1, none) => State.each f s1 r
    | (s1, some c) => (s1, some c)

/-- What a refused or poisoned access means to a hoop (R427, R457, R509): a Pool refusal and poison are faults. -/
def vresFault (r : VRes) : Option Nat :=
  match r.fault with
  | some c => some c
  | none => if r.poison then some 0x5010 else match r.refused with
    | some c => if c / 0x1000 = 7 then some c else none
    | none => none

/-- Read `n` bytes of memory (SPACE 0). A Scheduled program finds pinned mappings only (R441, R513). -/
def State.memRead (s : State) (c : Cx) (va n : Nat) : Got (List Byte) :=
  if c.sched then
    match s.pinnedRead c.iid c.tenant va n c.e with
    | (s1, none) => (s1.report 0x800C c.iid, .error 0x800C)
    | (s1, some r) => match vresFault r with
      | some x => (s1, .error x)
      | none => (s1, .ok r.bytes)
  else match s.tenantRead c.iid c.tenant va n c.e with
    | (s1, r) => match vresFault r with
      | some x => (s1, .error x)
      | none => (s1, .ok r.bytes)

/-- Write bytes of memory (SPACE 0). -/
def State.memWrite (s : State) (c : Cx) (va : Nat) (bs : List Byte) : State × Option Nat :=
  if c.sched then
    match s.pinnedWrite c.iid c.tenant va bs c.e with
    | (s1, true) => (s1, none)
    | (s1, false) => (s1.report 0x800C c.iid, some 0x800C)
  else match s.tenantWrite c.iid c.tenant va bs c.e with
    | (s1, r) => (s1, vresFault r)

/-- The bytes that SPACE 1 offsets wrap in (R290, R355). -/
def sramSize (h : Nat) : Nat := if h < 32 then 6 * 2 ^ 20 else 2 ^ 21

/-- A word of hoop h's SRAM reads uncorrectable. -/
def State.sramBad (s : State) (c : Cx) (h w : Nat) : Bool :=
  spGet (fun _ => false) (s.hoop h).sramBad w || (h == c.h && c.e.sram.contains w)

/-- The words of `n` bytes at `off` of hoop h. -/
def sramWords (h off n : Nat) : List Nat := ((List.range n).map fun i => (off + i) % sramSize h / 8).eraseDups

/-- Read `n` bytes of hoop h's SRAM (R234, R290). -/
def State.sramRead (s : State) (c : Cx) (h off n : Nat) : Got (List Byte) :=
  let ws := sramWords h off n
  if ws.any (s.sramBad c h) then (s.report 0x4008 c.iid, .error 0x4008)
  else
    let cor := if h = c.h then (ws.filter fun w => c.e.sramCe.contains w).length else 0
    let s1 := if cor = 0 then s else s.bump (TE_HOOP_STAT_ECC_COR h) cor
    (s1, .ok ((List.range n).map fun i => spGet (fun _ => 0) (s.hoop h).sram ((off + i) % sramSize h)))

/-- Write bytes of hoop h's SRAM: a whole word is corrected, a word written in part is merged (R732). -/
def State.sramWrite (s : State) (c : Cx) (h off : Nat) (bs : List Byte) : State × Option Nat :=
  let ws := sramWords h off bs.length
  let covered (w : Nat) := ((List.range bs.length).filter fun i => (off + i) % sramSize h / 8 == w).length == 8
  let x := s.hoop h
  let sram := bs.zipIdx.foldl (fun m p => spPut (fun _ => 0) m ((off + p.2) % sramSize h) p.1) x.sram
  let part := ws.filter fun w => !covered w && s.sramBad c h w
  let bad := ws.foldl (fun m w => spPut (fun _ => false) m w (part.contains w)) x.sramBad
  let s1 := s.setHoop h { x with sram := sram, sramBad := bad }
  if part.isEmpty then (s1, none) else (s1.report 0x4008 c.iid, some 0x4008)

/-- Read or write either space: `h` is the hoop, none for memory. -/
def State.spaceRead (s : State) (c : Cx) (h : Option Nat) (a n : Nat) : Got (List Byte) :=
  match h with
  | none => s.memRead c (a % 2 ^ 48) n
  | some k => s.sramRead c k a n

def State.spaceWrite (s : State) (c : Cx) (h : Option Nat) (a : Nat) (bs : List Byte) : State × Option Nat :=
  match h with
  | none => s.memWrite c (a % 2 ^ 48) bs
  | some k => s.sramWrite c k a bs

/-! ### Descriptors (R287-R289) -/

structure Desc where
  base : Nat
  code : Nat
  rank : Nat
  sram : Bool
  layout : Nat
  dim : List Nat
  stride : List Nat
  fs : Nat
  coarse : Nat
  kind : Nat
  dist : Nat
deriving DecidableEq, Repr

/-- The fields of a TD register. In SPACE 1, BASE is its bits 22:0. `stride` is indexed by dimension; `dist` holds bytes 55–63. -/
def descOf (v : BitVec 512) : Desc :=
  let u (o n : Nat) := v.toNat / 2 ^ (8 * o) % 2 ^ (8 * n)
  { base := if u 6 1 / 128 == 1 then u 0 6 % 2 ^ 23 else u 0 6, code := u 6 1 % 16, rank := u 6 1 / 16 % 8, sram := u 6 1 / 128 == 1, layout := u 7 1,
    dim := (List.range 6).map fun d => u (8 + 3 * d) 3,
    stride := 0 :: (List.range 5).map fun d => u (26 + 4 * d) 4,
    fs := u 46 4, coarse := u 50 4, kind := u 54 1, dist := u 55 9 }

/-- The descriptor read as SPACE 1, whatever its bit. -/
def Desc.inSram (d : Desc) : Desc := { d with sram := true, base := d.base % 2 ^ 23 }

def Desc.fmt (d : Desc) : Fmt := (fmtOf d.code).getD .int8

/-- DIM[k]. -/
def Desc.n (d : Desc) (k : Nat) : Nat := d.dim.getD k 1

/-- DIST_KIND as this access reads it (R291). -/
def Desc.how (d : Desc) (c : Cx) : Nat := if c.sched && d.sram then d.kind else 0

/-- LOG2_SPLIT[k] and LOG2_BLOCK[k]. -/
def Desc.split (d : Desc) (k : Nat) : Nat := d.dist / 2 ^ (8 * (k + 1)) % 256

def Desc.blockLog (d : Desc) (k : Nat) : Nat := d.dist / 2 ^ (48 + 4 * k) % 16

/-- The descriptor is not malformed in a field of its own (R297). Element values read or written through a malformed one are
free values; its address fields are then read as FORMAT INT8, LAYOUT PLAIN (log entry 22). -/
def Desc.ok (d : Desc) (c : Cx) : Bool :=
  decide (d.code < 8 ∧ d.layout < 3 ∧ 1 ≤ d.rank ∧ d.rank ≤ 6 ∧ d.base % 64 = 0) &&
    (List.range 6).all (fun k => decide (k < d.rank) || d.n k == 1) &&
    (match d.how c with
      | 0 => true
      | 1 => decide (d.rank ≤ 5)
      | 2 => (List.range 6).all (fun k => decide (d.split k ≤ 5) && d.n k % 2 ^ d.split k == 0) &&
          decide (((List.range 6).map d.split).foldl (· + ·) 0 ≤ 5)
      | _ => false)

/-- Every dimension is non-zero: an instruction over a tensor with a zero DIM moves nothing. -/
def Desc.nonEmpty (d : Desc) : Bool := d.dim.all (· != 0)

/-- The index lies inside DIM. -/
def Desc.inside (d : Desc) (i : List Nat) : Bool := (List.range 6).all fun k => decide (i.getD k 0 < d.n k)

/-- All indices over dimensions 1 to 5, dimension 1 fastest. -/
def outerIdx (dim : List Nat) : List (List Nat) :=
  (dim.drop 1).reverse.foldl (fun rs n => rs.flatMap fun r => (List.range n).map fun i => i :: r) [[]]

/-! ### Where an element lies (R288-R294) -/

/-- The tensor, shard or block that holds an element: its hoop (none for memory), its base, the base of its scales, its shape
and the element's index in it. -/
structure Spot where
  hoop : Option Nat
  base : Nat
  fsBase : Nat
  dim : List Nat
  idx : List Nat
deriving DecidableEq, Repr

/-- Mixed-radix number of coordinates, the first fastest. -/
def mixed : List Nat → List Nat → Nat
  | [], _ => 0
  | x :: xs, n :: ns => x + n * mixed xs ns
  | x :: _, [] => x

/-- Logical hoop j as a spot's hoop: none where it is not in use (R294). -/
def State.spotHoop (s : State) (j : Nat) : Option Nat := if j < s.schedCount then some (s.physical j) else none

/-- Place element `i` (R291-R294): none where it has no owner. -/
def State.locate (s : State) (c : Cx) (d : Desc) (i : List Nat) : Got (Option Spot) :=
  let six := List.range 6
  let at' (k : Nat) := i.getD k 0
  match d.how c with
  | 1 =>
    let side (k : Nat) := 2 ^ d.blockLog k
    let n := mixed (six.map fun k => at' k / side k) (six.map fun k => (d.n k + side k - 1) / side k)
    match s.memRead c (d.dist % 2 ^ 48) (n + 1) with
    | (s1, .error x) => (s1, .error x)
    | (s1, .ok tab) =>
      let o := tab.getD n 0xFF
      let j := ((tab.take n).filter (· == o)).length
      let per := ((six.drop 1).map side).foldl (· * ·) 1
      let fb := 64 * (((side 0 + 31) / 32 * per + 63) / 64)
      (s1, .ok (if o = 0xFF then none else (s1.spotHoop o.toNat).map fun h =>
        ⟨.some h, d.base + 64 * d.stride.getD d.rank 0 * j, d.base + 64 * d.fs + j * fb, six.map side, six.map fun k => at' k % side k⟩))
  | 2 =>
    let part (k : Nat) := max 1 (d.n k / 2 ^ d.split k)
    let l := mixed (six.map fun k => at' k / part k) (six.map fun k => 2 ^ d.split k)
    (s, .ok ((s.spotHoop (d.dist % 256 + l)).map fun h =>
      ⟨.some h, d.base, d.base + 64 * d.fs, six.map part, six.map fun k => at' k % part k⟩))
  | _ => (s, .ok (some ⟨if d.sram then some c.h else none, d.base, d.base + 64 * d.fs, d.dim, i⟩))

/-- The byte address of an element, and whether it is the high nibble of that byte (R269, R288). -/
def Spot.addr (p : Spot) (d : Desc) : Nat × Bool :=
  let i0 := p.idx.getD 0 0
  let i1 := p.idx.getD 1 0
  let bits := d.fmt.bits
  let hi := ((List.range 4).map fun k => p.idx.getD (k + 2) 0 * 64 * d.stride.getD (k + 2) 0).foldl (· + ·) 0
  let row := 64 * d.stride.getD 1 0
  let a := if d.layout = 1 then 1024 * bits / 8 * (i0 / 32) + row * (i1 / 32) + (32 * (i1 % 32) + i0 % 32) * bits / 8
    else if d.layout = 2 then 512 * bits / 8 * (i0 / 32) + row * (i1 / 16) + (32 * (i1 % 16) + i0 % 32) * bits / 8
    else i0 * bits / 8 + row * i1
  (p.base + a + hi, bits == 4 && i0 % 2 == 1)

/-- The byte address of an element's fine scale (R289). -/
def Spot.scaleAddr (p : Spot) : Nat :=
  let b0 := (p.dim.getD 0 1 + 31) / 32
  p.fsBase + mixed (p.idx.getD 0 0 / 32 :: p.idx.drop 1) (b0 :: p.dim.drop 1)

/-! ### Elements -/

/-- Read the bits of the element at a spot. -/
def State.spotRead (s : State) (c : Cx) (d : Desc) (p : Spot) : Got Nat :=
  let (a, high) := p.addr d
  match s.spaceRead c p.hoop a (max 1 (d.fmt.bits / 8)) with
  | (s1, .error x) => (s1, .error x)
  | (s1, .ok bs) => (s1, .ok (if d.fmt.bits = 4 then (if high then leNat bs / 16 else leNat bs % 16) else leNat bs))

/-- Write the bits of the element at a spot. -/
def State.spotWrite (s : State) (c : Cx) (d : Desc) (p : Spot) (v : Nat) : State × Option Nat :=
  let (a, high) := p.addr d
  if d.fmt.bits = 4 then
    match s.spaceRead c p.hoop a 1 with
    | (s1, .error x) => (s1, some x)
    | (s1, .ok bs) => s1.spaceWrite c p.hoop a [BitVec.ofNat 8 (setBits (leNat bs) (if high then 4 else 0) 4 v)]
  else s.spaceWrite c p.hoop a (leBytes (d.fmt.bits / 8) v)

/-- Read an element: its bits and its fine scale. Outside DIM, and without an owner, it reads as zero. -/
def State.elemRead (s : State) (c : Cx) (d : Desc) (i : List Nat) : Got (Nat × Nat) :=
  if !d.inside i then (s, .ok (0, 127))
  else if !d.ok c then (s.took, .ok (s.free % 2 ^ d.fmt.bits, 127))
  else match s.locate c d i with
    | (s1, .error x) => (s1, .error x)
    | (s1, .ok none) => (s1, .ok (0, 127))
    | (s1, .ok (some p)) => match s1.spotRead c d p with
      | (s2, .error x) => (s2, .error x)
      | (s2, .ok v) =>
        if d.fmt.short then
          match s2.spaceRead c p.hoop p.scaleAddr 1 with
          | (s3, .error x) => (s3, .error x)
          | (s3, .ok e) => (s3, .ok (v, leNat e))
        else (s2, .ok (v, 127))

/-- Write an element's bits; outside DIM, and without an owner, nothing is written. -/
def State.elemWrite (s : State) (c : Cx) (d : Desc) (i : List Nat) (v : Nat) : State × Option Nat :=
  if !d.inside i then (s, none)
  else
    let v' := if d.ok c then v else s.free
    let s0 := if d.ok c then s else s.took
    match s0.locate c d i with
    | (s1, .error x) => (s1, some x)
    | (s1, .ok none) => (s1, none)
    | (s1, .ok (some p)) => s1.spotWrite c d p v'

/-- Write the fine scale of the block that holds element `i`. -/
def State.scaleWrite (s : State) (c : Cx) (d : Desc) (i : List Nat) (e : Nat) : State × Option Nat :=
  if !d.inside i then (s, none)
  else
    let e' := if d.ok c then e else s.free
    let s0 := if d.ok c then s else s.took
    match s0.locate c d i with
    | (s1, .error x) => (s1, some x)
    | (s1, .ok none) => (s1, none)
    | (s1, .ok (some p)) => s1.spaceWrite c p.hoop p.scaleAddr [BitVec.ofNat 8 e']

/-- A value times 2^k. -/
def FVal.shift (k : Int) : FVal → FVal
  | .fin n m e => .fin n m (e + k)
  | v => v

/-- The value of an element with its fine scale, its coarse scale left out (R278, R279). -/
def elemVal (f : Fmt) (v e : Nat) : FVal :=
  if !f.short then fpDecode f v else if e = 255 then .dnan else (fpDecode f v).shift ((e : Int) - 127)

/-- An element as a Purl operation reads it: FP32 for a short format (R281), else its own bits (R331). -/
def purlBits (d : Desc) (v e : Nat) : Nat :=
  if d.fmt.short then fpMul .fp32 (fpRound .fp32 (elemVal d.fmt v e)).bits d.coarse |>.bits else v

/-! ### Quantisation and the histogram (R282-R286, R303) -/

/-- emax of R283. -/
def Fmt.emax : Fmt → Int
  | .e4m3 => 8
  | .e5m2 => 15
  | .e2m1 => 2
  | _ => 6

/-- The scale exponent x of a block (R283). -/
def blockExp (f : Fmt) (us : List FVal) : Int :=
  match us.filterMap fun u => match u with
    | .fin _ m e => if m = 0 then none else some (topExp m e)
    | _ => none with
  | [] => -127
  | t :: r => max (r.foldl max t - f.emax) (-127)

/-- The stored encoding is a subnormal of its format. -/
def isSubnormal (f : Fmt) (v : Nat) : Bool := f != .int8 && v / 2 ^ f.mb % 2 ^ f.eb == 0 && v % 2 ^ f.mb != 0

/-- The stored encoding is zero. -/
def isZeroBits (f : Fmt) (v : Nat) : Bool := if f = .int8 then v % 256 == 0 else v % 2 ^ (f.bits - 1) == 0

/-- The histogram counter of an element (R285): u, whether its conversion saturated, the stored bits, and t. -/
def histBin (f : Fmt) (u : FVal) (sat : Bool) (v : Nat) (t : FVal) : Nat :=
  if u.isNan then 66
  else if sat || (fpDecode f v).isInf then 67
  else if isZeroBits f v then 64
  else if isSubnormal f v then 65
  else match t with
    | .fin _ m e => (min (max (topExp m e + 32) 0) 63).toNat
    | _ => 63

/-- Count an element into bank b of hoop h; counters saturate (R286). A Lace Hoop has no banks (R307). -/
def State.histCount (s : State) (h b bin : Nat) : State :=
  if 32 ≤ h then s else s.modHoop h fun x =>
    let k := 68 * b + bin
    { x with r := { x.r with hist := spPut (fun _ => 0) x.r.hist k (min (spGet (fun _ => 0) x.r.hist k + 1) (2 ^ 32 - 1)) } }

/-- What a block's store takes for one element: its index, u and t. -/
structure Put where
  idx : List Nat
  u : FVal
  t : FVal
deriving DecidableEq, Repr

/-- Store a block (R282, R283): elements outside DIM are neither written nor counted; `bank` is none where nothing is
counted. -/
def State.storeBlock (s : State) (c : Cx) (d : Desc) (bank : Option Nat) (ps0 : List Put) : State × Option Nat :=
  let ps := ps0.filter fun p => d.inside p.idx
  match ps with
  | [] => (s, none)
  | p0 :: _ =>
    let x := blockExp d.fmt (ps.map (·.u))
    let (s1, stop) := if d.fmt.short then s.scaleWrite c d p0.idx (x + 127).toNat else (s, none)
    match stop with
    | some f => (s1, some f)
    | none => s1.each (fun s p =>
        let r := fpRound d.fmt (if d.fmt.short then p.u.shift (-x) else p.u)
        match s.elemWrite c d p.idx r.bits with
        | (s2, some f) => (s2, some f)
        | (s2, none) => (match bank with
          | some b => s2.histCount c.h b (histBin d.fmt p.u (r.flags.testBit 5) r.bits p.t)
          | none => s2, none)) ps

/-- Cut n elements along dimension 0 into the blocks of a descriptor: each starts at a multiple of 32 of its shard or owner
block (R279). -/
def Desc.seg (d : Desc) (c : Cx) : Nat :=
  match d.how c with
  | 1 => 2 ^ d.blockLog 0
  | 2 => max 1 (d.n 0 / 2 ^ d.split 0)
  | _ => max 1 (d.n 0)

def blocks0 (n seg : Nat) : List (List Nat) :=
  (List.range ((n + seg - 1) / seg)).flatMap fun k =>
    let len := min n (k * seg + seg) - k * seg
    (List.range ((len + 31) / 32)).map fun b => (List.range (min 32 (len - 32 * b))).map fun i => k * seg + 32 * b + i

/-- The blocks of a whole tensor, as lists of indices. -/
def Desc.blocks (d : Desc) (c : Cx) : List (List (List Nat)) :=
  (outerIdx d.dim).flatMap fun r => (blocks0 (d.n 0) (d.seg c)).map fun b => b.map fun i => i :: r

/-! ### LD.T and SHF.T (R295, R296, R330) -/

/-- Copy element bits of the source, read by `src`, into each index of the destination. -/
def State.copyBits (s : State) (c : Cx) (dd ds : Desc) (src : List Nat → List Nat) (bank : Option Nat) : State × Option Nat :=
  s.each (fun s i =>
    match s.elemRead c ds (src i) with
    | (s1, .error x) => (s1, some x)
    | (s1, .ok (v0, _)) =>
      let v := if dd.code = ds.code then v0 else s1.free
      let s2 := if dd.code = ds.code then s1 else s1.took
      match s2.elemWrite c dd i v with
      | (s3, some x) => (s3, some x)
      | (s3, none) => (match bank with
        | some b =>
          let u := fpDecode dd.fmt (v % 2 ^ dd.fmt.bits)
          s3.histCount c.h b (histBin dd.fmt u false v (exactMul u (fpDecode .fp32 ds.coarse)).1)
        | none => s3, none)) (dd.blocks c).flatten

/-- Copy the fine scales of each destination block. -/
def State.copyScales (s : State) (c : Cx) (dd ds : Desc) : State × Option Nat :=
  s.each (fun s b => match b.head? with
    | none => (s, none)
    | some i => match s.elemRead c ds i with
      | (s1, .error x) => (s1, some x)
      | (s1, .ok (_, e)) => s1.scaleWrite c dd i e) (dd.blocks c)

/-- Swap the two innermost coordinates. -/
def swap01 : List Nat → List Nat
  | a :: b :: r => b :: a :: r
  | l => l

/-- Read the values of one destination block for a requantising transposition. -/
def State.gatherBlock (s : State) (c : Cx) (ds : Desc) : List (List Nat) → Got (List Put)
  | [] => (s, .ok [])
  | i :: r => match s.elemRead c ds (swap01 i) with
    | (s1, .error x) => (s1, .error x)
    | (s1, .ok (v, e)) => match s1.gatherBlock c ds r with
      | (s2, .error x) => (s2, .error x)
      | (s2, .ok ps) =>
        let u := elemVal ds.fmt v e
        (s2, .ok (⟨i, u, if u.isNan then u else (exactMul u (fpDecode .fp32 ds.coarse)).1⟩ :: ps))

/-- The Shuttle requantises (R296). -/
def State.requantise (s : State) (c : Cx) (dd ds : Desc) (bank : Nat) : State × Option Nat :=
  s.each (fun s b => match s.gatherBlock c ds b with
    | (s1, .error x) => (s1, some x)
    | (s1, .ok ps) => s1.storeBlock c dd (some bank) ps) (dd.blocks c)

/-- A copy of a tensor, transposing where `t` is set. -/
def State.tensorCopy (s : State) (c : Cx) (dd ds : Desc) (t : Bool) (bank : Nat) : State × Option Nat :=
  if !dd.nonEmpty || !ds.nonEmpty then (s, none)
  else if t then
    if dd.fmt.short && dd.code == ds.code then s.requantise c dd ds bank
    else s.copyBits c dd ds swap01 (some bank)
  else match s.copyBits c dd ds id none with
    | (s1, some x) => (s1, some x)
    | (s1, none) => if dd.fmt.short then s1.copyScales c dd ds else (s1, none)

end Sys2Proof.Machine
end

