-- ==== Sys2Proof/Machine/Bundle.lean ====
section
/-! DEFINITION. Bundles: the outer fields and operand forms of a syllable, which bundles are illegal, how a bundle opens and
closes, and how one syllable of it executes (R305-R315, R318, R326-R343). -/

namespace Sys2Proof.Machine

open Reg

/-! ### Syllable words (R309, R326) -/

/-- OP, PRED, PNEG and the operand bits. -/
def sylOp (w : Word) : Nat := bitsOf w.toNat 26 6

def sylPred (w : Word) : Nat := bitsOf w.toNat 23 3

def sylNeg (w : Word) : Bool := w.getLsbD 22

def sylArg (w : Word) (lo n : Nat) : Nat := bitsOf w.toNat lo n

/-- A syllable word of its fields. -/
def sylWord (op : Nat) (x : Issue) (args : Nat) : Word :=
  BitVec.ofNat 32 (op * 2 ^ 26 + x.pred.val * 2 ^ 23 + (if x.pneg then 2 ^ 22 else 0) + args)

/-- Where a syllable is legal (R307, R327): on both partitions, in a turn program, or in a firing; and on which hoops. -/
inductive Part where
  | both
  | sched
  | token
deriving DecidableEq, Repr

inductive Kind where
  | any
  | dense
  | lace
deriving DecidableEq, Repr

/-- A register that a syllable writes: class (0 S, 1 V, 2 P, 3 TD) and number. -/
abbrev RegName := Nat × Nat

/-- What the tables say of an opcode: the operand bits its form uses, where and on what hoop it is legal, the fields that must
hold certain values, and the registers it writes. -/
structure Syl where
  used : List (Nat × Nat)
  part : Part := .both
  kind : Kind := .any
  ok : Word → Bool := fun _ => true
  writes : Word → List RegName := fun _ => []

/-- The destination S[d], V[d], P[pd] and TD[td] of the forms. -/
def wrS (w : Word) : List RegName := [(0, sylArg w 17 5)]

def wrV (w : Word) : List RegName := [(1, sylArg w 17 5)]

def wrP (w : Word) : List RegName := [(2, sylArg w 19 3)]

def wrTd (w : Word) : List RegName := [(3, sylArg w 16 6)]

/-- Slot 0 (R327). -/
def sylCtl (op : Nat) : Option Syl :=
  let rrr : List (Nat × Nat) := [(17, 5), (12, 5), (7, 5)]
  let prr : List (Nat × Nat) := [(19, 3), (12, 5), (7, 5)]
  match op with
  | 0x01 => some { used := rrr, writes := wrS }
  | 0x02 => some { used := rrr, writes := wrS }
  | 0x03 => some { used := rrr, writes := wrS }
  | 0x04 => some { used := rrr, writes := wrS }
  | 0x05 => some { used := rrr, writes := wrS }
  | 0x06 => some { used := rrr, writes := wrS }
  | 0x07 => some { used := rrr, writes := wrS }
  | 0x08 => some { used := rrr, writes := wrS }
  | 0x09 => some { used := rrr, writes := wrS }
  | 0x0A => some { used := [(17, 5), (0, 16)], writes := wrS }
  | 0x0B => some { used := [(17, 5), (0, 16)], writes := wrS }
  | 0x0C => some { used := [(17, 5), (0, 16)], writes := wrS }
  | 0x10 => some { used := prr, writes := wrP }
  | 0x11 => some { used := prr, writes := wrP }
  | 0x12 => some { used := prr, writes := wrP }
  | 0x13 => some { used := [(19, 3), (16, 3), (13, 3), (0, 2)], writes := wrP }
  | 0x18 => some { used := [(0, 16)] }
  | 0x19 => some { used := [(17, 5), (0, 16)], writes := wrS }
  | 0x1A => some { used := [] }
  | 0x1B => some { used := [], part := .sched }
  | 0x1C => some { used := [(0, 6)], part := .sched }
  | 0x1D => some { used := [] }
  | 0x20 => some { used := [(16, 6), (0, 14)], writes := wrTd }
  | 0x21 => some { used := [(16, 6), (8, 5)], writes := wrTd }
  | 0x22 => some { used := [(17, 5), (0, 1)], kind := .dense, writes := wrS }
  | 0x23 => some { used := [(0, 8)], kind := .dense }
  | 0x24 => some { used := [(17, 5), (0, 5)], writes := wrS }
  | _ => none

/-- Slots 1 and 2 (R330, R331, R340). -/
def sylLoad (op : Nat) : Option Syl :=
  match op with
  | 0x01 => some { used := [(16, 6), (10, 6), (9, 1), (6, 3)] }
  | 0x02 => some { used := [(16, 6), (10, 6), (9, 1), (6, 3)], ok := fun w => sylArg w 9 1 == 0 }
  | 0x03 => some { used := [(17, 5), (11, 6), (6, 5), (3, 3)], kind := .dense,
                   ok := fun w => sylArg w 3 3 == 0 && decide (sylArg w 6 5 ≤ 26), writes := wrV }
  | 0x04 => some { used := [(17, 5), (11, 6), (6, 5), (3, 3)],
                   ok := fun w => sylArg w 3 3 == 0 && decide (sylArg w 6 5 ≤ 26), writes := wrS }
  | 0x08 => some { used := [(16, 6), (11, 5), (6, 5), (1, 5), (0, 1)], part := .token, kind := .dense }
  | _ => none

/-- Slots 3 and 4 (R332-R334). -/
def sylNeedle (op : Nat) : Option Syl :=
  let nm : List (Nat × Nat) := [(19, 3), (16, 3), (10, 6), (4, 6), (0, 4)]
  match op with
  | 0x01 => some { used := nm, kind := .dense, ok := fun w => sylArg w 0 4 == 0 }
  | 0x02 => some { used := nm, kind := .dense, ok := fun w => decide (sylArg w 0 4 ≤ 13) }
  | 0x03 => some { used := [(19, 3), (0, 8)], kind := .dense }
  | _ => none

/-- Lanes of a Purl format, by its fmt field (R304, R326). -/
def purlLanes (f : Nat) : Nat := if f = 0 then 128 else if f = 3 then 64 else 256

/-- Slot 5 (R335, R336): operands b and c are used where `b` and `c` say so. -/
def sylPurl (op : Nat) : Option Syl :=
  let pv (b c : Bool) : List (Nat × Nat) :=
    [(17, 5), (12, 5), (0, 2)] ++ (if b then [(7, 5)] else []) ++ (if c then [(2, 5)] else [])
  let v (b c : Bool) : Syl := { used := pv b c, kind := .dense, writes := wrV }
  match op with
  | 0x01 => some (v true false)
  | 0x02 => some (v true false)
  | 0x03 => some (v true false)
  | 0x04 => some (v true true)
  | 0x05 => some (v true false)
  | 0x06 => some (v false false)
  | 0x07 => some (v true false)
  | 0x08 => some (v true false)
  | 0x09 => some (v false false)
  | 0x0A => some (v false false)
  | 0x0B => some (v false false)
  | 0x0C => some (v true false)
  | 0x0D => some (v true false)
  | 0x0E => some (v true false)
  | 0x0F => some (v true true)
  | 0x10 => some { v false false with ok := fun w => sylArg w 0 2 != 3 }
  | 0x11 => some (v false false)
  | 0x12 => some (v false false)
  | 0x13 => some { used := [(17, 5), (12, 5), (4, 1), (2, 2), (0, 2)], kind := .dense,
                   ok := fun w => sylArg w 2 2 != sylArg w 0 2, writes := wrV }
  | 0x14 => some { used := [(17, 5), (12, 5), (5, 7), (0, 2)], kind := .dense, ok := fun w => sylArg w 5 7 == 0, writes := wrV }
  | 0x15 => some { used := [(17, 5), (14, 3), (11, 3), (9, 2)], kind := .dense, writes := wrV }
  | 0x16 => some { used := [(17, 5), (12, 5), (5, 7), (0, 2)], kind := .dense,
                   ok := fun w => decide (sylArg w 5 7 < purlLanes (sylArg w 0 2)), writes := wrS }
  | _ => none

/-- Slot 6 (R337-R339). -/
def sylStore (op : Nat) : Option Syl :=
  let vt : List (Nat × Nat) := [(17, 5), (11, 6), (6, 5), (3, 3)]
  match op with
  | 0x01 => some { used := [(16, 6), (13, 3), (10, 3), (7, 3), (6, 1)], kind := .dense }
  | 0x02 => some { used := vt, kind := .dense, ok := fun w => decide (sylArg w 6 5 ≤ 26) }
  | 0x03 => some { used := vt, ok := fun w => sylArg w 3 3 == 0 && decide (sylArg w 6 5 ≤ 26) }
  | 0x04 => some { used := [(19, 3), (13, 6), (12, 1)], kind := .dense }
  | 0x08 => some { used := [(16, 6), (11, 5), (6, 5), (5, 1), (4, 1)], part := .token, kind := .dense }
  | _ => none

/-- Slot 7 (R341). -/
def sylSync (op : Nat) : Option Syl :=
  match op with
  | 0x01 => some { used := [(17, 5), (13, 4)], part := .sched }
  | 0x02 => some { used := [(13, 4), (0, 12)], part := .sched }
  | 0x08 => some { used := [(16, 6), (13, 3), (5, 8), (4, 1)], part := .token, ok := fun w => sylArg w 4 1 == 0 }
  | 0x09 => some { used := [(16, 6), (13, 3), (5, 8), (4, 1)], part := .token }
  | 0x0A => some { used := [(13, 3), (5, 8)], part := .token }
  | 0x10 => some { used := [(16, 6), (10, 6), (5, 5)], part := .token, kind := .lace }
  | 0x11 => some { used := [(18, 4), (13, 5)], part := .token, kind := .lace }
  | 0x12 => some { used := [], part := .token, kind := .lace }
  | _ => none

/-- The opcode table of a slot; a NOP has no entry. -/
def sylOf (slot op : Nat) : Option Syl :=
  if slot = 0 then sylCtl op else if slot ≤ 2 then sylLoad op else if slot ≤ 4 then sylNeedle op
  else if slot = 5 then sylPurl op else if slot = 6 then sylStore op else sylSync op

/-- No operand bit outside the form's fields is set (R309). -/
def argsOk (used : List (Nat × Nat)) (w : Word) : Bool :=
  (List.range 22).all fun i => !w.getLsbD i || used.any fun f => decide (f.1 ≤ i ∧ i < f.1 + f.2)

/-- The syllable of slot k is encoded, and legal on this hoop and partition. -/
def sylOk (sched lace : Bool) (k : Nat) (w : Word) : Bool :=
  if sylOp w = 0 then w.toNat % 2 ^ 22 == 0
  else match sylOf k (sylOp w) with
    | none => false
    | some y => argsOk y.used w && y.ok w &&
        (match y.part with
          | .both => true
          | .sched => sched
          | .token => !sched) &&
        (match y.kind with
          | .any => true
          | .dense => !lace
          | .lace => lace) &&
        !(lace && (k == 3 || k == 4 || k == 5))

/-- The registers that the syllable of slot k writes. -/
def sylWrites (k : Nat) (w : Word) : List RegName :=
  if sylOp w = 0 then [] else ((sylOf k (sylOp w)).map fun y => y.writes w).getD []

/-! ### Illegal bundles (R312, R318, R327, R343, R365) -/

/-- Logical hoop number of hoop h in the program, and its stream's length. -/
def State.streamOf (s : State) (h : Nat) : Nat := (s.logicalOf h).getD 32

/-- The bundles of the hoop's stream or of the firing's body. -/
def State.bundleCount (s : State) (h : Nat) : Nat :=
  match (s.hoop h).firing with
  | some f => (((s.graph? f.graph).bind fun g => g.actors[f.actor]?).map fun a => a.u 4 2).getD 0
  | none => leAt s.eng.sched.header (68 + 16 * s.streamOf h) 4

/-- The descriptors that CTL.TDLD may name. -/
def State.descCount (s : State) (h : Nat) : Nat :=
  match (s.hoop h).firing with
  | some f => (((s.graph? f.graph).bind fun g => g.actors[f.actor]?).map fun a => a.u 6 2).getD 0
  | none => leAt s.eng.sched.header 12 4

/-- A checkpoint that the hoop may report now (R318). -/
def State.ckptOk (s : State) (h k : Nat) : Bool :=
  decide (k < leAt s.eng.sched.header 3 1) && (leAt s.eng.sched.header (72 + 16 * s.streamOf h) 8).testBit k &&
    ((s.hoop h).ckpt.map fun c => decide (c < k)).getD true

/-- A field names something that the image, the header or the network does not hold. -/
def State.namesOk (s : State) (h k : Nat) (w : Word) : Bool :=
  let x := s.hoop h
  let port (ps : Firing → List Port) (idx : Option Nat) := match x.firing.bind fun f => (ps f)[sylArg w 13 3]? with
    | some p => (idx.map fun i => decide (i < p.count)).getD true
    | none => false
  if k = 0 ∧ sylOp w = 0x1C then s.ckptOk h (sylArg w 0 6)
  else if k = 0 ∧ sylOp w = 0x20 then decide (sylArg w 0 14 < s.descCount h)
  else if k = 7 ∧ sylOp w = 0x08 then port (·.ins) (some (sylArg w 5 8))
  else if k = 7 ∧ sylOp w = 0x09 then port (·.outs) (some (sylArg w 5 8))
  else if k = 7 ∧ sylOp w = 0x0A then port (·.ins) none
  else if k = 7 ∧ sylOp w = 0x11 then
    decide (sylArg w 18 4 < leAt (spGet (fun _ => {}) s.eng.lace (h - 32)).header 6 1) ||
      !s.is (TE_LACE_STAT_LOADED (h - 32))
  else true

/-- The syllable in a slot of a bundle. -/
def bundleAt (b : List Word) (k : Nat) : Word := b.getD k 0

/-- R312: the bundle is legal on hoop h. -/
def State.legal (s : State) (h : Nat) (b : List Word) : Bool :=
  let sched := (s.hoop h).firing.isNone
  let ws := (List.range 8).flatMap fun k => sylWrites k (bundleAt b k)
  (List.range 8).all (fun k => sylOk sched (decide (32 ≤ h)) k (bundleAt b k) && (sylOp (bundleAt b k) == 0 || s.namesOk h k (bundleAt b k))) &&
    decide ws.Nodup &&
    !(sylOp (bundleAt b 3) != 0 && sylOp (bundleAt b 4) != 0 && sylArg (bundleAt b 3) 19 3 == sylArg (bundleAt b 4) 19 3)

/-! ### Registers -/

/-- S[i]: S0 reads 0. -/
def HRegs.sv (r : HRegs) (i : Nat) : Word := if i = 0 then 0 else spGet (fun _ => 0) r.s i

/-- P[i]: P0 reads 1. -/
def HRegs.pv (r : HRegs) (i : Nat) : Bool := i == 0 || spGet (fun _ => false) r.p i

def HRegs.vv (r : HRegs) (i : Nat) : BitVec 4096 := spGet (fun _ => 0) r.v i

def HRegs.tdv (r : HRegs) (i : Nat) : BitVec 512 := spGet (fun _ => 0) r.td i

def HRegs.tile (r : HRegs) (n k : Nat) : Tile := spGet (fun _ => {}) r.acc (8 * n + k)

def State.modR (s : State) (h : Nat) (f : HRegs → HRegs) : State := s.modHoop h fun x => { x with r := f x.r }

/-- Writes to S0 and P0 are discarded (R305). -/
def State.setS (s : State) (h d : Nat) (v : Word) : State :=
  if d = 0 then s else s.modR h fun r => { r with s := spPut (fun _ => 0) r.s d v }

def State.setP (s : State) (h d : Nat) (v : Bool) : State :=
  if d = 0 then s else s.modR h fun r => { r with p := spPut (fun _ => false) r.p d v }

def State.setV (s : State) (h d : Nat) (v : BitVec 4096) : State := s.modR h fun r => { r with v := spPut (fun _ => 0) r.v d v }

def State.setTd (s : State) (h d : Nat) (v : BitVec 512) : State := s.modR h fun r => { r with td := spPut (fun _ => 0) r.td d v }

def State.setTile (s : State) (h n k : Nat) (t : Tile) : State :=
  s.modR h fun r => { r with acc := spPut (fun _ => {}) r.acc (8 * n + k) t }

/-- Raise Purl flags (R274, R328). -/
def State.raise (s : State) (h fl : Nat) : State :=
  s.modHoop h fun x => { x with
    raised := x.raised ||| BitVec.ofNat 6 fl, r := { x.r with flags := x.r.flags ||| BitVec.ofNat 6 fl } }

/-! ### Faults of a syllable (R509, R513) -/

/-- The restartable codes of R509. -/
def restartable (c : Nat) : Bool := [0x5001, 0x5002, 0x5003, 0x5004, 0x5021, 0x7002, 0x7006].contains c || c / 0x1000 == 6

/-- A fault, already reported, of what hoop h runs. -/
def State.hoopFault (s : State) (h code : Nat) : State :=
  if (s.hoop h).firing.isNone then s.schedFault code false
  else if restartable code then s.holdFiring h code
  else s.killFiring h code

/-- The end of an access: its fault, where it met one. -/
def State.orFault (r : State × Option Nat) (h : Nat) : State :=
  match r.2 with
  | none => r.1
  | some c => r.1.hoopFault h c

/-! ### How a bundle issues (R310-R315, R329, R347) -/

/-- The firing or program ends, waits, branches or goes on. -/
def State.closeBundle (s : State) (h : Nat) : State :=
  let x := s.hoop h
  let iid := (s.cx h {}).iid
  let next : Int := match x.leave.branch with
    | some off => (x.pc : Int) + off
    | none => (x.pc : Int) + 1
  let y : Hoop := { x with snap := none, leave := {}, stuck := [], defer := false }
  if x.leave.ends then if x.firing.isSome then s.endFiring h else s.setHoop h y.stop
  else if x.leave.waits then s.setHoop h { y with st := .waiting, pc := x.pc + 1 }
  else if next < 0 ∨ (s.bundleCount h : Int) ≤ next then ((s.setHoop h y).report 0x4010 iid).hoopFault h 0x4010
  else s.setHoop h { y with pc := next.toNat }

/-- The first syllable of a bundle takes the copy of the registers that all of it reads; an illegal bundle is a fault, and no
syllable of it takes effect. -/
def State.openBundle (s : State) (h : Nat) (b : List Word) : State :=
  if s.legal h b && decide ((s.hoop h).pc < s.bundleCount h) then
    s.modHoop h fun x => { x with snap := some x.r, leave := {}, raised := 0, stuck := [], defer := false }
  else (s.report 0x4010 (s.cx h {}).iid).hoopFault h 0x4010

/-- The syllable is in one of its slots of the bundle. -/
def inBundle (slots : List Nat) (b : List Word) (w : Word) : Bool := slots.any fun k => bundleAt b k == w

/-- What stalls a firing in which one syllable stalls on top of another: a fault that holds it comes before a wait. -/
def Stall.and (a b : Stall) : Stall :=
  match a, b with
  | .none, _ => b
  | .held _, _ => a
  | _, .held _ => b
  | _, _ => a

/-- After a syllable that came on top of stall `was`: one that stalls is kept and puts off the bundle's end, the others take
effect (R509); otherwise the bundle ends at its last syllable. -/
def State.afterSyl (s : State) (x : Issue) (w : Word) (again : Bool) (was : Stall) : State :=
  let h := x.hoop.val
  let y := s.hoop h
  if y.snap.isNone then s
  else
    let stuck := if y.stall = .none then (if again then y.stuck.erase w else y.stuck)
      else if again then y.stuck else y.stuck ++ [w]
    let z : Hoop := { y with stall := was.and y.stall, stuck := stuck, defer := y.defer || x.closes }
    let s1 := s.setHoop h z
    if stuck.isEmpty && z.defer then s1.closeBundle h else s1

/-- Execute one syllable of a bundle, its word `w` being in one of `slots`; `f` takes the registers as they stood before the
bundle (R311). A syllable whose predicate fails acts as NOP (R310). What does not fit the hoop's state does not occur
(log entry 5). -/
def State.syl (s0 : State) (x : Issue) (slots : List Nat) (w : Word) (f : HRegs → State → State) : State :=
  let h := x.hoop.val
  let y0 := s0.hoop h
  if y0.st ≠ .running ∨ inBundle slots x.bundle w = false then s0
  else if x.opens ∧ y0.snap.isSome then s0
  else
    let s := if x.opens then s0.openBundle h x.bundle else s0
    let y := s.hoop h
    match y.snap with
    | none => s
    | some r =>
      let again := y.stuck.contains w
      if again && y.stall != .none then s
      else
        let s1 := if y.stall = .none then s else s.modHoop h fun z => { z with stall := .none }
        (if r.pv x.pred != x.pneg then f r s1 else s1).afterSyl x w again y.stall

end Sys2Proof.Machine
end

