-- ==== Sys2Proof/Machine/Ctl.lean ====
section
/-! DEFINITION. The control slot: scalar arithmetic, predicates, branches, descriptors, flags, histogram banks and special
values (R315, R318, R323, R327-R329). -/

namespace Sys2Proof.Machine

open Reg

/-- A syllable of form RRR with its result. -/
def State.ctl3 (s : State) (x : Issue) (op : Nat) (d a b : Fin 32) (f : Word → Word → Word) : State :=
  s.syl x [0] (sylWord op x (d.val * 2 ^ 17 + a.val * 2 ^ 12 + b.val * 2 ^ 7)) fun r s => s.setS x.hoop d (f (r.sv a) (r.sv b))

/-- A syllable of form RI. -/
def State.ctlI (s : State) (x : Issue) (op : Nat) (d : Fin 32) (imm : BitVec 16) (f : Word → Word) : State :=
  s.syl x [0] (sylWord op x (d.val * 2 ^ 17 + imm.toNat)) fun r s => s.setS x.hoop d (f (r.sv d))

/-- A syllable of form PRR. -/
def State.ctlP (s : State) (x : Issue) (op : Nat) (pd : Fin 8) (a b : Fin 32) (f : Word → Word → Bool) : State :=
  s.syl x [0] (sylWord op x (pd.val * 2 ^ 19 + a.val * 2 ^ 12 + b.val * 2 ^ 7)) fun r s => s.setP x.hoop pd (f (r.sv a) (r.sv b))

/-- Control leaves the bundle (R311, R315). -/
def State.leaveBy (s : State) (h : Nat) (f : Leave → Leave) : State := s.modHoop h fun x => { x with leave := f x.leave }

/-- CTL.PLOG's op field (R326). -/
def plog (op : Nat) (a b : Bool) : Bool :=
  if op = 0 then a && b else if op = 1 then a || b else if op = 2 then a != b else a && !b

/-- BASE of a descriptor moved by 64 × S[a], modulo 2^48 (R327). -/
def tdAdd (v : BitVec 512) (a : Word) : BitVec 512 :=
  let base := unsign 48 ((v.toNat % 2 ^ 48 : Nat) + 64 * signed 32 a.toNat)
  BitVec.ofNat 512 (v.toNat - v.toNat % 2 ^ 48 + base)

/-- Descriptor idx of the image's or the actor's table (R316, R319). -/
def State.descVa (s : State) (h idx : Nat) : Nat :=
  match (s.hoop h).firing with
  | some f => match (s.graph? f.graph).bind fun g => g.actors[f.actor]? with
    | some a => a.va + 64 + 32 * a.u 4 2 + 64 * idx
    | none => 0
  | none => ((s.eng.sched.image.map (·.va)).getD 0) + leAt s.eng.sched.header 8 4 + 64 * idx

/-- CTL.TDLD. -/
def State.tdld (s : State) (h : Nat) (td : Fin 64) (idx : Nat) (e : MemErr) : State :=
  match s.memRead (s.cx h e) (s.descVa h idx % 2 ^ 48) 64 with
  | (s1, .error c) => s1.hoopFault h c
  | (s1, .ok bs) => s1.setTd h td (BitVec.ofNat 512 (leNat bs))

/-- The turn that the hoop works for (R328): the program's, or the turn in which the firing started. -/
def State.turnOf (s : State) (h : Nat) : Nat :=
  match (s.hoop h).firing with
  | some f => f.turn
  | none => s.eng.sched.running.getD 0

/-- The special values of R328. -/
def State.special (s : State) (h sel : Nat) : Nat :=
  let f := (s.hoop h).firing
  if sel = 0 then if f.isSome then 0xFFFFFFFF else s.streamOf h
  else if sel = 1 then h
  else if sel = 2 then s.turnOf h % 2 ^ 32
  else if sel = 3 then s.turnOf h / 2 ^ 32
  else if sel = 4 then s.turnOf h % 3
  else if sel = 5 then s.turnOf h % 2
  else if sel = 6 then (s.cx h {}).tenant
  else if sel = 7 then (f.map (·.actor)).getD 0xFFFFFFFF
  else if sel = 8 then ((f.bind fun f => ((s.graph? f.graph).bind fun g => g.actors[f.actor]?).map (·.firings)).getD 0) % 2 ^ 32
  else if sel = 9 then s.now % 2 ^ 32
  else if sel = 10 then s.now / 2 ^ 32
  else if sel = 11 then (f.map (·.gen)).getD s.eng.sched.gen
  else 0

/-- CTL.FLAGS: the word as earlier bundles left it; what this bundle raises stays (R328). -/
def State.ctlFlags (s : State) (h d : Nat) (r : HRegs) (clr : Bool) : State :=
  let s1 := if clr then s.modHoop h fun x => { x with r := { x.r with flags := x.raised } } else s
  s1.setS h d (r.flags.setWidth 32)

/-- Clear a bank of what it held before the bundle; counts of this bundle stay (R300, R348). -/
def State.bankClear (s : State) (h b : Nat) (r : HRegs) : State :=
  s.modR h fun x => { x with hist := (List.range 68).foldl (fun m i =>
    let k := 68 * b + i
    spPut (fun _ => 0) m k (spGet (fun _ => 0) x.hist k - spGet (fun _ => 0) r.hist k)) x.hist }

/-! ### The syllables -/

/-- CTL.ADD. -/
def execCtlAdd (x : Issue) (d a b : Fin 32) (s : State) : Ans := s.done (s.ctl3 x 0x01 d a b fun u v => u + v)

/-- CTL.SUB. -/
def execCtlSub (x : Issue) (d a b : Fin 32) (s : State) : Ans := s.done (s.ctl3 x 0x02 d a b fun u v => u - v)

/-- CTL.MUL. -/
def execCtlMul (x : Issue) (d a b : Fin 32) (s : State) : Ans := s.done (s.ctl3 x 0x03 d a b fun u v => u * v)

/-- CTL.AND. -/
def execCtlAnd (x : Issue) (d a b : Fin 32) (s : State) : Ans := s.done (s.ctl3 x 0x04 d a b fun u v => u &&& v)

/-- CTL.OR. -/
def execCtlOr (x : Issue) (d a b : Fin 32) (s : State) : Ans := s.done (s.ctl3 x 0x05 d a b fun u v => u ||| v)

/-- CTL.XOR. -/
def execCtlXor (x : Issue) (d a b : Fin 32) (s : State) : Ans := s.done (s.ctl3 x 0x06 d a b fun u v => u ^^^ v)

/-- CTL.SHL. -/
def execCtlShl (x : Issue) (d a b : Fin 32) (s : State) : Ans := s.done (s.ctl3 x 0x07 d a b fun u v => u <<< (v.toNat % 32))

/-- CTL.SHR. -/
def execCtlShr (x : Issue) (d a b : Fin 32) (s : State) : Ans := s.done (s.ctl3 x 0x08 d a b fun u v => u >>> (v.toNat % 32))

/-- CTL.SRA. -/
def execCtlSra (x : Issue) (d a b : Fin 32) (s : State) : Ans :=
  s.done (s.ctl3 x 0x09 d a b fun u v => u.sshiftRight (v.toNat % 32))

/-- CTL.ADDI. -/
def execCtlAddi (x : Issue) (d : Fin 32) (imm : BitVec 16) (s : State) : Ans :=
  s.done (s.ctlI x 0x0A d imm fun u => u + imm.signExtend 32)

/-- CTL.MOVI. -/
def execCtlMovi (x : Issue) (d : Fin 32) (imm : BitVec 16) (s : State) : Ans :=
  s.done (s.ctlI x 0x0B d imm fun _ => imm.signExtend 32)

/-- CTL.MOVHI. -/
def execCtlMovhi (x : Issue) (d : Fin 32) (imm : BitVec 16) (s : State) : Ans :=
  s.done (s.ctlI x 0x0C d imm fun u => imm ++ u.setWidth 16)

/-- CTL.CMP.EQ. -/
def execCtlCmpEq (x : Issue) (pd : Fin 8) (a b : Fin 32) (s : State) : Ans := s.done (s.ctlP x 0x10 pd a b fun u v => u == v)

/-- CTL.CMP.LT. -/
def execCtlCmpLt (x : Issue) (pd : Fin 8) (a b : Fin 32) (s : State) : Ans := s.done (s.ctlP x 0x11 pd a b fun u v => u.slt v)

/-- CTL.CMP.LTU. -/
def execCtlCmpLtu (x : Issue) (pd : Fin 8) (a b : Fin 32) (s : State) : Ans := s.done (s.ctlP x 0x12 pd a b fun u v => u.ult v)

/-- CTL.PLOG. -/
def execCtlPlog (x : Issue) (pd pa pb : Fin 8) (op : Fin 4) (s : State) : Ans :=
  s.done (s.syl x [0] (sylWord 0x13 x (pd.val * 2 ^ 19 + pa.val * 2 ^ 16 + pb.val * 2 ^ 13 + op.val)) fun r s =>
    s.setP x.hoop pd (plog op (r.pv pa) (r.pv pb)))

/-- CTL.BR (R315). -/
def execCtlBr (x : Issue) (off : BitVec 16) (s : State) : Ans :=
  s.done (s.syl x [0] (sylWord 0x18 x off.toNat) fun _ s => s.leaveBy x.hoop fun l => { l with branch := some off.toInt })

/-- CTL.LOOP. -/
def execCtlLoop (x : Issue) (a : Fin 32) (off : BitVec 16) (s : State) : Ans :=
  s.done (s.syl x [0] (sylWord 0x19 x (a.val * 2 ^ 17 + off.toNat)) fun r s =>
    let v := r.sv a - 1
    let s1 := s.setS x.hoop a v
    if v = 0 then s1 else s1.leaveBy x.hoop fun l => { l with branch := some off.toInt })

/-- CTL.END (R323, R347). -/
def execCtlEnd (x : Issue) (s : State) : Ans :=
  s.done (s.syl x [0] (sylWord 0x1A x 0) fun _ s => s.leaveBy x.hoop fun l => { l with ends := true })

/-- CTL.WAITTURN (R329). -/
def execCtlWaitturn (x : Issue) (s : State) : Ans :=
  s.done (s.syl x [0] (sylWord 0x1B x 0) fun _ s => s.leaveBy x.hoop fun l => { l with waits := true })

/-- CTL.CKPT: the hoop has reached checkpoint k (R248, R318). -/
def execCtlCkpt (x : Issue) (k : Fin 64) (s : State) : Ans :=
  s.done (s.syl x [0] (sylWord 0x1C x k.val) fun _ s => s.modHoop x.hoop fun y => { y with ckpt := some k.val })

/-- CTL.FENCE: every earlier transfer of the hoop has completed when its command is taken, so nothing remains to wait for. -/
def execCtlFence (x : Issue) (s : State) : Ans := s.done (s.syl x [0] (sylWord 0x1D x 0) fun _ s => s)

/-- CTL.TDLD (R327). -/
def execCtlTdld (x : Issue) (td : Fin 64) (idx : BitVec 14) (e : MemErr) (s : State) : Ans :=
  s.done (s.syl x [0] (sylWord 0x20 x (td.val * 2 ^ 16 + idx.toNat)) fun _ s => s.tdld x.hoop td idx.toNat e)

/-- CTL.TDADD (R327). -/
def execCtlTdadd (x : Issue) (td : Fin 64) (a : Fin 32) (s : State) : Ans :=
  s.done (s.syl x [0] (sylWord 0x21 x (td.val * 2 ^ 16 + a.val * 2 ^ 8)) fun r s => s.setTd x.hoop td (tdAdd (r.tdv td) (r.sv a)))

/-- CTL.FLAGS (R328). -/
def execCtlFlags (x : Issue) (d : Fin 32) (clr : Bool) (s : State) : Ans :=
  s.done (s.syl x [0] (sylWord 0x22 x (d.val * 2 ^ 17 + clr.toNat)) fun r s => s.ctlFlags x.hoop d r clr)

/-- CTL.HCLR (R327). -/
def execCtlHclr (x : Issue) (mask : BitVec 8) (s : State) : Ans :=
  s.done (s.syl x [0] (sylWord 0x23 x mask.toNat) fun r s =>
    (List.range 8).foldl (fun s b => if mask.getLsbD b then s.bankClear x.hoop b r else s) s)

/-- CTL.SREG (R328). -/
def execCtlSreg (x : Issue) (d : Fin 32) (sel : BitVec 5) (s : State) : Ans :=
  s.done (s.syl x [0] (sylWord 0x24 x (d.val * 2 ^ 17 + sel.toNat)) fun _ s =>
    s.setS x.hoop d (BitVec.ofNat 32 (s.special x.hoop sel.toNat)))

end Sys2Proof.Machine
end

