-- ==== Sys2Proof/Machine/LoadSyl.lean ====
section
/-! DEFINITION. The load slots: LD.T, SHF.T, LD.V, LD.S and KV.GATHER (R330, R331, R340, R385, R388, R390, R394, R401, R402,
R408, R410). -/

namespace Sys2Proof.Machine

open Reg

/-! ### Vectors and indices -/

/-- The lanes of w bits of a V register (R304). -/
def lanesOf (w : Nat) (v : BitVec 4096) : List Nat := (List.range (4096 / w)).map fun l => bitsOf v.toNat (w * l) w

/-- A V register of its lanes; lanes not listed are zero. -/
def packLanes (w : Nat) (ls : List Nat) : BitVec 4096 := BitVec.ofNat 4096 (ls.foldr (fun x a => x % 2 ^ w + a * 2 ^ w) 0)

/-- L of R331, and the width of its lanes. -/
def vecLen (code : Nat) : Nat := if code = 0 then 64 else if code = 2 ∨ code = 3 then 256 else 128

/-- The index in S[c] … S[c + 5]. -/
def idxAt (r : HRegs) (c : Nat) : List Nat := (List.range 6).map fun k => (r.sv (c + k)).toNat

/-- Read elements one after another: bits and scale. -/
def State.readMany (s : State) (c : Cx) (d : Desc) : List (List Nat) → Got (List (Nat × Nat))
  | [] => (s, .ok [])
  | i :: r => match s.elemRead c d i with
    | (s1, .error x) => (s1, .error x)
    | (s1, .ok v) => match s1.readMany c d r with
      | (s2, .error x) => (s2, .error x)
      | (s2, .ok vs) => (s2, .ok (v :: vs))

/-- LD.V (R331). An S[c] that is not a multiple of L leaves the vector undefined. -/
def State.ldV (s : State) (h r td c : Nat) (x : HRegs) (e : MemErr) : State :=
  let d := descOf (x.tdv td)
  let n := vecLen d.code
  let i := idxAt x c
  if i.getD 0 0 % n ≠ 0 then s.took.setV h r (BitVec.ofNat 4096 s.free)
  else match s.readMany (s.cx h e) d ((List.range n).map fun l => (i.getD 0 0 + l) :: i.drop 1) with
    | (s1, .error f) => s1.hoopFault h f
    | (s1, .ok vs) => s1.setV h r (packLanes (4096 / n) (vs.map fun v => purlBits d v.1 v.2))

/-- LD.S (R331). -/
def State.ldS (s : State) (h r td c : Nat) (x : HRegs) (e : MemErr) : State :=
  match s.elemRead (s.cx h e) (descOf (x.tdv td)) (idxAt x c) with
  | (s1, .error f) => s1.hoopFault h f
  | (s1, .ok v) => s1.setS h r (BitVec.ofNat 32 v.1)

/-! ### Sequences as a syllable sees them -/

/-- A KV syllable is refused: the tenant's Initiator ID (R411), and the firing is held (R385). -/
def State.kvRefuse (s : State) (h t code : Nat) : State := (s.report code t).holdFiring h code

/-- The sequence that a syllable names, where it is live and the tenant's own (R382). -/
def State.ownSeq (s : State) (t q : Nat) : Option Seq :=
  if s.is SK_CTL_EN then (s.seq? q).filter fun x => !x.freeing && x.tenant == t else none

/-- The entry of block b of a RING sequence's owner table (R408): owner, mirror, whether the mirror is valid. -/
def State.ringOwner (s : State) (iid : Nat) (x : Seq) (b : Nat) : Got (Nat × Nat × Bool) :=
  match s.tenantRead iid x.tenant ((x.ownerVa + 2 * b) % 2 ^ 48) 2 {} with
  | (s1, r) => match vresFault r with
    | some f => (s1, .error f)
    | none => (s1, .ok (leNat r.bytes % 8, leNat r.bytes / 16 % 8, (leNat r.bytes).testBit 7))

/-- A block that another member owns: its index, its owner, its mirror, whether the mirror is valid. -/
structure Foreign where
  block : Nat
  owner : Nat
  mirror : Nat
  valid : Bool

/-- The blocks of a range of positions that another member owns. -/
def State.foreign (s : State) (iid : Nat) (x : Seq) : List Nat → Got (List Foreign)
  | [] => (s, .ok [])
  | b :: r => match s.ringOwner iid x b with
    | (s1, .error f) => (s1, .error f)
    | (s1, .ok o) => match s1.foreign iid x r with
      | (s2, .error f) => (s2, .error f)
      | (s2, .ok bs) => (s2, .ok (if o.1 = s.svDev then bs else ⟨b, o.1, o.2.1, o.2.2⟩ :: bs))

/-- The blocks that positions p0 … p1 − 1 touch. -/
def Seq.blocksOf (x : Seq) (p0 p1 : Nat) : List Nat :=
  if x.ring ∧ p0 < p1 then (List.range ((p1 - 1) / 2 ^ x.blockLog - p0 / 2 ^ x.blockLog + 1)).map fun k => p0 / 2 ^ x.blockLog + k
  else []

/-- A block that has arrived (R409). -/
def Seq.visits (x : Seq) (b : Nat) : Bool := ((spGet (fun _ => none) x.blocks b).map (·.visiting)).getD false

/-- A position has an entry (R388, R409). -/
def Seq.holds (x : Seq) (p : Nat) : Bool :=
  decide (p < x.len) || (x.place p).isSome || (x.ring && x.visits (p / 2 ^ x.blockLog))

/-! ### Fetches of ring blocks (R410) -/

/-- A ROTATE brings block b of sequence q. -/
def State.rotates (s : State) (q b : Nat) : Bool :=
  s.track.store.any fun c => isOp 0x13 c && c.u 18 1 == 3 && c.phase == .running && c.u 16 2 == q && decide (c.u 20 4 ≤ b ∧ b < c.u 24 4)

/-- Send BLOCK_FETCH to the mirror; none where it cannot be reached. -/
def State.fetchMirror (s : State) (q : Nat) (f : Foreign) : Option State :=
  if f.valid && f.mirror != s.svDev && s.svReach f.mirror then
    some ((s.setSv fun v => { v with fetch := v.fetch ++ [(q, f.block, f.mirror, true)] }).svSend f.mirror (.blockFetch q f.block))
  else none

/-- Ask for a foreign block that is ABSENT and that nothing brings: from its owner, or its mirror; none where neither can be
reached. -/
def State.fetchBlock (s : State) (q : Nat) (x : Seq) (f : Foreign) : Option State :=
  if (spGet (fun _ => none) x.blocks f.block).isSome || s.rotates q f.block ||
      (s.sv.fetch.any fun y => y.1 == q && y.2.1 == f.block) then some s
  else if s.svReach f.owner then
    some ((s.setSv fun v => { v with fetch := v.fetch ++ [(q, f.block, f.owner, false)] }).svSend f.owner (.blockFetch q f.block))
  else s.fetchMirror q f

/-- Ask for every block of a list. -/
def State.fetchAll (s : State) (q : Nat) (x : Seq) : List Foreign → Option State
  | [] => some s
  | f :: r => (s.fetchBlock q x f).bind fun s1 => s1.fetchAll q x r

/-! ### KV.GATHER (R340) -/

/-- The bytes of the entry of position p in region r (R394): its place, its Skein, or zero. -/
def State.kvEntry (s : State) (c : Cx) (x : Seq) (r p : Nat) : State × List Byte × Option Nat :=
  let zero := List.replicate (x.entry r) (0 : Byte)
  match x.place p with
  | some pl => (s, (spGet (fun _ => []) pl.data r ++ zero).take (x.entry r), none)
  | none =>
    if !x.holds p then (s, zero, none)
    else match (x.leaf r (p * x.entry r)).bind s.skein? with
      | none => (s, zero, none)
      | some k =>
        if k.st = .lost then (s.report 0x6007 c.tenant, zero, some 0x6007)
        else match s.ownRead c.iid c.tenant (s.entryDpa x k r p) (x.entry r) c.e with
          | (s1, bs, bad) => (s1, bs, if bad then some 0x5010 else none)

/-- Element i of an entry's data part. -/
def entryElem (f : Fmt) (bs : List Byte) (i : Nat) : Nat :=
  if f.bits = 4 then leAt bs (i / 2) 1 / 16 ^ (i % 2) % 16 else leAt bs (i * f.bits / 8) (f.bits / 8)

/-- Write one position's entry as token row t. Where the formats differ, and beyond the entry's elements, the spec states no
value. -/
def State.gatherRow (s : State) (c : Cx) (d : Desc) (x : Seq) (t : Nat) (bs sc : List Byte) : State × Option Nat :=
  match s.each (fun s i =>
    if d.code = x.fmt ∧ i < x.dim then s.elemWrite c d [i, t, 0, 0, 0, 0] (entryElem d.fmt bs i)
    else s.took.elemWrite c d [i, t, 0, 0, 0, 0] s.free) (List.range (d.n 0)) with
  | (s1, some f) => (s1, some f)
  | (s1, none) =>
    if d.fmt.short then
      s1.each (fun s b => s.scaleWrite c d [32 * b, t, 0, 0, 0, 0] (leAt sc b 1)) (List.range ((d.n 0 + 31) / 32))
    else (s1, none)

/-- Copy the entries of positions p, p + 1, … as token rows. -/
def State.gatherRows (s : State) (c : Cx) (d : Desc) (x : Seq) (r p : Nat) : State × Option Nat :=
  s.each (fun s t =>
    match s.kvEntry c x r (p + t) with
    | (s1, _, some f) => (s1, some f)
    | (s1, bs, none) =>
      if x.es = 0 then s1.gatherRow c d x t bs []
      else match s1.kvEntry c x (r + 1) (p + t) with
        | (s2, _, some f) => (s2, some f)
        | (s2, sc, none) => s2.gatherRow c d x t bs sc) (List.range (d.n 1))

/-- The Skeins that the gather reads and that are away: positions with a place are read there. -/
def State.gatherAway (s : State) (x : Seq) (r p n : Nat) : List Nat :=
  ((List.range n).flatMap fun t =>
    if (x.place (p + t)).isSome || !x.holds (p + t) then []
    else ((if x.es = 0 then [r] else [r, r + 1]).filterMap fun k => x.leaf k ((p + t) * x.entry k)).filter s.away).eraseDups

/-- The next SK_CFG.AHEAD Skeins of region r above a range, where they are SPILLED (R401). -/
def State.ahead (s : State) (q r p1 : Nat) : State :=
  match s.seq? q with
  | none => s
  | some x =>
    let up := (x.leaves.filter fun y => decide (y.1 / 2 ^ 20 = r ∧ p1 * x.entry r ≤ y.1 % 2 ^ 20 * 4096)).take (s.get SK_CFG_AHEAD)
    (up.filterMap (·.2)).foldl (fun s i =>
      if ((s.skein? i).map fun y => y.st == .spilled).getD false then s.askReturn q i else s) s

/-- The sequence of a gather that issues again after it was parked: one that is FREEING waits for it to end (R397). -/
def State.parkedSeq (s : State) (t q : Nat) (again : Bool) : Option Seq :=
  if again then (s.seq? q).filter fun x => x.tenant == t else s.ownSeq t q

/-- KV.GATHER. TD[td] must be SPACE 1; where it is not, what is written is undefined. -/
def State.gather (s : State) (h : Nat) (v : BitVec 512) (q l p : Word) (pl again : Bool) (e : MemErr) : State :=
  let c := s.cx h e
  let d0 := descOf v
  let d : Desc := { d0.inSram with code := if d0.sram then d0.code else 15 }
  let n := d.n 1
  let k := q.toNat % 1024
  match s.parkedSeq c.tenant k again with
  | none => s.kvRefuse h c.tenant 0x6001
  | some x =>
    if x.streams ≤ l.toNat ∨ x.maxLen < p.toNat + n then s.kvRefuse h c.tenant 0x6003
    else match s.foreign c.iid x (x.blocksOf p.toNat (p.toNat + n)) with
      | (s1, .error f) => s1.hoopFault h f
      | (s1, .ok bs) =>
        let r := 4 * l.toNat + 2 * pl.toNat
        let miss := bs.filter fun f => !x.visits f.block
        let gone := s1.gatherAway x r p.toNat n
        if x.exhausted ∧ gone.any (s1.noReturn x.lane) then s1.kvRefuse h c.tenant 0x6002
        else if gone ≠ [] ∨ miss.isEmpty = false then
          match (gone.foldl (fun s i => s.askReturn k i) s1).fetchAll k x miss with
          | none => s1.kvRefuse h c.tenant 0x6009
          | some s2 => s2.modHoop h fun y => { y with stall := .parked k 0 gone (miss.map (·.block)) }
        else if !d.nonEmpty then s1
        else match s1.gatherRows c d x r p.toNat with
          | (s2, some f) => s2.hoopFault h f
          | (s2, none) =>
            let s3 := s2.ahead k r (p.toNat + n)
            if x.es = 0 then s3 else s3.ahead k (r + 1) (p.toNat + n)

/-! ### The syllables -/

/-- The operand bits of form VT. -/
def vtBits (r : Fin 32) (td : Fin 64) (c : Fin 32) (h : Nat) : Nat := r.val * 2 ^ 17 + td.val * 2 ^ 11 + c.val * 2 ^ 6 + h * 2 ^ 3

/-- LD.T (R330). -/
def execLdT (x : Issue) (tdd tds : Fin 64) (t : Bool) (h : Fin 8) (e : MemErr) (s : State) : Ans :=
  s.done (s.syl x [1, 2] (sylWord 0x01 x (tdd.val * 2 ^ 16 + tds.val * 2 ^ 10 + t.toNat * 2 ^ 9 + h.val * 2 ^ 6)) fun r s =>
    State.orFault (s.tensorCopy (s.cx x.hoop e) (descOf (r.tdv tdd)) (descOf (r.tdv tds)) t h) x.hoop)

/-- SHF.T (R295, R330): between Hoop SRAM tensors. -/
def execShfT (x : Issue) (tdd tds : Fin 64) (h : Fin 8) (e : MemErr) (s : State) : Ans :=
  s.done (s.syl x [1, 2] (sylWord 0x02 x (tdd.val * 2 ^ 16 + tds.val * 2 ^ 10 + h.val * 2 ^ 6)) fun r s =>
    State.orFault (s.tensorCopy (s.cx x.hoop e) (descOf (r.tdv tdd)).inSram (descOf (r.tdv tds)).inSram true h) x.hoop)

/-- LD.V (R331). -/
def execLdV (x : Issue) (r : Fin 32) (td : Fin 64) (c : Fin 32) (e : MemErr) (s : State) : Ans :=
  s.done (s.syl x [1, 2] (sylWord 0x03 x (vtBits r td c 0)) fun g s => s.ldV x.hoop r td c g e)

/-- LD.S (R331). -/
def execLdS (x : Issue) (r : Fin 32) (td : Fin 64) (c : Fin 32) (e : MemErr) (s : State) : Ans :=
  s.done (s.syl x [1, 2] (sylWord 0x04 x (vtBits r td c 0)) fun g s => s.ldS x.hoop r td c g e)

/-- KV.GATHER (R340). -/
def execKvGather (x : Issue) (td : Fin 64) (q l p : Fin 32) (pl : Bool) (e : MemErr) (s : State) : Ans :=
  let w := sylWord 0x08 x (td.val * 2 ^ 16 + q.val * 2 ^ 11 + l.val * 2 ^ 6 + p.val * 2 + pl.toNat)
  s.done (s.syl x [1, 2] w fun r s =>
    s.gather x.hoop (r.tdv td) (r.sv q) (r.sv l) (r.sv p) pl ((s.hoop x.hoop).stuck.contains w) e)

end Sys2Proof.Machine
end

