-- ==== Sys2Proof/Machine/Needle.lean ====
section
/-! DEFINITION. The Needle slots: MMA, MMA.ATT, NDL.CLR and the Checksum Witness (R233, R236, R238, R276, R280, R284, R302,
R332-R334, R403-R405). -/

namespace Sys2Proof.Machine

open Reg

/-! ### Needle arithmetic (R276) -/

/-- The NaN of a Needle: some quiet NaN where an operand is NaN, the default NaN where none is (R270). -/
def needleQuiet (a b : Nat) : Nat := 0x7FC00000 + Config.needleNan a b % 2 ^ 22 + 2 ^ 31 * (Config.needleNan a b / 2 ^ 22 % 2)

/-- Round an exact value that was formed of FP32 accumulator `acc` and operand bits `x`. -/
def needleRound (acc x : Nat) (v : FVal) (nan : Bool) : Nat :=
  if nan then needleQuiet acc x else (fpRound .fp32 v).bits

/-- Add products to the accumulator with one rounding. -/
def needleStep (acc : Nat) (ps : List (FVal × FVal)) (tag : Nat) : Nat :=
  let a := fpDecode .fp32 acc
  let nan := a.isNan || ps.any fun p => p.1.isNan || p.2.isNan
  let sum := (ps.map fun p => (exactMul p.1 p.2).1).foldl (fun x y => if x.isNan || y.isNan then .dnan else (exactAdd x y).1)
  match ps with
  | [] => acc
  | _ => needleRound acc tag (if a.isNan then .dnan else
      let s := sum (.fin true 0 0)
      if s.isNan then .dnan else (exactAdd s a).1) nan

/-- FP32 operations of a Needle's own: no flag, a NaN operand propagates. -/
def needleMul (a b : Nat) : Nat :=
  if (fpDecode .fp32 a).isNan || (fpDecode .fp32 b).isNan then needleQuiet a b else (fpMul .fp32 a b).bits

def needleAdd (a b : Nat) : Nat :=
  if (fpDecode .fp32 a).isNan || (fpDecode .fp32 b).isNan then needleQuiet a b else (fpAdd .fp32 a b).bits

/-- A Needle's operand: Hoop SRAM, BASE bits 22:0 (R333). -/
def needleDesc (v : BitVec 512) : Desc := (descOf v).inSram

/-- The operand formats that form a pair (R333). -/
def pairOk (a b : Nat) : Bool :=
  ((a == 4 || a == 5) && (b == 4 || b == 5)) || (a == b && (a == 2 || a == 3 || a == 6 || a == 7))

/-- The elements (kk, 0 … n − 1) of an operand. -/
def State.column (s : State) (c : Cx) (d : Desc) (kk n : Nat) : Got (List (Nat × Nat)) :=
  s.readMany c d ((List.range n).map fun i => [kk, i, 0, 0, 0, 0])

/-- The columns kk = 0 … of an operand. -/
def State.columns (s : State) (c : Cx) (d : Desc) (n : Nat) : List Nat → Got (List (List (Nat × Nat)))
  | [] => (s, .ok [])
  | k :: r => match s.column c d k n with
    | (s1, .error x) => (s1, .error x)
    | (s1, .ok v) => match s1.columns c d n r with
      | (s2, .error x) => (s2, .error x)
      | (s2, .ok vs) => (s2, .ok (v :: vs))

/-- Element (i, j) of a tile. -/
def Tile.at (t : Tile) (i j : Nat) : Nat := (spGet (fun _ => (0 : Word)) t.v (i + 32 * j)).toNat

/-- A tile's values from a function of row and column. -/
def tileOf (f : Nat → Nat → Nat) : Sparse Word :=
  (List.range 512).foldl (fun m k => spPut (fun _ => 0) m k (BitVec.ofNat 32 (f (k % 32) (k / 32)))) []

/-- One element of the product added to `acc`: the columns of A at row i and of B at column j, in steps of one or, in
FP4-E2M1, two products (R276). -/
def dotStep (f g : Fmt) (i j : Nat) (per : Nat) (acc : Nat) : List (List (Nat × Nat) × List (Nat × Nat)) → Nat → Nat
  | _, 0 => acc
  | [], _ => acc
  | kk, n + 1 =>
    let val (f : Fmt) (v : Nat × Nat) := elemVal f v.1 v.2
    let at' (l : List (Nat × Nat)) (i : Nat) := l.getD i (0, 127)
    dotStep f g i j per (needleStep acc ((kk.take per).map fun p => (val f (at' p.1 i), val g (at' p.2 j)))
      ((kk.take per).foldl (fun t p => t * 2 ^ 64 + (at' p.1 i).1 * 2 ^ 48 + (at' p.1 i).2 * 2 ^ 40 + (at' p.2 j).1 * 2 ^ 16 +
        (at' p.2 j).2) 0)) (kk.drop per) n

/-- A × B added to a tile's values (R333); undefined for formats that form no pair. -/
def State.product (s : State) (c : Cx) (da db : Desc) (v : Sparse Word) :
    Got (Sparse Word × List (List (Nat × Nat)) × List (List (Nat × Nat))) :=
  let n := da.n 0
  let per := if da.code = 6 then 2 else 1
  let ks := List.range n
  match s.columns c da 32 ks with
  | (s1, .error x) => (s1, .error x)
  | (s1, .ok as) => match s1.columns c db 16 ks with
    | (s2, .error x) => (s2, .error x)
    | (s2, .ok bs) =>
      let t : Tile := { v := v }
      if pairOk da.code db.code then
        (s2, .ok (tileOf fun i j => dotStep da.fmt db.fmt i j per (t.at i j) (as.zip bs) ks.length, as, bs))
      else (s2.took, .ok (tileOf fun i j => s2.free / 2 ^ (32 * (i + 32 * j)) % 2 ^ 32, as, bs))

/-! ### The Witness (R236-R238) -/

def fpFinite (b : Nat) : Bool := b / 2 ^ 23 % 256 != 255

/-- An operand's element as a number of a formula, and its magnitude. -/
def witElem (f : Fmt) (v : Nat × Nat) : Config.Rex := .f64 (fpRound .fp64 (elemVal f v.1 v.2)).bits

def witAbs (f : Fmt) (v : Nat × Nat) : Config.Rex := .f64 ((fpRound .fp64 (elemVal f v.1 v.2)).bits % 2 ^ 63)

/-- c[j], w[j] and m[j] of the Witness in its FP32 datapath: from the columns of A and of B, and column j of the tile before and
after. -/
def witSums (f g : Fmt) (as bs : List (List (Nat × Nat))) (before after : Tile) (j : Nat) : Nat × Nat × Nat :=
  let rows := List.range 32
  let per (of : Fmt → Nat × Nat → Config.Rex) := rex32 (rexSum ((as.zip bs).map fun p =>
    (rexSum (p.1.map (of f))).mul (of g (p.2.getD j (0, 127)))))
  (rex32 (rexSum (rows.map fun i => (Config.Rex.f32 (after.at i j)).sub (.f32 (before.at i j)))), per witElem, per witAbs)

/-- The ratio of column j, and whether exactly one of c[j] and w[j] is non-finite. -/
def witColumn (f g : Fmt) (as bs : List (List (Nat × Nat))) (before after : Tile) (j : Nat) : Nat × Bool :=
  let (c, w, m) := witSums f g as bs before after j
  if fpFinite c != fpFinite w then (0x7F800000, true)
  else if !fpFinite c || !fpFinite m || m % 2 ^ 31 == 0 then (0, false)
  else ((fpDiv .fp32 ((fpSub .fp32 c w).bits % 2 ^ 31) (m % 2 ^ 31)).bits, false)

/-- The greater of two non-negative FP32 numbers: their bits are ordered as they are. -/
def State.witness (s : State) (h n : Nat) (f g : Fmt) (as bs : List (List (Nat × Nat))) (before after : Tile) : State :=
  let cols := (List.range 16).map (witColumn f g as bs before after)
  let ratio := cols.foldl (fun m p => max m p.1) 0
  let flag := cols.any (·.2) || fpCmp (fpDecode .fp32 (s.reg TE_WIT_LIM).toNat) (fpDecode .fp32 ratio) < 0
  let x := s.hoop h
  let w := spGet (fun _ => {}) x.wit n
  let w' : Wit := { tiles := w.tiles + 1, flagged := w.flagged + flag.toNat, max := BitVec.ofNat 32 (max w.max.toNat ratio) }
  let said := x.witSaid || (flag && x.firing.isSome)
  let s1 := s.setHoop h { x with wit := spPut (fun _ => {}) x.wit n w', witSaid := said }
  if said && !x.witSaid then (s1.report 0x400B (s.cx h {}).iid).bump (TE_HOOP_STAT_WIT_FLAG h) else s1

/-! ### Tiles shared by syllables of one bundle (R302, R311) -/

/-- Some syllable of the bundle that executes, in one of these slots, satisfies `p`. -/
def besides (r : HRegs) (b : List Word) (slots : List Nat) (p : Word → Bool) : Bool :=
  slots.any fun k => let w := bundleAt b k
    sylOp w != 0 && r.pv (sylPred w) != sylNeg w && p w

/-- The bundle's ST.T stores tile k of Needle n and clears it. -/
def storeClears (r : HRegs) (b : List Word) (n k : Nat) : Bool :=
  besides r b [6] fun w => sylOp w == 1 && sylArg w 6 1 == 1 && sylArg w 13 3 == n && sylArg w 10 3 == k

/-- An MMA or MMA.ATT of the bundle writes tile k of Needle n. -/
def mmaWrites (r : HRegs) (b : List Word) (n k : Nat) : Bool :=
  besides r b [3, 4] fun w => (sylOp w == 1 || sylOp w == 2) && sylArg w 19 3 == n && sylArg w 16 3 == k

/-! ### MMA and MMA.ATT -/

/-- MMA (R333). -/
def State.mma (s : State) (h : Nat) (r : HRegs) (b : List Word) (n k : Nat) (va vb : BitVec 512) (e : MemErr) : State :=
  let da := needleDesc va
  let db := needleDesc vb
  let t : Tile := if storeClears r b n k then {} else r.tile n k
  match s.product (s.cx h e) da db t.v with
  | (s1, .error f) => s1.hoopFault h f
  | (s1, .ok (v, as, bs)) =>
    let f := if t.cleared then BitVec.ofNat 32 (needleMul da.coarse db.coarse) else t.f
    let t' : Tile := { v := v, f := f, cleared := false }
    (s1.setTile h n k t').witness h n da.fmt db.fmt as bs t t'

/-- The attention header's fields of head slot g (R403): BIAS_OFS, BUCKETS, EXACT, SUB, TWO_SIDED. -/
structure AttHead where
  ofs : Nat
  buckets : Nat
  exact : Nat
  sub : Nat
  two : Bool
deriving DecidableEq, Repr

def attHead (hdr : List Byte) (g : Nat) : AttHead :=
  ⟨leAt hdr (12 * g) 4, leAt hdr (12 * g + 4) 2, leAt hdr (12 * g + 6) 1, leAt hdr (12 * g + 7) 1, (leAt hdr (12 * g + 8) 1).testBit 0⟩

/-- The fields are in range (R403). -/
def AttHead.ok (a : AttHead) : Bool :=
  decide (a.ofs % 4 = 0 ∧ 1 ≤ a.buckets ∧ a.buckets ≤ 4096 ∧ a.exact ≤ 11 ∧ a.sub ≤ a.exact) && (!a.two || decide (2 * a.buckets ≤ 4096))

/-- bucket(δ) of R404. -/
def bucket (a : AttHead) (delta : Int) : Nat :=
  let d := delta.natAbs
  let m := Nat.log2 d
  let b := if d < 2 ^ a.exact then d else 2 ^ a.exact + (m - a.exact) * 2 ^ a.sub + (d / 2 ^ (m - a.sub) - 2 ^ a.sub)
  let b' := min b (a.buckets - 1)
  if delta < 0 then if a.two then a.buckets + b' else 0 else b'

/-- candidate_mask(i, dk) of R405. -/
def candidate (hdr : List Byte) (i dk : Nat) : Bool :=
  let base := leAt hdr 48 4
  decide (dk < base) || (decide (dk - base ≤ 7) && (leAt hdr (52 + i) 1).testBit (dk - base))

/-- The bias table of a head slot, as FP32 values: empty where BIAS is clear. -/
def State.biasTable (s : State) (c : Cx) (a : AttHead) (on : Bool) : Got (List Byte) :=
  if on && a.ok then s.sramRead c c.h a.ofs (4 * (if a.two then 2 * a.buckets else a.buckets)) else (s, .ok [])

/-- MMA.ATT (R334). -/
def State.mmaAtt (s : State) (h : Nat) (r : HRegs) (n k : Nat) (vq vk : BitVec 512) (g : Nat) (e : MemErr) : State :=
  let c := s.cx h e
  let dq := needleDesc vq
  let dk := needleDesc vk
  let qpos := (r.sv (16 + g)).toNat
  let kpos := (r.sv (17 + g)).toNat
  let ctl := r.sv (18 + g)
  let bias := ctl.getLsbD 2
  let causal := ctl.getLsbD 3
  let spec := ctl.getLsbD 8
  match s.product c dq dk [] with
  | (s1, .error f) => s1.hoopFault h f
  | (s1, .ok (v, as, bs)) =>
    let t : Tile := { v := v, f := 0, cleared := false }
    let s2 := s1.witness h n dq.fmt dk.fmt as bs {} t
    match (if bias || spec then s2.sramRead c h 0x4FFFC0 64 else (s2, .ok [])) with
    | (s3, .error f) => s3.hoopFault h f
    | (s3, .ok hdr) =>
      let a := attHead hdr (ctl.toNat % 4)
      match s3.biasTable c a bias with
      | (s4, .error f) => s4.hoopFault h f
      | (s4, .ok tab) =>
        let f := needleMul dq.coarse dk.coarse
        let undef := bias && !a.ok
        let score (i j : Nat) : Nat :=
          let x := needleMul (t.at i j) f
          let y := if undef then s4.free / 2 ^ (32 * (i + 32 * j)) % 2 ^ 32
            else if bias then needleAdd x (leAt tab (4 * bucket a ((qpos + i : Nat) - (kpos + j : Nat))) 4) else x
          let masked := if spec && decide (i < 8) then !candidate hdr i (kpos + j) else causal && decide (qpos + i < kpos + j)
          if masked then 0xFF800000 else y
        (if undef then s4.took else s4).setTile h n k { v := tileOf score, f := 0x3F800000, cleared := false }

/-- NDL.CLR (R332). -/
def State.ndlClr (s : State) (h n : Nat) (mask : BitVec 8) : State :=
  (List.range 8).foldl (fun s k => if mask.getLsbD k then s.setTile h n k {} else s) s

/-! ### The syllables -/

/-- MMA. -/
def execMma (x : Issue) (n k : Fin 8) (tda tdb : Fin 64) (e : MemErr) (s : State) : Ans :=
  s.done (s.syl x [3, 4] (sylWord 0x01 x (n.val * 2 ^ 19 + k.val * 2 ^ 16 + tda.val * 2 ^ 10 + tdb.val * 2 ^ 4)) fun r s =>
    s.mma x.hoop r x.bundle n k (r.tdv tda) (r.tdv tdb) e)

/-- MMA.ATT. -/
def execMmaAtt (x : Issue) (n k : Fin 8) (tdq tdk : Fin 64) (g : Fin 16) (e : MemErr) (s : State) : Ans :=
  s.done (s.syl x [3, 4] (sylWord 0x02 x (n.val * 2 ^ 19 + k.val * 2 ^ 16 + tdq.val * 2 ^ 10 + tdk.val * 2 ^ 4 + g.val)) fun r s =>
    s.mmaAtt x.hoop r n k (r.tdv tdq) (r.tdv tdk) g e)

/-- NDL.CLR. -/
def execNdlClr (x : Issue) (n : Fin 8) (mask : BitVec 8) (s : State) : Ans :=
  s.done (s.syl x [3, 4] (sylWord 0x03 x (n.val * 2 ^ 19 + mask.toNat)) fun _ s => s.ndlClr x.hoop n mask)

end Sys2Proof.Machine
end

