-- ==== Sys2Proof/Machine/Purl.lean ====
section
/-! DEFINITION. The Purl slot (R270-R275, R277, R304, R335, R336). -/

namespace Sys2Proof.Machine

/-- The format of an fmt field: 0 FP32, 1 FP16, 2 BF16, 3 FP64 (R326). -/
def purlFmt (f : Nat) : Fmt := if f = 0 then .fp32 else if f = 1 then .fp16 else if f = 2 then .bf16 else .fp64

/-- Write a vector of results and raise what they raise. -/
def State.putLanes (s : State) (h d : Nat) (f : Fmt) (rs : List FRes) : State :=
  (s.setV h d (packLanes f.bits (rs.map (·.bits)))).raise h (rs.foldl (fun m x => m ||| x.flags) 0)

/-- An arithmetic result of FP16 or BF16 saturates where it would be infinite (R275, R277): a quotient by zero and an infinite operand. -/
def saturate (f : Fmt) (x : FRes) : FRes :=
  if f.ieee then x
  else match fpDecode f x.bits with
    | .inf n => ⟨f.signBit n + f.maxFinite, x.flags ||| 32⟩
    | _ => x

/-- A syllable of form PV over lanes. -/
def State.purl (s : State) (x : Issue) (op : Nat) (d a b c : Fin 32) (fmt : Fin 4) (f : Fmt → Nat → Nat → Nat → FRes) : State :=
  s.syl x [5] (sylWord op x (d.val * 2 ^ 17 + a.val * 2 ^ 12 + b.val * 2 ^ 7 + c.val * 2 ^ 2 + fmt.val)) fun r s =>
    let g := purlFmt fmt
    let la := lanesOf g.bits (r.vv a)
    let lb := lanesOf g.bits (r.vv b)
    let lc := lanesOf g.bits (r.vv c)
    s.putLanes x.hoop d g ((List.range la.length).map fun l => f g (la.getD l 0) (lb.getD l 0) (lc.getD l 0))

/-- IEEE 754-2019 minimum and maximum: a NaN operand gives a NaN by R273, and −0 lies below +0. -/
def fpPick (f : Fmt) (a b : Nat) (less : Bool) : FRes :=
  let x := fpDecode f a
  let y := fpDecode f b
  match firstNan [x, y] with
  | some n => ⟨(fpRound f n).bits, keepFlags f (sigFlag [x, y])⟩
  | none =>
    let o := fpCmp x y
    let aLow := decide (o < 0) || (o == 0 && x.neg?)
    ⟨if aLow == less then a else b, 0⟩

/-- A comparison: all ones where it holds; a NaN operand gives zero. Equality is quiet: a signalling NaN alone is invalid; an
ordering with any NaN is invalid (IEEE 754-2019, R272). -/
def fpTest (f : Fmt) (a b : Nat) (quiet : Bool) (p : Int → Bool) : FRes :=
  let x := fpDecode f a
  let y := fpDecode f b
  if x.isNan || y.isNan then ⟨0, keepFlags f (if quiet then sigFlag [x, y] else 1)⟩
  else ⟨if p (fpCmp x y) then 2 ^ f.bits - 1 else 0, 0⟩

/-- The roots 2^(1/2), 2^(1/4), … with p fraction bits, multiplied together where the bits of `fr`, of `w` bits below the
point, say so; `r` is the last root taken. -/
def rootProduct (p fr : Nat) : Nat → Nat → Nat → Nat
  | 0, _, acc => acc
  | w + 1, r, acc =>
    let r' := isqrt (r * 2 ^ p) (p + 2) 0
    rootProduct p fr w r' (if fr.testBit w then acc * r' / 2 ^ p else acc)

/-- 2^(fr / 2^w) with 160 fraction bits. -/
def exp2Frac (fr w : Nat) : Nat := rootProduct 160 fr w (2 ^ 161) (2 ^ 160)

/-- 2^x for x = i + fr / 2^w that is no integer within range: FP16 and BF16 round it correctly; FP32 gives one of the two
neighbours, both within 1 ulp, and the spec leaves open which. -/
def exp2Near (fmt a : Nat) (i : Int) (fr w : Nat) : FRes :=
  let f := purlFmt fmt
  let m := 2 * exp2Frac fr w + (if fr = 0 then 0 else 1)
  if f.ieee then
    let pick := Config.exp2 fmt a % 2
    if 127 < i then ⟨f.maxFinite + pick, 0⟩
    else if i < -149 then ⟨pick, 0⟩
    else
      let q := f.lastBit i
      ⟨fpPack f (m / 2 ^ (q - (i - 161)).toNat) q + pick, 0⟩
  else if 127 < i then ⟨f.maxFinite, 32⟩
  else if i < -149 then ⟨0, 0⟩
  else fpRound f (.fin false m (i - 161))

/-- 2^a (R336): exact for an integer within range. An operand below 2⁻³⁰ in magnitude lies next to 1. -/
def fpExp2 (fmt : Nat) (a : Nat) : FRes :=
  let f := purlFmt fmt
  match fpDecode f a with
  | .nan n sg p => ⟨(fpRound f (.nan n false p)).bits, keepFlags f (if sg then 1 else 0)⟩
  | .inf true => ⟨0, 0⟩
  | .inf false => ⟨f.signBit false + (2 ^ f.eb - 1) * 2 ^ f.mb, 0⟩
  | .fin n m e =>
    if m ≠ 0 ∧ topExp m e < -30 then
      if f.ieee then ⟨(if n then 0x3F7FFFFF else 0x3F800000) + Config.exp2 fmt a % 2, 0⟩ else ⟨f.bias * 2 ^ f.mb, 0⟩
    else if m ≠ 0 ∧ 20 < topExp m e then exp2Near fmt a (if n then -1000 else 1000) 0 0
    else
      let w := (min e 0).natAbs
      let k : Int := scaled n m e (min e 0)
      let i := k / (2 ^ w : Nat)
      let fr := (k % (2 ^ w : Nat)).toNat
      if fr = 0 ∧ f.emin - f.mb ≤ i ∧ i ≤ 2 ^ f.eb - 2 - f.bias then ⟨(fpRound f (.fin false 1 i)).bits, 0⟩
      else exp2Near fmt a i fr w

/-- Halve a list by a lane operation until one lane remains (R336); `k` bounds the halvings. -/
def treeFold (op : Nat → Nat → FRes) : Nat → List Nat → Nat → Nat × Nat
  | 0, l, fl => (l.headD 0, fl)
  | k + 1, l, fl =>
    if l.length ≤ 1 then (l.headD 0, fl)
    else
      let n := l.length / 2
      let rs := (l.take n).zipWith op (l.drop n)
      treeFold op k (rs.map (·.bits)) (rs.foldl (fun m x => m ||| x.flags) fl)

/-- A reduction: lane 0 takes it, the other lanes are zero. -/
def State.reduce (s : State) (x : Issue) (op : Nat) (d a : Fin 32) (fmt : Fin 4) (f : Fmt → Nat → Nat → FRes) : State :=
  s.syl x [5] (sylWord op x (d.val * 2 ^ 17 + a.val * 2 ^ 12 + fmt.val)) fun r s =>
    let g := purlFmt fmt
    let (v, fl) := treeFold (f g) 8 (lanesOf g.bits (r.vv a)) 0
    (s.setV x.hoop d (packLanes g.bits [v])).raise x.hoop fl

/-- PRL.CVT (R336): a narrowing writes half h, a widening reads half h. FP64 in a 16-bit format fills half of that half; the
spec states no value for its other lanes. -/
def State.cvt (s : State) (h : Nat) (r : HRegs) (d a : Fin 32) (half : Bool) (src dst : Nat) : State :=
  let f := purlFmt src
  let g := purlFmt dst
  let la := lanesOf f.bits (r.vv a)
  let conv (l : List Nat) : List FRes := l.map fun v => saturate g (fpConvert f g v)
  let keep (rs : List FRes) : List FRes := rs.map fun x => ⟨x.bits, if f.ieee || g.ieee then x.flags else x.flags / 32 * 32⟩
  if f.bits = g.bits then s.putLanes h d g (keep (conv la))
  else if g.bits < f.bits then
    let rs := keep (conv la)
    let old := lanesOf g.bits (r.vv d)
    let n := old.length / 2
    let new' : List Nat := ((rs.map FRes.bits) ++ (List.range n).map fun l => s.free / 2 ^ (16 * l) % 2 ^ g.bits).take n
    let s1 := if rs.length < n then s.took else s
    (s1.setV h d (packLanes g.bits (if half then old.take n ++ new' else new' ++ old.drop n))).raise h
      (rs.foldl (fun m x => m ||| x.flags) 0)
  else
    let n := la.length / 2
    let part := if half then la.drop n else la.take n
    s.putLanes h d g (keep (conv (part.take (4096 / g.bits))))

/-- PRL.RDACC (R336). -/
def State.rdacc (s : State) (h : Nat) (t : Tile) (d : Nat) (q : Nat) : State :=
  s.putLanes h d .fp32 ((List.range 128).map fun l => fpMul .fp32 (t.at (l % 32) (l / 32 + 4 * q)) t.f.toNat)

/-- PRL.BCAST: the lane value of S[a] (R336). -/
def bcastBits (fmt : Nat) (v : Word) : Nat :=
  if fmt = 0 then v.toNat else if fmt = 3 then (fpConvert .fp32 .fp64 v.toNat).bits else v.toNat % 2 ^ 16

/-! ### The syllables -/

/-- PRL.ADD. -/
def execPrlAdd (x : Issue) (d a b : Fin 32) (fmt : Fin 4) (s : State) : Ans :=
  s.done (s.purl x 0x01 d a b 0 fmt fun f u v _ => saturate f (fpAdd f u v))

/-- PRL.SUB. -/
def execPrlSub (x : Issue) (d a b : Fin 32) (fmt : Fin 4) (s : State) : Ans :=
  s.done (s.purl x 0x02 d a b 0 fmt fun f u v _ => saturate f (fpSub f u v))

/-- PRL.MUL. -/
def execPrlMul (x : Issue) (d a b : Fin 32) (fmt : Fin 4) (s : State) : Ans :=
  s.done (s.purl x 0x03 d a b 0 fmt fun f u v _ => saturate f (fpMul f u v))

/-- PRL.FMA. -/
def execPrlFma (x : Issue) (d a b c : Fin 32) (fmt : Fin 4) (s : State) : Ans :=
  s.done (s.purl x 0x04 d a b c fmt fun f u v w => saturate f (fpFma f u v w))

/-- PRL.DIV. -/
def execPrlDiv (x : Issue) (d a b : Fin 32) (fmt : Fin 4) (s : State) : Ans :=
  s.done (s.purl x 0x05 d a b 0 fmt fun f u v _ => saturate f (fpDiv f u v))

/-- PRL.SQRT. -/
def execPrlSqrt (x : Issue) (d a : Fin 32) (fmt : Fin 4) (s : State) : Ans :=
  s.done (s.purl x 0x06 d a 0 0 fmt fun f u _ _ => saturate f (fpSqrt f u))

/-- PRL.MIN. -/
def execPrlMin (x : Issue) (d a b : Fin 32) (fmt : Fin 4) (s : State) : Ans :=
  s.done (s.purl x 0x07 d a b 0 fmt fun f u v _ => fpPick f u v true)

/-- PRL.MAX. -/
def execPrlMax (x : Issue) (d a b : Fin 32) (fmt : Fin 4) (s : State) : Ans :=
  s.done (s.purl x 0x08 d a b 0 fmt fun f u v _ => fpPick f u v false)

/-- A lane that moves with its sign set by `f`: a NaN by R273, else the bits alone. -/
def fpMove (f : Fmt) (a : Nat) (g : Nat → Nat) : FRes :=
  match fpDecode f a with
  | .nan n sg p => ⟨nanBits f n p, keepFlags f (if sg then 1 else 0)⟩
  | _ => ⟨g a, 0⟩

/-- PRL.ABS. -/
def execPrlAbs (x : Issue) (d a : Fin 32) (fmt : Fin 4) (s : State) : Ans :=
  s.done (s.purl x 0x09 d a 0 0 fmt fun f u _ _ => fpMove f u fun v => v % 2 ^ (f.bits - 1))

/-- PRL.NEG. -/
def execPrlNeg (x : Issue) (d a : Fin 32) (fmt : Fin 4) (s : State) : Ans :=
  s.done (s.purl x 0x0A d a 0 0 fmt fun f u _ _ => fpMove f u fun v => (v + 2 ^ (f.bits - 1)) % 2 ^ f.bits)

/-- PRL.MOV. -/
def execPrlMov (x : Issue) (d a : Fin 32) (fmt : Fin 4) (s : State) : Ans :=
  s.done (s.purl x 0x0B d a 0 0 fmt fun f u _ _ => fpMove f u id)

/-- PRL.CMP.EQ. -/
def execPrlCmpEq (x : Issue) (d a b : Fin 32) (fmt : Fin 4) (s : State) : Ans :=
  s.done (s.purl x 0x0C d a b 0 fmt fun f u v _ => fpTest f u v true (· == 0))

/-- PRL.CMP.LT. -/
def execPrlCmpLt (x : Issue) (d a b : Fin 32) (fmt : Fin 4) (s : State) : Ans :=
  s.done (s.purl x 0x0D d a b 0 fmt fun f u v _ => fpTest f u v false fun o => decide (o < 0))

/-- PRL.CMP.LE. -/
def execPrlCmpLe (x : Issue) (d a b : Fin 32) (fmt : Fin 4) (s : State) : Ans :=
  s.done (s.purl x 0x0E d a b 0 fmt fun f u v _ => fpTest f u v false fun o => decide (o ≤ 0))

/-- PRL.SEL: a lane is non-zero where some bit of it is set. -/
def execPrlSel (x : Issue) (d a b c : Fin 32) (fmt : Fin 4) (s : State) : Ans :=
  s.done (s.purl x 0x0F d a b c fmt fun _ u v w => ⟨if w = 0 then v else u, 0⟩)

/-- PRL.EXP2. -/
def execPrlExp2 (x : Issue) (d a : Fin 32) (fmt : Fin 4) (s : State) : Ans :=
  s.done (s.purl x 0x10 d a 0 0 fmt fun _ u _ _ => fpExp2 fmt u)

/-- PRL.RED.SUM. -/
def execPrlRedSum (x : Issue) (d a : Fin 32) (fmt : Fin 4) (s : State) : Ans :=
  s.done (s.reduce x 0x11 d a fmt fun f u v => saturate f (fpAdd f u v))

/-- PRL.RED.MAX. -/
def execPrlRedMax (x : Issue) (d a : Fin 32) (fmt : Fin 4) (s : State) : Ans :=
  s.done (s.reduce x 0x12 d a fmt fun f u v => fpPick f u v false)

/-- PRL.CVT. -/
def execPrlCvt (x : Issue) (d a : Fin 32) (h : Bool) (src fmt : Fin 4) (s : State) : Ans :=
  s.done (s.syl x [5] (sylWord 0x13 x (d.val * 2 ^ 17 + a.val * 2 ^ 12 + h.toNat * 2 ^ 4 + src.val * 2 ^ 2 + fmt.val)) fun r s =>
    s.cvt x.hoop r d a h src fmt)

/-- PRL.BCAST. -/
def execPrlBcast (x : Issue) (d a : Fin 32) (fmt : Fin 4) (s : State) : Ans :=
  s.done (s.syl x [5] (sylWord 0x14 x (d.val * 2 ^ 17 + a.val * 2 ^ 12 + fmt.val)) fun r s =>
    let g := purlFmt fmt
    s.setV x.hoop d (packLanes g.bits (List.replicate (4096 / g.bits) (bcastBits fmt (r.sv a)))))

/-- PRL.RDACC. -/
def execPrlRdacc (x : Issue) (d : Fin 32) (n k : Fin 8) (q : Fin 4) (s : State) : Ans :=
  s.done (s.syl x [5] (sylWord 0x15 x (d.val * 2 ^ 17 + n.val * 2 ^ 14 + k.val * 2 ^ 11 + q.val * 2 ^ 9)) fun r s =>
    s.rdacc x.hoop (r.tile n k) d q)

/-- PRL.LANE. -/
def execPrlLane (x : Issue) (d a : Fin 32) (lane : Fin 128) (fmt : Fin 4) (s : State) : Ans :=
  s.done (s.syl x [5] (sylWord 0x16 x (d.val * 2 ^ 17 + a.val * 2 ^ 12 + lane.val * 2 ^ 5 + fmt.val)) fun r s =>
    let g := purlFmt fmt
    s.setS x.hoop d (BitVec.ofNat 32 ((lanesOf g.bits (r.vv a)).getD lane 0)))

end Sys2Proof.Machine
end

