-- ==== Sys2Proof/Machine/StoreSyl.lean ====
section
/-! DEFINITION. The store slot: ST.T, ST.T.V, ST.S, ST.HIST and KV.APPEND (R282, R283, R286, R300, R302, R337-R339, R348, R350,
R385, R392, R402, R408). -/

namespace Sys2Proof.Machine

open Reg

/-! ### Values a store receives (R282) -/

/-- The element of a store: t in its own format, divided by c_out and rounded there. -/
def putOf (f : Fmt) (d : Desc) (idx : List Nat) (t : Nat) : Put :=
  let cout := if f = .fp64 then (fpConvert .fp32 .fp64 d.coarse).bits else d.coarse
  ⟨idx, fpDecode f (fpDiv f t cout).bits, fpDecode f t⟩

/-- Puts cut where a fine-scale block ends (R279). -/
def cutBlocks (seg : Nat) : List Put → List (List Put)
  | [] => []
  | p :: r =>
    let key (x : Put) := (x.idx.getD 0 0 / seg, x.idx.getD 0 0 % seg / 32)
    match cutBlocks seg r with
    | (y :: ys) :: bs => if key p = key y then (p :: y :: ys) :: bs else [p] :: (y :: ys) :: bs
    | bs => [p] :: bs

/-- Store puts that lie along dimension 0. -/
def State.storeLine (s : State) (c : Cx) (d : Desc) (bank : Nat) (ps : List Put) : State × Option Nat :=
  s.each (fun s b => s.storeBlock c d (some bank) b) (cutBlocks (d.seg c) ps)

/-- ST.T: one tile row is one line (R338). -/
def State.stT (s : State) (h : Nat) (b : List Word) (r : HRegs) (v : BitVec 512) (n k bank : Nat) (clr : Bool) (e : MemErr) : State :=
  let c := s.cx h e
  let d := descOf v
  let t := r.tile n k
  let row (j : Nat) : List Put := (List.range 32).map fun i =>
    putOf .fp32 d [i, j, 0, 0, 0, 0] (needleMul (t.at i j) t.f.toNat)
  match (if d.nonEmpty then s.each (fun s j => s.storeLine c d bank (row j)) (List.range 16) else (s, none)) with
  | (s1, some f) => s1.hoopFault h f
  | (s1, none) => if clr && !mmaWrites r b n k then s1.setTile h n k {} else s1

/-- The format in which ST.T.V reads V[r] (R338). -/
def storeFmt (code : Nat) : Fmt := if code = 0 then .fp64 else if code = 2 then .fp16 else if code = 3 then .bf16 else .fp32

/-- ST.T.V. An S[c] that is not a multiple of L leaves the stored values undefined. -/
def State.stV (s : State) (h : Nat) (x : HRegs) (r td ci bank : Nat) (e : MemErr) : State :=
  let c := s.cx h e
  let d := descOf (x.tdv td)
  let n := vecLen d.code
  let i := idxAt x ci
  let f := storeFmt d.code
  let bad := i.getD 0 0 % n != 0
  let src := if bad then lanesOf f.bits (BitVec.ofNat 4096 s.free) else lanesOf f.bits (x.vv r)
  let s0 := if bad then s.took else s
  let wide (v : Nat) : Nat := if f.ieee then v else (fpConvert f .fp32 v).bits
  let g : Fmt := if f = .fp64 then .fp64 else .fp32
  let ps := (List.range n).map fun l => putOf g d ((i.getD 0 0 + l) :: i.drop 1) (wide (src.getD l 0))
  if !d.nonEmpty then s0 else State.orFault (s0.storeLine c d bank ps) h

/-- ST.S: the upper half of an FP64 element is not stated. -/
def State.stS (s : State) (h : Nat) (x : HRegs) (r td c : Nat) (e : MemErr) : State :=
  let d := descOf (x.tdv td)
  let v := (x.sv r).toNat
  if d.code = 0 then State.orFault (s.took.elemWrite (s.cx h e) d (idxAt x c) (v + s.free % 2 ^ 32 * 2 ^ 32)) h
  else State.orFault (s.elemWrite (s.cx h e) d (idxAt x c) (v % 2 ^ d.fmt.bits)) h

/-- A bank as its 272-byte block (R286). -/
def histBytes (r : HRegs) (b : Nat) : List Byte :=
  (List.range 68).flatMap fun i => leBytes 4 (spGet (fun _ => 0) r.hist (68 * b + i))

/-- ST.HIST (R337, R348). -/
def State.stHist (s : State) (h : Nat) (r : HRegs) (b : Nat) (v : BitVec 512) (clr : Bool) (e : MemErr) : State :=
  let d := descOf v
  match s.spaceWrite (s.cx h e) (if d.sram then some h else none) d.base (histBytes r b) with
  | (s1, some f) => s1.hoopFault h f
  | (s1, none) => if clr then s1.bankClear h b r else s1

/-! ### KV.APPEND (R339) -/

/-- Elements of w bits one after another, as bytes; two to a byte in FP4-E2M1 (R269). -/
def packBytes (w : Nat) (vs : List Nat) (n : Nat) : List Byte :=
  leBytes n (vs.foldr (fun v a => v % 2 ^ w + a * 2 ^ w) 0)

/-- Put an entry into the place of position p. -/
def State.putEntry (s : State) (q p r : Nat) (bs : List Byte) : State :=
  match s.seq? q with
  | none => s
  | some x => match x.place p with
    | none => s
    | some pl => s.setSeq q (some { x with
        places := spPut (fun _ => none) x.places (p % 32) (some { pl with data := spPut (fun _ => []) pl.data r bs }) })

/-- Write token t of TD[td] into region r of position p: undefined where format or length differ from the stream's. -/
def State.appendRow (s : State) (c : Cx) (d : Desc) (x : Seq) (q r p t : Nat) : State × Option Nat :=
  if d.code ≠ x.fmt ∨ d.n 0 ≠ x.dim then
    let s1 := s.took.putEntry q p r (leBytes x.ed s.free)
    (if x.es = 0 then s1 else s1.took.putEntry q p (r + 1) (leBytes x.es s1.free), none)
  else match s.readMany c d ((List.range x.dim).map fun i => [i, t, 0, 0, 0, 0]) with
    | (s1, .error f) => (s1, some f)
    | (s1, .ok vs) =>
      let s2 := s1.putEntry q p r (packBytes d.fmt.bits (vs.map (·.1)) x.ed)
      let sc := (List.range ((x.dim + 31) / 32)).map fun b => ((vs.getD (32 * b) (0, 127)).2)
      (if x.es = 0 then s2 else s2.putEntry q p (r + 1) (packBytes 8 sc x.es), none)

/-- Allocate the places that positions p … p + n − 1 lack, zeroed (R391, R392). -/
def Seq.alloc (x : Seq) (p n : Nat) : Seq :=
  (List.range n).foldl (fun x t =>
    if (x.place (p + t)).isSome then x
    else { x with places := spPut (fun _ => none) x.places ((p + t) % 32) (some { pos := p + t }) }) x

/-- A commit: the length is set, places below it are COMMITTED and the others are discarded (R392). -/
def Seq.commit (x : Seq) (len : Nat) : Seq :=
  { x with len := len, places := x.places.filterMap fun y => match y.2 with
      | some pl => if pl.pos < len then some (y.1, some { pl with committed := true }) else none
      | none => none }

/-- KV.APPEND. -/
def State.append (s : State) (h : Nat) (v : BitVec 512) (qw lw : Word) (pl cm : Bool) (e : MemErr) : State :=
  let c := s.cx h e
  let d := descOf v
  let q := qw.toNat % 1024
  let n := min (d.n 1) 32
  match s.ownSeq c.tenant q with
  | none => s.kvRefuse h c.tenant 0x6001
  | some x =>
    if x.streams ≤ lw.toNat ∨ x.maxLen < x.len + n then s.kvRefuse h c.tenant 0x6003
    else match s.foreign c.iid x (x.blocksOf x.len (x.len + n)) with
      | (s1, .error f) => s1.hoopFault h f
      | (s1, .ok bs) =>
        let need := ((List.range n).filter fun t => (x.place (x.len + t)).isNone).length
        if !bs.isEmpty then s1.kvRefuse h c.tenant 0x6003
        else if 32 < need + x.used then
          if x.exhausted then s1.kvRefuse h c.tenant 0x6002
          else s1.modHoop h fun y => { y with stall := .parked q need [] [] }
        else
          let r := 4 * lw.toNat + 2 * pl.toNat
          let s2 := s1.setSeq q (some (x.alloc x.len n))
          match (if d.nonEmpty then s2.each (fun s t => s.appendRow c d x q r (x.len + t) t) (List.range n) else (s2, none)) with
          | (s3, some f) => s3.hoopFault h f
          | (s3, none) =>
            if cm then match s3.seq? q with
              | some y => s3.setSeq q (some (y.commit (x.len + n)))
              | none => s3
            else s3

/-! ### The syllables -/

/-- ST.T (R338). -/
def execStT (x : Issue) (tdd : Fin 64) (n k h : Fin 8) (clr : Bool) (e : MemErr) (s : State) : Ans :=
  s.done (s.syl x [6] (sylWord 0x01 x (tdd.val * 2 ^ 16 + n.val * 2 ^ 13 + k.val * 2 ^ 10 + h.val * 2 ^ 7 + clr.toNat * 2 ^ 6)) fun r s =>
    s.stT x.hoop x.bundle r (r.tdv tdd) n k h clr e)

/-- ST.T.V (R338). -/
def execStTV (x : Issue) (r : Fin 32) (td : Fin 64) (c : Fin 32) (h : Fin 8) (e : MemErr) (s : State) : Ans :=
  s.done (s.syl x [6] (sylWord 0x02 x (vtBits r td c h)) fun g s => s.stV x.hoop g r td c h e)

/-- ST.S (R337). -/
def execStS (x : Issue) (r : Fin 32) (td : Fin 64) (c : Fin 32) (e : MemErr) (s : State) : Ans :=
  s.done (s.syl x [6] (sylWord 0x03 x (vtBits r td c 0)) fun g s => s.stS x.hoop g r td c e)

/-- ST.HIST (R337). -/
def execStHist (x : Issue) (h : Fin 8) (td : Fin 64) (clr : Bool) (e : MemErr) (s : State) : Ans :=
  s.done (s.syl x [6] (sylWord 0x04 x (h.val * 2 ^ 19 + td.val * 2 ^ 13 + clr.toNat * 2 ^ 12)) fun r s =>
    s.stHist x.hoop r h (r.tdv td) clr e)

/-- KV.APPEND (R339). -/
def execKvAppend (x : Issue) (td : Fin 64) (q l : Fin 32) (pl cm : Bool) (e : MemErr) (s : State) : Ans :=
  s.done (s.syl x [6] (sylWord 0x08 x (td.val * 2 ^ 16 + q.val * 2 ^ 11 + l.val * 2 ^ 6 + pl.toNat * 2 ^ 5 + cm.toNat * 2 ^ 4)) fun r s =>
    s.append x.hoop (r.tdv td) (r.sv q) (r.sv l) pl cm e)

end Sys2Proof.Machine
end

