-- ==== Sys2Proof/Machine/Sync.lean ====
section
/-! DEFINITION. The sync/token slot but for the Lace syllables: sync counters and token copies (R305, R314, R317, R341-R343,
R346). -/

namespace Sys2Proof.Machine

/-! ### Sync counters -/

/-- SYNC.SIG: a signal to a logical hoop that is not in use is discarded (R317). -/
def State.syncSig (s : State) (lh c : Nat) : State :=
  if lh < s.schedCount then
    s.modR (s.physical lh) fun r => { r with c := spPut (fun _ => 0) r.c c (min (spGet (fun _ => 0) r.c c + 1) 65535) }
  else s

def State.syncTake (s : State) (h c v : Nat) : State :=
  s.modR h fun r => { r with c := spPut (fun _ => 0) r.c c (spGet (fun _ => 0) r.c c - v) }

/-- The registers that a syllable of this bundle reads. -/
def State.bundleRegs (s : State) (h : Nat) : HRegs := (s.hoop h).snap.getD (s.hoop h).r

/-- SYNC.WAIT still waits: it would execute, and its counter is below v. -/
def State.syncHeld (s : State) (x : Issue) (c v : Nat) : Bool :=
  let r := s.bundleRegs x.hoop
  r.pv x.pred != x.pneg && decide (spGet (fun _ => 0) (s.hoop x.hoop).r.c c < v) &&
    (!x.opens || s.legal x.hoop x.bundle)

/-! ### Tokens -/

/-- Change an input or an output of the firing on hoop h. -/
def State.modIn (s : State) (h ch : Nat) (f : Port → Port) : State :=
  s.modHoop h fun x => { x with firing := x.firing.map fun y => match y.ins[ch]? with
    | some p => { y with ins := listSet y.ins ch (f p) }
    | none => y }

def State.modOut (s : State) (h ch : Nat) (f : Port → Port) : State :=
  s.modHoop h fun x => { x with firing := x.firing.map fun y => match y.outs[ch]? with
    | some p => { y with outs := listSet y.outs ch (f p) }
    | none => y }

/-- The channel of a port of the firing on hoop h. -/
def State.portChan (s : State) (h : Nat) (p : Port) : Option Chan :=
  (s.hoop h).firing.bind fun f => (s.graph? f.graph).bind fun g => g.chans[p.ch]?

/-- Copy `n` bytes between a token place and TD[td].BASE; `out` says which way. -/
def State.tokCopy (s : State) (h : Nat) (d : Desc) (va n : Nat) (out : Bool) (e : MemErr) : State × Option Nat :=
  let c := s.cx h e
  let sp := if d.sram then some h else none
  if out then match s.spaceRead c sp d.base n with
    | (s1, .error f) => (s1, some f)
    | (s1, .ok bs) => s1.memWrite c va bs
  else match s.memRead c va n with
    | (s1, .error f) => (s1, some f)
    | (s1, .ok bs) => s1.spaceWrite c sp d.base bs

/-- TOK.RECV (R343). -/
def State.tokRecv (s : State) (h ch idx : Nat) (v : BitVec 512) (e : MemErr) : State :=
  match (s.hoop h).firing.bind fun f => f.ins[ch]? with
  | none => s
  | some p => match s.portChan h p with
    | none => s
    | some c => State.orFault (s.tokCopy h (descOf v) (c.slot (p.first + idx)) c.bytes false e) h

/-- Publish the tokens of an output up to index `upto`; one that was not sent has undefined contents (R343). -/
def State.publish (s : State) (h ch upto : Nat) (e : MemErr) : State :=
  match (s.hoop h).firing.bind fun f => f.outs[ch]? with
  | none => s
  | some p => match s.portChan h p, (s.hoop h).firing with
    | some c, some f =>
      let open' := (List.range upto).filter fun t => decide (p.gone ≤ t) && !p.sent.contains t
      let s1 := open'.foldl (fun s t => match s.took.memWrite (s.cx h e) (c.slot (p.first + t)) (leBytes c.bytes s.free) with
        | (s1, none) => s1
        | (_, some _) => s) s
      let n := upto - p.gone
      let s2 := s1.modOut h ch fun p => { p with gone := p.gone + n }
      match s2.graph? f.graph with
      | some g => s2.putGraph f.graph (g.modChan p.ch fun c => { c with pub := c.pub + n, res := c.res - n })
      | none => s2
    | _, _ => s

/-- TOK.SEND (R343). -/
def State.tokSend (s : State) (h ch idx : Nat) (v : BitVec 512) (pub : Bool) (e : MemErr) : State :=
  match (s.hoop h).firing.bind fun f => f.outs[ch]? with
  | none => s
  | some p => match s.portChan h p with
    | none => s
    | some c => match s.tokCopy h (descOf v) (c.slot (p.first + idx)) c.bytes true e with
      | (s1, some f) => s1.hoopFault h f
      | (s1, none) =>
        let s2 := s1.modOut h ch fun p => { p with sent := idx :: p.sent.filter (· != idx) }
        if pub then s2.publish h ch (idx + 1) e else s2

/-- TOK.CREDIT (R343). -/
def State.tokCredit (s : State) (h ch n : Nat) : State :=
  match (s.hoop h).firing with
  | none => s
  | some f => match f.ins[ch]? with
    | none => s
    | some p =>
      if p.count - p.gone < n then (s.report 0x4012 (fireIid h)).killFiring h 0x4012
      else
        let s1 := s.modIn h ch fun p => { p with gone := p.gone + n }
        match s1.graph? f.graph with
        | some g => s1.putGraph f.graph (g.modChan p.ch fun c => { c with rel := c.rel + n })
        | none => s1

/-! ### The syllables -/

/-- SYNC.SIG. -/
def execSyncSig (x : Issue) (lh : Fin 32) (c : Fin 16) (s : State) : Ans :=
  s.done (s.syl x [7] (sylWord 0x01 x (lh.val * 2 ^ 17 + c.val * 2 ^ 13)) fun _ s => s.syncSig lh c)

/-- SYNC.WAIT: while it waits, nothing happens. -/
def execSyncWait (x : Issue) (c : Fin 16) (v : BitVec 12) (s : State) : Ans :=
  s.done (if s.syncHeld x c v.toNat then s
    else s.syl x [7] (sylWord 0x02 x (c.val * 2 ^ 13 + v.toNat)) fun _ s => s.syncTake x.hoop c v.toNat)

/-- The operand bits of form TK. -/
def tkBits (td : Fin 64) (ch : Fin 8) (idx : BitVec 8) (pub : Bool) : Nat :=
  td.val * 2 ^ 16 + ch.val * 2 ^ 13 + idx.toNat * 2 ^ 5 + pub.toNat * 2 ^ 4

/-- TOK.RECV. -/
def execTokRecv (x : Issue) (td : Fin 64) (ch : Fin 8) (idx : BitVec 8) (e : MemErr) (s : State) : Ans :=
  s.done (s.syl x [7] (sylWord 0x08 x (tkBits td ch idx false)) fun r s => s.tokRecv x.hoop ch idx.toNat (r.tdv td) e)

/-- TOK.SEND. -/
def execTokSend (x : Issue) (td : Fin 64) (ch : Fin 8) (idx : BitVec 8) (pub : Bool) (e : MemErr) (s : State) : Ans :=
  s.done (s.syl x [7] (sylWord 0x09 x (tkBits td ch idx pub)) fun r s => s.tokSend x.hoop ch idx.toNat (r.tdv td) pub e)

/-- TOK.CREDIT. -/
def execTokCredit (x : Issue) (ch : Fin 8) (n : BitVec 8) (s : State) : Ans :=
  s.done (s.syl x [7] (sylWord 0x0A x (ch.val * 2 ^ 13 + n.toNat * 2 ^ 5)) fun _ s => s.tokCredit x.hoop ch n.toNat)

end Sys2Proof.Machine
end

