-- ==== Sys2Proof/Machine/Lace.lean ====
section
/-! DEFINITION. The Lace Hoops: network load and save, events, time steps, learning rules and commits (R353-R381). -/

namespace Sys2Proof.Machine

open Reg

def State.lace (s : State) (l : Nat) : Lace := spGet (fun _ => {}) s.eng.lace l

def State.setLace (s : State) (l : Nat) (x : Lace) : State := s.setEng fun e => { e with lace := spPut (fun _ => {}) e.lace l x }

/-! ### The network image (R359) -/

def Lace.u (x : Lace) (o n : Nat) : Nat := leAt x.header o n

def Lace.i (x : Lace) (o n : Nat) : Int := signed (8 * n) (x.u o n)

/-- Class k's fields: THR, RESET, VMIN, LEAK, REFR, WEXP, YINC, YDEC at these offsets of its entry. -/
def Lace.cls (x : Lace) (k o : Nat) : Nat := x.u (64 + 16 * k + o) 1

def Lace.clsI (x : Lace) (k o : Nat) : Int := x.i (64 + 16 * k + o) 2

/-- A 16-bit array of the image, without its zeros. -/
def words16 (i : Nat) : List Byte → Sparse (BitVec 16)
  | a :: b :: r => let w : BitVec 16 := b ++ a
    if w = 0 then words16 (i + 1) r else (i, w) :: words16 (i + 1) r
  | _ => []

def Lace.nrn (x : Lace) (n : Nat) : BitVec 16 := spGet (fun _ => 0) x.neuron n

def Lace.rt (x : Lace) (a : Nat) : BitVec 16 := spGet (fun _ => 0) x.route a

def Lace.sy (x : Lace) (i : Nat) : BitVec 16 := spGet (fun _ => 0) x.syn i

/-- The class of neuron n, and whether it is an output. -/
def Lace.classOf (x : Lace) (n : Nat) : Nat := (x.nrn n).toNat % 16

def Lace.isOut (x : Lace) (n : Nat) : Bool := (x.nrn n).getLsbD 15

/-- The fields of a synapse word: weight, delay, PRESENT, PLASTIC. -/
def synW (w : BitVec 16) : Int := signed 8 w.toNat

def synD (w : BitVec 16) : Nat := bitsOf w.toNat 8 6

def synOn (w : BitVec 16) : Bool := w.getLsbD 14

def synPlastic (w : BitVec 16) : Bool := w.getLsbD 15

/-- The neuron and the axon (256c + a) of synapse i (R353). -/
def synNeuron (i : Nat) : Nat := i / 65536 * 256 + i % 256

def synAxon (i : Nat) : Nat := i / 256

/-- Rule r: its entry begins here. -/
def ruleAt (r : Nat) : Nat := 320 + 32 * r

/-- A rule entry in range (R365, R366). -/
def Lace.ruleOk (x : Lace) (r : Nat) : Bool :=
  let u (o : Nat) := x.u (ruleAt r + o) 1
  let half (o : Nat) := decide (1 ≤ u o ∧ u o ≤ 63)
  match u 0 with
  | 0 => decide (u 1 ≤ 31) && (List.range 4).all fun t =>
      let f1 := u (4 + 4 * t)
      let f2 := u (5 + 4 * t)
      decide (f1 ≤ 6 ∧ f2 ≤ 6) && (x.u (ruleAt r + 6 + 4 * t) 2 == 0 || f1 == 3 || f1 == 4 || f2 == 3 || f2 == 4)
  | 1 => half 8 && half 9 && decide (u 10 ≤ 63)
  | 2 => decide (u 10 ≤ 63 ∧ u 11 ≤ 63)
  | _ => false

/-- Every field of the header is in its range (R357, R359). -/
def Lace.ok (x : Lace) : Bool :=
  x.u 0 2 == 1 && decide (1 ≤ x.u 3 1 ∧ x.u 3 1 ≤ 7 ∧ x.i 4 1 ≤ x.i 5 1 ∧ x.u 6 1 ≤ 8) &&
    (List.range 16).all (fun k => decide (x.cls k 6 ≤ 15 ∧ x.cls k 8 ≤ 7 ∧ 1 ≤ x.cls k 10 ∧ x.cls k 10 ≤ 7)) &&
    (List.range (x.u 6 1)).all x.ruleOk

/-- Bytes of the image. -/
def laceImage : Nat := 8458240

/-- The network of an image. -/
def laceOf (b : List Byte) : Lace :=
  { header := b.take 576, neuron := words16 0 ((b.drop 4096).take 32768), route := words16 0 ((b.drop 36864).take 32768),
    syn := words16 0 (b.drop 69632) }

/-! ### Commits (R369, R370) -/

/-- The weight and delay of a synapse after a delta. -/
def Lace.applied (x : Lace) (mode : Bool) (w : BitVec 16) (d : Int × Int) : BitVec 16 :=
  let nw := min (max (synW w + d.1) (x.i 4 1)) (x.i 5 1)
  let nd := if mode then min (max ((synD w : Int) + d.2) 0) 63 else synD w
  BitVec.ofNat 16 (setBits (setBits w.toNat 0 8 (unsign 8 nw)) 8 6 nd.toNat)

/-- The armed action takes effect and its command completes. -/
def State.laceApply (s : State) (l : Nat) : State :=
  let x := s.lace l
  match x.armed with
  | none => s
  | some (act, req, csn) =>
    let n := if act = 0 then x.deltas.length else 0
    let syn := if act = 0 then
        x.deltas.foldl (fun m p => spPut (fun _ => 0) m p.1 (x.applied (s.is (TE_LACE_CTL_MODE l)) (x.sy p.1) p.2)) x.syn
      else x.syn
    let s1 := (s.setLace l { x with syn := syn, deltas := [], armed := none }).putB (TE_LACE_STAT_COMMIT_ARMED l) false
    let s2 := if act = 0 then s1.setReg (TE_LACE_GEN l) (s1.reg (TE_LACE_GEN l) + 1) else s1
    match s2.cmd? req csn with
    | some c => s2.complete c 0 n
    | none => s2

/-- No firing runs on Lace Hoop l. -/
def State.laceIdle (s : State) (l : Nat) : Bool := (s.hoop (32 + l)).firing.isNone

/-- LACE_COMMIT (R369): the hoop is armed. -/
def State.laceArm (c : TkCmd) (s : State) : State :=
  let l := c.u 16 1
  ((s.startCmd c).setLace l { s.lace l with armed := some (c.u 17 1, c.req, c.csn) }).putB (TE_LACE_STAT_COMMIT_ARMED l) true

/-! ### Load and save (R357, R373, R378) -/

/-- The Initiator ID of Lace Hoop l. -/
def laceIid (l : Nat) : Nat := 12 + l

def State.laceTenant (s : State) (l : Nat) : Nat := s.get (TE_LACE_CTL_TENANT l)

def State.laceNet (s : State) (l : Nat) : Nat := s.pair (TE_LACE_NET_LO l) % 2 ^ 48

/-- TNOW at a load: Device Time in whole µs, rounded down to a multiple of DT. -/
def State.laceClock (s : State) (l : Nat) : Nat :=
  let dt := max (s.reg (TE_LACE_DT l)).toNat 1
  s.now / 1000 / dt * dt

/-- LACE_LOAD_RUN. An image that cannot be read whole fails like one whose CRC does not match. -/
def State.laceLoadRun (s0 : State) (l : Nat) : State :=
  if !s0.is (TE_LACE_CTL_LOAD l) || !s0.laceIdle l then s0
  else
    let s := s0.laceApply l
    match s.tenantRead (laceIid l) (s.laceTenant l) (s.laceNet l) laceImage {} with
    | (s1, r) =>
      let good := r.fault.isNone && !r.poison && decide (crc32c (r.bytes.drop 64) = BitVec.ofNat 32 (leAt r.bytes 8 4)) &&
        (laceOf r.bytes).ok
      let x := s1.lace l
      let base : Lace := if good then laceOf r.bytes else {}
      let s2 := s1.setLace l { base with queue := x.queue, dropped := x.dropped }
      let s3 := ((s2.setReg (TE_LACE_TNOW l) (BitVec.ofNat 32 (s2.laceClock l))).setReg (TE_LACE_GEN l) 0).putB (TE_LACE_STAT_LOADED l) good
      (if good then s3 else s3.putB (TE_LACE_STAT_LOAD_ERR l) true).putB (TE_LACE_CTL_LOAD l) false

/-- LACE_SAVE_RUN. A fault ends the save. -/
def State.laceSaveRun (s0 : State) (l : Nat) : State :=
  if !s0.is (TE_LACE_CTL_SAVE l) || !s0.laceIdle l then s0
  else
    let s := s0.laceApply l
    let x := s.lace l
    let t := s.laceTenant l
    let va := s.laceNet l
    let done (s : State) := s.putB (TE_LACE_CTL_SAVE l) false
    match s.tenantWrite (laceIid l) t (va + 69632) ((List.range 4194304).flatMap fun i => leBytes 2 (x.sy i).toNat) {} with
    | (s1, w) =>
      if w.fault.isSome then done s1
      else match s1.tenantRead (laceIid l) t (va + 64) (laceImage - 64) {} with
        | (s2, r) =>
          if r.fault.isSome then done s2
          else done (s2.tenantWrite (laceIid l) t (va + 8) (leBytes 4 (crc32c r.bytes).toNat) {}).1

/-- A write to TE_LACE_CTL (R375): EN, LOAD and SAVE always; MODE and TENANT not while a network is loaded and a firing runs, and
TENANT never by a tenant (R543). -/
def State.laceCtl (s : State) (iid l : Nat) (v : Word) : State :=
  let busy := s.is (TE_LACE_STAT_LOADED l) && !s.laceIdle l
  let s1 := s.putB (TE_LACE_CTL_EN l) (v.getLsbD 0)
  let s2 := if v.getLsbD 2 then s1.putB (TE_LACE_CTL_LOAD l) true else s1
  let s3 := if v.getLsbD 3 then s2.putB (TE_LACE_CTL_SAVE l) true else s2
  let s4 := if busy then s3 else s3.putB (TE_LACE_CTL_MODE l) (v.getLsbD 1)
  if busy || decide (iid < 8) then s4 else s4.put (TE_LACE_CTL_TENANT l) (bitsOf v.toNat 4 3)

/-- A write to TE_LACE_DT, LAG or SRC: ignored while a network is loaded and a firing runs (R375). -/
def State.laceWrite (s : State) (iid l off : Nat) (v : Word) : State :=
  if s.is (TE_LACE_STAT_LOADED l) && !s.laceIdle l then s else s.plainWrite iid off v

/-! ### Events (R361, R362) -/

/-- An input event is dropped. -/
def State.laceDrop (s : State) (l n : Nat) : State :=
  if n = 0 then s else (s.bump (TE_LACE_DROPS_EVENTS l) n).putB (TE_LACE_STAT_EVT_DROP l) true

/-- A landed CD word of a bound stream enters the queue (R361). -/
def State.laceEvent (s : State) (l j w : Nat) : State :=
  let sh := s.get (TE_LACE_SRC_SHIFT l j)
  let cell := bitsOf w 32 14 / 2 ^ sh * s.get (TE_LACE_SRC_ROW l j) + bitsOf w 46 14 / 2 ^ sh
  let ch := (s.reg (TE_LACE_CHBASE l j)).toNat % 2 ^ 14 +
    (if s.is (TE_LACE_SRC_POL l j) then 2 * cell + (if bitsOf w 60 4 = 0 then 1 else 0) else cell)
  let x := s.lace l
  if 16384 ≤ ch ∨ 8192 ≤ x.queue.length then (s.setLace l { x with dropped := true }).laceDrop l 1
  else s.setLace l { x with queue := x.queue ++ [(ch, w % 2 ^ 32)] }

/-- The CD words that have landed on a stream reach the Lace Hoops bound to it. -/
def State.laceFeed (s : State) (n : Nat) (cds : List Nat) : State :=
  (List.range 8).foldl (fun s k =>
    let l := k / 2
    let j := k % 2
    if s.is (TE_LACE_CTL_EN l) && s.is (TE_LACE_SRC_EN l j) && s.get (TE_LACE_SRC_STREAM l j) == n then
      cds.foldl (fun s w => s.laceEvent l j w) s
    else s) s

/-! ### Time steps (R360, R363, R371) -/

/-- The axons that an input channel, or a neuron, reaches. -/
def Lace.axonsOf (x : Lace) (ext : Bool) (src : Nat) : List Nat :=
  x.route.filterMap fun p => if p.2.getLsbD 14 && p.2.getLsbD 15 == ext && p.2.toNat % 2 ^ 14 == src then some p.1 else none

/-- The synapses that axon 256c + a feeds. -/
def Lace.synsOf (x : Lace) (a : Nat) : List Nat :=
  ((List.range 256).map fun m => 256 * a + m).filter fun i => synOn (x.sy i)

/-- Saturate to w bits, signed. -/
def satS (w : Nat) (i : Int) : Int := min (max i (-(2 ^ (w - 1) : Nat))) ((2 ^ (w - 1) : Nat) - 1)

/-- Add what a synapse delivers to its neuron's accumulator, 24 bits saturating. -/
def Lace.deliver (x : Lace) (acc : Sparse Int) (i : Nat) : Sparse Int :=
  let n := synNeuron i
  spPut (fun _ => 0) acc n (satS 24 (spGet (fun _ => 0) acc n + synW (x.sy i) * 2 ^ x.cls (x.classOf n) 8))

/-- One neuron's step: its potential, its refractory count, and whether it spikes. -/
def Lace.neuronStep (x : Lace) (n : Nat) (inp : Int) : Int × Nat × Bool :=
  let c := x.classOf n
  let reset := x.clsI c 2
  let refr := spGet (fun _ => 0) x.refr n
  if 0 < refr then (reset, refr - 1, false)
  else
    let v := spGet (fun _ => 0) x.v n
    let leak := x.cls c 6
    let v1 := max (satS 16 (v - (if leak = 0 then 0 else v / (2 ^ leak : Nat)) + inp)) (x.clsI c 4)
    if x.clsI c 0 ≤ v1 then (reset, x.cls c 7, true) else (v1, refr, false)

/-- A trace after a step: it decays, and rises by `inc` on an event `n` times. -/
def trace (v dec inc n : Nat) : Nat := (List.range n).foldl (fun v _ => min 255 (v + inc)) (v - v / 2 ^ dec)

/-- A sparse map rebuilt over the first `n` indices. -/
def spBuild (n : Nat) (f : Nat → Nat) : Sparse Nat :=
  (List.range n).filterMap fun i => if f i = 0 then none else some (i, f i)

/-- All neurons in order: potentials, counts and the spikes. -/
def Lace.neurons (x : Lace) (acc : Sparse Int) : Sparse Int × Sparse Nat × List Nat :=
  let rs := (List.range 16384).map fun n => (n, x.neuronStep n (spGet (fun _ => 0) acc n))
  (rs.filterMap fun r => if r.2.1 = 0 then none else some (r.1, r.2.1),
   rs.filterMap fun r => if r.2.2.1 = 0 then none else some (r.1, r.2.2.1),
   rs.filterMap fun r => if r.2.2.2 then some r.1 else none)

/-- One time step on input channels `chs` (R363): an axon's trace rises once for each input event on it, and once where a
scheduled delivery reaches it in the step. -/
def Lace.stepOn (x : Lace) (chs : List Nat) : Lace :=
  let axons := chs.flatMap (x.axonsOf true)
  let now := x.due.filterMap fun d => if d.1 = x.step then some d.2 else none
  let acc := now.foldl x.deliver (axons.foldl (fun m a => (x.synsOf a).foldl x.deliver m) [])
  let hit := (now.map synAxon).eraseDups
  let xs := spBuild 16384 fun a => trace (spGet (fun _ => 0) x.x a) (x.u 3 1) (x.u 2 1)
    ((axons.filter (· == a)).length + (if hit.contains a then 1 else 0))
  let (v, refr, spikes) := x.neurons acc
  let ys := spBuild 16384 fun n => trace (spGet (fun _ => 0) x.y n) (x.cls (x.classOf n) 10) (x.cls (x.classOf n) 9)
    (if spikes.contains n then 1 else 0)
  let due := spikes.flatMap fun n => (x.axonsOf false n).flatMap fun a =>
    (x.synsOf a).map fun i => (x.step + 1 + synD (x.sy i), i)
  { x with
    v := v, refr := refr, x := xs, y := ys, due := (x.due.filter fun d => d.1 != x.step) ++ due, step := x.step + 1,
    past := (({ axons := axons, syns := now, spikes := spikes, x := xs, y := ys } : LaceStep) :: x.past).take 64 }

/-- How far T lies after TNOW, by signed difference modulo 2³². -/
def laceDiff (t tnow : Nat) : Int := signed 32 (unsign 32 ((t : Int) - tnow))

/-- Run step k of a LACE.STEP: the queue's words of the step and the list's words at this offset. -/
def State.laceOne (s : State) (l : Nat) (evs : List (Nat × Nat)) (k : Nat) : State × List Nat :=
  let x := s.lace l
  let tnow := (s.reg (TE_LACE_TNOW l)).toNat
  let dt := (s.reg (TE_LACE_DT l)).toNat
  let late := (x.queue.filter fun q => decide (laceDiff q.2 tnow < 0)).length
  let here := x.queue.filter fun q => decide (0 ≤ laceDiff q.2 tnow ∧ laceDiff q.2 tnow < dt)
  let rest := x.queue.filter fun q => decide ((dt : Int) ≤ laceDiff q.2 tnow)
  let y := ({ x with queue := rest, dropped := x.dropped || late != 0 } : Lace).stepOn
    (here.map (·.1) ++ (evs.filter fun q => q.2 == k).map (·.1))
  let outs := ((y.past.head?.map (·.spikes)).getD []).filter y.isOut
  (((s.setLace l y).laceDrop l late).setReg (TE_LACE_TNOW l) (BitVec.ofNat 32 (tnow + dt)), outs)

/-- Run steps k, k + 1, …: the spikes of output neurons, as words of the spike list. -/
def State.laceRun (s : State) (l : Nat) (evs : List (Nat × Nat)) : Nat → Nat → State × List Nat
  | _, 0 => (s, [])
  | k, n + 1 =>
    let (s1, o) := s.laceOne l evs k
    let (s2, os) := s1.laceRun l evs (k + 1) n
    (s2, o.map (fun i => i + k * 2 ^ 14) ++ os)

/-- LACE.STEP still waits for Device Time: its last step may not start yet (R360). -/
def State.laceEarly (s : State) (l n : Nat) : Bool :=
  s.is (TE_LACE_STAT_LOADED l) && n != 0 &&
    decide (laceDiff (s.now / 1000 % 2 ^ 32)
      ((s.reg (TE_LACE_TNOW l)).toNat + n * (s.reg (TE_LACE_DT l)).toNat + (s.reg (TE_LACE_LAG l)).toNat) < 0)

/-- LACE.STEP (R362-R364). Words of the error list beyond the 4 MiB of SRAM are those of the hoop's dedicated stores (R353). -/
def State.laceStep (s : State) (h : Nat) (di d_o : Desc) (a : Word) (e : MemErr) : State :=
  let l := h - 32
  let c := s.cx h e
  let n := min a.toNat 64
  if !s.is (TE_LACE_STAT_LOADED l) then s
  else if e.sram.any fun w => decide (2 ^ 19 ≤ w) then (s.report 0x4008 c.iid).hoopFault h 0x4008
  else match (if di.n 0 = 0 then (s, .ok []) else s.sramRead c h di.base (4 * di.n 0) : Got (List Byte)) with
    | (s1, .error f) => s1.hoopFault h f
    | (s1, .ok bs) =>
      let ws := (List.range (di.n 0)).map fun i => leAt bs (4 * i) 4
      let evs := ws.map fun w => (w % 2 ^ 14, bitsOf w 14 6)
      let bad := (evs.filter fun q => decide (n ≤ q.2)).length
      let (s2, out) := (s1.laceDrop l bad).laceRun l evs 0 n
      let x := s2.lace l
      let s3 := if bad ≠ 0 ∨ x.dropped then (s2.setLace l { x with dropped := false }).report 0x4021 c.iid else s2
      if d_o.n 0 = 0 then s3
      else State.orFault (s3.sramWrite c h d_o.base
        (leBytes 4 out.length ++ (out.take (d_o.n 0 - 1)).flatMap fun w => leBytes 4 w)) h

/-! ### Learning (R365-R368) -/

/-- What one synapse saw of a step: an arrival, a spike, the traces. -/
structure Seen where
  pre : Bool
  post : Bool
  x : Nat
  y : Nat
deriving DecidableEq, Repr

def seenAt (i : Nat) (p : LaceStep) : Seen :=
  ⟨p.axons.contains (synAxon i) || p.syns.contains i, p.spikes.contains (synNeuron i),
   spGet (fun _ => 0) p.x (synAxon i), spGet (fun _ => 0) p.y (synNeuron i)⟩

/-- A TRACE factor (R366). -/
def factor (f : Nat) (q : Seen) (w r : Int) : Int :=
  match f with
  | 0 => 1
  | 1 => q.x
  | 2 => q.y
  | 3 => q.pre.toNat
  | 4 => q.post.toNat
  | 5 => w
  | _ => r

/-- What a TRACE rule adds, term by term. -/
def Lace.traceTerms (x : Lace) (r : Nat) (w rw : Int) (qs : List Seen) : List Int :=
  qs.flatMap fun q => (List.range 4).map fun k =>
    let o := ruleAt r + 4 + 4 * k
    x.i (o + 2) 2 * factor (x.u o 1) q w rw * factor (x.u (o + 1) 1) q w rw

/-- A 32-bit sum; where it leaves 32 bits on the way the spec states no value. -/
def sum32 (ts : List Int) : Int :=
  let (t, fits) := ts.foldl (fun (t, ok) v => (t + v, ok && decide (satS 32 (t + v) = t + v))) (0, true)
  if fits then t else signed 32 (Config.traceSum ts % 2 ^ 32)

/-- The delta of a TRACE rule. -/
def Lace.traceDelta (x : Lace) (r : Nat) (w rw : Int) (qs : List Seen) : Int :=
  sum32 (x.traceTerms r w rw qs) / (2 ^ x.u (ruleAt r + 1) 1 : Nat)

/-- The pairs of R367 in a window, oldest step first: their interval, and whether they are of the first kind. `p` and `q` are
the steps since the last arrival and the last spike. -/
def pairs : List Seen → Option Nat → Option Nat → List (Nat × Bool)
  | [], _, _ => []
  | s :: r, p, q =>
    let p1 := if s.pre then some 0 else p
    let first := if s.post then (p1.map fun t => (t, true)).toList else []
    let second := if s.pre then (q.map fun t => (t, false)).toList else []
    let q1 := if s.post then some 0 else q
    first ++ second ++ pairs r (p1.map (· + 1)) (q1.map (· + 1))

/-- An amplitude halved every `half` steps; a shift of 16 or more gives 0. -/
def halved (a : Int) (t half : Nat) : Int := if 16 ≤ t / half then 0 else a / (2 ^ (t / half) : Nat)

/-- The deltas of a rule on a synapse, weight and delay. -/
def Lace.ruleDelta (x : Lace) (r : Nat) (mode : Bool) (rw : Int) (i : Nat) (qs : List Seen) : Int × Int :=
  let b := ruleAt r
  let ps := (pairs qs none none).filter fun p => decide (p.1 ≤ x.u (b + 10) 1)
  match x.u b 1 with
  | 0 => (x.traceDelta r (synW (x.sy i)) rw qs, 0)
  | 1 => (ps.foldl (fun t p => if p.2 then t + halved (x.i (b + 4) 2) p.1 (x.u (b + 8) 1)
      else t - halved (x.i (b + 6) 2) p.1 (x.u (b + 9) 1)) 0, 0)
  | _ => (0, if mode then ps.foldl (fun t p => if x.u (b + 11) 1 < p.1 then (if p.2 then t + 1 else t - 1) else t) 0 else 0)

/-- Add a delta to the buffer (R368): whether it was discarded. -/
def Lace.addDelta (x : Lace) (i : Nat) (d : Int × Int) : Lace × Bool :=
  let old := spGet (fun _ => ((0 : Int), (0 : Int))) x.deltas i
  if d = (0, 0) then (x, false)
  else if old = (0, 0) ∧ 65536 ≤ x.deltas.length then (x, true)
  else ({ x with deltas := spPut (fun _ => (0, 0)) x.deltas i (satS 16 (old.1 + d.1), clampAbs 63 (old.2 + d.2)) }, false)

/-- LACE.LEARN (R365). -/
def State.laceLearn (s : State) (h r : Nat) (a : Word) : State :=
  let l := h - 32
  let x := s.lace l
  if !s.is (TE_LACE_STAT_LOADED l) then s
  else
    let win := (x.past.take (min a.toNat 64)).reverse
    let mask := x.u (ruleAt r + 2) 2
    let mode := s.is (TE_LACE_CTL_MODE l)
    let rw := signed 8 (s.get (TE_LACE_REWARD_R l))
    let is := x.syn.filter fun p => synOn p.2 && synPlastic p.2 && mask.testBit (x.classOf (synNeuron p.1))
    let (y, lost) := is.foldl (fun (y, n) p =>
      let (y1, d) := y.addDelta p.1 (x.ruleDelta r mode rw p.1 (win.map (seenAt p.1)))
      (y1, if d then n + 1 else n)) (x, 0)
    let s1 := s.setLace l y
    if lost = 0 then s1
    else ((s1.bump (TE_LACE_DROPS_DELTAS l) lost).putB (TE_LACE_STAT_DELTA_FULL l) true).report 0x4020 (laceIid l)

/-! ### The commands -/

/-- LACE.STEP: while it waits for Device Time, nothing happens. -/
def execLaceStep (x : Issue) (tdi tdo : Fin 64) (a : Fin 32) (e : MemErr) (s : State) : Ans :=
  let r := s.bundleRegs x.hoop
  s.done (if r.pv x.pred != x.pneg && s.laceEarly (x.hoop.val - 32) (min (r.sv a).toNat 64) && (!x.opens || s.legal x.hoop x.bundle) then s
    else s.syl x [7] (sylWord 0x10 x (tdi.val * 2 ^ 16 + tdo.val * 2 ^ 10 + a.val * 2 ^ 5)) fun r s =>
      s.laceStep x.hoop (descOf (r.tdv tdi)) (descOf (r.tdv tdo)) (r.sv a) e)

/-- LACE.LEARN. -/
def execLaceLearn (x : Issue) (rule : Fin 16) (a : Fin 32) (s : State) : Ans :=
  s.done (s.syl x [7] (sylWord 0x11 x (rule.val * 2 ^ 18 + a.val * 2 ^ 13)) fun r s => s.laceLearn x.hoop rule (r.sv a))

/-- LACE.COMMIT (R369). -/
def execLaceCommitSyllable (x : Issue) (s : State) : Ans :=
  s.done (s.syl x [7] (sylWord 0x12 x 0) fun _ s => s.laceApply (x.hoop.val - 32))

/-- LACE_COMMIT_APPLY: the hoop is idle between firings (R369). -/
def execLaceCommitApply (l : Fin 4) (s : State) : Ans := s.done (if s.laceIdle l then s.laceApply l else s)

/-- LACE_LOAD (R357). -/
def execLaceLoad (iid : Iid) (l : Fin 4) (v : Word) (s : State) : Ans := s.done (s.writeWith iid (TE_LACE_CTL l) fun s => s.laceCtl iid.toNat l v)

/-- LACE_LOAD_RUN (R357). -/
def execLaceLoadRun (l : Fin 4) (s : State) : Ans := s.done (s.laceLoadRun l)

/-- LACE_SAVE (R373). -/
def execLaceSave (iid : Iid) (l : Fin 4) (v : Word) (s : State) : Ans := s.done (s.writeWith iid (TE_LACE_CTL l) fun s => s.laceCtl iid.toNat l v)

/-- LACE_SAVE_RUN (R373). -/
def execLaceSaveRun (l : Fin 4) (s : State) : Ans := s.done (s.laceSaveRun l)

/-- LACE_COMMIT (R369, R377). -/
def execLaceCommit (r : Fin 10) (n : BitVec 16) (s : State) : Ans := s.done (s.runCmd r n (isOp 0x20) State.laceArm)

end Sys2Proof.Machine
end

