-- ==== Sys2Proof/Machine/Board.lean ====
section
/-! DEFINITION. The Board: the Pattern table's fields, the layout of a Board buffer, the pixel formats, and the painting of
images, depth, points and events (06_board_fusion.md R170-R186, R209; R423). -/

namespace Sys2Proof.Machine

open Reg

/-- The Initiator ID of the Weft (R201). -/
def wfIid : Nat := 17

/-! ### Footprints -/

/-- FOOT_X0, FOOT_Y0, FOOT_X1, FOOT_Y1. -/
def foot (src : List Byte) : Nat × Nat × Nat × Nat := (leAt src 100 2, leAt src 102 2, leAt src 104 2, leAt src 106 2)

/-- The cell lies in the footprint. -/
def inFoot (src : List Byte) (x y : Nat) : Bool :=
  let (x0, y0, x1, y1) := foot src
  decide (x0 ≤ x ∧ x < x1 ∧ y0 ≤ y ∧ y < y1)

/-- The cells of a footprint, row by row. -/
def footCells (src : List Byte) : List (Nat × Nat) :=
  let (x0, y0, x1, y1) := foot src
  (List.range (y1 - y0)).flatMap fun y => (List.range (x1 - x0)).map fun x => (x0 + x, y0 + y)

/-! ### The state of the Weft -/

def State.setWeft (s : State) (f : Weft → Weft) : State := { s with weft := f s.weft }

/-- The Board in a buffer. -/
def State.canvas (s : State) (buf : Nat) : Option Canvas := spGet (fun _ => none) s.weft.canv buf

def State.setCanvas (s : State) (buf : Nat) (c : Canvas) : State :=
  s.setWeft fun w => { w with canv := spPut (fun _ => none) w.canv buf (some c) }

def State.modCanvas (s : State) (buf : Nat) (f : Canvas → Canvas) : State :=
  match s.canvas buf with
  | some c => s.setCanvas buf (f c)
  | none => s

/-- R174: a write with no pinned mapping is dropped, and 0x3003 is reported once per turn. -/
def State.boardFault (s : State) : State :=
  let key := (s.hg.run, s.hg.nextTurn)
  if s.weft.boardSaid = some key then s else (s.report 0x3003 wfIid).setWeft fun w => { w with boardSaid := some key }

/-- Write bytes of a Board buffer at an offset (R174). -/
def State.boardWrite (s : State) (buf : Nat) (c : Canvas) (off : Nat) (bs : List Byte) (e : MemErr) : State :=
  let va := boardVa c.tab.bytes buf + off
  match s.pinnedWrite wfIid (patTenant c.tab.bytes) va bs e with
  | (s1, true) => s1
  | (s1, false) => (s1.boardFault).modCanvas buf fun x =>
      { x with lost := (List.range ((va + bs.length + 4095) / 4096 - va / 4096)).map (va / 4096 + ·) ++ x.lost }

/-- Read bytes of a Board buffer; where no pinned mapping is found, none. -/
def State.boardRead (s : State) (buf : Nat) (c : Canvas) (off n : Nat) (e : MemErr) : State × Option (List Byte) :=
  match s.pinnedRead wfIid (patTenant c.tab.bytes) (boardVa c.tab.bytes buf + off) n e with
  | (s1, r) => (s1, r.map (·.bytes))

/-! ### Pixels (R110, R181) -/

/-- The 16-bit pixel at column x of a line of a data type. -/
def pixel (dt : Nat) (line : List Byte) (x : Nat) : Nat :=
  if dt = 0x2A then leAt line x 1 * 256
  else if dt = 0x2B then (leAt line (x / 4 * 5 + x % 4) 1 * 4 + bitsOf (leAt line (x / 4 * 5 + 4) 1) (2 * (x % 4)) 2) * 64
  else if dt = 0x2C then (leAt line (x / 2 * 3 + x % 2) 1 * 16 + bitsOf (leAt line (x / 2 * 3 + 2) 1) (4 * (x % 2)) 4) * 16
  else if dt = 0x2D then
    (leAt line (x / 4 * 7 + x % 4) 1 * 64 + bitsOf (leAt line (x / 4 * 7 + 4) 3) (6 * (x % 4)) 6) * 4
  else Config.otherPixel dt line x % 65536

/-- The bytes of row r of a frame in its slot. -/
def State.frameRow (s : State) (f : SpFrame) (r : Nat) : List Byte :=
  let stride := bitsOf f.fmt.toNat 8 16 * 64
  s.fsRead (f.addr + 64 + r * stride) stride

/-- A position is below another, as FP32. -/
def fpLt (a b : Nat) : Bool := fpCmp (fpDecode .fp32 a) (fpDecode .fp32 b) == -1

/-- R181: the position lies in [0, W − 1] × [0, H − 1] of the source image. -/
def inImage (src : List Byte) (p : Nat × Nat) : Bool :=
  let ok (v : Nat) (n : Nat) :=
    let x := fpDecode .fp32 v
    !x.isNan && fpCmp FVal.zero x != 1 && fpCmp x (.fin false (n - 1) 0) != 1
  ok p.1 (leAt src 8 2) && ok p.2 (leAt src 10 2)

/-- The rows of the window that a sample at FP32 row `v` reads: the last one first (R181). -/
def windowRows (src : List Byte) (v : Nat) : List Nat :=
  let f := fpFloor (fpDecode .fp32 v)
  let top := leAt src 10 2 - 1
  if leAt src 4 1 = 0 then [min (f + 1) top, f] else [min (f + 2) top, min (f + 1) top, f, f - 1]

/-- The channels of a sample at a position inside the image: one for mono, R, G and B for Bayer. -/
def State.sampleAt (s : State) (src : List Byte) (f : SpFrame) (p : Nat × Nat) : List Nat :=
  let cfa := leAt src 4 1
  (List.range (if cfa = 0 then 1 else 3)).map fun ch =>
    sampleCh cfa ch (leAt src 8 2) (leAt src 10 2) (fun r c => pixel (srcDt f.src) (s.frameRow f r) c) p

/-! ### Painting an image (R181) -/

/-- The position that a cell of an image source samples; none where there is no pixel. -/
def State.cellPos (s : State) (c : Canvas) (src : List Byte) (f : SpFrame) (x y : Nat) : Option (Nat × Nat) :=
  let (x0, y0, _, _) := foot src
  (gridAt (panelNode (patPanel c.tab.bytes (leAt src 1 1)) src) x0 y0 x y).map fun p =>
    if leAt src 5 1 % 2 = 1 then shutter src (Config.rateAt s.me.num s.me.time f.fs) p else p

/-- The row with which a cell can be painted: the last of its window; row 0 where nothing is sampled. -/
def cellNeed (src : List Byte) : Option (Nat × Nat) → Nat
  | some p => if inImage src p then (windowRows src p.2).headD 0 else 0
  | none => 0

/-- Paint one image cell. -/
def State.paintCell (s : State) (buf : Nat) (c : Canvas) (src : List Byte) (f : SpFrame) (x y : Nat) (e : MemErr) : State :=
  let i := leAt src 1 1
  let l := leAt src 2 1
  let n := cellBytes (layerKind (patPanel c.tab.bytes i) l)
  let (s1, bs) := match s.cellPos c src f x y with
    | some p => if inImage src p then (s, (s.sampleAt src f p).flatMap (leBytes 2)) else (s.bump (whole WF_OUTSIDE), leBytes n 0)
    | none => (s.bump (whole WF_OUTSIDE), leBytes n 0)
  s1.boardWrite buf c (cellOff c.tab.bytes i l x y) bs e

/-- A row of an image source paints the cells whose window ends with it. -/
def State.paintImage (s : State) (buf : Nat) (c : Canvas) (src : List Byte) (z : WfSrc) (f : SpFrame) (row : Nat) (e : MemErr) :
    State :=
  (footCells src).foldl (fun s q =>
    let p := s.cellPos c src f q.1 q.2
    let clear := match p with
      | some p => !inImage src p || (windowRows src p.2).all fun r => !z.bad.contains r
      | none => true
    if cellNeed src p == row && clear then s.paintCell buf c src f q.1 q.2 e else s) s

/-! ### Painting forward (R182-R184) -/

/-- A projection that hits a cell of the footprint. -/
def hitCell (src : List Byte) : Option (Int × Int × Nat) → Option (Nat × Nat × Nat)
  | some (x, y, d) => if 0 ≤ x ∧ 0 ≤ y ∧ inFoot src x.toNat y.toNat then some (x.toNat, y.toNat, d) else none
  | none => none

/-- Change the bytes of the cell that a projection onto the source's panel hits; `f` gives them from the distance kept, the new
one, and those there. -/
def State.forward (s : State) (buf : Nat) (src : List Byte) (hit : List Byte → Option (Int × Int × Nat)) (e : MemErr)
    (f : Nat → Nat → List Byte → Option (List Byte × Nat)) : State :=
  match s.canvas buf with
  | none => s
  | some c =>
    match hitCell src (hit (patPanel c.tab.bytes (leAt src 1 1))) with
    | none => s
    | some (x, y, d) =>
      let off := cellOff c.tab.bytes (leAt src 1 1) (leAt src 2 1) x y
      match s.boardRead buf c off 4 e with
      | (s1, none) => s1.boardWrite buf c off [0] e
      | (s1, some old) => match f (spGet (fun _ => (0x7F800000 : Word)) c.near off).toNat d old with
        | none => s1
        | some (bs, near) =>
          (s1.boardWrite buf c off bs e).modCanvas buf fun c =>
            { c with near := spPut (fun _ => 0x7F800000) c.near off (BitVec.ofNat 32 near) }

/-- A distance as stored: FP16 (R172). -/
def fp16Of (d : Nat) : List Byte := leBytes 2 (fpConvert .fp32 .fp16 d).bits

/-- The frame of a companion stream that lies beside frame f: of the same turn, with the row landed. -/
def State.companion (s : State) (n : Nat) (f : SpFrame) (row : Nat) : Option SpFrame :=
  let x := s.stream n
  let all := (x.opened.map (·.2)).toList ++ (x.slots.filter fun k => k.st == .landed || k.st == .held).map (·.frame)
  all.find? fun g => g.turn == f.turn && decide (row < g.rows)

/-- The confidence byte of a depth pixel (R172, R182); before the companion's row has landed it is not defined. -/
def State.confAt (s : State) (src : List Byte) (f : SpFrame) (row col : Nat) : State × Nat :=
  let n := leAt src 6 1
  if n = 0xFF then (s, 0xFF)
  else match s.companion (n % 64) f row with
    | some g => (s, leAt (s.frameRow g row) col 1 % 64)
    | none => (s.took, s.free % 64)

/-- Pixels of a DEPTH16 row from column `col` on (R182). -/
def State.paintDepth (s : State) (buf : Nat) (src : List Byte) (f : SpFrame) (row : Nat) (e : MemErr) :
    Nat → List Byte → State
  | col, a :: b :: r =>
    let z := leNat [a, b]
    let s1 := if z = 0 ∨ z = 0xFFFF then s
      else
        let (s1, conf) := s.confAt src f row col
        s1.forward buf src (projectDepth · src row col z) e fun near d old =>
          if fpLt d near then some (fp16Of d ++ leBytes 1 conf ++ old.drop 3, d) else none
    s1.paintDepth buf src f row e (col + 1) r
  | _, _ => s

/-- Points of a packet (R182): the kept range and its intensity, and a count of every point that hits the cell. -/
def State.paintPoints (s : State) (buf : Nat) (src : List Byte) (polar : Bool) (e : MemErr) : Nat → List Byte → State
  | 0, _ => s
  | k + 1, bs =>
    let s1 := s.forward buf src (projectPoint · src (leAt bs 0 4) (leAt bs 4 4) (leAt bs 8 4) polar) e fun near d old =>
      let n := leBytes 1 (min (leAt old 3 1 + 1) 255)
      if fpLt d near then some (fp16Of d ++ leBytes 1 (leAt bs 14 1) ++ n, d) else some (old.take 3 ++ n, near)
    s1.paintPoints buf src polar e k (bs.drop 16)

/-- CD words of a packet (R183). -/
def State.paintEvents (s : State) (buf : Nat) (src : List Byte) (f : SpFrame) (cds : List Nat) (e : MemErr) : State :=
  cds.foldl (fun s w =>
    s.forward buf src (projectEvent · src (bitsOf w 46 14) (bitsOf w 32 14)) e fun _ _ old =>
      let on := bitsOf w 60 4 = 1
      let up (i : Nat) (b : Bool) := leBytes 1 (if b then min (leAt old i 1 + 1) 255 else leAt old i 1)
      some (up 0 on ++ up 1 (!on) ++ leBytes 2 (unsign 16 ((w % 2 ^ 32 : Nat) - (f.fs / 256000 : Nat))), 0x7F800000)) s

/-- The records of a point template are polar. -/
def State.polar (s : State) (f : SpFrame) : Bool := s.is (SP_PPT_LAYOUT_POLAR (bitsOf f.src.toNat 15 2))

/-! ### Painting a line (R180, R186, R423) -/

/-- Source j paints a line on the Board in a buffer: a new frame begins anew; a line with an uncorrectable word paints
nothing. -/
def State.paintSource (s : State) (buf j : Nat) (x : WfLine) (e : MemErr) : State :=
  match s.canvas buf with
  | none => s
  | some c =>
    let src := patSource c.tab.bytes j
    let id := some (x.frame.fs, x.frame.seq)
    let z0 := spGet (fun _ => {}) c.srcs j
    let z1 : WfSrc := if z0.frame = id then z0 else { frame := id }
    let z := { z1 with rows := max z1.rows (x.row + 1), bad := if x.bad then x.row :: z1.bad else z1.bad }
    let s1 := s.setCanvas buf { c with srcs := spPut (fun _ => {}) c.srcs j z, last := some s.hg.dt }
    let kind := layerKind (patPanel c.tab.bytes (leAt src 1 1)) (leAt src 2 1)
    if kind ≤ 1 then s1.paintImage buf c src z x.frame x.row e
    else if x.bad then s1
    else if kind = 2 then s1.paintDepth buf src x.frame x.row e 0 x.bytes
    else if kind = 3 then s1.paintEvents buf src x.frame x.cds e
    else s1.paintPoints buf src (s.polar x.frame) e (x.bytes.length / 16) x.bytes

/-- Every painted source of the line's stream paints it. -/
def State.paintLine (s : State) (buf : Nat) (x : WfLine) (e : MemErr) : State :=
  match s.canvas buf with
  | none => s
  | some c => ((patPainted c.tab.bytes).filter fun j => leAt (patSource c.tab.bytes j) 0 1 == x.stream).foldl
      (fun s j => s.paintSource buf j x e) s

/-- A running turn program reads the buffer (R186). -/
def State.bufBusy (s : State) (buf : Nat) : Bool := (s.eng.sched.running.map fun n => n % 3 == buf).getD false

/-- A packet has landed: the Weft paints it on the Board of the turn after its frame's (R21, R180), or lets it wait. -/
def State.weftLand (s : State) (n : Nat) (row : Nat) (bytes : List Byte) (cds : List Nat) (e : MemErr) : State :=
  match (s.stream n).opened with
  | none => s
  | some (_, f) => match f.turn with
    | none => s
    | some (r, t) =>
      let buf := (t + 1) % 3
      match s.canvas buf with
      | none => s
      | some c =>
        if !s.is WF_CTL_EN || c.run != r || c.turn != t + 1 ||
            !(patPainted c.tab.bytes).any (fun j => leAt (patSource c.tab.bytes j) 0 1 == n) then s
        else
          let a := f.addr + 64 + row * (bitsOf f.fmt.toNat 8 16 * 64)
          let ws := if f.format = 3 ∨ f.format = 4 then [] else
            ((List.range ((a + bytes.length + 7) / 8 - a / 8)).map (a / 8 + ·)).filter fun w => e.fs.contains w || s.fsIsBad w
          let s1 := ws.foldl (fun s _ => s.report 0x5012 wfIid) s
          let x : WfLine := ⟨n, f, row, bytes, cds, !ws.isEmpty⟩
          if s.bufBusy buf then s1.modCanvas buf fun c => { c with wait := c.wait ++ [x] } else s1.paintLine buf x e

/-! ### The start and the end of a Board (R180, R185) -/

/-- Clear a layer that a new Board clears: DEPTH and POINT cells to +Inf with zero bytes, EVENT cells to zero. -/
def State.clearLayer (s : State) (buf : Nat) (c : Canvas) (i l : Nat) : State :=
  let p := patPanel c.tab.bytes i
  let k := layerKind p l
  if k ≤ 1 then s
  else
    let cell := if k = 3 then leBytes 4 0 else [0, 0x7C, 0, 0]
    (List.range (panelH p)).foldl (fun s y =>
      s.boardWrite buf c (cellOff c.tab.bytes i l 0 y) ((List.range (panelW p)).flatMap fun _ => cell) {}) s

/-- Clear a buffer for its next Board. -/
def State.clearBoard (s : State) (buf : Nat) : State :=
  match s.canvas buf with
  | none => s
  | some c =>
    let b := c.tab.bytes
    (List.range (patPanels b)).foldl (fun s i =>
      let p := patPanel b i
      ((List.range (panelLayers p)).foldl (fun s l => s.clearLayer buf c i l) s).boardWrite buf c (mapOff b i)
        (leBytes (panelW p / 16 * (panelH p / 16)) 0) {}) s

/-- The painting of the Board of turn n begins, under the table in force (R180). -/
def State.newBoard (s : State) (n : Nat) : State :=
  match s.weft.tab with
  | none => s
  | some t =>
    if !s.is WF_CTL_EN then s
    else
      let buf := n % 3
      let busy := s.bufBusy buf
      let s1 := s.setCanvas buf { run := s.hg.run, turn := n, tab := t, clear := busy }
      if busy then s1 else s1.clearBoard buf

/-- What waited for a turn program to end is done (R186). -/
def State.boardResume (s : State) (buf : Nat) : State :=
  match s.canvas buf with
  | none => s
  | some c =>
    if s.bufBusy buf || (!c.clear && c.wait.isEmpty) then s
    else
      let s1 := if c.clear then s.clearBoard buf else s
      (c.wait.foldl (fun s x => s.paintLine buf x {}) s1).modCanvas buf fun c => { c with clear := false, wait := [] }

/-- The frame that a source has painted last, where it is offered to the turn that starts, or lands still. -/
def State.paintedFrame (s : State) (src : List Byte) (z : WfSrc) : Option SpFrame :=
  let x := s.stream (leAt src 0 1 % 64)
  let all := (x.slots.filter fun k => k.st == .held).map (·.frame) ++ (x.opened.map (·.2)).toList
  all.find? fun f => z.frame == some (f.fs, f.seq)

/-- Every cell of tile (tx, ty) has been painted (R185): an image cell once its window is whole, the others once every packet of
the frame is painted. -/
def State.tileDone (s : State) (c : Canvas) (src : List Byte) (z : WfSrc) (f : Option SpFrame) (tx ty : Nat) : Bool :=
  let kind := layerKind (patPanel c.tab.bytes (leAt src 1 1)) (leAt src 2 1)
  if !c.wait.isEmpty && c.wait.any (fun x => x.stream == leAt src 0 1) then false
  else if kind ≤ 1 then
    match f with
    | none => false
    | some f => (List.range 256).all fun k =>
        let p := s.cellPos c src f (16 * tx + k % 16) (16 * ty + k / 16)
        decide (cellNeed src p < z.rows) && match p with
          | some p => !inImage src p || (windowRows src p.2).all fun r => !z.bad.contains r
          | none => true
  else z.bad.isEmpty && (f.map fun f => f.rows == z.rows).getD false

/-- No write to the tile has been dropped (R174). -/
def tileKept (buf : Nat) (c : Canvas) (src : List Byte) (tx ty : Nat) : Bool :=
  let i := leAt src 1 1
  let l := leAt src 2 1
  (List.range 16).all fun k =>
    let a := boardVa c.tab.bytes buf + cellOff c.tab.bytes i l (16 * tx) (16 * ty + k)
    !(c.lost.contains (a / 4096) || c.lost.contains ((a + 16 * cellBytes (layerKind (patPanel c.tab.bytes i) l) - 1) / 4096))

/-- The tiles that lie wholly in a source's footprint. -/
def footTiles (src : List Byte) : List (Nat × Nat) :=
  let (x0, y0, x1, y1) := foot src
  (List.range (y1 / 16 - (y0 + 15) / 16)).flatMap fun ty =>
    (List.range (x1 / 16 - (x0 + 15) / 16)).map fun tx => ((x0 + 15) / 16 + tx, (y0 + 15) / 16 + ty)

/-- Set bit L of a tile's validity byte. -/
def State.setValid (s : State) (buf : Nat) (c : Canvas) (i l tx ty : Nat) : State :=
  let off := mapOff c.tab.bytes i + ty * (panelW (patPanel c.tab.bytes i) / 16) + tx
  match s.boardRead buf c off 1 {} with
  | (s1, some b) => s1.boardWrite buf c off (leBytes 1 (leNat b ||| 2 ^ l)) {}
  | (s1, none) => s1.boardFault

/-- The tiles of source j at the start of the turn: valid ones are marked; answers how many are unfinished. -/
def State.sourceTiles (s : State) (buf : Nat) (c : Canvas) (j : Nat) : State × Nat :=
  let src := patSource c.tab.bytes j
  let z := spGet (fun _ => {}) c.srcs j
  if z.frame.isNone then (s, 0)
  else
    let f := s.paintedFrame src z
    let cleared := (f.map fun f => f.flag 6).getD false
    (footTiles src).foldl (fun (s, k) (tx, ty) =>
      if !s.tileDone c src z f tx ty then (s, k + 1)
      else if cleared && tileKept buf c src tx ty then (s.setValid buf c (leAt src 1 1) (leAt src 2 1) tx ty, k)
      else (s, k)) (s, 0)

/-- The Board of turn n is read from now on (R185): its tiles become valid, or late. -/
def State.boardDone (s : State) (n : Nat) : State :=
  let buf := n % 3
  match s.canvas buf with
  | none => s
  | some c =>
    if c.run != s.hg.run || c.turn != n || !s.is WF_CTL_EN then s
    else
      let (s1, late) := (patPainted c.tab.bytes).foldl (fun (s, k) j =>
        let (s1, m) := s.sourceTiles buf c j
        (s1, k + m)) (s, 0)
      let s2 := match c.last with
        | some t => s1.setReg WF_PAINT_DONE (BitVec.ofNat 32 ((s.turnInstant n - t) / 256))
        | none => s1
      if late = 0 then s2 else (s2.bump (whole WF_LATE_TILES) late).report 0x3004 wfIid

end Sys2Proof.Machine
end

