-- ==== Sys2Proof/Machine/Weft.lean ====
section
/-! DEFINITION. The Weft's checks of a Pattern table, its grid banks and their pins, expansion, readiness, the switch, and the
warp of the four views (06_board_fusion.md R174, R176, R178, R187-R190, R204). -/

namespace Sys2Proof.Machine

open Reg

/-! ### The checks of R176 -/

/-- A unit quaternion in FP32: its norm lies within 1 ± 0.001. Squares are taken exactly, in units of 2⁻³⁰⁰. -/
def quatOk (q : List Byte) : Bool :=
  let sq (i : Nat) : Option Nat := match fpDecode .fp32 (leAt q (4 * i) 4) with
    | .fin _ m e => some (m * m * 2 ^ (2 * e + 300).toNat)
    | _ => none
  match sq 0, sq 1, sq 2, sq 3 with
  | some a, some b, some c, some d =>
    decide (998001 * 2 ^ 300 ≤ (a + b + c + d) * 1000000 ∧ (a + b + c + d) * 1000000 ≤ 1002001 * 2 ^ 300)
  | _, _, _, _ => false

/-- A size of cells or pixels. -/
def sizeOk (lo n : Nat) : Bool := decide (lo ≤ n ∧ n ≤ 2048) && n % 16 == 0

def headerOk (b : List Byte) : Bool :=
  leAt b 0 8 % 4096 == 0 && decide (leAt b 0 8 < 2 ^ 48) && leAt b 8 8 % 4096 == 0 && decide (leAt b 8 8 < 2 ^ 48) &&
    decide (leAt b 16 1 ≤ 7) && decide (1 ≤ leAt b 17 1 ∧ leAt b 17 1 ≤ 8) && decide (leAt b 18 1 ≤ 32)

def panelOk (p : List Byte) : Bool :=
  sizeOk 16 (panelW p) && sizeOk 16 (panelH p) && decide (leAt p 4 1 ≤ 1) && decide (1 ≤ leAt p 5 1 ∧ leAt p 5 1 ≤ 8) &&
    (List.range (panelLayers p)).all (fun l => decide (layerKind p l ≤ 4)) && quatOk (p.drop 24)

/-- The format of a stream (R139). -/
def State.streamFmt (s : State) (n : Nat) : Nat := s.get (SP_STR_FMT_FORMAT (n % 64))

/-- The layer kind that a stream's format and CFA ask for. -/
def wantKind (fmt cfa : Nat) : Option Nat :=
  if fmt = 0 then some (if cfa = 0 then 0 else 1) else if fmt = 1 then some 2 else if fmt = 3 then some 3
  else if fmt = 4 then some 4 else none

/-- The checks of a painted source's destination. -/
def State.paintOk (s : State) (b src : List Byte) : Bool :=
  let p := patPanel b (leAt src 1 1)
  let comp := leAt src 6 1
  let (x0, y0, x1, y1) := foot src
  decide (leAt src 1 1 < patPanels b) && decide (leAt src 2 1 < panelLayers p) &&
    wantKind (s.streamFmt (leAt src 0 1)) (leAt src 4 1) == some (layerKind p (leAt src 2 1)) &&
    (comp == 0xFF || (decide (comp ≤ 63) && s.streamFmt comp == 2)) &&
    decide (x0 ≤ x1 ∧ x1 ≤ panelW p ∧ y0 ≤ y1 ∧ y1 ≤ panelH p)

def State.sourceOk (s : State) (b src : List Byte) : Bool :=
  decide (leAt src 0 1 ≤ 63) && decide (leAt src 3 1 ≤ 1) && decide (leAt src 4 1 ≤ 4) && decide (leAt src 7 1 ≤ 15) &&
    quatOk (src.drop 72) && (viewOnly src || s.paintOk b src)

/-- Two footprints of one layer overlap. -/
def overlap (a b : List Byte) : Bool :=
  let (ax0, ay0, ax1, ay1) := foot a
  let (bx0, by0, bx1, by1) := foot b
  leAt a 1 1 == leAt b 1 1 && leAt a 2 1 == leAt b 2 1 && decide (ax0 < ax1 ∧ ay0 < ay1 ∧ bx0 < bx1 ∧ by0 < by1) &&
    decide (ax0 < bx1 ∧ bx0 < ax1 ∧ ay0 < by1 ∧ by0 < ay1)

def viewOk (b v : List Byte) : Bool :=
  let has (n : Nat) := (patSourceOf b n).isSome
  sizeOk 64 (leAt v 4 2) && sizeOk 64 (leAt v 6 2) && decide (leAt v 2 1 ≤ 1) && quatOk (v.drop 24) && has (leAt v 0 1) &&
    (leAt v 1 1 == 0xFF || has (leAt v 1 1))

/-- The nodes of a grid (R178). -/
def gridNodes (w h : Nat) : Nat := ((w + 15) / 16 + 1) * ((h + 15) / 16 + 1)

/-- The grid nodes that a table needs. -/
def State.patNodes (s : State) (b : List Byte) : Nat :=
  let src (j : Nat) : Nat :=
    let x := patSource b j
    let (x0, y0, x1, y1) := foot x
    let f := s.streamFmt (leAt x 0 1)
    if f = 0 then gridNodes (x1 - x0) (y1 - y0) else if f = 1 ∨ f = 3 then gridNodes (leAt x 8 2) (leAt x 10 2) else 0
  ((patPainted b).map src).foldl (· + ·) 0 +
    ((patViews b).map fun v => gridNodes (leAt (patView b v) 4 2) (leAt (patView b v) 6 2)).foldl (· + ·) 0

/-- R176: a Pattern table passes. -/
def State.patternOk (s : State) (b : List Byte) : Bool :=
  headerOk b && (List.range (patPanels b)).all (fun i => panelOk (patPanel b i)) &&
    (List.range (patSources b)).all (fun j => s.sourceOk b (patSource b j)) &&
    (patPainted b).all (fun i => (patPainted b).all fun j =>
      i == j || !overlap (patSource b i) (patSource b j)) &&
    (patViews b).all (fun v => viewOk b (patView b v)) && decide (s.patNodes b ≤ 65536)

/-! ### Banks (R187, R440) -/

/-- The pins of a generation are released. -/
def State.unpinWeft (s : State) (g : Nat) : State := s.unpin fun o => decide (o = PinOwner.weft g)

/-- Bank b holds no generation any more. -/
def State.emptyBank (s : State) (b : Nat) : State :=
  match spGet (fun _ => none) s.weft.gens b with
  | none => s
  | some g => (s.unpinWeft g).setWeft fun w => { w with gens := spPut (fun _ => none) w.gens b none }

/-- Banks that have become free release their pins. -/
def State.bankSweep (s : State) : State :=
  let s1 := s.setWeft fun w => { w with uses := w.uses.filter fun u => s.turnLive u.1 u.2.1 }
  (List.range 3).foldl (fun s b =>
    if s.bankFree b && (s.weft.exp.map (·.bank)) != some b then s.emptyBank b else s) s1

/-- Another table is to be expanded, or none: the expansion stops. -/
def State.expCheck (s : State) : State :=
  match s.weft.exp with
  | none => s
  | some e =>
    if (s.patPick.map (·.ord)) = some e.ord then s
    else (s.setWeft fun w => { w with exp := none }).emptyBank e.bank

/-- Pin the Board buffers and view rasters of a table. -/
def State.pinBoard (s : State) (g : Nat) (b : List Byte) : State :=
  let t := patTenant b
  let s1 := (s.pinWalk (.weft g) t (leAt b 0 8) (3 * boardBytes b) true {}).1
  if rasterStride b = 0 then s1 else (s1.pinWalk (.weft g) t (leAt b 8 8) (8 * rasterStride b) true {}).1

/-- An expansion of table x into bank b starts, where none runs and both exist. -/
def State.expStartBy (s : State) : Option WfExp → Option Staged → Option Nat → State
  | none, some x, some b =>
    let s1 := (s.emptyBank b).setWeft fun w => { w with
      exp := some ⟨x.ord, x.gen, b, s.hg.dt, false⟩, gens := spPut (fun _ => none) w.gens b (some x.gen) }
    s1.pinBoard x.gen x.bytes
  | _, _, _ => s

/-- EXPANSION_START (R187): a staged table and the free bank both exist. -/
def State.expStart (s0 : State) : State :=
  let s := s0.expCheck.bankSweep
  s.expStartBy s.weft.exp s.patPick s.freeBank

/-- EXPANSION_COMPLETE (R178). -/
def State.expEnd (s : State) : State :=
  match s.weft.exp with
  | none => s
  | some e =>
    if e.done then s
    else (s.setReg WF_EXPAND_US (BitVec.ofNat 32 ((s.hg.dt - e.start) / 256000))).setWeft fun w =>
      { w with exp := some { e with done := true } }

/-- The Weft's answer to a pending commit that carries table x; 0x3002 is reported once per attempt. -/
def State.weftAsk (s : State) (x : Staged) : State × Bool :=
  let ok := s.phasesOk x.bytes
  let said := (s.track.commit.map (·.phaseSaid)).getD true
  let s1 : State := if ok || said then s
    else { s.report 0x3002 wfIid with track := { s.track with commit := s.track.commit.map fun c => { c with phaseSaid := true } } }
  (s1, ok && s.expanded x)

/-- The switch to table t, which the expansion's bank holds. -/
def State.weftSwitch (s : State) (t : Table) : State :=
  s.setWeft fun w => { w with tab := some t, bank := (w.exp.map (·.bank)).getD w.bank, exp := none }

/-- The Weft at the start of turn n, under its table: the Board of turn n+1 begins, and turn n's views have the generation that
was in force up to its start (R188), with its table `pat` in bank `b`. Turn 0 depends on that bank too, though it has no Board. -/
def State.weftTurn (s : State) (n : Nat) (pat : Option Table) (b : Nat) : State :=
  let s1 := s.setWeft fun w => { w with
    viewGen := (pat.map (·.gen)).getD 0, viewBank := if pat.isSome then b else 0,
    uses := w.uses ++ (if n = 0 ∧ pat.isSome then [(s.hg.run, 0, b)] else []) ++
      (if w.tab.isSome then [(s.hg.run, n + 1, w.bank)] else []) }
  (s1.newBoard (n + 1)).bankSweep

/-! ### The warp (R189, R190) -/

/-- The source entry and the frame of a stream that feeds turn x; none where the stream is absent. -/
def feeding (b : List Byte) (x : TurnRec) (stream : Nat) : Option (List Byte × SpFrame) :=
  if stream = 0xFF then none
  else match patSourceOf b stream, x.frames.find? (fun f => f.1 == stream) with
    | some j, some f => some (patSource b j, f.2)
    | _, _ => none

/-- R, G and B of a sample, as 8 bits: the high 8 bits, rounded to nearest, ties to even. -/
def rgb8 : List Nat → List Nat
  | [y] => let v := min 255 (roundEven y 256).toNat; [v, v, v]
  | l => l.map fun (c : Nat) => min 255 (roundEven c 256).toNat

/-- The sample of a feeding stream at a pixel. -/
def State.feedAt (s : State) (v : List Byte) (rot : List Nat) (x y : Nat) : Option (List Byte × SpFrame) → Option (List Nat)
  | none => none
  | some (src, f) => match gridAt (viewNode v src rot) 0 0 x y with
    | some p => if inImage src p then some (rgb8 (s.sampleAt src f p)) else none
    | none => none

/-- The bytes of a raster row. -/
def rasterBytesOf (fmt : Nat) : Nat → List (List Nat) → List Byte
  | 0, _ => []
  | k + 1, px =>
    if fmt = 0 then (px.headD []).flatMap (leBytes 1) ++ rasterBytesOf fmt k (px.drop 1)
    else yuvPair ((px.take 2).flatMap id) ++ rasterBytesOf fmt (k - 1) (px.drop 2)

/-- The stabilisation of view v in turn x (R190): the rotation, empty for identity, and the reference after it. -/
def State.stabOf (s : State) (b : List Byte) (x : TurnRec) (v : Nat) : List Nat × List Nat :=
  let ve := patView b v
  let ref := spGet (fun _ => []) s.weft.stab v
  match feeding b x (leAt ve 0 1) with
  | some (src, f) =>
    if leAt ve 3 1 / 2 % 2 = 1 ∧ s.meOn then
      let p := s.pair HG_TURN_PER_LO
      let att := Config.attitudeAt s.me.num s.me.time src f.fs
      let ref2 := if ref.isEmpty then att else Config.slerp ref att (stabFraction ve p)
      if s.get RF_STEP_S < 3 ∧ s.fresh.holdSince.isNone then (stabTurn ve att ref2, ref2) else ([], ref2)
    else ([], ref)
  | none => ([], ref)

/-- Warp one view of turn x into its raster; a row that finds no pinned mapping is dropped (R174). -/
def State.warpView (s : State) (b : List Byte) (x : TurnRec) (v : Nat) : State × Nat :=
  let ve := patView b v
  let (rot, ref) := s.stabOf b x v
  let a := feeding b x (leAt ve 0 1)
  let c := feeding b x (leAt ve 1 1)
  let fill := [leAt ve 48 1, leAt ve 49 1, leAt ve 50 1]
  let w := leAt ve 4 2
  let s1 := (List.range (leAt ve 6 2)).foldl (fun s y =>
    let px := (List.range w).map fun x => ((s.feedAt ve rot x y a).orElse fun _ => s.feedAt ve rot x y c).getD fill
    match s.pinnedWrite wfIid (patTenant b) (rasterVa b v (x.turn % 2) + y * rasterRow ve) (rasterBytesOf (leAt ve 2 1) w px) {} with
    | (s1, true) => s1
    | (s1, false) => s1.boardFault) s
  ((s1.setWeft fun z => { z with stab := spPut (fun _ => []) z.stab v ref }).setReg (WF_VIEW_DONE v)
    (BitVec.ofNat 32 ((s.hg.dt - s.turnInstant x.turn) / 256)), if rot.isEmpty then 0 else 1)

/-- The first open turn that satisfies `p`. -/
def State.firstTurn (s : State) (p : TurnRec → Bool) : Option TurnRec := s.loom.turns.find? p

/-- Change that turn. -/
def State.modTurn (s : State) (x : TurnRec) (f : TurnRec → TurnRec) : State :=
  s.setTurns (modFirst (fun y => y.run == x.run && y.turn == x.turn) f)

/-- VIEW_WARP (R189): the ME has completed the turn. FLAGS of the embedded-data line go with each view (R198, R214). -/
def State.viewWarp (s : State) : State :=
  match s.firstTurn fun x => x.meDone && !x.warped with
  | none => s
  | some x => match x.pat with
    | none => s.modTurn x fun y => { y with warped := true }
    | some t =>
      let hold := if s.meOn && s.fresh.holdSince.isSome then 2 else 0
      if !s.is WF_CTL_EN then s.modTurn x fun y => { y with warped := true, viewFlags := [hold, hold, hold, hold] }
      else
        let (s1, fl) := (List.range 4).foldl (fun (s, l) v =>
          if patViewEn t.bytes v then
            let (s1, f) := s.warpView t.bytes x v
            (s1, l ++ [f + hold])
          else (s, l ++ [0])) (s, ([] : List Nat))
        s1.modTurn x fun y => { y with warped := true, viewFlags := fl }

/-- EXPANSION_START (R187). -/
def execExpansionStart (s : State) : Ans := s.done s.expStart

/-- VIEW_WARP (R189). -/
def execViewWarp (s : State) : Ans := s.done s.viewWarp

end Sys2Proof.Machine
end

