-- ==== Sys2Proof/Machine/Me.lean ====
section
/-! DEFINITION. The Motion Estimator: its table, its inputs and their order, the state it keeps, detections and tracks, and the
Ego Record and Track List (06_board_fusion.md R191-R200, R206-R208). Its formulas stand in Motion.lean. -/

namespace Sys2Proof.Machine

open Reg

/-- The Initiator ID of the ME (R201). -/
def meIid : Nat := 18

def State.setMe (s : State) (f : Me → Me) : State := { s with me := f s.me }

/-! ### The Motion table (R191, R192, R201) -/

def motImu (b : List Byte) (i : Nat) : List Byte := (b.drop (64 + 64 * i)).take 64

def motWheel (b : List Byte) (w : Nat) : List Byte := (b.drop (320 + 32 * w)).take 32

def motSteer (b : List Byte) : List Byte := (b.drop 448).take 16

/-- A wheel's EN. -/
def wheelOn (e : List Byte) : Bool := leAt e 6 1 == 1

/-- The IMU entries that PRIMARY and SECONDARY name. -/
def motSlots (b : List Byte) : List Nat := [leAt b 16 1, leAt b 17 1].filter (· < 4)

def signalOk (e : List Byte) : Bool :=
  decide (leAt e 0 1 ≤ 1 ∧ leAt e 1 1 ≤ 63 ∧ 1 ≤ leAt e 4 1 ∧ leAt e 4 1 ≤ 32 ∧ leAt e 5 1 ≤ 1)

/-- A Motion table passes (R201). -/
def motionOk (b : List Byte) : Bool :=
  decide (leAt b 16 1 ≤ 3) && decide (leAt b 17 1 ≤ 3 ∨ leAt b 17 1 = 0xFF) && decide (2 ≤ leAt b 36 1 ∧ leAt b 36 1 ≤ 8) &&
    decide (1 ≤ leAt b 37 1) && decide (100 ≤ leAt b 38 2 ∧ leAt b 38 2 ≤ 5000) &&
    (motSlots b).all (fun i =>
      let e := motImu b i
      decide (leAt e 6 1 ≤ 1 ∧ leAt e 7 1 ≤ 1) && (List.range 6).all (fun k => decide (leAt e k 1 ≤ 31)) && quatOk (e.drop 16)) &&
    (List.range 4).all (fun w => !wheelOn (motWheel b w) || signalOk (motWheel b w)) &&
    (!wheelOn (motSteer b) || (signalOk (motSteer b) && decide (leAt (motSteer b) 7 1 ≤ 1)))

/-- The table in force at an instant (R192). -/
def tableAt : List (Nat × Option Table) → Option Table → Nat → Option Table
  | [], cur, _ => cur
  | (t, old) :: r, cur, u => if u < t then tableAt r old u else cur

/-! ### State (R193, R196, R198) -/

/-- The ME begins to run: its state is the initial one, from this instant on. -/
def State.meStart (s : State) : State :=
  s.setMe fun m => { tab := m.tab, past := m.past, num := Config.meInit, time := s.hg.dt, nextId := m.nextId }

/-- The speeds of the rear wheels, as FP64. -/
def State.rearSpeeds (s : State) : List Nat :=
  [2, 3].filterMap fun w => (spGet (fun _ => none) s.me.wheels w).bind (·.speed)

/-- A reset of the state (R196). The mean accelerometer vector is over samples that the spec does not name. -/
def State.meResetNow (s : State) : State :=
  (s.took.setMe fun m => { m with num := meReset m.num s.free s.rearSpeeds, wasReset := true, clones := [] }).bump
    (whole ME_RESETS)

/-- R196: the trace exceeds COV_MAX of table b. -/
def State.diverged (s : State) (b : List Byte) : Bool :=
  fpCmp (fpDecode .fp32 (leAt b 40 4)) (fpDecode .fp64 (meTrace s.me.num)) == -1

/-- After an update: a divergence resets (R196, R208). -/
def State.meCheck (s : State) (b : List Byte) : State := if s.diverged b then (s.report 0x3014 meIid).meResetNow else s

/-- The state is brought to an instant at constant velocity and angular rate (R196). -/
def State.meCoastTo (s : State) (t : Nat) : State :=
  s.setMe fun m => { m with num := meCoast m.num (t - m.time), time := t }

/-- A Kalman update of R194 by table b: 0 forward speed, 1 non-holonomic, 2 yaw from wheels, 3 yaw from steering, 4 zero
velocity. -/
def State.meMeasure (s : State) (b : List Byte) (kind : Nat) (args : List Nat) (bit : Nat) : State :=
  s.setMe fun m => { m with num := meUpdate b kind args m.num, used := m.used ||| 2 ^ bit }

/-- A rejection is reported and counted (R195). -/
def State.meReject (s : State) (code : Nat) (f : Fld) : State := (s.report code meIid).bump f

/-! ### IMU samples (R191, R195) -/

/-- The signed raw value of axis k of a sample. -/
def imuRaw (e data : List Byte) (k : Nat) : Int :=
  let n := if leAt e 6 1 = 0 then 2 else 4
  let bs := (data.drop (leAt e k 1)).take n
  signed (8 * n) (leNat (if leAt e 7 1 = 0 then bs else bs.reverse))

/-- The axis lies beyond its limit: |raw × scale| is above it. -/
def beyond (raw : Int) (scale limit : Nat) : Bool :=
  let v := (exactMul (.fin false raw.natAbs 0) (fpDecode .fp32 scale)).1
  let a := if v.neg? then v.flip else v
  !a.isNan && fpCmp (fpDecode .fp32 limit) a == -1

/-- A sample of the table's IMU slot i (R193, R195). -/
def State.meImu (s : State) (b : List Byte) (x : MeInput) : State :=
  let i := x.unit
  let e := motImu b i
  let primary := leAt b 16 1
  let uses := i == primary || (i == leAt b 17 1 && s.fresh.imuGone.testBit primary)
  if !uses then s
  else if x.stamp < s.me.time then s.meReject 0x3013 ME_REJECT_STALE
  else if (List.range 6).any fun k =>
      beyond (imuRaw e x.data k) (leAt e (if k < 3 then 8 else 12) 4) (leAt e (if k < 3 then 32 else 36) 4) then
    s.meReject 0x3010 ME_REJECT_IMU
  else
    let raw := (List.range 6).map fun k => unsign 32 (imuRaw e x.data k)
    (s.setMe fun m => { m with
      num := mePropagate b m.num (i :: raw) (x.stamp - m.time), time := x.stamp, used := m.used ||| 1 }).meCheck b

/-! ### Wheels and steering (R192, R194, R195) -/

/-- Bit n of CAN data. -/
def canBit (data : List Byte) (n : Nat) : Nat := bitsOf (leAt data (n / 8) 1) (n % 8) 1

/-- The signal of an entry: its bits, least significant last in the list (R192). -/
def signalBits (e : List Byte) : List Nat :=
  let start := leAt e 2 2
  let len := leAt e 4 1
  if leAt e 5 1 = 0 then (List.range len).reverse.map (start + ·)
  else (List.range len).map fun k =>
    let p := start / 8 * 8 + (7 - start % 8) + k
    p / 8 * 8 + (7 - p % 8)

/-- The raw value of a signal; a bit that the frame does not have is not defined. -/
def State.signal (s : State) (e data : List Byte) : State × Nat :=
  let ns := signalBits e
  if ns.all fun n => decide (n < 8 * data.length) then (s, ns.foldl (fun v n => 2 * v + canBit data n) 0)
  else (s.took, s.free % 2 ^ leAt e 4 1)

/-- A count as FP64, and a time in units as FP64 seconds. -/
def fp64Nat (n : Nat) : Nat := (fpRound .fp64 (.fin false n 0)).bits

def fp64Secs (u : Nat) : Nat := (fpDiv .fp64 (fp64Nat u) (fp64Nat 256000000000)).bits

def fp64Of32 (x : Nat) : Nat := (fpConvert .fp32 .fp64 x).bits

/-- `a` is above `b`, both FP64. -/
def fp64Gt (a b : Nat) : Bool := fpCmp (fpDecode .fp64 b) (fpDecode .fp64 a) == -1

/-- The magnitude of an FP64 value. -/
def fp64Abs (a : Nat) : Nat := a % 2 ^ 63

/-- Wheel speed (R194): |Δticks mod MODULUS| × M_PER_TICK / Δt. -/
def wheelSpeed (e : List Byte) (p : MeWheel) (stamp ticks : Nat) : Nat :=
  let d := (((ticks : Int) - p.ticks) % (leAt e 8 4 : Nat)).natAbs
  (fpDiv .fp64 (fpMul .fp64 (fp64Nat d) (fp64Of32 (leAt e 12 4))).bits (fp64Secs (stamp - p.stamp))).bits

/-- R195: the speed, or its change, is implausible. -/
def wheelBad (e : List Byte) (p : MeWheel) (stamp v : Nat) : Bool :=
  fp64Gt v (fp64Of32 (leAt e 16 4)) ||
    match p.speed with
    | some v0 =>
      fp64Gt (fp64Abs (fpSub .fp64 v (fp64Abs v0)).bits)
        (fpMul .fp64 (fp64Of32 (leAt e 20 4)) (fp64Secs (stamp - p.stamp))).bits
    | none => false

def State.setWheel (s : State) (w : Nat) (x : MeWheel) : State :=
  s.setMe fun m => { m with wheels := spPut (fun _ => none) m.wheels w (some x) }

/-- The updates that a rear-wheel frame brings (R194). -/
def State.rearUpdate (s : State) (b : List Byte) : State :=
  let s1 := (s.meMeasure b 0 s.rearSpeeds 1).meMeasure b 1 [] 1
  match spGet (fun _ => none) s1.me.wheels 2, spGet (fun _ => none) s1.me.wheels 3 with
  | some l, some r =>
    if l.fresh && r.fresh && l.speed.isSome && r.speed.isSome then
      ((s1.meMeasure b 2 s1.rearSpeeds 1).setWheel 2 { l with fresh := false }).setWheel 3 { r with fresh := false }
    else s1
  | _, _ => s1

/-- A frame of wheel w (R193-R195). A rejected frame leaves no trace but its report. -/
def State.meWheel (s0 : State) (b : List Byte) (w : Nat) (x : MeInput) : State :=
  let e := motWheel b w
  let (s, ticks) := s0.signal e x.data
  match spGet (fun _ => none) s.me.wheels w with
  | none => (s.meCoastTo x.stamp).setWheel w { stamp := x.stamp, ticks := ticks, still := x.stamp, fresh := true }
  | some p =>
    let v := wheelSpeed e p x.stamp ticks
    if wheelBad e p x.stamp v then s.meReject 0x3011 ME_REJECT_WHEEL
    else
      let s1 := s.meCoastTo x.stamp
      let back := (fpDecode .fp64 (meForward s1.me.num)).neg? && !(fpDecode .fp64 (meForward s1.me.num)).isZero
      let s2 := s1.setWheel w { stamp := x.stamp, ticks := ticks, speed := some (if back then v % 2 ^ 63 + 2 ^ 63 else v),
                                still := if ticks = p.ticks then p.still else x.stamp, fresh := true }
      if 2 ≤ w then (s2.rearUpdate b).meCheck b else s2

/-- A steering frame (R194): the angle counts at a speed above 1 m/s. -/
def State.meSteer (s0 : State) (b : List Byte) (x : MeInput) : State :=
  let e := motSteer b
  let (s, raw) := s0.signal e x.data
  let s1 := s.meCoastTo x.stamp
  if fp64Gt (meForward s1.me.num) (fp64Nat 1) then (s1.meMeasure b 3 [raw] 1).meCheck b else s1

/-- The wheels, then 4 for steering, that a frame of a mailbox feeds. -/
def fedBy (b : List Byte) (c m : Nat) : List Nat :=
  (List.range 5).filter fun w =>
    let e := if w < 4 then motWheel b w else motSteer b
    wheelOn e && leAt e 0 1 == c && leAt e 1 1 == m

/-- A frame of a mailbox (R193). -/
def State.meFrame (s : State) (b : List Byte) (x : MeInput) : State :=
  let l := fedBy b x.unit x.box
  if l.isEmpty then s
  else if x.stamp < s.me.time then s.meReject 0x3013 ME_REJECT_STALE
  else l.foldl (fun s w => if w < 4 then s.meWheel b w x else s.meSteer b x) s

/-! ### Inputs in order (R193, R207) -/

/-- An input arrives. -/
def State.meInput (s : State) (x : MeInput) : State := if s.meOn then s.setMe fun m => { m with queue := m.queue ++ [x] } else s

/-- Of two inputs the one processed first: by stamp, then IMU samples. -/
def MeInput.before (a b : MeInput) : Bool := decide (a.stamp < b.stamp) || (a.stamp == b.stamp && a.imu && !b.imu)

/-- The input processed next. -/
def nextInput : List MeInput → Option MeInput
  | [] => none
  | x :: r => match nextInput r with
    | some y => if y.before x then some y else some x
    | none => some x

/-- ME_INPUT_PROCESS (R193): the next input, once its window has passed. -/
def State.meProcess (s : State) : State :=
  match nextInput s.me.queue with
  | none => s
  | some x =>
    if !s.meOn || decide (s.hg.dt < x.stamp + (s.reg ME_WINDOW).toNat * 256000) then s
    else
      let s1 := s.setMe fun m => { m with queue := m.queue.erase x }
      match tableAt s.me.past s.me.tab x.stamp with
      | none => s1
      | some t => if x.imu then s1.meImu t.bytes x else s1.meFrame t.bytes x

/-- The wheels whose EN is set. -/
def wheelsOn (b : List Byte) : List Nat := (List.range 4).filter fun w => wheelOn (motWheel b w)

/-- ZERO_VELOCITY_UPDATE (R194): the counts of every enabled wheel have stood for ZUPT_MS; Device Time runs on to that. -/
def State.meZero (s : State) : State :=
  match s.me.tab with
  | none => s
  | some t =>
    let ws := (wheelsOn t.bytes).map fun w => spGet (fun _ => none) s.me.wheels w
    if !s.meOn || ws.isEmpty || ws.any (·.isNone) then s
    else
      let last := (ws.map fun w => (w.map (·.still)).getD 0).foldl max 0
      ((s.advanceTo (last + leAt t.bytes 38 2 * 256000000)).meMeasure t.bytes 4 [] 3).meCheck t.bytes

/-- A write to ME_CTL (R196, R198). -/
def State.meCtl (s : State) (iid : Nat) (v : Word) : State :=
  let was := s.meOn
  let s1 := (s.plainWrite iid ME_CTL v).putB ME_CTL_RESET false
  let s2 := if s1.meOn && !was then s1.meStart else s1
  if v.getLsbD 1 && s2.meOn then s2.meResetNow else s2

/-- A Motion table comes into force (R192, R198). -/
def State.meSwitch (s : State) (t : Table) : State :=
  let was := s.meOn
  let s1 := s.setMe fun m => { m with tab := some t, past := (s.hg.dt, m.tab) :: m.past.take 7 }
  if s1.meOn && !was then s1.meStart else s1

/-! ### Detections and tracks (R197, R199) -/

def State.track? (s : State) (i : Nat) : Option MeTrack := spGet (fun _ => none) s.me.tracks i

def State.putTrack (s : State) (i : Nat) (x : Option MeTrack) : State :=
  s.setMe fun m => { m with tracks := spPut (fun _ => none) m.tracks i x }

/-- The eligible pairs, as distance, track and detection. -/
def State.pairs (s : State) (gate : Nat) (dets : List (List Byte)) : List (Nat × Nat × Nat) :=
  (List.range 32).flatMap fun i => match s.track? i with
    | none => []
    | some t => (List.range dets.length).filterMap fun k =>
        let d := dets.getD k []
        let m := trackDist t.num d
        if t.cls = leAt d 0 1 ∧ !fp64Gt m (fp64Of32 gate) ∧ !(fpDecode .fp64 m).isNan then some (m, i, k) else none

/-- The pair taken next: ascending distance, then track, then detection; the list is in the order of the last two. -/
def bestPair : List (Nat × Nat × Nat) → Option (Nat × Nat × Nat)
  | [] => none
  | x :: r => match bestPair r with
    | some y => if fp64Gt x.1 y.1 then some y else some x
    | none => some x

/-- Greedy pairing. -/
def greedy : Nat → List (Nat × Nat × Nat) → List (Nat × Nat)
  | 0, _ => []
  | n + 1, l => match bestPair l with
    | none => []
    | some (_, i, k) => (i, k) :: greedy n (l.filter fun x => x.2.1 != i && x.2.2 != k)

/-- A track after a hit. -/
def MeTrack.hit (t : MeTrack) (confirm : Nat) (d : List Byte) : MeTrack :=
  { t with num := Config.trackHit t.num d, hits := t.hits + 1, misses := 0,
           st := if t.st = 0 then (if confirm ≤ t.hits + 1 then 1 else 0) else 1 }

/-- A track after a miss; none where it is deleted. -/
def MeTrack.miss (t : MeTrack) (missMax : Nat) : Option MeTrack :=
  let t1 := { t with misses := t.misses + 1 }
  if t.st = 0 then (if 2 ≤ t1.misses then none else some t1)
  else if t.st = 1 then some { t1 with st := 2 }
  else if missMax ≤ t1.misses then none else some t1

/-- An unpaired detection begins a track where one is free. -/
def State.birth (s : State) (conf : Nat) (d : List Byte) : State :=
  if fpCmp (fpDecode .fp32 (leAt d 40 4)) (fpDecode .fp32 conf) == -1 then s
  else match firstIdx (fun i => (s.track? i).isNone) 32 with
    | none => s.report 0x3020 meIid
    | some i =>
      (s.putTrack i (some { id := s.me.nextId, cls := leAt d 0 1, num := trackBirth d })).setMe fun m =>
        { m with nextId := (m.nextId + 1) % 2 ^ 32 }

/-- Tracks move to TDET, pair, and change state (R197, R199). -/
def State.trackTurn (s : State) (b : List Byte) (tdet : Nat) (dets : List (List Byte)) : State :=
  let dt : Int := (s.me.tdet.map fun t => (tdet : Int) - t).getD 0
  let s1 := s.setMe fun m => { m with
    tdet := some tdet,
    tracks := m.tracks.map fun x => (x.1, x.2.map fun t => { t with num := trackPredict b t.num dt }) }
  let got := greedy 32 (s1.pairs (leAt b 28 4) dets)
  let s2 := (List.range 32).foldl (fun s i => match s.track? i with
    | none => s
    | some t => match got.find? (fun p => p.1 == i) with
      | some (_, k) => s.putTrack i (some (t.hit (leAt b 36 1) (dets.getD k [])))
      | none => s.putTrack i (t.miss (leAt b 37 1))) s1
  (List.range dets.length).foldl (fun s k =>
    if got.any (fun p => p.2 == k) then s else s.birth (leAt b 32 4) (dets.getD k [])) s2

/-! ### The turn update (R195, R197, R200) -/

/-- The VMR of a detection header is usable: every value finite, its covariance positive definite. -/
def vmrOk (h : List Byte) : Bool :=
  (List.range 28).all (fun k => match fpDecode .fp32 (leAt h (32 + 4 * k) 4) with
    | .fin _ _ _ => true
    | _ => false) && posDef ((List.range 21).map fun k => leAt h (60 + 4 * k) 4)

/-- Visual motion (R194, R195): it relates the clones of the last two TDETs. -/
def State.visual (s : State) (b h : List Byte) (tdet : Nat) : State :=
  let cl := Config.meClone s.me.num ((tdet : Int) - s.me.time)
  let s1 := if leAt h 17 1 = 0 then s
    else if !vmrOk h then s.meReject 0x3012 ME_REJECT_VMR
    else match s.me.clones with
      | (_, c0) :: _ =>
        (s.setMe fun m => { m with num := Config.meVisual m.num c0 cl ((h.drop 32).take 112), used := m.used ||| 4 }).meCheck b
      | [] => s
  s1.setMe fun m => { m with clones := [(tdet, cl)] }

/-- The Ego Record of turn n (R200). -/
def State.egoRecord (s : State) : List Byte :=
  let f64 (i : Nat) := leBytes 8 (s.me.num.getD i 0)
  dtBytes s.me.time ++ (List.range 4).flatMap f64 ++ (List.range 3).flatMap (fun i => f64 (4 + i)) ++
    (List.range 3).flatMap (fun i => f64 (241 + i)) ++ leBytes 8 (meTraceAll s.me.num) ++ leBytes 1 s.me.used ++
    leBytes 1 ((if s.holdover then 1 else 0) + (if s.me.wasReset then 2 else 0)) ++ leBytes 2 (min s.holdMs 65535) ++
    leBytes 4 ((s.me.tab.map (·.gen)).getD 0) ++ leBytes 16 0

/-- The entry of a track. -/
def MeTrack.bytes (t : MeTrack) : List Byte :=
  leBytes 4 t.id ++ leBytes 1 t.cls ++ leBytes 1 (Config.trackState t.st) ++ leBytes 2 (min t.misses 65535) ++
    (List.range 6).flatMap (fun i => leBytes 8 (t.num.getD i 0)) ++ leBytes 8 (trackTrace t.num)

/-- The Track List of turn n (R200). -/
def State.trackList (s : State) (n : Nat) : List Byte :=
  let l := s.me.tracks.filterMap (·.2)
  leBytes 2 l.length ++ leBytes 2 0 ++ leBytes 4 n ++ leBytes 8 0 ++ l.flatMap MeTrack.bytes

/-- The ME reads the detections of turn n: header and entries; none where a fault holds it, `some none` where the input is
absent (R427). -/
def State.detections (s : State) (t va : Nat) : State × Option (Option (List Byte × List (List Byte))) :=
  match s.tenantRead meIid t va 160 {} with
  | (s1, h) =>
    if h.fault.isSome then (s1, none)
    else if h.poison then (s1, some none)
    else
      let n := leAt h.bytes 16 1
      let s2 := if 64 < n then s1.report 0x3021 meIid else s1
      match s2.tenantRead meIid t (va + 160) (48 * min n 64) {} with
      | (s3, d) =>
        if d.fault.isSome then (s3, none)
        else if d.poison then (s3, some none)
        else (s3, some (some (h.bytes, (List.range (min n 64)).map fun k => (d.bytes.drop (48 * k)).take 48)))

/-- The ME completes turn x. -/
def State.meFinish (s : State) (x : TurnRec) (gen : Nat) (ego : List Byte) : State :=
  s.modTurn x fun y => { y with meDone := true, motGen := gen, ego := ego }

/-- ME_TURN_UPDATE (R197, R198, R200): the oldest turn whose program has completed. -/
def State.meTurn (s : State) : State :=
  match s.firstTurn fun x => x.ended && !x.meDone && !x.held with
  | none => s
  | some x => match s.me.tab, s.weft.tab with
    | some m, some p =>
      if !s.meOn then s.meFinish x 0 []
      else
        let t := patTenant p.bytes
        match s.detections t (leAt m.bytes 0 8 + x.turn % 2 * 4096) with
        | (s1, none) => s1.modTurn x fun y => { y with held := true }
        | (s1, some d) =>
          let s2 := match d with
            | some (h, dets) => (s1.visual m.bytes h (leAt h 0 9)).trackTurn m.bytes (leAt h 0 9) dets
            | none => s1
          let out := s2.egoRecord ++ s2.trackList x.turn
          match s2.tenantWrite meIid t (leAt m.bytes 8 8 + x.turn % 2 * 4096) out {} with
          | (s3, r) =>
            if r.fault.isSome then s3.modTurn x fun y => { y with held := true }
            else (s3.setMe fun e => { e with last := e.used, used := 0, wasReset := false }).meFinish x m.gen out
    | _, _ => s.meFinish x 0 []

/-- ME_INPUT_PROCESS (R193). -/
def execMeInputProcess (s : State) : Ans := s.done s.meProcess

/-- ZERO_VELOCITY_UPDATE (R194). -/
def execZeroVelocityUpdate (s : State) : Ans := s.done s.meZero

/-- ME_RESET (R196). -/
def execMeReset (iid : Iid) (v : Word) (s : State) : Ans := s.done (s.writeWith iid ME_CTL fun s => s.meCtl iid.toNat v)

/-- ME_TURN_UPDATE (R197). -/
def execMeTurnUpdate (s : State) : Ans := s.done s.meTurn

end Sys2Proof.Machine
end

