-- ==== Sys2Proof/Machine/Loom.lean ====
section
/-! DEFINITION. The Loom: assembly and release of Turn Result Records, view frames and their transmit ports (07_loom.md). -/

namespace Sys2Proof.Machine

open Reg

/-- The Initiator ID of the Loom (R46). -/
def lmIid : Nat := 19

def State.setLoom (s : State) (f : Loom → Loom) : State := { s with loom := f s.loom }

def State.port (s : State) (p : Nat) : LmPort := spGet (fun _ => {}) s.loom.ports p

def State.setPort (s : State) (p : Nat) (x : LmPort) : State := s.setLoom fun l => { l with ports := spPut (fun _ => {}) l.ports p x }

/-- The record tenant. -/
def State.recTenant (s : State) : Nat := s.get LM_REC_CFG_TENANT

/-- The slots of the record ring. -/
def State.recSize (s : State) : Nat := 2 ^ s.get LM_REC_CFG_LOG2COUNT

/-! ### Configuration (R211, R226, R440) -/

/-- R211: at most two views on a port, on different virtual channels. -/
def State.viewsOk (s : State) : Bool :=
  let on (p : Nat) := ((List.range 4).filter fun v => s.get (LM_VIEW_CFG_PORT v) == p).map fun v => s.get (LM_VIEW_CFG_VC v)
  let ok (l : List Nat) := match l with
    | [] => true
    | [_] => true
    | [a, b] => a != b
    | _ => false
  ok (on 0) && ok (on 1)

/-- The Loom's pins are released. -/
def State.loomUnpin (s : State) : State := s.unpin fun o => decide (o = PinOwner.loom)

/-- A write to LM_CTL: EN 1 pin-walks the record ring and the manifests; EN 0 releases them (R440). -/
def State.loomCtl (s : State) (v : Word) : State :=
  if !v.getLsbD 0 then (s.putB LM_CTL_EN false).loomUnpin
  else if !s.is LM_CTL_EN && !s.viewsOk then s
  else
    let s1 := if s.is LM_CTL_EN then s
      else (s.putB LM_CTL_EN true).setLoom fun l => { l with recSeq := 0, sent := [], dropped := [], ring := true }
    let s2 := (s1.loomUnpin.pinWalk .loom s.recTenant (s.pair LM_REC_BASE_LO) (4096 * s.recSize) true {}).1
    (s2.pinWalk .loom s.recTenant (s.pair LM_MAN_BASE_LO) 8192 false {}).1

/-- The counts of view v go back to those before a frame that was not sent to its end: R214 counts frames sent. -/
def State.unsent (s : State) (f : LmFrame) (more : Nat) : State :=
  let d := min (leAt f.emb 48 2 + spGet (fun _ => 0) s.loom.dropped f.view + more) 65535
  (s.setReg (LM_VIEW_SEQ f.view) f.seqWas).setLoom fun l => { l with
    sent := spPut (fun _ => 0) l.sent f.view (leAt f.emb 20 4), dropped := spPut (fun _ => 0) l.dropped f.view d }

/-- The frame on the wire ends without a frame end (R225, R231). -/
def State.cutWire (s : State) (p : Nat) (aborted : Bool) : State :=
  match (s.port p).wire with
  | none => s
  | some (f, stop, _) =>
    let s1 := s.setPort p { s.port p with wire := none }
    if stop ≤ s.hg.dt then s1
    else
      let s2 := s1.emit (.viewCut p)
      if aborted then (s2.bump (LM_PORT_DROP_ABORTED p)).unsent f 1 else s2.unsent f 0

/-- STX_LOCK_LOSS (R225). -/
def State.stxLoss (s : State) (p : Nat) : State :=
  if !(s.port p).locked then s
  else (s.cutWire p true).setPort p { (s.cutWire p true).port p with locked := false, lost := s.hg.dt }

/-- A write to LM_PORT_CFG[p] (R211, R224, R226). A port without EN has no lock; its PLL starts again at a rate change. -/
def State.lmPortCfg (s : State) (iid p : Nat) (v : Word) : State :=
  let old := s.reg (LM_PORT_CFG p)
  let fixed : Word := 0xFFF6
  let v1 := if s.is (LM_PORT_CFG_EN p) || s.is LM_CTL_EN then (v &&& ~~~ fixed) ||| (old &&& fixed) else v
  let v2 := if v.getLsbD 0 && !old.getLsbD 0 && !s.viewsOk then v1 &&& ~~~ 1 else v1
  let s1 := s.plainWrite iid (LM_PORT_CFG p) v2
  if s1.is (LM_PORT_CFG_EN p) then
    if old.getLsbD 0 then s1 else s1.setPort p { s1.port p with locked := false, lost := s.hg.dt }
  else s1.stxLoss p

/-- A write to LM_VIEW_CFG[v] (R226): only STALE_SUPPRESS while the view's port or the Loom has EN 1. -/
def State.lmViewCfg (s : State) (iid v : Nat) (x : Word) : State :=
  let old := s.reg (LM_VIEW_CFG v)
  if s.is LM_CTL_EN || s.is (LM_PORT_CFG_EN (s.get (LM_VIEW_CFG_PORT v))) then
    s.plainWrite iid (LM_VIEW_CFG v) ((old &&& ~~~ 0x200) ||| (x &&& 0x200))
  else s.plainWrite iid (LM_VIEW_CFG v) x

/-! ### Assembly (R216) -/

/-- Read the payload of a manifest entry: none where a fault holds the Loom; poisoned, it is absent (R427). -/
def State.payload (s : State) (t : Nat) (m : List Byte) : State × Option LmRec :=
  let len := leAt m 16 4
  match s.tenantRead lmIid t (leAt m 8 8 % 2 ^ 48) (min len 3968) {} with
  | (s1, r) =>
    if r.fault.isSome then (s1, none)
    else (s1, some { id := leAt m 0 2, cls := leAt m 2 1, groups := leAt m 3 1,
                     payload := if r.poison then [] else r.bytes, trunc := decide (3968 < len) })

/-- The records of manifest entries, in order. -/
def State.payloads (s : State) (t : Nat) : List (List Byte) → State × Option (List LmRec)
  | [] => (s, some [])
  | m :: r => match s.payload t m with
    | (s1, none) => (s1, none)
    | (s1, some x) => match s1.payloads t r with
      | (s2, none) => (s2, none)
      | (s2, some l) => (s2, some (x :: l))

/-- The manifest of turn n: its entries; none where it is absent. -/
def State.manifest (s : State) (n : Nat) : State × List (List Byte) :=
  match s.pinnedRead lmIid s.recTenant (s.pair LM_MAN_BASE_LO + n % 2 * 4096) 496 {} with
  | (s1, none) => (s1, [])
  | (s1, some r) =>
    if r.poison then (s1, [])
    else
      let k := leAt r.bytes 0 1
      (if 15 < k then s1.bump LM_STAT_MAN_TRUNC else s1,
        (List.range (min k 15)).map fun i => (r.bytes.drop (16 + 32 * i)).take 32)

/-- RECORD_ASSEMBLY (R216): the oldest turn that the ME has completed. -/
def State.assemble (s : State) : State :=
  match s.firstTurn fun x => x.meDone && x.recs.isNone && !x.held with
  | none => s
  | some x =>
    let (s1, ms) := s.manifest x.turn
    match s1.payloads s.recTenant ms with
    | (s2, none) => s2.modTurn x fun y => { y with held := true }
    | (s2, some l) => s2.modTurn x fun y => { y with
        ready := s2.hg.dt, recs := some (l ++ [{ id := 0xFFFF, cls := 0, groups := 0, payload := x.ego }]) }

/-! ### Release (R217-R222) -/

/-- R219: the payload is withheld. -/
def withheld (st : Stamp) (gone groups : Nat) : Bool :=
  st.step == 4 || ((st.step == 2 || st.step == 3) && groups != 0 && groups &&& gone == groups)

/-- The bytes of a slot: header and payload (R217). -/
def State.recordBytes (s : State) (x : TurnRec) (st : Stamp) (i count : Nat) (r : LmRec) : List Byte :=
  let wh := withheld st x.gone r.groups
  let pay := if wh then [] else r.payload
  let flags := wh.toNat + 2 * (st.motion.testBit 2).toNat + 4 * (i + 1 == count).toNat + 8 * r.trunc.toNat
  s.outTime ++ leBytes 8 x.turn ++ leBytes 4 x.gen ++ leBytes 4 ((x.pat.map (·.gen)).getD 0) ++ leBytes 4 x.motGen ++
    leBytes 2 r.id ++ leBytes 1 i ++ leBytes 1 count ++ leBytes 1 st.verdict ++ leBytes 1 st.step ++ leBytes 1 flags ++
    leBytes 1 r.cls ++ leBytes 4 st.causes ++ leBytes 8 x.present.toNat ++ leBytes 1 st.motion ++ leBytes 1 0 ++
    leBytes 2 (min st.holdMs 65535) ++ leBytes 2 x.fault ++ leBytes 2 (min s.loom.lostTurns 65535) ++ leBytes 4 pay.length ++
    leBytes 4 (crc32c pay).toNat ++ List.replicate 52 0 ++ leBytes 4 (s.loom.recSeq + 1) ++ pay

/-- Write the records of a turn from index i on; `lost` is the count of R217 for this turn. REC_SEQ wraps past 0. -/
def State.writeRecs (s : State) (x : TurnRec) (st : Stamp) (count : Nat) : Nat → List LmRec → State
  | _, [] => s.msix s.recTenant (s.get LM_REC_CFG_VEC)
  | i, r :: rest =>
    let head := (s.reg LM_REC_HEAD).toNat % s.recSize
    match s.pinnedWrite lmIid s.recTenant (s.pair LM_REC_BASE_LO + 4096 * head) (s.recordBytes x st i count r) {} with
    | (s1, false) =>
      let s2 := (s1.report 0x5005 lmIid).bump LM_STAT_REC_FAULT (count - i)
      if i = 0 then s2.setLoom fun l => { l with lostTurns := l.lostTurns + 1 } else s2.setLoom fun l => { l with lostTurns := 0 }
    | (s1, true) =>
      let seq := (s1.loom.recSeq + 1) % 2 ^ 32
      let s2 := (s1.setReg LM_REC_HEAD (BitVec.ofNat 32 ((head + 1) % s.recSize))).setLoom fun l =>
        { l with recSeq := if seq + 1 = 2 ^ 32 then 0 else seq }
      let s3 := if rest.isEmpty then s2.setLoom fun l => { l with lostTurns := 0 } else s2
      s3.writeRecs x st count (i + 1) rest

/-- The records of a turn go to the ring, or are dropped (R220). -/
def State.releaseRecs (s : State) (x : TurnRec) (st : Stamp) : State :=
  let l := x.recs.getD []
  let n := s.recSize
  let room := ((s.reg LM_REC_TAIL).toNat % n + n - (s.reg LM_REC_HEAD).toNat % n + n - 1) % n
  if room < l.length then (s.bump LM_STAT_REC_DROP).setLoom fun l => { l with lostTurns := l.lostTurns + 1 }
  else s.writeRecs x st l.length 0 l

/-- The embedded-data line of view v but for OUT_TIME, VIEW_SEQ, DROPPED and CRC (R214). -/
def embLine (x : TurnRec) (st : Stamp) (v : Nat) : List Byte :=
  leBytes 16 0 ++ leBytes 4 x.turn ++ leBytes 4 0 ++ leBytes 1 v ++ leBytes 1 (st.fresh.getD v 1) ++ leBytes 1 st.step ++
    leBytes 1 (x.viewFlags.getD v 0) ++ leBytes 1 st.verdict ++ leBytes 3 0 ++ leBytes 4 x.gen ++
    leBytes 4 ((x.pat.map (·.gen)).getD 0) ++ leBytes 8 x.present.toNat ++ leBytes 16 0

/-- A frame of view `v` is lost to a drop. -/
def State.viewLost (s : State) (v : Nat) : State :=
  s.setLoom fun l => { l with dropped := spPut (fun _ => 0) l.dropped v (min (spGet (fun _ => 0) l.dropped v + 1) 65535) }

/-- A frame enters a port's FIFO; a full one loses its oldest entry (R224). -/
def State.enqueue (s : State) (p : Nat) (f : LmFrame) : State :=
  let x := s.port p
  match x.fifo with
  | [a, b, c, d] => ((s.setPort p { x with fifo := [b, c, d, f] }).bump (LM_PORT_DROP_FIFO_DROP p)).viewLost a.view
  | l => s.setPort p { x with fifo := l ++ [f] }

/-- The views of a turn are queued, lower view first (R212, R215). -/
def State.releaseViews (s : State) (x : TurnRec) (st : Stamp) : State :=
  match x.pat with
  | none => s
  | some t =>
    (patViews t.bytes).foldl (fun s v =>
      let e := patView t.bytes v
      let p := s.get (LM_VIEW_CFG_PORT v)
      if !s.is (LM_PORT_CFG_EN p) || (s.is (LM_VIEW_CFG_STALE_SUPPRESS v) && st.fresh.getD v 1 == 2) then s
      else s.enqueue p
        { view := v, run := x.run, turn := x.turn, since := s.hg.dt, tenant := patTenant t.bytes,
          va := rasterVa t.bytes v (x.turn % 2), rows := leAt e 6 2, rowBytes := rasterRow e, fmt := leAt e 2 1,
          emb := embLine x st v }) s

/-- The step in force is F5: the Loom has stopped (R219, R231). -/
def State.loomStopped (s : State) : Bool := s.get RF_STEP_S == 5

/-- RELEASE (R218): the oldest turn with a verdict, its views warped. -/
def State.release (s : State) : State :=
  match s.firstTurn fun x => x.stamp.isSome with
  | none => s
  | some x => match x.stamp with
    | none => s
    | some st =>
      let views := x.pat.map fun t => patViews t.bytes
      if s.loomStopped || (!x.warped && !(views.getD []).isEmpty) then s
      else
        let s1 := s.dropTurns fun y => y.run == x.run && y.turn == x.turn
        let s2 := if s.is LM_CTL_EN && s.loom.ring then s1.releaseRecs x st else s1
        (if s.is LM_CTL_EN then s2.releaseViews x st else s2).bankSweep

/-- Turns without a verdict at the start of turn n are discarded (R218, R228). -/
def State.noVerdict (s : State) (n : Nat) : State :=
  let late (x : TurnRec) := x.run == s.hg.run && decide (x.turn + 2 ≤ n) && x.stamp.isNone
  let k := (s.loom.turns.filter late).length
  if k = 0 then s
  else ((s.dropTurns late).bump LM_STAT_NO_VERDICT k).setLoom fun l => { l with lostTurns := l.lostTurns + k }

/-! ### Transmit (R212-R214, R224, R225, R232) -/

/-- The data lanes of a port. -/
def State.stxLanes (s : State) (p : Nat) : Nat := 2 ^ s.get (LM_PORT_CFG_LANES p)

/-- The time of `bits` on a port's lanes, in units; lanes carry RATE × 10 Mb/s each. -/
def State.wireTime (s : State) (p bits : Nat) : Nat := bits * 25600 / (s.stxLanes p * max 1 (s.get (LM_PORT_CFG_RATE p)))

/-- The duration of a view frame (R212): frame start, embedded line, image lines and frame end, with their gaps. -/
def State.frameTime (s : State) (p emb rowBytes rows : Nat) : Nat :=
  s.wireTime p (8 * (8 + (emb + 6) + rows * (rowBytes + 6))) + (rows + 2) * s.get (LM_PORT_TIMING_LINE_GAP p) * 256

/-- `n` bytes that the spec does not define. -/
def State.freeBytes (s : State) : Nat → State × List Byte
  | 0 => (s, [])
  | n + 1 =>
    let (s1, r) := s.took.freeBytes n
    (s1, BitVec.ofNat 8 s.free :: r)

/-- The rows of a raster as stored, from row y on. -/
def State.rasterRows (s : State) (f : LmFrame) : Nat → Nat → State × List (List Byte)
  | 0, _ => (s, [])
  | k + 1, y =>
    let (s1, row) := match s.pinnedRead lmIid f.tenant (f.va + y * f.rowBytes) f.rowBytes {} with
      | (s1, some r) => (s1, r.bytes)
      | (s1, none) => s1.freeBytes f.rowBytes
    let (s2, r) := s1.rasterRows f k (y + 1)
    (s2, row :: r)

/-- VIEW_FRAME_TRANSMIT (R212-R214): Device Time runs on to the end of the gap after the frame before. -/
def State.transmit (s0 : State) (p : Nat) : State :=
  let x := s0.port p
  match x.fifo with
  | [] => s0
  | f :: rest =>
    if !x.locked || !s0.is (LM_PORT_CFG_EN p) || s0.loomStopped then s0
    else
      let s := s0.advanceTo ((x.wire.map (·.2.2)).getD 0)
      let seq := spGet (fun _ => 0) s.loom.sent f.view
      let b := s.outTime ++ (f.emb.drop 16).take 4 ++ leBytes 4 seq ++ (f.emb.drop 24).take 24 ++
        leBytes 2 (spGet (fun _ => 0) s.loom.dropped f.view) ++ leBytes 10 0
      let line := b ++ leBytes 4 (crc32c b).toNat
      let emb := if s.is (LM_VIEW_CFG_EMB_PAD f.view) then line ++ leBytes (f.rowBytes - 64) 0 else line
      let (s1, rows) := s.rasterRows f f.rows 0
      let stop := s.hg.dt + s.frameTime p emb.length f.rowBytes f.rows
      let s2 := (s1.emit (.viewFrame p (s.get (LM_VIEW_CFG_VC f.view)) (if f.fmt = 0 then 0x24 else 0x1E) emb rows)).setPort p
        { x with fifo := rest, wire := some ({ f with emb := line, seqWas := s.reg (LM_VIEW_SEQ f.view) }, stop, stop + s.get (LM_PORT_TIMING_FRAME_GAP p) * 256) }
      ((s2.setReg (LM_VIEW_SEQ f.view) (BitVec.ofNat 32 seq)).setLoom fun l => { l with
        sent := spPut (fun _ => 0) l.sent f.view ((seq + 1) % 2 ^ 32), dropped := spPut (fun _ => 0) l.dropped f.view 0 }).bankSweep

/-- The instant at which the oldest entry has waited 200 µs for lock. -/
def LmPort.waitEnd (x : LmPort) (f : LmFrame) : Nat := 200000 * 256 + max x.lost f.since

/-- The oldest entry is dropped for want of lock. -/
def State.lockDrop (s : State) (p : Nat) : State :=
  let x := s.port p
  match x.fifo with
  | [] => s
  | f :: rest => ((s.setPort p { x with fifo := rest }).bump (LM_PORT_DROP_LOCK_DROP p)).viewLost f.view

/-- VIEW_LOCK_DROP (R224): Device Time runs on to the end of the oldest entry's wait. -/
def State.lockWait (s : State) (p : Nat) : State :=
  let x := s.port p
  match x.fifo with
  | [] => s
  | f :: _ => if x.locked then s else ((s.advanceTo (x.waitEnd f)).lockDrop p).bankSweep

/-- Entries whose wait has ended are dropped first (R232). -/
def State.dropOverdue (s : State) (p : Nat) : Nat → State
  | 0 => s
  | k + 1 => match (s.port p).fifo with
    | [] => s
    | f :: _ => if (s.port p).waitEnd f ≤ s.hg.dt then (s.lockDrop p).dropOverdue p k else s

/-- STX_LOCK_RETURN (R224, R232). -/
def State.stxLock (s : State) (p : Nat) : State :=
  if !s.is (LM_PORT_CFG_EN p) || (s.port p).locked then s
  else
    let s1 := s.dropOverdue p 4
    s1.setPort p { s1.port p with locked := true }

/-- F5: the Loom stops at once (R231, R615). -/
def State.loomStop (s : State) : State :=
  let s1 := (s.cutWire 0 false).cutWire 1 false
  (s1.setPort 0 { s1.port 0 with fifo := [] }).setPort 1 { s1.port 1 with fifo := [] }

/-- RECORD_ASSEMBLY (R216). -/
def execRecordAssembly (s : State) : Ans := s.done s.assemble

/-- RELEASE (R218). -/
def execRelease (s : State) : Ans := s.done s.release

/-- VIEW_FRAME_TRANSMIT (R212). -/
def execViewFrameTransmit (p : Fin 2) (s : State) : Ans := s.done (s.transmit p)

/-- VIEW_LOCK_DROP (R224). -/
def execViewLockDrop (p : Fin 2) (s : State) : Ans := s.done (s.lockWait p)

/-- STX_LOCK_LOSS (R225). -/
def execStxLockLoss (p : Fin 2) (s : State) : Ans := s.done (s.stxLoss p)

/-- STX_LOCK_RETURN (R224). -/
def execStxLockReturn (p : Fin 2) (s : State) : Ans := s.done (s.stxLock p)

/-- LOOM_ENABLE (R440). -/
def execLoomEnable (iid : Iid) (v : Word) (s : State) : Ans := s.done (s.writeWith iid LM_CTL fun s => s.loomCtl v)

/-- LOOM_DISABLE (R440). -/
def execLoomDisable (iid : Iid) (v : Word) (s : State) : Ans := s.done (s.writeWith iid LM_CTL fun s => s.loomCtl v)

end Sys2Proof.Machine
end

