-- ==== Sys2Proof/Machine/Referee.lean ====
section
/-! DEFINITION. The Referee: its ruleset, the judging of a turn, the step in force, retirement, hang recovery, RF_HB and the safe
state (18_referee.md, R160-R162). -/

namespace Sys2Proof.Machine

open Reg

def State.setRef (s : State) (f : Ref → Ref) : State := { s with ref := f s.ref }

/-! ### The safe state (R594, R615, R619) -/

/-- A cause of the safe state goes into RF_SAFE_CAUSE. -/
def State.safeCause (s : State) (code : Nat) : State :=
  ((s.put RF_SAFE_CAUSE_CODE code).bump RF_SAFE_CAUSE_COUNT).putB RF_SAFE_CAUSE_VALID true

/-- SAFE_OFF_N is asserted. -/
def State.safeOff (s : State) : State := s.setRef fun r => { r with off := true }

/-- A Referee fault (R594): hardware acts without the Referee's program. -/
def State.refHalt (s : State) (code : Nat) : State :=
  if !s.ref.running then s
  else ((s.safeCause code).safeOff).setRef fun r => { r with running := false, halted := true }

/-! ### The ruleset (R596-R600) -/

/-- RULES of an image. -/
def rsRules (b : List Byte) : Nat := leAt b 6 2

/-- Rule r of an image. -/
def rsRule (b : List Byte) (r : Nat) : List Byte := (b.drop (64 + 32 * r)).take 32

/-- HANG_TURNS of an image. -/
def rsHang (b : List Byte) : Nat := leAt b 26 1

/-- Bytes `o` to `o + n - 1` are zero. -/
def zeroAt (b : List Byte) (o n : Nat) : Bool := leAt b o n == 0

/-- The fields of a rule are in range, and what is reserved is zero. -/
def ruleOk (b : List Byte) : Bool :=
  let lo := fpDecode .fp64 (leAt b 12 8)
  let hi := fpDecode .fp64 (leAt b 20 8)
  decide (leAt b 2 1 < 8 ∧ leAt b 3 1 < 4 ∧ leAt b 4 2 ≤ 3967 ∧ 1 ≤ leAt b 6 2 ∧ leAt b 6 2 ≤ 256 ∧ 1 ≤ leAt b 8 1) &&
    zeroAt b 9 3 && zeroAt b 28 4 && !lo.isNan && !hi.isNan && decide (fpCmp lo hi ≤ 0)

/-- The fused minimum of RULESET_VER. -/
def fusedMin : Nat := 0

/-- R597: every check of an image but the signature. -/
def imageOk (b : List Byte) : Bool :=
  leAt b 0 4 == 0x31534652 && leAt b 4 2 == 1 && leAt b 8 4 == 128 + 32 * rsRules b &&
    decide (128 + 32 * rsRules b ≤ b.length ∧ rsRules b ≤ 1024 ∧ fusedMin ≤ leAt b 16 4 ∧
      0x33800000 ≤ leAt b 20 4 ∧ leAt b 20 4 ≤ 0x3B800000 ∧ 1000 ≤ leAt b 24 2 ∧ leAt b 24 2 ≤ 50000 ∧
      2 ≤ rsHang b ∧ rsHang b ≤ 16) &&
    zeroAt b 27 37 && (List.range (rsRules b)).all fun r => ruleOk (rsRule b r)

/-- RULESET_DOORBELL (R596): the first ring since the Referee's reset brings the image. -/
def State.doorbell (s : State) (image : List Byte) : State :=
  if s.ref.rung then s else s.setRef fun r => { r with rung := true, image := some image }

/-- A new interval of R160 begins at this instant, and what a turn start of this instant has demanded belongs to it (R526). -/
def State.newInterval (s : State) : State :=
  let here := s.fresh.startAt == some s.hg.dt
  let s1 : State := { s with fresh := { s.fresh with
    before := 0, causesBefore := 0, demand := if here then s.fresh.demand else 0, causes := if here then s.fresh.causes else 0 } }
  s1.demandLasting

/-- RULESET_CHECK_DONE (R597): the image is put in force, or refused until the next Referee reset. -/
def State.rulesetDone (s : State) (sigOk : Bool) : State :=
  match s.ref.image with
  | none => s
  | some b =>
    if !s.ref.running then s
    else
      let s1 := s.setRef fun r => { r with image := none }
      if imageOk b && sigOk then
        let s2 := s1.setRef fun r => { r with rules := some b }
        let s3 := (s2.setReg RF_RULESET_ID (BitVec.ofNat 32 (leAt b 12 4))).setReg RF_RULESET_VER (BitVec.ofNat 32 (leAt b 16 4))
        let s4 := (s3.setReg RF_HB_PER (BitVec.ofNat 32 (leAt b 24 2))).setReg TE_WIT_LIM (BitVec.ofNat 32 (leAt b 20 4))
        ({ s4 with fresh := { s4.fresh with startAt := none } }.newInterval).demandStanding
      else (s1.putB RF_STATUS_AUTH_FAIL true).safety 0xB001

/-! ### Result rules (R600, R601) -/

/-- The bytes of an element of a TYPE. -/
def elemBytes (ty : Nat) : Nat :=
  if ty < 2 then 1 else if ty < 4 then 2 else if ty < 7 then 4 else 8

/-- The value of an element. -/
def elemValue (ty bits : Nat) : FVal :=
  let w := 8 * elemBytes ty
  if ty = 6 then fpDecode .fp32 bits
  else if ty = 7 then fpDecode .fp64 bits
  else if ty % 2 = 0 then .fin false bits 0
  else .fin (decide (signed w bits < 0)) (signed w bits).natAbs 0

/-- An element passes. -/
def elemPass (rule payload : List Byte) (k : Nat) : Bool :=
  let ty := leAt rule 2 1
  let o := leAt rule 4 2 + k * leAt rule 8 1
  let v := elemValue ty (leAt payload o (elemBytes ty))
  decide (o + elemBytes ty ≤ payload.length) && !v.isNan && !(v.isInf && leAt rule 3 1 % 2 == 1) &&
    decide (fpCmp (fpDecode .fp64 (leAt rule 12 8)) v ≤ 0) && decide (fpCmp v (fpDecode .fp64 (leAt rule 20 8)) ≤ 0)

/-- The records that a rule applies to. -/
def ruleRecs (rule : List Byte) (recs : List LmRec) : List LmRec := recs.filter fun r => r.cls == 0 && r.id == leAt rule 0 2

/-- A rule passes. -/
def rulePass (rule : List Byte) (recs : List LmRec) : Bool :=
  let l := ruleRecs rule recs
  !(l.isEmpty && leAt rule 3 1 / 2 == 1) && l.all fun r => (List.range (leAt rule 6 2)).all (elemPass rule r.payload)

/-- The first rule of an image that fails. -/
def ruleFails (b : List Byte) (recs : List LmRec) : Option Nat := firstIdx (fun r => !rulePass (rsRule b r) recs) (rsRules b)

/-- R603: the time within which the verdict on a turn is stamped, in units: a rule counts once for each record it applies to, and
at least once. -/
def budget (b : List Byte) (recs : List LmRec) : Nat :=
  let n := ((List.range (rsRules b)).map fun r => max 1 (ruleRecs (rsRule b r) recs).length).foldl (· + ·) 0
  (300 + 100 * recs.length + 2 * n) * 256000

/-! ### The window and the step in force (R160-R162, R607) -/

def rejects (w : List Bool) : Nat := (w.filter id).length

/-- A judged turn enters the window (R607). -/
def State.pushWindow (s : State) (turn : Nat) (rej : Bool) : State :=
  let w := (rej :: s.ref.window).take 16
  let s1 := (s.setRef fun r => { r with window := w }).setReg RF_LAST_TURN (BitVec.ofNat 32 turn)
  let s2 := if rejects s.ref.window = 1 ∧ rejects w = 2 then s1.safety 0xB008 (turn := some turn) else s1
  if rejects s.ref.window < 6 ∧ 6 ≤ rejects w then s2.safety 0xB009 (turn := some turn) else s2

/-- What the window demands. -/
def windowDemand (w : List Bool) : Nat := if rejects w < 2 then 0 else if rejects w < 6 then 4 else 5

/-- D(N) and the causes of turn N's interval (R160, R526, R605, R608). -/
def State.demandOf (s : State) (fault : Nat) : Nat × Nat :=
  let here := s.fresh.startAt == some s.hg.dt
  let d := if here then s.fresh.before else max s.fresh.before s.fresh.demand
  let c := if here then s.fresh.causesBefore else s.fresh.causesBefore ||| s.fresh.causes
  let f := if fault = 0 then 0 else 4
  let w := windowDemand s.ref.window
  (max d (max f w), c ||| causeBit f 5 ||| causeBit w 6)

/-- S takes a value; a change goes into the log (R620). -/
def State.setStep (s : State) (turn causes new : Nat) : State :=
  let old := s.get RF_STEP_S
  if old = new then s else (s.put RF_STEP_S new).safetyLog turn 0 old new causes

/-- SAFE_STATE (R615): S has become F5. -/
def State.safeState (s : State) : State := ((s.loomStop).safeCause 0xB009).safeOff

/-- R160: evaluate the step at the verdict on a turn. The records of the turn carry the answer's step; the state's is the one from
the next turn on. -/
def State.evalStep (s : State) (turn fault : Nat) : State × Nat × Nat :=
  let (d, c) := s.demandOf fault
  let old := s.get RF_STEP_S
  let s1 := (s.newInterval).put RF_STEP_D d
  if old ≤ d then
    let s2 := ((s1.put RF_STEP_CLEAN 0).setRef fun r => { r with high := 0 }).setStep turn c d
    (if d = 5 ∧ old ≠ 5 then s2.safeState else s2, d, c)
  else
    let n := s1.get RF_STEP_CLEAN + 1
    let high := max s1.ref.high d
    if 32 ≤ n then
      let s2 := (s1.put RF_STEP_CLEAN 0).setRef fun r => { r with high := 0 }
      (if old = 5 then s2 else s2.setStep turn c high, old, c)
    else ((s1.put RF_STEP_CLEAN n).setRef fun r => { r with high := high }, old, c)

/-! ### Judging (R602-R606, R610) -/

/-- R604: the Witness reports are not those of the turn. -/
def State.reportsWrong (s : State) (x : TurnRec) : Bool :=
  x.reports.length != 8 * s.schedCount || x.reports.any fun r => r.turn != x.turn % 2 ^ 32

/-- The reports with flagged tiles are mismatches of their Needles. -/
def State.noteMismatches (s : State) (x : TurnRec) : List WitReport → State
  | [] => s
  | r :: rest =>
    let s1 := s.setReg RF_MISMATCH (BitVec.ofNat 32 (r.hoop + r.needle * 2 ^ 8 + x.turn % 65536 * 2 ^ 16))
    (s1.setRef fun f => { f with mism := ⟨r.hoop, r.needle, x.seq⟩ :: f.mism }).noteMismatches x rest

/-- A code of R604 is reported where its condition holds. -/
def State.reject (s : State) (bad : Bool) (x : TurnRec) (code a b detail : Nat) : State :=
  if bad then s.safety code a b detail (some x.turn) else s

/-- The reports and the history of a turn being judged, and whether it is a reject (R604). The Loom builds each record from the
turn's own number, generation and count, so that the record check holds (R216, R217). -/
def State.judgeTurn (s : State) (x : TurnRec) (b : List Byte) : State × Bool :=
  let recs := x.recs.getD []
  let wrong := s.reportsWrong x
  let flagged := x.reports.filter fun r => r.flagged != 0
  let rule := ruleFails b recs
  let s1 := s.reject wrong x 0xB003 0 0 0
  let s2 := match flagged with
    | [] => s1
    | r :: _ => (s1.safety 0xB002 r.hoop r.needle 0 (some x.turn)).noteMismatches x flagged
  (s2.reject rule.isSome x 0xB004 0 0 (rule.getD 0), x.fault != 0 || wrong || !flagged.isEmpty || rule.isSome)

/-- The streams that feed a view. -/
def viewStreams (v : List Byte) : List Nat := [leAt v 0 1, leAt v 1 1].filter (· != 0xFF)

/-- R164: the freshness of each view of a turn: 1 FRESH, 2 STALE. -/
def freshOf (x : TurnRec) : List Nat :=
  (List.range 4).map fun v =>
    if (x.pat.map fun t => (viewStreams (patView t.bytes v)).all fun n => x.present.getLsbD n).getD true then 1 else 2

/-- The motion status at this instant (R158, R217). -/
def State.motionOf (s : State) (x : TurnRec) : Nat :=
  (if x.imu then 1 else 0) + (if s.wheelAbsent then 0 else 2) + (if s.holdover then 4 else 0)

/-- The Needles of a hoop that are due: three mismatches among this turn and the 63 before it. -/
def needlesDue (l : List Mismatch) (seq h : Nat) : List Nat :=
  (List.range 8).filter fun k => decide (3 ≤ (l.filter fun m => m.hoop == h && m.needle == k && decide (seq < m.at_ + 64)).length)

/-- NEEDLE_RETIRE (R610, R625): the hoops below `h`, the lowest first. -/
def State.retireDue (s : State) (x : TurnRec) : Nat → State
  | 0 => s
  | h + 1 =>
    let s1 := s.retireDue x h
    match needlesDue s1.ref.mism x.seq h with
    | [] => s1
    | k :: _ => ((s1.retire h).setRef fun r => { r with mism := r.mism.filter fun m => m.hoop != h }).safety 0xB00A h k 0 (some x.turn)

/-- REFEREE_VERDICT (R604): the oldest assembled turn that has no verdict. -/
def State.verdict (s : State) : State :=
  match s.ref.running, s.ref.rules, s.loom.turns.find? fun x => x.recs.isSome && x.stamp.isNone with
  | true, some b, some x =>
    let was := s.get RF_STEP_S
    let (s1, rej) := s.judgeTurn x b
    let motion := s1.motionOf x
    let (s2, step, causes) := (s1.pushWindow x.turn rej).evalStep x.turn x.fault
    let v := if rej then 2 else 1
    let s3 := s2.modTurn x fun y => { y with stamp := some ⟨v, step, causes, freshOf x, motion, s1.holdMs⟩ }
    let s4 := ((s3.setReg RF_LAST_VERDICT (BitVec.ofNat 32 (v + causes * 256))).setReg RF_VERDICT_LAT
      (BitVec.ofNat 32 ((s.hg.dt - s.turnInstant x.turn) / 256000)))
    let s5 := if rej then s4.bump (whole RF_REJECTS) else s4
    if step = 5 ∧ was ≠ 5 then s5 else s5.retireDue x 36
  | _, _, _ => s

/-- VERDICT_MISSED (R616): the turns of `l` have no verdict in time. -/
def State.missed (s : State) : List TurnRec → State
  | [] => s
  | x :: r =>
    let s1 := (s.safety 0xB007 (turn := some x.turn)).bump (whole RF_MISSED)
    ((s1.pushWindow x.turn true).evalStep x.turn x.fault).1.missed r

/-! ### Hang recovery (R612, R613) -/

/-- Place the bytes of a command in a square but for its CSN. -/
def State.fillSquare (s : State) (n : Nat) (b : List Byte) : State :=
  (List.range 32).foldl (fun s w =>
    let i := 32 * n + w
    let v := BitVec.ofNat 32 (leAt b (4 * w) 4)
    let old := spGet (fun _ => 0) s.track.words i
    s.setTrack fun t => { t with
      words := spPut (fun _ => 0) t.words i (if w = 2 then (old &&& 0xFFFF0000) ||| (v &&& 0xFFFF) else v) }) s

/-- Issue a command through one of the Referee's squares; none where no claim succeeds. -/
def State.refIssue (s : State) (b : List Byte) : Option (State × BitVec 16) :=
  if !s.claimOpen 8 then none
  else (s.freeSquare 8).map fun n =>
    let s1 := (s.claimSquare 8 n).fillSquare n b
    (s1.setSquare n { s1.square n with published := true }, s.nextCsn 8)

/-- The square of an ABORT of KIND TURN. -/
def abortSquare : List Byte := leBytes 1 0x31 ++ leBytes 15 0 ++ leBytes 1 3 ++ leBytes 111 0

/-- The square of a LAUNCH_TURN of a copied payload. -/
def launchSquare (t : Nat) (b : List Byte) : List Byte :=
  leBytes 1 0x01 ++ leBytes 1 0 ++ leBytes 1 (0x80 + t) ++ leBytes 13 0 ++ (b.drop 16).take 16 ++ leBytes 8 0 ++ (b.drop 40).take 88

/-- HANG_ABORT (R613): the program is still running HANG_TURNS turns after its own. -/
def State.hangCheck (s : State) (n : Nat) : State :=
  match s.ref.running, s.ref.rules, s.eng.sched.running with
  | true, some b, some m =>
    if s.ref.abort.isSome || s.ref.relaunch.isSome || decide (n < m + rsHang b) then s
    else match s.refIssue abortSquare with
      | some (s1, c) => (s1.setRef fun r => { r with abort := some c }).safety 0xB00B
      | none => s
  | _, _, _ => s

/-- The completion record of a command of the Referee. -/
def State.refDone (s : State) (c : BitVec 16) : Option TkRec :=
  (spGet (fun _ => []) s.track.own 8).find? fun x => x.csn == c && !x.notice

/-- The ABORT has completed. -/
def State.relaunchNow (s : State) (status : Nat) : State :=
  let s1 := s.setRef fun r => { r with abort := none }
  if status ≠ 0 ∨ s1.ref.noRelaunch then s1
  else match s1.ref.launch with
    | none => s1.safety 0xB00C
    | some (t, b) => match s1.refIssue (launchSquare t b) with
      | some (s2, c) => s2.setRef fun r => { r with relaunch := some c }
      | none => s1

/-- HANG_RELAUNCH (R613): the ABORT, or the LAUNCH_TURN after it, has completed. -/
def State.hangRelaunch (s : State) : State :=
  match s.ref.abort.bind s.refDone with
  | some x => s.relaunchNow x.status
  | none => match s.ref.relaunch.bind s.refDone with
    | some x =>
      let s1 := s.setRef fun r => { r with relaunch := none, noRelaunch := r.noRelaunch || x.status != 0 }
      if x.status = 0 then s1 else s1.safety 0xB00C
    | none => s

/-- The Referee at the start of turn n (R613, R616): turns without a verdict by their second turn after are missed. -/
def State.refTurn (s : State) (n : Nat) : State :=
  let s1 := if s.ref.running && s.ref.rules.isSome then
      s.missed (s.loom.turns.filter fun x => x.run == s.hg.run && decide (x.turn + 2 ≤ n) && x.stamp.isNone)
    else s
  s1.hangCheck n

/-! ### RF_HB (R618) and the Referee's reset (R617) -/

/-- A verdict is overdue beyond its budget. -/
def State.overdue (s : State) : Bool :=
  match s.ref.rules with
  | none => false
  | some b => s.loom.turns.any fun x => x.stamp.isNone && (x.recs.map fun l => decide (x.ready + budget b l < s.hg.dt)).getD false

/-- RF_HB_TOGGLE (R618): Device Time runs on to the end of the period. -/
def State.hbToggle (s0 : State) : State :=
  if !s0.ref.running then s0
  else
    let s := s0.advanceTo (s0.ref.hbAt + (s0.reg RF_HB_PER).toNat * 256000)
    if s.overdue || s.get RF_STEP_S == 5 then s
    else s.setRef fun r => { r with hb := !r.hb, hbAt := s.hg.dt }

/-- REFEREE_RESET_RELEASE (R617): both cores run, and SAFE_OFF_N is driven high. -/
def State.refRelease (s : State) : State :=
  if s.ref.running || s.ref.halted then s
  else s.setRef fun r => { r with running := true, on := true, off := false, hbAt := s.hg.dt }

/-- REFEREE_VERDICT (R604). -/
def execRefereeVerdict (s : State) : Ans := s.done s.verdict

/-- HANG_RELAUNCH (R613). -/
def execHangRelaunch (s : State) : Ans := s.done s.hangRelaunch

/-- RULESET_DOORBELL (R596). -/
def execRulesetDoorbell (image : List Byte) (s : State) : Ans := s.done (s.doorbell image)

/-- RULESET_CHECK_DONE (R597). -/
def execRulesetCheckDone (sigOk : Bool) (s : State) : Ans := s.done (s.rulesetDone sigOk)

/-- LOCKSTEP_MISMATCH (R594). -/
def execLockstepMismatch (s : State) : Ans := s.done (s.refHalt 0xB00E)

/-- REF_SRAM_UNCORR (R594). -/
def execRefSramUncorr (s : State) : Ans := s.done (s.refHalt 0xB00D)

/-- CLOCK_MONITOR (R592, R594). -/
def execClockMonitor (s : State) : Ans := s.done (s.refHalt 0xB00F)

/-- RF_HB_TOGGLE (R618). -/
def execRfHbToggle (s : State) : Ans := s.done s.hbToggle

end Sys2Proof.Machine
end

