-- ==== Sys2Proof/Machine/Commit.lean ====
section
/-! DEFINITION. TABLE_STAGE, TABLE_COMMIT, the readiness of the units, the switch, and the skip window (R148-R150, R187, R241,
R245, R503-R506, R515, R522, R523). -/

namespace Sys2Proof.Machine

open Reg

/-! ### The units' checks of a table -/

/-- A step field (R150). -/
def stepOk (d : Nat) : Bool := d == 0 || d == 1 || d == 2 || d == 4

/-- A stream entry of a Freshness table (R150); an all-zero one is exempt. -/
def freshEntryOk (e : List Byte) : Bool :=
  leAt e 0 16 == 0 ||
    (decide (leAt e 0 1 % 4 ≤ 2 ∧ leAt e 0 1 / 4 % 4 ≤ 2) && (leAt e 1 1 == 0 || decide (2 ≤ leAt e 1 1 ∧ leAt e 1 1 ≤ 16)) &&
      leAt e 2 1 != 0 && leAt e 3 1 != 0 && stepOk (leAt e 6 1) && leAt e 7 1 != 0)

/-- R149, R150: a Freshness table passes. -/
def freshOk (b : List Byte) : Bool :=
  (List.range 8).all (fun g => stepOk (leAt b g 1)) && decide (1 ≤ leAt b 8 2 ∧ leAt b 8 2 ≤ 3000) &&
    (List.range 64).all fun n => freshEntryOk ((b.drop (64 + 16 * n)).take 16)

/-- R241: a partition map passes. -/
def State.pmapOk (s : State) (b : List Byte) : Bool :=
  let sched := (List.range 36).filter fun h => roleIn b h == 1
  let n := leAt b 36 1
  let named := (List.range n).map fun j => leAt b (40 + j) 1
  (List.range 36).all (fun h => decide (roleIn b h ≤ 3) && (!s.retired h || roleIn b h == 0)) &&
    (List.range 4).all (fun l => roleIn b (32 + l) != 1 && roleIn b (32 + l) != 3) &&
    decide (1 ≤ n ∧ n ≤ 31) && n == sched.length && sched.all (named.contains ·) &&
    (List.range (32 - n)).all (fun j => leAt b (40 + n + j) 1 == 0xFF) &&
    leAt b 72 8 % 4096 == 0 && decide (leAt b 72 8 < 2 ^ 48 ∧ leAt b 80 1 ≤ 7)

/-- The code of a table's failed check, and its report: the units' own codes carry their own Initiator IDs (R201, R261). -/
def State.tableCheck (s : State) (kind : Nat) (b : List Byte) : Option (Nat × Option Nat) :=
  if kind = 0 then if freshOk b then none else some (0x8008, none)
  else if kind = 1 then if s.patternOk b then none else some (0x3001, some wfIid)
  else if kind = 2 then if motionOk b then none else some (0x3001, some meIid)
  else if s.pmapOk b then none else some (0x4001, some schedIid)

/-! ### TABLE_STAGE (R503, R504) -/

/-- The length of a table (R499). -/
def kindLength (kind : Nat) : Nat := if kind = 0 then 1088 else if kind = 1 then 4928 else if kind = 2 then 512 else 128

/-- A slot is available for a table of a kind under a generation. -/
def State.slotFor (s : State) (kind gen : Nat) : Bool :=
  s.track.staged.any (fun x => x.kind == kind && x.gen == gen) || decide (s.slotsUsed kind < 2)

/-- Put a table into its staging slot. -/
def State.putStaged (s : State) (kind gen : Nat) (b : List Byte) : State :=
  s.setTrack fun t => { t with
    staged := t.staged.filter (fun x => !(x.kind == kind && x.gen == gen)) ++ [⟨kind, gen, b, t.stageOrd⟩], stageOrd := t.stageOrd + 1 }

/-- TABLE_STAGE (R503): the checks in their order. -/
def State.stageTable (c : TkCmd) (s : State) : State :=
  let kind := c.u 16 1
  if c.u 32 4 ≠ kindLength kind then s.fail c 0x8008 0
  else if !s.slotFor kind (c.u 20 4) then s.fail c 0x8004 0
  else match c.tenant with
    | none => s.fail c 0x8001 0
    | some t =>
      let (s1, x) := s.tenantRead c.req t (c.u 24 8) (kindLength kind) {}
      match x.fault.orElse fun _ => if x.poison then some 0x5010 else none with
      | some f => s1.complete c f 0
      | none => match s1.tableCheck kind x.bytes with
        | some (code, none) => s1.fail c code 0
        | some (code, some iid) => (s1.report code iid).complete c code 0
        | none => ((s1.putStaged kind (c.u 20 4) x.bytes).complete c 0 kind).expCheck

/-! ### The pending commit (R505, R506) -/

/-- The staged tables that the pending commit carries. -/
def State.carriedTabs (s : State) : List Staged := s.track.staged.filter s.carried

/-- R245: the Engine is ready for map `b`. -/
def State.pmapReady (s : State) (b : List Byte) : Bool :=
  (List.range 36).all fun h =>
    roleIn b h == roleIn s.pmap h ||
      ((s.hoop h).firing.isNone && (s.role h != 1 || (s.eng.sched.running.isNone && s.eng.sched.pending.isNone)))

/-- Every unit is asked for its tables (R187, R245, R506). -/
def State.askUnits (s : State) : List Staged → State × Bool
  | [] => (s, true)
  | x :: r =>
    let (s1, ok) := if x.kind = 1 then s.weftAsk x else (s, x.kind != 3 || s.pmapReady x.bytes)
    let (s2, all) := s1.askUnits r
    (s2, ok && all)

/-- A table comes into force. -/
def State.switchTable (s : State) (x : Staged) : State :=
  let t : Table := ⟨x.gen, x.bytes⟩
  if x.kind = 0 then { s with freshTab := t }
  else if x.kind = 1 then s.weftSwitch t
  else if x.kind = 2 then s.meSwitch t
  else s.pmapSwitch t

/-- The staged fields come into force (R38, R82). -/
def State.switchFields (s : State) : State :=
  { s.staged.foldl (fun s p => match p.2, regRow p.1 with
      | some v, some r => s.setReg p.1 ((s.reg p.1 &&& ~~~ BitVec.ofNat 32 r.st) ||| v)
      | _, _ => s) s with staged := [] }

/-- COMMIT_SWITCH (R506): every carried table and field switches, and the slots are free. -/
def State.commitSwitch (s : State) (c : Commit) (result : Nat) : State :=
  let tabs := s.carriedTabs
  let s1 := s.setTrack fun t => { t with staged := t.staged.filter fun x => !s.carried x, commit := none }
  let s2 := tabs.foldl State.switchTable s1
  let s3 := (if c.units.testBit 4 then s2.switchFields else s2).setReg TK_CONFIG_GEN (BitVec.ofNat 32 c.gen)
  let s4 := match s3.cmd? c.req c.csn with
    | some x => s3.complete x 0 result
    | none => s3
  s4.expCheck.bankSweep

/-- While turns are not running, the commit switches as soon as every unit is ready (R505). -/
def State.commitPoll (s : State) : State :=
  match s.track.commit with
  | none => s
  | some c =>
    if c.target.isSome || s.turnsRun then s
    else match s.askUnits s.carriedTabs with
      | (s1, true) => (s1.commitSwitch c 0).holdUpdate
      | (s1, false) => s1

/-- TABLE_COMMIT (R505). -/
def State.commitTables (c : TkCmd) (s : State) : State :=
  let units := c.u 16 1
  let gen := c.u 20 4
  let x : Commit := ⟨c.req, c.csn, units, gen, if s.turnsRun then some (c.u 24 8) else none, 0, false⟩
  let s1 := s.setTrack fun t => { t with commit := some x }
  if !units.testBit 4 && s1.carriedTabs.isEmpty then s.fail c 0x8001 0
  else if s.turnsRun && decide (c.u 24 8 < s.hg.nextTurn) then s.fail c 0x8007 0
  else ((s1.startCmd c).expCheck).commitPoll

/-- COMMIT_MOVE (R506): the commit goes on to turn n + 1, or has timed out. -/
def State.commitMove (s : State) (c : Commit) (n : Nat) : State :=
  let tries := c.tries + 1
  if s.get (whole TK_COMMIT_TRIES) % 256 ≤ tries then
    let s1 := s.setTrack fun t => { t with commit := none }
    (match s1.cmd? c.req c.csn with
      | some x => s1.fail x 0x8005 0
      | none => s1).expCheck
  else s.setTrack fun t => { t with commit := some { c with target := some (n + 1), tries := tries, phaseSaid := false } }

/-- The pending commit at the start of turn n (R505, R506, R522). -/
def State.commitTurn (s : State) (n : Nat) : State :=
  match s.track.commit with
  | none => s
  | some c =>
    if n < c.target.getD 0 then s
    else match s.askUnits s.carriedTabs with
      | (s1, true) => s1.commitSwitch c n
      | (s1, false) => match s1.track.commit with
        | some c1 => s1.commitMove c1 n
        | none => s1

/-- Turns stop (R505): a pending commit ignores its TARGET from now on. -/
def State.commitStop (s : State) : State :=
  (s.setTrack fun t => { t with commit := t.commit.map fun c => { c with target := none } }).commitPoll

/-! ### The skip window (R515) -/

/-- The Track's Initiator ID where no requester caused a report (R517). -/
def tkIid : Nat := 23

/-- SKIP_WINDOW: a turn start has skipped a turn, or not. -/
def State.skipWindow (s : State) (skipped : Bool) : State :=
  let old := s.skip64
  let s1 := s.setTrack fun t => { t with skips := (skipped :: t.skips).take 64 }
  let d := if 8 ≤ s1.skip64 then 2 else 0
  let s2 := ({ s1 with fresh := { s1.fresh with skipStep := d } }).demandStep d 2
  if old < 8 ∧ 8 ≤ s1.skip64 then s2.report 0x800D tkIid else s2

/-- TABLE_STAGE (R503). -/
def execTableStage (r : Fin 10) (n : BitVec 16) (s : State) : Ans := s.done (s.runCmd r n (isOp 0x08) State.stageTable)

/-- TABLE_COMMIT (R505). -/
def execTableCommit (r : Fin 10) (n : BitVec 16) (s : State) : Ans := s.done (s.runCmd r n (isOp 0x09) State.commitTables)

/-- EXPANSION_COMPLETE (R178); a commit that waits for it while turns are not running switches (R505). -/
def execExpansionComplete (s : State) : Ans := s.done s.expEnd.commitPoll

end Sys2Proof.Machine
end

