-- ==== Sys2Proof/Machine/Ring.lean ====
section
/-! DEFINITION. Ring attention: blocks sent, arriving, released and fetched again (R398, R408-R410, R420). -/

namespace Sys2Proof.Machine

open Reg

/-! ### Blocks that this device sends -/

/-- The positions of block b. -/
def Seq.positions (x : Seq) (b : Nat) : List Nat := (List.range (2 ^ x.blockLog)).map fun k => b * 2 ^ x.blockLog + k

/-- The bytes of the entry of position p in region r: its place, its Skein wherever it lies, or zero. -/
def State.ringEntry (s : State) (x : Seq) (r p : Nat) : State × List Byte :=
  let n := x.entry r
  let off := p * n
  let zero := List.replicate n (0 : Byte)
  match x.place p with
  | some pl => (s, (spGet (fun _ => []) pl.data r ++ zero).take n)
  | none => match (x.leaf r off).bind s.skein? with
    | none => (s, zero)
    | some k => match k.st with
      | .lost => (s, zero)
      | .spilled => (s, (k.saved.drop (off - (x.skeinAt off).1)).take n)
      | .returning => (s, (k.saved.drop (off - (x.skeinAt off).1)).take n)
      | _ => if x.holds p then
          let (s1, bs, _) := s.ownRead skIid x.tenant (s.entryDpa x k r p) n {}
          (s1, bs)
        else (s, zero)

/-- The bytes of a region of a block, in position order. -/
def State.ringRegion (s : State) (x : Seq) (r : Nat) : List Nat → State × List Byte
  | [] => (s, [])
  | p :: ps =>
    let (s1, b) := s.ringEntry x r p
    let (s2, bs) := s1.ringRegion x r ps
    (s2, b ++ bs)

/-- A list cut into pieces of 448 bytes (the size of a piece is this model's choice); `n` bounds their number. -/
def pieces448 (bs : List Byte) : Nat → List (List Byte)
  | 0 => []
  | n + 1 => if bs.length ≤ 448 then [bs] else bs.take 448 :: pieces448 (bs.drop 448) n

/-- Send the pieces of a region with `f`; `last` marks the last piece of the block. -/
def State.sendPieces (f : State → SvMsg → State) (q b r : Nat) (last : Bool) (s : State) : List (List Byte) → State
  | [] => s
  | [d] => f s (.ringBlock q b r d last)
  | d :: ds => State.sendPieces f q b r last (f s (.ringBlock q b r d false)) ds

/-- Send the regions of a block with `f`. -/
def State.sendRegions (f : State → SvMsg → State) (q b : Nat) (x : Seq) (s : State) : List Nat → State
  | [] => s
  | r :: rs =>
    let (s1, bs) := s.ringRegion x r (x.positions b)
    State.sendRegions f q b x (State.sendPieces f q b r rs.isEmpty s1 (pieces448 bs (bs.length / 448 + 1))) rs

/-- Send a block. -/
def State.sendBlock (s : State) (f : State → SvMsg → State) (q b : Nat) (x : Seq) : State := State.sendRegions f q b x s x.regions

/-! ### Blocks that arrive (R409) -/

/-- Write bytes at offset `off` of region r, cut at 4 KiB, into Skeins that it pins for the block: what is lacking, if
something is. `k` bounds the pieces. -/
def State.ringWrite (s : State) (q b r off : Nat) (bs : List Byte) : Nat → State × Option SkWant
  | 0 => (s, none)
  | k + 1 =>
    if bs.isEmpty then (s, none)
    else match s.seq? q with
      | none => (s, none)
      | some x => match s.skFor q x r off with
        | (s1, .error w) => (s1, some w)
        | (s1, .ok i) => match s1.seq? q, s1.skein? i with
          | some y, some z =>
            let n := min bs.length (4096 - off % 4096)
            let blk := (spGet (fun _ => none) y.blocks b).getD {}
            let s2 := if blk.pins.contains i then s1
              else (s1.setSeq q (some { y with
                blocks := spPut (fun _ => none) y.blocks b (some { blk with pins := blk.pins ++ [i] }) })).addPin i
            (s2.ownWrite skIid y.tenant (s2.skDpa z + (off - (y.skeinAt off).1)) (bs.take n) {}).ringWrite q b r (off + n)
              (bs.drop n) k
          | _, _ => (s1, none)

/-- Blocks of the sequence that are ARRIVING or VISITING (DEDUCED: the limit holds for each sequence). -/
def Seq.ringHeld (x : Seq) : Nat := (x.blocks.filter fun p => p.2.isSome).length

/-- Block b is ABSENT: its pins are dropped, and a Skein that nothing else of the sequence uses is unmapped. -/
def State.dropBlock (s : State) (q b : Nat) : State :=
  match s.seq? q with
  | none => s
  | some x => match spGet (fun _ => none) x.blocks b with
    | none => s
    | some blk =>
      let left := spPut (fun _ => none) x.blocks b none
      let others := left.flatMap fun p => (p.2.map (·.pins)).getD []
      let mine (y : Nat × Option Nat) : Bool := (y.2.map fun i => blk.pins.contains i && !others.contains i).getD false &&
        decide (x.len * x.entry (y.1 / 2 ^ 20) ≤ y.1 % 2 ^ 20 * 4096)
      let s1 := s.setSeq q (some { x with blocks := left, leaves := x.leaves.filter fun y => !mine y })
      (x.leaves.filterMap fun y => if mine y then y.2 else none).foldl State.dropRef (blk.pins.foldl State.dropPin s1)

/-- Block b is VISITING: it is counted, blocks with more than WINDOW newer ones leave, and its fetch is over. -/
def State.blockCame (s : State) (q b : Nat) : State :=
  match s.seq? q with
  | none => s
  | some x => match spGet (fun _ => none) x.blocks b with
    | none => s
    | some blk =>
      let mine := s.sv.fetch.find? fun y => y.1 == q && y.2.1 == b
      let s1 := (s.setSeq q (some { x with
        blocks := spPut (fun _ => none) x.blocks b (some { blk with visiting := true }) })).bump SK_RING_STAT_RECEIVED
      let s2 := match mine with
        | some y => s1.bump (if y.2.2.2 then SK_RING_STAT_MIRROR else SK_RING_STAT_DIRECT)
        | none => s1
      let s3 := s2.setSv fun v => { v with fetch := v.fetch.filter fun y => !(y.1 == q && y.2.1 == b) }
      let vis := (x.blocks.filterMap fun p => (p.2.filter (·.visiting)).map fun y => (p.1, y.ord)) ++ [(b, blk.ord)]
      let old := vis.filter fun (y : Nat × Nat) => decide (s.get SK_RING_CFG_WINDOW < (vis.filter fun (z : Nat × Nat) => decide (y.2 < z.2)).length)
      old.foldl (fun s y => s.dropBlock q y.1) s3

/-- The ROTATE commands of q take note of a block, and end where no foreign block is lacking and nothing waits to be
forwarded. -/
def State.rotateLook (s : State) (q : Nat) (came : Option Nat) : State :=
  (s.track.store.filter fun c => isOp 0x13 c && c.u 18 1 == 3 && c.phase == .running && c.u 16 2 == q).foldl (fun s c =>
    let w := c.waits.filter fun b => some b != came
    let left := (s.svPort 0).queue.any fun m => match m.msg with
      | .ringBlock q' b _ _ _ => q' == q && decide (c.u 20 4 ≤ b ∧ b < c.u 24 4)
      | _ => false
    if w.isEmpty && !left then s.complete c 0 q else s.putCmd { c with waits := w }) s

/-- Every ROTATE looks again. -/
def State.rotateAll (s : State) : State :=
  ((s.track.store.filter fun c => isOp 0x13 c && c.u 18 1 == 3 && c.phase == .running).map fun c => c.u 16 2).foldl
    (fun s q => s.rotateLook q none) s

/-- Where the bytes of a piece go: the next offset of region r of block b. -/
def Seq.nextOff (x : Seq) (b r : Nat) : Nat :=
  b * 2 ^ x.blockLog * x.entry r + ((spGet (fun _ => none) x.blocks b).map fun y => spGet (fun _ => 0) y.got r).getD 0

/-- A piece of a block arrives at a sequence that is live and RING: none while it has no room. -/
def State.ringLand (s : State) (src q b r : Nat) (bs : List Byte) (last : Bool) : State × Bool :=
  match (s.seq? q).filter fun x => x.ring && !x.freeing with
  | none => (s, true)
  | some x =>
    let old := spGet (fun _ => none) x.blocks b
    if (old.map (·.visiting)).getD false then (s, true)
    else if old.isNone ∧ s.get SK_RING_CFG_WINDOW ≤ x.ringHeld then (s, false)
    else
      let s0 := if old.isSome then s else
        (s.setSeq q (some { x with
          blocks := spPut (fun _ => none) x.blocks b (some { ord := s.sk.nextId, src := src }) })).setSk fun k => { k with
            nextId := k.nextId + 1 }
      match s0.ringWrite q b r (x.nextOff b r) bs (bs.length / 4096 + 2) with
      | (_, some w) => (s.skNeed q w, false)
      | (s1, none) =>
        let s2 := match s1.seq? q with
          | none => s1
          | some y =>
            let blk := (spGet (fun _ => none) y.blocks b).getD {}
            s1.setSeq q (some { y with
              blocks := spPut (fun _ => none) y.blocks b (some { blk with
                got := spPut (fun _ => 0) blk.got r (spGet (fun _ => 0) blk.got r + bs.length) }) })
        (if last then (s2.blockCame q b).rotateLook q (some b) else s2, true)

/-- A piece that was not fetched goes on east, unless the east neighbour is the owner: the owner sends with hops 0. -/
def State.ringForward (s : State) (hops q b r : Nat) (bs : List Byte) (last : Bool) : State :=
  if (s.sv.fetch.any fun y => y.1 == q && y.2.1 == b) || decide (s.svMembers ≤ hops + 2) then s
  else
    let dst := (s.svDev + 1) % s.svMembers
    let (s1, n) := s.svE2e (dst * 4 + 3)
    s1.svQueue 0 { msg := .ringBlock q b r bs last, src := s1.svDev, dst := dst, hops := hops + 1, e2e := n }

/-! ### ROTATE and RELEASE (R398, R409) -/

/-- The sequence that a ROTATE or RELEASE names, and its blocks; otherwise the code. -/
def State.ringCmd (s : State) (c : TkCmd) : Except Nat Seq :=
  match s.kvSeq c (c.u 16 2) with
  | none => .error 0x6001
  | some x =>
    if !x.ring || decide (c.u 24 4 < c.u 20 4) || decide (x.maxLen < (c.u 24 4 - 1) * 2 ^ x.blockLog) then .error 0x6003
    else .ok x

/-- KV_PIN ROTATE: the own blocks leave in ascending order; the command ends when every foreign block has been VISITING here
and all that had to be forwarded has been sent. -/
def State.kvRotate (c : TkCmd) (s : State) : State :=
  let q := c.u 16 2
  match s.ringCmd c with
  | .error f => s.fail c f 0
  | .ok x =>
    let bs := (List.range (c.u 24 4 - c.u 20 4)).map (c.u 20 4 + ·)
    match s.foreign skIid x bs with
    | (s1, .error f) => s1.complete c f 0
    | (s1, .ok fs) =>
      let own := bs.filter fun b => !(fs.any fun f => f.block == b)
      let lack := (fs.map (·.block)).filter fun b => !x.visits b
      let s2 := own.foldl (fun s b => s.sendBlock (fun s m => s.svNeighbour 0 m) q b x) s1
      (s2.putCmd { c with phase := .running, waits := lack }).rotateLook q none

/-- KV_PIN RELEASE: the VISITING blocks of the range are ABSENT. -/
def State.kvRelease (c : TkCmd) (s : State) : State :=
  let q := c.u 16 2
  match s.ringCmd c with
  | .error f => s.fail c f 0
  | .ok x =>
    let bs := (x.blocks.filterMap fun p => if c.u 20 4 ≤ p.1 ∧ p.1 < c.u 24 4 ∧ x.visits p.1 then some p.1 else none)
    (bs.foldl (fun s b => s.dropBlock q b) s).complete c 0 q

/-- BLOCK_FETCH: a live RING sequence's block is sent to the device that asks. -/
def State.answerFetch (s : State) (src q b : Nat) : State :=
  match (s.seq? q).filter fun x => x.ring && !x.freeing with
  | none => s
  | some x => s.sendBlock (fun s m => s.svSend src m) q b x

/-! ### Loss of a device (R410) -/

/-- The gathers that are parked on block b of q fault. -/
def State.blockGone (s : State) (q b : Nat) : State :=
  (List.range 36).foldl (fun s h => match (s.hoop h).stall with
    | .parked q' _ _ bs => if q' = q ∧ bs.contains b then
        s.kvRefuse h (((s.hoop h).firing.map fun f => f.graph / 64).getD skIid) 0x6009 else s
    | _ => s) s

/-- Block b of q is fetched again, from its mirror; `said` says that it had begun to arrive. -/
def State.refetch (s : State) (q b : Nat) (said : Bool) : State :=
  match s.seq? q with
  | none => s
  | some x => match s.foreign skIid x [b] with
    | (s1, .ok [f]) => match s1.fetchMirror q f with
      | some s2 => if said then s2.report 0x6008 skIid else s2
      | none => s1.blockGone q b
    | (s1, _) => s1.blockGone q b

/-- What device d was sending of sequence q is dropped and fetched again. -/
def State.ringLost (d q : Nat) (s : State) : State :=
  match s.seq? q with
  | none => s
  | some x =>
    let arr := x.blocks.filterMap fun p => match p.2 with
      | some y => if !y.visiting && y.src == d then some p.1 else none
      | none => none
    let ask := (s.sv.fetch.filter fun y => y.1 == q && y.2.2.1 == d && !arr.contains y.2.1).map (·.2.1)
    let s1 := s.setSv fun v => { v with fetch := v.fetch.filter fun y => !(y.1 == q && (y.2.2.1 == d || arr.contains y.2.1)) }
    let s2 := arr.foldl (fun s b => (s.dropBlock q b).refetch q b true) s1
    ask.foldl (fun s b => s.refetch q b false) s2

/-- Device d is lost (R410). -/
def State.ringLose (s : State) (d : Nat) : State := (s.sk.seqs.map (·.1)).foldl (fun s q => s.ringLost d q) s

/-- KV_PIN ROTATE (R409). -/
def execKvPinRotate (r : Fin 10) (n : BitVec 16) (s : State) : Ans := s.done (s.runCmd r n (isPin 3) State.kvRotate)

end Sys2Proof.Machine
end

