-- ==== Sys2Proof/Machine/SvPort.lean ====
section
/-! DEFINITION. The ports of the Selvedge link: lanes, states, recalibration, credits, replay and what drops
(R557-R569, R584-R588). -/

namespace Sys2Proof.Machine

open Reg

def State.modSvPort (s : State) (p : Nat) (f : SvPort → SvPort) : State := s.setSvPort p (f (s.svPort p))

/-! ### States (R561) -/

/-- The port enters a state. -/
def State.svEnter (s : State) (p st : Nat) : State :=
  (s.put (SV_PORT_STAT_STATE p) st).modSvPort p fun x => { x with since := s.hg.dt }

/-- No lane of the port is locked. -/
def State.svUnlock (s : State) (p : Nat) : State :=
  (s.put (SV_PORT_STAT_LANES_LOCKED p) 0).modSvPort p fun x => { x with blk := 0, desk := false }

/-- DOWN with EN set is left for TRAIN; a device that stands alone leaves its ports DOWN (R569). -/
def State.svTrain (s : State) (p : Nat) : State :=
  if s.is (SV_PORT_CTL_EN p) ∧ s.svMembers ≠ 1 ∧ s.svState p = 0 then
    (s.svEnter p 1).modSvPort p fun x => { x with retry := none }
  else s

/-- The messages that a port cannot send go to the other one, or wait (R566, R587). -/
def State.svMove (s : State) (p : Nat) : State :=
  let x := s.svPort p
  let ms := ((x.unacked ++ x.queue).filter fun m => !m.msg.here).map fun m => { m with tries := 0 }
  if s.svUsable (1 - p) then
    ms.foldl (fun s m => s.svQueue (1 - p) m) (s.setSvPort p { x with queue := [], unacked := [] })
  else s.setSvPort p { x with queue := ms, unacked := [] }

/-- The port goes DOWN, with a code or none. -/
def State.svFall (s : State) (p : Nat) (code : Option Nat) : State :=
  let s1 := ((s.svEnter p 0).svUnlock p).modSvPort p fun x => { x with
    locked := false, lseq := 0, rxLseq := 4095, credit := [0, 0, 0, 0], calRx := none, bad := false, ofs := none }
  let s2 := s1.svMove p
  match code with
  | some c => s2.report c (svIid p)
  | none => s2

/-- DOWN after a loss; training begins again. -/
def State.svDown (s : State) (p code : Nat) : State := (s.svFall p (some code)).svTrain p

/-- LINK_TRAIN_FAIL: 10 ms of TRAIN or 5 ms of ALIGN have passed; a retry comes 100 ms later. -/
def State.svTrainFail (s : State) (p : Nat) : State :=
  let st := s.svState p
  if st ≠ 1 ∧ st ≠ 2 then s
  else
    let s1 := s.advanceTo ((s.svPort p).since + (if st = 1 then 10000000 else 5000000) * 256)
    (s1.svFall p (some 0xA001)).modSvPort p fun x => { x with retry := some (s1.hg.dt + 100000000 * 256) }

/-- SV_TRAIN_RETRY. -/
def State.svRetry (s : State) (p : Nat) : State :=
  match (s.svPort p).retry with
  | some t => if s.svState p = 0 ∧ s.is (SV_PORT_CTL_EN p) then (s.advanceTo t).svTrain p else s
  | none => s

/-- A write to SV_PORT_CTL[p]. -/
def State.svPortWrite (s : State) (p : Nat) (v : Word) : State :=
  let s1 := s.putB (SV_PORT_CTL_EN p) (v.getLsbD 0)
  if v.getLsbD 0 then (if (s.svPort p).retry.isSome then s1 else s1.svTrain p)
  else (s1.svFall p none).modSvPort p fun x => { x with retry := none }

/-- This device's HELLO (R570). -/
def State.ownHello (s : State) : SvMsg := .hello s.svDev s.svMembers (s.is SV_CFG_TWIN) (s.is SV_CFG_ROLE) Config.stepping

/-- An UP port sends HELLO; the device is PAIRING from its first one (R570). -/
def State.svHello (s : State) (p : Nat) : State :=
  if s.is SV_CTL_EN && s.svState p == 4 then
    (if s.get SV_STATUS_STATE = 0 then s.put SV_STATUS_STATE 1 else s).svBcast p s.ownHello
  else s

/-- SV_INIT_DONE: initial credits have been exchanged, and the port is UP; what waited for a port that is not goes out. -/
def State.svUp (s : State) (p : Nat) : State :=
  if s.svState p ≠ 3 then s
  else
    let s1 := (s.svEnter p 4).modSvPort p fun x => { x with
      credit := (List.range 4).map svCap, lseq := 0, rxLseq := 4095, timeAt := s.hg.dt, calAt := s.hg.dt }
    let s2 := if s1.svUsable (1 - p) then s1 else s1.svMove (1 - p)
    (s2.svHello p).svPump p

/-! ### Lanes (R559, R561) -/

/-- The peer has sent CAL within the last 100 µs: lock loss is ignored. -/
def State.svIgnores (s : State) (p : Nat) : Bool :=
  match (s.svPort p).calRx with
  | some t => decide (s.hg.dt < t + 100000 * 256)
  | none => false

/-- All four lanes hold marker lock and are deskewed: ALIGN is left for INIT, CAL for UP. -/
def State.svAligned (s : State) (p : Nat) : State :=
  if s.get (SV_PORT_STAT_LANES_LOCKED p) ≠ 15 ∨ (s.svPort p).desk = false then s
  else if s.svState p = 2 then
    (List.range 4).foldl (fun s c => s.emit (.svCredit p 4095 false c (svCap c))) (s.svEnter p 3)
  else if s.svState p = 5 then (s.svEnter p 4).svPump p
  else s

/-- Lanes exist for lock while the port is past TRAIN. -/
def State.svLanes (s : State) (p : Nat) : Bool := decide (2 ≤ s.svState p)

/-- LANE_BLOCK_LOCK. -/
def State.svBlockLock (s : State) (p l : Nat) : State :=
  if s.svLanes p then s.modSvPort p fun x => { x with blk := setBits x.blk l 1 1 } else s

/-- LANE_MARKER_LOCK, on a lane that holds block lock. -/
def State.svMarkerLock (s : State) (p l : Nat) (desk : Bool) : State :=
  if s.svLanes p && (s.svPort p).blk.testBit l then
    ((s.put (SV_PORT_STAT_LANES_LOCKED p) (setBits (s.get (SV_PORT_STAT_LANES_LOCKED p)) l 1 1)).modSvPort p fun x =>
      { x with desk := desk }).svAligned p
  else s

/-- Loss of block or marker lock on a lane: an UP port goes DOWN, unless it ignores the loss. -/
def State.svLaneLoss (s : State) (p l : Nat) (block : Bool) : State :=
  if !s.svLanes p then s
  else
    let s1 := s.put (SV_PORT_STAT_LANES_LOCKED p) (setBits (s.get (SV_PORT_STAT_LANES_LOCKED p)) l 1 0)
    let s2 := if block then s1.modSvPort p fun x => { x with blk := setBits x.blk l 1 0 } else s1
    if s.svState p = 4 ∧ s.svIgnores p = false then s2.svDown p 0xA002 else s2

/-! ### Recalibration (R561) -/

/-- CAL: the block goes out, and the lanes lock anew. -/
def State.svCal (s : State) (p : Nat) : State :=
  if s.svState p ≠ 4 then s
  else (((s.svEnter p 5).svUnlock p).modSvPort p fun x => { x with calAt := s.hg.dt }).emit (.svCal p)

/-- CAL_TIMEOUT. -/
def State.svCalLate (s : State) (p : Nat) : State :=
  if s.svState p = 5 then (s.advanceTo ((s.svPort p).since + 100000 * 256)).svDown p 0xA002 else s

/-! ### Credits and replay (R564, R565) -/

/-- The messages up to and with LSEQ `ack`, where it is one of theirs, are acknowledged. -/
def dropAcked (ack : Nat) (ms : List SvTx) : List SvTx :=
  if ms.any fun m => m.lseq == ack then (ms.dropWhile fun m => m.lseq != ack).tail else ms

/-- DETACH has been acknowledged: the device is ALONE (R574), and no twin is paired. -/
def State.detachDone (s : State) : State :=
  let out (p : Nat) := ((s.svPort p).queue ++ (s.svPort p).unacked).any fun m => m.msg == .detach
  if s.sv.detaching && !out 0 && !out 1 then
    (((s.put SV_STATUS_STATE 0).put SV_STATUS_LIVE 0).putB PL_STATUS_TWIN false).setSv fun v =>
      { v with detaching := false, peers := [] }
  else s

/-- CREDIT_BLOCK: bit 15 of ACK is a NAK, which replays what is not acknowledged. -/
def State.svCreditIn (s : State) (p ack cls units : Nat) : State :=
  if s.svUsable p = false then s
  else
    let x := s.svPort p
    let left := dropAcked (ack % 4096) x.unacked
    let again := if ack.testBit 15 then left.map fun m => { m with tries := m.tries + 1 } else left
    let s1 := s.setSvPort p { x with
      unacked := again,
      credit := (List.range 4).map fun k => x.credit.getD k 0 + (if k = cls then units else 0) }
    if ack.testBit 15 then
      let s2 := s1.bump (SV_PORT_ERR_REPLAY p) again.length
      if again.any fun m => decide (8 ≤ m.tries) then s2.svDown p 0xA004
      else ((again.foldl (fun s m => s.emit (.svMsg p m)) s2).svPump p).detachDone
    else (s1.svPump p).detachDone

/-! ### Transmit lock (R568) -/

/-- SV_TX_PLL_LOCK_LOSS. -/
def State.svPllLoss (s : State) (p : Nat) : State :=
  if (s.svPort p).locked then s.modSvPort p fun x => { x with locked := false, lostAt := s.hg.dt, staleSaid := false } else s

/-- SV_TX_PLL_LOCK_RETURN. -/
def State.svPllBack (s : State) (p : Nat) : State := (s.modSvPort p fun x => { x with locked := true }).svPump p

/-- TX_STALE_DROP: 200 µs have passed since lock was lost. -/
def State.svStaleDrop (s : State) (p : Nat) : State :=
  let x := s.svPort p
  let n := (x.queue.filter fun m => m.msg.stale).length
  if x.locked || n == 0 then s
  else
    let s1 := ((s.advanceTo (x.lostAt + 200000 * 256)).setSvPort p { x with
      queue := x.queue.filter fun m => !m.msg.stale, staleSaid := true }).bump (SV_PORT_ERR_STALE p) n
    if x.staleSaid then s1 else s1.report 0xA031 (svIid p)

/-! ### The commands -/

/-- SV_PORT_ENABLE (R561). -/
def execSvPortEnable (iid : Iid) (p : Fin 2) (s : State) : Ans :=
  s.done (s.writeWith iid (SV_PORT_CTL p) fun s => s.svPortWrite p 1)

/-- SV_PORT_DISABLE (R561). -/
def execSvPortDisable (iid : Iid) (p : Fin 2) (s : State) : Ans :=
  s.done (s.writeWith iid (SV_PORT_CTL p) fun s => s.svPortWrite p 0)

/-- LANE_TRAINING_DONE (R561): the lanes' transmit PLL holds lock. -/
def execLaneTrainingDone (p : Fin 2) (s : State) : Ans :=
  s.done (if s.svState p = 1 then (s.svEnter p 2).modSvPort p fun x => { x with locked := true } else s)

/-- LANE_BLOCK_LOCK (R559). -/
def execLaneBlockLock (p : Fin 2) (l : Fin 4) (s : State) : Ans := s.done (s.svBlockLock p l)

/-- LANE_BLOCK_LOCK_LOSS (R559). -/
def execLaneBlockLockLoss (p : Fin 2) (l : Fin 4) (s : State) : Ans := s.done (s.svLaneLoss p l true)

/-- LANE_MARKER_LOCK (R559). -/
def execLaneMarkerLock (p : Fin 2) (l : Fin 4) (desk : Bool) (s : State) : Ans := s.done (s.svMarkerLock p l desk)

/-- LANE_MARKER_LOCK_LOSS (R559). -/
def execLaneMarkerLockLoss (p : Fin 2) (l : Fin 4) (s : State) : Ans := s.done (s.svLaneLoss p l false)

/-- LINK_TRAIN_FAIL (R561). -/
def execLinkTrainFail (p : Fin 2) (s : State) : Ans := s.done (s.svTrainFail p)

/-- SV_TRAIN_RETRY (R561). -/
def execSvTrainRetry (p : Fin 2) (s : State) : Ans := s.done (s.svRetry p)

/-- SV_INIT_DONE (R561). -/
def execSvInitDone (p : Fin 2) (s : State) : Ans := s.done (s.svUp p)

/-- SELVEDGE_CAL (R561). -/
def execSelvedgeCal (p : Fin 2) (s : State) : Ans := s.done (s.svCal p)

/-- CAL_TIMEOUT (R561). -/
def execCalTimeout (p : Fin 2) (s : State) : Ans := s.done (s.svCalLate p)

/-- CAL_RECEIVE (R561). -/
def execCalReceive (p : Fin 2) (s : State) : Ans :=
  s.done (if s.svUsable p then s.modSvPort p fun x => { x with calRx := some s.hg.dt } else s)

/-- CREDIT_BLOCK (R564, R565). -/
def execCreditBlock (p : Fin 2) (ack : BitVec 16) (cls : Fin 4) (units : BitVec 16) (s : State) : Ans :=
  s.done (s.svCreditIn p ack.toNat cls units.toNat).rotateAll

/-- TX_STALE_DROP (R568). -/
def execTxStaleDrop (p : Fin 2) (s : State) : Ans := s.done (s.svStaleDrop p)

/-- SV_TX_PLL_LOCK_LOSS (R568). -/
def execSvTxPllLockLoss (p : Fin 2) (s : State) : Ans := s.done (s.svPllLoss p)

/-- SV_TX_PLL_LOCK_RETURN (R568). -/
def execSvTxPllLockReturn (p : Fin 2) (s : State) : Ans := s.done (s.svPllBack p)

end Sys2Proof.Machine
end

