-- ==== Sys2Proof/Machine/Selvedge.lean ====
section
/-! DEFINITION. The messages of the Selvedge link: arrival and order, pairing, heartbeats, time, trigger ownership, mirrored
writes, remote reads and writes, ring blocks (R408-R410, R465, R469, R562-R581, R585-R589). -/

namespace Sys2Proof.Machine

open Reg

/-! ### Arrival (R562-R566, R571) -/

/-- The units of a class that messages which wait hold on a port. -/
def State.svHeldUnits (s : State) (p cls : Nat) : Nat :=
  ((s.sv.early ++ s.sv.full).filter fun h => h.head.port.val == p && h.msg.cls == cls).foldl
    (fun n h => n + svUnits h.head.len) 0

/-- An acknowledgement, with units returned. -/
def State.svAck (s : State) (p cls units : Nat) : State := s.emit (.svCredit p (s.svPort p).rxLseq false cls units)

/-- A message goes on in its direction (R571). -/
def State.svForward (s : State) (h : SvHead) (msg : SvMsg) : State :=
  s.svQueue (1 - h.port.val) { msg := msg, src := h.src, dst := h.dst, bcast := h.bcast, hops := h.hops + 1, e2e := h.e2e.toNat }

/-- A broadcast goes on until it has taken MEMBERS − 1 hops (R572). -/
def State.svSpread (s : State) (h : SvHead) (msg : SvMsg) : State :=
  if h.bcast && decide (h.hops + 2 < s.svMembers) then s.svForward h msg else s

/-! ### Pairing (R569, R570, R573, R576) -/

/-- The masked bits of HG_TRIG_OE (R575). -/
def State.oeSet (s : State) (mask : Nat) (on : Bool) : State :=
  let m := BitVec.ofNat 32 (mask % 65536)
  s.setReg HG_TRIG_OE (if on then s.reg HG_TRIG_OE ||| m else s.reg HG_TRIG_OE &&& ~~~ m)

def State.trigMask (s : State) : Nat := (s.reg SV_TRIG_MASK).toNat % 65536

/-- A twin has paired: the Lead owns the triggers, and the Follower's masked bits are 0. -/
def State.twinPaired (s : State) : State :=
  let lead := !s.is SV_CFG_ROLE
  let s0 : State := { s with pool := { s.pool with resent := [], clash := [] } }
  let s1 := ((s0.putB PL_STATUS_TWIN true).putB SV_STATUS_OWNER lead).oeSet s.trigMask lead
  s1.setSv fun v => { v with give := none, take := none, widow := false, oeLate := 0, conflictSaid := [] }

/-- Every other member has said HELLO and is not lost. -/
def State.allHere (s : State) : Bool :=
  (List.range s.svMembers).all fun d => d == s.svDev || ((s.svPeer d).hello.isSome && !(s.svPeer d).lost)

/-- The device is MEMBER once every other one has said HELLO. -/
def State.svPaired (s : State) : State :=
  if s.is SV_CTL_EN && s.allHere && decide (2 ≤ s.svMembers) then
    let s1 := s.put SV_STATUS_STATE 2
    if s.is SV_CFG_TWIN && !s.is PL_STATUS_TWIN then s1.twinPaired else s1
  else s

/-- The place in the ring from which a broadcast comes. -/
def State.svPlace (s : State) (h : SvHead) : Nat :=
  let m := s.svMembers
  if h.port.val = 0 then (s.svDev + h.hops + 1) % m else (s.svDev + (m - (h.hops + 1) % m)) % m

/-- The neighbour on a port, and whether SVE's is the next in ring order. -/
def State.svNext (s : State) (h : SvHead) (dev : Nat) : State :=
  if h.hops ≠ 0 then s
  else
    let p := h.port.val
    let wrong := p == 0 && dev != (s.svDev + 1) % s.svMembers
    let s1 := (s.put (SV_PORT_STAT_NEIGHBOUR p) dev).modSvPort p fun x => { x with bad := wrong }
    if wrong then s1.report 0xA011 (svIid p) else s1

/-- HELLO. -/
def State.svHelloIn (s : State) (h : SvHead) (dev members : Nat) (twin role : Bool) (step : Nat) : State :=
  let p := h.port.val
  let s1 := s.svNext h dev
  let x := s1.svPeer dev
  let place := s1.svPlace h
  let elsewhere := match x.hello with
    | some (_, _, _, _, pl) => !x.lost && pl != place
    | none => false
  if dev == s1.svDev || elsewhere || members != s1.svMembers || twin != s1.is SV_CFG_TWIN || step != Config.stepping ||
      (twin && role == s1.is SV_CFG_ROLE) then
    s1.report 0xA010 (svIid p)
  else
    let s2 := s1.setSvPeer dev { hello := some (members, twin, role, step, place), hbAt := some s.hg.dt }
    (if x.lost then s2.svHello p else s2).svPaired

/-- SV_CTL (R570, R574): only Initiator ID 9 writes it. -/
def State.svEnableWrite (s : State) (on : Bool) : State :=
  let was := s.is SV_CTL_EN
  let s1 := s.putB SV_CTL_EN on
  if on && !was then
    (((s1.setSv fun v => { v with hbAt := s.hg.dt }).svHello 0).svHello 1).svPaired
  else s1

/-- A write of 1 to DETACH. -/
def State.svDetachWrite (s : State) : State :=
  let ds := (List.range s.svMembers).filter fun d => d != s.svDev && (s.svPeer d).hello.isSome && !(s.svPeer d).lost
  ((ds.foldl (fun s d => s.svSend d .detach) s).setSv fun v => { v with detaching := true }).detachDone

def State.svCtlWrite (s : State) (iid : Nat) (v : Word) : State :=
  if iid ≠ 9 then s
  else
    let s1 := s.svEnableWrite (v.getLsbD 0)
    if v.getLsbD 1 then s1.svDetachWrite else s1

/-! ### Loss of a device (R410, R469, R572, R574, R578, R579, R589) -/

/-- Mirrored writes that the twin has not acknowledged complete locally, and their granules are tracked (R473, R589). -/
def State.mirrorLose (s : State) : State :=
  let s1 := s.pool.mirrorWait.foldl (fun s a => match s.protOf a with
    | some p => s.degraded p a
    | none => s) s
  let s2 : State := { s1 with pool := { s1.pool with mirrorWait := [], resent := [] } }
  (s2.track.store.filter fun c => c.waits != [] && isOp 0x03 c).foldl (fun s c => s.copyEnd { c with waits := [] }) s2

/-- What was on its way to or from device d is forgotten, and its counts begin again. -/
def State.svForget (s : State) (d : Nat) : State :=
  let far (m : SvTx) : Bool := !m.bcast && m.dst == d
  let s1 := [0, 1].foldl (fun s p => s.modSvPort p fun x => { x with queue := x.queue.filter fun m => !far m }) s
  let mine (h : SvHeld) : Bool := h.head.src.val == d
  let gone := (s1.sv.early ++ s1.sv.full).filter mine
  let s2 := s1.setSv fun v => { v with
    early := v.early.filter fun h => !mine h, full := v.full.filter fun h => !mine h,
    tx := (List.range 4).foldl (fun t c => spPut (fun _ => 0) t (d * 4 + c) 0) v.tx,
    rx := (List.range 4).foldl (fun t c => spPut (fun _ => 0) t (d * 4 + c) 0) v.rx }
  gone.foldl (fun s h => s.svAck h.head.port.val h.msg.cls (svUnits h.head.len)) s2

/-- Device d is declared lost. -/
def State.svLose (s : State) (d : Nat) : State :=
  let x := s.svPeer d
  if x.lost then s
  else
    let s1 := ((s.setSvPeer d { x with lost := true, staleSaid := false, owner := false }).put SV_STATUS_LIVE
      (setBits (s.get SV_STATUS_LIVE) d 1 0)).report 0xA012 24
    let s2 := ((s1.svForget d).holderLost fun h => h.testBit 3 && h / 16 % 8 == d).ringLose d
    if s.is SV_CFG_TWIN && d == s.twinDev then
      ((s2.putB PL_STATUS_TWIN false).mirrorLose).setSv fun v => { v with take := none, widow := v.widow || x.owner }
    else s2

/-! ### Heartbeats (R572, R573, R585) -/

/-- HEARTBEAT_SEND: Device Time runs on to the next one. -/
def State.hbSend (s : State) : State :=
  if !s.is SV_CTL_EN || s.svMembers == 1 then s
  else
    let s1 := s.advanceTo (s.sv.hbAt + s.get SV_HB_CFG_PER * 256000)
    let s2 := s1.setSv fun v => { v with hbSeq := (v.hbSeq + 1) % 2 ^ 32, hbAt := s1.hg.dt }
    let m : SvMsg := .heartbeat s.sv.hbSeq (s2.get SV_STATUS_LIVE) (s2.is SV_STATUS_OWNER) (s2.pair HG_TURN_EPOCH_LO)
      (s2.pair HG_TURN_PER_LO) (s2.pair HG_TURN_NUM_LO) (s2.is HG_TURN_CTL_RUN)
    [0, 1].foldl (fun s p => if s.svUsable p then s.svBcast p m else s) s2

/-- HEARTBEAT. -/
def State.hbIn (s : State) (d live : Nat) (owner : Bool) (epoch per turn : Nat) (run : Bool) : State :=
  let _ := live
  let x := s.svPeer d
  if d = s.svDev then s
  else if x.lost then
    if x.staleSaid then s else (s.setSvPeer d { x with staleSaid := true }).report 0xA013 24
  else (s.setSvPeer d { x with
    hbAt := some s.hg.dt, owner := owner, epoch := epoch, per := per, turn := turn, run := run }).put SV_STATUS_LIVE
      (setBits (s.get SV_STATUS_LIVE) d 1 1)

/-- HEARTBEAT_LOSS: PER × MISS has passed without one; one that comes at the deadline counts. -/
def State.hbLost (s : State) (d : Nat) : State :=
  let x := s.svPeer d
  match x.hbAt with
  | some t => if x.lost ∨ d = s.svDev then s
    else (s.advanceTo (t + s.get SV_HB_CFG_PER * s.get SV_HB_CFG_MISS * 256000)).svLose d
  | none => s

/-! ### Time (R567) -/

/-- TIME_EXCHANGE_SEND: every 125 ms. -/
def State.timeSend (s : State) (p : Nat) : State :=
  if s.svState p ≠ 4 then s
  else
    let s1 := s.advanceTo ((s.svPort p).timeAt + 125000000 * 256)
    (s1.modSvPort p fun x => { x with timeAt := s1.hg.dt }).svNeighbour p (.time false 0 0 0)

/-- TIME: a request is answered; an answer gives offset and delay, halves rounded down. -/
def State.timeIn (s : State) (p : Nat) (answer : Bool) (t1 t2 t3 : Nat) : State :=
  if !answer then s.svNeighbour p (.time true t1 s.now 0)
  else
    let t4 := s.now
    let delay := (((t4 : Int) - t1) - ((t3 : Int) - t2)) / 2
    let ofs := (((t2 : Int) - t1) - ((t4 : Int) - t3)) / 2
    let s1 := ((s.setPair (SV_PEER_OFS_LO p) (unsign 64 ofs)).setReg (SV_PEER_DELAY p) (BitVec.ofNat 32 (unsign 32 delay)))
    let s2 := s1.modSvPort p fun x => { x with ofs := some ofs }
    match (s.svPort p).ofs with
    | some o => if 100 < (ofs - o).natAbs then s2.report 0xA022 (svIid p) else s2
    | none => s2

/-! ### Trigger ownership (R575-R578, R586) -/

/-- The Lead's number of this device's turn N. -/
def State.leadTurn (s : State) (N : Nat) : Nat :=
  (if s.is SV_CFG_ROLE then N + (s.reg SV_PEER_TURN).toNat else N) % 2 ^ 32

/-- SV_HANDOVER: acts for Initiator ID 9 on the owner in a twin. -/
def State.handoverWrite (s : State) (iid T : Nat) : State :=
  if iid = 9 ∧ s.is SV_STATUS_OWNER ∧ s.is SV_CFG_TWIN then
    (s.setSv fun v => { v with give := some (T, s.trigMask) }).svSend s.twinDev (.handover T s.trigMask)
  else s

/-- HANDOVER: a turn that has passed completes nothing. -/
def State.handoverIn (s : State) (p T mask : Nat) : State :=
  if s.turnsRun && decide (T < s.leadTurn s.hg.nextTurn) then s.report 0xA021 (svIid p)
  else s.setSv fun v => { v with take := some (T, mask) }

/-- Pins of a mask whose pulse runs. -/
def State.pulsing (s : State) (mask : Nat) : List Nat :=
  (List.range 16).filter fun n => mask.testBit n && ((s.trig n).pulseEnd.map fun e => decide (s.hg.dt < e)).getD false

/-- The start of turn N: an owner gives, the other device takes, and the owner's loss is answered where TW_OWN_N, a free value,
reads released. -/
def State.svTurn (s : State) (N : Nat) : State :=
  let L := s.leadTurn N
  let s1 := match s.sv.give with
    | some (T, m) => if T = L then
        let late := s.pulsing m
        let bits := late.foldl (fun a n => a + 2 ^ n) 0
        ((s.putB SV_STATUS_OWNER false).oeSet (m % 65536 - bits) false).setSv fun v => { v with give := none, oeLate := bits }
      else s
    | none => s
  let s2 := match s1.sv.take with
    | some (T, m) => if T = L then
        ((s1.putB SV_STATUS_OWNER true).oeSet m true).setSv fun v => { v with take := none, oeLate := 0 }
      else s1
    | none => s1
  if s2.sv.widow && !s2.is SV_STATUS_OWNER then
    let s3 := s2.took
    if s2.free % 2 = 1 then
      (((s3.putB SV_STATUS_OWNER true).oeSet s3.trigMask true).setSv fun v => { v with widow := false, oeLate := 0 }).report 0xA020 24
    else s3
  else s2

/-- R576: on a Follower the Lead's turn at its own turn 0, from the epochs and OFS. -/
def State.svPeerTurn (s : State) : State :=
  if s.is SV_CFG_TWIN && s.is SV_CFG_ROLE then
    let x := s.svPeer s.twinDev
    let ofs := signed 64 (s.pair (SV_PEER_OFS_LO 0))
    s.setReg SV_PEER_TURN (BitVec.ofNat 32 (unsign 32
      (roundEven (((s.pair HG_TURN_EPOCH_LO : Int) - x.epoch + ofs) * 256) (max x.per 1))))
  else s

/-! ### Mirror and pool traffic (R461, R472, R473, R579-R581) -/

/-- A range leaves DEGRADED once it has no dirty granule. -/
def State.rangeCleanBy (s : State) : Option Prot → State
  | none => s
  | some p =>
    if s.pool.dirty.any fun y => y.2 && ((s.protOf (y.1 * 4096)).map fun q => q.range == p.range).getD false then s
    else
      let s1 : State := { s with pool := { s.pool with degradedSaid := s.pool.degradedSaid.filter (· != p.range) } }
      if p.range < 16 then s1.putB (PL_RGN_STAT_DEGRADED p.range) false else s1

/-- The range that holds granule g leaves DEGRADED once it has no dirty granule. -/
def State.rangeClean (s : State) (g : Nat) : State := s.rangeCleanBy (s.protOf (g * 4096))

/-- Granule g was dirty here when the twins paired, and is not yet the same on both (R580). -/
def State.clashes (s : State) (g : Nat) : Bool := spGet (fun _ => false) s.pool.dirty g || s.pool.resent.contains g

/-- A granule dirty on both devices is counted once, and reported once for each range (R580). -/
def State.clashed (s : State) (a : Nat) : State :=
  let g := a / 4096
  if s.pool.clash.contains g then s
  else
    let s1 := { s with pool := { s.pool with clash := g :: s.pool.clash } }.bump SV_RESILVER_STAT_CONFLICT
    match (s.protOf a).map (·.range) with
    | some r => if s.sv.conflictSaid.contains r then s1
      else (s1.setSv fun v => { v with conflictSaid := r :: v.conflictSaid }).report 0xA030 24
    | none => s1

/-- MIRROR_WR: the region check under the port's Initiator ID; a granule dirty on both devices keeps the Lead's copy. -/
def State.mirrorIn (s : State) (h : SvHead) (a : Nat) (bs : List Byte) (e : MemErr) : State :=
  let iid := svIid h.port
  if !s.fenceOk iid a bs.length true then
    (s.dpaRefuse 0x9003 iid).svSend h.src (.mirrorAck a 0x9003)
  else
    let s2 := if !s.clashes (a / 4096) then s.dpaWrite iid a bs e false
      else if !s.is SV_CFG_ROLE then s.clashed a
      else
        let t := s.clashed a |>.dpaWrite iid a bs e false
        ({ t with pool := { t.pool with dirty := spPut (fun _ => false) t.pool.dirty (a / 4096) false } }).rangeClean (a / 4096)
    s2.svSend h.src (.mirrorAck a 0)

/-- MIRROR_ACK: a write completes to its writer once every message of its line has been acknowledged (R472). -/
def State.mirrorAcked (s : State) (a : Nat) : State :=
  let w := s.pool.mirrorWait.erase a
  let s1 : State := { s with pool := { s.pool with
    mirrorWait := w, resent := s.pool.resent.filter fun g => w.any fun b => b / 4096 == g } }
  if s1.pool.mirrorWait.contains a then s1
  else (s1.track.store.filter fun c => isOp 0x03 c && c.waits.contains a).foldl
    (fun s c => s.copyEnd { c with waits := c.waits.filter (· != a) }) s1

/-- The check of a remote access: the region entries under the port's Initiator ID, then the Pool check under the device and the
tenant that it names. -/
def State.remoteCheck (s : State) (h : SvHead) (a n t : Nat) (wr : Bool) : Option Nat :=
  if !s.fenceOk (svIid h.port) a n wr then some 0x9003 else s.dpaCheck (.remote h.src t) a n wr

/-- Answers of a POOL_RD, as pieces of 448 bytes. -/
def State.sendData (s : State) (dst : Nat) (bad : List Bool) (st : Nat) : List (List Byte) → State
  | [] => s
  | d :: r => (s.svSend dst (.poolRdData d (bad.take 7) st)).sendData dst (bad.drop 7) st r

/-- POOL_RD. A refused read returns zero. -/
def State.poolRdIn (s : State) (h : SvHead) (a n t : Nat) (e : MemErr) : State :=
  let k := n / 448 + 1
  let lines := (List.range ((a + n + 63) / 64 - a / 64)).map (a / 64 + ·)
  match s.remoteCheck h a n t false with
  | some c => (s.dpaRefuse c (svIid h.port)).sendData h.src (lines.map fun _ => false) c (pieces448 (List.replicate n (0 : Byte)) k)
  | none =>
    let (s1, bs, bad) := s.dpaRead (svIid h.port) a n e
    s1.sendData h.src (lines.map fun l => bad.contains l) 0 (pieces448 bs k)

/-- POOL_WR. -/
def State.poolWrIn (s : State) (h : SvHead) (a : Nat) (bs : List Byte) (t : Nat) (e : MemErr) : State :=
  match s.remoteCheck h a bs.length t true with
  | some c => (s.dpaRefuse c (svIid h.port)).svSend h.src (.poolWrAck c)
  | none => (s.dpaWrite (svIid h.port) a bs e).svSend h.src (.poolWrAck 0)

/-- RESILVER_GRANULE: the lowest dirty granule goes to the twin. -/
def State.resilver (s : State) : State :=
  match s.pool.dirty with
  | [] => s
  | (g, _) :: _ =>
    if !s.twinUp then s
    else
      let s1 := s.mirrorSend (g * 64) 64 64
      ({ s1 with pool := { s1.pool with
        dirty := spPut (fun _ => false) s1.pool.dirty g false, resent := g :: s1.pool.resent } }).rangeClean g

/-! ### Delivery -/

/-- What a message for this device does; false where it has to wait (R409). `e` holds the memory errors that it meets. -/
def State.svDeliver (s : State) (h : SvHead) (msg : SvMsg) (e : MemErr) : State × Bool :=
  match msg with
  | .hello d m t r st => (s.svHelloIn h d m t r st, true)
  | .heartbeat _ l o ep pe tu ru => (s.hbIn h.src l o ep pe tu ru, true)
  | .time a t1 t2 t3 => (s.timeIn h.port a t1 t2 t3, true)
  | .handover t m => (s.handoverIn h.port t m, true)
  | .notice x g => (s.emit (.noticeIn h.src x g), true)
  | .detach => (s.svLose h.src, true)
  | .mirrorWr a ls => (s.mirrorIn h a ls e, true)
  | .mirrorAck a _ => (s.mirrorAcked a, true)
  | .poolRd a n t => (s.poolRdIn h a n t e, true)
  | .poolRdData _ _ _ => (s, true)
  | .poolWr a ls t => (s.poolWrIn h a ls t e, true)
  | .poolWrAck _ => (s, true)
  | .ringBlock q b r bs l =>
    if (s.ringLand h.src q b r bs l).2 then
      (((s.ringForward h.hops q b r bs l).ringLand h.src q b r bs l).1.rotateLook q none, true)
    else s.ringLand h.src q b r bs l
  | .blockFetch q b => (s.answerFetch h.src q b, true)

/-- A message that waits until the ring has room: those of its source come after it (R409). -/
def State.svRing (s : State) (x : SvHeld) (e : MemErr) : State × Bool :=
  if x.msg.cls = 3 ∧ (s.sv.full.any fun y => y.head.src == x.head.src) then (s, false) else s.svDeliver x.head x.msg e

/-- Take a message in order, and give its units back; or it waits. -/
def State.svTake (s : State) (x : SvHeld) (e : MemErr) : State :=
  match s.svRing x e with
  | (s1, true) => s1.svAck x.head.port.val x.msg.cls (svUnits x.head.len)
  | (s1, false) => s1.setSv fun v => { v with full := v.full ++ [x] }

/-- The next E2E number from a source in a class. -/
def State.svNextE2e (s : State) (src cls : Nat) : Nat := spGet (fun _ => 0) s.sv.rx (src * 4 + cls)

def State.svGotE2e (s : State) (src cls : Nat) : State :=
  s.setSv fun v => { v with rx := spPut (fun _ => 0) v.rx (src * 4 + cls) ((s.svNextE2e src cls + 1) % 65536) }

/-- Messages that came early follow now (R566); `k` bounds them. -/
def State.svFollow (s : State) (src cls : Nat) : Nat → State
  | 0 => s
  | k + 1 =>
    let due (h : SvHeld) : Bool := h.head.src.val == src && h.msg.cls == cls && h.head.e2e.toNat == s.svNextE2e src cls &&
      !h.msg.loose
    match s.sv.early.find? due with
    | none => s
    | some x =>
      ((s.setSv fun v => { v with early := v.early.filter fun h => !due h }).svGotE2e src cls |>.svTake x {}).svFollow src cls k

/-- A message for this device, in E2E order: one already delivered is discarded, one that is early waits (R566). -/
def State.svOrdered (s : State) (x : SvHeld) (e : MemErr) : State :=
  let src := x.head.src.val
  let cls := x.msg.cls
  let d := (x.head.e2e.toNat + 65536 - s.svNextE2e src cls) % 65536
  if x.head.bcast || x.msg.loose then s.svTake x e
  else if d = 0 then ((s.svGotE2e src cls).svTake x e).svFollow src cls s.sv.early.length
  else if d < 32768 ∧ !(s.sv.early.any fun h => h.head.src == x.head.src && h.msg.cls == cls && h.head.e2e == x.head.e2e) then
    (s.setSv fun v => { v with early := v.early ++ [x] }).svAck x.head.port.val cls 0
  else s.svAck x.head.port.val cls (svUnits x.head.len)

/-- A message with its link checks: credits, CRC, LSEQ in order (R564, R565). `f` is what it does here. -/
def State.svLink (s : State) (h : SvHead) (cls : Nat) (f : State → State) : State :=
  let p := h.port.val
  let x := s.svPort p
  if !(s.svState p == 4 || s.svState p == 5) then s
  else if svCap cls < s.svHeldUnits p cls + svUnits h.len then s.svDown p 0xA005
  else if !h.crcOk then (s.bump (SV_PORT_ERR_CRC p)).emit (.svCredit p x.rxLseq true cls 0)
  else if h.lseq.toNat ≠ (x.rxLseq + 1) % 4096 then s.svAck p cls 0
  else f (s.modSvPort p fun x => { x with rxLseq := h.lseq.toNat })

/-- A message arrives. A port that is out of ring order takes nothing but HELLO (R570). In NAP, one for
this device is a wake reason (R662). -/
def State.svRx (s : State) (h : SvHead) (msg : SvMsg) (e : MemErr := {}) : State :=
  s.svLink h msg.cls fun s =>
    let hi := match msg with
      | .hello _ _ _ _ _ => true
      | _ => false
    if (s.svPort h.port.val).bad && !hi then s.svAck h.port.val msg.cls (svUnits h.len)
    else if h.bcast then (s.svSpread h msg).svOrdered ⟨h, msg⟩ e
    else if h.dst.val = s.svDev then (s.recordWake 7).svOrdered ⟨h, msg⟩ e
    else (s.svForward h msg).svAck h.port.val msg.cls (svUnits h.len)

/-- The messages that wait for room of the ring try again, in order; `k` bounds them. -/
def State.ringRetry (s : State) : State :=
  let ms := s.sv.full
  ms.foldl (fun s x => s.svTake x {}) (s.setSv fun v => { v with full := [] })

/-! ### The commands -/

/-- BAD_MSG (R563). -/
def execBadMsg (m : SvHead) (_ : Byte) (s : State) : Ans :=
  s.done (s.svLink m 0 fun s => (s.bump (SV_PORT_ERR_BAD_MSG m.port)).svAck m.port 0 (svUnits m.len))

/-- HELLO (R570). -/
def execHello (m : SvHead) (dev : Fin 8) (members : BitVec 4) (twin role : Bool) (stepping : Byte) (s : State) : Ans :=
  s.done (s.svRx m (.hello dev members.toNat twin role stepping.toNat))

/-- HEARTBEAT (R572). -/
def execHeartbeat (m : SvHead) (seq : Word) (live : Byte) (owner : Bool) (epoch per turn : BitVec 64) (run : Bool) (s : State) :
    Ans :=
  s.done (s.svRx m (.heartbeat seq.toNat live.toNat owner epoch.toNat per.toNat turn.toNat run))

/-- HEARTBEAT_SEND (R572). -/
def execHeartbeatSend (s : State) : Ans := s.done s.hbSend

/-- HEARTBEAT_LOSS (R572). -/
def execHeartbeatLoss (d : Fin 8) (s : State) : Ans := s.done (s.hbLost d)

/-- TIME_EXCHANGE_SEND (R567). -/
def execTimeExchangeSend (p : Fin 2) (s : State) : Ans := s.done (s.timeSend p)

/-- TIME (R567). -/
def execTime (m : SvHead) (answer : Bool) (t1 t2 t3 : Nat) (s : State) : Ans := s.done (s.svRx m (.time answer t1 t2 t3))

/-- TRIGGER_HANDOVER (R577). -/
def execTriggerHandover (iid : Iid) (v : Word) (s : State) : Ans :=
  s.done (s.writeWith iid SV_HANDOVER fun s => s.handoverWrite iid.toNat v.toNat)

/-- HANDOVER (R577). -/
def execHandover (m : SvHead) (turn : Word) (mask : BitVec 16) (s : State) : Ans :=
  s.done (s.svRx m (.handover turn.toNat mask.toNat))

/-- NOTICE (R465). -/
def execNotice (m : SvHead) (x : Fin 32) (gen : BitVec 16) (s : State) : Ans := s.done (s.svRx m (.notice x gen.toNat))

/-- DETACH (R574). -/
def execDetach (m : SvHead) (s : State) : Ans := s.done (s.svRx m .detach)

/-- SV_DETACH (R574). -/
def execSvDetach (iid : Iid) (s : State) : Ans :=
  s.done (s.writeWith iid SV_CTL fun s => s.svCtlWrite iid.toNat (s.reg SV_CTL ||| 2))

/-- SV_ENABLE (R570). -/
def execSvEnable (iid : Iid) (s : State) : Ans :=
  s.done (s.writeWith iid SV_CTL fun s => s.svCtlWrite iid.toNat 1)

/-- MIRROR_WR (R579). -/
def execMirrorWr (m : SvHead) (a : BitVec 40) (lines : List Byte) (e : MemErr) (s : State) : Ans :=
  s.done (s.svRx m (.mirrorWr a.toNat lines) e)

/-- MIRROR_ACK (R579). -/
def execMirrorAck (m : SvHead) (a : BitVec 40) (st : BitVec 16) (s : State) : Ans := s.done (s.svRx m (.mirrorAck a.toNat st.toNat))

/-- POOL_RD (R579). -/
def execPoolRd (m : SvHead) (a : BitVec 40) (n : Nat) (t : Fin 8) (e : MemErr) (s : State) : Ans :=
  s.done (s.svRx m (.poolRd a.toNat n t) e)

/-- POOL_RD_DATA (R579): no read of this device waits for it (log entry 24). -/
def execPoolRdData (m : SvHead) (d : List Byte) (bad : List Bool) (st : BitVec 16) (s : State) : Ans :=
  s.done (s.svRx m (.poolRdData d bad st.toNat))

/-- POOL_WR (R579). -/
def execPoolWr (m : SvHead) (a : BitVec 40) (lines : List Byte) (t : Fin 8) (e : MemErr) (s : State) : Ans :=
  s.done (s.svRx m (.poolWr a.toNat lines t) e)

/-- POOL_WR_ACK (R579): no write of this device waits for it (log entry 24). -/
def execPoolWrAck (m : SvHead) (st : BitVec 16) (s : State) : Ans := s.done (s.svRx m (.poolWrAck st.toNat))

/-- RING_BLOCK (R409). -/
def execRingBlock (m : SvHead) (q : Fin 1024) (b r : Nat) (bs : List Byte) (last : Bool) (s : State) : Ans :=
  s.done (s.svRx m (.ringBlock q b r bs last))

/-- BLOCK_FETCH (R410). -/
def execBlockFetch (m : SvHead) (q : Fin 1024) (b : Nat) (s : State) : Ans := s.done (s.svRx m (.blockFetch q b))

/-- RESILVER_GRANULE (R580). -/
def execResilverGranule (s : State) : Ans := s.done s.resilver

/-- KV_PIN RELEASE (R409): blocks that waited for room may follow. -/
def execKvPinRelease (r : Fin 10) (n : BitVec 16) (s : State) : Ans := s.done (s.runCmd r n (isPin 4) State.kvRelease).ringRetry

end Sys2Proof.Machine
end

