-- ==== Sys2Proof/Machine/Turn.lean ====
section
/-! DEFINITION. The start of a turn in all units, the stopping of turns, and the end of a turn program (R18, R60-R63, R116, R118,
R155-R160, R180, R185, R218, R252, R505, R506, R515, R577, R578, R613, R616). -/

namespace Sys2Proof.Machine

open Reg

/-- A turn program that is over ends, and the Boards that waited for it go on. -/
def State.endProgram (s : State) : State :=
  if s.progDone then ((s.progEnd.boardResume 0).boardResume 1).boardResume 2 else s

/-- A new interval of demands begins at a turn start, beside the one before it (R526). -/
def State.rollDemand (s : State) : State :=
  { s with fresh := { s.fresh with
      before := max s.fresh.before s.fresh.demand, causesBefore := s.fresh.causesBefore ||| s.fresh.causes,
      demand := 0, causes := 0, startAt := some s.hg.dt } }

/-- The Hourglass at the start of turn N: what waited takes effect, the epoch is published, and the turn is counted
(R60, R63, R67). -/
def State.hgTurn (s : State) (N : Nat) : State :=
  let s1 := (s.hgApplyPending.publishEpoch.putB HG_TURN_CTL_STARTED true).setPair HG_TURN_NUM_LO N
  { s1 with hg := { s1.hg with nextTurn := N + 1 } }

/-- Every trigger in TURN mode takes its edge (R78). -/
def State.trigsTurn (s : State) (N : Nat) : State := (List.range 16).foldl (fun s n => s.turnEdge n N) s

/-- The groups that are wholly absent in turn N, by bit (R217). -/
def State.groupsGone (s : State) (N : Nat) : Nat :=
  ((List.range 8).filter fun g => !(s.members N g 64).isEmpty && (s.members N g 64).all fun n => (s.stream n).absent).foldl
    (fun a g => a + 2 ^ g) 0

/-- Put a frame into a list, newest first. -/
def insertFrame (f : SpFrame) : List SpFrame → List SpFrame
  | [] => [f]
  | g :: r => if g.fs ≤ f.fs then f :: g :: r else g :: insertFrame f r

/-- The frames offered to the turn, CLEARED ones, newest first in each stream. -/
def State.framesOffered (s : State) : List (Nat × SpFrame) :=
  (List.range 64).flatMap fun n =>
    let fs := ((s.stream n).slots.filter fun k => k.st == .held && k.frame.flag 6).map (·.frame)
    (fs.foldr insertFrame []).map fun f => (n, f)

/-- The record of turn N; `pat` is the Pattern table that was in force up to its start (R188). -/
def State.turnRec (s : State) (N : Nat) (pat : Option Table) : TurnRec :=
  { run := s.hg.run, turn := N, seq := s.ref.turns, gen := (s.reg TK_CONFIG_GEN).toNat, pat := pat,
    present := s.fresh.present, imu := !s.fresh.imuAbsent, gone := s.groupsGone N, frames := s.framesOffered }

/-- The record ring stops at the turn in which the record tenant's function is disabled (R547). -/
def State.ringTurn (s : State) : State :=
  { s with loom := { s.loom with ring := !s.is (HI_FUNC_STAT_DISABLED (s.get LM_REC_CFG_TENANT)) } }

/-- The turn is counted and recorded. -/
def State.openTurn (s : State) (N : Nat) (pat : Option Table) : State :=
  let s1 : State := { s with ref := { s.ref with turns := s.ref.turns + 1 } }
  s1.setTurns fun l => l ++ [s1.turnRec N pat]

/-- The Engine and the skip window (R252, R515). -/
def State.runTurn (s : State) (N : Nat) : State :=
  let skipped := s.eng.sched.pending.isSome
  (s.engTurn N).skipWindow skipped

/-- Turn N starts. The frames of the turn before are judged and handed over, its Board is read, the configuration switches; then
each unit begins the turn under the new one. -/
def State.startTurn (s : State) (N : Nat) : State :=
  let s1 := (((s.endProgram.judgeAll 64).handOver N 64).boardDone N).rollDemand.commitTurn N
  let s2 := (((s1.hgTurn N).trigsTurn N).freshTurn N).openTurn N s.weft.tab
  let s3 := ((s2.ringTurn.weftTurn N s.weft.tab s.weft.bank).refTurn N).noVerdict N
  ((s3.runTurn N).pptTurn 64).svTurn N

/-- TURN_START (R18): Device Time runs on to E + N × P. -/
def State.turnStart (s : State) : State :=
  if s.active && s.is HG_TURN_CTL_RUN then (s.advanceTo (s.turnInstant s.hg.nextTurn)).startTurn s.hg.nextTurn else s

/-- Turns have stopped (R62, R118, R505): slots are free, and a pending commit no longer waits for its turn. Edges that belong to
turns already started are still to come (R80). -/
def State.turnsOver (s : State) : State := (s.slotsStop 64).commitStop

/-- TURN_END_STOP (R62): Device Time runs on to the end of the turn. -/
def State.turnEndStop (s : State) : State :=
  if s.turnsRun && !s.is HG_TURN_CTL_RUN then (s.advanceTo (s.turnInstant s.hg.nextTurn)).hgStop.turnsOver else s

/-- A write to HG_TURN_CTL (R60, R62). -/
def State.turnCtl (s : State) (iid : Nat) (run : Bool) : State :=
  if run then
    let s1 := s.hgRun iid
    if s1.active && !s.active then s1.svPeerTurn else s1
  else
    let s1 := s.hgStopWrite
    if s.active && !s1.active then s1.turnsOver else s1

/-- TURN_RUN (R60). -/
def execTurnRun (iid : Iid) (s : State) : Ans := s.done (s.writeWith iid HG_TURN_CTL fun s => s.turnCtl iid.toNat true)

/-- TURN_STOP (R62). -/
def execTurnStop (iid : Iid) (s : State) : Ans := s.done (s.writeWith iid HG_TURN_CTL fun s => s.turnCtl iid.toNat false)

/-- TURN_END_STOP (R62). -/
def execTurnEndStop (s : State) : Ans := s.done s.turnEndStop

/-- TURN_START (R18). -/
def execTurnStart (s : State) : Ans := s.done s.turnStart

/-- PROGRAM_END (R252); a commit that waits for the program while turns are not running switches (R505). -/
def execProgramEnd (s : State) : Ans := s.done s.endProgram.commitPoll

end Sys2Proof.Machine
end

