-- ==== Sys2Proof/Machine/Host.lean ====
section
/-! DEFINITION. The pool window, and the functions' enabling, disabling, reset and link loss (R474, R514, R530-R534, R547-R549,
R553, R555, R556). -/

namespace Sys2Proof.Machine

open Reg

/-! ### The pool window (R474, R532, R534, R555) -/

/-- R532: the DPA is backed by populated memory that the window may reach. -/
def State.pwinBacked (s : State) (a : Nat) : Bool := s.isBobData a || (isReel a && s.get MEM_RC_CFG_SIZE != 0)

/-- A refused request: it has no effect, and a read returns zero. -/
def State.pwinRefuse (s : State) (t : Nat) (wr : Bool) (len code : Nat) : State :=
  let s1 := if code = 0x900B then (s.report code t).bump HI_DENY_CNT_REGION else s.dpaRefuse code t
  if wr then s1 else s1.emit (.poolData t (List.replicate len 0) false)

/-- The check that refuses a request of `len` bytes at offset `off`. -/
def State.pwinCheck (s : State) (t off len : Nat) (wr : Bool) : Option Nat :=
  let a := 2 ^ 21 * ((s.reg (HI_PWIN_BASE t)).toNat % 2 ^ 19) + off
  if 2 ^ 21 * (s.reg (HI_PWIN_SIZE t)).toNat < off + len then some 0x900B
  else if !s.pwinBacked a then some 0x900B
  else s.dpaCheck (.local t) a len wr

/-- An admitted read: what a poisoned line delivers goes by its range's ERR_MODE (R474). -/
def State.pwinRead (s : State) (t a len : Nat) (e : MemErr) : State :=
  let (s1, bs, p) := s.dpaRead t a len e
  if p.isEmpty then s1.emit (.poolData t bs false)
  else
    let s2 := s1.took.report 0x7020 t
    if p.any fun l => ((s2.protOf (l * 64)).map (·.fatal)).getD false then (s2.emit (.poolAbort t)).emit (.errFatal t)
    else s2.emit (.poolData t (blurred s1.free bs ((List.range len).map fun i => p.contains ((a + i) / 64))) true)

/-- An admitted write: with EP set, every line it touches is poisoned (R534). -/
def State.pwinWrite (s : State) (t a : Nat) (bs : List Byte) (ep : Bool) (e : MemErr) : State :=
  let s1 := s.dpaWrite t a bs e
  if ep && !bs.isEmpty then s1.poisonLines (a / 64) ((a + bs.length - 1) / 64 - a / 64 + 1) else s1

/-- A request is one that PCIe can make: of 1 to 4,096 bytes within 4 KiB, through a function that is not disabled. -/
def State.pwinReq (s : State) (t off len : Nat) (wr : Bool) (data : List Byte) : Bool :=
  decide (1 ≤ len) && decide (off % 4096 + len ≤ 4096) && (!wr || data.length == len) && !s.is (HI_FUNC_STAT_DISABLED t)

/-- POOL_WINDOW_ACCESS (R532). -/
def State.pwinAccess (s : State) (t off : Nat) (wr : Bool) (len : Nat) (data : List Byte) (ep : Bool) (e : MemErr) : State :=
  if !s.pwinReq t off len wr data then s
  else
    let s1 := if wr && ep then s.report 0x9008 t else s
    let a := 2 ^ 21 * ((s1.reg (HI_PWIN_BASE t)).toNat % 2 ^ 19) + off
    match s1.pwinCheck t off len wr with
    | some c => s1.pwinRefuse t wr len c
    | none => if wr then s1.pwinWrite t a data ep e else s1.pwinRead t a len e

/-! ### What the end of a function's work takes away (R469, R514) -/

/-- Its claimed squares are voided at once, without a record. -/
def State.voidSquares (s : State) (t : Nat) : State :=
  (s.track.squares.filter fun p => p.2.owner == some t).foldl (fun s p =>
    ((s.bump (whole TK_VOID_CNT)).passSquare p.1).finish t p.2.csn) s

/-- Its accepted commands, and the records that wait, end without a record being written. -/
def State.endCommands (s : State) (t : Nat) : State :=
  let cs := (s.track.store.filter fun c => c.req == t).map (·.csn)
  let rs := ((s.tkRecs t).filter fun x => !x.notice).map (·.csn)
  let s1 := s.setTrack fun k => { k with
    store := k.store.filter fun c => c.req != t, recs := spPut (fun _ => []) k.recs t [] }
  (cs ++ rs).foldl (fun s c => s.finish t c) s1

/-- A LAUNCH_TURN of the requester that is not yet in force is cancelled, and its pins are released. -/
def State.cancelLaunch (s : State) (t : Nat) : State :=
  match s.eng.sched.next with
  | some l =>
    if l.req = t then (s.setSched fun d => { d with next := none }).unpin fun o => o == .turn l.image.ord else s
  | none => s

/-- A TABLE_COMMIT of the requester is cancelled. -/
def State.cancelCommit (s : State) (t : Nat) : State :=
  match s.track.commit with
  | some c => if c.req = t then (s.setTrack fun k => { k with commit := none }).expCheck else s
  | none => s

/-- A LACE.COMMIT of the requester no longer stands armed. -/
def State.disarmLaces (s : State) (t : Nat) : State :=
  (List.range 4).foldl (fun s l =>
    if ((s.lace l).armed.map fun a => a.2.1 == t).getD false then
      (s.setLace l { s.lace l with armed := none }).putB (TE_LACE_STAT_COMMIT_ARMED l) false
    else s) s

/-- R514. -/
def State.endTenant (s : State) (t : Nat) : State :=
  let s1 := (((s.voidSquares t).cancelLaunch t).cancelCommit t).disarmLaces t
  (List.range 64).foldl (fun s g => s.endGraph (64 * t + g)) (s1.endCommands t)

/-- Entry to the disabled state acts by R469 and R514. -/
def State.loseTenant (s : State) (t : Nat) : State := (s.holderLost fun h => h == t).endTenant t

/-! ### Function state (R547-R549) -/

/-- The function becomes disabled: 0x9009 is reported where it was not (R547). -/
def State.disableFn (s : State) (t : Nat) : State :=
  let s1 := (s.putB (HI_FUNC_STAT_DISABLED t) true).putB (HI_FUNC_STAT_PRESENT t) false
  if s.is (HI_FUNC_STAT_DISABLED t) then s1 else (s1.report 0x9009 t).loseTenant t

/-- A physical function is the first of its port; the others need VF Enable (R547). -/
def fnOn (t : Nat) (mse bme vfe : Bool) : Bool := mse && bme && (t % 4 == 0 || vfe)

/-- FUNCTION_DISABLE (R547). -/
def State.fnDisable (s : State) (t : Nat) (mse bme vfe : Bool) : State :=
  if fnOn t mse bme vfe then s
  else ((s.putB (HI_FUNC_STAT_MSE t) mse).putB (HI_FUNC_STAT_BME t) bme).disableFn t

/-- The link of port p is up: its speed and width are the link's, free values where it has just trained. -/
def State.linkUp (s : State) (p : Nat) : State :=
  let v := (s.reg HI_STATUS).toNat
  if v.testBit (8 * p) then s
  else
    let x := s.free
    let w := setBits (setBits (setBits v (8 * p) 1 1) (8 * p + 1) 3 (x % 4 + 1)) (8 * p + 4) 3 (2 ^ (x / 4 % 3))
    let s1 := s.took.setReg HI_STATUS (BitVec.ofNat 32 w)
    { s1 with pwr := { s1.pwr with perst := setBits s1.pwr.perst p 1 0 } }

/-- FUNCTION_ENABLE (R547); a Function Level Reset in progress keeps the function disabled. -/
def State.fnEnable (s : State) (t : Nat) (mse bme vfe msix fmask : Bool) : State :=
  if !fnOn t mse bme vfe || s.is (HI_FUNC_STAT_FLR t) then s
  else
    let s1 := (((s.linkUp (t / 4)).putB (HI_FUNC_STAT_MSE t) true).putB (HI_FUNC_STAT_BME t) true).putB (HI_FUNC_STAT_PRESENT t) true
    (s1.putB (HI_FUNC_STAT_DISABLED t) false).setHostFn t { s1.hostFn t with msixEn := msix, fmask := fmask }

/-- The completion queue registers and the ATU tenant registers return to their reset values (R549). -/
def State.fnRegs (s : State) (t : Nat) : State :=
  let offs := [TK_CQ_BASE_LO t, TK_CQ_BASE_HI t, TK_CQ_CFG t, TK_CQ_HEAD t, TK_CQ_TAIL t,
    AT_TEN_CTL t, AT_ROOT_LO t, AT_ROOT_HI t, AT_INV_VA_LO t, AT_INV_VA_HI t, AT_INV_CTL t, AT_FAULT_STAT t]
  let s1 := offs.foldl (fun s o => s.setReg o (regReset o)) s
  let s2 : State := { s1 with atu := { s1.atu with faults := spPut (fun _ => []) s1.atu.faults t [] } }
  s2.setTrack fun k => { k with phase := spPut (fun _ => true) k.phase t true }

/-- The function's configuration space returns to its reset values, and its pending messages are not sent (R531, R548, R549). -/
def State.fnConfig (s : State) (t : Nat) : State :=
  ((s.putB (HI_FUNC_STAT_MSE t) false).putB (HI_FUNC_STAT_BME t) false).setHostFn t {}

/-- The device side of a function is reset: its work ends whatever its state (R469, R514, R549). -/
def State.fnReset (s : State) (t : Nat) : State :=
  (((s.fnConfig t).putB (HI_FUNC_STAT_PRESENT t) false).putB (HI_FUNC_STAT_DISABLED t) true |>.loseTenant t).fnRegs t

/-- FUNCTION_LEVEL_RESET (R549). -/
def State.fnLevelReset (s : State) (t : Nat) : State :=
  let s1 := if s.is (HI_FUNC_STAT_DISABLED t) then s else s.report 0x9009 t
  (s1.putB (HI_FUNC_STAT_FLR t) true).fnReset t

/-- FUNCTION_LEVEL_RESET_DONE (R549). -/
def State.fnResetDone (s : State) (t : Nat) : State :=
  if s.is (HI_FUNC_STAT_FLR t) then (s.putB (HI_FUNC_STAT_FLR t) false).fnRegs t else s

/-- The link of port p is lost (R548, R556). -/
def State.linkLost (s : State) (p : Nat) : State :=
  if !(s.reg HI_STATUS).getLsbD (8 * p) then s
  else
    let s1 := s.setReg HI_STATUS (BitVec.ofNat 32 (setBits (s.reg HI_STATUS).toNat (8 * p) 7 0))
    (List.range 4).foldl (fun s i => s.fnReset (4 * p + i)) (s1.report 0x900A (4 * p))

/-! ### The commands -/

/-- POOL_WINDOW_ACCESS (R532). -/
def execPoolWindowAccess (t : Fin 8) (off : Nat) (write : Bool) (len : Nat) (data : List Byte) (ep : Bool) (e : MemErr)
    (s : State) : Ans := s.done (s.pwinAccess t off write len data ep e)

/-- FUNCTION_ENABLE (R547). -/
def execFunctionEnable (t : Fin 8) (mse bme vfe msix fmask : Bool) (s : State) : Ans :=
  s.done (s.fnEnable t mse bme vfe msix fmask)

/-- FUNCTION_DISABLE (R547). -/
def execFunctionDisable (t : Fin 8) (mse bme vfe : Bool) (s : State) : Ans := s.done (s.fnDisable t mse bme vfe)

/-- FUNCTION_LEVEL_RESET (R549). -/
def execFunctionLevelReset (t : Fin 8) (s : State) : Ans := s.done (s.fnLevelReset t)

/-- FUNCTION_LEVEL_RESET_DONE (R549). -/
def execFunctionLevelResetDone (t : Fin 8) (s : State) : Ans := s.done (s.fnResetDone t)

/-- LINK_DOWN (R548). -/
def execLinkDown (port : Fin 2) (s : State) : Ans := s.done (s.linkLost port)

end Sys2Proof.Machine
end

