-- ==== Sys2Proof/Machine/Power.lean ====
section
/-! DEFINITION. The power states, wake reports, temperature and background work (R654-R670, R674-R679). -/

namespace Sys2Proof.Machine

open Reg

/-- The MC's Initiator ID, which Power codes carry (R671). -/
def mcIid : Nat := 9

def State.setPwr (s : State) (f : Pwr → Pwr) : State := { s with pwr := f s.pwr }

/-! ### The conditions of R656 -/

/-- The Engine is idle: no program runs or is pending, and no firing is running, parked or ready. -/
def State.engQuiet (s : State) : Bool :=
  s.eng.sched.running.isNone && s.eng.sched.pending.isNone &&
    (List.range 36).all (fun h => (s.hoop h).firing.isNone) &&
    s.eng.token.graphs.all fun p => ((p.2.map fun g => g.actors.all fun a => a.since.isNone).getD true)

/-- No Track command executes; a TIME_EVENT waits only. -/
def State.tkQuiet (s : State) : Bool := s.track.store.all fun c => c.phase != .running || isOp 0x05 c

/-- The Loom, Weft and ME are idle. -/
def State.outQuiet (s : State) : Bool :=
  s.loom.turns.isEmpty && s.loom.ports.all (fun p => p.2.fifo.isEmpty && (p.2.wire.map fun w => decide (w.2.1 ≤ s.hg.dt)).getD true) &&
     s.weft.exp.isNone && s.me.queue.isEmpty

/-- No pool, spill or return transfer runs. -/
def State.moveQuiet (s : State) : Bool :=
  s.pool.mirrorWait.isEmpty && s.sv.fetch.isEmpty &&
    s.sk.seqs.all (fun p => ((p.2.map fun q => q.want.isNone && q.returns.isEmpty).getD true)) &&
    s.sk.skeins.all fun p => ((p.2.map fun k => k.st != .spilling && k.st != .returning).getD true)

/-- The row of state `k` holds. -/
def State.powerRow (s : State) (k : Nat) : Bool :=
  match k with
  | 1 => s.engQuiet && s.tkQuiet && s.outQuiet && s.moveQuiet
  | 2 => !s.active && !s.is HG_TURN_CTL_RUN && (List.range 4).all (fun l => !s.is (TE_LACE_CTL_EN l)) &&
      s.track.squares.all (fun p => p.2.owner.isNone) && (List.range 64).all (fun n => !s.is (SP_STR_SRC_EN n)) &&
      (List.range 4).all fun i => !s.is (SP_IMU_CFG_EN i)
  | 3 => !s.is HI_STATUS_UP_A && !s.is HI_STATUS_UP_B && s.pwr.perst == 3 && s.get SV_STATUS_STATE == 0 &&
      !s.is SP_ETH_CFG_EN && !s.is LM_CTL_EN
  | _ => true

/-- State `k` may be entered: its row and every shallower one hold, and DEEPEST permits it. -/
def State.powerOk (s : State) (k : Nat) : Bool :=
  decide (k ≤ s.get MC_PWR_REQ_DEEPEST) && (List.range k).all fun j => s.powerRow (j + 1)

/-! ### The next known event (R660) -/

/-- The smaller of two instants, of which either may be none. -/
def sooner : Option Nat → Option Nat → Option Nat
  | some a, some b => some (min a b)
  | some a, none => some a
  | none, b => b

/-- The target of a TIME_EVENT, in ns. -/
def State.eventTarget (s : State) (c : TkCmd) : Option Nat :=
  if !isOp 0x05 c then none
  else if c.u 16 1 = 0 then some (c.u 24 8)
  else if s.active then some (s.turnInstant (c.u 24 8) / 256)
  else none

/-- The known events, in ns of Device Time. -/
def State.knownEvents (s : State) : List (Option Nat) :=
  [if s.active && s.is HG_TURN_CTL_RUN then some (s.turnInstant s.hg.nextTurn / 256 - 50000) else none,
   if s.wakeOn 0 then some (s.pair MC_WAKE_AT_LO) else none] ++
  (List.range 2).map (fun p =>
    if s.svState p = 4 then some ((s.svPort p).calAt / 256 + s.get MC_CAL_CFG_FORCE_S * 1000000000) else none) ++
  s.track.store.map s.eventTarget

/-- The next known event: the earliest of those that lie ahead. -/
def State.nextEvent (s : State) : Option Nat :=
  (s.knownEvents.map fun x => x.filter fun t => decide (s.hg.dt < t * 256)).foldl sooner none

/-- The MC publishes it: all ones in the high half for none. -/
def State.publishEvent (s : State) : State := s.setPair MC_NEXT_EV_LO (s.nextEvent.getD 0xFFFFFFFF00000000)

/-! ### Choosing, entry and exit (R654, R655, R658, R660) -/

/-- The ramp between the voltage in force and VMIN, in ns (R249). -/
def State.pauseRamp (s : State) : Nat :=
  let v := s.eng.gov.v
  let m := s.get TE_GOV_VLIM_VMIN
  ((max v m - min v m) * 1000 + max 1 (s.get TE_AVS_CFG_SLEW) - 1) / max 1 (s.get TE_AVS_CFG_SLEW) + 1000

/-- The limit of the entry into state `k`, in ns; HIBERNATE flushes the Reel cache first. -/
def State.entryTime (s : State) (k : Nat) : Nat :=
  if k = 1 then 5000 else if k = 2 then 200000 else if k = 3 then 3000000
  else 40000000 + (s.mem.dirtyLines.length * 16384 * 2 + 2) / 3

/-- The limit of the exit from state `k`, in ns. -/
def State.exitTime (s : State) (k : Nat) : Nat :=
  if k = 1 then 10000 + s.pauseRamp else if k = 2 then 1500000 else if k = 3 then 30000000 else 180000000

/-- State `k` fits before the next known event. -/
def State.powerFits (s : State) (k : Nat) : Bool :=
  match s.nextEvent with
  | none => true
  | some t => decide (s.hg.dt + (s.entryTime k + s.exitTime k + (s.reg MC_PWR_GUARD).toNat * 1000) * 256 ≤ t * 256)

/-- The deepest state that may be entered and fits; 0 for none. -/
def State.choosePower (s : State) : Nat :=
  ([4, 3, 2, 1].find? fun k => s.powerOk k && s.powerFits k).getD 0

/-- POWER_STATE_CHOOSE: from ACTIVE, or from PAUSE into a deeper state. -/
def State.powerChoose (s : State) : State :=
  let s1 := s.publishEvent
  let k := s1.choosePower
  if s1.is MC_PWR_STAT_MOVING || decide (2 ≤ s1.get MC_PWR_STAT_STATE) || decide (k ≤ s1.get MC_PWR_STAT_STATE) then s1
  else (s1.setPwr fun w => { w with entering := some k, since := s.hg.dt }).putB MC_PWR_STAT_MOVING true

/-- The contents of Hoop SRAM and the Lace networks are lost with VCORE (R358, R654); a resident program with them. -/
def State.loseCore (s : State) : State :=
  let s1 := (List.range 36).foldl (fun s h => s.modHoop h fun x => { x with sram := [], sramBad := [] }) s
  ((List.range 4).foldl (fun s l => s.laceLost l) s1).setSched fun d => { d with resident := none, mustLoad := true }

/-- The Selvedge links, and the state of Ethernet and D-PHY, are lost with VDD_SERDES and VDD_DPHY. -/
def State.loseLinks (s : State) : State :=
  let s1 := (List.range 2).foldl (fun s p => (if s.svState p = 0 then s else s.svFall p none).stxLoss p) s
  let s2 : State := { s1 with eth := {} }
  (List.range 8).foldl (fun s p =>
    ((s.putB (SP_PORT_STAT_CLK_HS p) false).putB (SP_PORT_STAT_ULPS p) false).putB (SP_PORT_STAT_DESKEW_OK p) false) s2

/-- The Frame Store is lost with VDD_SOC. -/
def State.loseStore (s : State) : State := { s with fs := [], fsBad := [] }

/-- The Reel cache, clean after the flush, is lost with the Reel controller. -/
def State.loseCache (s : State) : State :=
  { s with mem := { (s.mem.wb.foldl Mem.toReel (s.mem.clean s.mem.dirtyLines)) with cache := [], wb := [], filling := [], flush := [] } }

/-- What entry into state `k` takes away; each state loses what a shallower one loses. -/
def State.powerLose (s : State) (k : Nat) : State :=
  let s1 := if 2 ≤ k then s.loseCore else s
  let s2 := if 3 ≤ k then s1.loseLinks else s1
  if 4 ≤ k then s2.loseCache.loseStore else s2

/-- The rails of a state are off, with their enables and power-good inputs. -/
def State.dropRails (s : State) (k : Nat) : State :=
  (s.put MC_RAIL_STAT_EN (s.get MC_RAIL_STAT_EN &&& (15 - railsOff k))).put MC_RAIL_STAT_PG
    (s.get MC_RAIL_STAT_PG &&& (15 - railsOff k))

/-- POWER_STATE_ENTRY_DONE (R654): PAUSE takes VCORE to VMIN. -/
def State.entryDone (s : State) : State :=
  match s.pwr.entering with
  | none => s
  | some k =>
    let s1 := ((s.put MC_PWR_STAT_STATE k).putB MC_PWR_STAT_MOVING false).setPwr fun w =>
      { w with entering := none, slept := s.hg.dt, v := s.eng.gov.v }
    if k = 1 then s1.govSet (s1.get TE_GOV_VLIM_VMIN) else (s1.powerLose k).dropRails k

/-- The frames that the CAN controllers hold are logged (R663). -/
def State.logHeld (s : State) : State :=
  let fs := s.pwr.held
  fs.foldl (fun s x => match s.canReceive x.1 x.2 with
    | (s1, some m) => s1.meInput { imu := false, stamp := x.2.sof, unit := x.1, box := m, data := x.2.data }
    | (s1, none) => s1) (s.setPwr fun w => { w with held := [] })

/-- The Spindle fabric does not run: it runs again within 1.5 ms of the start of an exit (R663). -/
def State.fabricOff (s : State) : Bool :=
  decide (2 ≤ s.get MC_PWR_STAT_STATE) && !(s.pwr.leaving.isSome && decide (s.pwr.since + 1500000 * 256 ≤ s.hg.dt))

/-- What is held goes on as soon as the fabric runs. -/
def State.fabricPoll (s : State) : State := if s.pwr.held.isEmpty || s.fabricOff then s else s.logHeld

/-- VCORE is back at 0.80 V, as PWR_EN_CORE switches it (R642); after PAUSE the Governor sets the voltage from before it. -/
def State.coreBack (s : State) (k : Nat) : State :=
  if k = 1 then s.govSet s.pwr.v
  else ((s.setGov fun g => { g with v := 800, wait := none, frame := none, ramp := false }).setReg TE_GOV_VNOW 800).putB
    TE_AVS_STAT_BUSY false

/-- POWER_STATE_EXIT_DONE (R655, R658): ACTIVE; an exit beyond its limit is reported. -/
def State.exitDone (s : State) : State :=
  match s.pwr.leaving with
  | none => s
  | some k =>
    let st := s.get MC_PWR_STAT_STATE
    let late := decide ((s.pwr.spent + (s.exitTime k) * 256) < s.hg.dt - s.pwr.since)
    let s1 := s.logHeld
    let s2 := (s1.put MC_RAIL_STAT_EN (s1.get MC_RAIL_STAT_EN ||| railsOff st)).put MC_RAIL_STAT_PG
      (s1.get MC_RAIL_STAT_PG ||| railsOff st)
    let s3 := ((s2.put MC_PWR_STAT_STATE 0).putB MC_PWR_STAT_MOVING false).setPwr fun w =>
      { w with leaving := none, spent := 0, scrubFrom := if 2 ≤ st then w.scrubFrom.map (· + (s.hg.dt - w.slept)) else w.scrubFrom }
    let s4 := if st = 0 then s3 else s3.coreBack st
    if late then s4.report 0xC009 mcIid else s4

/-- PAUSE_EXIT (R662): the conditions of PAUSE no longer hold. -/
def State.pauseExit (s : State) : State :=
  if s.sleepLevel = 1 ∧ s.powerRow 1 = false then s.beginExit else s

/-! ### Wake (R662-R665) -/

/-- WAKE_TIME: Device Time runs on to MC_WAKE_AT; a wake fires once for a value written. -/
def State.wakeTime (s : State) : State :=
  let v := s.pair MC_WAKE_AT_LO
  if s.wakeOn 0 && decide (2 ≤ s.sleepLevel) && s.pwr.wakeMet != some v then
    ((s.advanceTo (v * 256)).recordWake 0).setPwr fun w => { w with wakeMet := some v }
  else s

/-- WAKE_EVENT: Device Time runs on to the event that the MC has published; PAUSE records no reason. -/
def State.wakeEvent (s : State) : State :=
  let v := s.pair MC_NEXT_EV_LO
  if s.sleepLevel = 0 || decide (0xFFFFFFFF * 2 ^ 32 ≤ v) then s
  else
    let s1 := s.advanceTo (v * 256)
    (if s.sleepLevel = 1 then s1.beginExit else s1.recordWake 1).publishEvent

/-- WAKE_IN low for `ns`. -/
def State.wakePin (s : State) (ns : Nat) : State := if 10000 ≤ ns then s.recordWake 6 else s

/-- The host resumes on port p: WAKE_N is released, and not asserted again until PERST_N has fallen (R664). -/
def State.hostResume (s : State) (p : Nat) : State :=
  s.setPwr fun w => { w with wakeN := setBits w.wakeN p 1 0, resumed := setBits w.resumed p 1 1 }

/-- HOST_WAKE: a control-window access (0), CLKREQ_N asserted (1), PERST_N rising (2). -/
def State.hostWake (s : State) (p kind : Nat) : State :=
  if kind = 0 then s.recordWake (2 + p)
  else if kind = 1 then (s.hostResume p).recordWake (2 + p)
  else if s.pwr.perst.testBit p then
    ((s.setPwr fun w => { w with perst := setBits w.perst p 1 0 }).hostResume p).recordWake (2 + p)
  else s

/-- The owner may be told: its port is up, and its function has Memory Space Enable and Bus Master Enable set (R665). -/
def State.ownerReady (s : State) : Bool :=
  let t := s.get MC_PWR_OWNER_TENANT
  s.is MC_PWR_OWNER_VALID && (s.reg HI_STATUS).getLsbD (8 * (t / 4)) && s.is (HI_FUNC_STAT_MSE t) && s.is (HI_FUNC_STAT_BME t)

/-- WAKE_REPORT (R665): the reasons recorded move to MC_WAKE_RPT with one message, at most one every 10 µs. -/
def State.wakeReport (s0 : State) : State :=
  if !s0.ownerReady || s0.reg MC_WAKE_PEND = 0 then s0
  else
    let s := match s0.pwr.msgAt with
      | some t => s0.advanceTo (t + 10000 * 256)
      | none => s0
    let s1 := (s.setReg MC_WAKE_RPT (s.reg MC_WAKE_RPT ||| s.reg MC_WAKE_PEND)).setReg MC_WAKE_PEND 0
    (s1.setPwr fun w => { w with msgAt := some s1.hg.dt }).msix (s1.get MC_PWR_OWNER_TENANT) (s1.get MC_WAKE_CFG_VEC)

/-- A write to MC_WAKE_RPT: MC_WAKE_CNT is zero once it is 0 (R672). -/
def State.rptWrite (s : State) (v : Word) : State :=
  let s1 := s.setReg MC_WAKE_RPT (s.reg MC_WAKE_RPT &&& ~~~ v)
  if s1.reg MC_WAKE_RPT = 0 then s1.setReg MC_WAKE_CNT 0 else s1

/-- A write to MC_WAKE_AT: TIME may fire again. -/
def State.wakeAtWrite (s : State) (iid off : Nat) (v : Word) : State :=
  (s.plainWrite iid off v).setPwr fun w => { w with wakeMet := none }

/-! ### OFF (R659, R661) -/

/-- A write to MC_PWR_REQ: DEEPEST, and PREP_OFF, which flushes the Reel cache first. -/
def State.pwrReq (s : State) (iid : Nat) (v : Word) : State :=
  let s1 := s.plainWrite iid MC_PWR_REQ (v &&& 7)
  if !v.getLsbD 8 then s1
  else if s1.active then s1.report 0xC008 mcIid
  else (s1.reelFlush.putB MC_PWR_REQ_PREP_OFF true).setPwr fun w => { w with off := true }

/-- The flush that PREP_OFF asked for has ended. -/
def State.offReady (s : State) : State :=
  if s.pwr.off && !s.is MEM_STATUS_FLUSHING then
    ((s.putB MC_PWR_STAT_OFF_READY true).putB MC_PWR_REQ_PREP_OFF false).setPwr fun w => { w with off := false }
  else s

/-! ### Temperature (R670) -/

/-- The index and value of the hottest sensor. -/
def hottest : List Int → Nat → Nat × Int → Nat × Int
  | [], _, b => b
  | t :: r, i, b => hottest r (i + 1) (if b.2 < t then (i, t) else b)

/-- The thermal cap begins or ends, with THERM_N. -/
def State.thermalCap (s : State) (on : Bool) : State :=
  let s1 := s.setPwr fun w => { w with cap := on }
  if on && decide (750 < s1.eng.gov.v) then s1.govSet 750 else s1

/-- THERMAL_SAMPLE: 8 die sensors and the Bobbin stacks' sensors, in °C; the power in mW. -/
def State.thermal (s : State) (die stack : List Int) (power : Nat) : State :=
  match die ++ stack with
  | [] => s
  | t :: r =>
    let (i, tj) := hottest r 1 (0, t)
    let warm := decide ((s.get MC_THERM_CFG_WARN : Int) ≤ tj)
    let crit := decide ((s.get MC_THERM_CFG_CRIT : Int) ≤ tj)
    let s1 := ((s.put MC_TEMP_MAX_TJ (unsign 8 tj)).put MC_TEMP_MAX_SENSOR i).setReg MC_POWER (BitVec.ofNat 32 power)
    let s2 := s1.reportAll mcIid ((if warm && !s.pwr.warm then [0xC005] else []) ++ if crit && !s.pwr.crit then [0xC006] else [])
    let s3 := if warm && !s.pwr.warm then s2.recordWake 8 else s2
    let s4 := s3.setPwr fun w => { w with warm := warm, crit := crit }
    if crit && !s.pwr.cap then s4.thermalCap true else if !warm && s.pwr.cap then s4.thermalCap false else s4

/-! ### Background work (R666, R668, R669) -/

/-- Wear levelling of a partition is forced below 2 % free, until 4 % is free. -/
def wearForced (was : Bool) (free : Nat) : Bool := if was then decide (free < 4) else decide (free < 2)

/-- WEAR_LEVEL (R666): the free blocks of the main and the spill partition, in %. -/
def State.wearLevel (s : State) (free slc : Nat) : State :=
  let s1 := (s.put MEM_REEL_STAT_FREE_PCT free).put MEM_REEL_STAT_SLC_FREE_PCT slc
  let a := wearForced s.pwr.wear free
  let b := wearForced s.pwr.slc slc
  let n := (if a && !s.pwr.wear then 1 else 0) + (if b && !s.pwr.slc then 1 else 0)
  (s1.bump MC_BG_STAT_WEAR_FORCED n).setPwr fun w => { w with wear := a, slc := b }

/-- Seconds have passed since the port's last CAL. -/
def State.calDue (s : State) (p sec : Nat) : Bool := decide (1000000000 * 256 * sec + (s.svPort p).calAt ≤ s.hg.dt)

/-- IDLE_CAL (R668): no Track command is executing or accepted, and nothing is queued on the port. -/
def State.idleCal (s : State) (p : Nat) : State :=
  if s.svState p = 4 ∧ s.track.store = [] ∧ (s.svPort p).queue = [] ∧ s.calDue p (s.get MC_CAL_CFG_IDLE_MIN_S) = true then
    (s.bump MC_BG_STAT_CAL_IDLE).svCal p
  else s

/-- FORCED_CAL (R669): Device Time runs on to the instant. -/
def State.forcedCal (s : State) (p : Nat) : State :=
  if s.svState p = 4 then
    ((s.advanceTo ((s.svPort p).calAt + s.get MC_CAL_CFG_FORCE_S * 1000000000 * 256)).bump MC_BG_STAT_CAL_FORCED).svCal p
  else s

/-- A write to MC_THERM_CFG or MC_CAL_CFG: WARN is at most CRIT, and FORCE_S at least IDLE_MIN_S (R673). -/
def State.thermCfg (s : State) (iid : Nat) (v : Word) : State :=
  if bitsOf v.toNat 8 8 < bitsOf v.toNat 0 8 then s else s.plainWrite iid MC_THERM_CFG v

def State.calCfg (s : State) (iid : Nat) (v : Word) : State :=
  if bitsOf v.toNat 16 16 < bitsOf v.toNat 8 8 then s else s.plainWrite iid MC_CAL_CFG v

/-! ### The commands -/

/-- POWER_STATE_CHOOSE (R660). -/
def execPowerStateChoose (s : State) : Ans := s.done s.powerChoose

/-- POWER_STATE_ENTRY_DONE (R654). -/
def execPowerStateEntryDone (s : State) : Ans := s.done s.entryDone

/-- POWER_STATE_EXIT_DONE (R655). -/
def execPowerStateExitDone (s : State) : Ans := s.done s.exitDone

/-- PAUSE_EXIT (R662). -/
def execPauseExit (s : State) : Ans := s.done s.pauseExit

/-- WAKE_TIME (R662). -/
def execWakeTime (s : State) : Ans := s.done s.wakeTime

/-- WAKE_EVENT (R662). -/
def execWakeEvent (s : State) : Ans := s.done s.wakeEvent

/-- WAKE_IN (R662). -/
def execWakeIn (ns : Nat) (s : State) : Ans := s.done (s.wakePin ns)

/-- HOST_WAKE (R664). -/
def execHostWake (port : Fin 2) (kind : Fin 3) (s : State) : Ans := s.done (s.hostWake port kind)

/-- WAKE_REPORT (R665). -/
def execWakeReport (s : State) : Ans := s.done s.wakeReport

/-- PREP_OFF (R659). -/
def execPrepOff (iid : Iid) (v : Word) (s : State) : Ans := s.done (s.writeWith iid MC_PWR_REQ fun s => s.pwrReq iid.toNat v)

/-- THERMAL_SAMPLE (R670). -/
def execThermalSample (die stack : List Int) (power : Nat) (s : State) : Ans := s.done (s.thermal die stack power)

/-- WEAR_LEVEL (R666). -/
def execWearLevel (free slcFree : Nat) (s : State) : Ans := s.done (s.wearLevel free slcFree)

/-- IDLE_CAL (R668). -/
def execIdleCal (p : Fin 2) (s : State) : Ans := s.done (s.idleCal p)

/-- FORCED_CAL (R669). -/
def execForcedCal (p : Fin 2) (s : State) : Ans := s.done (s.forcedCal p)

/-- REEL_FLUSH_DONE (R431, R659). -/
def execReelFlushDone (s : State) : Ans := s.done s.reelFlushed.offReady

end Sys2Proof.Machine
end

