-- ==== Sys2Proof/Machine/Boot.lean ====
section
/-! DEFINITION. Rails, resets, the boot path, the configuration lock and recovery (R642-R653, R676, R693-R695, R714). -/

namespace Sys2Proof.Machine

open Reg

def State.setBoot (s : State) (f : Boot → Boot) : State := { s with boot := f s.boot }

/-- Add a code to the reports, where `b` holds. -/
def State.reportIf (s : State) (b : Bool) (code iid : Nat) : State := if b then s.report code iid else s

/-! ### Start-up -/

/-- The boot ROM enters recovery, with 0xC002 (R653). -/
def State.enterRecovery (s : State) : State :=
  (s.report 0xC002 mcIid).setBoot fun b => { b with stage := 0, recovery := true }

/-- SV_CFG from the straps (R569, R694, R695). -/
def State.strapCfg (s : State) : State :=
  let x := s.boot.straps
  if (x.twin && x.mem.val != 1) || decide (x.mem.val < x.dev.val) then
    ((s.setReg SV_CFG (BitVec.ofNat 32 (1 * 2 ^ 4))).putB SV_CFG_ROLE x.role).report 0xA010 24
  else
    ((s.setReg SV_CFG (BitVec.ofNat 32 (x.dev.val + (x.mem.val + 1) * 2 ^ 4))).putB SV_CFG_TWIN x.twin).putB SV_CFG_ROLE x.role

/-- Paeno runs: it enables the first rail (R642), takes the straps, and reports a lost backup time (R91). -/
def State.paenoRuns (s : State) : State :=
  let s1 := s.put MC_RAIL_STAT_EN (s.get MC_RAIL_STAT_EN ||| 1)
  s1.strapCfg.reportIf (s.is HG_BK_STAT_LOST) 0x100B hgIid

/-- The boot ROM tries slot A, then slot B (R649); with every rail on already, rails are done. -/
def State.bootRom (s : State) : State :=
  let f := s.boot.flash
  let s1 := s.reportIf (!f.paenoA) 0xC001 mcIid
  if f.paenoA || f.paenoB then
    (s1.setBoot fun b => { b with
      stage := if s.get MC_RAIL_STAT_PG = 15 then 2 else 1, slot := !f.paenoA, recovery := false, version := f.version,
      rollback := f.rollback.toNat }).paenoRuns
  else (s1.report 0xC001 mcIid).enterRecovery

/-! ### Resets -/

/-- What the backup node keeps (R90, R619). -/
def keptCold (off : Nat) : Bool := off == HG_BK_STAT || off == RF_SAFE_CAUSE

/-- POR_N rises (R645): everything but the backup node, the fuses, the Reel's NAND, the levels of PERST_N, and what has left the
device is as after reset. A device in test mode does not boot (R693). -/
def State.coldStart (s : State) (straps : Straps) (flash : BootFlash) : State :=
  let t : State := { State.reset with
    regs := s.regs.filter fun p => keptCold p.1
    hg := { bkSec := s.hg.bkSec, bkSub := s.hg.bkSub, bkAcc := s.hg.bkAcc }
    mem := { reel := s.mem.reel }
    boot := { fuse := s.boot.fuse, flash := flash, straps := straps }
    pwr := { perst := s.pwr.perst }
    outbox := s.outbox
    freeCtr := s.freeCtr }
  if straps.testEn then t else t.bootRom

/-- The registers that a warm reset keeps: the Referee's, the backup node's, and the rails' (R645). -/
def keptWarm (moving : Bool) (off : Nat) : Bool :=
  keptCold off || off / 0x100000 == 0xE || off == MC_RAIL_STAT || (moving && off == MC_WAKE_PEND)

/-- A warm reset (R645, R646, R676): the Referee runs on and forgets the square it copied; Bobbin contents stand. -/
def State.warmStart (s : State) : State :=
  let t : State := { State.reset with
    regs := s.regs.filter fun p => keptWarm (s.is MC_PWR_STAT_MOVING) p.1
    hg := { bkSec := s.hg.bkSec, bkSub := s.hg.bkSub, bkAcc := s.hg.bkAcc, run := s.hg.run }
    mem := { bob := s.mem.bob, poison := s.mem.poison, reel := s.mem.reel }
    ref := { s.ref with launch := none, abort := none, relaunch := none, noRelaunch := false, hbAt := 0 }
    boot := { s.boot with lock := false, stage := 0, recovery := false, retried := 0 }
    pwr := { perst := s.pwr.perst, wakeN := s.pwr.wakeN, resumed := s.pwr.resumed }
    outbox := s.outbox
    freeCtr := s.freeCtr }
  t.bootRom

/-- A warm reset that Initiator ID 9 writes, or a pin or the watchdog raises. -/
def State.warmAsk (s : State) : Option Iid → State
  | none => s.warmStart
  | some i => s.writeWith i MC_RST_CTL fun s => if i = 9 then s.warmStart else s

/-- PERST_N of port p falls: its link and functions are reset (R645); a link that was up is lost (R548). -/
def State.portReset (s : State) (p : Nat) : State :=
  let s1 := s.setPwr fun w => { w with perst := setBits w.perst p 1 1, resumed := setBits w.resumed p 1 0 }
  if (s1.reg HI_STATUS).getLsbD (8 * p) then s1.linkLost p
  else (List.range 4).foldl (fun s i => s.fnReset (4 * p + i)) s1

/-! ### Rails (R642, R644) -/

/-- A power-good input rises: at start-up the next rail is enabled. -/
def State.goodRise (s : State) (r : Nat) : State :=
  if !(s.get MC_RAIL_STAT_EN).testBit r then s
  else
    let s1 := s.put MC_RAIL_STAT_PG (setBits (s.get MC_RAIL_STAT_PG) r 1 1)
    if s1.boot.stage ≠ 1 then s1
    else if s1.get MC_RAIL_STAT_PG = 15 then s1.setBoot fun b => { b with stage := 2 }
    else if r = 3 then s1
    else s1.put MC_RAIL_STAT_EN (setBits (s1.get MC_RAIL_STAT_EN) (r + 1) 1 1)

/-- What is lost with a rail. -/
def State.railLose (s : State) (r : Nat) : State :=
  if r = 3 then s.loseCore
  else if r = 2 then ((s.linkLost 0).linkLost 1).loseLinks
  else if r = 1 then s.putB MEM_STATUS_REEL_READY false
  else s.loseStore

/-- RAIL_FAULT: it ends an entry or exit in progress (R676). -/
def State.railFault (s : State) (r : Nat) : State :=
  if !(s.get MC_RAIL_STAT_EN).testBit r then s
  else
    let was := (s.get MC_RAIL_STAT_PG).testBit r
    let s1 := (s.report 0xC007 mcIid).put MC_RAIL_STAT_PG (setBits (s.get MC_RAIL_STAT_PG) r 1 0)
    let s2 := (s1.setPwr fun w => { w with entering := none, leaving := none }).putB MC_PWR_STAT_MOVING false
    if was then s2.railLose r else s2

/-! ### Training (R651, R652) -/

/-- Training has succeeded: Paeno reads the ruleset slots, where the Referee is still in reset. -/
def State.trained (s : State) : State :=
  if s.ref.running then s.setBoot fun b => { b with stage := 4 }
  else
    let none_ := !s.boot.flash.rulesetA && !s.boot.flash.rulesetB
    ((s.reportIf none_ 0xC001 mcIid).reportIf none_ 0xC001 mcIid).setBoot fun b => { b with stage := 3 }

/-- BOBBIN_TRAINING_DONE: a stack that fails is trained once more, and then reported. -/
def State.trainDone (s : State) (ok : Nat) : State :=
  if 3 ≤ s.boot.stage || s.boot.recovery then s
  else
    let s1 := s.put MEM_STATUS_TRAINED ok
    let bad := (List.range 4).filter fun k => !ok.testBit k
    let twice := bad.filter fun k => s.boot.retried.testBit k
    if bad.isEmpty then s1.trained
    else if twice.isEmpty then s1.setBoot fun b => { b with retried := bad.foldl (fun v k => setBits v k 1 1) b.retried }
    else (twice.foldl (fun s _ => s.report 0xC003 mcIid) s1).enterRecovery

/-- The Referee's reset has been released (R617, R651). -/
def State.refOut (s : State) : State :=
  if s.boot.stage = 3 then s.refRelease.setBoot fun b => { b with stage := 4 } else s.refRelease

/-! ### The lock, rollback and recovery (R647, R650, R653) -/

/-- A write to MC_LOCK: only Initiator ID 9 sets it. -/
def State.lockWrite (s : State) (iid : Nat) (v : Word) : State :=
  if iid = 9 ∧ v.getLsbD 0 = true then s.setBoot fun b => { b with lock := true, stage := 5 } else s

/-- A write to MC_BOOT_CTL: RB_COMMIT by the power owner raises FUSE_RB, which never decreases. -/
def State.rollbackWrite (s : State) (iid : Nat) (v : Word) : State :=
  if s.is MC_PWR_OWNER_VALID = true ∧ s.get MC_PWR_OWNER_TENANT = iid ∧ v.getLsbD 0 = true then
    s.setBoot fun b => { b with fuse := max b.fuse b.rollback }
  else s

/-- A write to MC_RECOV_GO in recovery: `ok` says that the image passes; its ROLLBACK is at least FUSE_RB. -/
def State.recoverWrite (s : State) (v : Word) (ok : Bool) (version : Word) : State :=
  if !s.boot.recovery || s.boot.lock || !v.getLsbD 0 then s
  else if !ok then s.report 0xC00A mcIid
  else
    (s.took.setBoot fun b => { b with
      stage := if s.get MC_RAIL_STAT_PG = 15 then 2 else 1, recovery := false, version := version, retried := 0,
      rollback := max b.fuse (s.free % 64) }).paenoRuns

/-- VDD_REF falls (R714): the pins of the Referee are not driven, and it stops. -/
def State.refRailFall (s : State) : State :=
  { s with ref := { s.ref with on := false, running := false, halted := true } }

/-! ### The commands -/

/-- COLD_RESET (R645). -/
def execColdReset (straps : Straps) (flash : BootFlash) (s : State) : Ans := s.booted (s.coldStart straps flash)

/-- WARM_RESET (R646). -/
def execWarmReset (iid : Option Iid) (s : State) : Ans := s.booted (s.warmAsk iid)

/-- PORT_RESET (R645). -/
def execPortReset (port : Fin 2) (s : State) : Ans := s.done (s.portReset port)

/-- POWER_GOOD_RISE (R642). -/
def execPowerGoodRise (rail : Fin 4) (s : State) : Ans := s.booted (s.goodRise rail)

/-- RAIL_FAULT (R644). -/
def execRailFault (rail : Fin 4) (s : State) : Ans := s.done (s.railFault rail)

/-- BOBBIN_TRAINING_DONE (R652). -/
def execBobbinTrainingDone (ok : BitVec 4) (s : State) : Ans := s.booted (s.trainDone ok.toNat)

/-- REEL_INIT (R652). -/
def execReelInit (s : State) : Ans := s.done (s.reportIf (!s.is MEM_STATUS_REEL_READY) 0xC004 mcIid)

/-- REEL_READY (R652). -/
def execReelReady (s : State) : Ans := s.done (s.putB MEM_STATUS_REEL_READY true)

/-- REFEREE_RESET_RELEASE (R617). -/
def execRefereeResetRelease (s : State) : Ans := s.booted s.refOut

/-- CONFIG_LOCK (R647). -/
def execConfigLock (iid : Iid) (v : Word) (s : State) : Ans :=
  s.booted (s.writeWith iid MC_LOCK fun s => s.lockWrite iid.toNat v)

/-- RECOVERY_LOAD (R653). -/
def execRecoveryLoad (iid : Iid) (v : Word) (ok : Bool) (version : Word) (s : State) : Ans :=
  s.booted (s.writeWith iid MC_RECOV_GO fun s => s.recoverWrite v ok version)

/-- ROLLBACK_COMMIT (R650). -/
def execRollbackCommit (iid : Iid) (v : Word) (s : State) : Ans :=
  s.booted (s.writeWith iid MC_BOOT_CTL fun s => s.rollbackWrite iid.toNat v)

/-- VDD_REF_FALL (R714). -/
def execVddRefFall (s : State) : Ans := s.done s.refRailFall

end Sys2Proof.Machine
end

