-- ==== Sys2Proof/Machine/Events.lean ====
section
/-! DEFINITION. The events that more than one unit sees: the reference, samples, captures, packets, datagrams, IMU samples and CAN
frames (R21, R58, R71, R84, R90, R108, R120, R126, R129, R193, R351, R609, R662, R663). -/

namespace Sys2Proof.Machine

open Reg

/-- REF_LOSS (R58): the Referee logs what it sees, and each entry into holdover with 0xB010 (R609, R620). -/
def State.refLost (s : State) (pin : Bool) : State :=
  let s1 := (s.hgRefLoss pin).refSees 0x1001 0
  if s.is HG_STATUS_HOLDOVER then s1 else s1.safety 0xB010

/-- The next sample of domain d is a step (R71). -/
def State.willStep (s : State) (d : Nat) : Bool :=
  match (s.dom d).samples with
  | [] => false
  | theta :: _ => decide ((s.reg HG_STEP_THR).toNat * 1000 < theta.natAbs) && s.stepFits d theta

/-- SAMPLE_APPLY (R71): a step is logged with its domain (R609). -/
def State.applySample (s : State) (d : Nat) : State :=
  if s.willStep d then (s.hgApply d).refSees 0x1007 d else s.hgApply d

/-- CAPTURE_EDGE (R84): an accepted edge on an enabled input is a wake reason (R662). -/
def State.capture (s : State) (n : Nat) (rising : Bool) (pulse : Nat) : State :=
  let sel := s.get (HG_CAP_CFG_EDGE n)
  let s1 := s.hgCapture n rising pulse
  if s.is (HG_CAP_CFG_EN n) && decide (s.get (HG_CAP_CFG_FILT n) ≤ pulse) && (sel == 2 || (sel == 0) == rising) then s1.recordWake 5
  else s1

/-- BACKUP_POWER_ON (R90, R619): the backup node resets. -/
def State.backupOn (s : State) : State := s.hgBkPowerOn.setReg RF_SAFE_CAUSE (regReset RF_SAFE_CAUSE)

/-- What has landed goes on to the Lace Hoops and the Board. -/
def State.landedOn (s : State) (e : MemErr) : Option Landed → State
  | none => s
  | some x => (s.laceFeed x.stream x.cds).weftLand x.stream x.row x.bytes x.cds e

/-- LONG_PACKET (R108). -/
def State.packetIn (s : State) (p vc dt : Nat) (payload : List Byte) (crcOk : Bool) (ecc : Ecc) (e : MemErr) : State :=
  let (s1, x) := s.spLongPacket p vc dt payload crcOk ecc e.fs
  s1.landedOn e x

/-- ETH_FRAME_RECEIVE (R120). -/
def State.frameIn (s : State) (f : List Byte) (fcsOk : Bool) : State :=
  let (s1, x) := s.ethReceive f fcsOk
  s1.landedOn {} x

/-- IMU_READ_COMPLETE (R126): the sample goes on to the ME (R193). -/
def State.imuIn (s : State) (i : Nat) (data : List Byte) : State :=
  match s.imuLand i data with
  | (s1, some (t, bs)) => s1.meInput { imu := true, stamp := t, unit := i, data := bs }
  | (s1, none) => s1

/-- A frame that a controller receives while the fabric does not run is held, 16 at most (R663). -/
def State.canHold (s : State) (c : Nat) (f : CanFrame) : State :=
  let full := decide (16 ≤ (s.pwr.held.filter fun x => x.1 == c).length)
  let s1 := if full then s.bump (SP_CAN_STAT_RX_DISCARD c) else s.setPwr fun w => { w with held := w.held ++ [(c, f)] }
  s1.recordWake 4

/-- CAN_FRAME_RECEIVE (R129, R193): in NAP and DOZE a frame that a mailbox accepts is a wake reason (R662). A controller has no
power in HIBERNATE (R654). -/
def State.canIn (s0 : State) (c : Nat) (f : CanFrame) : State :=
  let s := s0.fabricPoll
  if s.get MC_PWR_STAT_STATE = 4 ∧ s.fabricOff = true then s
  else match s.canReceive c f with
    | (s1, some m) =>
      if s.fabricOff then s.canHold c f
      else (s1.recordWake 4).meInput { imu := false, stamp := f.sof, unit := c, box := m, data := f.data }
    | (s1, none) => s1

/-- REF_LOSS (R58). -/
def execRefLoss (refLost : Bool) (s : State) : Ans := s.done (s.refLost refLost)

/-- SAMPLE_APPLY (R71). -/
def execSampleApply (d : Fin 2) (s : State) : Ans := s.done (s.applySample d)

/-- CAPTURE_EDGE (R84). -/
def execCaptureEdge (n : Fin 8) (rising : Bool) (pulse : Nat) (s : State) : Ans := s.done (s.capture n rising pulse)

/-- BACKUP_POWER_ON (R90). -/
def execBackupPowerOn (s : State) : Ans := s.done s.backupOn

/-- LONG_PACKET (R108). -/
def execLongPacket (p : Fin 8) (vc : Fin 16) (dt : BitVec 6) (payload : List Byte) (crcOk : Bool) (ecc : Ecc) (e : MemErr)
    (s : State) : Ans := s.done (s.packetIn p vc dt.toNat payload crcOk ecc e)

/-- ETH_FRAME_RECEIVE (R120). -/
def execEthFrameReceive (frame : List Byte) (fcsOk : Bool) (s : State) : Ans := s.done (s.frameIn frame fcsOk)

/-- IMU_READ_COMPLETE (R126). -/
def execImuReadComplete (i : Fin 4) (data : List Byte) (s : State) : Ans := s.done (s.imuIn i data)

/-- CAN_FRAME_RECEIVE (R129). -/
def execCanFrameReceive (c : Fin 2) (f : CanFrame) (s : State) : Ans := s.done (s.canIn c f)

end Sys2Proof.Machine
end

