-- ==== Sys2Proof/Machine/Bus.lean ====
section
/-! DEFINITION. The register bus: a write or read of any register of the control window, taken to its unit (R33-R40, R52, R105, R239,
R263, R457, R530, R543-R545, R554, R569, R680-R687, R730, R731), and what goes on while no command waits. -/

namespace Sys2Proof.Machine

open Reg

/-! ### Writes of one register, by block -/

/-- GLB_FAULT_CLEAR (R52). -/
def State.faultClear (s : State) (v : Word) : State := if v.getLsbD 0 then s.setReg GLB_FAULT_FIRST 0 else s

/-- A write by the domain registers' offset (R70). -/
def State.domWrite (s : State) (iid : Iid) (off : Nat) (v : Word) : State :=
  let d := (off - 0x100100) / 0x80
  s.ownerOnly iid fun s =>
    if off = HG_DOM_CFG d then s.hgDomCfg d v
    else if off = HG_DOM_ADJ d then s.hgAdj d v
    else s.plainWrite iid.toNat off v

/-- The Hourglass (R67, R70, R91, R575). -/
def State.hgWrite (s : State) (iid : Iid) (off : Nat) (v : Word) : State :=
  let i := iid.toNat
  if off = HG_TURN_CTL then s.turnCtl i (v.getLsbD 0)
  else if off = HG_ACTIVE then s.ownerOnly iid fun s => s.hgActive i (v.toNat % 2)
  else if off = HG_SLEW_LIM then s.ownerOnly iid fun s => s.hgSlewLimW i v
  else if off = HG_STEP_THR ∨ off = HG_PTP_LAT then s.ownerOnly iid fun s => s.plainWrite i off v
  else if 0x100100 ≤ off ∧ off < 0x100200 then s.domWrite iid off v
  else if off = HG_BK_CTL then s.backupOnly iid fun s => if v.getLsbD 0 then s.hgBkLoad else s
  else if off = HG_BK_SET_SEC ∨ off = HG_BK_STAT then s.backupOnly iid fun s => s.plainWrite i off v
  else if 0x100400 ≤ off ∧ off < 0x100600 ∧ off % 0x20 = 0 then s.trigCfg ((off - 0x100400) / 0x20) v
  else if off = HG_TRIG_OE then s.oeWrite v
  else s.plainWrite i off v

/-- One CAN controller (R130, R131, R133). -/
def State.canWrite (s : State) (i off : Nat) (v : Word) : State :=
  let c := (off - 0x204000) / 0x1000
  let o := off % 0x1000
  if o = 0 then s.canCtl c v
  else if 0x100 ≤ o ∧ o < 0x500 ∧ o % 0x10 = 0 then s.canRxf i c ((o - 0x100) / 0x10) v
  else if 0x100 ≤ o ∧ o < 0x500 ∧ o % 0x10 = 8 then s.canRxc i c ((o - 0x100) / 0x10) v
  else if 0x800 ≤ o ∧ o < 0xD00 ∧ (o - 0x800) % 0x50 = 4 then s.canTxc i c ((o - 0x800) / 0x50) v
  else s.plainWrite i off v

/-- The Spindle (R105, R125, R135). -/
def State.spWrite (s : State) (i off : Nat) (v : Word) : State :=
  if 0x201000 ≤ off ∧ off < 0x202000 then
    let n := (off - 0x201000) / 0x40
    if off % 0x40 = 0 then s.strSrcWrite i n v
    else if off % 0x40 < 0x10 then s.strCfgWrite i n off v
    else s.plainWrite i off v
  else if 0x203000 ≤ off ∧ off < 0x203100 ∧ off % 0x40 = 0 then s.imuCfg i ((off - 0x203000) / 0x40) v
  else if 0x204000 ≤ off ∧ off < 0x206000 then s.canWrite i off v
  else if 0x206000 ≤ off ∧ off < 0x206400 ∧ off % 0x100 = 8 then s.i2cPush ((off - 0x206000) / 0x100) v
  else s.plainWrite i off v

/-- The Loom (R211, R226, R440). -/
def State.lmWrite (s : State) (i off : Nat) (v : Word) : State :=
  if off = LM_CTL then s.loomCtl v
  else if off = LM_PORT_CFG 0 ∨ off = LM_PORT_CFG 1 then s.lmPortCfg i ((off - 0x500100) / 0x40) v
  else if 0x500200 ≤ off ∧ off < 0x500240 ∧ off % 0x10 = 0 then s.lmViewCfg i ((off - 0x500200) / 0x10) v
  else s.plainWrite i off v

/-- The Engine (R239, R250, R263, R375). -/
def State.teWrite (s : State) (i off : Nat) (v : Word) : State :=
  if off = TE_CTL then s.teCtl i v
  else if off = TE_RETIRE then s.refereeOnly i fun s => s.retire (v.toNat % 64)
  else if off = TE_WIT_LIM then s.refereeOnly i fun s => s.plainWrite i off v
  else if off = TE_GOV_VFLOOR then s.teVfloor i v
  else if off = TE_GOV_VLIM then s.teVlim i v
  else if 0x600400 ≤ off ∧ off < 0x600500 then
    let l := (off - 0x600400) / 0x40
    let o := off % 0x40
    if o = 0 then s.laceCtl i l v
    else if o = 0xC ∨ o = 0x10 ∨ o = 0x30 ∨ o = 0x38 then s.laceWrite i l off v
    else s.plainWrite i off v
  else s.plainWrite i off v

/-- The ATU and the memory (R431, R443, R446). -/
def State.mmWrite (s : State) (i off : Nat) (v : Word) : State :=
  if 0x801000 ≤ off ∧ off < 0x801800 ∧ off % 0x100 = 0x18 then s.atInvCtl ((off - 0x801000) / 0x100) v
  else if off = MEM_RC_CTL then (if v.getLsbD 0 then s.reelFlush else s)
  else if off = MEM_SCRUB_CFG then
    (s.plainWrite i off v).setPwr fun w => { w with scrubFrom := none, scrubForced := false }
  else s.plainWrite i off v

/-- The Selvedge unit (R561, R569, R574, R577). -/
def State.svWrite (s : State) (i off : Nat) (v : Word) : State :=
  if off = SV_CTL then s.svCtlWrite i v
  else if off = SV_HANDOVER then s.handoverWrite i v.toNat
  else if off = SV_PORT_CTL 0 ∨ off = SV_PORT_CTL 1 then s.svPortWrite ((off - 0xD00100) / 0x40) v
  else if off = SV_CFG ∧ v.getLsbD 8 = true ∧ bitsOf v.toNat 4 4 ≠ 2 then s
  else s.plainWrite i off v

/-- The MC but for start-up (R659, R665, R673). -/
def State.mcWrite (s : State) (i off : Nat) (v : Word) : State :=
  if off = MC_THERM_CFG then s.thermCfg i v
  else if off = MC_CAL_CFG then s.calCfg i v
  else if off = MC_PWR_REQ then s.pwrReq i v
  else if off = MC_WAKE_RPT then s.rptWrite v
  else if off = MC_LOCK ∨ off = MC_RST_CTL ∨ off = MC_BOOT_CTL ∨ off = MC_RECOV_GO then s
  else s.plainWrite i off v

/-- A write of a register that is not half of a pair. -/
def State.writeReg (s : State) (iid : Iid) (off : Nat) (v : Word) : State :=
  let i := iid.toNat
  match off / 0x100000 with
  | 0x0 => if off = GLB_FAULT_CLEAR then s.faultClear v else s.plainWrite i off v
  | 0x1 => s.hgWrite iid off v
  | 0x2 => s.spWrite i off v
  | 0x4 => if off = ME_CTL then s.meCtl i v else s.plainWrite i off v
  | 0x5 => s.lmWrite i off v
  | 0x6 => s.teWrite i off v
  | 0x8 => s.mmWrite i off v
  | 0x9 => s.mmWrite i off v
  | 0xA => if 0xA01000 ≤ off ∧ off < 0xA01200 then s.rgnWrite i off v else s.plainWrite i off v
  | 0xB => if off = TK_PUBLISH then s.tkPublish i (v.toNat % 4096) else s.plainWrite i off v
  | 0xD => s.svWrite i off v
  | 0xF => s.mcWrite i off v
  | _ => s.plainWrite i off v

/-! ### Pairs (R730) -/

/-- Both halves take their bits. -/
def State.plainPair (s : State) (i lo v : Nat) : State :=
  (s.plainWrite i lo (BitVec.ofNat 32 v)).plainWrite i (lo + 4) (BitVec.ofNat 32 (v / 2 ^ 32))

/-- A pair takes a 64-bit value in one instant. -/
def State.placePair (s : State) (iid : Iid) (lo v : Nat) : State :=
  let i := iid.toNat
  if lo = HG_TURN_EPOCH_LO ∨ lo = HG_TURN_PER_LO then s.hgTurnPair i lo v
  else if lo = HG_DOM_MEAS_LO 0 ∨ lo = HG_DOM_MEAS_LO 1 then
    s.ownerOnly iid fun s => (s.setPair lo v).hgSubmit ((lo - 0x100118) / 0x80) (signed 64 v)
  else if 0x100400 ≤ lo ∧ lo < 0x100600 ∧ lo % 0x20 = 8 then s.trigCmpPlace ((lo - 0x100400) / 0x20) v
  else if 0x100400 ≤ lo ∧ lo < 0x100600 ∧ lo % 0x20 = 0x10 then s.trigPerPlace i ((lo - 0x100400) / 0x20) v
  else if 0x801000 ≤ lo ∧ lo < 0x801800 ∧ lo % 0x100 = 4 ∧ s.is (AT_TEN_CTL_EN ((lo - 0x801000) / 0x100)) = true then s
  else if lo = MC_WAKE_AT_LO then (s.plainPair i lo v).setPwr fun w => { w with wakeMet := none }
  else s.plainPair i lo v

/-- A write to half of a pair: _LO is held, _HI places both (R730). -/
def State.halfWrite (s : State) (iid : Iid) (off : Nat) (hi : Bool) (v : Word) : State :=
  let i := iid.toNat
  if hi then (s.dropLo i (off - 4)).placePair iid (off - 4) (s.pairValue i (off - 4) v)
  else if 0x100100 ≤ off ∧ off < 0x100200 then s.ownerOnly iid fun s => s.holdLo i off v
  else s.holdLo i off v

/-- An admitted write of 4 bytes. -/
def State.write4 (s : State) (iid : Iid) (off : Nat) (v : Word) : State :=
  match (regRow off).bind (·.half) with
  | some h => s.halfWrite iid off h v
  | none => s.writeReg iid off v

/-! ### Writes of the whole window -/

/-- A write to the function's MSI-X table; the pending bits are read only (R530, R531). -/
def State.msixWrite (s : State) (iid off : Nat) (v : Word) : State :=
  if off < 0x1000200 then
    { s with msixTab := spPut msixUnset s.msixTab (128 * iid + (off - 0x1000000) / 4) v }
  else s

/-- An admitted write. -/
def State.busPlace (s : State) (iid : Iid) (off size : Nat) (v : BitVec 64) : State :=
  let w : Word := v.setWidth 32
  if 0x1000000 ≤ off then s.msixWrite iid.toNat off w
  else if isSquare off then s.squareWrite iid.toNat ((off - 0xB80000) / 0x80) (off % 0x80 / 4) w
  else if size = 8 then (s.dropLo iid.toNat off).placePair iid off v.toNat
  else s.write4 iid off w

/-- A register write: the checks of R554, the lock (R37), and its effect. -/
def State.busWrite (s : State) (iid : Iid) (off size : Nat) (v : BitVec 64) : State :=
  match s.regCheck iid.toNat off size true with
  | some c => s.refuse c iid.toNat
  | none => match regRow off with
    | some r => if s.locked && r.lk != 0 then s.refuse 0x9002 iid.toNat else s.busPlace iid off size v
    | none => s.busPlace iid off size v

/-- The start-up registers, but for the recovery load, whose outcome RECOVERY_LOAD brings. -/
def isStart (off : Nat) : Bool := off == MC_LOCK || off == MC_RST_CTL || off == MC_BOOT_CTL

/-- A write to one of them (R645, R647, R650). -/
def State.startWrite (s : State) (iid : Iid) (off : Nat) (v : Word) : State :=
  s.writeWith iid off fun s =>
    if off = MC_LOCK then s.lockWrite iid.toNat v
    else if off = MC_BOOT_CTL then s.rollbackWrite iid.toNat v
    else if iid = 9 ∧ v.getLsbD 0 = true then s.warmStart
    else s

/-! ### Reads -/

/-- What a read returns from the MSI-X structures or a square. -/
def State.windowVal (s : State) (iid off : Nat) : Word :=
  if off = 0x1001000 then (s.hostFn iid).pend
  else if 0x1000000 ≤ off then spGet msixUnset s.msixTab (128 * iid + (off - 0x1000000) / 4)
  else s.squareRead iid ((off - 0xB80000) / 0x80) (off % 0x80 / 4)

/-- What a read takes away beyond RC fields (R686). -/
def State.readPop (s : State) (iid off : Nat) : State :=
  if 0x100700 ≤ off ∧ off < 0x100800 ∧ off % 0x20 = 8 then s.hgCapPop ((off - 0x100700) / 0x20)
  else if off = HG_TSTX_META then (if iid = s.get HG_OWNER_IID then s.hgTsPop false else s)
  else if off = HG_TSRX_META then (if iid = s.get HG_OWNER_IID then s.hgTsPop true else s)
  else if 0x206000 ≤ off ∧ off < 0x206400 ∧ off = SP_I2C_RXD ((off - 0x206000) / 0x100) then s.i2cPop ((off - 0x206000) / 0x100)
  else if 0x801000 ≤ off ∧ off < 0x801800 ∧ off % 0x100 = 0x20 then s.atFaultPop ((off - 0x801000) / 0x100)
  else s

/-- An admitted read. Only the time owner meets the timestamp FIFOs (R70); TK_CLAIM claims a square (R486). -/
def State.readPlace (s : State) (iid : Iid) (off size : Nat) : State :=
  let i := iid.toNat
  if 0x1000000 ≤ off ∨ isSquare off = true then s.emit (.readData iid off ((s.windowVal i off).zeroExtend 64))
  else if (off = HG_TSTX_META ∨ off = HG_TSRX_META) ∧ i ≠ s.get HG_OWNER_IID then s.emit (.readData iid off 0)
  else if off = TK_CLAIM then
    let (s1, v) := s.tkClaim i
    s1.emit (.readData iid off (BitVec.ofNat 64 v))
  else if size = 8 then (s.readReg8 i off).readPop i off
  else (s.readReg i off).readPop i off

/-- A register read: the checks of R554, and its effect. -/
def State.busRead (s : State) (iid : Iid) (off size : Nat) : State :=
  match s.regCheck iid.toNat off size false with
  | some c => s.refuseRead c iid.toNat off
  | none => s.readPlace iid off size

/-! ### While no command waits -/

/-- One Hourglass cycle passes; what waits for another unit goes on where it can (R409, R505, R663; log entry 6). -/
def State.idle (s : State) : State := s.tick.fabricPoll.commitPoll.ringRetry.rotateAll

/-! ### The commands -/

/-- REGISTER_WRITE (R36). -/
def execRegisterWrite (iid : Iid) (off size : Nat) (value : BitVec 64) (s : State) : Ans :=
  if isStart off && size == 4 then s.booted (s.startWrite iid off (value.setWidth 32)) else s.done (s.busWrite iid off size value)

/-- GLB_FAULT_CLEAR (R52). -/
def execGlbFaultClear (iid : Iid) (value : Word) (s : State) : Ans :=
  s.done (s.writeWith iid GLB_FAULT_CLEAR fun s => s.faultClear value)

/-- LO_READ_LATCH (R33). -/
def execLoReadLatch (iid : Iid) (off size : Nat) (s : State) : Ans := s.done (s.busRead iid off size)

/-- RC_READ (R39). -/
def execRcRead (iid : Iid) (off : Nat) (s : State) : Ans := s.done (s.busRead iid off 4)

end Sys2Proof.Machine
end

