-- ==== Sys2Proof/Machine/Dispatch.lean ====
section
/-! DEFINITION. The meaning of every command: one call for each row of the command table. -/

namespace Sys2Proof.Machine

/-- The effect of a command on everything but the queue of waiting commands. -/
def exec (i : Instr) (s : State) : Host.Outcome State Fault Refusal :=
  match i with
  | .registerWrite iid off size value => Sys2Proof.Machine.execRegisterWrite iid off size value s
  | .glbFaultClear iid value => Sys2Proof.Machine.execGlbFaultClear iid value s
  | .loReadLatch iid off size => Sys2Proof.Machine.execLoReadLatch iid off size s
  | .rcRead iid off => Sys2Proof.Machine.execRcRead iid off s
  | .deviceTimeRead iid => Sys2Proof.Machine.execDeviceTimeRead iid s
  | .epochRead iid => Sys2Proof.Machine.execEpochRead iid s
  | .networkTimeRead iid d => Sys2Proof.Machine.execNetworkTimeRead iid d s
  | .deviceTimeStart => Sys2Proof.Machine.execDeviceTimeStart s
  | .refLoss refLost => Sys2Proof.Machine.execRefLoss refLost s
  | .refLockReturn => Sys2Proof.Machine.execRefLockReturn s
  | .turnRun iid => Sys2Proof.Machine.execTurnRun iid s
  | .turnStop iid => Sys2Proof.Machine.execTurnStop iid s
  | .turnEndStop => Sys2Proof.Machine.execTurnEndStop s
  | .turnStart => Sys2Proof.Machine.execTurnStart s
  | .hgActiveWrite iid value => Sys2Proof.Machine.execHgActiveWrite iid value s
  | .domainEnable iid d value => Sys2Proof.Machine.execDomainEnable iid d value s
  | .domainDisable iid d value => Sys2Proof.Machine.execDomainDisable iid d value s
  | .servoModeEnter iid d value => Sys2Proof.Machine.execServoModeEnter iid d value s
  | .incModeEnter iid d value => Sys2Proof.Machine.execIncModeEnter iid d value s
  | .sampleSubmit iid d hi => Sys2Proof.Machine.execSampleSubmit iid d hi s
  | .sampleApply d => Sys2Proof.Machine.execSampleApply d s
  | .slewComplete d => Sys2Proof.Machine.execSlewComplete d s
  | .hgDomAdjWrite iid d value => Sys2Proof.Machine.execHgDomAdjWrite iid d value s
  | .hgSlewLimWrite iid value => Sys2Proof.Machine.execHgSlewLimWrite iid value s
  | .triggerArm iid n value => Sys2Proof.Machine.execTriggerArm iid n value s
  | .triggerCmpWrite iid n hi => Sys2Proof.Machine.execTriggerCmpWrite iid n hi s
  | .triggerPeriodWrite iid n hi => Sys2Proof.Machine.execTriggerPeriodWrite iid n hi s
  | .triggerEdge n => Sys2Proof.Machine.execTriggerEdge n s
  | .triggerPulseEnd n => Sys2Proof.Machine.execTriggerPulseEnd n s
  | .captureEdge n rising pulse => Sys2Proof.Machine.execCaptureEdge n rising pulse s
  | .capturePop iid n => Sys2Proof.Machine.execCapturePop iid n s
  | .tsFifoPop iid rx => Sys2Proof.Machine.execTsFifoPop iid rx s
  | .ethFrameReceive frame fcsOk => Sys2Proof.Machine.execEthFrameReceive frame fcsOk s
  | .ethFrameTransmit frame oneStep => Sys2Proof.Machine.execEthFrameTransmit frame oneStep s
  | .ptpTxDrop => Sys2Proof.Machine.execPtpTxDrop s
  | .backupLoad iid => Sys2Proof.Machine.execBackupLoad iid s
  | .backupSecRead iid => Sys2Proof.Machine.execBackupSecRead iid s
  | .backupPowerOn => Sys2Proof.Machine.execBackupPowerOn s
  | .streamEnable iid s1 value => Sys2Proof.Machine.execStreamEnable iid s1 value s
  | .streamDisable iid s1 value => Sys2Proof.Machine.execStreamDisable iid s1 value s
  | .frameStart p vc num ecc => Sys2Proof.Machine.execFrameStart p vc num ecc s
  | .frameEnd p vc num ecc => Sys2Proof.Machine.execFrameEnd p vc num ecc s
  | .longPacket p vc dt payload crcOk ecc e => Sys2Proof.Machine.execLongPacket p vc dt payload crcOk ecc e s
  | .phySync p skew => Sys2Proof.Machine.execPhySync p skew s
  | .frameJudge s1 slot => Sys2Proof.Machine.execFrameJudge s1 slot s
  | .imuEnable iid i1 value => Sys2Proof.Machine.execImuEnable iid i1 value s
  | .imuDrdyEdge i1 => Sys2Proof.Machine.execImuDrdyEdge i1 s
  | .imuPeriodTick i1 => Sys2Proof.Machine.execImuPeriodTick i1 s
  | .imuReadComplete i1 data => Sys2Proof.Machine.execImuReadComplete i1 data s
  | .imuTimeout i1 => Sys2Proof.Machine.execImuTimeout i1 s
  | .canFrameReceive c f => Sys2Proof.Machine.execCanFrameReceive c f s
  | .canRxTimeout c m => Sys2Proof.Machine.execCanRxTimeout c m s
  | .canTxRequest iid c k value => Sys2Proof.Machine.execCanTxRequest iid c k value s
  | .canTxAbort iid c k value => Sys2Proof.Machine.execCanTxAbort iid c k value s
  | .canTxDone c k => Sys2Proof.Machine.execCanTxDone c k s
  | .canBusError c kind transmitter severe => Sys2Proof.Machine.execCanBusError c kind transmitter severe s
  | .canRecover iid c value => Sys2Proof.Machine.execCanRecover iid c value s
  | .canRecoveryComplete c => Sys2Proof.Machine.execCanRecoveryComplete c s
  | .canDisable iid c value => Sys2Proof.Machine.execCanDisable iid c value s
  | .i2cCommandPush iid k value => Sys2Proof.Machine.execI2cCommandPush iid k value s
  | .i2cCommandExecute k rd => Sys2Proof.Machine.execI2cCommandExecute k rd s
  | .i2cAtFire k => Sys2Proof.Machine.execI2cAtFire k s
  | .i2cNack k => Sys2Proof.Machine.execI2cNack k s
  | .i2cTimeout k => Sys2Proof.Machine.execI2cTimeout k s
  | .i2cRxdPop iid k => Sys2Proof.Machine.execI2cRxdPop iid k s
  | .holdoverExpiry => Sys2Proof.Machine.execHoldoverExpiry s
  | .expansionStart => Sys2Proof.Machine.execExpansionStart s
  | .expansionComplete => Sys2Proof.Machine.execExpansionComplete s
  | .meInputProcess => Sys2Proof.Machine.execMeInputProcess s
  | .zeroVelocityUpdate => Sys2Proof.Machine.execZeroVelocityUpdate s
  | .meReset iid value => Sys2Proof.Machine.execMeReset iid value s
  | .meTurnUpdate => Sys2Proof.Machine.execMeTurnUpdate s
  | .viewWarp => Sys2Proof.Machine.execViewWarp s
  | .recordAssembly => Sys2Proof.Machine.execRecordAssembly s
  | .refereeVerdict => Sys2Proof.Machine.execRefereeVerdict s
  | .release => Sys2Proof.Machine.execRelease s
  | .viewFrameTransmit p => Sys2Proof.Machine.execViewFrameTransmit p s
  | .viewLockDrop p => Sys2Proof.Machine.execViewLockDrop p s
  | .stxLockLoss p => Sys2Proof.Machine.execStxLockLoss p s
  | .stxLockReturn p => Sys2Proof.Machine.execStxLockReturn p s
  | .loomEnable iid value => Sys2Proof.Machine.execLoomEnable iid value s
  | .loomDisable iid value => Sys2Proof.Machine.execLoomDisable iid value s
  | .hoopRetire iid value => Sys2Proof.Machine.execHoopRetire iid value s
  | .relocationApply => Sys2Proof.Machine.execRelocationApply s
  | .relocationComplete => Sys2Proof.Machine.execRelocationComplete s
  | .checkpoint k => Sys2Proof.Machine.execCheckpoint k s
  | .avsResponse err status => Sys2Proof.Machine.execAvsResponse err status s
  | .avsRampEnd => Sys2Proof.Machine.execAvsRampEnd s
  | .programEnd => Sys2Proof.Machine.execProgramEnd s
  | .govPreturnSet => Sys2Proof.Machine.execGovPreturnSet s
  | .firingPlace h => Sys2Proof.Machine.execFiringPlace h s
  | .parkedFiringResume h => Sys2Proof.Machine.execParkedFiringResume h s
  | .ctlAdd x d a b => Sys2Proof.Machine.execCtlAdd x d a b s
  | .ctlSub x d a b => Sys2Proof.Machine.execCtlSub x d a b s
  | .ctlMul x d a b => Sys2Proof.Machine.execCtlMul x d a b s
  | .ctlAnd x d a b => Sys2Proof.Machine.execCtlAnd x d a b s
  | .ctlOr x d a b => Sys2Proof.Machine.execCtlOr x d a b s
  | .ctlXor x d a b => Sys2Proof.Machine.execCtlXor x d a b s
  | .ctlShl x d a b => Sys2Proof.Machine.execCtlShl x d a b s
  | .ctlShr x d a b => Sys2Proof.Machine.execCtlShr x d a b s
  | .ctlSra x d a b => Sys2Proof.Machine.execCtlSra x d a b s
  | .ctlAddi x d imm => Sys2Proof.Machine.execCtlAddi x d imm s
  | .ctlMovi x d imm => Sys2Proof.Machine.execCtlMovi x d imm s
  | .ctlMovhi x d imm => Sys2Proof.Machine.execCtlMovhi x d imm s
  | .ctlCmpEq x pd a b => Sys2Proof.Machine.execCtlCmpEq x pd a b s
  | .ctlCmpLt x pd a b => Sys2Proof.Machine.execCtlCmpLt x pd a b s
  | .ctlCmpLtu x pd a b => Sys2Proof.Machine.execCtlCmpLtu x pd a b s
  | .ctlPlog x pd pa pb op => Sys2Proof.Machine.execCtlPlog x pd pa pb op s
  | .ctlBr x off => Sys2Proof.Machine.execCtlBr x off s
  | .ctlLoop x a off => Sys2Proof.Machine.execCtlLoop x a off s
  | .ctlEnd x => Sys2Proof.Machine.execCtlEnd x s
  | .ctlWaitturn x => Sys2Proof.Machine.execCtlWaitturn x s
  | .ctlCkpt x k => Sys2Proof.Machine.execCtlCkpt x k s
  | .ctlFence x => Sys2Proof.Machine.execCtlFence x s
  | .ctlTdld x td idx e => Sys2Proof.Machine.execCtlTdld x td idx e s
  | .ctlTdadd x td a => Sys2Proof.Machine.execCtlTdadd x td a s
  | .ctlFlags x d clr => Sys2Proof.Machine.execCtlFlags x d clr s
  | .ctlHclr x mask => Sys2Proof.Machine.execCtlHclr x mask s
  | .ctlSreg x d sel => Sys2Proof.Machine.execCtlSreg x d sel s
  | .ldT x tdd tds t h e => Sys2Proof.Machine.execLdT x tdd tds t h e s
  | .shfT x tdd tds h e => Sys2Proof.Machine.execShfT x tdd tds h e s
  | .ldV x r td c e => Sys2Proof.Machine.execLdV x r td c e s
  | .ldS x r td c e => Sys2Proof.Machine.execLdS x r td c e s
  | .kvGather x td q l p pl e => Sys2Proof.Machine.execKvGather x td q l p pl e s
  | .mma x n k tda tdb e => Sys2Proof.Machine.execMma x n k tda tdb e s
  | .mmaAtt x n k tdq tdk g e => Sys2Proof.Machine.execMmaAtt x n k tdq tdk g e s
  | .ndlClr x n mask => Sys2Proof.Machine.execNdlClr x n mask s
  | .prlAdd x d a b fmt => Sys2Proof.Machine.execPrlAdd x d a b fmt s
  | .prlSub x d a b fmt => Sys2Proof.Machine.execPrlSub x d a b fmt s
  | .prlMul x d a b fmt => Sys2Proof.Machine.execPrlMul x d a b fmt s
  | .prlFma x d a b c fmt => Sys2Proof.Machine.execPrlFma x d a b c fmt s
  | .prlDiv x d a b fmt => Sys2Proof.Machine.execPrlDiv x d a b fmt s
  | .prlSqrt x d a fmt => Sys2Proof.Machine.execPrlSqrt x d a fmt s
  | .prlMin x d a b fmt => Sys2Proof.Machine.execPrlMin x d a b fmt s
  | .prlMax x d a b fmt => Sys2Proof.Machine.execPrlMax x d a b fmt s
  | .prlAbs x d a fmt => Sys2Proof.Machine.execPrlAbs x d a fmt s
  | .prlNeg x d a fmt => Sys2Proof.Machine.execPrlNeg x d a fmt s
  | .prlMov x d a fmt => Sys2Proof.Machine.execPrlMov x d a fmt s
  | .prlCmpEq x d a b fmt => Sys2Proof.Machine.execPrlCmpEq x d a b fmt s
  | .prlCmpLt x d a b fmt => Sys2Proof.Machine.execPrlCmpLt x d a b fmt s
  | .prlCmpLe x d a b fmt => Sys2Proof.Machine.execPrlCmpLe x d a b fmt s
  | .prlSel x d a b c fmt => Sys2Proof.Machine.execPrlSel x d a b c fmt s
  | .prlExp2 x d a fmt => Sys2Proof.Machine.execPrlExp2 x d a fmt s
  | .prlRedSum x d a fmt => Sys2Proof.Machine.execPrlRedSum x d a fmt s
  | .prlRedMax x d a fmt => Sys2Proof.Machine.execPrlRedMax x d a fmt s
  | .prlCvt x d a h src fmt => Sys2Proof.Machine.execPrlCvt x d a h src fmt s
  | .prlBcast x d a fmt => Sys2Proof.Machine.execPrlBcast x d a fmt s
  | .prlRdacc x d n k q => Sys2Proof.Machine.execPrlRdacc x d n k q s
  | .prlLane x d a lane fmt => Sys2Proof.Machine.execPrlLane x d a lane fmt s
  | .stT x tdd n k h clr e => Sys2Proof.Machine.execStT x tdd n k h clr e s
  | .stTV x r td c h e => Sys2Proof.Machine.execStTV x r td c h e s
  | .stS x r td c e => Sys2Proof.Machine.execStS x r td c e s
  | .stHist x h td clr e => Sys2Proof.Machine.execStHist x h td clr e s
  | .kvAppend x td q l pl cm e => Sys2Proof.Machine.execKvAppend x td q l pl cm e s
  | .syncSig x lh c => Sys2Proof.Machine.execSyncSig x lh c s
  | .syncWait x c v => Sys2Proof.Machine.execSyncWait x c v s
  | .tokRecv x td ch idx e => Sys2Proof.Machine.execTokRecv x td ch idx e s
  | .tokSend x td ch idx pub e => Sys2Proof.Machine.execTokSend x td ch idx pub e s
  | .tokCredit x ch n => Sys2Proof.Machine.execTokCredit x ch n s
  | .laceStep x tdi tdo a e => Sys2Proof.Machine.execLaceStep x tdi tdo a e s
  | .laceLearn x rule a => Sys2Proof.Machine.execLaceLearn x rule a s
  | .laceCommitSyllable x => Sys2Proof.Machine.execLaceCommitSyllable x s
  | .laceCommitApply l => Sys2Proof.Machine.execLaceCommitApply l s
  | .laceLoad iid l value => Sys2Proof.Machine.execLaceLoad iid l value s
  | .laceLoadRun l => Sys2Proof.Machine.execLaceLoadRun l s
  | .laceSave iid l value => Sys2Proof.Machine.execLaceSave iid l value s
  | .laceSaveRun l => Sys2Proof.Machine.execLaceSaveRun l s
  | .thimbleFlush q => Sys2Proof.Machine.execThimbleFlush q s
  | .skeinSpill q => Sys2Proof.Machine.execSkeinSpill q s
  | .spillComplete k => Sys2Proof.Machine.execSpillComplete k s
  | .backgroundSpill => Sys2Proof.Machine.execBackgroundSpill s
  | .skeinReturn q k => Sys2Proof.Machine.execSkeinReturn q k s
  | .returnComplete k ok => Sys2Proof.Machine.execReturnComplete k ok s
  | .freeingComplete q => Sys2Proof.Machine.execFreeingComplete q s
  | .exhaustedRetry q => Sys2Proof.Machine.execExhaustedRetry q s
  | .atuInvalidate iid t value => Sys2Proof.Machine.execAtuInvalidate iid t value s
  | .atuInvalidateDone t => Sys2Proof.Machine.execAtuInvalidateDone t s
  | .atuFaultPop iid t => Sys2Proof.Machine.execAtuFaultPop iid t s
  | .reelFillComplete line ok => Sys2Proof.Machine.execReelFillComplete line ok s
  | .writebackDrain => Sys2Proof.Machine.execWritebackDrain s
  | .reelFlush iid => Sys2Proof.Machine.execReelFlush iid s
  | .reelFlushDone => Sys2Proof.Machine.execReelFlushDone s
  | .scrubLine line found => Sys2Proof.Machine.execScrubLine line found s
  | .regionStateWrite iid r value => Sys2Proof.Machine.execRegionStateWrite iid r value s
  | .regionDrainComplete r => Sys2Proof.Machine.execRegionDrainComplete r s
  | .poolWindowAccess t off write len data ep e => Sys2Proof.Machine.execPoolWindowAccess t off write len data ep e s
  | .recallGraceExpiry x => Sys2Proof.Machine.execRecallGraceExpiry x s
  | .revocationComplete x => Sys2Proof.Machine.execRevocationComplete x s
  | .trackClaim iid => Sys2Proof.Machine.execTrackClaim iid s
  | .squareWrite iid n w value => Sys2Proof.Machine.execSquareWrite iid n w value s
  | .trackPublish iid value => Sys2Proof.Machine.execTrackPublish iid value s
  | .leaseExpiry n => Sys2Proof.Machine.execLeaseExpiry n s
  | .commandAccept => Sys2Proof.Machine.execCommandAccept s
  | .completionRecordWrite req => Sys2Proof.Machine.execCompletionRecordWrite req s
  | .nop req csn => Sys2Proof.Machine.execNop req csn s
  | .launchTurn req csn => Sys2Proof.Machine.execLaunchTurn req csn s
  | .launchActors req csn => Sys2Proof.Machine.execLaunchActors req csn s
  | .copy req csn => Sys2Proof.Machine.execCopy req csn s
  | .copyGranule req csn host e => Sys2Proof.Machine.execCopyGranule req csn host e s
  | .fence req csn => Sys2Proof.Machine.execFence req csn s
  | .timeEvent req csn => Sys2Proof.Machine.execTimeEvent req csn s
  | .timeEventReached req csn => Sys2Proof.Machine.execTimeEventReached req csn s
  | .tableStage req csn => Sys2Proof.Machine.execTableStage req csn s
  | .tableCommit req csn => Sys2Proof.Machine.execTableCommit req csn s
  | .kvCreate req csn => Sys2Proof.Machine.execKvCreate req csn s
  | .kvFork req csn => Sys2Proof.Machine.execKvFork req csn s
  | .kvFree req csn => Sys2Proof.Machine.execKvFree req csn s
  | .kvPinPin req csn => Sys2Proof.Machine.execKvPinPin req csn s
  | .kvPinUnpin req csn => Sys2Proof.Machine.execKvPinUnpin req csn s
  | .kvPinPrefetch req csn => Sys2Proof.Machine.execKvPinPrefetch req csn s
  | .kvPinRotate req csn => Sys2Proof.Machine.execKvPinRotate req csn s
  | .kvPinRelease req csn => Sys2Proof.Machine.execKvPinRelease req csn s
  | .extentGrant req csn => Sys2Proof.Machine.execExtentGrant req csn s
  | .extentRecall req csn => Sys2Proof.Machine.execExtentRecall req csn s
  | .extentRelease req csn => Sys2Proof.Machine.execExtentRelease req csn s
  | .laceCommit req csn => Sys2Proof.Machine.execLaceCommit req csn s
  | .resumeCommand req csn => Sys2Proof.Machine.execResumeCommand req csn s
  | .resumeActor req csn => Sys2Proof.Machine.execResumeActor req csn s
  | .abortCommand req csn => Sys2Proof.Machine.execAbortCommand req csn s
  | .abortActor req csn => Sys2Proof.Machine.execAbortActor req csn s
  | .abortGraph req csn => Sys2Proof.Machine.execAbortGraph req csn s
  | .abortTurn req csn => Sys2Proof.Machine.execAbortTurn req csn s
  | .hangRelaunch => Sys2Proof.Machine.execHangRelaunch s
  | .functionDisable t mse bme vfe => Sys2Proof.Machine.execFunctionDisable t mse bme vfe s
  | .functionLevelReset t => Sys2Proof.Machine.execFunctionLevelReset t s
  | .linkDown port => Sys2Proof.Machine.execLinkDown port s
  | .msixPendingSend t v => Sys2Proof.Machine.execMsixPendingSend t v s
  | .svPortEnable iid p => Sys2Proof.Machine.execSvPortEnable iid p s
  | .svPortDisable iid p => Sys2Proof.Machine.execSvPortDisable iid p s
  | .laneBlockLock p l => Sys2Proof.Machine.execLaneBlockLock p l s
  | .laneBlockLockLoss p l => Sys2Proof.Machine.execLaneBlockLockLoss p l s
  | .laneMarkerLock p l deskewed => Sys2Proof.Machine.execLaneMarkerLock p l deskewed s
  | .laneMarkerLockLoss p l => Sys2Proof.Machine.execLaneMarkerLockLoss p l s
  | .linkTrainFail p => Sys2Proof.Machine.execLinkTrainFail p s
  | .svTrainRetry p => Sys2Proof.Machine.execSvTrainRetry p s
  | .svInitDone p => Sys2Proof.Machine.execSvInitDone p s
  | .selvedgeCal p => Sys2Proof.Machine.execSelvedgeCal p s
  | .calTimeout p => Sys2Proof.Machine.execCalTimeout p s
  | .calReceive p => Sys2Proof.Machine.execCalReceive p s
  | .creditBlock p ack cls units => Sys2Proof.Machine.execCreditBlock p ack cls units s
  | .badMsg m kind => Sys2Proof.Machine.execBadMsg m kind s
  | .hello m dev members twin role stepping => Sys2Proof.Machine.execHello m dev members twin role stepping s
  | .heartbeat m seq live owner epoch per turn run => Sys2Proof.Machine.execHeartbeat m seq live owner epoch per turn run s
  | .heartbeatSend => Sys2Proof.Machine.execHeartbeatSend s
  | .heartbeatLoss d => Sys2Proof.Machine.execHeartbeatLoss d s
  | .timeExchangeSend p => Sys2Proof.Machine.execTimeExchangeSend p s
  | .time m answer t1 t2 t3 => Sys2Proof.Machine.execTime m answer t1 t2 t3 s
  | .triggerHandover iid value => Sys2Proof.Machine.execTriggerHandover iid value s
  | .handover m turn mask => Sys2Proof.Machine.execHandover m turn mask s
  | .notice m x gen => Sys2Proof.Machine.execNotice m x gen s
  | .detach m => Sys2Proof.Machine.execDetach m s
  | .svDetach iid => Sys2Proof.Machine.execSvDetach iid s
  | .svEnable iid => Sys2Proof.Machine.execSvEnable iid s
  | .mirrorWr m dpa lines e => Sys2Proof.Machine.execMirrorWr m dpa lines e s
  | .mirrorAck m dpa status => Sys2Proof.Machine.execMirrorAck m dpa status s
  | .poolRd m dpa len tenant e => Sys2Proof.Machine.execPoolRd m dpa len tenant e s
  | .poolRdData m data poison status => Sys2Proof.Machine.execPoolRdData m data poison status s
  | .poolWr m dpa lines tenant e => Sys2Proof.Machine.execPoolWr m dpa lines tenant e s
  | .poolWrAck m status => Sys2Proof.Machine.execPoolWrAck m status s
  | .ringBlock m q block region entries last => Sys2Proof.Machine.execRingBlock m q block region entries last s
  | .blockFetch m q block => Sys2Proof.Machine.execBlockFetch m q block s
  | .resilverGranule => Sys2Proof.Machine.execResilverGranule s
  | .txStaleDrop p => Sys2Proof.Machine.execTxStaleDrop p s
  | .rulesetDoorbell image => Sys2Proof.Machine.execRulesetDoorbell image s
  | .rulesetCheckDone sigOk => Sys2Proof.Machine.execRulesetCheckDone sigOk s
  | .lockstepMismatch => Sys2Proof.Machine.execLockstepMismatch s
  | .refSramUncorr => Sys2Proof.Machine.execRefSramUncorr s
  | .clockMonitor => Sys2Proof.Machine.execClockMonitor s
  | .rfHbToggle => Sys2Proof.Machine.execRfHbToggle s
  | .refereeResetRelease => Sys2Proof.Machine.execRefereeResetRelease s
  | .coldReset straps flash => Sys2Proof.Machine.execColdReset straps flash s
  | .warmReset iid => Sys2Proof.Machine.execWarmReset iid s
  | .portReset port => Sys2Proof.Machine.execPortReset port s
  | .powerGoodRise rail => Sys2Proof.Machine.execPowerGoodRise rail s
  | .railFault rail => Sys2Proof.Machine.execRailFault rail s
  | .bobbinTrainingDone ok => Sys2Proof.Machine.execBobbinTrainingDone ok s
  | .reelInit => Sys2Proof.Machine.execReelInit s
  | .configLock iid value => Sys2Proof.Machine.execConfigLock iid value s
  | .recoveryLoad iid value ok version => Sys2Proof.Machine.execRecoveryLoad iid value ok version s
  | .rollbackCommit iid value => Sys2Proof.Machine.execRollbackCommit iid value s
  | .powerStateChoose => Sys2Proof.Machine.execPowerStateChoose s
  | .powerStateEntryDone => Sys2Proof.Machine.execPowerStateEntryDone s
  | .powerStateExitDone => Sys2Proof.Machine.execPowerStateExitDone s
  | .pauseExit => Sys2Proof.Machine.execPauseExit s
  | .wakeTime => Sys2Proof.Machine.execWakeTime s
  | .wakeIn ns => Sys2Proof.Machine.execWakeIn ns s
  | .hostWake port kind => Sys2Proof.Machine.execHostWake port kind s
  | .wakeReport => Sys2Proof.Machine.execWakeReport s
  | .prepOff iid value => Sys2Proof.Machine.execPrepOff iid value s
  | .thermalSample die stack power => Sys2Proof.Machine.execThermalSample die stack power s
  | .wearLevel free slcFree => Sys2Proof.Machine.execWearLevel free slcFree s
  | .idleCal p => Sys2Proof.Machine.execIdleCal p s
  | .forcedCal p => Sys2Proof.Machine.execForcedCal p s
  | .ethSerdesLockLoss => Sys2Proof.Machine.execEthSerdesLockLoss s
  | .ethSerdesLockReturn => Sys2Proof.Machine.execEthSerdesLockReturn s
  | .svTxPllLockLoss p => Sys2Proof.Machine.execSvTxPllLockLoss p s
  | .svTxPllLockReturn p => Sys2Proof.Machine.execSvTxPllLockReturn p s
  | .laneTrainingDone p => Sys2Proof.Machine.execLaneTrainingDone p s
  | .functionEnable t mse bme vfe msix fmask => Sys2Proof.Machine.execFunctionEnable t mse bme vfe msix fmask s
  | .functionLevelResetDone t => Sys2Proof.Machine.execFunctionLevelResetDone t s
  | .reelReady => Sys2Proof.Machine.execReelReady s
  | .wakeEvent => Sys2Proof.Machine.execWakeEvent s
  | .vbatLow low => Sys2Proof.Machine.execVbatLow low s
  | .xtalOkChange ok => Sys2Proof.Machine.execXtalOkChange ok s
  | .vddRefFall => Sys2Proof.Machine.execVddRefFall s

end Sys2Proof.Machine
end

