-- ==== Sys2Proof/Safety.lean ====
section
/-! DEFINITION. What counts as a safe step, and the words that the statements about commands use. -/

namespace Sys2Proof.Machine

/-- The outcome is a next state. -/
def Goes (o : Host.Outcome State Fault Refusal) : Prop := ∃ t, o = .next t

/-- The command completes: it answers a next state, and `p` holds there. -/
def Completes (c : Instr) (s : State) (p : State → Prop) : Prop := ∃ t, exec c s = .next t ∧ p t

/-- `t` differs from `s` in control-window registers alone. -/
def OnlyRegs (s t : State) : Prop := t = { s with regs := t.regs }

/-- A 4-byte write of this register by this Initiator ID is admitted: the checks of R554 pass, and the lock does not hold it (R37). -/
def State.writeOk (s : State) (iid : Iid) (off : Nat) : Bool :=
  (s.regCheck iid.toNat off 4 true).isNone && !(s.locked && (regRow off).any fun r => r.lk != 0)

/-- A 4-byte read of this register by this Initiator ID is admitted. -/
def State.readOk (s : State) (iid : Iid) (off : Nat) : Bool := (s.regCheck iid.toNat off 4 false).isNone

/-- Every control-window register outside a list reads in `t` as it does in `s`. -/
def RegsKept (l : List Nat) (s t : State) : Prop := ∀ o, o ∉ l → t.reg o = s.reg o

/-- The canonical form of the memory behind the DPAs: Bobbins, Reel, what waits for the Reel, and poison marks. -/
def Mem.wf (m : Mem) : Bool :=
  spWf (fun _ => 0) m.bob && spWf (fun _ => 0) m.reel && spWf (fun _ => none) m.reelNew && spWf (fun _ => false) m.poison

/-- The canonical form of every memory of the device, the Frame Store among them. -/
def Memory.wf (s : State) : Bool := s.mem.wf && spWf fsUnset s.fs && spWf (fun _ => false) s.fsBad

end Sys2Proof.Machine
end

