-- ==== Sys2Proof/Certificates/Slice0/Obligations.lean ====
section
/-! DEFINITION. What is to be proved about the device. -/

open Sys2Proof Sys2Proof.Machine Sys2Proof.Machine.Reg

/-- With a command at the front of the queue, a step is exec of that command on the state with the queue's rest. On an empty
queue it lets one Hourglass cycle pass (the model's choice, log entry 6), and answers a next state whose queue is empty. -/
def Obligations.StepRunsFrontCommand : Prop :=
  (∀ (c : Instr) (r : List Instr) (s : State), step { s with pending := c :: r } = exec c { s with pending := r }) ∧
  ∀ s : State, s.pending = [] → ∃ t, step s = .next t ∧ t.pending = []

/-- Every command of the table, in every state and with every operand, answers a next state, never a fault or a refusal, and the
queue of waiting commands is as it was. -/
def Obligations.EveryCommandAnswersNext : Prop :=
  ∀ (c : Instr) (s : State), ∃ t, exec c s = .next t ∧ t.pending = s.pending

/-- The start-up invariant: the lock is set exactly at stage 5, and the two rollback counts fit their six bits. -/
def Sys2Proof.Machine.BootInv (s : State) : Prop := (s.boot.lock = true ↔ s.boot.stage = 5) ∧ s.boot.fuse < 64 ∧ s.boot.rollback < 64

/-- In every state where the configuration lock is set exactly at stage 5 of start-up and FUSE_RB and the running image's
ROLLBACK lie below 64, a step that answers a next state leaves both so, whatever command is at the front of the queue. -/
def Obligations.BootInvariantKept : Prop :=
  ∀ s t : State, BootInv s → step s = .next t → BootInv t

/-- Right after reset the configuration lock is clear, the stage is not 5, and FUSE_RB and ROLLBACK lie below 64. -/
def Obligations.BootInvariantAtReset : Prop :=
  BootInv State.reset

/-- In every step: a lock that was clear and is set came from a write of 1 to MC_LOCK by Initiator ID 9 (CONFIG_LOCK or
REGISTER_WRITE); a lock that was set and is clear came from a cold reset or a warm reset (COLD_RESET, WARM_RESET, or a write
of 1 to MC_RST_CTL by Initiator ID 9). A write to MC_LOCK whose bit 0 is 0 leaves the lock as it was. -/
def Obligations.LockClearsOnlyAtReset : Prop :=
  (∀ (c : Instr) (s t : State), exec c s = .next t → s.boot.lock = false → t.boot.lock = true →
    (∃ v : Word, v.getLsbD 0 = true ∧ c = .configLock 9 v) ∨
    (∃ v : BitVec 64, v.getLsbD 0 = true ∧ c = .registerWrite 9 MC_LOCK 4 v)) ∧
  (∀ (c : Instr) (s t : State), exec c s = .next t → s.boot.lock = true → t.boot.lock = false →
    (∃ x f, c = .coldReset x f) ∨ (∃ i, c = .warmReset i ∧ (i = none ∨ i = some 9)) ∨
    (∃ v : BitVec 64, v.getLsbD 0 = true ∧ c = .registerWrite 9 MC_RST_CTL 4 v)) ∧
  (∀ (iid : Iid) (v : Word) (s : State), v.getLsbD 0 = false →
    ∃ t, exec (.configLock iid v) s = .next t ∧ t.boot.lock = s.boot.lock)

/-- In every step FUSE_RB is at least what it was. Where it changes, the command was a write of 1 to MC_BOOT_CTL.RB_COMMIT
(ROLLBACK_COMMIT or REGISTER_WRITE) by the Initiator ID that MC_PWR_OWNER names, and FUSE_RB is then the running image's
ROLLBACK. -/
def Obligations.FuseRisesOnlyByRollbackCommit : Prop :=
  ∀ (c : Instr) (s t : State), exec c s = .next t →
    s.boot.fuse ≤ t.boot.fuse ∧
    (s.boot.fuse ≠ t.boot.fuse → t.boot.fuse = s.boot.rollback ∧ s.is MC_PWR_OWNER_VALID = true ∧
      ∃ iid : Iid, s.get MC_PWR_OWNER_TENANT = iid.toNat ∧
        ((∃ v : Word, v.getLsbD 0 = true ∧ c = .rollbackCommit iid v) ∨
         (∃ v : BitVec 64, v.getLsbD 0 = true ∧ c = .registerWrite iid MC_BOOT_CTL 4 v)))

/-- A refused register access as R51, R52 and R552 record it, with every register but the four of the record as it was. -/
def Sys2Proof.Machine.Denied (code iid : Nat) (s t : State) : Prop :=
  OnlyRegs s t ∧
  t.reg GLB_FAULT_LAST = BitVec.ofNat 32 (code + iid * 0x10000) ∧
  t.reg GLB_FAULT_FIRST = (if s.reg GLB_FAULT_FIRST = 0 then BitVec.ofNat 32 (code + iid * 0x10000) else s.reg GLB_FAULT_FIRST) ∧
  (t.reg GLB_FAULT_COUNT).toNat = min ((s.reg GLB_FAULT_COUNT).toNat + 1) 0xFFFFFFFF ∧
  t.get HI_DENY_CNT_REGISTER = min (s.get HI_DENY_CNT_REGISTER + 1) 0xFFFF ∧
  t.get HI_DENY_CNT_REGION = s.get HI_DENY_CNT_REGION ∧
  RegsKept [GLB_FAULT_FIRST, GLB_FAULT_LAST, GLB_FAULT_COUNT, HI_DENY_CNT] s t

/-- A refused read: the record, and 0 goes out. -/
def Sys2Proof.Machine.DeniedRead (code iid off : Nat) (s t : State) : Prop :=
  ∃ u, Denied code iid s u ∧ t = u.emit (.readData (BitVec.ofNat 6 iid) off 0)

/-- A REGISTER_WRITE or a read (LO_READ_LATCH, and RC_READ of an unaligned offset) by an Initiator ID that is not reserved, of a
width or alignment that R34 does not admit: GLB_FAULT_LAST takes code 0x9001 with the Initiator ID, GLB_FAULT_FIRST takes it
where it held 0, GLB_FAULT_COUNT and HI_DENY_CNT.REGISTER count it, saturating; every other register is as it was, and so is
everything else but, for a read, the value 0 that goes out. -/
def Obligations.WrongWidthAccessRefused : Prop :=
  ∀ (iid : Iid) (off size : Nat) (v : BitVec 64) (s : State), iid.toNat < 28 → widthOk off size = false →
    Completes (.registerWrite iid off size v) s (Denied 0x9001 iid.toNat s) ∧
    Completes (.loReadLatch iid off size) s (DeniedRead 0x9001 iid.toNat off s) ∧
    (size = 4 → Completes (.rcRead iid off) s (DeniedRead 0x9001 iid.toNat off s))

/-- A register write or read by an Initiator ID of 28 or more is refused with 0x9007 whatever else is wrong with it; it changes
nothing but the fault registers and HI_DENY_CNT, and a read returns 0. -/
def Obligations.ReservedInitiatorRefused : Prop :=
  ∀ (iid : Iid) (off size : Nat) (v : BitVec 64) (s : State), 28 ≤ iid.toNat →
    Completes (.registerWrite iid off size v) s (Denied 0x9007 iid.toNat s) ∧
    Completes (.loReadLatch iid off size) s (DeniedRead 0x9007 iid.toNat off s) ∧
    Completes (.rcRead iid off) s (DeniedRead 0x9007 iid.toNat off s)

/-- An access to an offset of the register blocks at which no register lies, and which is no square: where it passes the
Initiator ID, width and page checks it is refused with 0x900B whatever its master; where the page check fails it is refused
with 0x9004 alone, and where the width check fails with 0x9001 alone. A refused read returns 0, a refused write has no
effect. -/
def Obligations.UnassignedOffsetRefused : Prop :=
  ∀ (iid : Iid) (off size : Nat) (v : BitVec 64) (s : State), iid.toNat < 28 → off < 0x1000000 → isSquare off = false → regRow off = none →
    (widthOk off size = true → s.pageOk iid.toNat off true = true →
      Completes (.registerWrite iid off size v) s (Denied 0x900B iid.toNat s)) ∧
    (widthOk off size = true → s.pageOk iid.toNat off false = true →
      Completes (.loReadLatch iid off size) s (DeniedRead 0x900B iid.toNat off s)) ∧
    (widthOk off size = true → s.pageOk iid.toNat off true = false →
      Completes (.registerWrite iid off size v) s (Denied 0x9004 iid.toNat s)) ∧
    (widthOk off size = true → s.pageOk iid.toNat off false = false →
      Completes (.loReadLatch iid off size) s (DeniedRead 0x9004 iid.toNat off s)) ∧
    (widthOk off size = false →
      Completes (.registerWrite iid off size v) s (Denied 0x9001 iid.toNat s) ∧
      Completes (.loReadLatch iid off size) s (DeniedRead 0x9001 iid.toNat off s))

/-- For an aligned 4-byte access to an assigned register by an Initiator ID that is not reserved: a write that fails the page
check or the register class, and a read that fails the page check, is reported with 0x9004; an access that passes those and
fails the own-index rule is reported with 0x9005. A refused read returns 0 and a refused write has no effect but the record
of the refusal. -/
def Obligations.PageClassAndIndexRefusals : Prop :=
  ∀ (iid : Iid) (off : Nat) (v : BitVec 64) (s : State) (r : RegRow), iid.toNat < 28 → off < 0x1000000 → off % 4 = 0 →
    isSquare off = false → regRow off = some r →
    (s.pageOk iid.toNat off true = false ∨ s.classOk iid.toNat off r = false →
      Completes (.registerWrite iid off 4 v) s (Denied 0x9004 iid.toNat s)) ∧
    (s.pageOk iid.toNat off false = false → Completes (.loReadLatch iid off 4) s (DeniedRead 0x9004 iid.toNat off s) ∧
      Completes (.rcRead iid off) s (DeniedRead 0x9004 iid.toNat off s)) ∧
    (s.pageOk iid.toNat off true = true → s.classOk iid.toNat off r = true → s.indexOk iid.toNat off true r = false →
      Completes (.registerWrite iid off 4 v) s (Denied 0x9005 iid.toNat s)) ∧
    (s.pageOk iid.toNat off false = true → s.indexOk iid.toNat off false r = false →
      Completes (.loReadLatch iid off 4) s (DeniedRead 0x9005 iid.toNat off s) ∧
      Completes (.rcRead iid off) s (DeniedRead 0x9005 iid.toNat off s))

/-- The register that a command reads. -/
def Sys2Proof.Machine.readTarget : Instr → Option (Iid × Nat)
  | .rcRead iid off => some (iid, off)
  | .deviceTimeRead iid => some (iid, HG_DT_LO)
  | .epochRead iid => some (iid, HG_EPOCH_NT_NS)
  | .networkTimeRead iid d => some (iid, HG_DOM_NT_NS d)
  | .capturePop iid n => some (iid, HG_CAP_DT_LO n)
  | .tsFifoPop iid rx => some (iid, if rx then HG_TSRX_META else HG_TSTX_META)
  | .backupSecRead iid => some (iid, HG_BK_SEC)
  | .i2cRxdPop iid k => some (iid, SP_I2C_RXD k)
  | .atuFaultPop iid t => some (iid, AT_FAULT_INFO t)
  | .trackClaim iid => some (iid, TK_CLAIM)
  | _ => none

/-- The register that a command writes. -/
def Sys2Proof.Machine.writeTarget : Instr → Option (Iid × Nat)
  | .glbFaultClear iid _ => some (iid, GLB_FAULT_CLEAR)
  | .turnRun iid => some (iid, HG_TURN_CTL)
  | .turnStop iid => some (iid, HG_TURN_CTL)
  | .hgActiveWrite iid _ => some (iid, HG_ACTIVE)
  | .domainEnable iid d _ => some (iid, HG_DOM_CFG d)
  | .domainDisable iid d _ => some (iid, HG_DOM_CFG d)
  | .servoModeEnter iid d _ => some (iid, HG_DOM_CFG d)
  | .incModeEnter iid d _ => some (iid, HG_DOM_CFG d)
  | .sampleSubmit iid d _ => some (iid, HG_DOM_MEAS_HI d)
  | .hgDomAdjWrite iid d _ => some (iid, HG_DOM_ADJ d)
  | .hgSlewLimWrite iid _ => some (iid, HG_SLEW_LIM)
  | .triggerArm iid n _ => some (iid, HG_TRIG_CFG n)
  | .triggerCmpWrite iid n _ => some (iid, HG_TRIG_CMP_HI n)
  | .triggerPeriodWrite iid n _ => some (iid, HG_TRIG_PER_HI n)
  | .backupLoad iid => some (iid, HG_BK_CTL)
  | .streamEnable iid n _ => some (iid, SP_STR_SRC n)
  | .streamDisable iid n _ => some (iid, SP_STR_SRC n)
  | .imuEnable iid i _ => some (iid, SP_IMU_CFG i)
  | .canRecover iid c _ => some (iid, SP_CAN_CTL c)
  | .canDisable iid c _ => some (iid, SP_CAN_CTL c)
  | .i2cCommandPush iid k _ => some (iid, SP_I2C_CMD k)
  | .meReset iid _ => some (iid, ME_CTL)
  | .loomEnable iid _ => some (iid, LM_CTL)
  | .loomDisable iid _ => some (iid, LM_CTL)
  | .hoopRetire iid _ => some (iid, TE_RETIRE)
  | .trackPublish iid _ => some (iid, TK_PUBLISH)
  | .configLock iid _ => some (iid, MC_LOCK)
  | .recoveryLoad iid _ _ _ => some (iid, MC_RECOV_GO)
  | .rollbackCommit iid _ => some (iid, MC_BOOT_CTL)
  | .warmReset (some iid) => some (iid, MC_RST_CTL)
  | .prepOff iid _ => some (iid, MC_PWR_REQ)
  | .canTxRequest iid c k _ => some (iid, SP_CAN_TXC c k)
  | .canTxAbort iid c k _ => some (iid, SP_CAN_TXC c k)
  | .laceLoad iid l _ => some (iid, TE_LACE_CTL l)
  | .laceSave iid l _ => some (iid, TE_LACE_CTL l)
  | .atuInvalidate iid t _ => some (iid, AT_INV_CTL t)
  | .reelFlush iid => some (iid, MEM_RC_CTL)
  | .regionStateWrite iid r _ => some (iid, PL_RGN_CFG r)
  | .squareWrite iid n w _ => some (iid, 0xB80000 + 0x80 * n + 4 * w)
  | .triggerHandover iid _ => some (iid, SV_HANDOVER)
  | .svDetach iid => some (iid, SV_CTL)
  | .svEnable iid => some (iid, SV_CTL)
  | .svPortEnable iid p => some (iid, SV_PORT_CTL p)
  | .svPortDisable iid p => some (iid, SV_PORT_CTL p)
  | _ => none

/-- Every command that is a write or a read of one register, where a check of R554 refuses it with some code: a write leaves
everything but the record of the refusal as it was, and a read does so and returns 0, so it claims no square, pops no FIFO,
clears no count and loads no latch. -/
def Obligations.RefusedAccessesHaveNoEffect : Prop :=
  (∀ (c : Instr) (iid : Iid) (off code : Nat) (s : State), readTarget c = some (iid, off) →
    s.regCheck iid.toNat off 4 false = some code → Completes c s (DeniedRead code iid.toNat off s)) ∧
  (∀ (c : Instr) (iid : Iid) (off code : Nat) (s : State), writeTarget c = some (iid, off) →
    s.regCheck iid.toNat off 4 true = some code → Completes c s (Denied code iid.toNat s))

/-- With the configuration lock set, a 4-byte write of a register that holds an LK field, which passes every check of R554 and
is none of the start-up registers, changes nothing but the record of the refusal, with 0x9002. Before the lock a write of a
plain register of the Host Interface block places the value by the access codes and changes nothing else. -/
def Obligations.LockedRegisterWriteIgnored : Prop :=
  (∀ (iid : Iid) (off : Nat) (v : BitVec 64) (s : State) (r : RegRow), s.regCheck iid.toNat off 4 true = none →
    regRow off = some r → r.lk ≠ 0 → s.boot.lock = true → isStart off = false →
    Completes (.registerWrite iid off 4 v) s (Denied 0x9002 iid.toNat s)) ∧
  (∀ (iid : Iid) (off : Nat) (v : BitVec 64) (s : State) (r : RegRow), s.regCheck iid.toNat off 4 true = none →
    regRow off = some r → s.boot.lock = false → off / 0x100000 = 0xC → r.half = none → r.ranges = [] → r.st = 0 →
    Completes (.registerWrite iid off 4 v) s fun t =>
      OnlyRegs s t ∧ t.reg off = placed r (s.reg off) (v.setWidth 32) ∧ RegsKept [off] s t)

/-- What a plain write leaves in bit b of a register: a W1C bit written 1 is 0; else a W1S bit written 1 is 1; else a bit of an
RW or LK field is the bit written; else the bit is as it was. -/
def Obligations.PlacedByAccessCodes : Prop :=
  ∀ (r : RegRow) (old v : Word) (b : Nat), b < 32 →
    (placed r old v).getLsbD b =
      if r.w1c.testBit b && v.getLsbD b then false
      else if r.w1s.testBit b && v.getLsbD b then true
      else if r.rw.testBit b || r.lk.testBit b then v.getLsbD b
      else old.getLsbD b

/-- An admitted write to GLB_FAULT_CLEAR with bit 0 set sets GLB_FAULT_FIRST to 0 and changes nothing else; with bit 0 clear it
changes nothing. A loss of the reference while the Referee does not run reports 0x1001 with Initiator ID 9: GLB_FAULT_LAST
holds CODE in bits 15:0 and IID in bits 21:16, GLB_FAULT_FIRST takes the same where it read 0 and keeps its value where it
did not, and GLB_FAULT_COUNT counts it, saturating at 0xFFFF_FFFF. -/
def Obligations.FaultClearAndReport : Prop :=
  (∀ (iid : Iid) (v : Word) (s : State), s.writeOk iid GLB_FAULT_CLEAR = true →
    (v.getLsbD 0 = true → Completes (.glbFaultClear iid v) s fun t =>
      OnlyRegs s t ∧ t.reg GLB_FAULT_FIRST = 0 ∧ RegsKept [GLB_FAULT_FIRST] s t) ∧
    (v.getLsbD 0 = false → exec (.glbFaultClear iid v) s = .next s)) ∧
  (∀ (pin : Bool) (s : State), s.ref.running = false → Completes (.refLoss pin) s fun t =>
    OnlyRegs s t ∧ t.reg GLB_FAULT_LAST = 0x91001 ∧
    t.reg GLB_FAULT_FIRST = (if s.reg GLB_FAULT_FIRST = 0 then 0x91001 else s.reg GLB_FAULT_FIRST) ∧
    (t.reg GLB_FAULT_COUNT).toNat = min ((s.reg GLB_FAULT_COUNT).toNat + 1) 0xFFFFFFFF ∧
    t.is HG_STATUS_HOLDOVER = true ∧
    RegsKept [GLB_FAULT_FIRST, GLB_FAULT_LAST, GLB_FAULT_COUNT, HG_STATUS] s t)

/-- A read of the lower half of a plain pair, where it is admitted, sends out the value in force and loads this Initiator ID's
latch of the upper half with the value of the same instant; no register changes. In any later state in which that latch
stands, an admitted read of a latched upper half by the same Initiator ID returns the latched value, whatever the register
holds, and changes nothing. -/
def Obligations.LowHalfReadLatchesHighHalf : Prop :=
  (∀ (iid : Iid) (off : Nat) (s : State), s.readOk iid off = true → latchList off = [off + 4] → isLatched off = false →
    isSquare off = false → off < 0x1000000 → (regRow off).map (fun r => (r.half, r.rc, r.wo)) = some (some false, 0, 0) →
    Completes (.loReadLatch iid off 4) s fun t =>
      t = { s with
              latch := spPut (fun _ => none) s.latch (State.latchKey (off + 4) iid.toNat) (some (s.view (off + 4)))
              outbox := .readData iid off ((s.view off).zeroExtend 64) :: s.outbox }) ∧
  (∀ (iid : Iid) (x : Word) (u : State), u.readOk iid HG_TURN_NUM_HI = true →
    spGet (fun _ => none) u.latch (State.latchKey HG_TURN_NUM_HI iid.toNat) = some x →
    Completes (.loReadLatch iid HG_TURN_NUM_HI 4) u fun t =>
      t = u.emit (.readData iid HG_TURN_NUM_HI (x.zeroExtend 64)))

/-- An admitted read of GLB_FAULT_COUNT, and of HI_DENY_CNT, sends out the value held and leaves 0 there; every other register
and everything else is as it was. -/
def Obligations.RcReadReturnsThenClears : Prop :=
  ∀ (iid : Iid) (off : Nat) (s : State), off = GLB_FAULT_COUNT ∨ off = HI_DENY_CNT → s.readOk iid off = true →
    Completes (.rcRead iid off) s fun t =>
      ∃ u, OnlyRegs s u ∧ u.reg off = 0 ∧ RegsKept [off] s u ∧ t = u.emit (.readData iid off ((s.reg off).zeroExtend 64))

/-- While turns are neither armed nor running, an admitted write to HG_TURN_EPOCH_LO changes no register and is held for its
Initiator ID; an admitted write to HG_TURN_EPOCH_HI by that Initiator ID then places both halves, and what was held is
discarded; where nothing is held it places _HI beside the _LO in force. An aligned 8-byte write places both. While ACTIVE is
1 the pair keeps its value and 0x1003 is reported. A period is placed only where its whole value lies in the range of R59. -/
def Obligations.PairIsPlacedInOneInstant : Prop :=
  (∀ (iid : Iid) (v : BitVec 64) (s : State), s.writeOk iid HG_TURN_EPOCH_LO = true →
    Completes (.registerWrite iid HG_TURN_EPOCH_LO 4 v) s fun t =>
      t = { s with heldLo := spPut (fun _ => none) s.heldLo (State.latchKey HG_TURN_EPOCH_LO iid.toNat) (some (v.setWidth 32)) }) ∧
  (∀ (iid : Iid) (lo : Option Word) (v : BitVec 64) (s : State), s.writeOk iid HG_TURN_EPOCH_HI = true →
    spGet (fun _ => none) s.heldLo (State.latchKey HG_TURN_EPOCH_LO iid.toNat) = lo →
    (s.is HG_TURN_CTL_ACTIVE = false → Completes (.registerWrite iid HG_TURN_EPOCH_HI 4 v) s fun t =>
      t.reg HG_TURN_EPOCH_LO = lo.getD (s.reg HG_TURN_EPOCH_LO) ∧ t.reg HG_TURN_EPOCH_HI = v.setWidth 32 ∧
      spGet (fun _ => none) t.heldLo (State.latchKey HG_TURN_EPOCH_LO iid.toNat) = none ∧
      RegsKept [HG_TURN_EPOCH_LO, HG_TURN_EPOCH_HI] s t) ∧
    (s.is HG_TURN_CTL_ACTIVE = true → Completes (.registerWrite iid HG_TURN_EPOCH_HI 4 v) s fun t =>
      t.pair HG_TURN_EPOCH_LO = s.pair HG_TURN_EPOCH_LO ∧ t.reg GLB_FAULT_LAST = BitVec.ofNat 32 (0x1003 + iid.toNat * 0x10000))) ∧
  (∀ (iid : Iid) (v : BitVec 64) (s : State), s.regCheck iid.toNat HG_TURN_PER_LO 8 true = none →
    s.is HG_TURN_CTL_ACTIVE = false →
    Completes (.registerWrite iid HG_TURN_PER_LO 8 v) s fun t =>
      if 2133333334 ≤ v.toNat ∧ v.toNat ≤ 25600000000 then
        t.pair HG_TURN_PER_LO = v.toNat ∧ RegsKept [HG_TURN_PER_LO, HG_TURN_PER_HI] s t
      else t.pair HG_TURN_PER_LO = s.pair HG_TURN_PER_LO ∧ t.reg GLB_FAULT_LAST = BitVec.ofNat 32 (0x1003 + iid.toNat * 0x10000))

/-- Where it is admitted, DEVICE_TIME_READ sends out the low 32 bits of Device Time in whole nanoseconds (bits 39:8 of the count
in 1/256 ns) and loads the reader's latches of HG_DT_HI with bits 71:40 and of HG_DT_FRAC with the fraction; no register and
nothing of the Hourglass changes. -/
def Obligations.DeviceTimeReadIsOneInstant : Prop :=
  ∀ (iid : Iid) (s : State), s.readOk iid HG_DT_LO = true → Completes (.deviceTimeRead iid) s fun t =>
    t.outbox = .readData iid HG_DT_LO (BitVec.ofNat 64 (s.hg.dt / 2 ^ 8 % 2 ^ 32)) :: s.outbox ∧
    spGet (fun _ => none) t.latch (State.latchKey HG_DT_HI iid.toNat) = some (BitVec.ofNat 32 (s.hg.dt / 2 ^ 40)) ∧
    spGet (fun _ => none) t.latch (State.latchKey HG_DT_FRAC iid.toNat) = some (BitVec.ofNat 32 (s.hg.dt % 2 ^ 8)) ∧
    t.regs = s.regs ∧ t.hg = s.hg

/-- Where they are admitted: EPOCH_READ returns HG_EPOCH_NT_NS and latches the other three epoch registers; NETWORK_TIME_READ
returns the nanoseconds of the domain's Network Time and latches its seconds; BACKUP_SEC_READ returns the backup seconds and
latches the sub-second count. No register and nothing of the Hourglass changes. -/
def Obligations.EpochNetworkAndBackupReads : Prop :=
  (∀ (iid : Iid) (s : State), s.readOk iid HG_EPOCH_NT_NS = true → Completes (.epochRead iid) s fun t =>
    t.outbox = .readData iid HG_EPOCH_NT_NS ((s.reg HG_EPOCH_NT_NS).zeroExtend 64) :: s.outbox ∧
    (∀ o ∈ [HG_EPOCH_NT_SEC_LO, HG_EPOCH_NT_SEC_HI, HG_EPOCH_META],
      spGet (fun _ => none) t.latch (State.latchKey o iid.toNat) = some (s.reg o)) ∧ t.regs = s.regs ∧ t.hg = s.hg) ∧
  (∀ (iid : Iid) (d : Fin 2) (s : State), s.readOk iid (HG_DOM_NT_NS d) = true → Completes (.networkTimeRead iid d) s fun t =>
    t.outbox = .readData iid (HG_DOM_NT_NS d) (BitVec.ofNat 64 (s.netTime d % 1000000000)) :: s.outbox ∧
    spGet (fun _ => none) t.latch (State.latchKey (HG_DOM_NT_SEC_LO d) iid.toNat) =
      some (BitVec.ofNat 32 (s.netTime d / 1000000000)) ∧
    spGet (fun _ => none) t.latch (State.latchKey (HG_DOM_NT_SEC_HI d) iid.toNat) =
      some (BitVec.ofNat 32 (s.netTime d / 1000000000 / 2 ^ 32 % 65536)) ∧ t.regs = s.regs ∧ t.hg = s.hg) ∧
  (∀ (iid : Iid) (s : State), s.readOk iid HG_BK_SEC = true → Completes (.backupSecRead iid) s fun t =>
    t.outbox = .readData iid HG_BK_SEC (s.hg.bkSec.zeroExtend 64) :: s.outbox ∧
    spGet (fun _ => none) t.latch (State.latchKey HG_BK_SUB iid.toNat) = some (BitVec.ofNat 32 s.hg.bkSub) ∧
    t.regs = s.regs ∧ t.hg = s.hg)

/-- DEVICE_TIME_START before Device Time runs starts it at 0 with the PLL locked and the reference good; while it runs it
changes nothing. REF_LOCK_RETURN clears HOLDOVER, sets PLL_LOCK and REF_OK, and changes no other register and nothing else,
so Device Time does not jump. -/
def Obligations.DeviceTimeAndReference : Prop :=
  (∀ s : State, s.hg.running = false → Completes .deviceTimeStart s fun t =>
    t.hg = { s.hg with dt := 0, running := true } ∧ t.is HG_STATUS_PLL_LOCK = true ∧ t.is HG_STATUS_REF_OK = true ∧
    RegsKept [HG_STATUS] s t) ∧
  (∀ s : State, s.hg.running = true → exec .deviceTimeStart s = .next s) ∧
  (∀ s : State, Completes .refLockReturn s fun t =>
    OnlyRegs s t ∧ t.is HG_STATUS_HOLDOVER = false ∧ t.is HG_STATUS_PLL_LOCK = true ∧ t.is HG_STATUS_REF_OK = true ∧
    RegsKept [HG_STATUS] s t)

/-- Where the write is admitted: TURN_RUN while turns are neither armed nor running, with an epoch at least 100 microseconds
ahead, sets RUN and ACTIVE, clears STARTED and the turn number, and turn 0 is next; with a nearer epoch it reports 0x1002
and leaves HG_TURN_CTL; while ACTIVE is 1 it changes nothing. TURN_STOP while turns run clears RUN alone; while they are
armed it clears RUN and ACTIVE, where no commit is pending; while ACTIVE is 0 it changes nothing. TURN_END_STOP, with turns
running, RUN at 0 and no commit pending, clears ACTIVE. TURN_START, with RUN at 1, runs Device Time on to at least the
turn's start, sets STARTED and numbers the turn, and the next turn follows. -/
def Obligations.TurnsArmRunAndStop : Prop :=
  (∀ (iid : Iid) (s : State), s.writeOk iid HG_TURN_CTL = true →
    (s.is HG_TURN_CTL_ACTIVE = false → s.hg.dt + 100000 * 256 ≤ s.pair HG_TURN_EPOCH_LO * 256 → Completes (.turnRun iid) s fun t =>
      t.is HG_TURN_CTL_RUN = true ∧ t.is HG_TURN_CTL_ACTIVE = true ∧ t.is HG_TURN_CTL_STARTED = false ∧
      t.pair HG_TURN_NUM_LO = 0 ∧ t.hg.nextTurn = 0 ∧ t.pair HG_TURN_EPOCH_LO = s.pair HG_TURN_EPOCH_LO) ∧
    (s.is HG_TURN_CTL_ACTIVE = false → s.pair HG_TURN_EPOCH_LO * 256 < s.hg.dt + 100000 * 256 → Completes (.turnRun iid) s fun t =>
      t.reg HG_TURN_CTL = s.reg HG_TURN_CTL ∧ t.reg GLB_FAULT_LAST = BitVec.ofNat 32 (0x1002 + iid.toNat * 0x10000) ∧ t.hg = s.hg) ∧
    (s.is HG_TURN_CTL_ACTIVE = true → exec (.turnRun iid) s = .next s) ∧
    (s.is HG_TURN_CTL_ACTIVE = true → s.is HG_TURN_CTL_STARTED = true → Completes (.turnStop iid) s fun t =>
      OnlyRegs s t ∧ t.is HG_TURN_CTL_RUN = false ∧ t.is HG_TURN_CTL_ACTIVE = true ∧ RegsKept [HG_TURN_CTL] s t) ∧
    (s.is HG_TURN_CTL_ACTIVE = true → s.is HG_TURN_CTL_STARTED = false → s.track.commit = none →
      Completes (.turnStop iid) s fun t => t.is HG_TURN_CTL_RUN = false ∧ t.is HG_TURN_CTL_ACTIVE = false) ∧
    (s.is HG_TURN_CTL_ACTIVE = false → exec (.turnStop iid) s = .next s)) ∧
  (∀ s : State, s.is HG_TURN_CTL_ACTIVE = true → s.is HG_TURN_CTL_STARTED = true → s.is HG_TURN_CTL_RUN = false →
    s.track.commit = none → Completes .turnEndStop s fun t => t.is HG_TURN_CTL_ACTIVE = false) ∧
  (∀ s : State, s.is HG_TURN_CTL_ACTIVE = true → s.is HG_TURN_CTL_RUN = true → s.hg.running = true → Completes .turnStart s fun t =>
    t.is HG_TURN_CTL_STARTED = true ∧ t.pair HG_TURN_NUM_LO = s.hg.nextTurn % 2 ^ 64 ∧ t.hg.nextTurn = s.hg.nextTurn + 1 ∧
    s.pair HG_TURN_EPOCH_LO * 256 + s.hg.nextTurn * s.pair HG_TURN_PER_LO ≤ t.hg.dt)

/-- For admitted writes by the time owner: DOMAIN_ENABLE sets EN and keeps the domain's offset, and where the domain is not
selected changes nothing else; where it is selected, no switch waits and turns do not run, its letter shows at once.
DOMAIN_DISABLE clears EN, ends an amortisation, discards its remainder and the waiting samples, keeps the offset and the
step count, and a selected domain then shows letter 0. HG_ACTIVE_WRITE naming an enabled domain selects it at once while
ACTIVE is 0, and while ACTIVE is 1 waits with PENDING set; naming a disabled one it reports 0x100C. A write by another
Initiator ID is ignored and reported with 0x100D. -/
def Obligations.DomainsEnableAndSelect : Prop :=
  (∀ (iid : Iid) (d : Fin 2) (v : Word) (s : State), s.writeOk iid (HG_DOM_CFG d) = true → iid.toNat = s.get HG_OWNER_IID →
    v.getLsbD 2 = s.is (HG_DOM_CFG_MODE d) →
    (s.is (HG_DOM_CFG_EN d) = false → v.getLsbD 0 = true → Completes (.domainEnable iid d v) s fun t =>
      t.is (HG_DOM_CFG_EN d) = true ∧ t.dom d = s.dom d ∧
      (s.actDom ≠ d → OnlyRegs s t ∧ RegsKept [HG_DOM_CFG d] s t) ∧
      (s.actDom = d → s.hg.pendAct = none → s.turnsRun = false → t.domLetter = 0x41 + d)) ∧
    (s.is (HG_DOM_CFG_EN d) = true → v.getLsbD 0 = false → Completes (.domainDisable iid d v) s fun t =>
      t.is (HG_DOM_CFG_EN d) = false ∧ t.is (HG_DOM_STAT_SLEWING d) = false ∧
      t.dom d = { s.dom d with rem := 0, samples := [] } ∧ t.reg (HG_DOM_STEP d) = s.reg (HG_DOM_STEP d) ∧
      (s.actDom = d → t.domLetter = 0 ∧ t.get HG_EPOCH_META_DOMAIN = 0))) ∧
  (∀ (iid : Iid) (v : Word) (s : State), s.writeOk iid HG_ACTIVE = true → iid.toNat = s.get HG_OWNER_IID →
    (s.is (HG_DOM_CFG_EN (v.toNat % 2)) = true → s.is HG_TURN_CTL_ACTIVE = false → Completes (.hgActiveWrite iid v) s fun t =>
      t.hg.act = v.getLsbD 0 ∧ t.hg.pendAct = none ∧ t.is HG_ACTIVE_PENDING = false ∧ t.is HG_ACTIVE_DOM = v.getLsbD 0 ∧
      t.dom 0 = s.dom 0 ∧ t.dom 1 = s.dom 1) ∧
    (s.is (HG_DOM_CFG_EN (v.toNat % 2)) = true → s.is HG_TURN_CTL_ACTIVE = true → Completes (.hgActiveWrite iid v) s fun t =>
      t.hg = { s.hg with pendAct := some (v.getLsbD 0) } ∧ t.is HG_ACTIVE_PENDING = true ∧ RegsKept [HG_ACTIVE] s t) ∧
    (s.is (HG_DOM_CFG_EN (v.toNat % 2)) = false → Completes (.hgActiveWrite iid v) s fun t =>
      OnlyRegs s t ∧ t.reg GLB_FAULT_LAST = BitVec.ofNat 32 (0x100C + iid.toNat * 0x10000) ∧
      RegsKept [GLB_FAULT_FIRST, GLB_FAULT_LAST, GLB_FAULT_COUNT] s t)) ∧
  (∀ (iid : Iid) (v : Word) (s : State), s.writeOk iid HG_ACTIVE = true → iid.toNat ≠ s.get HG_OWNER_IID →
    Completes (.hgActiveWrite iid v) s fun t =>
      OnlyRegs s t ∧ t.reg GLB_FAULT_LAST = BitVec.ofNat 32 (0x100D + iid.toNat * 0x10000) ∧
      RegsKept [GLB_FAULT_FIRST, GLB_FAULT_LAST, GLB_FAULT_COUNT] s t)

/-- For admitted writes by the time owner that leave EN as it is: SERVO_MODE_ENTER sets MODE, starts the integral at ADJ times
Ts, ends an amortisation and discards its remainder, and keeps ADJ; INC_MODE_ENTER clears MODE and keeps ADJ, the offset and
the integral. HG_DOM_ADJ_WRITE in INC mode places the value clamped to plus or minus HG_SLEW_LIM, and in SERVO mode changes
nothing. HG_SLEW_LIM_WRITE within 1 to 1953 places the limit, and both domains' rates then lie within it; outside it reports
0x1003 and changes no other register. -/
def Obligations.ServoAndIncModes : Prop :=
  (∀ (iid : Iid) (d : Fin 2) (v : Word) (s : State), s.writeOk iid (HG_DOM_CFG d) = true → iid.toNat = s.get HG_OWNER_IID →
    v.getLsbD 0 = s.is (HG_DOM_CFG_EN d) →
    (s.is (HG_DOM_CFG_MODE d) = false → v.getLsbD 2 = true → Completes (.servoModeEnter iid d v) s fun t =>
      t.is (HG_DOM_CFG_MODE d) = true ∧ (t.dom d).rem = 0 ∧ t.is (HG_DOM_STAT_SLEWING d) = false ∧
      (t.dom d).integ = s.adj d * (s.reg (HG_DOM_TS d)).toNat * 1000000 ∧ t.reg (HG_DOM_ADJ d) = s.reg (HG_DOM_ADJ d) ∧
      (t.dom d).ofs = (s.dom d).ofs) ∧
    (s.is (HG_DOM_CFG_MODE d) = true → v.getLsbD 2 = false → Completes (.incModeEnter iid d v) s fun t =>
      t.is (HG_DOM_CFG_MODE d) = false ∧ t.dom d = { s.dom d with clamped := 0 } ∧ RegsKept [HG_DOM_CFG d] s t)) ∧
  (∀ (iid : Iid) (d : Fin 2) (v : Word) (s : State), s.writeOk iid (HG_DOM_ADJ d) = true → iid.toNat = s.get HG_OWNER_IID →
    (s.is (HG_DOM_CFG_MODE d) = false → Completes (.hgDomAdjWrite iid d v) s fun t =>
      OnlyRegs s t ∧ RegsKept [HG_DOM_ADJ d] s t ∧
      t.reg (HG_DOM_ADJ d) = BitVec.ofInt 32 (max (-(s.slewLim : Int)) (min s.slewLim v.toInt))) ∧
    (s.is (HG_DOM_CFG_MODE d) = true → exec (.hgDomAdjWrite iid d v) s = .next s)) ∧
  (∀ (iid : Iid) (v : Word) (s : State), s.writeOk iid HG_SLEW_LIM = true → iid.toNat = s.get HG_OWNER_IID →
    Completes (.hgSlewLimWrite iid v) s fun t =>
      OnlyRegs s t ∧
      if 1 ≤ v.toNat ∧ v.toNat ≤ 1953 then
        t.reg HG_SLEW_LIM = v ∧ (t.adj 0).natAbs ≤ t.slewLim ∧ (t.adj 1).natAbs ≤ t.slewLim ∧
        RegsKept [HG_SLEW_LIM, HG_DOM_ADJ 0, HG_DOM_ADJ 1] s t
      else t.reg GLB_FAULT_LAST = BitVec.ofNat 32 (0x1003 + iid.toNat * 0x10000) ∧
        RegsKept [GLB_FAULT_FIRST, GLB_FAULT_LAST, GLB_FAULT_COUNT] s t)

/-- SAMPLE_SUBMIT, an admitted write of HG_DOM_MEAS_HI by the time owner, queues the whole 64-bit value while the domain is
enabled and queues nothing while it is not. SAMPLE_APPLY of a waiting sample above HG_STEP_THR that keeps Network Time in
range adds it to the offset, discards a slew in progress, counts the step modulo 65536 and reports 0x1007, where the Referee
does not run; of a sample at or below it in INC mode it starts a slew of exactly that sample and keeps ADJ. SLEW_COMPLETE of
an amortisation in progress at a rate above zero ends it with all of it absorbed. -/
def Obligations.SamplesStepOrSlew : Prop :=
  (∀ (iid : Iid) (d : Fin 2) (hi : Word) (s : State), s.writeOk iid (HG_DOM_MEAS_HI d) = true → iid.toNat = s.get HG_OWNER_IID →
    Completes (.sampleSubmit iid d hi) s fun t =>
      t.dom d = if s.is (HG_DOM_CFG_EN d) then
          { s.dom d with samples := (s.dom d).samples ++ [signed 64 (s.pairValue iid.toNat (HG_DOM_MEAS_LO d) hi)] }
        else s.dom d) ∧
  (∀ (d : Fin 2) (θ : Int) (r : List Int) (s : State), (s.dom d).samples = θ :: r →
    ((s.reg HG_STEP_THR).toNat * 1000 < θ.natAbs → s.stepFits d θ = true → s.ref.running = false →
      Completes (.sampleApply d) s fun t =>
        (t.dom d).ofs = (s.dom d).ofs + θ * 2 ^ 40 ∧ (t.dom d).rem = 0 ∧ (t.dom d).samples = r ∧
        (t.reg (HG_DOM_STEP d)).toNat = ((s.reg (HG_DOM_STEP d)).toNat + 1) % 65536 ∧ t.is (HG_DOM_STAT_SLEWING d) = false ∧
        t.is (HG_DOM_STAT_LOCKED d) = false ∧ t.reg (HG_DOM_ADJ d) = s.reg (HG_DOM_ADJ d) ∧ t.reg GLB_FAULT_LAST = 0x91007) ∧
    (θ.natAbs ≤ (s.reg HG_STEP_THR).toNat * 1000 → s.is (HG_DOM_CFG_MODE d) = false → Completes (.sampleApply d) s fun t =>
      (t.dom d).ofs = (s.dom d).ofs ∧ (t.dom d).rem = θ * 2 ^ 40 ∧ (t.dom d).samples = r ∧
      t.is (HG_DOM_STAT_SLEWING d) = (θ != 0) ∧ t.reg (HG_DOM_ADJ d) = s.reg (HG_DOM_ADJ d) ∧ RegsKept [HG_DOM_STAT d] s t)) ∧
  (∀ (d : Fin 2) (s : State), s.is (HG_DOM_STAT_SLEWING d) = true → (s.dom d).rem ≠ 0 → 0 < s.amort d →
    s.is (HG_DOM_CFG_EN d) = true → s.hg.running = true → Completes (.slewComplete d) s fun t =>
      ∃ k : Nat, (t.dom d).ofs = (s.dom d).ofs + 4 * s.adj d * k + (s.dom d).rem ∧ (t.dom d).rem = 0 ∧
        (s.dom d).rem.natAbs ≤ 4 * s.amort d * k ∧ 4 * s.amort d * k < (s.dom d).rem.natAbs + 4 * s.amort d ∧
        t.hg.dt = (s.hg.dt / 1024 + k) * 1024 ∧ t.is (HG_DOM_STAT_SLEWING d) = false)

/-- For an admitted write of HG_TRIG_CFG that sets mode ONE_SHOT and ARM on a trigger whose ARM is 0: with the target ahead, ARM
sets and no edge falls; with the target reached and no pulse in progress, one edge is counted in FIRED, LATE sets, 0x1004 is
reported, ARM reads 0 and the pulse runs for its width. TRIGGER_EDGE of an armed one-shot whose target lies ahead runs
Device Time on to the target, counts one edge, starts its pulse and clears ARM. An admitted TRIGGER_CMP_WRITE of a trigger
that is no armed one-shot places the low 40 bits and changes no other register. TRIGGER_PULSE_END ends the pulse at its
instant, and the pin is then inactive. -/
def Obligations.OneShotTriggers : Prop :=
  (∀ (iid : Iid) (n : Fin 16) (v : Word) (s : State), s.writeOk iid (HG_TRIG_CFG n) = true → v.toNat % 4 = 1 → v.getLsbD 3 = true →
    s.is (HG_TRIG_CFG_ARM n) = false →
    (cmpDiff s.now (s.trigCmp n) < 0 → Completes (.triggerArm iid n v) s fun t =>
      t.is (HG_TRIG_CFG_ARM n) = true ∧ (t.trig n).armed = true ∧ t.get (HG_TRIG_CFG_MODE n) = 1 ∧
      t.reg (HG_TRIG_STAT n) = s.reg (HG_TRIG_STAT n) ∧ (t.trig n).pulseEnd = (s.trig n).pulseEnd) ∧
    (0 ≤ cmpDiff s.now (s.trigCmp n) → (s.trig n).pulseEnd = none → Completes (.triggerArm iid n v) s fun t =>
      t.is (HG_TRIG_CFG_ARM n) = false ∧ (t.trig n).armed = false ∧ t.is (HG_TRIG_STAT_LATE n) = true ∧
      t.get (HG_TRIG_STAT_FIRED n) = (s.get (HG_TRIG_STAT_FIRED n) + 1) % 65536 ∧ t.reg GLB_FAULT_LAST = 0x91004 ∧
      (t.trig n).pulseEnd = some (s.hg.dt + (s.reg (HG_TRIG_WIDTH n)).toNat * 256))) ∧
  (∀ (n : Fin 16) (s : State), s.get (HG_TRIG_CFG_MODE n) = 1 → (s.trig n).armed = true → s.hg.running = true →
    cmpDiff s.now (s.trigCmp n) < 0 → (s.trig n).pulseEnd = none → Completes (.triggerEdge n) s fun t =>
      t.hg.dt = cmpInstant s.now (s.trigCmp n) * 256 ∧ t.is (HG_TRIG_CFG_ARM n) = false ∧ (t.trig n).armed = false ∧
      t.get (HG_TRIG_STAT_FIRED n) = (s.get (HG_TRIG_STAT_FIRED n) + 1) % 65536 ∧
      (t.trig n).pulseEnd = some (t.hg.dt + (s.reg (HG_TRIG_WIDTH n)).toNat * 256)) ∧
  (∀ (iid : Iid) (n : Fin 16) (hi : Word) (s : State), s.writeOk iid (HG_TRIG_CMP_HI n) = true →
    (s.get (HG_TRIG_CFG_MODE n) ≠ 1 ∨ (s.trig n).armed = false) → Completes (.triggerCmpWrite iid n hi) s fun t =>
      t.pair (HG_TRIG_CMP_LO n) = s.pairValue iid.toNat (HG_TRIG_CMP_LO n) hi % 2 ^ 40 ∧ t.hg = s.hg ∧
      RegsKept [HG_TRIG_CMP_LO n, HG_TRIG_CMP_HI n] s t) ∧
  (∀ (n : Fin 16) (e : Nat) (s : State), (s.trig n).pulseEnd = some e → s.sv.oeLate.testBit n = false →
    Completes (.triggerPulseEnd n) s fun t =>
      (t.trig n).pulseEnd = none ∧ t.trigPin n = s.is (HG_TRIG_CFG_POL n) ∧ (s.hg.running = true → e ≤ t.hg.dt))

/-- TRIGGER_EDGE of an armed periodic trigger with its next instant ahead and no pulse in progress runs Device Time on to the
whole nanosecond nearest to that instant, counts one edge, and puts the following instant one exact period later. An
admitted TRIGGER_PERIOD_WRITE below 2048 units is ignored and reported with 0x1003; one of at least 2048 places the period,
and for a running series whose last instant plus the new period lies ahead puts the next instant there without LATE. -/
def Obligations.PeriodicTriggers : Prop :=
  (∀ (n : Fin 16) (u : Nat) (s : State), s.get (HG_TRIG_CFG_MODE n) = 2 → (s.trig n).armed = true → s.hg.running = true →
    (s.trig n).next = some u → s.now < nearestNs u → 2048 ≤ s.trigPer n → (s.trig n).pulseEnd = none →
    Completes (.triggerEdge n) s fun t =>
      t.hg.dt = nearestNs u * 256 ∧ (t.trig n).last = some u ∧ (t.trig n).next = some (u + s.trigPer n) ∧
      (t.trig n).armed = true ∧ t.get (HG_TRIG_STAT_FIRED n) = (s.get (HG_TRIG_STAT_FIRED n) + 1) % 65536) ∧
  (∀ (iid : Iid) (n : Fin 16) (hi : Word) (s : State), s.writeOk iid (HG_TRIG_PER_HI n) = true →
    (s.pairValue iid.toNat (HG_TRIG_PER_LO n) hi < 2048 → Completes (.triggerPeriodWrite iid n hi) s fun t =>
      t.pair (HG_TRIG_PER_LO n) = s.pair (HG_TRIG_PER_LO n) ∧ t.hg = s.hg ∧
      t.reg GLB_FAULT_LAST = BitVec.ofNat 32 (0x1003 + iid.toNat * 0x10000)) ∧
    (∀ (p u : Nat), s.pairValue iid.toNat (HG_TRIG_PER_LO n) hi = p → 2048 ≤ p → s.get (HG_TRIG_CFG_MODE n) = 2 →
      (s.trig n).armed = true → (s.trig n).last = some u → s.now < nearestNs (u + p) →
      Completes (.triggerPeriodWrite iid n hi) s fun t =>
        t.pair (HG_TRIG_PER_LO n) = p ∧ (t.trig n).next = some (u + p) ∧
        RegsKept [HG_TRIG_PER_LO n, HG_TRIG_PER_HI n] s t))

/-- CAPTURE_EDGE on an enabled input, of a selected edge and a pulse at least FILT long: with fewer than 4 entries the instant,
the Network Time and the step count of the selected domain enter the FIFO last; with 4 the edge is dropped, OVF sets and
0x1006 is reported. CAPTURE_POP, where the read is admitted, returns and pops the head and sets POPPED; on an empty FIFO it
returns 0 and clears POPPED. TS_FIFO_POP by the time owner returns the head's sequenceId, messageType, domain and VALID and
pops it; by another Initiator ID it returns 0 and pops nothing. -/
def Obligations.CapturesAndTimestamps : Prop :=
  (∀ (n : Fin 8) (rising : Bool) (pulse : Nat) (q : List CapEntry) (s : State), s.is (HG_CAP_CFG_EN n) = true →
    s.get (HG_CAP_CFG_FILT n) ≤ pulse →
    (s.get (HG_CAP_CFG_EDGE n) = 2 ∨ (s.get (HG_CAP_CFG_EDGE n) = 0 ∧ rising = true) ∨
      (s.get (HG_CAP_CFG_EDGE n) = 1 ∧ rising = false)) →
    spGet (fun _ => []) s.hg.caps n = q →
    (q.length < 4 → Completes (.captureEdge n rising pulse) s fun t =>
      spGet (fun _ => []) t.hg.caps n = q ++ [⟨s.hg.dt / 256, s.netTime (s.get (HG_CAP_CFG_DOM n)),
        (s.reg (HG_DOM_STEP (s.get (HG_CAP_CFG_DOM n)))).toNat⟩] ∧ t.hg.dt = s.hg.dt) ∧
    (4 ≤ q.length → Completes (.captureEdge n rising pulse) s fun t =>
      t.hg = s.hg ∧ t.is (HG_CAP_STAT_OVF n) = true ∧ t.reg GLB_FAULT_LAST = 0x91006)) ∧
  (∀ (iid : Iid) (n : Fin 8) (s : State), s.readOk iid (HG_CAP_DT_LO n) = true →
    (∀ (e : CapEntry) (r : List CapEntry), spGet (fun _ => []) s.hg.caps n = e :: r → Completes (.capturePop iid n) s fun t =>
      t.outbox = .readData iid (HG_CAP_DT_LO n) (BitVec.ofNat 64 (e.dt % 2 ^ 32)) :: s.outbox ∧
      spGet (fun _ => []) t.hg.caps n = r ∧ t.is (HG_CAP_STAT_POPPED n) = true ∧
      spGet (fun _ => none) t.latch (State.latchKey (HG_CAP_NT_NS n) iid.toNat) = some (BitVec.ofNat 32 (e.nt % 1000000000))) ∧
    (spGet (fun _ => []) s.hg.caps n = [] → Completes (.capturePop iid n) s fun t =>
      t.outbox = .readData iid (HG_CAP_DT_LO n) 0 :: s.outbox ∧ t.hg = s.hg ∧ t.is (HG_CAP_STAT_POPPED n) = false)) ∧
  (∀ (iid : Iid) (rx : Bool) (e : TsEntry) (r : List TsEntry) (s : State),
    s.readOk iid (if rx then HG_TSRX_META else HG_TSTX_META) = true → (if rx then s.hg.tsRx else s.hg.tsTx) = e :: r →
    (iid.toNat = s.get HG_OWNER_IID → Completes (.tsFifoPop iid rx) s fun t =>
      (if rx then t.hg.tsRx else t.hg.tsTx) = r ∧ (if rx then t.hg.tsTx = s.hg.tsTx else t.hg.tsRx = s.hg.tsRx) ∧
      t.outbox.head? = some (.readData iid (if rx then HG_TSRX_META else HG_TSTX_META)
        (BitVec.ofNat 64 (e.seqId.toNat + e.msgType.toNat * 2 ^ 16 + (if e.dom then 2 ^ 20 else 0) + 2 ^ 21)))) ∧
    (iid.toNat ≠ s.get HG_OWNER_IID → Completes (.tsFifoPop iid rx) s fun t =>
      t = s.emit (.readData iid (if rx then HG_TSRX_META else HG_TSTX_META) 0)))

/-- An admitted BACKUP_LOAD by Initiator ID 9 sets the seconds from HG_BK_SET_SEC and the sub-second count to 0 and changes no
register; by another Initiator ID it is ignored and reported with 0x100D. BACKUP_POWER_ON sets the counter to 0 and LOST to
1 and resets RF_SAFE_CAUSE. VBAT_LOW and XTAL_OK_CHANGE set their bit of HG_BK_STAT and change nothing else. -/
def Obligations.BackupCounter : Prop :=
  (∀ (iid : Iid) (s : State), s.writeOk iid HG_BK_CTL = true → Completes (.backupLoad iid) s fun t =>
    if iid = 9 then t = { s with hg := { s.hg with bkSec := s.reg HG_BK_SET_SEC, bkSub := 0, bkAcc := 0 } }
    else OnlyRegs s t ∧ t.reg GLB_FAULT_LAST = BitVec.ofNat 32 (0x100D + iid.toNat * 0x10000)) ∧
  (∀ s : State, Completes .backupPowerOn s fun t =>
    t.hg.bkSec = 0 ∧ t.hg.bkSub = 0 ∧ t.is HG_BK_STAT_LOST = true ∧ t.reg RF_SAFE_CAUSE = 0 ∧ t.hg.dt = s.hg.dt ∧
    RegsKept [HG_BK_STAT, RF_SAFE_CAUSE] s t) ∧
  (∀ (b : Bool) (s : State),
    (Completes (.vbatLow b) s fun t => OnlyRegs s t ∧ t.is HG_BK_STAT_VBAT_LOW = b ∧
      t.is HG_BK_STAT_LOST = s.is HG_BK_STAT_LOST ∧ RegsKept [HG_BK_STAT] s t) ∧
    (Completes (.xtalOkChange b) s fun t => OnlyRegs s t ∧ t.is HG_BK_STAT_XTAL_OK = b ∧
      t.is HG_BK_STAT_LOST = s.is HG_BK_STAT_LOST ∧ RegsKept [HG_BK_STAT] s t))

/-- For an admitted write of SP_STR_SRC: STREAM_ENABLE of a disabled stream whose configuration is in range sets EN, takes the
written source fields, sets SEQ to 0 and, where no frame lands, makes every slot FREE; one whose configuration is out of
range leaves EN at 0 and reports 0x200B. A write that keeps EN at 1, or that changes another field while EN is 1, is
reported with 0x2008 and changes no other field. STREAM_DISABLE clears EN and nothing else, so a frame that lands goes on. -/
def Obligations.StreamsEnableAndDisable : Prop :=
  ∀ (iid : Iid) (n : Fin 64) (v : Word) (s : State), s.writeOk iid (SP_STR_SRC n) = true →
    (s.is (SP_STR_SRC_EN n) = false → v.getLsbD 0 = true → (s.setReg (SP_STR_SRC n) (v &&& srcMask)).streamCfgOk n = true →
      Completes (.streamEnable iid n v) s fun t =>
        t.reg (SP_STR_SRC n) = (v &&& srcMask) ||| 1 ∧ t.reg (SP_STR_SEQ n) = 0 ∧
        ((s.stream n).opened = none →
          (t.stream n).slots = List.replicate (s.get (SP_STR_SLOT_COUNT n)) {} ∧
          (t.stream n).order = List.range (s.get (SP_STR_SLOT_COUNT n))) ∧
        (∀ m : Nat, m ≠ n → t.stream m = s.stream m) ∧ RegsKept [SP_STR_SRC n, SP_STR_SEQ n] s t) ∧
    (s.is (SP_STR_SRC_EN n) = false → v.getLsbD 0 = true → (s.setReg (SP_STR_SRC n) (v &&& srcMask)).streamCfgOk n = false →
      Completes (.streamEnable iid n v) s fun t =>
        OnlyRegs s t ∧ t.is (SP_STR_SRC_EN n) = false ∧ t.reg GLB_FAULT_LAST = BitVec.ofNat 32 (0x200B + iid.toNat * 0x10000)) ∧
    (s.is (SP_STR_SRC_EN n) = true → v.getLsbD 0 = true → Completes (.streamEnable iid n v) s fun t =>
      OnlyRegs s t ∧ t.reg GLB_FAULT_LAST = BitVec.ofNat 32 (0x2008 + iid.toNat * 0x10000) ∧
      RegsKept [GLB_FAULT_FIRST, GLB_FAULT_LAST, GLB_FAULT_COUNT] s t) ∧
    (s.is (SP_STR_SRC_EN n) = true → v.getLsbD 0 = false → v &&& srcMask = s.reg (SP_STR_SRC n) &&& srcMask →
      Completes (.streamDisable iid n v) s fun t =>
        OnlyRegs s t ∧ t.is (SP_STR_SRC_EN n) = false ∧
        t.reg (SP_STR_SRC n) &&& srcMask = s.reg (SP_STR_SRC n) &&& srcMask ∧ RegsKept [SP_STR_SRC n] s t)

/-- On an enabled port with a good header, for a virtual channel that exactly one stream takes: FRAME_START on an enabled stream
with no frame landing and a FREE slot whose last frame has been judged makes the slot freed longest ago LANDING, opens there
a frame with the stamp, the frame number and SEQ, sets OPEN, and counts SEQ; with no FREE slot it counts SP_STR_DROP and SEQ
and reports 0x2005. FRAME_END of a frame with all its lines, while turns do not run, closes it COMPLETE in its slot with the
end's stamp, to be judged, and clears OPEN; of a short one it reports 0x2007 as well. A packet that no stream takes counts
UNMATCHED; one whose header is uncorrectable counts ECC_UNC, reports 0x2001 and does nothing else. -/
def Obligations.FramesOpenAndClose : Prop :=
  ∀ (p : Fin 8) (vc : Fin 16) (num : BitVec 16) (s : State), s.is (SP_PORT_CFG_EN p) = true →
    (∀ (n dt k : Nat) (r : List Nat), s.streamsOf p vc 64 = [(n, dt)] → (s.stream n).opened = none →
      s.is (SP_STR_SRC_EN n) = true → (s.stream n).order = k :: r → (((s.stream n).slots.getD k {}).toJudge = false) →
      Completes (.frameStart p vc num .ok) s fun t =>
        (∃ f, (t.stream n).opened = some (k, f) ∧ f.fs = s.hg.dt - (s.reg (SP_PORT_LAT p)).toNat * 256 ∧ f.num = num.toNat ∧
          f.seq = (s.reg (SP_STR_SEQ n)).toNat ∧ f.src = s.reg (SP_STR_SRC n) ∧ f.rows = 0) ∧
        (t.stream n).slots = listSet (s.stream n).slots k { st := .landing } ∧ t.is (SP_STR_STAT_OPEN n) = true ∧
        t.reg (SP_STR_SEQ n) = s.reg (SP_STR_SEQ n) + 1) ∧
    (∀ (n dt : Nat), s.streamsOf p vc 64 = [(n, dt)] → (s.stream n).opened = none → s.is (SP_STR_SRC_EN n) = true →
      (s.stream n).order = [] → Completes (.frameStart p vc num .ok) s fun t =>
        OnlyRegs s t ∧ (t.reg (SP_STR_DROP n)).toNat = min ((s.reg (SP_STR_DROP n)).toNat + 1) 0xFFFFFFFF ∧
        t.reg (SP_STR_SEQ n) = s.reg (SP_STR_SEQ n) + 1 ∧ t.reg GLB_FAULT_LAST = 0x102005) ∧
    (∀ (n dt k : Nat) (f : SpFrame), s.streamsOf p vc 64 = [(n, dt)] → (s.stream n).opened = some (k, f) → s.turnsRun = false →
      k < (s.stream n).slots.length → Completes (.frameEnd p vc num .ok) s fun t =>
        (t.stream n).opened = none ∧ t.is (SP_STR_STAT_OPEN n) = false ∧
        (∃ sl, (t.stream n).slots[k]? = some sl ∧ sl.st = .landed ∧ sl.toJudge = true ∧ sl.frame.flag 0 = true ∧
          sl.frame.fe = s.hg.dt - (s.reg (SP_PORT_LAT p)).toNat * 256 ∧ sl.frame.fs = f.fs) ∧
        (f.lines < f.expLines → t.reg GLB_FAULT_LAST = 0x102007)) ∧
    (s.streamsOf p vc 64 = [] →
      (Completes (.frameStart p vc num .ok) s fun t => OnlyRegs s t ∧ RegsKept [SP_PORT_ERR p] s t ∧
        t.get (SP_PORT_ERR_UNMATCHED p) = min (s.get (SP_PORT_ERR_UNMATCHED p) + 1) (2 ^ (SP_PORT_ERR_UNMATCHED p).w - 1)) ∧
      (Completes (.frameEnd p vc num .ok) s fun t => OnlyRegs s t ∧ RegsKept [SP_PORT_ERR p] s t)) ∧
    (Completes (.frameStart p vc num .uncorrectable) s fun t => OnlyRegs s t ∧ t.reg GLB_FAULT_LAST = 0x102001 ∧
      RegsKept [SP_PORT_ERR p, GLB_FAULT_FIRST, GLB_FAULT_LAST, GLB_FAULT_COUNT] s t)

/-- On an enabled port with a good header, and while the Weft is disabled: a packet with a supported data type and a good CRC
for a framed stream that lands a frame, whose line fits the slot and overlaps no other user's allocation, puts the line, cut
to the line stride, at the frame's address plus 64 plus rows times the stride, leaves every other byte of the Frame Store as
it was, and counts the row, the line and the bytes; no other stream changes. PHY_SYNC on an enabled port counts a
synchronisation error, or for a skew calibration clears DESKEW_OK, and reports 0x2003; nothing lands. -/
def Obligations.LinesLandInTheFrameStore : Prop :=
  (∀ (p : Fin 8) (vc : Fin 16) (dt : BitVec 6) (payload : List Byte) (e : MemErr) (n k : Nat) (f : SpFrame) (s : State),
    s.is (SP_PORT_CFG_EN p) = true → dtSupported dt.toNat = true →
    (s.streamsOf p vc 64).find? (fun q => q.2 == dt.toNat) = some (n, dt.toNat) → (s.stream n).opened = some (k, f) →
    f.format ≠ 3 → f.format ≠ 4 → s.is WF_CTL_EN = false →
    let stride := bitsOf f.fmt.toNat 8 16 * 64
    let line := payload.take stride
    let a := f.addr + 64 + f.rows * stride
    64 + f.rows * stride + line.length ≤ f.cap → a + line.length ≤ fsSize →
    (∀ x ∈ s.fsOthers n 70, x.1 + x.2 ≤ a ∨ a + line.length ≤ x.1) →
    Completes (.longPacket p vc dt payload true .ok e) s fun t =>
      (∀ i, i < line.length → spGet fsUnset t.fs (a + i) = line.getD i 0) ∧
      (∀ b, b < a ∨ a + line.length ≤ b → spGet fsUnset t.fs b = spGet fsUnset s.fs b) ∧
      (∃ g, (t.stream n).opened = some (k, g) ∧ g.rows = f.rows + 1 ∧ g.lines = min (f.lines + 1) 65535 ∧
        g.bytes = f.bytes + line.length ∧ g.flags = f.flags) ∧ ∀ m, m ≠ n → t.stream m = s.stream m) ∧
  (∀ (p : Fin 8) (skew : Bool) (s : State), s.is (SP_PORT_CFG_EN p) = true → Completes (.phySync p skew) s fun t =>
    OnlyRegs s t ∧ t.reg GLB_FAULT_LAST = 0x102003 ∧
    (skew = true → t.is (SP_PORT_STAT_DESKEW_OK p) = false ∧ t.reg (SP_PORT_ERR p) = s.reg (SP_PORT_ERR p)) ∧
    (skew = false → t.get (SP_PORT_ERR_SYNC p) = min (s.get (SP_PORT_ERR_SYNC p) + 1) (2 ^ (SP_PORT_ERR_SYNC p).w - 1)))

/-- FRAME_JUDGE of a frame that waits to be judged, where the Referee does not run: the frame takes CLEARED where it passes
every check and NOT_CLEARED where it does not; it no longer waits; it becomes the predecessor; and where it belongs to no
turn of the turns that run, its slot is FREE, last in the order. A frame whose number equals its predecessor's, where the
entry checks numbers, does not pass; one that is not COMPLETE does not pass. FRAME_JUDGE of a slot that waits for nothing
changes nothing. -/
def Obligations.FramesAreJudgedOnce : Prop :=
  (∀ (n : Fin 64) (k : Fin 8) (sl : SpSlot) (s : State), (s.stream n).slots[k.val]? = some sl → sl.toJudge = true → s.ref.running = false →
    let v := judge sl.frame (s.stream n).pred (s.stream n).run
    Completes (.frameJudge n k) s fun t =>
      (t.stream n).pred = some ⟨sl.frame.num, sl.frame.trigFired, sl.frame.sig⟩ ∧
      (∃ x, (t.stream n).slots[k.val]? = some x ∧ x.toJudge = false ∧
        (s.ofNoTurn sl.frame = true → x.st = .free ∧ (t.stream n).order = (s.stream n).order ++ [k.val]) ∧
        (s.ofNoTurn sl.frame = false → x.st = sl.st ∧ x.frame = sl.frame.setFlag (if v.ok then 6 else 7)))) ∧
  (∀ (n : Fin 64) (k : Fin 8) (sl : SpSlot) (s : State), (s.stream n).slots[k.val]? = some sl → sl.toJudge = false →
    exec (.frameJudge n k) s = .next s) ∧
  (∀ (f : SpFrame) (q : SpPred) (run : Nat), leAt f.entry 0 1 / 4 % 4 ≠ 0 → f.num = q.num →
    (judge f (some q) run).ok = false ∧ 0x2041 ∈ (judge f (some q) run).codes) ∧
  (∀ (f : SpFrame) (p : Option SpPred) (run : Nat), f.flag 0 = false → (judge f p run).ok = false)

/-- For an admitted IMU_ENABLE whose CMD_LEN is at most 4: the slot takes the written fields; entering PERIOD mode enabled, its
first read is due at this instant. IMU_DRDY_EDGE on an enabled DRDY slot starts a read stamped with this instant, or, with a
read in progress, starts none, sets OVERRUN and reports 0x2021. IMU_PERIOD_TICK with no read in progress runs Device Time on
to the scheduled instant, starts a read stamped with it at the latest, and schedules the next one PER later.
IMU_READ_COMPLETE of exactly READ_LEN bytes ends the read, advances HEAD by one record within the ring, and counts SEQ.
IMU_TIMEOUT of an enabled DRDY slot that has not been reported sets TIMEOUT and reports 0x2020 once. -/
def Obligations.ImuReadsAndTimeouts : Prop :=
  (∀ (iid : Iid) (i : Fin 4) (v : Word) (s : State), s.writeOk iid (SP_IMU_CFG i) = true → bitsOf v.toNat 8 3 ≤ 4 →
    Completes (.imuEnable iid i v) s fun t =>
      t.reg (SP_IMU_CFG i) &&& 0x1F0707 = v &&& 0x1F0707 ∧
      (v.getLsbD 0 = true → v.getLsbD 1 = true → s.imuMode i true = false → (t.imu i).next = some s.hg.dt) ∧
      (v.getLsbD 0 = false → (t.imu i).next = none) ∧ RegsKept [SP_IMU_CFG i] s t) ∧
  (∀ (i : Fin 4) (s : State), s.imuMode i false = true →
    ((s.imu i).cur = none → Completes (.imuDrdyEdge i) s fun t =>
      (t.imu i).cur = some s.hg.dt ∧ (t.imu i).inTimeout = false ∧ t.regs = s.regs) ∧
    ((s.imu i).cur.isSome = true → Completes (.imuDrdyEdge i) s fun t =>
      (t.imu i).cur = (s.imu i).cur ∧ t.is (SP_IMU_STAT_OVERRUN i) = true ∧ t.reg GLB_FAULT_LAST = 0x102021)) ∧
  (∀ (i : Fin 4) (u : Nat) (s : State), (s.imu i).next = some u → (s.imu i).cur = none → s.hg.running = true → s.hg.dt ≤ u →
    Completes (.imuPeriodTick i) s fun t =>
      t.hg.dt = u ∧ (t.imu i).cur = some u ∧ (t.imu i).next = some (u + (s.reg (SP_IMU_PER i)).toNat * 256)) ∧
  (∀ (i : Fin 4) (u : Nat) (data : List Byte) (s : State), (s.imu i).cur = some u →
    data.length = s.get (SP_IMU_CFG_READ_LEN i) + 1 → Completes (.imuReadComplete i data) s fun t =>
      (t.imu i).cur = none ∧ (t.imu i).seq = ((s.imu i).seq + 1) % 2 ^ 32 ∧
      t.get (SP_IMU_STAT_HEAD i) = (s.get (SP_IMU_STAT_HEAD i) % (256 * 2 ^ s.get (SP_IMU_RING_SIZE i)) + 1) %
        (256 * 2 ^ s.get (SP_IMU_RING_SIZE i)) % 1024) ∧
  (∀ (i : Fin 4) (s : State), s.imuMode i false = true → (s.imu i).said = false → Completes (.imuTimeout i) s fun t =>
    t.is (SP_IMU_STAT_TIMEOUT i) = true ∧ t.reg GLB_FAULT_LAST = 0x102020 ∧ (t.imu i).said = true)

/-- For admitted writes of SP_CAN_TXC: CAN_TX_REQUEST of a valid length, with the frame's format enabled, sets REQ, and in
bus-off HELD; of an invalid length it reports 0x200B and leaves REQ. CAN_TX_ABORT of a pending mailbox that has not entered
arbitration clears REQ and sets ABORTED. CAN_TX_DONE on the bus sets DONE, clears REQ, sends the frame and lowers TEC by 1.
CAN_BUS_ERROR of a transmitter whose counters stay at most 127 adds 8 to TEC; one that takes TEC beyond 255 enters BUS_OFF,
sets BOFF and reports 0x2031. CAN_RECOVER in bus-off starts the count; CAN_RECOVERY_COMPLETE clears both counters, STATE and
RECOVERING; CAN_DISABLE during bus-off aborts every pending mailbox. -/
def Obligations.CanTransmitAndConfinement : Prop :=
  (∀ (iid : Iid) (c : Fin 2) (k : Fin 16) (v : Word) (s : State), s.writeOk iid (SP_CAN_TXC c k) = true →
    (v.getLsbD 8 = true → v.getLsbD 9 = false → (bitsOf v.toNat 0 7 ≤ 8 ∨ bitsOf v.toNat 0 7 ∈ [12, 16, 20, 24, 32, 48, 64]) →
      s.is (SP_CAN_TXH_FDF c k) = false → s.is (SP_CAN_TXH_BRS c k) = false → Completes (.canTxRequest iid c k v) s fun t =>
        t.is (SP_CAN_TXC_REQ c k) = true ∧ t.get (SP_CAN_TXC_LEN c k) = bitsOf v.toNat 0 7 ∧
        (s.busOff c = true → t.is (SP_CAN_TXC_HELD c k) = true) ∧
        RegsKept [SP_CAN_TXC c k] s t) ∧
    (v.getLsbD 8 = true → v.getLsbD 9 = false → ¬ (bitsOf v.toNat 0 7 ≤ 8 ∨ bitsOf v.toNat 0 7 ∈ [12, 16, 20, 24, 32, 48, 64]) →
      Completes (.canTxRequest iid c k v) s fun t => OnlyRegs s t ∧
        t.is (SP_CAN_TXC_REQ c k) = s.is (SP_CAN_TXC_REQ c k) ∧
        t.reg GLB_FAULT_LAST = BitVec.ofNat 32 (0x200B + iid.toNat * 0x10000)) ∧
    (v.getLsbD 8 = false → v.getLsbD 9 = true → s.is (SP_CAN_TXC_REQ c k) = true → (s.can c).tx ≠ some k.val →
      Completes (.canTxAbort iid c k v) s fun t =>
        t.is (SP_CAN_TXC_REQ c k) = false ∧ t.is (SP_CAN_TXC_ABORTED c k) = true ∧ RegsKept [SP_CAN_TXC c k] s t)) ∧
  (∀ (c : Fin 2) (k : Fin 16) (s : State), s.is (SP_CAN_CTL_EN c) = true → s.busOff c = false →
    s.is (SP_CAN_TXC_REQ c k) = true → s.get (SP_CAN_ECNT_TEC c) ≤ 255 → Completes (.canTxDone c k) s fun t =>
      t.is (SP_CAN_TXC_DONE c k) = true ∧ t.is (SP_CAN_TXC_REQ c k) = false ∧ t.outbox = .canFrame c k :: s.outbox ∧
      t.get (SP_CAN_ECNT_TEC c) = s.get (SP_CAN_ECNT_TEC c) - 1) ∧
  (∀ (c : Fin 2) (kind : Fin 5) (severe : Bool) (s : State), s.is (SP_CAN_CTL_EN c) = true → s.busOff c = false →
    s.get (SP_CAN_ECNT_STATE c) = 0 →
    (s.get (SP_CAN_ECNT_TEC c) + 8 ≤ 127 → s.get (SP_CAN_ECNT_REC c) ≤ 127 → Completes (.canBusError c kind true severe) s fun t =>
      OnlyRegs s t ∧ t.get (SP_CAN_ECNT_TEC c) = s.get (SP_CAN_ECNT_TEC c) + 8 ∧ t.get (SP_CAN_ECNT_STATE c) = 0 ∧
      t.get (SP_CAN_STAT_LAST_ERR c) = kind + 1 ∧ RegsKept [SP_CAN_ECNT c, SP_CAN_STAT c] s t) ∧
    (255 < s.get (SP_CAN_ECNT_TEC c) + 8 → Completes (.canBusError c kind true severe) s fun t =>
      t.get (SP_CAN_ECNT_STATE c) = 2 ∧ t.is (SP_CAN_STAT_BOFF c) = true ∧ (t.can c).tx = none ∧
      t.reg GLB_FAULT_LAST = 0x102031)) ∧
  (∀ (iid : Iid) (c : Fin 2) (v : Word) (s : State), s.writeOk iid (SP_CAN_CTL c) = true → s.busOff c = true →
    (v.getLsbD 0 = true → v.getLsbD 4 = true → Completes (.canRecover iid c v) s fun t =>
      t.is (SP_CAN_STAT_RECOVERING c) = true ∧ t.is (SP_CAN_CTL_RECOVER c) = true ∧ t.reg (SP_CAN_ECNT c) = s.reg (SP_CAN_ECNT c)) ∧
    (s.is (SP_CAN_CTL_EN c) = true → v.getLsbD 0 = false → Completes (.canDisable iid c v) s fun t =>
      t.is (SP_CAN_CTL_EN c) = false ∧
      ∀ k : Fin 16, t.is (SP_CAN_TXC_REQ c k) = false ∧
        (s.is (SP_CAN_TXC_REQ c k) = true → t.is (SP_CAN_TXC_ABORTED c k) = true))) ∧
  (∀ (c : Fin 2) (s : State), s.is (SP_CAN_STAT_RECOVERING c) = true → s.is (SP_CAN_CTL_EN c) = true →
    Completes (.canRecoveryComplete c) s fun t =>
      t.reg (SP_CAN_ECNT c) = 0 ∧ t.is (SP_CAN_STAT_RECOVERING c) = false ∧ t.is (SP_CAN_CTL_RECOVER c) = false ∧
      ∀ k : Fin 16, t.is (SP_CAN_TXC_HELD c k) = false)

/-- With the controller on the bus, an error-active REC, no frame held and the fabric running: CAN_FRAME_RECEIVE of a data frame
that mailbox m is the first to take advances the log head by one entry within the ring, puts the entry's index in the
mailbox's LAST, counts its silence from now, and lowers REC by 1; of one that no mailbox takes it counts RX_DISCARD and
lands nothing. CAN_RX_TIMEOUT of a watched mailbox not yet reported sets TIMEOUT and reports 0x2032. -/
def Obligations.CanReceiveAndSilence : Prop :=
  (∀ (c : Fin 2) (f : CanFrame) (s : State), s.is (SP_CAN_CTL_EN c) = true → s.busOff c = false → f.fdf = false → f.rtr = false →
    s.get (SP_CAN_ECNT_TEC c) ≤ 127 → s.get (SP_CAN_ECNT_REC c) ≤ 127 → s.pwr.held = [] → s.get MC_PWR_STAT_STATE = 0 →
    (∀ m : Nat, s.canMailbox c f 64 = some m → Completes (.canFrameReceive c f) s fun t =>
      (t.reg (SP_CAN_LOGHEAD c)).toNat = ((s.reg (SP_CAN_LOGHEAD c)).toNat % (256 * 2 ^ s.get (SP_CAN_LOG_SIZE c)) + 1) %
        (256 * 2 ^ s.get (SP_CAN_LOG_SIZE c)) ∧
      (t.canRx c m).since = s.hg.dt ∧ (t.canRx c m).said = false ∧
      t.get (SP_CAN_ECNT_REC c) = s.get (SP_CAN_ECNT_REC c) - 1 ∧ (t.can c).logSeq = ((s.can c).logSeq + 1) % 2 ^ 32) ∧
    (s.canMailbox c f 64 = none → Completes (.canFrameReceive c f) s fun t =>
      t.get (SP_CAN_STAT_RX_DISCARD c) = min (s.get (SP_CAN_STAT_RX_DISCARD c) + 1) 0xFFFF ∧ t.fs = s.fs ∧
      t.reg (SP_CAN_LOGHEAD c) = s.reg (SP_CAN_LOGHEAD c))) ∧
  (∀ (c : Fin 2) (m : Fin 64) (s : State), s.canWatched c m = true → (s.canRx c m).said = false →
    Completes (.canRxTimeout c m) s fun t =>
      t.is (SP_CAN_RXS_TIMEOUT c m) = true ∧ t.reg GLB_FAULT_LAST = 0x102032 ∧ (t.canRx c m).said = true)

/-- An admitted I2C_COMMAND_PUSH enters a command last in a FIFO of 64; at a full FIFO it sets OVF and enters nothing.
I2C_COMMAND_EXECUTE on an enabled controller that no AT holds takes the first command: a START sets BUSY and a STOP clears
it, each going out on the bus, a read with room enters the byte in the read FIFO, and an AT whose instant lies ahead holds
the FIFO. I2C_AT_FIRE of a held FIFO runs Device Time on to the instant and releases it. I2C_NACK in a transfer sends a
STOP, clears BUSY, sets NACK, reports 0x2038 and discards the commands up to and including the next queued STOP; I2C_TIMEOUT
in a transfer does the same with TIMEOUT and 0x2039. An admitted I2C_RXD_POP returns the oldest byte with VALID and takes
it. -/
def Obligations.I2cControllers : Prop :=
  (∀ (iid : Iid) (k : Fin 4) (v : Word) (s : State), s.writeOk iid (SP_I2C_CMD k) = true → (s.i2c k).skip = false →
    ((s.i2c k).cmds.length < 64 → Completes (.i2cCommandPush iid k v) s fun t =>
      (t.i2c k).cmds = (s.i2c k).cmds ++ [v.toNat % 4096] ∧ t.regs = s.regs) ∧
    (64 ≤ (s.i2c k).cmds.length → Completes (.i2cCommandPush iid k v) s fun t =>
      OnlyRegs s t ∧ t.is (SP_I2C_STAT_OVF k) = true ∧ RegsKept [SP_I2C_STAT k] s t)) ∧
  (∀ (k : Fin 4) (rd : Byte) (c : Nat) (r : List Nat) (s : State), s.is (SP_I2C_CFG_EN k) = true → (s.i2c k).atHold = false →
    (s.i2c k).cmds = c :: r →
    (bitsOf c 8 4 ≤ 5 → Completes (.i2cCommandExecute k rd) s fun t =>
      (t.i2c k).cmds = r ∧ t.outbox = .i2c k (bitsOf c 8 4) (c % 256) :: s.outbox ∧
      (bitsOf c 8 4 ≤ 1 → t.is (SP_I2C_STAT_BUSY k) = true) ∧ (bitsOf c 8 4 = 5 → t.is (SP_I2C_STAT_BUSY k) = false) ∧
      (bitsOf c 8 4 = 3 ∨ bitsOf c 8 4 = 4 → (s.i2c k).rxd.length < 64 → (t.i2c k).rxd = (s.i2c k).rxd ++ [rd])) ∧
    (bitsOf c 8 4 = 6 → cmpDiff s.now (s.i2cAt k) < 0 → Completes (.i2cCommandExecute k rd) s fun t =>
      (t.i2c k).cmds = r ∧ (t.i2c k).atHold = true ∧ t.outbox = s.outbox)) ∧
  (∀ (k : Fin 4) (s : State), (s.i2c k).atHold = true → s.hg.running = true → cmpDiff s.now (s.i2cAt k) < 0 →
    Completes (.i2cAtFire k) s fun t =>
      (t.i2c k).atHold = false ∧ (t.i2c k).cmds = (s.i2c k).cmds ∧ t.hg.dt = cmpInstant s.now (s.i2cAt k) * 256) ∧
  (∀ (k : Fin 4) (a b : List Nat) (c : Nat) (s : State), s.is (SP_I2C_STAT_BUSY k) = true → (s.i2c k).cmds = a ++ c :: b →
    (∀ x ∈ a, bitsOf x 8 4 ≠ 5) → bitsOf c 8 4 = 5 →
    (Completes (.i2cNack k) s fun t => (t.i2c k).cmds = b ∧ t.is (SP_I2C_STAT_BUSY k) = false ∧ t.is (SP_I2C_STAT_NACK k) = true ∧
      t.outbox = .i2c k 5 0 :: s.outbox ∧ t.reg GLB_FAULT_LAST = 0x102038) ∧
    (Completes (.i2cTimeout k) s fun t => (t.i2c k).cmds = b ∧ t.is (SP_I2C_STAT_BUSY k) = false ∧
      t.is (SP_I2C_STAT_TIMEOUT k) = true ∧ t.outbox = .i2c k 5 0 :: s.outbox ∧ t.reg GLB_FAULT_LAST = 0x102039)) ∧
  (∀ (iid : Iid) (k : Fin 4) (b : Byte) (r : List Byte) (s : State), s.readOk iid (SP_I2C_RXD k) = true → (s.i2c k).rxd = b :: r →
    Completes (.i2cRxdPop iid k) s fun t =>
      (t.i2c k).rxd = r ∧ t.outbox = .readData iid (SP_I2C_RXD k) (BitVec.ofNat 64 (b.toNat + 256)) :: s.outbox)

/-- With the MAC enabled: a frame with a bad check sequence changes nothing but SP_ETH_STAT.FCS_ERR; a frame that is too long,
carries two tags or is addressed to nobody here changes nothing; a good frame that is neither PTP nor UDP goes, without its
tag, to the MC receive queue, or, where that is full, into MC_DROP (whether it is full is a free value, log entry 2: the
clause holds for both). ETH_FRAME_TRANSMIT of a frame that is no PTP message leaves at once while the lock holds, and waits,
stamped with this instant, while it does not. ETH_SERDES_LOCK_LOSS drops the lock and nothing else; ETH_SERDES_LOCK_RETURN
sends what waits, in order, and leaves nothing waiting. PTP_TX_DROP takes away the PTP message that has waited longest, at
the instant at which it has waited 200 µs, counts it in TX_DROP, reports 0x1009, and leaves every other frame waiting. -/
def Obligations.EthernetFramesMove : Prop :=
  (∀ (f : List Byte) (s : State), s.is SP_ETH_CFG_EN = true →
    (Completes (.ethFrameReceive f false) s fun t => OnlyRegs s t ∧ RegsKept [SP_ETH_STAT] s t ∧
      t.get SP_ETH_STAT_FCS_ERR = min (s.get SP_ETH_STAT_FCS_ERR + 1) (2 ^ SP_ETH_STAT_FCS_ERR.w - 1)) ∧
    ((9216 < f.length ∨ (ethParse f).bad = true ∨ s.ethForMe f = false) → exec (.ethFrameReceive f true) s = .next s) ∧
    (f.length ≤ 9216 → (ethParse f).bad = false → s.ethForMe f = true → ptpAt f = none → (ethParse f).udp = none →
      Completes (.ethFrameReceive f true) s fun t =>
        (t.eth.mcRx = s.eth.mcRx ++ [untag f] ∧ t.regs = s.regs) ∨
        (t.eth = s.eth ∧ RegsKept [SP_ETH_STAT] s t ∧
          t.get SP_ETH_STAT_MC_DROP = min (s.get SP_ETH_STAT_MC_DROP + 1) (2 ^ SP_ETH_STAT_MC_DROP.w - 1))) ∧
    (∀ o : Bool, s.eth.locked = true → ptpAt f = none → Completes (.ethFrameTransmit f o) s fun t =>
      t = { s with outbox := .ethFrame f :: s.outbox }) ∧
    (∀ o : Bool, s.eth.locked = false → Completes (.ethFrameTransmit f o) s fun t =>
      t = { s with eth := { s.eth with txWait := s.eth.txWait ++ [(s.hg.dt, o, f)] } })) ∧
  (∀ s : State, Completes .ethSerdesLockLoss s fun t => t = { s with eth := { s.eth with locked := false } }) ∧
  (∀ s : State, Completes .ethSerdesLockReturn s fun t => t.eth.locked = true ∧ t.eth.txWait = [] ∧ t.eth.mcRx = s.eth.mcRx ∧
    ((∀ w ∈ s.eth.txWait, ptpAt w.2.2 = none) →
      t.outbox = (s.eth.txWait.map fun w => Out.ethFrame w.2.2).reverse ++ s.outbox ∧ t.regs = s.regs)) ∧
  (∀ (u : Nat) (q : List (Nat × Bool × List Byte)) (s : State), s.eth.locked = false → takePtp s.eth.txWait = some (u, q) →
    Completes .ptpTxDrop s fun t => t.eth = { s.eth with txWait := q } ∧ t.reg GLB_FAULT_LAST = 0x91009 ∧
      RegsKept [HG_TS_STAT, GLB_FAULT_FIRST, GLB_FAULT_LAST, GLB_FAULT_COUNT] s t ∧
      t.get HG_TS_STAT_TX_DROP = min (s.get HG_TS_STAT_TX_DROP + 1) (2 ^ HG_TS_STAT_TX_DROP.w - 1) ∧
      t.hg.dt = if s.hg.running then max s.hg.dt (u + 51200000) else s.hg.dt)

/-- HOLDOVER_EXPIRY while holdover runs advances to the instant at which it reaches HOLD_MAX and demands F4. ME_INPUT_PROCESS
takes the next input by its stamp off the queue, once its window has passed, and not before: an IMU sample of the primary
slot that is neither stale nor beyond a limit moves the state to its stamp by the propagation of R193, and resets it and
counts ME_RESETS where the trace then exceeds COV_MAX; a stale one leaves the state as it was, and is counted and reported
with 0x3013. ZERO_VELOCITY_UPDATE with an enabled wheel that has stood marks the update of R194. ME_RESET with RESET resets
the state, discards the clone and counts. ME_TURN_UPDATE of the oldest ended turn completes it: without an Ego Record where
the ME does not run; where it runs and the detections are absent, with the record that it has written; and it waits for
ABORT or a relaunch where the read faults. The formulas stand in Motion.lean, their rounding is open (log entry 2). -/
def Obligations.MotionInputsUpdateTheState : Prop :=
  (∀ (u : Nat) (s : State), s.fresh.holdSince = some u → Completes .holdoverExpiry s fun t =>
    t.fresh.expired = true ∧ 4 ≤ t.fresh.demand ∧ s.fresh.demand ≤ t.fresh.demand ∧ t.regs = s.regs ∧
    t.hg.dt = if s.hg.running then max s.hg.dt (u + s.holdMax * 256000000) else s.hg.dt) ∧
  (∀ (x : MeInput) (s : State), nextInput s.me.queue = some x →
    (s.hg.dt < x.stamp + (s.reg ME_WINDOW).toNat * 256000 → exec .meInputProcess s = .next s) ∧
    (∀ tab : Table, s.meOn = true → x.stamp + (s.reg ME_WINDOW).toNat * 256000 ≤ s.hg.dt →
      tableAt s.me.past s.me.tab x.stamp = some tab → x.imu = true → x.unit = leAt tab.bytes 16 1 →
      let e := motImu tab.bytes x.unit
      (x.stamp < s.me.time → Completes .meInputProcess s fun t =>
        t.me = { s.me with queue := s.me.queue.erase x } ∧ t.reg GLB_FAULT_LAST = 0x123013 ∧
        t.get ME_REJECT_STALE = min (s.get ME_REJECT_STALE + 1) (2 ^ ME_REJECT_STALE.w - 1)) ∧
      (s.me.time ≤ x.stamp → ((List.range 6).any fun k => beyond (imuRaw e x.data k) (leAt e (if k < 3 then 8 else 12) 4)
          (leAt e (if k < 3 then 32 else 36) 4)) = false →
        Completes .meInputProcess s fun t =>
          let n := mePropagate tab.bytes s.me.num (x.unit :: (List.range 6).map fun k => unsign 32 (imuRaw e x.data k))
            (x.stamp - s.me.time)
          t.me.queue = s.me.queue.erase x ∧ t.me.time = x.stamp ∧ t.me.used = s.me.used ||| 1 ∧
          if fpCmp (fpDecode .fp32 (leAt tab.bytes 40 4)) (fpDecode .fp64 (meTrace n)) = -1 then
            t.me.wasReset = true ∧ t.me.clones = [] ∧ t.reg GLB_FAULT_LAST = 0x123014 ∧
            (t.reg ME_RESETS).toNat = min ((s.reg ME_RESETS).toNat + 1) 0xFFFFFFFF
          else t.me.num = n ∧ t.me.clones = s.me.clones ∧ t.regs = s.regs))) ∧
  (∀ (tab : Table) (s : State), s.me.tab = some tab → s.meOn = true → wheelsOn tab.bytes ≠ [] →
    (∀ w ∈ wheelsOn tab.bytes, (spGet (fun _ => none) s.me.wheels w).isSome = true) → Completes .zeroVelocityUpdate s fun t =>
      t.me.used = s.me.used ||| 8 ∧ t.me.queue = s.me.queue ∧ t.me.time = s.me.time) ∧
  (∀ (iid : Iid) (v : Word) (s : State), s.writeOk iid ME_CTL = true → v.getLsbD 0 = true → v.getLsbD 1 = true → s.meOn = true →
    Completes (.meReset iid v) s fun t =>
      (∃ a, t.me.num = meReset s.me.num a s.rearSpeeds) ∧ t.me.wasReset = true ∧ t.me.clones = [] ∧
      (t.reg ME_RESETS).toNat = min ((s.reg ME_RESETS).toNat + 1) 0xFFFFFFFF ∧ RegsKept [ME_CTL, ME_RESETS] s t) ∧
  (∀ (x : TurnRec) (s : State), s.firstTurn (fun y => y.ended && !y.meDone && !y.held) = some x →
    (s.me.tab = none → Completes .meTurnUpdate s fun t =>
      t = s.modTurn x fun y => { y with meDone := true, motGen := 0, ego := [] }) ∧
    (∀ (m p : Table) (s1 s2 : State) (r : VRes), s.me.tab = some m → s.weft.tab = some p → s.meOn = true →
      (s.detections (patTenant p.bytes) (leAt m.bytes 0 8 + x.turn % 2 * 4096) = (s1, none) →
        Completes .meTurnUpdate s fun t => t.loom = (s1.modTurn x fun y => { y with held := true }).loom) ∧
      (s.detections (patTenant p.bytes) (leAt m.bytes 0 8 + x.turn % 2 * 4096) = (s1, some none) →
        s1.tenantWrite meIid (patTenant p.bytes) (leAt m.bytes 8 8 + x.turn % 2 * 4096) (s1.egoRecord ++ s1.trackList x.turn) {} =
          (s2, r) → r.fault = none → Completes .meTurnUpdate s fun t =>
          t.me = { s2.me with last := s2.me.used, used := 0, wasReset := false } ∧
          t.loom = (s2.modTurn x fun y => { y with
            meDone := true, motGen := m.gen, ego := s1.egoRecord ++ s1.trackList x.turn }).loom)))

/-- EXPANSION_START with a staged Pattern table, no expansion under way and a free bank begins the expansion of that table,
dated with this instant, in that bank; with none staged and none under way it begins none. EXPANSION_COMPLETE of an
expansion under way, where no commit is pending, marks it done and shows its time in WF_EXPAND_US. VIEW_WARP of the oldest
turn that the ME has completed marks it warped; where that turn has no Pattern table it changes nothing else, and where the
Weft is disabled the FLAGS of its views say only whether the ME is in holdover (a reading of the model, log entry 70); where
none waits it changes nothing. -/
def Obligations.BoardTablesExpandAndWarp : Prop :=
  (∀ (x : Staged) (b : Nat) (s : State), s.weft.exp = none → s.bankSweep.patPick = some x → s.bankSweep.freeBank = some b →
    Completes .expansionStart s fun t =>
      t.weft.exp = some ⟨x.ord, x.gen, b, s.hg.dt, false⟩ ∧ spGet (fun _ => none) t.weft.gens b = some x.gen ∧
      t.weft.tab = s.weft.tab ∧ t.weft.bank = s.weft.bank) ∧
  (∀ s : State, s.weft.exp = none → s.bankSweep.patPick = none → Completes .expansionStart s fun t =>
    t.weft.exp = none ∧ t.regs = s.regs) ∧
  (∀ (e : WfExp) (s : State), s.weft.exp = some e → e.done = false → s.track.commit = none → Completes .expansionComplete s fun t =>
    t.weft = { s.weft with exp := some { e with done := true } } ∧ RegsKept [WF_EXPAND_US] s t ∧
    t.reg WF_EXPAND_US = BitVec.ofNat 32 ((s.hg.dt - e.start) / 256000)) ∧
  (∀ s : State, (s.firstTurn fun x => x.meDone && !x.warped) = none → exec .viewWarp s = .next s) ∧
  (∀ (x : TurnRec) (s : State), (s.firstTurn fun x => x.meDone && !x.warped) = some x → x.pat = none →
    Completes .viewWarp s fun t => t = s.modTurn x fun y => { y with warped := true }) ∧
  (∀ (x : TurnRec) (tab : Table) (s : State), (s.firstTurn fun x => x.meDone && !x.warped) = some x → x.pat = some tab →
    s.is WF_CTL_EN = false →
    let hold := if s.meOn && s.fresh.holdSince.isSome then 2 else 0
    Completes .viewWarp s fun t => t = s.modTurn x fun y => { y with warped := true, viewFlags := [hold, hold, hold, hold] }) ∧
  (∀ (x : TurnRec) (tab : Table) (s : State), (s.firstTurn fun x => x.meDone && !x.warped) = some x → x.pat = some tab →
    s.is WF_CTL_EN = true → patViews tab.bytes = [] →
    Completes .viewWarp s fun t => t = s.modTurn x fun y => { y with warped := true, viewFlags := [0, 0, 0, 0] })

/-- RECORD_ASSEMBLY of the oldest turn that the ME has completed gives it the records of its manifest and then its Ego Record;
one whose payload read faults is held. RELEASE of the oldest turn with a verdict takes it out of the open turns: where the
ring has no room for its records none is written and REC_DROP counts; where it has and the mapping is there, a turn of one
record is written and LM_REC_HEAD moves on by one. VIEW_FRAME_TRANSMIT on a locked, enabled port takes the oldest entry,
sends it and shows its VIEW_SEQ; VIEW_LOCK_DROP on a port without lock drops it and counts. STX_LOCK_LOSS with no frame on
the wire marks this instant; one during a frame cuts it and counts ABORTED; LM_VIEW_SEQ goes back to the frame before, and
DROPPED goes on from what the frame carried (a reading of the model, log entry 69). STX_LOCK_RETURN with no entry overdue
restores the lock. LOOM_ENABLE of valid views starts at sequence 0; views that break R211 leave EN as it is; LOOM_DISABLE
releases every pin of the Loom. -/
def Obligations.RecordsAndViewsAreReleased : Prop :=
  (∀ (x : TurnRec) (s s1 s2 : State) (ms : List (List Byte)), (s.firstTurn fun x => x.meDone && x.recs.isNone && !x.held) = some x →
    s.manifest x.turn = (s1, ms) →
    (s1.payloads s.recTenant ms = (s2, none) → Completes .recordAssembly s fun t =>
      t.loom = (s2.modTurn x fun y => { y with held := true }).loom) ∧
    (∀ l, s1.payloads s.recTenant ms = (s2, some l) → Completes .recordAssembly s fun t =>
      t.loom = (s2.modTurn x fun y => { y with
        ready := s2.hg.dt, recs := some (l ++ [{ id := 0xFFFF, cls := 0, groups := 0, payload := x.ego }]) }).loom)) ∧
  (∀ (x : TurnRec) (st : Stamp) (s : State), (s.firstTurn fun x => x.stamp.isSome) = some x → x.stamp = some st → x.pat = none →
    s.loomStopped = false → s.is LM_CTL_EN = true → s.loom.ring = true →
    let head := (s.reg LM_REC_HEAD).toNat % s.recSize
    let room := ((s.reg LM_REC_TAIL).toNat % s.recSize + s.recSize - head + s.recSize - 1) % s.recSize
    let out := s.loom.turns.filter fun y => !(y.run == x.run && y.turn == x.turn)
    (room < (x.recs.getD []).length → Completes .release s fun t =>
      t.loom.turns = out ∧ t.loom.lostTurns = s.loom.lostTurns + 1 ∧ RegsKept [LM_STAT] s t ∧
      t.get LM_STAT_REC_DROP = min (s.get LM_STAT_REC_DROP + 1) (2 ^ LM_STAT_REC_DROP.w - 1)) ∧
    (∀ (r : LmRec) (s1 : State), x.recs = some [r] → 1 ≤ room →
      let s0 := s.dropTurns fun y => y.run == x.run && y.turn == x.turn
      s0.pinnedWrite lmIid s.recTenant (s.pair LM_REC_BASE_LO + 4096 * head) (s0.recordBytes x st 0 1 r) {} = (s1, true) →
      Completes .release s fun t => t.loom.turns = s1.loom.turns ∧ t.loom.lostTurns = 0 ∧
        t.reg LM_REC_HEAD = BitVec.ofNat 32 ((head + 1) % s.recSize))) ∧
  (∀ (p : Fin 2) (f : LmFrame) (rest : List LmFrame) (s : State), (s.port p).fifo = f :: rest →
    ((s.port p).locked = true → s.is (LM_PORT_CFG_EN p) = true → s.loomStopped = false → Completes (.viewFrameTransmit p) s fun t =>
      (t.port p).fifo = rest ∧ (∃ g u v, (t.port p).wire = some (g, u, v) ∧ g.view = f.view ∧ g.turn = f.turn ∧ g.rows = f.rows) ∧
      t.reg (LM_VIEW_SEQ f.view) = BitVec.ofNat 32 (spGet (fun _ => 0) s.loom.sent f.view) ∧
      spGet (fun _ => 0) t.loom.dropped f.view = 0 ∧
      ∃ vc ty emb rows o, t.outbox = .viewFrame p vc ty emb rows :: o) ∧
    ((s.port p).locked = false → Completes (.viewLockDrop p) s fun t =>
      (t.port p).fifo = rest ∧ RegsKept [LM_PORT_DROP p] s t ∧
      t.get (LM_PORT_DROP_LOCK_DROP p) = min (s.get (LM_PORT_DROP_LOCK_DROP p) + 1) (2 ^ (LM_PORT_DROP_LOCK_DROP p).w - 1))) ∧
  (∀ (p : Fin 2) (s : State), (s.port p).locked = true →
    ((s.port p).wire = none → Completes (.stxLockLoss p) s fun t =>
      t = s.setPort p { s.port p with locked := false, lost := s.hg.dt }) ∧
    (∀ (f : LmFrame) (u v : Nat), (s.port p).wire = some (f, u, v) → s.hg.dt < u → Completes (.stxLockLoss p) s fun t =>
      (t.port p).locked = false ∧ (t.port p).wire = none ∧ t.outbox = .viewCut p :: s.outbox ∧
      t.get (LM_PORT_DROP_ABORTED p) = min (s.get (LM_PORT_DROP_ABORTED p) + 1) (2 ^ (LM_PORT_DROP_ABORTED p).w - 1) ∧
      t.reg (LM_VIEW_SEQ f.view) = f.seqWas ∧ spGet (fun _ => 0) t.loom.dropped f.view =
        min (leAt f.emb 48 2 + spGet (fun _ => 0) s.loom.dropped f.view + 1) 65535)) ∧
  (∀ (p : Fin 2) (s : State), (s.port p).locked = false → s.is (LM_PORT_CFG_EN p) = true →
    (∀ f ∈ (s.port p).fifo.head?, s.hg.dt < (s.port p).waitEnd f) → Completes (.stxLockReturn p) s fun t =>
      t = s.setPort p { s.port p with locked := true }) ∧
  (∀ (iid : Iid) (v : Word) (s : State), s.writeOk iid LM_CTL = true →
    (v.getLsbD 0 = true → s.is LM_CTL_EN = false → s.viewsOk = true → Completes (.loomEnable iid v) s fun t =>
      t.is LM_CTL_EN = true ∧ t.loom = { s.loom with recSeq := 0, sent := [], dropped := [], ring := true }) ∧
    (v.getLsbD 0 = true → s.is LM_CTL_EN = false → s.viewsOk = false → exec (.loomEnable iid v) s = .next s) ∧
    (v.getLsbD 0 = false → Completes (.loomDisable iid v) s fun t => t.is LM_CTL_EN = false ∧ RegsKept [LM_CTL] s t ∧
      t.loom = s.loom ∧ t.atu.pts = s.atu.pts.filter fun p => !decide (p.owner = PinOwner.loom)))

/-- REFEREE_VERDICT of the oldest assembled turn stamps it and enters it in the window: accepted where its reports are those of
the turn, none flags a tile, no rule fails and it has no known fault; rejected and counted where it has one.
RULESET_DOORBELL takes the image of the first ring only. RULESET_CHECK_DONE puts an image that passes in force, with its
heartbeat period, its Witness limit and its numbers shown, and refuses another with AUTH_FAIL and 0xB001. A fault of the
Referee itself records its code in RF_SAFE_CAUSE, asserts SAFE_OFF_N and halts it. RF_HB_TOGGLE, with no verdict overdue and
below F5, toggles RF_HB one period after the toggle before; at F5 it does not. HANG_RELAUNCH after a failed ABORT relaunches
nothing. REFEREE_RESET_RELEASE starts a Referee that has not halted. -/
def Obligations.RefereeJudgesAndHalts : Prop :=
  (∀ (b : List Byte) (x : TurnRec) (s : State), s.ref.running = true → s.ref.rules = some b →
    (s.loom.turns.find? fun x => x.recs.isSome && x.stamp.isNone) = some x →
    (x.fault ≠ 0 → Completes .refereeVerdict s fun t =>
      t.ref.window = (true :: s.ref.window).take 16 ∧ t.reg RF_LAST_TURN = BitVec.ofNat 32 x.turn ∧
      bitsOf (t.reg RF_LAST_VERDICT).toNat 0 2 = 2 ∧ (t.reg RF_REJECTS).toNat = min ((s.reg RF_REJECTS).toNat + 1) 0xFFFFFFFF) ∧
    (x.fault = 0 → s.reportsWrong x = false → x.reports.all (fun r => r.flagged == 0) = true → ruleFails b (x.recs.getD []) = none →
      Completes .refereeVerdict s fun t =>
        t.ref.window = (false :: s.ref.window).take 16 ∧ t.reg RF_LAST_TURN = BitVec.ofNat 32 x.turn ∧
        bitsOf (t.reg RF_LAST_VERDICT).toNat 0 2 = 1 ∧ t.reg RF_REJECTS = s.reg RF_REJECTS)) ∧
  (∀ (image : List Byte) (s : State),
    (s.ref.rung = false → Completes (.rulesetDoorbell image) s fun t =>
      t = { s with ref := { s.ref with rung := true, image := some image } }) ∧
    (s.ref.rung = true → exec (.rulesetDoorbell image) s = .next s)) ∧
  (∀ (ok : Bool) (b : List Byte) (s : State), s.ref.image = some b → s.ref.running = true → Completes (.rulesetCheckDone ok) s fun t =>
    t.ref.image = none ∧
    if imageOk b = true ∧ ok = true then
      t.ref.rules = some b ∧ t.reg RF_RULESET_ID = BitVec.ofNat 32 (leAt b 12 4) ∧ t.reg RF_RULESET_VER = BitVec.ofNat 32 (leAt b 16 4) ∧
      t.reg RF_HB_PER = BitVec.ofNat 32 (leAt b 24 2) ∧ t.reg TE_WIT_LIM = BitVec.ofNat 32 (leAt b 20 4) ∧
      RegsKept [RF_RULESET_ID, RF_RULESET_VER, RF_HB_PER, TE_WIT_LIM] s t
    else t.ref.rules = s.ref.rules ∧ t.is RF_STATUS_AUTH_FAIL = true ∧ t.reg GLB_FAULT_LAST = 0x8B001) ∧
  (∀ (q : Instr × Nat) (s : State), q ∈ [(.lockstepMismatch, 0xB00E), (.refSramUncorr, 0xB00D), (.clockMonitor, 0xB00F)] →
    s.ref.running = true → Completes q.1 s fun t =>
      t.ref = { s.ref with off := true, running := false, halted := true } ∧ t.get RF_SAFE_CAUSE_CODE = q.2 ∧
      t.is RF_SAFE_CAUSE_VALID = true ∧ RegsKept [RF_SAFE_CAUSE] s t) ∧
  (∀ s : State, s.ref.running = true → s.hg.running = true → s.ref.hbAt + (s.reg RF_HB_PER).toNat * 256000 = s.hg.dt →
    (s.overdue = false → s.get RF_STEP_S ≠ 5 → Completes .rfHbToggle s fun t =>
      t = { s with ref := { s.ref with hb := !s.ref.hb, hbAt := s.hg.dt } }) ∧
    (s.get RF_STEP_S = 5 → exec .rfHbToggle s = .next s)) ∧
  (∀ (c : BitVec 16) (x : TkRec) (s : State), s.ref.abort = some c → s.refDone c = some x → x.status ≠ 0 →
    Completes .hangRelaunch s fun t => t = { s with ref := { s.ref with abort := none } }) ∧
  (∀ s : State, s.ref.running = false → s.ref.halted = false → Completes .refereeResetRelease s fun t =>
    t.ref.running = true ∧ t.ref.on = true ∧ t.ref.off = false ∧ t.ref.hbAt = s.hg.dt)

/-- One hoop becomes `y`, and nothing else changes. -/
def HoopOnly (h : Nat) (s t : State) (y : Hoop) : Prop :=
  t.hoop h = y ∧ (∀ g, g ≠ h → t.hoop g = s.hoop g) ∧ t = { s with eng := { s.eng with hoops := t.eng.hoops } }

/-- The hoop stands inside a bundle, and nothing stalls it. -/
def MidBundle (y : Hoop) : Prop := y.snap.isSome = true ∧ y.stuck = [] ∧ y.stall = .none ∧ y.defer = false

/-- A syllable of an open bundle, neither its first nor its last, whose predicate holds; `r` are the registers as they stood
before the bundle. -/
def Issues (x : Issue) (slots : List Nat) (w : Word) (r : HRegs) (s : State) : Prop :=
  (s.hoop x.hoop).st = .running ∧ inBundle slots x.bundle w = true ∧ x.opens = false ∧ x.closes = false ∧
  (s.hoop x.hoop).snap = some r ∧ MidBundle (s.hoop x.hoop) ∧ r.pv x.pred ≠ x.pneg

/-- S[d] takes v, and nothing else changes; S0 takes nothing. -/
def WritesS (h : Nat) (d : Fin 32) (v : Word) (s t : State) : Prop :=
  ∃ m, HoopOnly h s t { s.hoop h with r := { (s.hoop h).r with s := m } } ∧
    ∀ i : Nat, (t.hoop h).r.sv i = if i = d.val ∧ i ≠ 0 then v else (s.hoop h).r.sv i

/-- P[d] takes v, and nothing else changes; P0 takes nothing. -/
def WritesP (h : Nat) (d : Fin 8) (v : Bool) (s t : State) : Prop :=
  ∃ m, HoopOnly h s t { s.hoop h with r := { (s.hoop h).r with p := m } } ∧
    ∀ i : Nat, (t.hoop h).r.pv i = if i = d.val ∧ i ≠ 0 then v else (s.hoop h).r.pv i

/-- V[d] takes v, flags are raised, and nothing else changes. -/
def WritesV (h : Nat) (d : Fin 32) (v : BitVec 4096) (fl : Nat) (s t : State) : Prop :=
  ∃ m, HoopOnly h s t { s.hoop h with
      raised := (s.hoop h).raised ||| BitVec.ofNat 6 fl
      r := { (s.hoop h).r with v := m, flags := (s.hoop h).r.flags ||| BitVec.ofNat 6 fl } } ∧
    ∀ i : Nat, (t.hoop h).r.vv i = if i = d.val then v else (s.hoop h).r.vv i

/-- Two states that agree in all but how the hoops are written down, and in every hoop. -/
def SameState (u t : State) : Prop := t = { u with eng := { u.eng with hoops := t.eng.hoops } } ∧ ∀ g, t.hoop g = u.hoop g


/-- A hoop that runs and stands between bundles, and a bundle of one syllable, MOVI, which opens and closes it: legal and
followed by another bundle, it leaves the hoop between bundles at the next one, and writes S[d] where its predicate holds
and no register where it fails. A bundle that is not legal has no effect but the fault 0x4010: in a turn program the
program's fault becomes 0x4010 and its hoops stop. A syllable of a hoop that does not run, or that its bundle does not hold,
does not occur (log entry 5). CTL.BR that closes its bundle goes to the bundle at its offset, and 0x4010 is reported where
there is none. SYNC.WAIT below its value changes nothing. -/
def Obligations.BundlesIssueWhole : Prop :=
  (∀ (x : Issue) (d : Fin 32) (v : BitVec 16) (s : State), (s.hoop x.hoop).st = .running → (s.hoop x.hoop).snap = none →
    (s.hoop x.hoop).stall = .none → inBundle [0] x.bundle (sylWord 0x0B x (d.val * 2 ^ 17 + v.toNat)) = true →
    x.opens = true → x.closes = true →
    (s.legal x.hoop x.bundle = true → (s.hoop x.hoop).pc + 1 < s.bundleCount x.hoop → Completes (.ctlMovi x d v) s fun t =>
      (t.hoop x.hoop).pc = (s.hoop x.hoop).pc + 1 ∧ (t.hoop x.hoop).snap = none ∧ (t.hoop x.hoop).st = .running ∧
      (∀ i : Nat, (t.hoop x.hoop).r.sv i = if i = d.val ∧ i ≠ 0 ∧ (s.hoop x.hoop).r.pv x.pred ≠ x.pneg
        then v.signExtend 32 else (s.hoop x.hoop).r.sv i) ∧
      (∀ g, g ≠ x.hoop.val → t.hoop g = s.hoop g) ∧ t = { s with eng := { s.eng with hoops := t.eng.hoops } }) ∧
    (∀ n, s.legal x.hoop x.bundle = false → (s.hoop x.hoop).firing = none → s.eng.sched.running = some n → s.eng.sched.fault = 0 →
      Completes (.ctlMovi x d v) s fun t => t.eng.sched.fault = 0x4010 ∧ t.reg GLB_FAULT_LAST = 0xA4010 ∧
        (∀ g ∈ s.loadedHoops, (t.hoop g).st = .ended) ∧ (t.hoop x.hoop).r = (s.hoop x.hoop).r ∧
        RegsKept [GLB_FAULT_FIRST, GLB_FAULT_LAST, GLB_FAULT_COUNT] s t)) ∧
  (∀ (x : Issue) (d : Fin 32) (v : BitVec 16) (s : State),
    ((s.hoop x.hoop).st ≠ .running ∨ inBundle [0] x.bundle (sylWord 0x0B x (d.val * 2 ^ 17 + v.toNat)) = false) →
    exec (.ctlMovi x d v) s = .next s) ∧
  (∀ (x : Issue) (off : BitVec 16) (r : HRegs) (s : State), (s.hoop x.hoop).st = .running →
    inBundle [0] x.bundle (sylWord 0x18 x off.toNat) = true → x.opens = false → x.closes = true →
    (s.hoop x.hoop).snap = some r → MidBundle (s.hoop x.hoop) → r.pv x.pred ≠ x.pneg → (s.hoop x.hoop).leave = {} →
    let next : Int := (s.hoop x.hoop).pc + off.toInt
    (0 ≤ next → next < s.bundleCount x.hoop → Completes (.ctlBr x off) s fun t =>
      HoopOnly x.hoop s t { s.hoop x.hoop with snap := none, leave := {}, pc := next.toNat }) ∧
    ((next < 0 ∨ s.bundleCount x.hoop ≤ next) → (s.hoop x.hoop).firing = none → Completes (.ctlBr x off) s fun t =>
      t.reg GLB_FAULT_LAST = 0xA4010)) ∧
  (∀ (x : Issue) (c : Fin 16) (v : BitVec 12) (r : HRegs) (s : State), Issues x [7] (sylWord 0x02 x (c.val * 2 ^ 13 + v.toNat)) r s →
    spGet (fun _ => 0) (s.hoop x.hoop).r.c c < v.toNat → exec (.syncWait x c v) s = .next s)

/-- Within an open bundle (its registers as they stood before it are the operands): the nine RRR syllables write S[d] with the
result on S[a] and S[b], and ADDI, MOVI and MOVHI with theirs; comparisons and PLOG write P[d]; S0 and P0 take nothing;
nothing else changes. BR, END and WAITTURN set what the bundle does when it closes; LOOP writes S[a] less 1 and branches
while that is not zero; CKPT marks its checkpoint; FENCE changes nothing. TDLD loads a descriptor; TDADD moves BASE by 64
times S[a] modulo 2 to the 48 and keeps the other bits; FLAGS reads the flag word of the bundle's start; HCLR takes from
each bank named what it held at the bundle's start; SREG reads the special values. -/
def Obligations.ControlSyllablesCompute : Prop :=
  (∀ q ∈ ([(.ctlAdd, 0x01, fun u v => u + v), (.ctlSub, 0x02, fun u v => u - v), (.ctlMul, 0x03, fun u v => u * v),
      (.ctlAnd, 0x04, fun u v => u &&& v), (.ctlOr, 0x05, fun u v => u ||| v), (.ctlXor, 0x06, fun u v => u ^^^ v),
      (.ctlShl, 0x07, fun u v => u <<< (v.toNat % 32)), (.ctlShr, 0x08, fun u v => u >>> (v.toNat % 32)),
      (.ctlSra, 0x09, fun u v => u.sshiftRight (v.toNat % 32))] :
        List ((Issue → Fin 32 → Fin 32 → Fin 32 → Instr) × Nat × (Word → Word → Word))),
    ∀ (x : Issue) (d a b : Fin 32) (r : HRegs) (s : State),
      Issues x [0] (sylWord q.2.1 x (d.val * 2 ^ 17 + a.val * 2 ^ 12 + b.val * 2 ^ 7)) r s →
      Completes (q.1 x d a b) s (WritesS x.hoop d (q.2.2 (r.sv a) (r.sv b)) s)) ∧
  (∀ q ∈ ([(.ctlAddi, 0x0A, fun u i => u + i.signExtend 32), (.ctlMovi, 0x0B, fun _ i => i.signExtend 32),
      (.ctlMovhi, 0x0C, fun u i => BitVec.ofNat 32 (i.toNat * 65536 + u.toNat % 65536))] :
        List ((Issue → Fin 32 → BitVec 16 → Instr) × Nat × (Word → BitVec 16 → Word))),
    ∀ (x : Issue) (d : Fin 32) (i : BitVec 16) (r : HRegs) (s : State), Issues x [0] (sylWord q.2.1 x (d.val * 2 ^ 17 + i.toNat)) r s →
      Completes (q.1 x d i) s (WritesS x.hoop d (q.2.2 (r.sv d) i) s)) ∧
  (∀ q ∈ ([(.ctlCmpEq, 0x10, fun u v => decide (u = v)), (.ctlCmpLt, 0x11, fun u v => decide (u.toInt < v.toInt)),
      (.ctlCmpLtu, 0x12, fun u v => decide (u.toNat < v.toNat))] :
        List ((Issue → Fin 8 → Fin 32 → Fin 32 → Instr) × Nat × (Word → Word → Bool))),
    ∀ (x : Issue) (d : Fin 8) (a b : Fin 32) (r : HRegs) (s : State),
      Issues x [0] (sylWord q.2.1 x (d.val * 2 ^ 19 + a.val * 2 ^ 12 + b.val * 2 ^ 7)) r s →
      Completes (q.1 x d a b) s (WritesP x.hoop d (q.2.2 (r.sv a) (r.sv b)) s)) ∧
  (∀ (x : Issue) (d a b : Fin 8) (op : Fin 4) (r : HRegs) (s : State),
    Issues x [0] (sylWord 0x13 x (d.val * 2 ^ 19 + a.val * 2 ^ 16 + b.val * 2 ^ 13 + op.val)) r s →
    Completes (.ctlPlog x d a b op) s (WritesP x.hoop d ([r.pv a && r.pv b, r.pv a || r.pv b, r.pv a != r.pv b,
      r.pv a && !r.pv b].getD op.val false) s)) ∧
  (∀ (x : Issue) (off : BitVec 16) (r : HRegs) (s : State), Issues x [0] (sylWord 0x18 x off.toNat) r s →
    Completes (.ctlBr x off) s fun t =>
      HoopOnly x.hoop s t { s.hoop x.hoop with leave := { (s.hoop x.hoop).leave with branch := some off.toInt } }) ∧
  (∀ (x : Issue) (a : Fin 32) (off : BitVec 16) (r : HRegs) (s : State), Issues x [0] (sylWord 0x19 x (a.val * 2 ^ 17 + off.toNat)) r s →
    Completes (.ctlLoop x a off) s fun t =>
      (∀ i : Nat, (t.hoop x.hoop).r.sv i = if i = a.val ∧ i ≠ 0 then r.sv a - 1 else (s.hoop x.hoop).r.sv i) ∧
      (t.hoop x.hoop).leave = (if r.sv a = 1 then (s.hoop x.hoop).leave
        else { (s.hoop x.hoop).leave with branch := some off.toInt })) ∧
  (∀ (x : Issue) (r : HRegs) (s : State),
    (Issues x [0] (sylWord 0x1A x 0) r s → Completes (.ctlEnd x) s fun t =>
      HoopOnly x.hoop s t { s.hoop x.hoop with leave := { (s.hoop x.hoop).leave with ends := true } }) ∧
    (Issues x [0] (sylWord 0x1B x 0) r s → Completes (.ctlWaitturn x) s fun t =>
      HoopOnly x.hoop s t { s.hoop x.hoop with leave := { (s.hoop x.hoop).leave with waits := true } }) ∧
    (∀ k : Fin 64, Issues x [0] (sylWord 0x1C x k.val) r s → Completes (.ctlCkpt x k) s fun t =>
      HoopOnly x.hoop s t { s.hoop x.hoop with ckpt := some k.val }) ∧
    (Issues x [0] (sylWord 0x1D x 0) r s → Completes (.ctlFence x) s (SameState s))) ∧
  (∀ (x : Issue) (td : Fin 64) (idx : BitVec 14) (e : MemErr) (bs : List Byte) (r : HRegs) (s u : State),
    Issues x [0] (sylWord 0x20 x (td.val * 2 ^ 16 + idx.toNat)) r s →
    s.memRead (s.cx x.hoop e) (s.descVa x.hoop idx.toNat % 2 ^ 48) 64 = (u, .ok bs) → MidBundle (u.hoop x.hoop) →
    Completes (.ctlTdld x td idx e) s fun t =>
      (t.hoop x.hoop).r.tdv td = BitVec.ofNat 512 (leNat bs) ∧ (∀ g, g ≠ x.hoop.val → t.hoop g = u.hoop g)) ∧
  (∀ (x : Issue) (td : Fin 64) (a : Fin 32) (r : HRegs) (s : State),
    Issues x [0] (sylWord 0x21 x (td.val * 2 ^ 16 + a.val * 2 ^ 8)) r s → Completes (.ctlTdadd x td a) s fun t =>
      ((((t.hoop x.hoop).r.tdv td).toNat % 2 ^ 48 : Nat) : Int) = ((r.tdv td).toNat + 64 * (r.sv a).toInt) % 2 ^ 48 ∧
      ((t.hoop x.hoop).r.tdv td).toNat / 2 ^ 48 = (r.tdv td).toNat / 2 ^ 48 ∧
      (∀ i, i ≠ td.val → (t.hoop x.hoop).r.tdv i = (s.hoop x.hoop).r.tdv i) ∧ (t.hoop x.hoop).r.s = (s.hoop x.hoop).r.s) ∧
  (∀ (x : Issue) (d : Fin 32) (r : HRegs) (s : State), Issues x [0] (sylWord 0x22 x (d.val * 2 ^ 17)) r s →
    Completes (.ctlFlags x d false) s (WritesS x.hoop d (r.flags.setWidth 32) s)) ∧
  (∀ (x : Issue) (d : Fin 32) (r : HRegs) (s : State), Issues x [0] (sylWord 0x22 x (d.val * 2 ^ 17 + 1)) r s →
    Completes (.ctlFlags x d true) s fun t => (t.hoop x.hoop).r.flags = (s.hoop x.hoop).raised ∧
      ∀ i : Nat, (t.hoop x.hoop).r.sv i = if i = d.val ∧ i ≠ 0 then r.flags.setWidth 32 else (s.hoop x.hoop).r.sv i) ∧
  (∀ (x : Issue) (mask : BitVec 8) (r : HRegs) (s : State), Issues x [0] (sylWord 0x23 x mask.toNat) r s →
    Completes (.ctlHclr x mask) s fun t => (t.hoop x.hoop).r.s = (s.hoop x.hoop).r.s ∧
      ∀ b i : Nat, b < 8 → i < 68 → spGet (fun _ => 0) (t.hoop x.hoop).r.hist (68 * b + i) =
        spGet (fun _ => 0) (s.hoop x.hoop).r.hist (68 * b + i) -
          if mask.getLsbD b then spGet (fun _ => 0) r.hist (68 * b + i) else 0) ∧
  (∀ (x : Issue) (d : Fin 32) (r : HRegs) (s : State) (q : Nat × Word),
    q ∈ [(1, BitVec.ofNat 32 x.hoop.val), (9, BitVec.ofNat 32 s.now), (10, BitVec.ofNat 32 (s.now / 2 ^ 32)),
      (11, s.reg TK_CONFIG_GEN), (25, 0)] →
    Issues x [0] (sylWord 0x24 x (d.val * 2 ^ 17 + q.1)) r s →
    Completes (.ctlSreg x d (BitVec.ofNat 5 q.1)) s (WritesS x.hoop d q.2 s))

/-- Lanes of an operand, and of the result, of a lane-by-lane syllable; `f` is its operation. -/
def laneResults (g : Fmt) (r : HRegs) (a b c : Nat) (f : Fmt → Nat → Nat → Nat → FRes) : List FRes :=
  (List.range (4096 / g.bits)).map fun l => f g (bitsOf (r.vv a).toNat (g.bits * l) g.bits)
    (bitsOf (r.vv b).toNat (g.bits * l) g.bits) (bitsOf (r.vv c).toNat (g.bits * l) g.bits)

/-- V[d] takes these results, and their flags are raised. -/
def WritesLanes (h : Nat) (d : Fin 32) (g : Fmt) (rs : List FRes) (s t : State) : Prop :=
  ∃ v : BitVec 4096, (∀ l, l < 4096 / g.bits → bitsOf v.toNat (g.bits * l) g.bits = (rs.getD l ⟨0, 0⟩).bits % 2 ^ g.bits) ∧
    WritesV h d v (rs.foldl (fun m x => m ||| x.flags) 0) s t


/-- Within an open bundle: each lane-by-lane syllable writes every lane of V[d], in its format, with its operation on the same
lane of the operands as they stood before the bundle, raises the flags that the lanes raise, and changes nothing else; a
sum, difference, product, quotient or root that FP16 or BF16 cannot hold saturates. A move of a lane that is no NaN carries
its bits, ABS and NEG with the sign they set. RED.SUM and RED.MAX leave the fold of all lanes, by halves, in lane 0 and
zeros in the others. CVT between FP16 and BF16 converts each lane; from FP32 into a 16-bit format it converts into half h
and keeps the other half. BCAST copies the lane value of S[a] to all lanes, RDACC reads eight columns of a tile times its
factor, and LANE moves one lane to S[d]. -/
def Obligations.PurlSyllablesCompute : Prop :=
  (∀ q ∈ ([(fun x d a b _ f => .prlAdd x d a b f, 0x01, 1, fun f u v _ => saturate f (fpAdd f u v)),
      (fun x d a b _ f => .prlSub x d a b f, 0x02, 1, fun f u v _ => saturate f (fpSub f u v)),
      (fun x d a b _ f => .prlMul x d a b f, 0x03, 1, fun f u v _ => saturate f (fpMul f u v)),
      (fun x d a b c f => .prlFma x d a b c f, 0x04, 2, fun f u v w => saturate f (fpFma f u v w)),
      (fun x d a b _ f => .prlDiv x d a b f, 0x05, 1, fun f u v _ => saturate f (fpDiv f u v)),
      (fun x d a _ _ f => .prlSqrt x d a f, 0x06, 0, fun f u _ _ => saturate f (fpSqrt f u)),
      (fun x d a b _ f => .prlMin x d a b f, 0x07, 1, fun f u v _ => fpPick f u v true),
      (fun x d a b _ f => .prlMax x d a b f, 0x08, 1, fun f u v _ => fpPick f u v false),
      (fun x d a _ _ f => .prlAbs x d a f, 0x09, 0, fun f u _ _ => fpMove f u fun v => v % 2 ^ (f.bits - 1)),
      (fun x d a _ _ f => .prlNeg x d a f, 0x0A, 0, fun f u _ _ => fpMove f u fun v => (v + 2 ^ (f.bits - 1)) % 2 ^ f.bits),
      (fun x d a _ _ f => .prlMov x d a f, 0x0B, 0, fun f u _ _ => fpMove f u id),
      (fun x d a b _ f => .prlCmpEq x d a b f, 0x0C, 1, fun f u v _ => fpTest f u v true (· == 0)),
      (fun x d a b _ f => .prlCmpLt x d a b f, 0x0D, 1, fun f u v _ => fpTest f u v false fun o => decide (o < 0)),
      (fun x d a b _ f => .prlCmpLe x d a b f, 0x0E, 1, fun f u v _ => fpTest f u v false fun o => decide (o ≤ 0)),
      (fun x d a b c f => .prlSel x d a b c f, 0x0F, 2, fun _ u v w => ⟨if w = 0 then v else u, 0⟩)] :
        List ((Issue → Fin 32 → Fin 32 → Fin 32 → Fin 32 → Fin 4 → Instr) × Nat × Nat × (Fmt → Nat → Nat → Nat → FRes))),
    ∀ (x : Issue) (d a b c : Fin 32) (fmt : Fin 4) (r : HRegs) (s : State),
      Issues x [5] (sylWord q.2.1 x (d.val * 2 ^ 17 + a.val * 2 ^ 12 + (if q.2.2.1 = 0 then 0 else b.val) * 2 ^ 7 +
        (if q.2.2.1 = 2 then c.val else 0) * 2 ^ 2 + fmt.val)) r s →
      Completes (q.1 x d a b c fmt) s (WritesLanes x.hoop d (purlFmt fmt) (laneResults (purlFmt fmt) r a b c q.2.2.2) s)) ∧
  (∀ (x : Issue) (d a : Fin 32) (fmt : Fin 4) (r : HRegs) (s : State), fmt ≠ 3 →
    Issues x [5] (sylWord 0x10 x (d.val * 2 ^ 17 + a.val * 2 ^ 12 + fmt.val)) r s →
    Completes (.prlExp2 x d a fmt) s (WritesLanes x.hoop d (purlFmt fmt)
      (laneResults (purlFmt fmt) r a 0 0 fun _ u _ _ => fpExp2 fmt u) s)) ∧
  (∀ (f : Fmt) (v : Nat) (g : Nat → Nat), (fpDecode f v).isNan = false → fpMove f v g = ⟨g v, 0⟩) ∧
  (∀ q ∈ ([(.prlRedSum, 0x11, fun f u v => saturate f (fpAdd f u v)), (.prlRedMax, 0x12, fun f u v => fpPick f u v false)] :
        List ((Issue → Fin 32 → Fin 32 → Fin 4 → Instr) × Nat × (Fmt → Nat → Nat → FRes))),
    ∀ (x : Issue) (d a : Fin 32) (fmt : Fin 4) (r : HRegs) (s : State),
      Issues x [5] (sylWord q.2.1 x (d.val * 2 ^ 17 + a.val * 2 ^ 12 + fmt.val)) r s →
      let g := purlFmt fmt
      let z := treeFold (q.2.2 g) 8 (lanesOf g.bits (r.vv a)) 0
      Completes (q.1 x d a fmt) s (WritesV x.hoop d (BitVec.ofNat 4096 (z.1 % 2 ^ g.bits)) z.2 s)) ∧
  (∀ (x : Issue) (d a : Fin 32) (h : Bool) (src dst : Fin 4) (r : HRegs) (s : State),
    Issues x [5] (sylWord 0x13 x (d.val * 2 ^ 17 + a.val * 2 ^ 12 + h.toNat * 2 ^ 4 + src.val * 2 ^ 2 + dst.val)) r s →
    (src = 1 ∧ dst = 2 ∨ src = 2 ∧ dst = 1 → Completes (.prlCvt x d a h src dst) s fun t =>
      ∃ fl, WritesV x.hoop d (packLanes 16 ((lanesOf 16 (r.vv a)).map fun v =>
        (saturate (purlFmt dst) (fpConvert (purlFmt src) (purlFmt dst) v)).bits)) fl s t) ∧
    (src = 0 → dst = 1 ∨ dst = 2 → Completes (.prlCvt x d a h src dst) s fun t =>
      let new := (lanesOf 32 (r.vv a)).map fun v => (saturate (purlFmt dst) (fpConvert .fp32 (purlFmt dst) v)).bits
      let old := lanesOf 16 (r.vv d)
      ∃ fl, WritesV x.hoop d (packLanes 16 (if h then old.take 128 ++ new else new ++ old.drop 128)) fl s t)) ∧
  (∀ (x : Issue) (d a : Fin 32) (fmt : Fin 4) (r : HRegs) (s : State),
    Issues x [5] (sylWord 0x14 x (d.val * 2 ^ 17 + a.val * 2 ^ 12 + fmt.val)) r s → Completes (.prlBcast x d a fmt) s fun t =>
      ∃ v : BitVec 4096, WritesV x.hoop d v 0 s t ∧
        (fmt = 0 → ∀ l, l < 128 → bitsOf v.toNat (32 * l) 32 = (r.sv a).toNat) ∧
        (fmt = 1 ∨ fmt = 2 → ∀ l, l < 256 → bitsOf v.toNat (16 * l) 16 = (r.sv a).toNat % 65536)) ∧
  (∀ (x : Issue) (d : Fin 32) (n k : Fin 8) (q : Fin 4) (r : HRegs) (s : State),
    Issues x [5] (sylWord 0x15 x (d.val * 2 ^ 17 + n.val * 2 ^ 14 + k.val * 2 ^ 11 + q.val * 2 ^ 9)) r s →
    Completes (.prlRdacc x d n k q) s (WritesLanes x.hoop d .fp32 ((List.range 128).map fun l =>
      fpMul .fp32 ((r.tile n k).at (l % 32) (l / 32 + 4 * q)) (r.tile n k).f.toNat) s)) ∧
  (∀ (x : Issue) (d a : Fin 32) (lane : Fin 128) (fmt : Fin 4) (r : HRegs) (s : State),
    Issues x [5] (sylWord 0x16 x (d.val * 2 ^ 17 + a.val * 2 ^ 12 + lane.val * 2 ^ 5 + fmt.val)) r s →
    lane.val < 4096 / (purlFmt fmt).bits → Completes (.prlLane x d a lane fmt) s (WritesS x.hoop d
      (BitVec.ofNat 32 (bitsOf (r.vv a).toNat ((purlFmt fmt).bits * lane) (purlFmt fmt).bits)) s))

/-- Within an open bundle, with the registers as they stood before it as operands: LD.T and SHF.T leave what copying the tensors
leaves, and an empty tensor moves nothing; LD.V and LD.S write what they read, zero outside DIM, a misaligned LD.V some
value (log entry 2); MMA writes its tile with the product and keeps every other tile; MMA.ATT without bias or mask writes
its tile with factor 1; NDL.CLR clears the tiles named and no other; ST.T, ST.T.V, ST.S and ST.HIST leave what their writes
leave, and ST.T and ST.HIST with CLR then clear. KV.GATHER and KV.APPEND of a sequence that is not live are refused with
0x6001; a gather of positions that are here writes them; an append that fits, with COMMIT, leaves the sequence longer by its
tokens, its places COMMITTED. -/
def Obligations.TensorSyllablesMove : Prop :=
  (∀ (x : Issue) (p q : Fin 64) (tr : Bool) (k : Fin 8) (e : MemErr) (r : HRegs) (s u : State), MidBundle (u.hoop x.hoop) →
    (Issues x [1, 2] (sylWord 0x01 x (p.val * 2 ^ 16 + q.val * 2 ^ 10 + tr.toNat * 2 ^ 9 + k.val * 2 ^ 6)) r s →
      ((descOf (r.tdv p)).nonEmpty = false → Completes (.ldT x p q tr k e) s (SameState s)) ∧
      (s.tensorCopy (s.cx x.hoop e) (descOf (r.tdv p)) (descOf (r.tdv q)) tr k = (u, none) →
        Completes (.ldT x p q tr k e) s (SameState u))) ∧
    (Issues x [1, 2] (sylWord 0x02 x (p.val * 2 ^ 16 + q.val * 2 ^ 10 + k.val * 2 ^ 6)) r s →
      s.tensorCopy (s.cx x.hoop e) { descOf (r.tdv p) with sram := true } { descOf (r.tdv q) with sram := true } true k = (u, none) →
        Completes (.shfT x p q k e) s (SameState u))) ∧
  (∀ (x : Issue) (d : Fin 32) (td : Fin 64) (c : Fin 32) (e : MemErr) (r : HRegs) (s u : State), MidBundle (u.hoop x.hoop) →
    let f := descOf (r.tdv td)
    let i := idxAt r c
    (Issues x [1, 2] (sylWord 0x03 x (vtBits d td c 0)) r s →
      ((r.sv c).toNat % vecLen f.code ≠ 0 → Completes (.ldV x d td c e) s fun t => t.regs = s.regs ∧
        ∃ v, ∀ j : Nat, (t.hoop x.hoop).r.vv j = if j = d.val then v else (s.hoop x.hoop).r.vv j) ∧
      (∀ vs, (r.sv c).toNat % vecLen f.code = 0 →
        s.readMany (s.cx x.hoop e) f ((List.range (vecLen f.code)).map fun l => ((r.sv c).toNat + l) :: i.drop 1) = (u, .ok vs) →
        Completes (.ldV x d td c e) s (SameState (u.setV x.hoop d
          (packLanes (4096 / vecLen f.code) (vs.map fun v => purlBits f v.1 v.2)))))) ∧
    (Issues x [1, 2] (sylWord 0x04 x (vtBits d td c 0)) r s →
      (f.inside i = false → Completes (.ldS x d td c e) s (WritesS x.hoop d 0 s)) ∧
      (∀ v, s.elemRead (s.cx x.hoop e) f i = (u, .ok v) → Completes (.ldS x d td c e) s fun t =>
        ∀ j : Nat, (t.hoop x.hoop).r.sv j = if j = d.val ∧ j ≠ 0 then BitVec.ofNat 32 v.1 else (u.hoop x.hoop).r.sv j)) ∧
    (∀ k : Fin 8, Issues x [6] (sylWord 0x02 x (vtBits d td c k)) r s → f.nonEmpty = true → (r.sv c).toNat % vecLen f.code = 0 →
      let g := storeFmt f.code
      let src := lanesOf g.bits (r.vv d)
      let wide (v : Nat) : Nat := if g.ieee then v else (fpConvert g .fp32 v).bits
      s.storeLine (s.cx x.hoop e) f k ((List.range (vecLen f.code)).map fun l =>
        putOf (if g = .fp64 then .fp64 else .fp32) f (((r.sv c).toNat + l) :: i.drop 1) (wide (src.getD l 0))) = (u, none) →
      Completes (.stTV x d td c k e) s (SameState u)) ∧
    (Issues x [6] (sylWord 0x03 x (vtBits d td c 0)) r s → f.code ≠ 0 →
      s.elemWrite (s.cx x.hoop e) f i ((r.sv d).toNat % 2 ^ f.fmt.bits) = (u, none) →
      Completes (.stS x d td c e) s (SameState u))) ∧
  (∀ (x : Issue) (n k : Fin 8) (p q : Fin 64) (e : MemErr) (r : HRegs) (s u : State) (v : Sparse Word) (as bs : List (List (Nat × Nat))),
    MidBundle (u.hoop x.hoop) →
    (Issues x [3, 4] (sylWord 0x01 x (n.val * 2 ^ 19 + k.val * 2 ^ 16 + p.val * 2 ^ 10 + q.val * 2 ^ 4)) r s →
      let old : Tile := if storeClears r x.bundle n k then {} else r.tile n k
      s.product (s.cx x.hoop e) (needleDesc (r.tdv p)) (needleDesc (r.tdv q)) old.v = (u, .ok (v, as, bs)) →
      Completes (.mma x n k p q e) s fun t =>
        (t.hoop x.hoop).r.tile n k = ⟨v, if old.cleared then
          BitVec.ofNat 32 (needleMul (needleDesc (r.tdv p)).coarse (needleDesc (r.tdv q)).coarse) else old.f, false⟩ ∧
        ∀ j : Nat, j ≠ 8 * n.val + k.val → spGet (fun _ => {}) (t.hoop x.hoop).r.acc j = spGet (fun _ => {}) (u.hoop x.hoop).r.acc j) ∧
    (∀ g : Fin 16, Issues x [3, 4] (sylWord 0x02 x (n.val * 2 ^ 19 + k.val * 2 ^ 16 + p.val * 2 ^ 10 + q.val * 2 ^ 4 + g.val)) r s →
      r.sv (18 + g) = 0 → s.product (s.cx x.hoop e) (needleDesc (r.tdv p)) (needleDesc (r.tdv q)) [] = (u, .ok (v, as, bs)) →
      Completes (.mmaAtt x n k p q g e) s fun t =>
        let f := needleMul (needleDesc (r.tdv p)).coarse (needleDesc (r.tdv q)).coarse
        let z := (t.hoop x.hoop).r.tile n k
        z.f = 0x3F800000 ∧ z.cleared = false ∧ ∀ i j, i < 32 → j < 16 →
          z.at i j = needleMul (Tile.at { v := v, f := 0, cleared := false } i j) f % 2 ^ 32)) ∧
  (∀ (x : Issue) (n : Fin 8) (mask : BitVec 8) (r : HRegs) (s : State), Issues x [3, 4] (sylWord 0x03 x (n.val * 2 ^ 19 + mask.toNat)) r s →
    Completes (.ndlClr x n mask) s fun t => ∀ m k : Nat, m < 8 → k < 8 → (t.hoop x.hoop).r.tile m k =
      if m = n.val ∧ mask.getLsbD k = true then {} else (s.hoop x.hoop).r.tile m k) ∧
  (∀ (x : Issue) (td : Fin 64) (n k h : Fin 8) (clr : Bool) (e : MemErr) (r : HRegs) (s u : State), MidBundle (u.hoop x.hoop) →
    (Issues x [6] (sylWord 0x01 x (td.val * 2 ^ 16 + n.val * 2 ^ 13 + k.val * 2 ^ 10 + h.val * 2 ^ 7 + clr.toNat * 2 ^ 6)) r s →
      (descOf (r.tdv td)).nonEmpty = true →
      s.each (fun w j => w.storeLine (s.cx x.hoop e) (descOf (r.tdv td)) h ((List.range 32).map fun i =>
        putOf .fp32 (descOf (r.tdv td)) [i, j, 0, 0, 0, 0] (needleMul ((r.tile n k).at i j) (r.tile n k).f.toNat)))
        (List.range 16) = (u, none) →
      (clr = false → Completes (.stT x td n k h clr e) s (SameState u)) ∧
      (clr = true → mmaWrites r x.bundle n k = false → Completes (.stT x td n k h clr e) s (SameState (u.setTile x.hoop n k {})))) ∧
    (Issues x [6] (sylWord 0x04 x (h.val * 2 ^ 19 + td.val * 2 ^ 13 + clr.toNat * 2 ^ 12)) r s →
      s.spaceWrite (s.cx x.hoop e) (if (descOf (r.tdv td)).sram then some x.hoop.val else none) (descOf (r.tdv td)).base
        (histBytes r h) = (u, none) →
      Completes (.stHist x h td clr e) s fun t => ∀ b i : Nat, b < 8 → i < 68 →
        spGet (fun _ => 0) (t.hoop x.hoop).r.hist (68 * b + i) = spGet (fun _ => 0) (u.hoop x.hoop).r.hist (68 * b + i) -
          if clr = true ∧ b = h.val then spGet (fun _ => 0) r.hist (68 * b + i) else 0)) ∧
  (∀ (x : Issue) (td : Fin 64) (q l p : Fin 32) (pl : Bool) (e : MemErr) (r : HRegs) (s : State),
    Issues x [1, 2] (sylWord 0x08 x (td.val * 2 ^ 16 + q.val * 2 ^ 11 + l.val * 2 ^ 6 + p.val * 2 + pl.toNat)) r s →
    let c := s.cx x.hoop e
    let k := (r.sv q).toNat % 1024
    let f : Desc := (descOf (r.tdv td)).inSram
    (s.ownSeq c.tenant k = none → (s.hoop x.hoop).firing = none → Completes (.kvGather x td q l p pl e) s fun t =>
      t.reg GLB_FAULT_LAST = BitVec.ofNat 32 (0x6001 + c.tenant % 64 * 0x10000) ∧
      RegsKept [GLB_FAULT_FIRST, GLB_FAULT_LAST, GLB_FAULT_COUNT] s t) ∧
    (∀ (y : Seq) (u : State), s.ownSeq c.tenant k = some y → (r.sv l).toNat < y.streams → (r.sv p).toNat + f.n 1 ≤ y.maxLen →
      y.ring = false → (descOf (r.tdv td)).sram = true → f.nonEmpty = true →
      s.gatherAway y (4 * (r.sv l).toNat + 2 * pl.toNat) (r.sv p).toNat (f.n 1) = [] →
      s.gatherRows c f y (4 * (r.sv l).toNat + 2 * pl.toNat) (r.sv p).toNat = (u, none) → s.get SK_CFG_AHEAD = 0 →
      u.get SK_CFG_AHEAD = 0 → MidBundle (u.hoop x.hoop) → Completes (.kvGather x td q l p pl e) s (SameState u))) ∧
  (∀ (x : Issue) (td : Fin 64) (q l : Fin 32) (pl cm : Bool) (e : MemErr) (r : HRegs) (s : State),
    Issues x [6] (sylWord 0x08 x (td.val * 2 ^ 16 + q.val * 2 ^ 11 + l.val * 2 ^ 6 + pl.toNat * 2 ^ 5 + cm.toNat * 2 ^ 4)) r s →
    let c := s.cx x.hoop e
    let k := (r.sv q).toNat % 1024
    let n := min ((descOf (r.tdv td)).n 1) 32
    (s.ownSeq c.tenant k = none → (s.hoop x.hoop).firing = none → Completes (.kvAppend x td q l pl cm e) s fun t =>
      t.reg GLB_FAULT_LAST = BitVec.ofNat 32 (0x6001 + c.tenant % 64 * 0x10000)) ∧
    (∀ (y z : Seq) (u : State), s.ownSeq c.tenant k = some y → (r.sv l).toNat < y.streams → y.len + n ≤ y.maxLen → y.ring = false →
      ((List.range n).filter fun t => (y.place (y.len + t)).isNone).length + y.used ≤ 32 →
      (if (descOf (r.tdv td)).nonEmpty then
        (s.setSeq k (some (y.alloc y.len n))).each (fun w t => w.appendRow c (descOf (r.tdv td)) y k
          (4 * (r.sv l).toNat + 2 * pl.toNat) (y.len + t) t) (List.range n)
        else (s.setSeq k (some (y.alloc y.len n)), none)) = (u, none) →
      u.seq? k = some z → MidBundle (u.hoop x.hoop) → cm = true → Completes (.kvAppend x td q l pl cm e) s fun t =>
        t.seq? k = some (z.commit (y.len + n)) ∧ (z.commit (y.len + n)).len = y.len + n))

/-- Within an open bundle: SYNC.SIG counts one, at most 65,535, on the hoop that runs the logical hoop, and is discarded where
that is not in use; SYNC.WAIT at or above its value takes it off. TOK.RECV and an unpublished TOK.SEND leave what their
copies leave, the latter with its token noted as sent; TOK.CREDIT returns places to its channel, and 0x4012 is reported
where the firing does not hold so many. LACE.STEP without a network changes nothing, waits while its last step is not due,
and else moves TNOW on by its steps; LACE.LEARN changes no weight, only deltas of plastic synapses; LACE.COMMIT and
LACE_COMMIT_APPLY empty the deltas and disarm. LACE_LOAD and LACE_SAVE set their request; LACE_LOAD_RUN ends it with a
network LOADED or with LOAD_ERR, LACE_SAVE_RUN ends it and keeps the network. -/
def Obligations.SyncTokenAndLaceSyllables : Prop :=
  (∀ (x : Issue) (lh : Fin 32) (c : Fin 16) (r : HRegs) (s : State), Issues x [7] (sylWord 0x01 x (lh.val * 2 ^ 17 + c.val * 2 ^ 13)) r s →
    (lh.val < s.schedCount → Completes (.syncSig x lh c) s fun t => ∀ g k : Nat, spGet (fun _ => 0) (t.hoop g).r.c k =
      if g = s.physical lh ∧ k = c.val then min (spGet (fun _ => 0) (s.hoop g).r.c k + 1) 65535
      else spGet (fun _ => 0) (s.hoop g).r.c k) ∧
    (s.schedCount ≤ lh.val → Completes (.syncSig x lh c) s (SameState s))) ∧
  (∀ (x : Issue) (c : Fin 16) (v : BitVec 12) (r : HRegs) (s : State), Issues x [7] (sylWord 0x02 x (c.val * 2 ^ 13 + v.toNat)) r s →
    v.toNat ≤ spGet (fun _ => 0) (s.hoop x.hoop).r.c c → Completes (.syncWait x c v) s fun t => ∀ k : Nat,
      spGet (fun _ => 0) (t.hoop x.hoop).r.c k =
        spGet (fun _ => 0) (s.hoop x.hoop).r.c k - if k = c.val then v.toNat else 0) ∧
  (∀ (x : Issue) (td : Fin 64) (ch : Fin 8) (i : BitVec 8) (e : MemErr) (f : Firing) (p : Port) (c : Chan) (r : HRegs) (s u : State),
    (s.hoop x.hoop).firing = some f → s.portChan x.hoop p = some c →
    (Issues x [7] (sylWord 0x08 x (tkBits td ch i false)) r s → f.ins[ch.val]? = some p →
      s.tokCopy x.hoop (descOf (r.tdv td)) (c.slot (p.first + i.toNat)) c.bytes false e = (u, none) → MidBundle (u.hoop x.hoop) →
      Completes (.tokRecv x td ch i e) s (SameState u)) ∧
    (Issues x [7] (sylWord 0x09 x (tkBits td ch i false)) r s → f.outs[ch.val]? = some p →
      s.tokCopy x.hoop (descOf (r.tdv td)) (c.slot (p.first + i.toNat)) c.bytes true e = (u, none) → MidBundle (u.hoop x.hoop) →
      Completes (.tokSend x td ch i false e) s (SameState (u.modOut x.hoop ch fun p => { p with
        sent := i.toNat :: p.sent.filter (· != i.toNat) }))) ∧
    (∀ (n : BitVec 8) (g : Graph) (k : Chan), Issues x [7] (sylWord 0x0A x (ch.val * 2 ^ 13 + n.toNat * 2 ^ 5)) r s →
      f.ins[ch.val]? = some p → s.graph? f.graph = some g → g.chans[p.ch]? = some k →
      (n.toNat ≤ p.count - p.gone → Completes (.tokCredit x ch n) s fun t => ∃ g', t.graph? f.graph = some g' ∧
        g'.chans[p.ch]? = some { k with rel := k.rel + n.toNat }) ∧
      (p.count - p.gone < n.toNat → Completes (.tokCredit x ch n) s fun t =>
        (t.reg GLB_FAULT_LAST).toNat % 65536 = 0x4012))) ∧
  (∀ (x : Issue) (p q : Fin 64) (a : Fin 32) (e : MemErr) (r : HRegs) (s : State),
    Issues x [7] (sylWord 0x10 x (p.val * 2 ^ 16 + q.val * 2 ^ 10 + a.val * 2 ^ 5)) r s →
    let l := x.hoop.val - 32
    let n := min (r.sv a).toNat 64
    (s.is (TE_LACE_STAT_LOADED l) = false → Completes (.laceStep x p q a e) s (SameState s)) ∧
    (s.laceEarly l n = true → exec (.laceStep x p q a e) s = .next s) ∧
    (s.is (TE_LACE_STAT_LOADED l) = true → s.laceEarly l n = false → (∀ w ∈ e.sram, w < 2 ^ 19) → (descOf (r.tdv p)).n 0 = 0 →
      (descOf (r.tdv q)).n 0 = 0 → l < 4 → Completes (.laceStep x p q a e) s fun t =>
        t.reg (TE_LACE_TNOW l) = BitVec.ofNat 32 ((s.reg (TE_LACE_TNOW l)).toNat + n * (s.reg (TE_LACE_DT l)).toNat))) ∧
  (∀ (x : Issue) (k : Fin 16) (a : Fin 32) (r : HRegs) (s : State), Issues x [7] (sylWord 0x11 x (k.val * 2 ^ 18 + a.val * 2 ^ 13)) r s →
    let l := x.hoop.val - 32
    (s.is (TE_LACE_STAT_LOADED l) = false → Completes (.laceLearn x k a) s (SameState s)) ∧
    (s.is (TE_LACE_STAT_LOADED l) = true → Completes (.laceLearn x k a) s fun t =>
      t.lace l = { s.lace l with deltas := (t.lace l).deltas } ∧
      ∀ i, (∀ w, (i, w) ∈ (s.lace l).syn → synPlastic w = false) →
        spGet (fun _ => ((0 : Int), (0 : Int))) (t.lace l).deltas i = spGet (fun _ => (0, 0)) (s.lace l).deltas i)) ∧
  (∀ (c : Instr) (x : Issue) (m : Fin 4) (act req : Nat) (csn : BitVec 16) (r : HRegs) (s : State),
    (s.lace m).armed = some (act, req, csn) →
    (c = .laceCommitApply m ∧ s.laceIdle m = true) ∨
      (c = .laceCommitSyllable x ∧ x.hoop.val = 32 + m.val ∧ Issues x [7] (sylWord 0x12 x 0) r s) →
    Completes c s fun t => (t.lace m).deltas = [] ∧ (t.lace m).armed = none ∧
      t.reg (TE_LACE_GEN m) = s.reg (TE_LACE_GEN m) + (if act = 0 then 1 else 0) ∧
      (act ≠ 0 → (t.lace m).syn = (s.lace m).syn)) ∧
  (∀ (iid : Iid) (l : Fin 4) (v : Word) (s : State), s.writeOk iid (TE_LACE_CTL l) = true →
    (v.getLsbD 2 = true → Completes (.laceLoad iid l v) s fun t => OnlyRegs s t ∧ t.is (TE_LACE_CTL_LOAD l) = true ∧
      t.is (TE_LACE_CTL_EN l) = v.getLsbD 0 ∧ RegsKept [TE_LACE_CTL l] s t) ∧
    (v.getLsbD 3 = true → Completes (.laceSave iid l v) s fun t => OnlyRegs s t ∧ t.is (TE_LACE_CTL_SAVE l) = true ∧
      t.is (TE_LACE_CTL_EN l) = v.getLsbD 0 ∧ RegsKept [TE_LACE_CTL l] s t)) ∧
  (∀ (l : Fin 4) (s : State), s.laceIdle l = true → (s.lace l).armed = none →
    (s.is (TE_LACE_CTL_LOAD l) = true → Completes (.laceLoadRun l) s fun t => t.is (TE_LACE_CTL_LOAD l) = false ∧
      t.reg (TE_LACE_GEN l) = 0 ∧ (t.is (TE_LACE_STAT_LOADED l) = true ∨ t.is (TE_LACE_STAT_LOAD_ERR l) = true) ∧
      (t.lace l).v = [] ∧ (t.lace l).deltas = []) ∧
    (s.is (TE_LACE_CTL_SAVE l) = true → Completes (.laceSaveRun l) s fun t => t.is (TE_LACE_CTL_SAVE l) = false ∧
      t.lace l = s.lace l))

/-- TRACK_CLAIM admitted, open and below the quota, with a square free, makes that square the claimant's under the next CSN,
counts it outstanding and answers its number and CSN; closed or full it answers bit 31, at the quota bits 31 and 30, and
changes nothing. SQUARE_WRITE by its owner before publishing places the word, but never the CSN; by anyone else, or after
it, it is reported with 0x8003 and changes nothing else. TRACK_PUBLISH within the lease publishes; otherwise 0x8003.
LEASE_EXPIRY of an unpublished claim counts TK_VOID_CNT, reports 0x8002 and queues its record. COMMAND_ACCEPT copies the
next square into the store. COMPLETION_RECORD_WRITE with room writes the record that has waited longest into the ring and
moves HEAD on by one; without room nothing happens. MSIX_PENDING_SEND sends a held message of an open vector and no other. -/
def Obligations.SquaresAreClaimedAndPublished : Prop :=
  (∀ (iid : Iid) (s : State), s.readOk iid TK_CLAIM = true →
    (s.claimOpen iid.toNat = false → Completes (.trackClaim iid) s fun t => t = { s with outbox := .readData iid TK_CLAIM 0x80000000 :: s.outbox }) ∧
    (s.claimOpen iid.toNat = true → s.atQuota iid.toNat = true → Completes (.trackClaim iid) s fun t =>
      t = { s with outbox := .readData iid TK_CLAIM 0xC0000000 :: s.outbox }) ∧
    (∀ n, s.claimOpen iid.toNat = true → s.atQuota iid.toNat = false → s.freeSquare iid.toNat = some n →
      Completes (.trackClaim iid) s fun t =>
        (t.square n).owner = some iid.toNat ∧ (t.square n).csn = s.nextCsn iid.toNat ∧ (t.square n).since = s.hg.dt ∧
        (t.square n).published = false ∧ t.nextCsn iid.toNat = s.nextCsn iid.toNat + 1 ∧
        t.outstanding iid.toNat = s.outstanding iid.toNat + 1 ∧ t.regs = s.regs ∧
        t.outbox = .readData iid TK_CLAIM (BitVec.ofNat 64 (n + (s.nextCsn iid.toNat).toNat * 2 ^ 12)) :: s.outbox)) ∧
  (∀ (iid : Iid) (n : Fin 4096) (w : Fin 32) (v : Word) (s : State), s.writeOk iid (0xB80000 + 0x80 * n + 4 * w) = true →
    ((s.square n).owner = some iid.toNat → (s.square n).published = false → (s.square n).passed = false →
      Completes (.squareWrite iid n w v) s fun t => t.regs = s.regs ∧ t.track = { s.track with words := t.track.words } ∧
        ∀ i : Nat, spGet (fun _ => 0) t.track.words i = if i = 32 * n.val + w.val then
          (if w = 2 then (spGet (fun _ => 0) s.track.words i &&& 0xFFFF0000) ||| (v &&& 0xFFFF) else v)
          else spGet (fun _ => 0) s.track.words i) ∧
    (((s.square n).owner ≠ some iid.toNat ∨ (s.square n).published = true ∨ (s.square n).passed = true) →
      Completes (.squareWrite iid n w v) s fun t => OnlyRegs s t ∧
        t.reg GLB_FAULT_LAST = BitVec.ofNat 32 (0x8003 + iid.toNat * 0x10000))) ∧
  (∀ (iid : Iid) (v : Word) (s : State), s.writeOk iid TK_PUBLISH = true →
    let n := v.toNat % 4096
    ((s.square n).owner = some iid.toNat → (s.square n).published = false → (s.square n).passed = false →
      s.hg.dt < s.leaseEnd (s.square n) → Completes (.trackPublish iid v) s fun t =>
        t.square n = { s.square n with published := true } ∧ (∀ m, m ≠ n → t.square m = s.square m) ∧ t.regs = s.regs) ∧
    (((s.square n).owner ≠ some iid.toNat ∨ (s.square n).published = true ∨ s.leaseEnd (s.square n) ≤ s.hg.dt) →
      Completes (.trackPublish iid v) s fun t => OnlyRegs s t ∧
        t.reg GLB_FAULT_LAST = BitVec.ofNat 32 (0x8003 + iid.toNat * 0x10000))) ∧
  (∀ (n : Fin 4096) (r : Nat) (s : State), (s.square n).owner = some r → (s.square n).published = false →
    Completes (.leaseExpiry n) s fun t => (t.reg TK_VOID_CNT).toNat = min ((s.reg TK_VOID_CNT).toNat + 1) 0xFFFFFFFF ∧
      t.reg GLB_FAULT_LAST = BitVec.ofNat 32 (0x8002 + r % 64 * 0x10000) ∧
      ∃ x, t.tkRecs r = s.tkRecs r ++ [x] ∧ x.csn = (s.square n).csn ∧ x.status = 0x8002 ∧ x.notice = false) ∧
  (∀ (n : Nat) (s : State), s.is TK_CTL_EN = true → s.nextSquare = some n → Completes .commandAccept s fun t =>
    let q := s.square n
    t.track.store = s.track.store ++
      [{ req := q.owner.getD 0, csn := q.csn, square := n, bytes := s.squareBytes n, ord := s.track.ord }] ∧ t.regs = s.regs) ∧
  (∀ (r : Fin 10) (x : TkRec) (rest : List TkRec) (s : State), s.tkRecs r = x :: rest →
    (r.val < 8 → s.cqRoom r = false → exec (.completionRecordWrite r) s = .next s) ∧
    (r.val < 8 → s.cqRoom r = true → Completes (.completionRecordWrite r) s fun t =>
      let head := (s.reg (TK_CQ_HEAD r)).toNat % s.cqSize r
      t.tkRecs r = rest ∧ t.reg (TK_CQ_HEAD r) = BitVec.ofNat 32 ((head + 1) % s.cqSize r) ∧
      .hostWrite r.val (s.pair (TK_CQ_BASE_LO r) / 64 * 64 + 32 * head)
        (x.bytes (spGet (fun _ => true) s.track.phase r) s.now) false ∈ t.outbox) ∧
    (8 ≤ r.val → Completes (.completionRecordWrite r) s fun t => t.tkRecs r = rest ∧
      spGet (fun _ => []) t.track.own r = x :: spGet (fun _ => []) s.track.own r)) ∧
  (∀ (k : Fin 8) (v : Fin 32) (s : State),
    ((s.hostFn k).pend.getLsbD v = true → s.msixOpen k v = true → Completes (.msixPendingSend k v) s fun t =>
      t.outbox = .msix k.val v.val :: s.outbox ∧ (t.hostFn k).pend = (s.hostFn k).pend &&& ~~~ (BitVec.twoPow 32 v.val) ∧ t.regs = s.regs) ∧
    (((s.hostFn k).pend.getLsbD v = false ∨ s.msixOpen k v = false) → exec (.msixPendingSend k v) s = .next s))

/-- A command of the store that may execute now, and is the next on its targets; `p` names its row. -/
def Executes (r : Fin 10) (n : BitVec 16) (p : TkCmd → Bool) (c : TkCmd) (s : State) : Prop :=
  s.cmd? r n = some c ∧ p c = true ∧ s.mayExec c = true ∧ s.isNext c = true

/-- The rows that execute a command of the Track, with their commands. -/
def trackRows : List ((Fin 10 → BitVec 16 → Instr) × (TkCmd → Bool)) :=
  [(.nop, fun c => isOp 0 c || !opcodes.contains (c.u 0 1)), (.fence, isOp 0x04), (.timeEvent, isOp 0x05), (.copy, isOp 0x03),
   (.tableStage, isOp 0x08), (.tableCommit, isOp 0x09), (.laceCommit, isOp 0x20), (.kvCreate, isOp 0x10), (.kvFork, isOp 0x11),
   (.kvFree, isOp 0x12), (.kvPinPin, isPin 0), (.kvPinUnpin, isPin 1), (.kvPinPrefetch, isPin 2), (.resumeCommand, isKind 0x30 0),
   (.resumeActor, isKind 0x30 1), (.abortCommand, isKind 0x31 0), (.abortActor, isKind 0x31 1), (.abortGraph, isKind 0x31 2),
   (.abortTurn, isKind 0x31 3), (.launchTurn, isOp 0x01), (.launchActors, isOp 0x02), (.extentGrant, isOp 0x18),
   (.extentRecall, isOp 0x19), (.extentRelease, isOp 0x1A)]


/-- A command that may execute and fails the checks of R498 and R495 completes with that check's code, reported under its
requester, whatever its row. Past them: NOP and FENCE complete; TIME_EVENT whose time has passed completes with 0x8009, and
otherwise runs until TIME_EVENT_REACHED, at its time; COPY begins to run, or fails with 0x9006 outside the tenant's windows;
COPY_GRANULE from a HOST whose function is not disabled writes the granule and counts its bytes, and is suspended with a
notice where its destination faults; while the function is disabled nothing happens; TABLE_STAGE of a wrong length fails
with 0x8008, and one that passes is staged; TABLE_COMMIT that names nothing staged fails with 0x8001, one whose turn has
gone with 0x8007, and one for a turn to come pends; LACE_COMMIT arms its hoop. Completion takes the command off the store
and queues its record. -/
def Obligations.TrackCommandsComplete : Prop :=
  (∀ q ∈ trackRows, ∀ (r : Fin 10) (n : BitVec 16) (c : TkCmd) (code : Nat) (s : State), Executes r n q.2 c s →
    s.cmdCode c = some code →
    Completes (q.1 r n) s fun t => t = s.fail c code 0) ∧
  (∀ (c : TkCmd) (st v : Nat) (s : State), let t := s.complete c st v
    t = { s with track := t.track } ∧ t.tkRecs c.req = s.tkRecs c.req ++ [c.record st v false] ∧
    t.track.store = s.track.store.filter fun x => !(x.req == c.req && x.csn == c.csn)) ∧
  (∀ (r : Fin 10) (n : BitVec 16) (c : TkCmd) (s : State), s.cmdCode c = none →
    (Executes r n (isOp 0x00) c s → Completes (.nop r n) s fun t => t = s.complete c 0 0) ∧
    (Executes r n (isOp 0x04) c s → Completes (.fence r n) s fun t => t = s.complete c 0 0) ∧
    (Executes r n (isOp 0x05) c s → c.u 16 1 = 0 →
      (c.u 24 8 < s.now → Completes (.timeEvent r n) s fun t => t = s.complete c 0x8009 (c.u 24 8)) ∧
      (s.now ≤ c.u 24 8 → Completes (.timeEvent r n) s fun t => t = s.startCmd c)) ∧
    (Executes r n (isOp 0x03) c s → ∀ k, c.tenant = some k →
      ((c.u 16 1 ≠ 2 ∨ s.fsWindow k (c.u 24 8) (c.u 20 4) = true) → Completes (.copy r n) s fun t => t = s.startCmd c) ∧
      (c.u 16 1 = 2 → s.fsWindow k (c.u 24 8) (c.u 20 4) = false → Completes (.copy r n) s fun t =>
        t = (s.bump HI_DENY_CNT_REGION).fail c 0x9006 0)) ∧
    (Executes r n (isOp 0x08) c s → c.u 32 4 ≠ kindLength (c.u 16 1) → Completes (.tableStage r n) s fun t => t = s.fail c 0x8008 0) ∧
    (∀ (k : Nat) (x : VRes) (u : State), Executes r n (isOp 0x08) c s → c.u 32 4 = kindLength (c.u 16 1) →
      s.slotFor (c.u 16 1) (c.u 20 4) = true → c.tenant = some k →
      s.tenantRead c.req k (c.u 24 8) (kindLength (c.u 16 1)) {} = (u, x) → x.fault = none → x.poison = false →
      u.tableCheck (c.u 16 1) x.bytes = none → Completes (.tableStage r n) s fun t =>
        ⟨c.u 16 1, c.u 20 4, x.bytes, u.track.stageOrd⟩ ∈ t.track.staged ∧
        t.tkRecs c.req = u.tkRecs c.req ++ [c.record 0 (c.u 16 1) false]) ∧
    (Executes r n (isOp 0x09) c s →
      let pend : Commit := ⟨c.req, c.csn, c.u 16 1, c.u 20 4, if s.turnsRun then some (c.u 24 8) else none, 0, false⟩
      let bare := !(c.u 16 1).testBit 4 && ({ s with track := { s.track with commit := some pend } }).carriedTabs.isEmpty
      (bare = true → Completes (.tableCommit r n) s fun t => t = s.fail c 0x8001 0) ∧
      (bare = false → s.turnsRun = true → c.u 24 8 < s.hg.nextTurn → Completes (.tableCommit r n) s fun t => t = s.fail c 0x8007 0) ∧
      (bare = false → s.turnsRun = true → s.hg.nextTurn ≤ c.u 24 8 → Completes (.tableCommit r n) s fun t =>
        t.track.commit = some pend ∧ t.regs = s.regs)) ∧
    (Executes r n (isOp 0x20) c s → Completes (.laceCommit r n) s fun t =>
      (t.lace (c.u 16 1)).armed = some (c.u 17 1, c.req, c.csn) ∧ t.is (TE_LACE_STAT_COMMIT_ARMED (c.u 16 1)) = true)) ∧
  (∀ (r : Fin 10) (n : BitVec 16) (c : TkCmd) (s : State), s.cmd? r n = some c → c.phase = .running →
    (isOp 0x05 c = true → c.u 16 1 = 0 → Completes (.timeEventReached r n) s fun t =>
      t = (s.advanceTo (c.u 24 8 * 256)).complete c 0 (c.u 24 8)) ∧
    (∀ (host : List Byte) (e : MemErr) (k : Nat) (ps : List (Option Nat × Nat)) (u : State), isOp 0x03 c = true → c.u 16 1 = 1 →
      c.u 17 1 = 0 → 0 < c.granule → host.length = c.granule → c.tenant = some k →
      (s.is (HI_FUNC_STAT_DISABLED k) = true → exec (.copyGranule r n host e) s = .next s) ∧
      (s.is (HI_FUNC_STAT_DISABLED k) = false → s.vaMap c.req k true e 3 (c.u 32 8 + c.done) c.granule = (u, .ok ps) → Completes (.copyGranule r n host e) s fun t =>
        let v := u.writePieces c.req e ps { bytes := host, marks := List.replicate c.granule false }
        t = v.copyEnd { c with done := c.done + c.granule, waits := c.waits ++ v.pool.mirrorWait.drop u.pool.mirrorWait.length }) ∧
      (∀ code, s.is (HI_FUNC_STAT_DISABLED k) = false → s.vaMap c.req k true e 3 (c.u 32 8 + c.done) c.granule = (u, .error code) →
        Completes (.copyGranule r n host e) s fun t => t = (u.putCmd { c with phase := .suspended }).notice c code c.done)))

/-- LAUNCH_TURN whose ranges can be pinned names the image and the turn from which it is in force; one whose pin-walk fails
completes with its code. LAUNCH_ACTORS of a graph number in use fails with 0x800F; one whose tables read well makes the
graph of its actors and channels. FIRING_PLACE on the lowest hoop that is free and has a ready actor in good order starts
its firing there. PARKED_FIRING_RESUME lets a firing go on when what it waits for is there, and not before. RESUME and ABORT
of a command act on a suspended COPY and on a command that waits; of an actor on its held firing, or on an actor held
without one; ABORT of a graph with no firing frees it; ABORT of the TURN with nothing in force fails with 0x800A, and
otherwise nothing is in force or to come. -/
def Obligations.LaunchesResumesAndAborts : Prop :=
  (∀ (r : Fin 10) (n : BitVec 16) (c : TkCmd) (k : Nat) (s u : State), s.cmdCode c = none → c.tenant = some k → s.is TE_CTL_EN = true →
    (Executes r n (isOp 0x01) c s →
      (s.pinAll (.turn c.ord) k c.pinRanges = (u, 0) → Completes (.launchTurn r n) s fun t =>
        t.eng.sched = { u.eng.sched with next := some ⟨⟨c.ord, k, c.u 16 8 % 2 ^ 48, c.u 24 4⟩, c.u 32 8, c.req, c.csn, (u.hg.run, u.hg.nextTurn)⟩ }) ∧
      (∀ code, code ≠ 0 → s.pinAll (.turn c.ord) k c.pinRanges = (u, code) → Completes (.launchTurn r n) s fun t =>
        t = u.complete c code 0)) ∧
    (Executes r n (isOp 0x02) c s →
      ((s.graph? (k * 64 + c.u 16 1)).isSome = true → Completes (.launchActors r n) s fun t => t = s.fail c 0x800F 0) ∧
      (∀ (x y : VRes) (v w : State) (l : List Actor), s.graph? (k * 64 + c.u 16 1) = none →
        s.actorCount.1 + c.u 18 2 ≤ 8192 → s.actorCount.2 + c.u 20 2 ≤ 16384 →
        s.tenantRead c.req k (c.u 24 8) (8 * c.u 18 2) {} = (u, x) → x.fault = none → x.poison = false →
        u.tenantRead c.req k (c.u 32 8) (32 * c.u 20 2) {} = (v, y) → y.fault = none → y.poison = false →
        v.readActors c.req k ((entries x.bytes 8 (c.u 18 2)).map fun b => leNat b % 2 ^ 48) = (w, l) →
        Completes (.launchActors r n) s fun t => ∃ g, t.graph? (k * 64 + c.u 16 1) = some g ∧ g.cmd = c ∧
          g.chans = (entries y.bytes 32 (c.u 20 2)).map chanOf ∧ g.actors.map (·.header) = l.map (·.header)))) ∧
  (∀ (h : Fin 36) (c : Cand) (g : Graph) (a : Actor) (s : State),
    firstIdx (fun l => s.hoopFree l && (s.choose l).isSome) h = none → s.hoopFree h = true → s.choose h = some c →
    s.graph? c.key = some g → g.actors[c.actor]? = some a → actorOk g c.actor a (decide (32 ≤ h.val)) = true →
    Completes (.firingPlace h) s fun t => (t.hoop h).st = .running ∧ (t.hoop h).pc = 0 ∧
      (∃ f, (t.hoop h).firing = some f ∧ f.graph = c.key ∧ f.actor = c.actor ∧ f.turn = s.curTurn) ∧ t.regs = s.regs) ∧
  (∀ (h : Fin 36) (q m : Nat) (ks bs : List Nat) (s : State), (s.hoop h).stall = .parked q m ks bs →
    (s.unparks q m ks bs = true → Completes (.parkedFiringResume h) s fun t =>
      HoopOnly h s t { s.hoop h with stall := .none }) ∧
    (s.unparks q m ks bs = false → exec (.parkedFiringResume h) s = .next s)) ∧
  (∀ (r : Fin 10) (n : BitVec 16) (c : TkCmd) (s : State), s.cmdCode c = none →
    (∀ x, Executes r n (isKind 0x30 0) c s → c.u 16 1 = 0 → s.target? c = some x →
      (x.phase = .suspended → Completes (.resumeCommand r n) s fun t =>
        t = (s.putCmd { x with phase := .running }).complete c 0 0) ∧
      (x.phase ≠ .suspended → Completes (.resumeCommand r n) s fun t => t = s.fail c 0x800A 0)) ∧
    (∀ x, Executes r n (isKind 0x31 0) c s → s.target? c = some x →
      (x.phase ≠ .running → Completes (.abortCommand r n) s fun t => t = (s.complete x 0x800B x.done).complete c 0 0) ∧
      (x.phase = .running → Completes (.abortCommand r n) s fun t => t = s.fail c 0x800A 0)) ∧
    (∀ (g : Graph) (a : Actor), s.graph? c.graphKey = some g → g.actors[c.u 22 2]? = some a →
      (∀ h code, s.firingOf c.graphKey (c.u 22 2) = some h → (s.hoop h).stall = .held code →
        (Executes r n (isKind 0x30 1) c s → Completes (.resumeActor r n) s fun t =>
          (t.hoop h).stall = .none ∧ (t.hoop h).firing = (s.hoop h).firing ∧
          t.tkRecs c.req = s.tkRecs c.req ++ [c.record 0 0 false]) ∧
        (Executes r n (isKind 0x31 1) c s → Completes (.abortActor r n) s fun t =>
          (t.hoop h).firing = none ∧ (t.hoop h).st = .idle)) ∧
      (s.firingOf c.graphKey (c.u 22 2) = none → a.st = .held →
        (Executes r n (isKind 0x30 1) c s → Completes (.resumeActor r n) s fun t =>
          ∃ g' a', t.graph? c.graphKey = some g' ∧ g'.actors[c.u 22 2]? = some a' ∧ a'.st = .ready) ∧
        (Executes r n (isKind 0x31 1) c s → Completes (.abortActor r n) s fun t =>
          ∃ g' a', t.graph? c.graphKey = some g' ∧ g'.actors[c.u 22 2]? = some a' ∧ a'.st = .dead)) ∧
      (Executes r n (isKind 0x31 2) c s → (∀ h f, (s.hoop h).firing = some f → f.graph ≠ c.graphKey) →
        Completes (.abortGraph r n) s fun t => t.graph? c.graphKey = none)) ∧
    (Executes r n (isKind 0x31 2) c s → s.graph? c.graphKey = none → Completes (.abortGraph r n) s fun t => t = s.fail c 0x800A 0) ∧
    (Executes r n (isKind 0x31 3) c s →
      (s.eng.sched.image = none → s.eng.sched.next = none → Completes (.abortTurn r n) s fun t => t = s.fail c 0x800A 0) ∧
      (s.eng.sched.image.isSome = true → Completes (.abortTurn r n) s fun t =>
        t.eng.sched.image = none ∧ t.eng.sched.next = none ∧ t.eng.sched.pending = none ∧ t.eng.sched.resident = none ∧
        (s.eng.sched.running.isSome = true → t.eng.sched.fault ≠ 0))))

/-- KV_CREATE of a live number fails with 0x6006, and one that passes makes an empty sequence of its descriptor. KV_FORK of a
number in use, or beyond the length, fails with 0x6006; one that waits for no place makes the child at its length, sharing
its leaves. KV_FREE marks the sequence; FREEING_COMPLETE of a marked one removes it once no gather of it is parked, and
changes nothing otherwise. KV_PIN PIN and UNPIN with every Skein here count the pins of the Skeins of their range; PREFETCH
asks for those that are away. THIMBLE_FLUSH that is due empties the place it flushed. SKEIN_SPILL and BACKGROUND_SPILL start
the victim's spill; SPILL_COMPLETE keeps its bytes and counts; SKEIN_RETURN takes a block; RETURN_COMPLETE puts the bytes
back and counts, or loses the Skein with 0x5020; EXHAUSTED_RETRY tries what is wanted again. -/
def Obligations.SequencesComeAndGo : Prop :=
  (∀ (r : Fin 10) (n : BitVec 16) (c : TkCmd) (k : Nat) (s : State), s.cmdCode c = none → c.tenant = some k → s.is SK_CTL_EN = true →
    (Executes r n (isOp 0x10) c s →
      ((s.seq? (c.u 16 2)).isSome = true → Completes (.kvCreate r n) s fun t => t = s.fail c 0x6006 0) ∧
      (∀ (u : State) (x : VRes) (b : Nat), s.seq? (c.u 16 2) = none → s.tenantRead c.req k (c.u 24 8) 64 {} = (u, x) →
        x.fault = none → x.poison = false → descOk x.bytes = true →
        u.thimRoom (thimUnits (leAt x.bytes 0 2) (entryData (leAt x.bytes 2 1) (leAt x.bytes 4 2))
          (entryScale (leAt x.bytes 2 1) (leAt x.bytes 4 2))) = some b →
        Completes (.kvCreate r n) s fun t => ∃ y, t.seq? (c.u 16 2) = some y ∧ y.tenant = k ∧ y.len = 0 ∧
          y.streams = leAt x.bytes 0 2 ∧ y.fmt = leAt x.bytes 2 1 ∧ y.dim = leAt x.bytes 4 2 ∧ y.maxLen = leAt x.bytes 8 4 ∧
          y.area.1 = b ∧ y.places = [] ∧ y.leaves = [] ∧ y.exhausted = false)) ∧
    (∀ x, s.kvSeq c (c.u 16 2) = some x →
      (Executes r n (isOp 0x11) c s →
        ((s.seq? (c.u 18 2)).isSome = true ∨ x.len < c.u 20 4 → Completes (.kvFork r n) s fun t => t = s.fail c 0x6006 0) ∧
        (∀ b, s.seq? (c.u 18 2) = none → c.u 20 4 ≤ x.len → x.places = [] → s.thimRoom x.area.2 = some b → c.u 16 2 ≠ c.u 18 2 →
          Completes (.kvFork r n) s fun t => ∃ y, t.seq? (c.u 18 2) = some y ∧ y.len = c.u 20 4 ∧ y.lane = c.u 24 1 ∧
            y.tenant = x.tenant ∧ y.places = [] ∧ (∀ p ∈ y.leaves, p ∈ x.leaves) ∧ t.seq? (c.u 16 2) = s.seq? (c.u 16 2))) ∧
      (Executes r n (isOp 0x12) c s → (∀ h, (s.hoop h).stall = .none) → Completes (.kvFree r n) s fun t =>
        t.seq? (c.u 16 2) = some { x with freeing := true, places := [], want := none } ∧ t.regs = s.regs) ∧
      (∀ (i : Nat) (y : Skein), c.u 24 4 ≤ x.maxLen → c.u 20 4 ≤ c.u 24 4 → x.skeinsIn (c.u 20 4) (c.u 24 4) = [i] → s.skein? i = some y →
        (Executes r n (isPin 0) c s → c.u 18 1 = 0 → y.st = .live → y.pins < 65535 → Completes (.kvPinPin r n) s fun t =>
          t.skein? i = some { y with pins := y.pins + 1 } ∧ t.tkRecs c.req = s.tkRecs c.req ++ [c.record 0 (c.u 16 2) false]) ∧
        (Executes r n (isPin 1) c s → 2 ≤ y.pins → Completes (.kvPinUnpin r n) s fun t =>
          t.skein? i = some { y with pins := y.pins - 1 } ∧ t.tkRecs c.req = s.tkRecs c.req ++ [c.record 0 (c.u 16 2) false]) ∧
        (Executes r n (isPin 2) c s → c.u 18 1 = 2 → y.st = .spilled → x.returns = [] → Completes (.kvPinPrefetch r n) s fun t =>
          t.seq? (c.u 16 2) = some { x with returns := [i] } ∧ t.tkRecs c.req = s.tkRecs c.req)))) ∧
  (∀ (q : Fin 1024) (x : Seq) (s : State), s.seq? q = some x →
    (x.freeing = true → s.gathers q = false → Completes (.freeingComplete q) s fun t => t.seq? q = none) ∧
    (x.freeing = false ∨ s.gathers q = true → exec (.freeingComplete q) s = .next s) ∧
    (s.flushDue q = false → exec (.thimbleFlush q) s = .next s) ∧
    (∀ (pl : SkPlace) (u : State), s.flushDue q = true → x.oldest = some pl → s.flushOne q = (u, true) →
      (∀ c ∈ u.track.store, isOp 0x11 c = false) → u.pending = s.pending → u.boot = s.boot → Completes (.thimbleFlush q) s fun t => t = u ∧
        ∀ y, t.seq? q = some y → y.place pl.pos = none) ∧
    (∀ (l i : Nat) (y : Skein), x.want = some (.block l) → s.victim x.lane = some (i, y) → s.sk.take s.skSize l = none →
      Completes (.skeinSpill q) s fun t => t = s.setSkein i (some { y with st := .spilling })) ∧
    (∀ (i u : Nat) (y : Skein) (k : Sk), s.skein? i = some y → y.st = .spilled → x.returns.contains i = true →
      s.sk.take s.skSize y.log = some (u, k) → k.seqs = s.sk.seqs →
      Completes (.skeinReturn q i) s fun t => t.skein? i = some { y with st := .returning, unit := u } ∧
        t.seq? q = some { x with want := none, exhausted := false } ∧ t.regs = s.regs) ∧
    (x.exhausted = false → exec (.exhaustedRetry q) s = .next s) ∧
    (∀ i, x.exhausted = true → x.want = some (.back i) → Completes (.exhaustedRetry q) s fun t => exec (.skeinReturn q i) s = .next t) ∧
    (∀ u, x.exhausted = true → (∀ i, x.want ≠ some (.back i)) → s.flushOne q = (u, true) → u.pending = s.pending → u.boot = s.boot →
      Completes (.exhaustedRetry q) s fun t => t = u)) ∧
  (∀ (i : Nat) (x : Skein) (s : State), s.skein? i = some x →
    (x.st ≠ .spilling → exec (.spillComplete i) s = .next s) ∧
    (x.st = .spilling → Completes (.spillComplete i) s fun t =>
      t.skein? i = some { x with st := .spilled, saved := s.bytesAt (s.skDpa x) (2 ^ x.log * 4096) } ∧
      t.get SK_STAT_SPILLS = min (s.get SK_STAT_SPILLS + 1) (2 ^ SK_STAT_SPILLS.w - 1) ∧ t.mem = s.mem) ∧
    (x.st = .returning → x.refs ≠ 0 → (∀ c ∈ s.track.store, isOp 0x13 c = false) →
      (Completes (.returnComplete i true) s fun t => t.skein? i = some { x with st := .live, saved := [] } ∧
        t.get SK_STAT_RETURNS = min (s.get SK_STAT_RETURNS + 1) (2 ^ SK_STAT_RETURNS.w - 1) ∧
        ∀ j, j < x.saved.length → t.byteAt (s.skDpa x + j) = x.saved.getD j 0) ∧
      (Completes (.returnComplete i false) s fun t => t.skein? i = some { x with st := .lost, saved := [] } ∧
        t.reg GLB_FAULT_LAST = 0x1A5020 ∧ t.mem = s.mem)) ∧
    (s.sk.bg = false → s.skFree * 100 < s.get SK_CFG_LOW_PCT * (s.skSize * 512) →
      (s.skFree + s.skUnits (· == .spilling)) * 100 < s.get SK_CFG_HIGH_PCT * (s.skSize * 512) →
      (s.setSk fun k => { k with bg := true }).victim 3 = some (i, x) → Completes .backgroundSpill s fun t =>
        t.sk.bg = true ∧ t.skein? i = some { x with st := .spilling })) ∧
  (∀ s : State, s.sk.bg = false → s.get SK_CFG_LOW_PCT * (s.skSize * 512) ≤ s.skFree * 100 → exec .backgroundSpill s = .next s)

/-- HOOP_RETIRE by anyone but the Referee is reported with 0x400C and changes nothing else; of an unused hoop it marks it
retired, takes its power and reports 0x4009. RELOCATION_APPLY whose table cannot be read fails with 0x4002;
RELOCATION_COMPLETE ends an application and makes the next program load its code. CHECKPOINT reached by every hoop notes
itself, dated with this instant; one already passed changes nothing. AVS_RESPONSE that is good starts the ramp, a first bad
one resends, a second reports 0x4007 and holds the Governor. AVS_RAMP_END with nothing waiting leaves the Governor idle.
GOV_PRETURN_SET before a turn sends the voltage of the turn before, at least VFLOOR. PROGRAM_END with every hoop done ends
the program: its turn has its fault and its Witness reports, and 0x4005 is reported where it took longer than the deadline. -/
def Obligations.EngineSchedulesAndGoverns : Prop :=
  (∀ (iid : Iid) (v : Word) (s : State), s.writeOk iid TE_RETIRE = true →
    (iid ≠ 8 → Completes (.hoopRetire iid v) s fun t => OnlyRegs s t ∧
      t.reg GLB_FAULT_LAST = BitVec.ofNat 32 (0x400C + iid.toNat * 0x10000) ∧
      RegsKept [GLB_FAULT_FIRST, GLB_FAULT_LAST, GLB_FAULT_COUNT] s t) ∧
    (iid = 8 → v.toNat % 64 < 32 → s.retired (v.toNat % 64) = false → s.role (v.toNat % 64) ≠ 1 →
      (s.hoop (v.toNat % 64)).firing = none → s.applying = false → Completes (.hoopRetire iid v) s fun t =>
        t.retired (v.toNat % 64) = true ∧ t.hoop (v.toNat % 64) = {} ∧ (∀ g, g ≠ v.toNat % 64 → t.hoop g = s.hoop g) ∧
        t.reg GLB_FAULT_LAST % 65536 = 0x4009 ∧ RegsKept [GLB_FAULT_FIRST, GLB_FAULT_LAST, GLB_FAULT_COUNT, TE_RETIRED_LO] s t) ∧
    (iid = 8 → s.retired (v.toNat % 64) = true → exec (.hoopRetire iid v) s = .next s)) ∧
  (∀ (turn : Nat) (s : State), s.eng.reloc.applying = some turn → s.eng.sched.running = none → s.eng.sched.pending = none →
    (∀ u, turn < s.hg.nextTurn → s.eng.reloc.logical = none → s.pinnedRead schedIid s.relocTenant s.relocVa 12 {} = (u, none) →
      u.eng = s.eng → Completes .relocationApply s fun t => t.reg GLB_FAULT_LAST = 0xA4002 ∧ t.get TE_RELOC_STAT_STATE = 0 ∧
        t.eng.reloc.applying = none ∧ t.eng.reloc.noSpare = true) ∧
    (∀ l, s.eng.reloc.logical = some l → Completes .relocationComplete s fun t => t.get TE_RELOC_STAT_STATE = 3 ∧
      t.eng.reloc.applying = none ∧ t.eng.reloc.logical = some l ∧ t.eng.sched.mustLoad = true ∧ RegsKept [TE_RELOC_STAT] s t)) ∧
  (∀ (k : Fin 64) (m : Nat) (s : State), s.eng.sched.running = some m →
    ((∀ x, s.eng.sched.reached = some x → x.1 < k.val) → k.val ≤ s.lastCkpt → s.ckptReached k = true →
      Completes (.checkpoint k) s fun t => t.eng.sched.reached = some (k.val, s.hg.dt) ∧ t.reg TE_GOV_CKPT = BitVec.ofNat 32 k.val ∧
        t.reg TE_GOV_RATE = BitVec.ofNat 32 ((s.measure k).1 * 256000 / max (s.measure k).2 1)) ∧
    ((∃ x, s.eng.sched.reached = some x ∧ k.val ≤ x.1) → exec (.checkpoint k) s = .next s)) ∧
  (∀ (v : Nat) (again : Bool) (st : BitVec 5) (s : State), s.eng.gov.frame = some (v, again) →
    (Completes (.avsResponse false st) s fun t => t.eng.gov = { s.eng.gov with frame := none, ramp := true } ∧
      t.reg TE_GOV_VNOW = BitVec.ofNat 32 v ∧ t.get TE_AVS_STAT_LAST_STATUS = st.toNat) ∧
    (again = false → Completes (.avsResponse true st) s fun t => t.eng.gov = { s.eng.gov with frame := some (v, true) } ∧
      t.is TE_AVS_STAT_ERR = true ∧ t.reg TE_GOV_VNOW = s.reg TE_GOV_VNOW) ∧
    (again = true → Completes (.avsResponse true st) s fun t => t.eng.gov.frame = none ∧ t.is TE_STATUS_GOV_HOLD = true ∧
      t.is TE_AVS_STAT_BUSY = false ∧ t.reg GLB_FAULT_LAST = 0xA4007)) ∧
  (∀ s : State, s.eng.gov.ramp = true → s.eng.gov.wait = none → Completes .avsRampEnd s fun t =>
    t.eng.gov = { s.eng.gov with ramp := false } ∧ t.is TE_AVS_STAT_BUSY = false ∧ RegsKept [TE_AVS_STAT] s t) ∧
  (∀ s : State, s.is TE_CTL_GOV_EN = true → s.is HG_TURN_CTL_ACTIVE = true → s.eng.sched.running = none →
    s.is TE_STATUS_GOV_HOLD = false → s.eng.gov.ramp = false → s.eng.gov.frame = none → s.eng.gov.early = false → s.pwr.cap = false →
    let v := max s.eng.gov.vEnd (s.reg TE_GOV_VFLOOR).toNat
    v ≠ s.eng.gov.v → Completes .govPreturnSet s fun t =>
      t.eng.gov = { s.eng.gov with v := v, frame := some (v, false), wait := none } ∧ t.is TE_AVS_STAT_BUSY = true ∧
      RegsKept [TE_AVS_STAT] s t) ∧
  (∀ (n : Nat) (s : State), s.eng.sched.running = some n → s.eng.sched.pending = none → s.progDone = true →
    Completes .programEnd s fun t => t.eng.sched.running = none ∧
      t.loom.turns = modFirst (fun x => x.turn == n && !x.ended) (fun x => { x with
        ended := true, fault := s.eng.sched.fault, reports := s.witReports n }) s.loom.turns ∧
      ((s.reg TE_GOV_DEADLINE).toNat * 256 < s.hg.dt - s.eng.sched.turnAt → t.reg GLB_FAULT_LAST = 0xA4005))

/-- Where the memories are in their canonical form: an admitted write through the pool window, to a range without protection,
stores its bytes and leaves every other byte as it was, an admitted read returns the bytes, and a refused one changes no
byte and reports 0x900B; WRITEBACK_DRAIN takes the oldest line off the buffer and changes no byte; REEL_FLUSH and
REEL_FLUSH_DONE set and clear FLUSH and change no byte; REEL_FILL_COMPLETE ends the fill, and poisons the line where it
failed; SCRUB_LINE counts a corrected line, and poisons an uncorrectable one and reports 0x5011; and all of these keep the
canonical form. ATU_INVALIDATE of all removes the tenant's pinned mappings and no other's, and stays until
ATU_INVALIDATE_DONE; ATU_FAULT_POP takes the oldest fault. -/
def Obligations.MemoryHoldsWhatIsWritten : Prop :=
  (∀ (k : Fin 8) (off len : Nat) (data : List Byte) (ep : Bool) (e : MemErr) (s : State), Memory.wf s = true →
    let a := 2 ^ 21 * ((s.reg (HI_PWIN_BASE k)).toNat % 2 ^ 19) + off
    (s.pwinReq k off len true data = true → s.pwinCheck k off len true = none → s.protOf a = none →
      Completes (.poolWindowAccess k off true len data ep e) s fun t =>
        (∀ i, i < len → t.byteAt (a + i) = data.getD i 0) ∧ (∀ b, b < a ∨ a + len ≤ b → t.byteAt b = s.byteAt b) ∧
        (ep = true → ∀ i, i < len → t.poisoned ((a + i) / 64) = true)) ∧
    (s.pwinReq k off len false data = true → s.pwinCheck k off len false = none → e = {} →
      (∀ i, i < len → s.poisoned ((a + i) / 64) = false) → Completes (.poolWindowAccess k off false len data ep e) s fun t =>
        t.outbox = .poolData k.val (s.bytesAt a len) false :: s.outbox ∧ ∀ b, t.byteAt b = s.byteAt b) ∧
    (∀ wr, s.pwinReq k off len wr data = true → s.pwinCheck k off len wr = some 0x900B → ep = false →
      Completes (.poolWindowAccess k off wr len data ep e) s fun t => t.mem = s.mem ∧
        t.reg GLB_FAULT_LAST = BitVec.ofNat 32 (0x900B + k.val * 0x10000))) ∧
  (∀ (l : Nat) (rest : List Nat) (s : State), Memory.wf s = true → s.mem.wb = l :: rest → Completes .writebackDrain s fun t =>
    t.mem.wb = rest ∧ (∀ b, t.byteAt b = s.byteAt b) ∧ t = { s with mem := t.mem }) ∧
  (∀ (iid : Iid) (s : State), s.writeOk iid MEM_RC_CTL = true → Completes (.reelFlush iid) s fun t =>
    t.is MEM_RC_CTL_FLUSH = true ∧ t.is MEM_STATUS_FLUSHING = true ∧ t.mem = { s.mem with flush := s.mem.unwritten }) ∧
  (∀ s : State, Memory.wf s = true → s.is MEM_RC_CTL_FLUSH = true → Completes .reelFlushDone s fun t =>
    t.is MEM_RC_CTL_FLUSH = false ∧ t.is MEM_STATUS_FLUSHING = false ∧ t.mem.flush = [] ∧ (∀ b, t.byteAt b = s.byteAt b) ∧
    ∀ l ∈ s.mem.flush, l ∉ t.mem.unwritten) ∧
  (∀ (l : Nat) (s : State), s.mem.filling.contains l = true →
    (Completes (.reelFillComplete l true) s fun t => t = { s with mem := { s.mem with filling := s.mem.filling.filter (· != l) } }) ∧
    (Completes (.reelFillComplete l false) s fun t => t.reg GLB_FAULT_LAST = 0x1A5020 ∧ l ∉ t.mem.filling ∧
      (∀ i, i < 256 → t.poisoned (l * 256 + i) = true) ∧ ∀ b, t.byteAt b = s.byteAt b)) ∧
  (∀ (l : Nat) (s : State), s.is MEM_SCRUB_CFG_EN = true → s.get MC_PWR_STAT_STATE < 2 → s.mem.scrubbed + 1 < scrubLines →
    (Completes (.scrubLine l .ok) s fun t => t.mem = { s.mem with scrubbed := s.mem.scrubbed + 1 }) ∧
    (Completes (.scrubLine l .corrected) s fun t => t.mem = { s.mem with scrubbed := s.mem.scrubbed + 1 } ∧
      (t.reg (MEM_ECC_CE (bobbinOf (l * 64)))).toNat = min ((s.reg (MEM_ECC_CE (bobbinOf (l * 64)))).toNat + 1) 0xFFFFFFFF) ∧
    (s.poisoned l = false → Completes (.scrubLine l .uncorrectable) s fun t => t.poisoned l = true ∧ t.reg GLB_FAULT_LAST = 0x1B5011 ∧
      t.pair MEM_SCRUB_UE_LO = l * 64 % 2 ^ 64 ∧ ∀ b, t.byteAt b = s.byteAt b)) ∧
  (∀ (c : Instr) (s t : State), Memory.wf s = true → exec c s = .next t →
    (c = .writebackDrain ∨ c = .reelFlushDone ∨ (∃ i, c = .reelFlush i) ∨ (∃ l ok, c = .reelFillComplete l ok) ∨
      (∃ l f, c = .scrubLine l f) ∨ ∃ k off wr len data ep e, c = .poolWindowAccess k off wr len data ep e) →
    Memory.wf t = true) ∧
  (∀ (iid : Iid) (k : Fin 8) (v : Word) (s : State), s.writeOk iid (AT_INV_CTL k) = true → v.getLsbD 30 = true → v.getLsbD 31 = true →
    Completes (.atuInvalidate iid k v) s fun t => t.is (AT_INV_CTL_GO k) = true ∧
      t.atu = { s.atu with pts := s.atu.pts.filter fun p => !(p.tenant == k.val) }) ∧
  (∀ (k : Fin 8) (s : State), Completes (.atuInvalidateDone k) s fun t => OnlyRegs s t ∧ t.is (AT_INV_CTL_GO k) = false ∧
    RegsKept [AT_INV_CTL k] s t) ∧
  (∀ (iid : Iid) (k : Fin 8) (f : AtuFault) (rest : List AtuFault) (s : State), s.readOk iid (AT_FAULT_INFO k) = true →
    spGet (fun _ => []) s.atu.faults k = f :: rest → Completes (.atuFaultPop iid k) s fun t =>
      spGet (fun _ => []) t.atu.faults k = rest ∧ t.atu.pts = s.atu.pts ∧
      ∃ d, t.outbox = .readData iid (AT_FAULT_INFO k) d :: s.outbox ∧ d.toNat % 16 = f.reason % 16)

/-- A write to PL_RGN_CFG by anyone but the fabric manager is reported with 0x7001 and changes nothing else; the fabric
manager's moves a closed region with a valid range to LOADING at once, an open one to SEALED through a drain, and
REGION_DRAIN_COMPLETE ends the drain in the new state; another move is reported with 0x7004. EXTENT_GRANT of a FREE extent
with a valid range gives it to its holder under the next generation, which it returns; of another, 0x7003. EXTENT_RECALL of
the held generation begins the recall, with FORCE the revocation, and its command waits; of another generation it fails with
0x7010. EXTENT_RELEASE by the holder begins the revocation; with another generation 0x7011. RECALL_GRACE_EXPIRY turns
RECALLING into REVOKING; REVOCATION_COMPLETE frees the extent and clears its notice. -/
def Obligations.PoolSharesAndRevokes : Prop :=
  (∀ (iid : Iid) (r : Fin 16) (v : Word) (s : State), s.writeOk iid (PL_RGN_CFG r) = true →
    (s.isFm iid.toNat = false → Completes (.regionStateWrite iid r v) s fun t => OnlyRegs s t ∧
      t.reg GLB_FAULT_LAST = BitVec.ofNat 32 (0x7001 + iid.toNat * 0x10000) ∧
      RegsKept [GLB_FAULT_FIRST, GLB_FAULT_LAST, GLB_FAULT_COUNT] s t) ∧
    (s.isFm iid.toNat = true → s.get (PL_RGN_CFG_STATE r) = 0 → v.toNat % 4 = 1 →
      let u := s.setReg (PL_RGN_CFG r) ((s.reg (PL_RGN_CFG r) &&& ~~~ BitVec.ofNat 32 rgnCfgMask) ||| (v &&& BitVec.ofNat 32 rgnCfgMask))
      (u.rangeCheck r (u.reg (PL_RGN_BASE r)).toNat (u.reg (PL_RGN_SIZE r)).toNat (u.get (PL_RGN_CFG_PROT r)) = none →
        Completes (.regionStateWrite iid r v) s fun t => t.get (PL_RGN_CFG_STATE r) = 1 ∧ t.is (PL_RGN_STAT_DRAINING r) = false ∧
          t.reg (PL_RGN_CFG r) &&& BitVec.ofNat 32 rgnCfgMask = v &&& BitVec.ofNat 32 rgnCfgMask) ∧
      (∀ c, u.rangeCheck r (u.reg (PL_RGN_BASE r)).toNat (u.reg (PL_RGN_SIZE r)).toNat (u.get (PL_RGN_CFG_PROT r)) = some c →
        Completes (.regionStateWrite iid r v) s fun t => t.reg (PL_RGN_CFG r) = s.reg (PL_RGN_CFG r) ∧
          (t.reg GLB_FAULT_LAST).toNat % 65536 = c % 65536)) ∧
    (s.isFm iid.toNat = true → s.get (PL_RGN_CFG_STATE r) = 1 → v.toNat % 4 = 2 →
      s.reg (PL_RGN_CFG r) &&& BitVec.ofNat 32 rgnCfgMask = v &&& BitVec.ofNat 32 rgnCfgMask →
      Completes (.regionStateWrite iid r v) s fun t => t.get (PL_RGN_CFG_STATE r) = 1 ∧ t.is (PL_RGN_STAT_DRAINING r) = true ∧
        spGet (fun _ => none) t.pool.next r = some 2) ∧
    (s.isFm iid.toNat = true → s.get (PL_RGN_CFG_STATE r) = 2 → v.toNat % 4 = 1 → Completes (.regionStateWrite iid r v) s fun t =>
      t.reg (PL_RGN_CFG r) = s.reg (PL_RGN_CFG r) ∧ (t.reg GLB_FAULT_LAST).toNat % 65536 = 0x7004)) ∧
  (∀ (r : Fin 16) (st : Nat) (s : State), spGet (fun _ => none) s.pool.next r = some st → st < 4 →
    Completes (.regionDrainComplete r) s fun t => t.get (PL_RGN_CFG_STATE r) = st ∧ t.is (PL_RGN_STAT_DRAINING r) = false ∧
      spGet (fun _ => none) t.pool.next r = none) ∧
  (∀ (r : Fin 10) (n : BitVec 16) (c : TkCmd) (s : State), s.cmdCode c = none → s.is PL_CTL_EN = true → c.u 16 1 < 32 →
    let x := c.u 16 1
    let gen := s.get (PL_EXT_STATE_GEN x)
    (Executes r n (isOp 0x18) c s → s.is PL_FM_VALID = true →
      (s.get (PL_EXT_STATE_STATE x) ≠ 0 → Completes (.extentGrant r n) s fun t => t = s.fail c 0x7003 0) ∧
      (s.get (PL_EXT_STATE_STATE x) = 0 → s.rangeCheck 16 (c.u 20 4) (c.u 24 4) (c.u 18 1 / 2 % 4) = none →
        Completes (.extentGrant r n) s fun t =>
          let g := if gen = 0xFFFF then 1 else gen + 1
          t.get (PL_EXT_STATE_STATE x) = 1 ∧ t.get (PL_EXT_STATE_GEN x) = g ∧ (t.reg (PL_EXT_BASE x)).toNat = c.u 20 4 ∧
          (t.reg (PL_EXT_SIZE x)).toNat = c.u 24 4 ∧ t.tkRecs c.req = s.tkRecs c.req ++ [c.record 0 g false])) ∧
    (Executes r n (isOp 0x19) c s →
      (c.u 18 2 ≠ gen → Completes (.extentRecall r n) s fun t => t = s.fail c 0x7010 (c.u 18 2)) ∧
      (c.u 18 2 = gen → s.get (PL_EXT_STATE_STATE x) = 1 → (c.u 17 1 = 1 → Completes (.extentRecall r n) s fun t =>
          t.get (PL_EXT_STATE_STATE x) = 3 ∧ t.is PL_STATUS_REVOKING = true ∧ t.tkRecs c.req = s.tkRecs c.req) ∧
        (c.u 17 1 = 0 → (s.get (PL_EXT_STATE_HOLDER x)).testBit 3 = false → Completes (.extentRecall r n) s fun t =>
          t.get (PL_EXT_STATE_STATE x) = 2 ∧ (t.ext x).graceFrom = s.hg.dt ∧
          (t.reg (PL_NOTICE (s.get (PL_EXT_STATE_HOLDER x) % 8))).getLsbD x = true ∧ t.tkRecs c.req = s.tkRecs c.req))) ∧
    (Executes r n (isOp 0x1A) c s →
      (c.u 18 2 ≠ gen → Completes (.extentRelease r n) s fun t => t = s.fail c 0x7011 (c.u 18 2)) ∧
      (c.u 18 2 = gen → some (holderOf (s.get (PL_EXT_STATE_HOLDER x))) = c.tenant → s.get (PL_EXT_STATE_STATE x) = 1 →
        Completes (.extentRelease r n) s fun t => t.get (PL_EXT_STATE_STATE x) = 3 ∧
          (t.ext x).waiters = (s.ext x).waiters ++ [(c.req, c.csn, 0)] ∧ t.tkRecs c.req = s.tkRecs c.req))) ∧
  (∀ (x : Fin 32) (s : State),
    (s.get (PL_EXT_STATE_STATE x) = 2 → Completes (.recallGraceExpiry x) s fun t => t.get (PL_EXT_STATE_STATE x) = 3 ∧
      t.is PL_STATUS_REVOKING = true ∧ t.ext x = s.ext x) ∧
    (s.get (PL_EXT_STATE_STATE x) ≠ 2 → exec (.recallGraceExpiry x) s = .next s) ∧
    (s.get (PL_EXT_STATE_STATE x) = 3 → Completes (.revocationComplete x) s fun t => t.get (PL_EXT_STATE_STATE x) = 0 ∧
      (t.ext x).waiters = [] ∧ (t.reg (PL_NOTICE (s.get (PL_EXT_STATE_HOLDER x) % 8))).getLsbD x = false))

/-- FUNCTION_ENABLE with the enables that the function needs, and no Function Level Reset in progress, makes it present and not
disabled, takes its MSI-X enable and function mask, and its port's link is up; no other function changes. FUNCTION_DISABLE
takes its enables and makes it disabled and not present; where no fault stood in GLB_FAULT_FIRST and the function was not
disabled, 0x9009 does. FUNCTION_LEVEL_RESET also sets FLR, and the queue and ATU registers hold their reset values until and
after FUNCTION_LEVEL_RESET_DONE clears FLR. LINK_DOWN of a link that is up clears its bit, resets its four functions, and is
reported with 0x900A. Where its cause does not hold, each does nothing (log entry 5). -/
def Obligations.FunctionsComeAndGo : Prop :=
  (∀ (k : Fin 8) (mse bme vfe msix fmask : Bool) (s : State),
    (fnOn k mse bme vfe = true → s.is (HI_FUNC_STAT_FLR k) = false → Completes (.functionEnable k mse bme vfe msix fmask) s fun t =>
      t.is (HI_FUNC_STAT_DISABLED k) = false ∧ t.is (HI_FUNC_STAT_PRESENT k) = true ∧ t.is (HI_FUNC_STAT_MSE k) = true ∧
      t.is (HI_FUNC_STAT_BME k) = true ∧ t.hostFn k = { s.hostFn k with msixEn := msix, fmask := fmask } ∧
      (t.reg HI_STATUS).getLsbD (8 * (k.val / 4)) = true ∧
      ∀ j : Fin 8, j ≠ k → t.reg (HI_FUNC_STAT j) = s.reg (HI_FUNC_STAT j) ∧ t.hostFn j = s.hostFn j) ∧
    ((fnOn k mse bme vfe = false ∨ s.is (HI_FUNC_STAT_FLR k) = true) → exec (.functionEnable k mse bme vfe msix fmask) s = .next s) ∧
    (fnOn k mse bme vfe = false → Completes (.functionDisable k mse bme vfe) s fun t =>
      t.is (HI_FUNC_STAT_DISABLED k) = true ∧ t.is (HI_FUNC_STAT_PRESENT k) = false ∧ t.is (HI_FUNC_STAT_MSE k) = mse ∧
      t.is (HI_FUNC_STAT_BME k) = bme ∧
      (s.is (HI_FUNC_STAT_DISABLED k) = false → s.reg GLB_FAULT_FIRST = 0 →
        t.reg GLB_FAULT_FIRST = BitVec.ofNat 32 (0x9009 + k.val * 0x10000))) ∧
    (fnOn k mse bme vfe = true → exec (.functionDisable k mse bme vfe) s = .next s)) ∧
  (∀ (k : Fin 8) (s : State),
    (Completes (.functionLevelReset k) s fun t =>
      t.is (HI_FUNC_STAT_DISABLED k) = true ∧ t.is (HI_FUNC_STAT_FLR k) = true ∧ t.is (HI_FUNC_STAT_PRESENT k) = false ∧
      t.is (HI_FUNC_STAT_MSE k) = false ∧ t.is (HI_FUNC_STAT_BME k) = false ∧ t.reg (TK_CQ_CFG k) = regReset (TK_CQ_CFG k) ∧
      t.reg (TK_CQ_HEAD k) = regReset (TK_CQ_HEAD k) ∧ t.reg (AT_TEN_CTL k) = regReset (AT_TEN_CTL k) ∧
      t.reg (AT_ROOT_LO k) = regReset (AT_ROOT_LO k) ∧
      (s.is (HI_FUNC_STAT_DISABLED k) = false → s.reg GLB_FAULT_FIRST = 0 →
        t.reg GLB_FAULT_FIRST = BitVec.ofNat 32 (0x9009 + k.val * 0x10000))) ∧
    (s.is (HI_FUNC_STAT_FLR k) = true → Completes (.functionLevelResetDone k) s fun t =>
      t.is (HI_FUNC_STAT_FLR k) = false ∧ t.is (HI_FUNC_STAT_DISABLED k) = s.is (HI_FUNC_STAT_DISABLED k) ∧
      t.reg (TK_CQ_CFG k) = regReset (TK_CQ_CFG k) ∧ t.reg (AT_TEN_CTL k) = regReset (AT_TEN_CTL k)) ∧
    (s.is (HI_FUNC_STAT_FLR k) = false → exec (.functionLevelResetDone k) s = .next s)) ∧
  (∀ (p : Fin 2) (s : State),
    ((s.reg HI_STATUS).getLsbD (8 * p) = true → Completes (.linkDown p) s fun t =>
      (t.reg HI_STATUS).getLsbD (8 * p) = false ∧
      (∀ i : Fin 4, t.is (HI_FUNC_STAT_DISABLED (4 * p.val + i)) = true ∧ t.is (HI_FUNC_STAT_PRESENT (4 * p.val + i)) = false) ∧
      (s.reg GLB_FAULT_FIRST = 0 → t.reg GLB_FAULT_FIRST = BitVec.ofNat 32 (0x900A + 4 * p.val * 0x10000))) ∧
    ((s.reg HI_STATUS).getLsbD (8 * p) = false → exec (.linkDown p) s = .next s))

/-- COLD_RESET without test mode keeps FUSE_RB, the Reel's data, HG_BK_STAT and RF_SAFE_CAUSE, clears the lock and the Bobbins,
and takes the first flash slot that passes; with none it enters recovery. In test mode nothing boots. WARM_RESET keeps the
Hourglass's RUN, the Bobbins with their poison, the Referee running and all its registers, and FUSE_RB, and clears the lock;
written by Initiator ID 9 it is the same reset, by another nothing. PORT_RESET disables the port's functions, takes its link
down, and holds its PERST_N low. CONFIG_LOCK by Initiator ID 9 sets the lock and stage 5 and nothing else. ROLLBACK_COMMIT
by the power owner raises FUSE_RB to the running image's ROLLBACK, and changes nothing else. RECOVERY_LOAD in recovery loads
an image that passes and reports 0xC00A for one that does not. VDD_REF_FALL stops the Referee and changes nothing else. -/
def Obligations.ResetsKeepWhatTheSpecSays : Prop :=
  (∀ (x : Straps) (f : BootFlash) (s : State),
    (x.testEn = false → Completes (.coldReset x f) s fun t =>
      t.boot.fuse = s.boot.fuse ∧ t.boot.lock = false ∧ t.mem = { reel := s.mem.reel } ∧ t.fs = [] ∧
      t.reg HG_BK_STAT = s.reg HG_BK_STAT ∧ t.reg RF_SAFE_CAUSE = s.reg RF_SAFE_CAUSE ∧ t.ref.running = false ∧
      t.outbox = s.outbox ∧ t.boot.recovery = !(f.paenoA || f.paenoB) ∧
      ((f.paenoA || f.paenoB) = true → t.boot.slot = !f.paenoA ∧ t.boot.version = f.version ∧ t.boot.stage = 1 ∧
        t.get MC_RAIL_STAT_EN = 1)) ∧
    (x.testEn = true → Completes (.coldReset x f) s fun t =>
      t.boot.stage = 0 ∧ t.boot.recovery = false ∧ t.boot.fuse = s.boot.fuse ∧ t.get MC_RAIL_STAT_EN = 0)) ∧
  (∀ s : State,
    (Completes (.warmReset none) s fun t => t.boot.lock = false ∧ t.boot.fuse = s.boot.fuse ∧ t.hg.run = s.hg.run ∧
      t.mem.bob = s.mem.bob ∧ t.mem.poison = s.mem.poison ∧ t.mem.reel = s.mem.reel ∧ t.ref.running = s.ref.running ∧
      (∀ o, o / 0x100000 = 0xE → t.reg o = s.reg o) ∧ t.reg HG_BK_STAT = s.reg HG_BK_STAT) ∧
    (∀ i : Iid, s.writeOk i MC_RST_CTL = true →
      exec (.warmReset (some i)) s = if i = 9 then exec (.warmReset none) s else .next s) ∧
    exec .vddRefFall s = .next { s with ref := { s.ref with on := false, running := false, halted := true } }) ∧
  (∀ (p : Fin 2) (s : State), Completes (.portReset p) s fun t =>
    (t.reg HI_STATUS).getLsbD (8 * p) = false ∧ t.pwr.perst.testBit p = true ∧ t.pwr.resumed.testBit p = false ∧
    ∀ i : Fin 4, t.is (HI_FUNC_STAT_DISABLED (4 * p.val + i)) = true ∧ t.is (HI_FUNC_STAT_PRESENT (4 * p.val + i)) = false) ∧
  (∀ (v : Word) (s : State), s.writeOk 9 MC_LOCK = true → v.getLsbD 0 = true →
    exec (.configLock 9 v) s = .next { s with boot := { s.boot with lock := true, stage := 5 } }) ∧
  (∀ (iid : Iid) (v : Word) (s : State), s.writeOk iid MC_BOOT_CTL = true →
    exec (.rollbackCommit iid v) s =
      if s.is MC_PWR_OWNER_VALID = true ∧ s.get MC_PWR_OWNER_TENANT = iid.toNat ∧ v.getLsbD 0 = true then
        .next { s with boot := { s.boot with fuse := max s.boot.fuse s.boot.rollback } }
      else .next s) ∧
  (∀ (iid : Iid) (v ver : Word) (s : State), s.writeOk iid MC_RECOV_GO = true →
    (s.boot.recovery = true → s.boot.lock = false → v.getLsbD 0 = true →
      (Completes (.recoveryLoad iid v true ver) s fun t => t.boot.recovery = false ∧ t.boot.version = ver ∧
        t.boot.fuse = s.boot.fuse ∧ s.boot.fuse ≤ t.boot.rollback ∧ (t.get MC_RAIL_STAT_EN).testBit 0 = true) ∧
      (Completes (.recoveryLoad iid v false ver) s fun t => OnlyRegs s t ∧ t.reg GLB_FAULT_LAST = 0x9C00A)) ∧
    (s.boot.recovery = false → ∀ ok, exec (.recoveryLoad iid v ok ver) s = .next s))

/-- POWER_GOOD_RISE of an enabled rail sets its power-good bit; at stage 1 it enables the next rail, and with all four good the
stage is 2; of a rail that is not enabled it does nothing. RAIL_FAULT of an enabled rail clears its power-good bit and ends
a power-state entry or exit; a fault code that finds GLB_FAULT_FIRST empty is 0xC007 there; the Hoop memories go with
VDD_CORE, READY of the Reel with VDD_REEL, the links with VDD_LINK, the Frame Store with VDD_SOC. BOBBIN_TRAINING_DONE
before stage 3: with every stack trained the stage is 3, or 4 where the Referee runs; a stack that fails is trained once
more; one that fails again ends in recovery. REEL_INIT is reported with 0xC004 where the Reel is not ready; REEL_READY makes
it so. -/
def Obligations.RailsTrainingAndReel : Prop :=
  (∀ (r : Fin 4) (s : State),
    ((s.get MC_RAIL_STAT_EN).testBit r = false → exec (.powerGoodRise r) s = .next s ∧ exec (.railFault r) s = .next s) ∧
    ((s.get MC_RAIL_STAT_EN).testBit r = true →
      let pg := setBits (s.get MC_RAIL_STAT_PG) r 1 1
      (Completes (.powerGoodRise r) s fun t => OnlyRegs { s with boot := t.boot } t ∧ RegsKept [MC_RAIL_STAT] s t ∧
        t.get MC_RAIL_STAT_PG = pg ∧
        (s.boot.stage ≠ 1 → t.boot = s.boot ∧ t.get MC_RAIL_STAT_EN = s.get MC_RAIL_STAT_EN) ∧
        (s.boot.stage = 1 → pg = 15 → t.boot = { s.boot with stage := 2 }) ∧
        (s.boot.stage = 1 → pg ≠ 15 → r.val ≠ 3 → t.boot = s.boot ∧ (t.get MC_RAIL_STAT_EN).testBit (r.val + 1) = true)) ∧
      (Completes (.railFault r) s fun t => (t.get MC_RAIL_STAT_PG).testBit r = false ∧ t.pwr.entering = none ∧
        t.pwr.leaving = none ∧ t.is MC_PWR_STAT_MOVING = false ∧ t.boot = s.boot ∧
        (s.reg GLB_FAULT_FIRST = 0 → t.reg GLB_FAULT_FIRST = 0x9C007) ∧
        ((s.get MC_RAIL_STAT_PG).testBit r = true →
          (r.val = 0 → t.fs = [] ∧ t.fsBad = []) ∧ (r.val = 1 → t.is MEM_STATUS_REEL_READY = false) ∧
          (r.val = 2 → t.is HI_STATUS_UP_A = false ∧ t.is HI_STATUS_UP_B = false) ∧
          (r.val = 3 → ∀ h : Fin 36, (t.hoop h).sram = []))))) ∧
  (∀ (ok : BitVec 4) (s : State),
    (3 ≤ s.boot.stage ∨ s.boot.recovery = true → exec (.bobbinTrainingDone ok) s = .next s) ∧
    (s.boot.stage < 3 → s.boot.recovery = false → Completes (.bobbinTrainingDone ok) s fun t =>
      t.get MEM_STATUS_TRAINED = ok.toNat ∧
      (ok = 15 → t.boot = { s.boot with stage := if s.ref.running then 4 else 3 }) ∧
      (ok ≠ 15 → (∀ k : Fin 4, ok.getLsbD k = false → s.boot.retried.testBit k = false) → t.boot.stage = s.boot.stage ∧
        t.boot.recovery = false ∧ ∀ k : Fin 4, ok.getLsbD k = false → t.boot.retried.testBit k = true) ∧
      ((∃ k : Fin 4, ok.getLsbD k = false ∧ s.boot.retried.testBit k = true) → t.boot.recovery = true ∧ t.boot.stage = 0 ∧
        t.reg GLB_FAULT_LAST = 0x9C002))) ∧
  (∀ s : State,
    (s.is MEM_STATUS_REEL_READY = true → exec .reelInit s = .next s) ∧
    (s.is MEM_STATUS_REEL_READY = false → Completes .reelInit s fun t => OnlyRegs s t ∧ t.reg GLB_FAULT_LAST = 0x9C004) ∧
    (Completes .reelReady s fun t => OnlyRegs s t ∧ t.is MEM_STATUS_REEL_READY = true ∧ RegsKept [MEM_STATUS] s t))

/-- Wake reason b is recorded, and an exit is in progress. -/
def Sys2Proof.Machine.Woken (b : Nat) (t : State) : Prop := (t.reg MC_WAKE_PEND).getLsbD b = true ∧ t.pwr.leaving.isSome = true


/-- POWER_STATE_CHOOSE in ACTIVE begins the entry into the state it chooses, which may be entered and fits before the next known
event. POWER_STATE_ENTRY_DONE reaches it, and takes what it takes away; POWER_STATE_EXIT_DONE reaches ACTIVE, with 0xC009
where it came late. PAUSE_EXIT, WAKE_TIME, WAKE_EVENT, WAKE_IN of at least 10 µs and HOST_WAKE begin the exit, and in a
sleeping state set their bit of MC_WAKE_PEND. WAKE_REPORT moves the reasons to MC_WAKE_RPT where the owner may be told.
PREP_OFF is refused with 0xC008 while turns run, and flushes the Reel cache otherwise. THERMAL_SAMPLE shows the hottest
sensor, and starts and ends the thermal cap; WEAR_LEVEL shows the free blocks and forces levelling; IDLE_CAL and FORCED_CAL
start a recalibration. Where its cause does not hold, each does nothing (log entry 5). -/
def Obligations.PowerStatesWakesAndUpkeep : Prop :=
  (∀ s : State,
    (s.is MC_PWR_STAT_MOVING = false → s.get MC_PWR_STAT_STATE = 0 →
      let u := s.publishEvent
      Completes .powerStateChoose s fun t =>
        (u.choosePower = 0 → t = { u with pending := s.pending, boot := s.boot }) ∧
        (u.choosePower ≠ 0 → t.pwr = { s.pwr with entering := some u.choosePower, since := s.hg.dt } ∧
          t.is MC_PWR_STAT_MOVING = true ∧ u.powerOk u.choosePower = true ∧ u.powerFits u.choosePower = true)) ∧
    (s.pwr.entering = none → exec .powerStateEntryDone s = .next s) ∧
    (∀ k, s.pwr.entering = some k → k ≤ 4 → Completes .powerStateEntryDone s fun t =>
      t.get MC_PWR_STAT_STATE = k ∧ t.is MC_PWR_STAT_MOVING = false ∧ t.pwr.entering = none ∧
      (2 ≤ k → (∀ h : Fin 36, (t.hoop h).sram = []) ∧ t.get MC_RAIL_STAT_EN = s.get MC_RAIL_STAT_EN &&& (15 - railsOff k)) ∧
      (k = 4 → t.fs = [] ∧ t.mem.cache = [] ∧ t.mem.wb = [])) ∧
    (s.pwr.leaving = none → exec .powerStateExitDone s = .next s) ∧
    (∀ k, s.pwr.leaving = some k → Completes .powerStateExitDone s fun t =>
      t.get MC_PWR_STAT_STATE = 0 ∧ t.is MC_PWR_STAT_MOVING = false ∧ t.pwr.leaving = none ∧ t.pwr.held = [] ∧
      (s.pwr.spent + s.exitTime k * 256 < s.hg.dt - s.pwr.since → t.reg GLB_FAULT_LAST = 0x9C009)) ∧
    (s.sleepLevel = 1 → s.powerRow 1 = false → Completes .pauseExit s fun t => t.pwr.leaving.isSome = true) ∧
    (s.sleepLevel ≠ 1 ∨ s.powerRow 1 = true → exec .pauseExit s = .next s)) ∧
  (∀ s : State, 2 ≤ s.sleepLevel → s.sleepLevel ≤ 4 →
    (s.wakeOn 0 = true → s.pwr.wakeMet ≠ some (s.pair MC_WAKE_AT_LO) → Completes .wakeTime s fun t =>
      Woken 0 t ∧ t.pwr.wakeMet = some (s.pair MC_WAKE_AT_LO) ∧ t.hg.dt = (s.advanceTo (s.pair MC_WAKE_AT_LO * 256)).hg.dt) ∧
    (s.pair MC_NEXT_EV_LO < 0xFFFFFFFF * 2 ^ 32 → Completes .wakeEvent s (Woken 1)) ∧
    (∀ ns, 10000 ≤ ns → s.wakeOn 6 = true → Completes (.wakeIn ns) s (Woken 6)) ∧
    ∀ p : Fin 2, (Completes (.hostWake p 0) s (Woken (2 + p.val))) ∧
      (Completes (.hostWake p 1) s fun t => Woken (2 + p.val) t ∧ t.pwr.wakeN.testBit p = false) ∧
      (s.pwr.perst.testBit p = true → Completes (.hostWake p 2) s fun t => Woken (2 + p.val) t ∧ t.pwr.perst.testBit p = false)) ∧
  (∀ s : State,
    (s.wakeOn 0 = false ∨ s.sleepLevel < 2 → exec .wakeTime s = .next s) ∧
    (s.sleepLevel = 0 → exec .wakeEvent s = .next s) ∧
    (∀ ns, ns < 10000 → exec (.wakeIn ns) s = .next s) ∧
    (s.ownerReady = true → s.reg MC_WAKE_PEND ≠ 0 → Completes .wakeReport s fun t =>
      t.reg MC_WAKE_RPT = s.reg MC_WAKE_RPT ||| s.reg MC_WAKE_PEND ∧ t.reg MC_WAKE_PEND = 0 ∧ t.pwr.msgAt = some t.hg.dt) ∧
    (s.ownerReady = false ∨ s.reg MC_WAKE_PEND = 0 → exec .wakeReport s = .next s)) ∧
  (∀ (iid : Iid) (v : Word) (s : State), s.writeOk iid MC_PWR_REQ = true → v.getLsbD 8 = true → v.toNat % 8 ≤ 4 →
    (s.active = true → Completes (.prepOff iid v) s fun t => t.reg GLB_FAULT_LAST = 0x9C008 ∧ t.mem = s.mem ∧ t.pwr = s.pwr) ∧
    (s.active = false → Completes (.prepOff iid v) s fun t => t.is MC_PWR_REQ_PREP_OFF = true ∧ t.is MEM_STATUS_FLUSHING = true ∧
      t.mem = { s.mem with flush := s.mem.unwritten } ∧ t.pwr = { s.pwr with off := true } ∧
      t.get MC_PWR_REQ_DEEPEST = v.toNat % 8)) ∧
  (∀ (die stack : List Int) (power : Nat) (x : Int) (r : List Int) (s : State), die ++ stack = x :: r →
    let h := hottest r 1 (0, x)
    let warm := decide ((s.get MC_THERM_CFG_WARN : Int) ≤ h.2)
    let crit := decide ((s.get MC_THERM_CFG_CRIT : Int) ≤ h.2)
    Completes (.thermalSample die stack power) s fun t => t.get MC_TEMP_MAX_TJ = unsign 8 h.2 ∧
      t.get MC_TEMP_MAX_SENSOR = h.1 % 16 ∧ t.reg MC_POWER = BitVec.ofNat 32 power ∧ t.pwr.warm = warm ∧ t.pwr.crit = crit ∧
      t.pwr.cap = ((crit && !s.pwr.cap) || (s.pwr.cap && warm))) ∧
  (∀ (free slc : Nat) (s : State), free ≤ 100 → slc ≤ 100 → Completes (.wearLevel free slc) s fun t =>
    t.get MEM_REEL_STAT_FREE_PCT = free ∧ t.get MEM_REEL_STAT_SLC_FREE_PCT = slc ∧
    t.pwr = { s.pwr with wear := wearForced s.pwr.wear free, slc := wearForced s.pwr.slc slc } ∧
    RegsKept [MEM_REEL_STAT, MC_BG_STAT] s t) ∧
  (∀ (p : Fin 2) (s : State),
    (s.svState p = 4 →
      (s.track.store = [] → (s.svPort p).queue = [] → s.calDue p (s.get MC_CAL_CFG_IDLE_MIN_S) = true → Completes (.idleCal p) s fun t =>
        t.svState p = 5 ∧ t.outbox = .svCal p :: s.outbox ∧ (t.svPort p).calAt = s.hg.dt ∧
        t.get MC_BG_STAT_CAL_IDLE = min (s.get MC_BG_STAT_CAL_IDLE + 1) 255) ∧
      (Completes (.forcedCal p) s fun t => t.svState p = 5 ∧ t.outbox = .svCal p :: s.outbox ∧ (t.svPort p).calAt = t.hg.dt)) ∧
    (s.svState p ≠ 4 → exec (.idleCal p) s = .next s ∧ exec (.forcedCal p) s = .next s))

/-- The state after a loss: TRAIN again, where the port is enabled and the device does not stand alone. -/
def Sys2Proof.Machine.AfterLoss (p : Nat) (s t : State) : Prop :=
  t.svState p = if s.is (SV_PORT_CTL_EN p) = true ∧ s.svMembers ≠ 1 then 1 else 0


/-- SV_PORT_ENABLE takes a port from DOWN to TRAIN unless the device stands alone, SV_PORT_DISABLE takes it DOWN;
LANE_TRAINING_DONE takes it to ALIGN, LANE_BLOCK_LOCK and LANE_MARKER_LOCK with deskew on all four lanes from ALIGN to INIT
and from CAL to UP, SV_INIT_DONE to UP. LINK_TRAIN_FAIL is reported with 0xA001 and retried by SV_TRAIN_RETRY; a lost lane
of an UP port, and a recalibration that does not end, take it down with 0xA002, unless the peer has just sent CAL. A NAK
replays what is not acknowledged, and takes the port down where a message has been sent too often. TX_STALE_DROP drops what
has gone stale. Where its cause does not hold, each does nothing (log entry 5). -/
def Obligations.SelvedgePortsTrainAndRecover : Prop :=
  (∀ (iid : Iid) (p : Fin 2) (s : State), s.writeOk iid (SV_PORT_CTL p) = true →
    (s.svState p = 0 → s.svMembers ≠ 1 → (s.svPort p).retry = none → Completes (.svPortEnable iid p) s fun t =>
      t.is (SV_PORT_CTL_EN p) = true ∧ t.svState p = 1) ∧
    (s.svMembers = 1 → Completes (.svPortEnable iid p) s fun t => t.is (SV_PORT_CTL_EN p) = true ∧ t.svState p = s.svState p) ∧
    (Completes (.svPortDisable iid p) s fun t => t.is (SV_PORT_CTL_EN p) = false ∧ t.svState p = 0 ∧
      t.get (SV_PORT_STAT_LANES_LOCKED p) = 0 ∧ (t.svPort p).retry = none ∧ (t.svPort p).unacked = [])) ∧
  (∀ (p : Fin 2) (s : State),
    (s.svState p = 1 → Completes (.laneTrainingDone p) s fun t => t.svState p = 2 ∧ (t.svPort p).locked = true) ∧
    (s.svState p ≠ 1 → exec (.laneTrainingDone p) s = .next s) ∧
    (s.svState p = 1 ∨ s.svState p = 2 → Completes (.linkTrainFail p) s fun t => t.svState p = 0 ∧
      t.reg GLB_FAULT_LAST = BitVec.ofNat 32 (0xA001 + (24 + p.val) * 0x10000) ∧
      (t.svPort p).retry = some (t.hg.dt + 100000000 * 256)) ∧
    (s.svState p ≠ 1 → s.svState p ≠ 2 → exec (.linkTrainFail p) s = .next s) ∧
    (∀ x, (s.svPort p).retry = some x → s.svState p = 0 → s.is (SV_PORT_CTL_EN p) = true → s.svMembers ≠ 1 →
      Completes (.svTrainRetry p) s fun t => t.svState p = 1 ∧ (t.svPort p).retry = none) ∧
    ((s.svPort p).retry = none → exec (.svTrainRetry p) s = .next s) ∧
    (s.svState p = 3 → Completes (.svInitDone p) s fun t => t.svState p = 4 ∧ (t.svPort p).calAt = s.hg.dt ∧
      (t.svPort p).timeAt = s.hg.dt ∧ (t.svPort p).rxLseq = 4095) ∧
    (s.svState p ≠ 3 → exec (.svInitDone p) s = .next s) ∧
    (s.svState p = 4 → Completes (.selvedgeCal p) s fun t => t.svState p = 5 ∧ t.get (SV_PORT_STAT_LANES_LOCKED p) = 0 ∧
      t.outbox = .svCal p :: s.outbox) ∧
    (s.svState p ≠ 4 → exec (.selvedgeCal p) s = .next s) ∧
    (s.svState p = 5 → Completes (.calTimeout p) s fun t => AfterLoss p s t ∧
      t.reg GLB_FAULT_LAST = BitVec.ofNat 32 (0xA002 + (24 + p.val) * 0x10000)) ∧
    (s.svState p ≠ 5 → exec (.calTimeout p) s = .next s) ∧
    (s.svUsable p = true → Completes (.calReceive p) s fun t => (t.svPort p).calRx = some s.hg.dt ∧ t.svIgnores p = true) ∧
    (s.svUsable p = false → exec (.calReceive p) s = .next s)) ∧
  (∀ (p : Fin 2) (l : Fin 4) (s : State),
    (s.svState p < 2 → exec (.laneBlockLock p l) s = .next s ∧ exec (.laneBlockLockLoss p l) s = .next s ∧
      exec (.laneMarkerLockLoss p l) s = .next s ∧ ∀ d, exec (.laneMarkerLock p l d) s = .next s) ∧
    (2 ≤ s.svState p → (Completes (.laneBlockLock p l) s fun t => (t.svPort p).blk.testBit l = true ∧ t.svState p = s.svState p) ∧
      (∀ d, (s.svPort p).blk.testBit l = true →
        let x := setBits (s.get (SV_PORT_STAT_LANES_LOCKED p)) l 1 1
        Completes (.laneMarkerLock p l d) s fun t => t.get (SV_PORT_STAT_LANES_LOCKED p) = x ∧
          t.svState p = if x = 15 ∧ d = true then (if s.svState p = 2 then 3 else if s.svState p = 5 then 4 else s.svState p)
            else s.svState p) ∧
      ∀ c : Instr, c = .laneBlockLockLoss p l ∨ c = .laneMarkerLockLoss p l →
        (s.svState p ≠ 4 ∨ s.svIgnores p = true → Completes c s fun t => t.svState p = s.svState p ∧
          (t.get (SV_PORT_STAT_LANES_LOCKED p)).testBit l = false) ∧
        (s.svState p = 4 → s.svIgnores p = false → Completes c s fun t => AfterLoss p s t ∧
          t.reg GLB_FAULT_LAST = BitVec.ofNat 32 (0xA002 + (24 + p.val) * 0x10000)))) ∧
  (∀ (p : Fin 2) (ack units : BitVec 16) (cls : Fin 4) (s : State), s.svUsable p = true →
    let left := dropAcked (ack.toNat % 4096) (s.svPort p).unacked
    ((s.svPort p).queue = [] → ack.getLsbD 15 = false → Completes (.creditBlock p ack cls units) s fun t =>
      (t.svPort p).unacked = left ∧ (t.svPort p).credit.getD cls 0 = (s.svPort p).credit.getD cls 0 + units.toNat ∧
      t.svState p = s.svState p) ∧
    ((s.svPort p).queue = [] → ack.getLsbD 15 = true → (∀ m ∈ left, m.tries < 7) → Completes (.creditBlock p ack cls units) s fun t =>
      (t.svPort p).unacked = left.map (fun m => { m with tries := m.tries + 1 }) ∧
      t.get (SV_PORT_ERR_REPLAY p) =
        min (s.get (SV_PORT_ERR_REPLAY p) + left.length) (2 ^ (SV_PORT_ERR_REPLAY p).w - 1)) ∧
    (ack.getLsbD 15 = true → (∃ m ∈ left, 7 ≤ m.tries) → Completes (.creditBlock p ack cls units) s fun t => AfterLoss p s t)) ∧
  (∀ (p : Fin 2) (s : State),
    ((s.svPort p).locked = false → (s.svPort p).queue.any (fun m => m.msg.stale) = true → Completes (.txStaleDrop p) s fun t =>
      (t.svPort p).queue = (s.svPort p).queue.filter (fun m => !m.msg.stale) ∧ (t.svPort p).staleSaid = true ∧
      ((s.svPort p).staleSaid = false → t.reg GLB_FAULT_LAST = BitVec.ofNat 32 (0xA031 + (24 + p.val) * 0x10000))) ∧
    ((s.svPort p).locked = true → exec (.txStaleDrop p) s = .next s ∧ Completes (.svTxPllLockLoss p) s fun t =>
      (t.svPort p).locked = false ∧ (t.svPort p).lostAt = s.hg.dt ∧ t.svState p = s.svState p) ∧
    ((s.svPort p).locked = false → exec (.svTxPllLockLoss p) s = .next s) ∧
    (Completes (.svTxPllLockReturn p) s fun t => (t.svPort p).locked = true ∧ t.svState p = s.svState p))

/-- A message is next in link order on a port that takes it. -/
def Sys2Proof.Machine.Arrives (h : SvHead) (cls : Nat) (s : State) : Prop :=
  (s.svState h.port = 4 ∨ s.svState h.port = 5) ∧ s.svHeldUnits h.port cls + svUnits h.len ≤ svCap cls ∧ h.crcOk = true ∧
  h.lseq.toNat = ((s.svPort h.port).rxLseq + 1) % 4096 ∧ (s.svPort h.port).bad = false

/-- A message is for this device alone. -/
def Sys2Proof.Machine.ForUs (h : SvHead) (s : State) : Prop := h.bcast = false ∧ h.dst.val = s.svDev

/-- A message to device d has been sent, and waits for its acknowledgement, or waits to be sent. -/
def Sys2Proof.Machine.Sends (d : Nat) (m : SvMsg) (t : State) : Prop :=
  ∃ (q : Fin 2) (x : SvTx), x.msg = m ∧ x.dst = d ∧ (x ∈ (t.svPort q).queue ∨ x ∈ (t.svPort q).unacked)


/-- A message whose CRC fails is answered with a NAK and counted, and does nothing. One in link order acts: BAD_MSG is counted;
HELLO of a member that fits is recorded, and one that does not is reported with 0xA010; HEARTBEAT makes its device live, and
one of a lost device is reported once with 0xA013; TIME gives offset and delay of an answer, and a request is answered;
HANDOVER waits for its turn; NOTICE reaches its holder, in end-to-end order; DETACH makes its sender lost. HEARTBEAT_SEND
counts, HEARTBEAT_LOSS loses the device, TIME_EXCHANGE_SEND restarts its interval. TRIGGER_HANDOVER acts for Initiator ID 9
on the owner in a twin; SV_ENABLE and SV_DETACH act for Initiator ID 9. -/
def Obligations.SelvedgeMessagesAct : Prop :=
  (∀ (m : SvHead) (b : Byte) (s : State),
    (Arrives m 0 s → Completes (.badMsg m b) s fun t =>
      t.get (SV_PORT_ERR_BAD_MSG m.port) = min (s.get (SV_PORT_ERR_BAD_MSG m.port) + 1) (2 ^ (SV_PORT_ERR_BAD_MSG m.port).w - 1) ∧
      (t.svPort m.port).rxLseq = m.lseq.toNat ∧ t.outbox = .svCredit m.port m.lseq.toNat false 0 (svUnits m.len) :: s.outbox ∧
      RegsKept [SV_PORT_ERR m.port] s t) ∧
    (s.svState m.port = 4 → s.svHeldUnits m.port 0 + svUnits m.len ≤ svCap 0 → m.crcOk = false → ∀ seq live o e pe tu ru,
      Completes (.heartbeat m seq live o e pe tu ru) s fun t => t.sv = s.sv ∧ RegsKept [SV_PORT_ERR m.port] s t ∧
        t.outbox = .svCredit m.port (s.svPort m.port).rxLseq true 0 0 :: s.outbox)) ∧
  (∀ (m : SvHead) (d : Fin 8) (n : BitVec 4) (twin role : Bool) (st : Byte) (s : State), Arrives m 0 s → m.bcast = true →
    ((s.svPeer d).hello = none → d.val ≠ s.svDev → n.toNat = s.svMembers → twin = s.is SV_CFG_TWIN → st.toNat = Config.stepping →
      (twin = true → role ≠ s.is SV_CFG_ROLE) → Completes (.hello m d n twin role st) s fun t =>
        (t.svPeer d).hello = some (n.toNat, twin, role, st.toNat, s.svPlace m) ∧ (t.svPeer d).lost = false ∧
        (m.hops = 0 → t.get (SV_PORT_STAT_NEIGHBOUR m.port) = d)) ∧
    (d.val = s.svDev ∨ n.toNat ≠ s.svMembers ∨ twin ≠ s.is SV_CFG_TWIN ∨ st.toNat ≠ Config.stepping →
      Completes (.hello m d n twin role st) s fun t =>
        t.reg GLB_FAULT_LAST = BitVec.ofNat 32 (0xA010 + (24 + m.port.val) * 0x10000) ∧ t.svPeer d = s.svPeer d)) ∧
  (∀ (m : SvHead) (seq : Word) (live : Byte) (o : Bool) (e pe tu : BitVec 64) (ru : Bool) (s : State),
    Arrives m 0 s → m.bcast = true → m.src.val ≠ s.svDev →
    ((s.svPeer m.src).lost = false → Completes (.heartbeat m seq live o e pe tu ru) s fun t =>
      t.svPeer m.src = { s.svPeer m.src with
        hbAt := some s.hg.dt, owner := o, epoch := e.toNat, per := pe.toNat, turn := tu.toNat, run := ru } ∧
      (t.get SV_STATUS_LIVE).testBit m.src = true) ∧
    ((s.svPeer m.src).lost = true → (s.svPeer m.src).staleSaid = false → Completes (.heartbeat m seq live o e pe tu ru) s fun t =>
      t.reg GLB_FAULT_LAST = 0x18A013 ∧ t.svPeer m.src = { s.svPeer m.src with staleSaid := true })) ∧
  (∀ s : State, s.is SV_CTL_EN = true → s.svMembers ≠ 1 → Completes .heartbeatSend s fun t =>
    t.sv.hbSeq = (s.sv.hbSeq + 1) % 2 ^ 32 ∧ t.sv.hbAt = t.hg.dt) ∧
  (∀ (d : Fin 8) (at_ : Nat) (s : State), (s.svPeer d).hbAt = some at_ → (s.svPeer d).lost = false → d.val ≠ s.svDev →
    Completes (.heartbeatLoss d) s fun t => (t.svPeer d).lost = true ∧ (t.get SV_STATUS_LIVE).testBit d = false ∧
      (at_ + s.get SV_HB_CFG_PER * s.get SV_HB_CFG_MISS * 256000 ≤ s.hg.dt → s.reg GLB_FAULT_FIRST = 0 →
        t.reg GLB_FAULT_FIRST = 0x18A012)) ∧
  (∀ (p : Fin 2) (s : State),
    (s.svState p = 4 → Completes (.timeExchangeSend p) s fun t => (t.svPort p).timeAt = t.hg.dt) ∧
    (s.svState p ≠ 4 → exec (.timeExchangeSend p) s = .next s)) ∧
  (∀ (m : SvHead) (t1 t2 t3 : Nat) (s : State), Arrives m 0 s → ForUs m s →
    let delay := (((s.now : Int) - t1) - ((t3 : Int) - t2)) / 2
    let ofs := (((t2 : Int) - t1) - ((s.now : Int) - t3)) / 2
    (Completes (.time m true t1 t2 t3) s fun t => t.pair (SV_PEER_OFS_LO m.port) = unsign 64 ofs ∧
      t.reg (SV_PEER_DELAY m.port) = BitVec.ofNat 32 (unsign 32 delay) ∧ (t.svPort m.port).ofs = some ofs) ∧
    (s.svState m.port = 4 → (s.svPort m.port).locked = true → (s.svPort m.port).queue = [] → (s.svPort m.port).unacked = [] →
      1 ≤ (s.svPort m.port).credit.getD 0 0 → Completes (.time m false t1 t2 t3) s fun t =>
        ∃ x, .svMsg m.port.val x ∈ t.outbox ∧ x.msg = .time true t1 s.now s.now)) ∧
  (∀ (m : SvHead) (turn : Word) (mask : BitVec 16) (s : State), Arrives m 0 s → ForUs m s →
    ((s.turnsRun && decide (turn.toNat < s.leadTurn s.hg.nextTurn)) = false → Completes (.handover m turn mask) s fun t =>
      t.sv.take = some (turn.toNat, mask.toNat)) ∧
    ((s.turnsRun && decide (turn.toNat < s.leadTurn s.hg.nextTurn)) = true → Completes (.handover m turn mask) s fun t =>
      t.sv.take = s.sv.take ∧ t.reg GLB_FAULT_LAST = BitVec.ofNat 32 (0xA021 + (24 + m.port.val) * 0x10000)) ∧
    ((s.svPeer m.src).lost = false → Completes (.detach m) s fun t =>
      (t.svPeer m.src).lost = true ∧ (t.get SV_STATUS_LIVE).testBit m.src = false) ∧
    ∀ (x : Fin 32) (gen : BitVec 16), let d := (m.e2e.toNat + 65536 - s.svNextE2e m.src 0) % 65536
      (d = 0 → Completes (.notice m x gen) s fun t => .noticeIn m.src x gen.toNat ∈ t.outbox) ∧
      (0 < d → d < 32768 → (∀ h ∈ s.sv.early, h.head.src ≠ m.src) → Completes (.notice m x gen) s fun t =>
        t.sv.early = s.sv.early ++ [⟨m, .notice x gen.toNat⟩] ∧ t.outbox = .svCredit m.port m.lseq.toNat false 0 0 :: s.outbox) ∧
      (32768 ≤ d → Completes (.notice m x gen) s fun t => t.sv.early = s.sv.early ∧
        t.outbox = .svCredit m.port m.lseq.toNat false 0 (svUnits m.len) :: s.outbox)) ∧
  (∀ (iid : Iid) (v : Word) (s : State),
    (s.writeOk iid SV_HANDOVER = true →
      (iid = 9 → s.is SV_STATUS_OWNER = true → s.is SV_CFG_TWIN = true → Completes (.triggerHandover iid v) s fun t =>
        t.sv.give = some (v.toNat, s.trigMask) ∧
        ((∀ p : Fin 2, (s.svPort p).locked = true) → Sends s.twinDev (.handover v.toNat s.trigMask) t)) ∧
      (¬ (iid = 9 ∧ s.is SV_STATUS_OWNER = true ∧ s.is SV_CFG_TWIN = true) → exec (.triggerHandover iid v) s = .next s)) ∧
    (s.writeOk iid SV_CTL = true →
      (iid = 9 → s.is SV_CTL_EN = false → Completes (.svEnable iid) s fun t => t.is SV_CTL_EN = true ∧ t.sv.hbAt = s.hg.dt) ∧
      (iid = 9 → Completes (.svDetach iid) s fun t => t.sv.detaching = true ∨
        (t.sv.detaching = false ∧ t.get SV_STATUS_STATE = 0 ∧ t.get SV_STATUS_LIVE = 0 ∧ t.is PL_STATUS_TWIN = false ∧ t.sv.peers = [])) ∧
      (iid ≠ 9 → exec (.svEnable iid) s = .next s ∧ exec (.svDetach iid) s = .next s)))

/-- The state in which a message in order acts: its link and end-to-end numbers are taken, and it has woken the device. -/
def Sys2Proof.Machine.AtDelivery (h : SvHead) (cls : Nat) (s : State) : State :=
  ((s.modSvPort h.port fun x => { x with rxLseq := h.lseq.toNat }).recordWake 7).svGotE2e h.src cls

/-- The message is for this device, next in both orders, and nothing waits. -/
def Sys2Proof.Machine.InOrder (h : SvHead) (cls : Nat) (s : State) : Prop :=
  Arrives h cls s ∧ ForUs h s ∧ h.e2e.toNat = s.svNextE2e h.src cls ∧ s.sv.early = [] ∧ s.sv.full = []


/-- For a message to this device that is next in link and end-to-end order, with none waiting: MIRROR_WR that the region entries
admit writes its lines, unless this device is the Lead and had written the granule too, which counts as a conflict once, and
is acknowledged; a refused one is reported with 0x9003 and acknowledged with it. MIRROR_ACK takes one address off those that
wait, and a COPY that waited for nothing else completes. POOL_RD is answered with the bytes, or with zeros and the code of
the refusal; POOL_WR writes and is acknowledged. POOL_RD_DATA and POOL_WR_ACK change nothing (log entry 24). RING_BLOCK of a
sequence that is not live is taken and lands nowhere; one for which the window has no room waits; a last piece that lands is
counted. BLOCK_FETCH sends the block. RESILVER_GRANULE sends the lowest dirty granule to the twin. KV_PIN ROTATE sends the
own blocks and waits for the others; RELEASE makes visiting blocks absent. -/
def Obligations.MirrorPoolAndRingTraffic : Prop :=
  (∀ (m : SvHead) (a : BitVec 40) (ls : List Byte) (e : MemErr) (s : State), InOrder m 1 s →
    let u := AtDelivery m 1 s
    let both := u.clashes (a.toNat / 4096)
    (u.fenceOk (svIid m.port) a.toNat ls.length true = false → Completes (.mirrorWr m a ls e) s fun t => t.mem = s.mem ∧
      t.reg GLB_FAULT_LAST = BitVec.ofNat 32 (0x9003 + (24 + m.port.val) * 0x10000) ∧ Sends m.src (.mirrorAck a.toNat 0x9003) t) ∧
    (u.fenceOk (svIid m.port) a.toNat ls.length true = true → both = false → Completes (.mirrorWr m a ls e) s fun t =>
      t.mem = (u.dpaWrite (svIid m.port) a.toNat ls e false).mem ∧ Sends m.src (.mirrorAck a.toNat 0) t) ∧
    (u.fenceOk (svIid m.port) a.toNat ls.length true = true → both = true → s.is SV_CFG_ROLE = false →
      Completes (.mirrorWr m a ls e) s fun t => t.mem = s.mem ∧ Sends m.src (.mirrorAck a.toNat 0) t ∧
        t.get SV_RESILVER_STAT_CONFLICT = (if s.pool.clash.contains (a.toNat / 4096) then s.get SV_RESILVER_STAT_CONFLICT
          else min (s.get SV_RESILVER_STAT_CONFLICT + 1) 255))) ∧
  (∀ (m : SvHead) (a : BitVec 40) (st : BitVec 16) (s : State), InOrder m 2 s →
    (2 ≤ s.pool.mirrorWait.count a.toNat ∨ s.track.store = [] → Completes (.mirrorAck m a st) s fun t =>
      t.pool.mirrorWait = s.pool.mirrorWait.erase a.toNat) ∧
    (∀ c, s.track.store = [c] → isOp 0x03 c = true → c.waits = [a.toNat] → c.done = c.u 20 4 → s.pool.mirrorWait = [a.toNat] →
      Completes (.mirrorAck m a st) s fun t => t.pool.mirrorWait = [] ∧
        t.tkRecs c.req = s.tkRecs c.req ++ [c.record c.status c.done false]) ∧
    ∀ (d : List Byte) (bad : List Bool), let u := (AtDelivery m 2 s).svAck m.port 2 (svUnits m.len)
      exec (.poolRdData m d bad st) s = .next { u with pending := s.pending, boot := s.boot } ∧
      exec (.poolWrAck m st) s = .next { u with pending := s.pending, boot := s.boot }) ∧
  (∀ (m : SvHead) (a : BitVec 40) (n : Nat) (ls : List Byte) (k : Fin 8) (e : MemErr) (s : State), InOrder m 1 s →
    let u := AtDelivery m 1 s
    (∀ c, u.remoteCheck m a.toNat n k false = some c → Completes (.poolRd m a n k e) s fun t => t.mem = s.mem ∧
      ∃ bad, Sends m.src (.poolRdData (List.replicate (min n 448) 0) bad c) t) ∧
    (u.remoteCheck m a.toNat n k false = none → Completes (.poolRd m a n k e) s fun t =>
      let r := u.dpaRead (svIid m.port) a.toNat n e
      t.mem = r.1.mem ∧ ∃ bad, Sends m.src (.poolRdData (r.2.1.take 448) bad 0) t) ∧
    (∀ c, u.remoteCheck m a.toNat ls.length k true = some c → Completes (.poolWr m a ls k e) s fun t =>
      t.mem = s.mem ∧ Sends m.src (.poolWrAck c) t) ∧
    (u.remoteCheck m a.toNat ls.length k true = none → Completes (.poolWr m a ls k e) s fun t =>
      t.mem = (u.dpaWrite (svIid m.port) a.toNat ls e).mem ∧ Sends m.src (.poolWrAck 0) t)) ∧
  (∀ (m : SvHead) (q : Fin 1024) (b r : Nat) (bs : List Byte) (last : Bool) (s : State), InOrder m 3 s →
    let live := (s.seq? q).filter fun x => x.ring && !x.freeing
    (live = none → Completes (.ringBlock m q b r bs last) s fun t => t.mem = s.mem ∧ t.sk = s.sk ∧ t.sv.full = [] ∧
      .svCredit m.port m.lseq.toNat false 3 (svUnits m.len) ∈ t.outbox) ∧
    (∀ x, live = some x → spGet (fun _ => none) x.blocks b = none → s.get SK_RING_CFG_WINDOW ≤ x.ringHeld →
      Completes (.ringBlock m q b r bs last) s fun t => t.sk = s.sk ∧ t.sv.full = [⟨m, .ringBlock q b r bs last⟩] ∧
        t.outbox = s.outbox) ∧
    (∀ x, live = some x → last = true → x.visits b = false →
      ((AtDelivery m 3 s).ringLand m.src q b r bs last).2 = true →
      (((AtDelivery m 3 s).ringForward m.hops q b r bs last).ringLand m.src q b r bs last).2 = true → Completes (.ringBlock m q b r bs last) s fun t =>
        t.get SK_RING_STAT_RECEIVED = min (s.get SK_RING_STAT_RECEIVED + 1) (2 ^ SK_RING_STAT_RECEIVED.w - 1)) ∧
    (live = none → Completes (.blockFetch m q b) s fun t => t.sv.tx = s.sv.tx ∧ t.mem = s.mem) ∧
    (∀ x, live = some x → x.regions ≠ [] → Completes (.blockFetch m q b) s fun t =>
      ∃ j d, Sends m.src (.ringBlock q b j d true) t)) ∧
  (∀ s : State, (s.pool.dirty = [] ∨ s.twinUp = false → exec .resilverGranule s = .next s) ∧
    ∀ g z r, s.pool.dirty = (g, z) :: r → s.twinUp = true → Completes .resilverGranule s fun t =>
      spGet (fun _ => false) t.pool.dirty g = false ∧ t.mem = s.mem ∧
      Sends s.twinDev (.mirrorWr (g * 64 * 64) (s.bytesAt (g * 64 * 64) 448)) t) ∧
  (∀ (r : Fin 10) (n : BitVec 16) (c : TkCmd) (x : Seq) (s : State), s.cmdCode c = none → s.ringCmd c = .ok x → s.sv.full = [] →
    let q := c.u 16 2
    let bs := (List.range (c.u 24 4 - c.u 20 4)).map (c.u 20 4 + ·)
    (Executes r n (isPin 3) c s →
      (∀ u f, s.foreign skIid x bs = (u, .error f) → Completes (.kvPinRotate r n) s fun t => t = u.complete c f 0) ∧
      ∀ u fs, s.foreign skIid x bs = (u, .ok fs) → (∀ y ∈ u.track.store, y.phase ≠ .running) →
        let lack := (fs.map (·.block)).filter fun b => !x.visits b
        (x.regions ≠ [] → Completes (.kvPinRotate r n) s fun t => ∀ b ∈ bs, (∀ f ∈ fs, f.block ≠ b) →
          ∃ j d, Sends ((u.svDev + 1) % u.svMembers) (.ringBlock q b j d true) t) ∧
        (lack ≠ [] → c ∈ u.track.store → Completes (.kvPinRotate r n) s fun t =>
          ∃ c' ∈ t.track.store, c'.csn = c.csn ∧ c'.phase = .running ∧ c'.waits = lack)) ∧
    (Executes r n (isPin 4) c s → Completes (.kvPinRelease r n) s fun t => ∀ b y, c.u 20 4 ≤ b → b < c.u 24 4 → x.visits b = true →
      t.seq? q = some y → spGet (fun _ => none) y.blocks b = none))
end

