-- ==== Sys2Proof/Laws/Sparse.lean ====
section
/-! SUPPORT. What a sparse array's operations do: a read after a write, every other index, the canonical form. -/

namespace Sys2Proof.Machine

variable {α : Type} {d : Nat → α}

@[simp] theorem spGet_nil (k : Nat) : spGet d [] k = d k := rfl

theorem spGet_spDel (m : Sparse α) (k j : Nat) : spGet d (spDel k m) j = if k = j then d j else spGet d m j := by
  induction m with
  | nil => simp [spDel, spGet]
  | cons p r ih =>
    obtain ⟨i, v⟩ := p
    by_cases h : i = k
    · subst h
      rw [spDel, if_pos rfl, ih]
      by_cases hj : i = j <;> simp [spGet, hj]
    · rw [spDel, if_neg h]
      by_cases hj : i = j
      · subst hj; simp [spGet, Ne.symm h]
      · simp [spGet, hj, ih]

theorem spGet_spIns (m : Sparse α) (k j : Nat) (v : α) (hm : ∀ p ∈ m, p.1 ≠ k) :
    spGet d (spIns k v m) j = if k = j then v else spGet d m j := by
  induction m with
  | nil => simp [spIns, spGet]
  | cons p r ih =>
    obtain ⟨i, w⟩ := p
    have hi : i ≠ k := hm (i, w) (by simp)
    have ih := ih fun p hp => hm p (by simp [hp])
    by_cases hlt : k < i
    · simp [spIns, hlt, spGet]
    · rw [spIns, if_neg hlt]
      by_cases hj : i = j
      · subst hj; simp [spGet, Ne.symm hi]
      · simp [spGet, hj, ih]

theorem spDel_ne (m : Sparse α) (k : Nat) : ∀ p ∈ spDel k m, p.1 ≠ k := by
  induction m with
  | nil => simp [spDel]
  | cons p r ih =>
    obtain ⟨i, v⟩ := p
    by_cases h : i = k
    · simpa [spDel, h] using ih
    · intro p hp
      simp [spDel, h] at hp
      rcases hp with rfl | hp
      · exact h
      · exact ih p hp

variable [DecidableEq α]

/-- A read after a write: the written index holds the value, every other one is unchanged. -/
theorem spGet_spPut (m : Sparse α) (k j : Nat) (v : α) : spGet d (spPut d m k v) j = if k = j then v else spGet d m j := by
  unfold spPut
  by_cases hv : v = d k
  · by_cases hj : k = j
    · subst hj; simp [hv, spGet_spDel]
    · simp [hv, spGet_spDel, hj]
  · have hd := spDel_ne m k
    rw [if_neg hv, spGet_spIns _ _ _ _ hd]
    by_cases hj : k = j <;> simp [hj, spGet_spDel]

@[simp] theorem spGet_spPut_same (m : Sparse α) (k : Nat) (v : α) : spGet d (spPut d m k v) k = v := by simp [spGet_spPut]

theorem spGet_spPut_ne (m : Sparse α) {k j : Nat} (v : α) (h : k ≠ j) : spGet d (spPut d m k v) j = spGet d m j := by
  simp [spGet_spPut, h]

/-- A run of writes leaves every index outside the run unchanged. -/
theorem spGet_spPuts_out (m : Sparse α) (k : Nat) (l : List α) (j : Nat) (h : j < k ∨ k + l.length ≤ j) :
    spGet d (spPuts d m k l) j = spGet d m j := by
  induction l generalizing m k with
  | nil => rfl
  | cons v r ih =>
    simp only [List.length_cons] at h
    rw [spPuts, ih _ _ (by omega), spGet_spPut_ne _ _ (by omega)]

/-- A run of writes puts its values there. -/
theorem spGet_spPuts_in (m : Sparse α) (k : Nat) (l : List α) (i : Nat) (h : i < l.length) :
    spGet d (spPuts d m k l) (k + i) = l[i] := by
  induction l generalizing m k i with
  | nil => simp at h
  | cons v r ih =>
    cases i with
    | zero => rw [spPuts, spGet_spPuts_out _ _ _ _ (by omega)]; simp
    | succ i =>
      rw [spPuts, show k + (i + 1) = (k + 1) + i by omega, ih _ _ _ (by simpa using h)]
      simp

/-! ### The canonical form -/

theorem spWf_cons {k : Nat} {v : α} {r : Sparse α} :
    spWf d ((k, v) :: r) = true ↔ v ≠ d k ∧ (∀ p ∈ r, k < p.1) ∧ spWf d r = true := by
  simp [spWf, List.all_eq_true, and_assoc]

theorem spWf_spDel (m : Sparse α) (k : Nat) (h : spWf d m = true) : spWf d (spDel k m) = true ∧ ∀ p ∈ spDel k m, p ∈ m := by
  induction m with
  | nil => exact ⟨rfl, by simp [spDel]⟩
  | cons p r ih =>
    obtain ⟨i, v⟩ := p
    obtain ⟨h1, h2, h3⟩ := spWf_cons.1 h
    obtain ⟨w, sub⟩ := ih h3
    by_cases hk : i = k
    · simp only [spDel, hk, if_true]
      exact ⟨w, fun p hp => by simp [sub p hp]⟩
    · simp only [spDel, hk, if_false]
      exact ⟨spWf_cons.2 ⟨h1, fun p hp => h2 p (sub p hp), w⟩, fun p hp => by
        rcases List.mem_cons.1 hp with rfl | hp
        · simp
        · simp [sub p hp]⟩

omit [DecidableEq α] in
theorem spIns_mem (m : Sparse α) (k : Nat) (v : α) : ∀ p ∈ spIns k v m, p = (k, v) ∨ p ∈ m := by
  induction m with
  | nil => simp [spIns]
  | cons p r ih =>
    obtain ⟨i, w⟩ := p
    intro q hq
    by_cases hlt : k < i
    · simp [spIns, hlt] at hq; rcases hq with rfl | rfl | h <;> simp_all
    · simp [spIns, hlt] at hq
      rcases hq with rfl | h
      · simp
      · rcases ih q h with h | h <;> simp [h]

theorem spWf_spIns (m : Sparse α) (k : Nat) (v : α) (h : spWf d m = true) (hv : v ≠ d k) (hk : ∀ p ∈ m, p.1 ≠ k) :
    spWf d (spIns k v m) = true := by
  induction m with
  | nil => simp [spIns, spWf, hv]
  | cons p r ih =>
    obtain ⟨i, w⟩ := p
    obtain ⟨h1, h2, h3⟩ := spWf_cons.1 h
    have hi : i ≠ k := hk (i, w) (by simp)
    by_cases hlt : k < i
    · simp only [spIns, hlt, if_true]
      refine spWf_cons.2 ⟨hv, fun p hp => ?_, h⟩
      rcases List.mem_cons.1 hp with rfl | hp
      · exact hlt
      · exact Nat.lt_trans hlt (h2 p hp)
    · simp only [spIns, hlt, if_false]
      refine spWf_cons.2 ⟨h1, fun p hp => ?_, ih h3 fun p hp => hk p (by simp [hp])⟩
      rcases spIns_mem r k v p hp with rfl | hp
      · show i < k; omega
      · exact h2 p hp

/-- A write keeps the canonical form. -/
theorem spWf_spPut (m : Sparse α) (k : Nat) (v : α) (h : spWf d m = true) : spWf d (spPut d m k v) = true := by
  unfold spPut
  by_cases hv : v = d k
  · simpa [hv] using (spWf_spDel m k h).1
  · rw [if_neg hv]
    exact spWf_spIns _ _ _ (spWf_spDel m k h).1 hv (spDel_ne m k)

/-- A run of writes keeps the canonical form. -/
theorem spWf_spPuts (m : Sparse α) (k : Nat) (l : List α) (h : spWf d m = true) : spWf d (spPuts d m k l) = true := by
  induction l generalizing m k with
  | nil => exact h
  | cons v r ih => exact ih _ _ (spWf_spPut _ _ _ h)

theorem spWf_ext_nil (m : Sparse α) (h : spWf d m = true) (e : ∀ j, spGet d m j = d j) : m = [] := by
  cases m with
  | nil => rfl
  | cons p r =>
    obtain ⟨k, v⟩ := p
    have := e k
    simp [spGet] at this
    exact absurd this (spWf_cons.1 h).1

omit [DecidableEq α] in
theorem spGet_lt (m : Sparse α) (k : Nat) (h : ∀ p ∈ m, k < p.1) : spGet d m k = d k := by
  induction m with
  | nil => rfl
  | cons p r ih =>
    obtain ⟨i, v⟩ := p
    have := h (i, v) (by simp)
    have hne : ¬ i = k := by simp at this; omega
    simp [spGet, hne, ih fun p hp => h p (by simp [hp])]

/-- Equal contents are equal data: two canonical arrays that read the same at every index are the same list. -/
theorem spWf_ext (m n : Sparse α) (hm : spWf d m = true) (hn : spWf d n = true) (e : ∀ j, spGet d m j = spGet d n j) : m = n := by
  induction m generalizing n with
  | nil => exact (spWf_ext_nil n hn fun j => (e j).symm).symm
  | cons p r ih =>
    obtain ⟨k, v⟩ := p
    cases n with
    | nil => exact absurd (e k) (by simpa [spGet] using (spWf_cons.1 hm).1)
    | cons q t =>
      obtain ⟨i, w⟩ := q
      obtain ⟨a1, a2, a3⟩ := spWf_cons.1 hm
      obtain ⟨b1, b2, b3⟩ := spWf_cons.1 hn
      have hk : k = i := by
        rcases Nat.lt_trichotomy k i with h | h | h
        · have := e k
          simp [spGet, show ¬ i = k by omega, spGet_lt t k fun p hp => Nat.lt_trans h (b2 p hp)] at this
          exact absurd this a1
        · exact h
        · have := e i
          simp [spGet, show ¬ k = i by omega, spGet_lt r i fun p hp => Nat.lt_trans h (a2 p hp)] at this
          exact absurd this.symm b1
      subst hk
      have hv : v = w := by simpa [spGet] using e k
      subst hv
      congr 1
      refine ih t a3 b3 fun j => ?_
      by_cases hj : k = j
      · subst hj; rw [spGet_lt r _ a2, spGet_lt t _ b2]
      · simpa [spGet, hj] using e j

end Sys2Proof.Machine
end

