-- ==== Sys2Proof/Laws/State.lean ====
section
/-! SUPPORT. What each named update of the state leaves alone: one lemma per field, true by unfolding the update once. -/

namespace Sys2Proof.Machine

/-! ### A record update of one field, read through another -/


/-! ### Changes of registers alone -/

theorem OnlyRegs.refl (s : State) : OnlyRegs s s := rfl

theorem OnlyRegs.trans {s t u : State} (h : OnlyRegs s t) (k : OnlyRegs t u) : OnlyRegs s u := by
  unfold OnlyRegs at *; rw [k, h]

theorem onlyRegs_setReg (s : State) (o : Nat) (v : Word) : OnlyRegs s (s.setReg o v) := rfl

theorem OnlyRegs.setReg {s t : State} (h : OnlyRegs s t) (o : Nat) (v : Word) : OnlyRegs s (t.setReg o v) :=
  h.trans (onlyRegs_setReg t o v)

theorem OnlyRegs.put {s t : State} (h : OnlyRegs s t) (f : Fld) (v : Nat) : OnlyRegs s (t.put f v) := h.setReg _ _

theorem OnlyRegs.putB {s t : State} (h : OnlyRegs s t) (f : Fld) (b : Bool) : OnlyRegs s (t.putB f b) := h.setReg _ _

theorem OnlyRegs.setPair {s t : State} (h : OnlyRegs s t) (o v : Nat) : OnlyRegs s (t.setPair o v) := (h.setReg _ _).setReg _ _

theorem OnlyRegs.bump {s t : State} (h : OnlyRegs s t) (f : Fld) (n : Nat) : OnlyRegs s (t.bump f n) := h.put _ _

theorem onlyRegs_report (s : State) (c i : Nat) : OnlyRegs s (s.report c i) := by
  unfold State.report
  refine OnlyRegs.bump (OnlyRegs.setReg ?_ _ _) _ _
  split
  · exact onlyRegs_setReg _ _ _
  · exact .refl s

theorem OnlyRegs.report {s t : State} (h : OnlyRegs s t) (c i : Nat) : OnlyRegs s (t.report c i) := h.trans (onlyRegs_report t c i)

theorem onlyRegs_report2 (s : State) (c d i : Nat) : OnlyRegs s (s.report2 c d i) := (onlyRegs_report s _ _).bump _ _

theorem onlyRegs_refuse (s : State) (c i : Nat) : OnlyRegs s (s.refuse c i) := (onlyRegs_report s _ _).bump _ _

theorem onlyRegs_safetyLog (s : State) (t c a b d : Nat) : OnlyRegs s (s.safetyLog t c a b d) := by
  unfold State.safetyLog
  exact OnlyRegs.setReg (OnlyRegs.setReg (OnlyRegs.setReg (OnlyRegs.setPair (.refl s) _ _) _ _) _ _) _ _


theorem OnlyRegs.pending {s t : State} (h : OnlyRegs s t) : t.pending = s.pending := (congrArg State.pending h : _)
theorem OnlyRegs.staged {s t : State} (h : OnlyRegs s t) : t.staged = s.staged := (congrArg State.staged h : _)
theorem OnlyRegs.heldLo {s t : State} (h : OnlyRegs s t) : t.heldLo = s.heldLo := (congrArg State.heldLo h : _)
theorem OnlyRegs.latch {s t : State} (h : OnlyRegs s t) : t.latch = s.latch := (congrArg State.latch h : _)
theorem OnlyRegs.hg {s t : State} (h : OnlyRegs s t) : t.hg = s.hg := (congrArg State.hg h : _)
theorem OnlyRegs.fs {s t : State} (h : OnlyRegs s t) : t.fs = s.fs := (congrArg State.fs h : _)
theorem OnlyRegs.fsBad {s t : State} (h : OnlyRegs s t) : t.fsBad = s.fsBad := (congrArg State.fsBad h : _)
theorem OnlyRegs.streams {s t : State} (h : OnlyRegs s t) : t.streams = s.streams := (congrArg State.streams h : _)
theorem OnlyRegs.imus {s t : State} (h : OnlyRegs s t) : t.imus = s.imus := (congrArg State.imus h : _)
theorem OnlyRegs.cans {s t : State} (h : OnlyRegs s t) : t.cans = s.cans := (congrArg State.cans h : _)
theorem OnlyRegs.i2cs {s t : State} (h : OnlyRegs s t) : t.i2cs = s.i2cs := (congrArg State.i2cs h : _)
theorem OnlyRegs.eth {s t : State} (h : OnlyRegs s t) : t.eth = s.eth := (congrArg State.eth h : _)
theorem OnlyRegs.fresh {s t : State} (h : OnlyRegs s t) : t.fresh = s.fresh := (congrArg State.fresh h : _)
theorem OnlyRegs.mem {s t : State} (h : OnlyRegs s t) : t.mem = s.mem := (congrArg State.mem h : _)
theorem OnlyRegs.atu {s t : State} (h : OnlyRegs s t) : t.atu = s.atu := (congrArg State.atu h : _)
theorem OnlyRegs.pool {s t : State} (h : OnlyRegs s t) : t.pool = s.pool := (congrArg State.pool h : _)
theorem OnlyRegs.hostFns {s t : State} (h : OnlyRegs s t) : t.hostFns = s.hostFns := (congrArg State.hostFns h : _)
theorem OnlyRegs.msixTab {s t : State} (h : OnlyRegs s t) : t.msixTab = s.msixTab := (congrArg State.msixTab h : _)
theorem OnlyRegs.track {s t : State} (h : OnlyRegs s t) : t.track = s.track := (congrArg State.track h : _)
theorem OnlyRegs.eng {s t : State} (h : OnlyRegs s t) : t.eng = s.eng := (congrArg State.eng h : _)
theorem OnlyRegs.sk {s t : State} (h : OnlyRegs s t) : t.sk = s.sk := (congrArg State.sk h : _)
theorem OnlyRegs.weft {s t : State} (h : OnlyRegs s t) : t.weft = s.weft := (congrArg State.weft h : _)
theorem OnlyRegs.me {s t : State} (h : OnlyRegs s t) : t.me = s.me := (congrArg State.me h : _)
theorem OnlyRegs.loom {s t : State} (h : OnlyRegs s t) : t.loom = s.loom := (congrArg State.loom h : _)
theorem OnlyRegs.ref {s t : State} (h : OnlyRegs s t) : t.ref = s.ref := (congrArg State.ref h : _)
theorem OnlyRegs.sv {s t : State} (h : OnlyRegs s t) : t.sv = s.sv := (congrArg State.sv h : _)
theorem OnlyRegs.boot {s t : State} (h : OnlyRegs s t) : t.boot = s.boot := (congrArg State.boot h : _)
theorem OnlyRegs.pwr {s t : State} (h : OnlyRegs s t) : t.pwr = s.pwr := (congrArg State.pwr h : _)
theorem OnlyRegs.freshTab {s t : State} (h : OnlyRegs s t) : t.freshTab = s.freshTab := (congrArg State.freshTab h : _)
theorem OnlyRegs.outbox {s t : State} (h : OnlyRegs s t) : t.outbox = s.outbox := (congrArg State.outbox h : _)
theorem OnlyRegs.freeCtr {s t : State} (h : OnlyRegs s t) : t.freeCtr = s.freeCtr := (congrArg State.freeCtr h : _)
@[simp] theorem reg_with_pending (s : State) (x : List Instr) (o : Nat) : State.reg { s with pending := x } o = s.reg o := rfl
@[simp] theorem get_with_pending (s : State) (x : List Instr) (o : Fld) : State.get { s with pending := x } o = s.get o := rfl
@[simp] theorem is_with_pending (s : State) (x : List Instr) (o : Fld) : State.is { s with pending := x } o = s.is o := rfl
@[simp] theorem reg_with_staged (s : State) (x : Sparse (Option Word)) (o : Nat) : State.reg { s with staged := x } o = s.reg o := rfl
@[simp] theorem get_with_staged (s : State) (x : Sparse (Option Word)) (o : Fld) : State.get { s with staged := x } o = s.get o := rfl
@[simp] theorem is_with_staged (s : State) (x : Sparse (Option Word)) (o : Fld) : State.is { s with staged := x } o = s.is o := rfl
@[simp] theorem reg_with_heldLo (s : State) (x : Sparse (Option Word)) (o : Nat) : State.reg { s with heldLo := x } o = s.reg o := rfl
@[simp] theorem get_with_heldLo (s : State) (x : Sparse (Option Word)) (o : Fld) : State.get { s with heldLo := x } o = s.get o := rfl
@[simp] theorem is_with_heldLo (s : State) (x : Sparse (Option Word)) (o : Fld) : State.is { s with heldLo := x } o = s.is o := rfl
@[simp] theorem reg_with_latch (s : State) (x : Sparse (Option Word)) (o : Nat) : State.reg { s with latch := x } o = s.reg o := rfl
@[simp] theorem get_with_latch (s : State) (x : Sparse (Option Word)) (o : Fld) : State.get { s with latch := x } o = s.get o := rfl
@[simp] theorem is_with_latch (s : State) (x : Sparse (Option Word)) (o : Fld) : State.is { s with latch := x } o = s.is o := rfl
@[simp] theorem reg_with_hg (s : State) (x : Hg) (o : Nat) : State.reg { s with hg := x } o = s.reg o := rfl
@[simp] theorem get_with_hg (s : State) (x : Hg) (o : Fld) : State.get { s with hg := x } o = s.get o := rfl
@[simp] theorem is_with_hg (s : State) (x : Hg) (o : Fld) : State.is { s with hg := x } o = s.is o := rfl
@[simp] theorem reg_with_fs (s : State) (x : Sparse Byte) (o : Nat) : State.reg { s with fs := x } o = s.reg o := rfl
@[simp] theorem get_with_fs (s : State) (x : Sparse Byte) (o : Fld) : State.get { s with fs := x } o = s.get o := rfl
@[simp] theorem is_with_fs (s : State) (x : Sparse Byte) (o : Fld) : State.is { s with fs := x } o = s.is o := rfl
@[simp] theorem reg_with_fsBad (s : State) (x : Sparse Bool) (o : Nat) : State.reg { s with fsBad := x } o = s.reg o := rfl
@[simp] theorem get_with_fsBad (s : State) (x : Sparse Bool) (o : Fld) : State.get { s with fsBad := x } o = s.get o := rfl
@[simp] theorem is_with_fsBad (s : State) (x : Sparse Bool) (o : Fld) : State.is { s with fsBad := x } o = s.is o := rfl
@[simp] theorem reg_with_streams (s : State) (x : Sparse SpStream) (o : Nat) : State.reg { s with streams := x } o = s.reg o := rfl
@[simp] theorem get_with_streams (s : State) (x : Sparse SpStream) (o : Fld) : State.get { s with streams := x } o = s.get o := rfl
@[simp] theorem is_with_streams (s : State) (x : Sparse SpStream) (o : Fld) : State.is { s with streams := x } o = s.is o := rfl
@[simp] theorem reg_with_imus (s : State) (x : Sparse Imu) (o : Nat) : State.reg { s with imus := x } o = s.reg o := rfl
@[simp] theorem get_with_imus (s : State) (x : Sparse Imu) (o : Fld) : State.get { s with imus := x } o = s.get o := rfl
@[simp] theorem is_with_imus (s : State) (x : Sparse Imu) (o : Fld) : State.is { s with imus := x } o = s.is o := rfl
@[simp] theorem reg_with_cans (s : State) (x : Sparse Can) (o : Nat) : State.reg { s with cans := x } o = s.reg o := rfl
@[simp] theorem get_with_cans (s : State) (x : Sparse Can) (o : Fld) : State.get { s with cans := x } o = s.get o := rfl
@[simp] theorem is_with_cans (s : State) (x : Sparse Can) (o : Fld) : State.is { s with cans := x } o = s.is o := rfl
@[simp] theorem reg_with_i2cs (s : State) (x : Sparse I2c) (o : Nat) : State.reg { s with i2cs := x } o = s.reg o := rfl
@[simp] theorem get_with_i2cs (s : State) (x : Sparse I2c) (o : Fld) : State.get { s with i2cs := x } o = s.get o := rfl
@[simp] theorem is_with_i2cs (s : State) (x : Sparse I2c) (o : Fld) : State.is { s with i2cs := x } o = s.is o := rfl
@[simp] theorem reg_with_eth (s : State) (x : Eth) (o : Nat) : State.reg { s with eth := x } o = s.reg o := rfl
@[simp] theorem get_with_eth (s : State) (x : Eth) (o : Fld) : State.get { s with eth := x } o = s.get o := rfl
@[simp] theorem is_with_eth (s : State) (x : Eth) (o : Fld) : State.is { s with eth := x } o = s.is o := rfl
@[simp] theorem reg_with_fresh (s : State) (x : Fresh) (o : Nat) : State.reg { s with fresh := x } o = s.reg o := rfl
@[simp] theorem get_with_fresh (s : State) (x : Fresh) (o : Fld) : State.get { s with fresh := x } o = s.get o := rfl
@[simp] theorem is_with_fresh (s : State) (x : Fresh) (o : Fld) : State.is { s with fresh := x } o = s.is o := rfl
@[simp] theorem reg_with_mem (s : State) (x : Mem) (o : Nat) : State.reg { s with mem := x } o = s.reg o := rfl
@[simp] theorem get_with_mem (s : State) (x : Mem) (o : Fld) : State.get { s with mem := x } o = s.get o := rfl
@[simp] theorem is_with_mem (s : State) (x : Mem) (o : Fld) : State.is { s with mem := x } o = s.is o := rfl
@[simp] theorem reg_with_atu (s : State) (x : Atu) (o : Nat) : State.reg { s with atu := x } o = s.reg o := rfl
@[simp] theorem get_with_atu (s : State) (x : Atu) (o : Fld) : State.get { s with atu := x } o = s.get o := rfl
@[simp] theorem is_with_atu (s : State) (x : Atu) (o : Fld) : State.is { s with atu := x } o = s.is o := rfl
@[simp] theorem reg_with_pool (s : State) (x : Pool) (o : Nat) : State.reg { s with pool := x } o = s.reg o := rfl
@[simp] theorem get_with_pool (s : State) (x : Pool) (o : Fld) : State.get { s with pool := x } o = s.get o := rfl
@[simp] theorem is_with_pool (s : State) (x : Pool) (o : Fld) : State.is { s with pool := x } o = s.is o := rfl
@[simp] theorem reg_with_hostFns (s : State) (x : Sparse HostFn) (o : Nat) : State.reg { s with hostFns := x } o = s.reg o := rfl
@[simp] theorem get_with_hostFns (s : State) (x : Sparse HostFn) (o : Fld) : State.get { s with hostFns := x } o = s.get o := rfl
@[simp] theorem is_with_hostFns (s : State) (x : Sparse HostFn) (o : Fld) : State.is { s with hostFns := x } o = s.is o := rfl
@[simp] theorem reg_with_msixTab (s : State) (x : Sparse Word) (o : Nat) : State.reg { s with msixTab := x } o = s.reg o := rfl
@[simp] theorem get_with_msixTab (s : State) (x : Sparse Word) (o : Fld) : State.get { s with msixTab := x } o = s.get o := rfl
@[simp] theorem is_with_msixTab (s : State) (x : Sparse Word) (o : Fld) : State.is { s with msixTab := x } o = s.is o := rfl
@[simp] theorem reg_with_track (s : State) (x : Track) (o : Nat) : State.reg { s with track := x } o = s.reg o := rfl
@[simp] theorem get_with_track (s : State) (x : Track) (o : Fld) : State.get { s with track := x } o = s.get o := rfl
@[simp] theorem is_with_track (s : State) (x : Track) (o : Fld) : State.is { s with track := x } o = s.is o := rfl
@[simp] theorem reg_with_eng (s : State) (x : Engine) (o : Nat) : State.reg { s with eng := x } o = s.reg o := rfl
@[simp] theorem get_with_eng (s : State) (x : Engine) (o : Fld) : State.get { s with eng := x } o = s.get o := rfl
@[simp] theorem is_with_eng (s : State) (x : Engine) (o : Fld) : State.is { s with eng := x } o = s.is o := rfl
@[simp] theorem reg_with_sk (s : State) (x : Sk) (o : Nat) : State.reg { s with sk := x } o = s.reg o := rfl
@[simp] theorem get_with_sk (s : State) (x : Sk) (o : Fld) : State.get { s with sk := x } o = s.get o := rfl
@[simp] theorem is_with_sk (s : State) (x : Sk) (o : Fld) : State.is { s with sk := x } o = s.is o := rfl
@[simp] theorem reg_with_weft (s : State) (x : Weft) (o : Nat) : State.reg { s with weft := x } o = s.reg o := rfl
@[simp] theorem get_with_weft (s : State) (x : Weft) (o : Fld) : State.get { s with weft := x } o = s.get o := rfl
@[simp] theorem is_with_weft (s : State) (x : Weft) (o : Fld) : State.is { s with weft := x } o = s.is o := rfl
@[simp] theorem reg_with_me (s : State) (x : Me) (o : Nat) : State.reg { s with me := x } o = s.reg o := rfl
@[simp] theorem get_with_me (s : State) (x : Me) (o : Fld) : State.get { s with me := x } o = s.get o := rfl
@[simp] theorem is_with_me (s : State) (x : Me) (o : Fld) : State.is { s with me := x } o = s.is o := rfl
@[simp] theorem reg_with_loom (s : State) (x : Loom) (o : Nat) : State.reg { s with loom := x } o = s.reg o := rfl
@[simp] theorem get_with_loom (s : State) (x : Loom) (o : Fld) : State.get { s with loom := x } o = s.get o := rfl
@[simp] theorem is_with_loom (s : State) (x : Loom) (o : Fld) : State.is { s with loom := x } o = s.is o := rfl
@[simp] theorem reg_with_ref (s : State) (x : Ref) (o : Nat) : State.reg { s with ref := x } o = s.reg o := rfl
@[simp] theorem get_with_ref (s : State) (x : Ref) (o : Fld) : State.get { s with ref := x } o = s.get o := rfl
@[simp] theorem is_with_ref (s : State) (x : Ref) (o : Fld) : State.is { s with ref := x } o = s.is o := rfl
@[simp] theorem reg_with_sv (s : State) (x : Sv) (o : Nat) : State.reg { s with sv := x } o = s.reg o := rfl
@[simp] theorem get_with_sv (s : State) (x : Sv) (o : Fld) : State.get { s with sv := x } o = s.get o := rfl
@[simp] theorem is_with_sv (s : State) (x : Sv) (o : Fld) : State.is { s with sv := x } o = s.is o := rfl
@[simp] theorem reg_with_boot (s : State) (x : Boot) (o : Nat) : State.reg { s with boot := x } o = s.reg o := rfl
@[simp] theorem get_with_boot (s : State) (x : Boot) (o : Fld) : State.get { s with boot := x } o = s.get o := rfl
@[simp] theorem is_with_boot (s : State) (x : Boot) (o : Fld) : State.is { s with boot := x } o = s.is o := rfl
@[simp] theorem reg_with_pwr (s : State) (x : Pwr) (o : Nat) : State.reg { s with pwr := x } o = s.reg o := rfl
@[simp] theorem get_with_pwr (s : State) (x : Pwr) (o : Fld) : State.get { s with pwr := x } o = s.get o := rfl
@[simp] theorem is_with_pwr (s : State) (x : Pwr) (o : Fld) : State.is { s with pwr := x } o = s.is o := rfl
@[simp] theorem reg_with_freshTab (s : State) (x : Table) (o : Nat) : State.reg { s with freshTab := x } o = s.reg o := rfl
@[simp] theorem get_with_freshTab (s : State) (x : Table) (o : Fld) : State.get { s with freshTab := x } o = s.get o := rfl
@[simp] theorem is_with_freshTab (s : State) (x : Table) (o : Fld) : State.is { s with freshTab := x } o = s.is o := rfl
@[simp] theorem reg_with_outbox (s : State) (x : List Out) (o : Nat) : State.reg { s with outbox := x } o = s.reg o := rfl
@[simp] theorem get_with_outbox (s : State) (x : List Out) (o : Fld) : State.get { s with outbox := x } o = s.get o := rfl
@[simp] theorem is_with_outbox (s : State) (x : List Out) (o : Fld) : State.is { s with outbox := x } o = s.is o := rfl
@[simp] theorem reg_with_freeCtr (s : State) (x : Nat) (o : Nat) : State.reg { s with freeCtr := x } o = s.reg o := rfl
@[simp] theorem get_with_freeCtr (s : State) (x : Nat) (o : Fld) : State.get { s with freeCtr := x } o = s.get o := rfl
@[simp] theorem is_with_freeCtr (s : State) (x : Nat) (o : Fld) : State.is { s with freeCtr := x } o = s.is o := rfl

/-! ### setReg -/

@[simp] theorem setReg_pending (s : State) (o : Nat) (v : Word) : (s.setReg o v).pending = s.pending := rfl
@[simp] theorem setReg_staged (s : State) (o : Nat) (v : Word) : (s.setReg o v).staged = s.staged := rfl
@[simp] theorem setReg_heldLo (s : State) (o : Nat) (v : Word) : (s.setReg o v).heldLo = s.heldLo := rfl
@[simp] theorem setReg_latch (s : State) (o : Nat) (v : Word) : (s.setReg o v).latch = s.latch := rfl
@[simp] theorem setReg_hg (s : State) (o : Nat) (v : Word) : (s.setReg o v).hg = s.hg := rfl
@[simp] theorem setReg_fs (s : State) (o : Nat) (v : Word) : (s.setReg o v).fs = s.fs := rfl
@[simp] theorem setReg_fsBad (s : State) (o : Nat) (v : Word) : (s.setReg o v).fsBad = s.fsBad := rfl
@[simp] theorem setReg_streams (s : State) (o : Nat) (v : Word) : (s.setReg o v).streams = s.streams := rfl
@[simp] theorem setReg_imus (s : State) (o : Nat) (v : Word) : (s.setReg o v).imus = s.imus := rfl
@[simp] theorem setReg_cans (s : State) (o : Nat) (v : Word) : (s.setReg o v).cans = s.cans := rfl
@[simp] theorem setReg_i2cs (s : State) (o : Nat) (v : Word) : (s.setReg o v).i2cs = s.i2cs := rfl
@[simp] theorem setReg_eth (s : State) (o : Nat) (v : Word) : (s.setReg o v).eth = s.eth := rfl
@[simp] theorem setReg_fresh (s : State) (o : Nat) (v : Word) : (s.setReg o v).fresh = s.fresh := rfl
@[simp] theorem setReg_mem (s : State) (o : Nat) (v : Word) : (s.setReg o v).mem = s.mem := rfl
@[simp] theorem setReg_atu (s : State) (o : Nat) (v : Word) : (s.setReg o v).atu = s.atu := rfl
@[simp] theorem setReg_pool (s : State) (o : Nat) (v : Word) : (s.setReg o v).pool = s.pool := rfl
@[simp] theorem setReg_hostFns (s : State) (o : Nat) (v : Word) : (s.setReg o v).hostFns = s.hostFns := rfl
@[simp] theorem setReg_msixTab (s : State) (o : Nat) (v : Word) : (s.setReg o v).msixTab = s.msixTab := rfl
@[simp] theorem setReg_track (s : State) (o : Nat) (v : Word) : (s.setReg o v).track = s.track := rfl
@[simp] theorem setReg_eng (s : State) (o : Nat) (v : Word) : (s.setReg o v).eng = s.eng := rfl
@[simp] theorem setReg_sk (s : State) (o : Nat) (v : Word) : (s.setReg o v).sk = s.sk := rfl
@[simp] theorem setReg_weft (s : State) (o : Nat) (v : Word) : (s.setReg o v).weft = s.weft := rfl
@[simp] theorem setReg_me (s : State) (o : Nat) (v : Word) : (s.setReg o v).me = s.me := rfl
@[simp] theorem setReg_loom (s : State) (o : Nat) (v : Word) : (s.setReg o v).loom = s.loom := rfl
@[simp] theorem setReg_ref (s : State) (o : Nat) (v : Word) : (s.setReg o v).ref = s.ref := rfl
@[simp] theorem setReg_sv (s : State) (o : Nat) (v : Word) : (s.setReg o v).sv = s.sv := rfl
@[simp] theorem setReg_boot (s : State) (o : Nat) (v : Word) : (s.setReg o v).boot = s.boot := rfl
@[simp] theorem setReg_pwr (s : State) (o : Nat) (v : Word) : (s.setReg o v).pwr = s.pwr := rfl
@[simp] theorem setReg_freshTab (s : State) (o : Nat) (v : Word) : (s.setReg o v).freshTab = s.freshTab := rfl
@[simp] theorem setReg_outbox (s : State) (o : Nat) (v : Word) : (s.setReg o v).outbox = s.outbox := rfl
@[simp] theorem setReg_freeCtr (s : State) (o : Nat) (v : Word) : (s.setReg o v).freeCtr = s.freeCtr := rfl

/-! ### put -/

@[simp] theorem put_pending (s : State) (f : Fld) (v : Nat) : (s.put f v).pending = s.pending := rfl
@[simp] theorem put_staged (s : State) (f : Fld) (v : Nat) : (s.put f v).staged = s.staged := rfl
@[simp] theorem put_heldLo (s : State) (f : Fld) (v : Nat) : (s.put f v).heldLo = s.heldLo := rfl
@[simp] theorem put_latch (s : State) (f : Fld) (v : Nat) : (s.put f v).latch = s.latch := rfl
@[simp] theorem put_hg (s : State) (f : Fld) (v : Nat) : (s.put f v).hg = s.hg := rfl
@[simp] theorem put_fs (s : State) (f : Fld) (v : Nat) : (s.put f v).fs = s.fs := rfl
@[simp] theorem put_fsBad (s : State) (f : Fld) (v : Nat) : (s.put f v).fsBad = s.fsBad := rfl
@[simp] theorem put_streams (s : State) (f : Fld) (v : Nat) : (s.put f v).streams = s.streams := rfl
@[simp] theorem put_imus (s : State) (f : Fld) (v : Nat) : (s.put f v).imus = s.imus := rfl
@[simp] theorem put_cans (s : State) (f : Fld) (v : Nat) : (s.put f v).cans = s.cans := rfl
@[simp] theorem put_i2cs (s : State) (f : Fld) (v : Nat) : (s.put f v).i2cs = s.i2cs := rfl
@[simp] theorem put_eth (s : State) (f : Fld) (v : Nat) : (s.put f v).eth = s.eth := rfl
@[simp] theorem put_fresh (s : State) (f : Fld) (v : Nat) : (s.put f v).fresh = s.fresh := rfl
@[simp] theorem put_mem (s : State) (f : Fld) (v : Nat) : (s.put f v).mem = s.mem := rfl
@[simp] theorem put_atu (s : State) (f : Fld) (v : Nat) : (s.put f v).atu = s.atu := rfl
@[simp] theorem put_pool (s : State) (f : Fld) (v : Nat) : (s.put f v).pool = s.pool := rfl
@[simp] theorem put_hostFns (s : State) (f : Fld) (v : Nat) : (s.put f v).hostFns = s.hostFns := rfl
@[simp] theorem put_msixTab (s : State) (f : Fld) (v : Nat) : (s.put f v).msixTab = s.msixTab := rfl
@[simp] theorem put_track (s : State) (f : Fld) (v : Nat) : (s.put f v).track = s.track := rfl
@[simp] theorem put_eng (s : State) (f : Fld) (v : Nat) : (s.put f v).eng = s.eng := rfl
@[simp] theorem put_sk (s : State) (f : Fld) (v : Nat) : (s.put f v).sk = s.sk := rfl
@[simp] theorem put_weft (s : State) (f : Fld) (v : Nat) : (s.put f v).weft = s.weft := rfl
@[simp] theorem put_me (s : State) (f : Fld) (v : Nat) : (s.put f v).me = s.me := rfl
@[simp] theorem put_loom (s : State) (f : Fld) (v : Nat) : (s.put f v).loom = s.loom := rfl
@[simp] theorem put_ref (s : State) (f : Fld) (v : Nat) : (s.put f v).ref = s.ref := rfl
@[simp] theorem put_sv (s : State) (f : Fld) (v : Nat) : (s.put f v).sv = s.sv := rfl
@[simp] theorem put_boot (s : State) (f : Fld) (v : Nat) : (s.put f v).boot = s.boot := rfl
@[simp] theorem put_pwr (s : State) (f : Fld) (v : Nat) : (s.put f v).pwr = s.pwr := rfl
@[simp] theorem put_freshTab (s : State) (f : Fld) (v : Nat) : (s.put f v).freshTab = s.freshTab := rfl
@[simp] theorem put_outbox (s : State) (f : Fld) (v : Nat) : (s.put f v).outbox = s.outbox := rfl
@[simp] theorem put_freeCtr (s : State) (f : Fld) (v : Nat) : (s.put f v).freeCtr = s.freeCtr := rfl

/-! ### putB -/

@[simp] theorem putB_pending (s : State) (f : Fld) (b : Bool) : (s.putB f b).pending = s.pending := rfl
@[simp] theorem putB_staged (s : State) (f : Fld) (b : Bool) : (s.putB f b).staged = s.staged := rfl
@[simp] theorem putB_heldLo (s : State) (f : Fld) (b : Bool) : (s.putB f b).heldLo = s.heldLo := rfl
@[simp] theorem putB_latch (s : State) (f : Fld) (b : Bool) : (s.putB f b).latch = s.latch := rfl
@[simp] theorem putB_hg (s : State) (f : Fld) (b : Bool) : (s.putB f b).hg = s.hg := rfl
@[simp] theorem putB_fs (s : State) (f : Fld) (b : Bool) : (s.putB f b).fs = s.fs := rfl
@[simp] theorem putB_fsBad (s : State) (f : Fld) (b : Bool) : (s.putB f b).fsBad = s.fsBad := rfl
@[simp] theorem putB_streams (s : State) (f : Fld) (b : Bool) : (s.putB f b).streams = s.streams := rfl
@[simp] theorem putB_imus (s : State) (f : Fld) (b : Bool) : (s.putB f b).imus = s.imus := rfl
@[simp] theorem putB_cans (s : State) (f : Fld) (b : Bool) : (s.putB f b).cans = s.cans := rfl
@[simp] theorem putB_i2cs (s : State) (f : Fld) (b : Bool) : (s.putB f b).i2cs = s.i2cs := rfl
@[simp] theorem putB_eth (s : State) (f : Fld) (b : Bool) : (s.putB f b).eth = s.eth := rfl
@[simp] theorem putB_fresh (s : State) (f : Fld) (b : Bool) : (s.putB f b).fresh = s.fresh := rfl
@[simp] theorem putB_mem (s : State) (f : Fld) (b : Bool) : (s.putB f b).mem = s.mem := rfl
@[simp] theorem putB_atu (s : State) (f : Fld) (b : Bool) : (s.putB f b).atu = s.atu := rfl
@[simp] theorem putB_pool (s : State) (f : Fld) (b : Bool) : (s.putB f b).pool = s.pool := rfl
@[simp] theorem putB_hostFns (s : State) (f : Fld) (b : Bool) : (s.putB f b).hostFns = s.hostFns := rfl
@[simp] theorem putB_msixTab (s : State) (f : Fld) (b : Bool) : (s.putB f b).msixTab = s.msixTab := rfl
@[simp] theorem putB_track (s : State) (f : Fld) (b : Bool) : (s.putB f b).track = s.track := rfl
@[simp] theorem putB_eng (s : State) (f : Fld) (b : Bool) : (s.putB f b).eng = s.eng := rfl
@[simp] theorem putB_sk (s : State) (f : Fld) (b : Bool) : (s.putB f b).sk = s.sk := rfl
@[simp] theorem putB_weft (s : State) (f : Fld) (b : Bool) : (s.putB f b).weft = s.weft := rfl
@[simp] theorem putB_me (s : State) (f : Fld) (b : Bool) : (s.putB f b).me = s.me := rfl
@[simp] theorem putB_loom (s : State) (f : Fld) (b : Bool) : (s.putB f b).loom = s.loom := rfl
@[simp] theorem putB_ref (s : State) (f : Fld) (b : Bool) : (s.putB f b).ref = s.ref := rfl
@[simp] theorem putB_sv (s : State) (f : Fld) (b : Bool) : (s.putB f b).sv = s.sv := rfl
@[simp] theorem putB_boot (s : State) (f : Fld) (b : Bool) : (s.putB f b).boot = s.boot := rfl
@[simp] theorem putB_pwr (s : State) (f : Fld) (b : Bool) : (s.putB f b).pwr = s.pwr := rfl
@[simp] theorem putB_freshTab (s : State) (f : Fld) (b : Bool) : (s.putB f b).freshTab = s.freshTab := rfl
@[simp] theorem putB_outbox (s : State) (f : Fld) (b : Bool) : (s.putB f b).outbox = s.outbox := rfl
@[simp] theorem putB_freeCtr (s : State) (f : Fld) (b : Bool) : (s.putB f b).freeCtr = s.freeCtr := rfl

/-! ### setPair -/

@[simp] theorem setPair_pending (s : State) (o v : Nat) : (s.setPair o v).pending = s.pending := (OnlyRegs.setPair (.refl s) o v).pending
@[simp] theorem setPair_staged (s : State) (o v : Nat) : (s.setPair o v).staged = s.staged := (OnlyRegs.setPair (.refl s) o v).staged
@[simp] theorem setPair_heldLo (s : State) (o v : Nat) : (s.setPair o v).heldLo = s.heldLo := (OnlyRegs.setPair (.refl s) o v).heldLo
@[simp] theorem setPair_latch (s : State) (o v : Nat) : (s.setPair o v).latch = s.latch := (OnlyRegs.setPair (.refl s) o v).latch
@[simp] theorem setPair_hg (s : State) (o v : Nat) : (s.setPair o v).hg = s.hg := (OnlyRegs.setPair (.refl s) o v).hg
@[simp] theorem setPair_fs (s : State) (o v : Nat) : (s.setPair o v).fs = s.fs := (OnlyRegs.setPair (.refl s) o v).fs
@[simp] theorem setPair_fsBad (s : State) (o v : Nat) : (s.setPair o v).fsBad = s.fsBad := (OnlyRegs.setPair (.refl s) o v).fsBad
@[simp] theorem setPair_streams (s : State) (o v : Nat) : (s.setPair o v).streams = s.streams := (OnlyRegs.setPair (.refl s) o v).streams
@[simp] theorem setPair_imus (s : State) (o v : Nat) : (s.setPair o v).imus = s.imus := (OnlyRegs.setPair (.refl s) o v).imus
@[simp] theorem setPair_cans (s : State) (o v : Nat) : (s.setPair o v).cans = s.cans := (OnlyRegs.setPair (.refl s) o v).cans
@[simp] theorem setPair_i2cs (s : State) (o v : Nat) : (s.setPair o v).i2cs = s.i2cs := (OnlyRegs.setPair (.refl s) o v).i2cs
@[simp] theorem setPair_eth (s : State) (o v : Nat) : (s.setPair o v).eth = s.eth := (OnlyRegs.setPair (.refl s) o v).eth
@[simp] theorem setPair_fresh (s : State) (o v : Nat) : (s.setPair o v).fresh = s.fresh := (OnlyRegs.setPair (.refl s) o v).fresh
@[simp] theorem setPair_mem (s : State) (o v : Nat) : (s.setPair o v).mem = s.mem := (OnlyRegs.setPair (.refl s) o v).mem
@[simp] theorem setPair_atu (s : State) (o v : Nat) : (s.setPair o v).atu = s.atu := (OnlyRegs.setPair (.refl s) o v).atu
@[simp] theorem setPair_pool (s : State) (o v : Nat) : (s.setPair o v).pool = s.pool := (OnlyRegs.setPair (.refl s) o v).pool
@[simp] theorem setPair_hostFns (s : State) (o v : Nat) : (s.setPair o v).hostFns = s.hostFns := (OnlyRegs.setPair (.refl s) o v).hostFns
@[simp] theorem setPair_msixTab (s : State) (o v : Nat) : (s.setPair o v).msixTab = s.msixTab := (OnlyRegs.setPair (.refl s) o v).msixTab
@[simp] theorem setPair_track (s : State) (o v : Nat) : (s.setPair o v).track = s.track := (OnlyRegs.setPair (.refl s) o v).track
@[simp] theorem setPair_eng (s : State) (o v : Nat) : (s.setPair o v).eng = s.eng := (OnlyRegs.setPair (.refl s) o v).eng
@[simp] theorem setPair_sk (s : State) (o v : Nat) : (s.setPair o v).sk = s.sk := (OnlyRegs.setPair (.refl s) o v).sk
@[simp] theorem setPair_weft (s : State) (o v : Nat) : (s.setPair o v).weft = s.weft := (OnlyRegs.setPair (.refl s) o v).weft
@[simp] theorem setPair_me (s : State) (o v : Nat) : (s.setPair o v).me = s.me := (OnlyRegs.setPair (.refl s) o v).me
@[simp] theorem setPair_loom (s : State) (o v : Nat) : (s.setPair o v).loom = s.loom := (OnlyRegs.setPair (.refl s) o v).loom
@[simp] theorem setPair_ref (s : State) (o v : Nat) : (s.setPair o v).ref = s.ref := (OnlyRegs.setPair (.refl s) o v).ref
@[simp] theorem setPair_sv (s : State) (o v : Nat) : (s.setPair o v).sv = s.sv := (OnlyRegs.setPair (.refl s) o v).sv
@[simp] theorem setPair_boot (s : State) (o v : Nat) : (s.setPair o v).boot = s.boot := (OnlyRegs.setPair (.refl s) o v).boot
@[simp] theorem setPair_pwr (s : State) (o v : Nat) : (s.setPair o v).pwr = s.pwr := (OnlyRegs.setPair (.refl s) o v).pwr
@[simp] theorem setPair_freshTab (s : State) (o v : Nat) : (s.setPair o v).freshTab = s.freshTab := (OnlyRegs.setPair (.refl s) o v).freshTab
@[simp] theorem setPair_outbox (s : State) (o v : Nat) : (s.setPair o v).outbox = s.outbox := (OnlyRegs.setPair (.refl s) o v).outbox
@[simp] theorem setPair_freeCtr (s : State) (o v : Nat) : (s.setPair o v).freeCtr = s.freeCtr := (OnlyRegs.setPair (.refl s) o v).freeCtr

/-! ### bump -/

@[simp] theorem bump_pending (s : State) (f : Fld) (n : Nat) : (s.bump f n).pending = s.pending := (OnlyRegs.bump (.refl s) f n).pending
@[simp] theorem bump_staged (s : State) (f : Fld) (n : Nat) : (s.bump f n).staged = s.staged := (OnlyRegs.bump (.refl s) f n).staged
@[simp] theorem bump_heldLo (s : State) (f : Fld) (n : Nat) : (s.bump f n).heldLo = s.heldLo := (OnlyRegs.bump (.refl s) f n).heldLo
@[simp] theorem bump_latch (s : State) (f : Fld) (n : Nat) : (s.bump f n).latch = s.latch := (OnlyRegs.bump (.refl s) f n).latch
@[simp] theorem bump_hg (s : State) (f : Fld) (n : Nat) : (s.bump f n).hg = s.hg := (OnlyRegs.bump (.refl s) f n).hg
@[simp] theorem bump_fs (s : State) (f : Fld) (n : Nat) : (s.bump f n).fs = s.fs := (OnlyRegs.bump (.refl s) f n).fs
@[simp] theorem bump_fsBad (s : State) (f : Fld) (n : Nat) : (s.bump f n).fsBad = s.fsBad := (OnlyRegs.bump (.refl s) f n).fsBad
@[simp] theorem bump_streams (s : State) (f : Fld) (n : Nat) : (s.bump f n).streams = s.streams := (OnlyRegs.bump (.refl s) f n).streams
@[simp] theorem bump_imus (s : State) (f : Fld) (n : Nat) : (s.bump f n).imus = s.imus := (OnlyRegs.bump (.refl s) f n).imus
@[simp] theorem bump_cans (s : State) (f : Fld) (n : Nat) : (s.bump f n).cans = s.cans := (OnlyRegs.bump (.refl s) f n).cans
@[simp] theorem bump_i2cs (s : State) (f : Fld) (n : Nat) : (s.bump f n).i2cs = s.i2cs := (OnlyRegs.bump (.refl s) f n).i2cs
@[simp] theorem bump_eth (s : State) (f : Fld) (n : Nat) : (s.bump f n).eth = s.eth := (OnlyRegs.bump (.refl s) f n).eth
@[simp] theorem bump_fresh (s : State) (f : Fld) (n : Nat) : (s.bump f n).fresh = s.fresh := (OnlyRegs.bump (.refl s) f n).fresh
@[simp] theorem bump_mem (s : State) (f : Fld) (n : Nat) : (s.bump f n).mem = s.mem := (OnlyRegs.bump (.refl s) f n).mem
@[simp] theorem bump_atu (s : State) (f : Fld) (n : Nat) : (s.bump f n).atu = s.atu := (OnlyRegs.bump (.refl s) f n).atu
@[simp] theorem bump_pool (s : State) (f : Fld) (n : Nat) : (s.bump f n).pool = s.pool := (OnlyRegs.bump (.refl s) f n).pool
@[simp] theorem bump_hostFns (s : State) (f : Fld) (n : Nat) : (s.bump f n).hostFns = s.hostFns := (OnlyRegs.bump (.refl s) f n).hostFns
@[simp] theorem bump_msixTab (s : State) (f : Fld) (n : Nat) : (s.bump f n).msixTab = s.msixTab := (OnlyRegs.bump (.refl s) f n).msixTab
@[simp] theorem bump_track (s : State) (f : Fld) (n : Nat) : (s.bump f n).track = s.track := (OnlyRegs.bump (.refl s) f n).track
@[simp] theorem bump_eng (s : State) (f : Fld) (n : Nat) : (s.bump f n).eng = s.eng := (OnlyRegs.bump (.refl s) f n).eng
@[simp] theorem bump_sk (s : State) (f : Fld) (n : Nat) : (s.bump f n).sk = s.sk := (OnlyRegs.bump (.refl s) f n).sk
@[simp] theorem bump_weft (s : State) (f : Fld) (n : Nat) : (s.bump f n).weft = s.weft := (OnlyRegs.bump (.refl s) f n).weft
@[simp] theorem bump_me (s : State) (f : Fld) (n : Nat) : (s.bump f n).me = s.me := (OnlyRegs.bump (.refl s) f n).me
@[simp] theorem bump_loom (s : State) (f : Fld) (n : Nat) : (s.bump f n).loom = s.loom := (OnlyRegs.bump (.refl s) f n).loom
@[simp] theorem bump_ref (s : State) (f : Fld) (n : Nat) : (s.bump f n).ref = s.ref := (OnlyRegs.bump (.refl s) f n).ref
@[simp] theorem bump_sv (s : State) (f : Fld) (n : Nat) : (s.bump f n).sv = s.sv := (OnlyRegs.bump (.refl s) f n).sv
@[simp] theorem bump_boot (s : State) (f : Fld) (n : Nat) : (s.bump f n).boot = s.boot := (OnlyRegs.bump (.refl s) f n).boot
@[simp] theorem bump_pwr (s : State) (f : Fld) (n : Nat) : (s.bump f n).pwr = s.pwr := (OnlyRegs.bump (.refl s) f n).pwr
@[simp] theorem bump_freshTab (s : State) (f : Fld) (n : Nat) : (s.bump f n).freshTab = s.freshTab := (OnlyRegs.bump (.refl s) f n).freshTab
@[simp] theorem bump_outbox (s : State) (f : Fld) (n : Nat) : (s.bump f n).outbox = s.outbox := (OnlyRegs.bump (.refl s) f n).outbox
@[simp] theorem bump_freeCtr (s : State) (f : Fld) (n : Nat) : (s.bump f n).freeCtr = s.freeCtr := (OnlyRegs.bump (.refl s) f n).freeCtr

/-! ### report -/

@[simp] theorem report_pending (s : State) (c i : Nat) : (s.report c i).pending = s.pending := (onlyRegs_report s c i).pending
@[simp] theorem report_staged (s : State) (c i : Nat) : (s.report c i).staged = s.staged := (onlyRegs_report s c i).staged
@[simp] theorem report_heldLo (s : State) (c i : Nat) : (s.report c i).heldLo = s.heldLo := (onlyRegs_report s c i).heldLo
@[simp] theorem report_latch (s : State) (c i : Nat) : (s.report c i).latch = s.latch := (onlyRegs_report s c i).latch
@[simp] theorem report_hg (s : State) (c i : Nat) : (s.report c i).hg = s.hg := (onlyRegs_report s c i).hg
@[simp] theorem report_fs (s : State) (c i : Nat) : (s.report c i).fs = s.fs := (onlyRegs_report s c i).fs
@[simp] theorem report_fsBad (s : State) (c i : Nat) : (s.report c i).fsBad = s.fsBad := (onlyRegs_report s c i).fsBad
@[simp] theorem report_streams (s : State) (c i : Nat) : (s.report c i).streams = s.streams := (onlyRegs_report s c i).streams
@[simp] theorem report_imus (s : State) (c i : Nat) : (s.report c i).imus = s.imus := (onlyRegs_report s c i).imus
@[simp] theorem report_cans (s : State) (c i : Nat) : (s.report c i).cans = s.cans := (onlyRegs_report s c i).cans
@[simp] theorem report_i2cs (s : State) (c i : Nat) : (s.report c i).i2cs = s.i2cs := (onlyRegs_report s c i).i2cs
@[simp] theorem report_eth (s : State) (c i : Nat) : (s.report c i).eth = s.eth := (onlyRegs_report s c i).eth
@[simp] theorem report_fresh (s : State) (c i : Nat) : (s.report c i).fresh = s.fresh := (onlyRegs_report s c i).fresh
@[simp] theorem report_mem (s : State) (c i : Nat) : (s.report c i).mem = s.mem := (onlyRegs_report s c i).mem
@[simp] theorem report_atu (s : State) (c i : Nat) : (s.report c i).atu = s.atu := (onlyRegs_report s c i).atu
@[simp] theorem report_pool (s : State) (c i : Nat) : (s.report c i).pool = s.pool := (onlyRegs_report s c i).pool
@[simp] theorem report_hostFns (s : State) (c i : Nat) : (s.report c i).hostFns = s.hostFns := (onlyRegs_report s c i).hostFns
@[simp] theorem report_msixTab (s : State) (c i : Nat) : (s.report c i).msixTab = s.msixTab := (onlyRegs_report s c i).msixTab
@[simp] theorem report_track (s : State) (c i : Nat) : (s.report c i).track = s.track := (onlyRegs_report s c i).track
@[simp] theorem report_eng (s : State) (c i : Nat) : (s.report c i).eng = s.eng := (onlyRegs_report s c i).eng
@[simp] theorem report_sk (s : State) (c i : Nat) : (s.report c i).sk = s.sk := (onlyRegs_report s c i).sk
@[simp] theorem report_weft (s : State) (c i : Nat) : (s.report c i).weft = s.weft := (onlyRegs_report s c i).weft
@[simp] theorem report_me (s : State) (c i : Nat) : (s.report c i).me = s.me := (onlyRegs_report s c i).me
@[simp] theorem report_loom (s : State) (c i : Nat) : (s.report c i).loom = s.loom := (onlyRegs_report s c i).loom
@[simp] theorem report_ref (s : State) (c i : Nat) : (s.report c i).ref = s.ref := (onlyRegs_report s c i).ref
@[simp] theorem report_sv (s : State) (c i : Nat) : (s.report c i).sv = s.sv := (onlyRegs_report s c i).sv
@[simp] theorem report_boot (s : State) (c i : Nat) : (s.report c i).boot = s.boot := (onlyRegs_report s c i).boot
@[simp] theorem report_pwr (s : State) (c i : Nat) : (s.report c i).pwr = s.pwr := (onlyRegs_report s c i).pwr
@[simp] theorem report_freshTab (s : State) (c i : Nat) : (s.report c i).freshTab = s.freshTab := (onlyRegs_report s c i).freshTab
@[simp] theorem report_outbox (s : State) (c i : Nat) : (s.report c i).outbox = s.outbox := (onlyRegs_report s c i).outbox
@[simp] theorem report_freeCtr (s : State) (c i : Nat) : (s.report c i).freeCtr = s.freeCtr := (onlyRegs_report s c i).freeCtr

/-! ### report2 -/

@[simp] theorem report2_pending (s : State) (c d i : Nat) : (s.report2 c d i).pending = s.pending := (onlyRegs_report2 s c d i).pending
@[simp] theorem report2_staged (s : State) (c d i : Nat) : (s.report2 c d i).staged = s.staged := (onlyRegs_report2 s c d i).staged
@[simp] theorem report2_heldLo (s : State) (c d i : Nat) : (s.report2 c d i).heldLo = s.heldLo := (onlyRegs_report2 s c d i).heldLo
@[simp] theorem report2_latch (s : State) (c d i : Nat) : (s.report2 c d i).latch = s.latch := (onlyRegs_report2 s c d i).latch
@[simp] theorem report2_hg (s : State) (c d i : Nat) : (s.report2 c d i).hg = s.hg := (onlyRegs_report2 s c d i).hg
@[simp] theorem report2_fs (s : State) (c d i : Nat) : (s.report2 c d i).fs = s.fs := (onlyRegs_report2 s c d i).fs
@[simp] theorem report2_fsBad (s : State) (c d i : Nat) : (s.report2 c d i).fsBad = s.fsBad := (onlyRegs_report2 s c d i).fsBad
@[simp] theorem report2_streams (s : State) (c d i : Nat) : (s.report2 c d i).streams = s.streams := (onlyRegs_report2 s c d i).streams
@[simp] theorem report2_imus (s : State) (c d i : Nat) : (s.report2 c d i).imus = s.imus := (onlyRegs_report2 s c d i).imus
@[simp] theorem report2_cans (s : State) (c d i : Nat) : (s.report2 c d i).cans = s.cans := (onlyRegs_report2 s c d i).cans
@[simp] theorem report2_i2cs (s : State) (c d i : Nat) : (s.report2 c d i).i2cs = s.i2cs := (onlyRegs_report2 s c d i).i2cs
@[simp] theorem report2_eth (s : State) (c d i : Nat) : (s.report2 c d i).eth = s.eth := (onlyRegs_report2 s c d i).eth
@[simp] theorem report2_fresh (s : State) (c d i : Nat) : (s.report2 c d i).fresh = s.fresh := (onlyRegs_report2 s c d i).fresh
@[simp] theorem report2_mem (s : State) (c d i : Nat) : (s.report2 c d i).mem = s.mem := (onlyRegs_report2 s c d i).mem
@[simp] theorem report2_atu (s : State) (c d i : Nat) : (s.report2 c d i).atu = s.atu := (onlyRegs_report2 s c d i).atu
@[simp] theorem report2_pool (s : State) (c d i : Nat) : (s.report2 c d i).pool = s.pool := (onlyRegs_report2 s c d i).pool
@[simp] theorem report2_hostFns (s : State) (c d i : Nat) : (s.report2 c d i).hostFns = s.hostFns := (onlyRegs_report2 s c d i).hostFns
@[simp] theorem report2_msixTab (s : State) (c d i : Nat) : (s.report2 c d i).msixTab = s.msixTab := (onlyRegs_report2 s c d i).msixTab
@[simp] theorem report2_track (s : State) (c d i : Nat) : (s.report2 c d i).track = s.track := (onlyRegs_report2 s c d i).track
@[simp] theorem report2_eng (s : State) (c d i : Nat) : (s.report2 c d i).eng = s.eng := (onlyRegs_report2 s c d i).eng
@[simp] theorem report2_sk (s : State) (c d i : Nat) : (s.report2 c d i).sk = s.sk := (onlyRegs_report2 s c d i).sk
@[simp] theorem report2_weft (s : State) (c d i : Nat) : (s.report2 c d i).weft = s.weft := (onlyRegs_report2 s c d i).weft
@[simp] theorem report2_me (s : State) (c d i : Nat) : (s.report2 c d i).me = s.me := (onlyRegs_report2 s c d i).me
@[simp] theorem report2_loom (s : State) (c d i : Nat) : (s.report2 c d i).loom = s.loom := (onlyRegs_report2 s c d i).loom
@[simp] theorem report2_ref (s : State) (c d i : Nat) : (s.report2 c d i).ref = s.ref := (onlyRegs_report2 s c d i).ref
@[simp] theorem report2_sv (s : State) (c d i : Nat) : (s.report2 c d i).sv = s.sv := (onlyRegs_report2 s c d i).sv
@[simp] theorem report2_boot (s : State) (c d i : Nat) : (s.report2 c d i).boot = s.boot := (onlyRegs_report2 s c d i).boot
@[simp] theorem report2_pwr (s : State) (c d i : Nat) : (s.report2 c d i).pwr = s.pwr := (onlyRegs_report2 s c d i).pwr
@[simp] theorem report2_freshTab (s : State) (c d i : Nat) : (s.report2 c d i).freshTab = s.freshTab := (onlyRegs_report2 s c d i).freshTab
@[simp] theorem report2_outbox (s : State) (c d i : Nat) : (s.report2 c d i).outbox = s.outbox := (onlyRegs_report2 s c d i).outbox
@[simp] theorem report2_freeCtr (s : State) (c d i : Nat) : (s.report2 c d i).freeCtr = s.freeCtr := (onlyRegs_report2 s c d i).freeCtr

/-! ### refuse -/

@[simp] theorem refuse_pending (s : State) (c i : Nat) : (s.refuse c i).pending = s.pending := (onlyRegs_refuse s c i).pending
@[simp] theorem refuse_staged (s : State) (c i : Nat) : (s.refuse c i).staged = s.staged := (onlyRegs_refuse s c i).staged
@[simp] theorem refuse_heldLo (s : State) (c i : Nat) : (s.refuse c i).heldLo = s.heldLo := (onlyRegs_refuse s c i).heldLo
@[simp] theorem refuse_latch (s : State) (c i : Nat) : (s.refuse c i).latch = s.latch := (onlyRegs_refuse s c i).latch
@[simp] theorem refuse_hg (s : State) (c i : Nat) : (s.refuse c i).hg = s.hg := (onlyRegs_refuse s c i).hg
@[simp] theorem refuse_fs (s : State) (c i : Nat) : (s.refuse c i).fs = s.fs := (onlyRegs_refuse s c i).fs
@[simp] theorem refuse_fsBad (s : State) (c i : Nat) : (s.refuse c i).fsBad = s.fsBad := (onlyRegs_refuse s c i).fsBad
@[simp] theorem refuse_streams (s : State) (c i : Nat) : (s.refuse c i).streams = s.streams := (onlyRegs_refuse s c i).streams
@[simp] theorem refuse_imus (s : State) (c i : Nat) : (s.refuse c i).imus = s.imus := (onlyRegs_refuse s c i).imus
@[simp] theorem refuse_cans (s : State) (c i : Nat) : (s.refuse c i).cans = s.cans := (onlyRegs_refuse s c i).cans
@[simp] theorem refuse_i2cs (s : State) (c i : Nat) : (s.refuse c i).i2cs = s.i2cs := (onlyRegs_refuse s c i).i2cs
@[simp] theorem refuse_eth (s : State) (c i : Nat) : (s.refuse c i).eth = s.eth := (onlyRegs_refuse s c i).eth
@[simp] theorem refuse_fresh (s : State) (c i : Nat) : (s.refuse c i).fresh = s.fresh := (onlyRegs_refuse s c i).fresh
@[simp] theorem refuse_mem (s : State) (c i : Nat) : (s.refuse c i).mem = s.mem := (onlyRegs_refuse s c i).mem
@[simp] theorem refuse_atu (s : State) (c i : Nat) : (s.refuse c i).atu = s.atu := (onlyRegs_refuse s c i).atu
@[simp] theorem refuse_pool (s : State) (c i : Nat) : (s.refuse c i).pool = s.pool := (onlyRegs_refuse s c i).pool
@[simp] theorem refuse_hostFns (s : State) (c i : Nat) : (s.refuse c i).hostFns = s.hostFns := (onlyRegs_refuse s c i).hostFns
@[simp] theorem refuse_msixTab (s : State) (c i : Nat) : (s.refuse c i).msixTab = s.msixTab := (onlyRegs_refuse s c i).msixTab
@[simp] theorem refuse_track (s : State) (c i : Nat) : (s.refuse c i).track = s.track := (onlyRegs_refuse s c i).track
@[simp] theorem refuse_eng (s : State) (c i : Nat) : (s.refuse c i).eng = s.eng := (onlyRegs_refuse s c i).eng
@[simp] theorem refuse_sk (s : State) (c i : Nat) : (s.refuse c i).sk = s.sk := (onlyRegs_refuse s c i).sk
@[simp] theorem refuse_weft (s : State) (c i : Nat) : (s.refuse c i).weft = s.weft := (onlyRegs_refuse s c i).weft
@[simp] theorem refuse_me (s : State) (c i : Nat) : (s.refuse c i).me = s.me := (onlyRegs_refuse s c i).me
@[simp] theorem refuse_loom (s : State) (c i : Nat) : (s.refuse c i).loom = s.loom := (onlyRegs_refuse s c i).loom
@[simp] theorem refuse_ref (s : State) (c i : Nat) : (s.refuse c i).ref = s.ref := (onlyRegs_refuse s c i).ref
@[simp] theorem refuse_sv (s : State) (c i : Nat) : (s.refuse c i).sv = s.sv := (onlyRegs_refuse s c i).sv
@[simp] theorem refuse_boot (s : State) (c i : Nat) : (s.refuse c i).boot = s.boot := (onlyRegs_refuse s c i).boot
@[simp] theorem refuse_pwr (s : State) (c i : Nat) : (s.refuse c i).pwr = s.pwr := (onlyRegs_refuse s c i).pwr
@[simp] theorem refuse_freshTab (s : State) (c i : Nat) : (s.refuse c i).freshTab = s.freshTab := (onlyRegs_refuse s c i).freshTab
@[simp] theorem refuse_outbox (s : State) (c i : Nat) : (s.refuse c i).outbox = s.outbox := (onlyRegs_refuse s c i).outbox
@[simp] theorem refuse_freeCtr (s : State) (c i : Nat) : (s.refuse c i).freeCtr = s.freeCtr := (onlyRegs_refuse s c i).freeCtr

/-! ### safetyLog -/

@[simp] theorem safetyLog_pending (s : State) (t c a b d : Nat) : (s.safetyLog t c a b d).pending = s.pending := (onlyRegs_safetyLog s t c a b d).pending
@[simp] theorem safetyLog_staged (s : State) (t c a b d : Nat) : (s.safetyLog t c a b d).staged = s.staged := (onlyRegs_safetyLog s t c a b d).staged
@[simp] theorem safetyLog_heldLo (s : State) (t c a b d : Nat) : (s.safetyLog t c a b d).heldLo = s.heldLo := (onlyRegs_safetyLog s t c a b d).heldLo
@[simp] theorem safetyLog_latch (s : State) (t c a b d : Nat) : (s.safetyLog t c a b d).latch = s.latch := (onlyRegs_safetyLog s t c a b d).latch
@[simp] theorem safetyLog_hg (s : State) (t c a b d : Nat) : (s.safetyLog t c a b d).hg = s.hg := (onlyRegs_safetyLog s t c a b d).hg
@[simp] theorem safetyLog_fs (s : State) (t c a b d : Nat) : (s.safetyLog t c a b d).fs = s.fs := (onlyRegs_safetyLog s t c a b d).fs
@[simp] theorem safetyLog_fsBad (s : State) (t c a b d : Nat) : (s.safetyLog t c a b d).fsBad = s.fsBad := (onlyRegs_safetyLog s t c a b d).fsBad
@[simp] theorem safetyLog_streams (s : State) (t c a b d : Nat) : (s.safetyLog t c a b d).streams = s.streams := (onlyRegs_safetyLog s t c a b d).streams
@[simp] theorem safetyLog_imus (s : State) (t c a b d : Nat) : (s.safetyLog t c a b d).imus = s.imus := (onlyRegs_safetyLog s t c a b d).imus
@[simp] theorem safetyLog_cans (s : State) (t c a b d : Nat) : (s.safetyLog t c a b d).cans = s.cans := (onlyRegs_safetyLog s t c a b d).cans
@[simp] theorem safetyLog_i2cs (s : State) (t c a b d : Nat) : (s.safetyLog t c a b d).i2cs = s.i2cs := (onlyRegs_safetyLog s t c a b d).i2cs
@[simp] theorem safetyLog_eth (s : State) (t c a b d : Nat) : (s.safetyLog t c a b d).eth = s.eth := (onlyRegs_safetyLog s t c a b d).eth
@[simp] theorem safetyLog_fresh (s : State) (t c a b d : Nat) : (s.safetyLog t c a b d).fresh = s.fresh := (onlyRegs_safetyLog s t c a b d).fresh
@[simp] theorem safetyLog_mem (s : State) (t c a b d : Nat) : (s.safetyLog t c a b d).mem = s.mem := (onlyRegs_safetyLog s t c a b d).mem
@[simp] theorem safetyLog_atu (s : State) (t c a b d : Nat) : (s.safetyLog t c a b d).atu = s.atu := (onlyRegs_safetyLog s t c a b d).atu
@[simp] theorem safetyLog_pool (s : State) (t c a b d : Nat) : (s.safetyLog t c a b d).pool = s.pool := (onlyRegs_safetyLog s t c a b d).pool
@[simp] theorem safetyLog_hostFns (s : State) (t c a b d : Nat) : (s.safetyLog t c a b d).hostFns = s.hostFns := (onlyRegs_safetyLog s t c a b d).hostFns
@[simp] theorem safetyLog_msixTab (s : State) (t c a b d : Nat) : (s.safetyLog t c a b d).msixTab = s.msixTab := (onlyRegs_safetyLog s t c a b d).msixTab
@[simp] theorem safetyLog_track (s : State) (t c a b d : Nat) : (s.safetyLog t c a b d).track = s.track := (onlyRegs_safetyLog s t c a b d).track
@[simp] theorem safetyLog_eng (s : State) (t c a b d : Nat) : (s.safetyLog t c a b d).eng = s.eng := (onlyRegs_safetyLog s t c a b d).eng
@[simp] theorem safetyLog_sk (s : State) (t c a b d : Nat) : (s.safetyLog t c a b d).sk = s.sk := (onlyRegs_safetyLog s t c a b d).sk
@[simp] theorem safetyLog_weft (s : State) (t c a b d : Nat) : (s.safetyLog t c a b d).weft = s.weft := (onlyRegs_safetyLog s t c a b d).weft
@[simp] theorem safetyLog_me (s : State) (t c a b d : Nat) : (s.safetyLog t c a b d).me = s.me := (onlyRegs_safetyLog s t c a b d).me
@[simp] theorem safetyLog_loom (s : State) (t c a b d : Nat) : (s.safetyLog t c a b d).loom = s.loom := (onlyRegs_safetyLog s t c a b d).loom
@[simp] theorem safetyLog_ref (s : State) (t c a b d : Nat) : (s.safetyLog t c a b d).ref = s.ref := (onlyRegs_safetyLog s t c a b d).ref
@[simp] theorem safetyLog_sv (s : State) (t c a b d : Nat) : (s.safetyLog t c a b d).sv = s.sv := (onlyRegs_safetyLog s t c a b d).sv
@[simp] theorem safetyLog_boot (s : State) (t c a b d : Nat) : (s.safetyLog t c a b d).boot = s.boot := (onlyRegs_safetyLog s t c a b d).boot
@[simp] theorem safetyLog_pwr (s : State) (t c a b d : Nat) : (s.safetyLog t c a b d).pwr = s.pwr := (onlyRegs_safetyLog s t c a b d).pwr
@[simp] theorem safetyLog_freshTab (s : State) (t c a b d : Nat) : (s.safetyLog t c a b d).freshTab = s.freshTab := (onlyRegs_safetyLog s t c a b d).freshTab
@[simp] theorem safetyLog_outbox (s : State) (t c a b d : Nat) : (s.safetyLog t c a b d).outbox = s.outbox := (onlyRegs_safetyLog s t c a b d).outbox
@[simp] theorem safetyLog_freeCtr (s : State) (t c a b d : Nat) : (s.safetyLog t c a b d).freeCtr = s.freeCtr := (onlyRegs_safetyLog s t c a b d).freeCtr

/-! ### emit -/

@[simp] theorem emit_pending (s : State) (x : Out) : (s.emit x).pending = s.pending := rfl
@[simp] theorem emit_regs (s : State) (x : Out) : (s.emit x).regs = s.regs := rfl
@[simp] theorem emit_staged (s : State) (x : Out) : (s.emit x).staged = s.staged := rfl
@[simp] theorem emit_heldLo (s : State) (x : Out) : (s.emit x).heldLo = s.heldLo := rfl
@[simp] theorem emit_latch (s : State) (x : Out) : (s.emit x).latch = s.latch := rfl
@[simp] theorem emit_hg (s : State) (x : Out) : (s.emit x).hg = s.hg := rfl
@[simp] theorem emit_fs (s : State) (x : Out) : (s.emit x).fs = s.fs := rfl
@[simp] theorem emit_fsBad (s : State) (x : Out) : (s.emit x).fsBad = s.fsBad := rfl
@[simp] theorem emit_streams (s : State) (x : Out) : (s.emit x).streams = s.streams := rfl
@[simp] theorem emit_imus (s : State) (x : Out) : (s.emit x).imus = s.imus := rfl
@[simp] theorem emit_cans (s : State) (x : Out) : (s.emit x).cans = s.cans := rfl
@[simp] theorem emit_i2cs (s : State) (x : Out) : (s.emit x).i2cs = s.i2cs := rfl
@[simp] theorem emit_eth (s : State) (x : Out) : (s.emit x).eth = s.eth := rfl
@[simp] theorem emit_fresh (s : State) (x : Out) : (s.emit x).fresh = s.fresh := rfl
@[simp] theorem emit_mem (s : State) (x : Out) : (s.emit x).mem = s.mem := rfl
@[simp] theorem emit_atu (s : State) (x : Out) : (s.emit x).atu = s.atu := rfl
@[simp] theorem emit_pool (s : State) (x : Out) : (s.emit x).pool = s.pool := rfl
@[simp] theorem emit_hostFns (s : State) (x : Out) : (s.emit x).hostFns = s.hostFns := rfl
@[simp] theorem emit_msixTab (s : State) (x : Out) : (s.emit x).msixTab = s.msixTab := rfl
@[simp] theorem emit_track (s : State) (x : Out) : (s.emit x).track = s.track := rfl
@[simp] theorem emit_eng (s : State) (x : Out) : (s.emit x).eng = s.eng := rfl
@[simp] theorem emit_sk (s : State) (x : Out) : (s.emit x).sk = s.sk := rfl
@[simp] theorem emit_weft (s : State) (x : Out) : (s.emit x).weft = s.weft := rfl
@[simp] theorem emit_me (s : State) (x : Out) : (s.emit x).me = s.me := rfl
@[simp] theorem emit_loom (s : State) (x : Out) : (s.emit x).loom = s.loom := rfl
@[simp] theorem emit_ref (s : State) (x : Out) : (s.emit x).ref = s.ref := rfl
@[simp] theorem emit_sv (s : State) (x : Out) : (s.emit x).sv = s.sv := rfl
@[simp] theorem emit_boot (s : State) (x : Out) : (s.emit x).boot = s.boot := rfl
@[simp] theorem emit_pwr (s : State) (x : Out) : (s.emit x).pwr = s.pwr := rfl
@[simp] theorem emit_freshTab (s : State) (x : Out) : (s.emit x).freshTab = s.freshTab := rfl
@[simp] theorem emit_freeCtr (s : State) (x : Out) : (s.emit x).freeCtr = s.freeCtr := rfl
@[simp] theorem emit_reg (s : State) (x : Out) (q : Nat) : (s.emit x).reg q = s.reg q := rfl
@[simp] theorem emit_get (s : State) (x : Out) (q : Fld) : (s.emit x).get q = s.get q := rfl
@[simp] theorem emit_is (s : State) (x : Out) (q : Fld) : (s.emit x).is q = s.is q := rfl

/-! ### took -/

@[simp] theorem took_pending (s : State) : s.took.pending = s.pending := rfl
@[simp] theorem took_regs (s : State) : s.took.regs = s.regs := rfl
@[simp] theorem took_staged (s : State) : s.took.staged = s.staged := rfl
@[simp] theorem took_heldLo (s : State) : s.took.heldLo = s.heldLo := rfl
@[simp] theorem took_latch (s : State) : s.took.latch = s.latch := rfl
@[simp] theorem took_hg (s : State) : s.took.hg = s.hg := rfl
@[simp] theorem took_fs (s : State) : s.took.fs = s.fs := rfl
@[simp] theorem took_fsBad (s : State) : s.took.fsBad = s.fsBad := rfl
@[simp] theorem took_streams (s : State) : s.took.streams = s.streams := rfl
@[simp] theorem took_imus (s : State) : s.took.imus = s.imus := rfl
@[simp] theorem took_cans (s : State) : s.took.cans = s.cans := rfl
@[simp] theorem took_i2cs (s : State) : s.took.i2cs = s.i2cs := rfl
@[simp] theorem took_eth (s : State) : s.took.eth = s.eth := rfl
@[simp] theorem took_fresh (s : State) : s.took.fresh = s.fresh := rfl
@[simp] theorem took_mem (s : State) : s.took.mem = s.mem := rfl
@[simp] theorem took_atu (s : State) : s.took.atu = s.atu := rfl
@[simp] theorem took_pool (s : State) : s.took.pool = s.pool := rfl
@[simp] theorem took_hostFns (s : State) : s.took.hostFns = s.hostFns := rfl
@[simp] theorem took_msixTab (s : State) : s.took.msixTab = s.msixTab := rfl
@[simp] theorem took_track (s : State) : s.took.track = s.track := rfl
@[simp] theorem took_eng (s : State) : s.took.eng = s.eng := rfl
@[simp] theorem took_sk (s : State) : s.took.sk = s.sk := rfl
@[simp] theorem took_weft (s : State) : s.took.weft = s.weft := rfl
@[simp] theorem took_me (s : State) : s.took.me = s.me := rfl
@[simp] theorem took_loom (s : State) : s.took.loom = s.loom := rfl
@[simp] theorem took_ref (s : State) : s.took.ref = s.ref := rfl
@[simp] theorem took_sv (s : State) : s.took.sv = s.sv := rfl
@[simp] theorem took_boot (s : State) : s.took.boot = s.boot := rfl
@[simp] theorem took_pwr (s : State) : s.took.pwr = s.pwr := rfl
@[simp] theorem took_freshTab (s : State) : s.took.freshTab = s.freshTab := rfl
@[simp] theorem took_outbox (s : State) : s.took.outbox = s.outbox := rfl
@[simp] theorem took_reg (s : State) (q : Nat) : s.took.reg q = s.reg q := rfl
@[simp] theorem took_get (s : State) (q : Fld) : s.took.get q = s.get q := rfl
@[simp] theorem took_is (s : State) (q : Fld) : s.took.is q = s.is q := rfl

/-! ### holdLo -/

@[simp] theorem holdLo_pending (s : State) (i o : Nat) (v : Word) : (s.holdLo i o v).pending = s.pending := rfl
@[simp] theorem holdLo_regs (s : State) (i o : Nat) (v : Word) : (s.holdLo i o v).regs = s.regs := rfl
@[simp] theorem holdLo_staged (s : State) (i o : Nat) (v : Word) : (s.holdLo i o v).staged = s.staged := rfl
@[simp] theorem holdLo_latch (s : State) (i o : Nat) (v : Word) : (s.holdLo i o v).latch = s.latch := rfl
@[simp] theorem holdLo_hg (s : State) (i o : Nat) (v : Word) : (s.holdLo i o v).hg = s.hg := rfl
@[simp] theorem holdLo_fs (s : State) (i o : Nat) (v : Word) : (s.holdLo i o v).fs = s.fs := rfl
@[simp] theorem holdLo_fsBad (s : State) (i o : Nat) (v : Word) : (s.holdLo i o v).fsBad = s.fsBad := rfl
@[simp] theorem holdLo_streams (s : State) (i o : Nat) (v : Word) : (s.holdLo i o v).streams = s.streams := rfl
@[simp] theorem holdLo_imus (s : State) (i o : Nat) (v : Word) : (s.holdLo i o v).imus = s.imus := rfl
@[simp] theorem holdLo_cans (s : State) (i o : Nat) (v : Word) : (s.holdLo i o v).cans = s.cans := rfl
@[simp] theorem holdLo_i2cs (s : State) (i o : Nat) (v : Word) : (s.holdLo i o v).i2cs = s.i2cs := rfl
@[simp] theorem holdLo_eth (s : State) (i o : Nat) (v : Word) : (s.holdLo i o v).eth = s.eth := rfl
@[simp] theorem holdLo_fresh (s : State) (i o : Nat) (v : Word) : (s.holdLo i o v).fresh = s.fresh := rfl
@[simp] theorem holdLo_mem (s : State) (i o : Nat) (v : Word) : (s.holdLo i o v).mem = s.mem := rfl
@[simp] theorem holdLo_atu (s : State) (i o : Nat) (v : Word) : (s.holdLo i o v).atu = s.atu := rfl
@[simp] theorem holdLo_pool (s : State) (i o : Nat) (v : Word) : (s.holdLo i o v).pool = s.pool := rfl
@[simp] theorem holdLo_hostFns (s : State) (i o : Nat) (v : Word) : (s.holdLo i o v).hostFns = s.hostFns := rfl
@[simp] theorem holdLo_msixTab (s : State) (i o : Nat) (v : Word) : (s.holdLo i o v).msixTab = s.msixTab := rfl
@[simp] theorem holdLo_track (s : State) (i o : Nat) (v : Word) : (s.holdLo i o v).track = s.track := rfl
@[simp] theorem holdLo_eng (s : State) (i o : Nat) (v : Word) : (s.holdLo i o v).eng = s.eng := rfl
@[simp] theorem holdLo_sk (s : State) (i o : Nat) (v : Word) : (s.holdLo i o v).sk = s.sk := rfl
@[simp] theorem holdLo_weft (s : State) (i o : Nat) (v : Word) : (s.holdLo i o v).weft = s.weft := rfl
@[simp] theorem holdLo_me (s : State) (i o : Nat) (v : Word) : (s.holdLo i o v).me = s.me := rfl
@[simp] theorem holdLo_loom (s : State) (i o : Nat) (v : Word) : (s.holdLo i o v).loom = s.loom := rfl
@[simp] theorem holdLo_ref (s : State) (i o : Nat) (v : Word) : (s.holdLo i o v).ref = s.ref := rfl
@[simp] theorem holdLo_sv (s : State) (i o : Nat) (v : Word) : (s.holdLo i o v).sv = s.sv := rfl
@[simp] theorem holdLo_boot (s : State) (i o : Nat) (v : Word) : (s.holdLo i o v).boot = s.boot := rfl
@[simp] theorem holdLo_pwr (s : State) (i o : Nat) (v : Word) : (s.holdLo i o v).pwr = s.pwr := rfl
@[simp] theorem holdLo_freshTab (s : State) (i o : Nat) (v : Word) : (s.holdLo i o v).freshTab = s.freshTab := rfl
@[simp] theorem holdLo_outbox (s : State) (i o : Nat) (v : Word) : (s.holdLo i o v).outbox = s.outbox := rfl
@[simp] theorem holdLo_freeCtr (s : State) (i o : Nat) (v : Word) : (s.holdLo i o v).freeCtr = s.freeCtr := rfl
@[simp] theorem holdLo_reg (s : State) (i o : Nat) (v : Word) (q : Nat) : (s.holdLo i o v).reg q = s.reg q := rfl
@[simp] theorem holdLo_get (s : State) (i o : Nat) (v : Word) (q : Fld) : (s.holdLo i o v).get q = s.get q := rfl
@[simp] theorem holdLo_is (s : State) (i o : Nat) (v : Word) (q : Fld) : (s.holdLo i o v).is q = s.is q := rfl

/-! ### dropLo -/

@[simp] theorem dropLo_pending (s : State) (i o : Nat) : (s.dropLo i o).pending = s.pending := rfl
@[simp] theorem dropLo_regs (s : State) (i o : Nat) : (s.dropLo i o).regs = s.regs := rfl
@[simp] theorem dropLo_staged (s : State) (i o : Nat) : (s.dropLo i o).staged = s.staged := rfl
@[simp] theorem dropLo_latch (s : State) (i o : Nat) : (s.dropLo i o).latch = s.latch := rfl
@[simp] theorem dropLo_hg (s : State) (i o : Nat) : (s.dropLo i o).hg = s.hg := rfl
@[simp] theorem dropLo_fs (s : State) (i o : Nat) : (s.dropLo i o).fs = s.fs := rfl
@[simp] theorem dropLo_fsBad (s : State) (i o : Nat) : (s.dropLo i o).fsBad = s.fsBad := rfl
@[simp] theorem dropLo_streams (s : State) (i o : Nat) : (s.dropLo i o).streams = s.streams := rfl
@[simp] theorem dropLo_imus (s : State) (i o : Nat) : (s.dropLo i o).imus = s.imus := rfl
@[simp] theorem dropLo_cans (s : State) (i o : Nat) : (s.dropLo i o).cans = s.cans := rfl
@[simp] theorem dropLo_i2cs (s : State) (i o : Nat) : (s.dropLo i o).i2cs = s.i2cs := rfl
@[simp] theorem dropLo_eth (s : State) (i o : Nat) : (s.dropLo i o).eth = s.eth := rfl
@[simp] theorem dropLo_fresh (s : State) (i o : Nat) : (s.dropLo i o).fresh = s.fresh := rfl
@[simp] theorem dropLo_mem (s : State) (i o : Nat) : (s.dropLo i o).mem = s.mem := rfl
@[simp] theorem dropLo_atu (s : State) (i o : Nat) : (s.dropLo i o).atu = s.atu := rfl
@[simp] theorem dropLo_pool (s : State) (i o : Nat) : (s.dropLo i o).pool = s.pool := rfl
@[simp] theorem dropLo_hostFns (s : State) (i o : Nat) : (s.dropLo i o).hostFns = s.hostFns := rfl
@[simp] theorem dropLo_msixTab (s : State) (i o : Nat) : (s.dropLo i o).msixTab = s.msixTab := rfl
@[simp] theorem dropLo_track (s : State) (i o : Nat) : (s.dropLo i o).track = s.track := rfl
@[simp] theorem dropLo_eng (s : State) (i o : Nat) : (s.dropLo i o).eng = s.eng := rfl
@[simp] theorem dropLo_sk (s : State) (i o : Nat) : (s.dropLo i o).sk = s.sk := rfl
@[simp] theorem dropLo_weft (s : State) (i o : Nat) : (s.dropLo i o).weft = s.weft := rfl
@[simp] theorem dropLo_me (s : State) (i o : Nat) : (s.dropLo i o).me = s.me := rfl
@[simp] theorem dropLo_loom (s : State) (i o : Nat) : (s.dropLo i o).loom = s.loom := rfl
@[simp] theorem dropLo_ref (s : State) (i o : Nat) : (s.dropLo i o).ref = s.ref := rfl
@[simp] theorem dropLo_sv (s : State) (i o : Nat) : (s.dropLo i o).sv = s.sv := rfl
@[simp] theorem dropLo_boot (s : State) (i o : Nat) : (s.dropLo i o).boot = s.boot := rfl
@[simp] theorem dropLo_pwr (s : State) (i o : Nat) : (s.dropLo i o).pwr = s.pwr := rfl
@[simp] theorem dropLo_freshTab (s : State) (i o : Nat) : (s.dropLo i o).freshTab = s.freshTab := rfl
@[simp] theorem dropLo_outbox (s : State) (i o : Nat) : (s.dropLo i o).outbox = s.outbox := rfl
@[simp] theorem dropLo_freeCtr (s : State) (i o : Nat) : (s.dropLo i o).freeCtr = s.freeCtr := rfl
@[simp] theorem dropLo_reg (s : State) (i o : Nat) (q : Nat) : (s.dropLo i o).reg q = s.reg q := rfl
@[simp] theorem dropLo_get (s : State) (i o : Nat) (q : Fld) : (s.dropLo i o).get q = s.get q := rfl
@[simp] theorem dropLo_is (s : State) (i o : Nat) (q : Fld) : (s.dropLo i o).is q = s.is q := rfl

/-! ### setDom -/

@[simp] theorem setDom_pending (s : State) (d : Nat) (x : HgDom) : (s.setDom d x).pending = s.pending := by unfold State.setDom; split <;> rfl
@[simp] theorem setDom_regs (s : State) (d : Nat) (x : HgDom) : (s.setDom d x).regs = s.regs := by unfold State.setDom; split <;> rfl
@[simp] theorem setDom_staged (s : State) (d : Nat) (x : HgDom) : (s.setDom d x).staged = s.staged := by unfold State.setDom; split <;> rfl
@[simp] theorem setDom_heldLo (s : State) (d : Nat) (x : HgDom) : (s.setDom d x).heldLo = s.heldLo := by unfold State.setDom; split <;> rfl
@[simp] theorem setDom_latch (s : State) (d : Nat) (x : HgDom) : (s.setDom d x).latch = s.latch := by unfold State.setDom; split <;> rfl
@[simp] theorem setDom_fs (s : State) (d : Nat) (x : HgDom) : (s.setDom d x).fs = s.fs := by unfold State.setDom; split <;> rfl
@[simp] theorem setDom_fsBad (s : State) (d : Nat) (x : HgDom) : (s.setDom d x).fsBad = s.fsBad := by unfold State.setDom; split <;> rfl
@[simp] theorem setDom_streams (s : State) (d : Nat) (x : HgDom) : (s.setDom d x).streams = s.streams := by unfold State.setDom; split <;> rfl
@[simp] theorem setDom_imus (s : State) (d : Nat) (x : HgDom) : (s.setDom d x).imus = s.imus := by unfold State.setDom; split <;> rfl
@[simp] theorem setDom_cans (s : State) (d : Nat) (x : HgDom) : (s.setDom d x).cans = s.cans := by unfold State.setDom; split <;> rfl
@[simp] theorem setDom_i2cs (s : State) (d : Nat) (x : HgDom) : (s.setDom d x).i2cs = s.i2cs := by unfold State.setDom; split <;> rfl
@[simp] theorem setDom_eth (s : State) (d : Nat) (x : HgDom) : (s.setDom d x).eth = s.eth := by unfold State.setDom; split <;> rfl
@[simp] theorem setDom_fresh (s : State) (d : Nat) (x : HgDom) : (s.setDom d x).fresh = s.fresh := by unfold State.setDom; split <;> rfl
@[simp] theorem setDom_mem (s : State) (d : Nat) (x : HgDom) : (s.setDom d x).mem = s.mem := by unfold State.setDom; split <;> rfl
@[simp] theorem setDom_atu (s : State) (d : Nat) (x : HgDom) : (s.setDom d x).atu = s.atu := by unfold State.setDom; split <;> rfl
@[simp] theorem setDom_pool (s : State) (d : Nat) (x : HgDom) : (s.setDom d x).pool = s.pool := by unfold State.setDom; split <;> rfl
@[simp] theorem setDom_hostFns (s : State) (d : Nat) (x : HgDom) : (s.setDom d x).hostFns = s.hostFns := by unfold State.setDom; split <;> rfl
@[simp] theorem setDom_msixTab (s : State) (d : Nat) (x : HgDom) : (s.setDom d x).msixTab = s.msixTab := by unfold State.setDom; split <;> rfl
@[simp] theorem setDom_track (s : State) (d : Nat) (x : HgDom) : (s.setDom d x).track = s.track := by unfold State.setDom; split <;> rfl
@[simp] theorem setDom_eng (s : State) (d : Nat) (x : HgDom) : (s.setDom d x).eng = s.eng := by unfold State.setDom; split <;> rfl
@[simp] theorem setDom_sk (s : State) (d : Nat) (x : HgDom) : (s.setDom d x).sk = s.sk := by unfold State.setDom; split <;> rfl
@[simp] theorem setDom_weft (s : State) (d : Nat) (x : HgDom) : (s.setDom d x).weft = s.weft := by unfold State.setDom; split <;> rfl
@[simp] theorem setDom_me (s : State) (d : Nat) (x : HgDom) : (s.setDom d x).me = s.me := by unfold State.setDom; split <;> rfl
@[simp] theorem setDom_loom (s : State) (d : Nat) (x : HgDom) : (s.setDom d x).loom = s.loom := by unfold State.setDom; split <;> rfl
@[simp] theorem setDom_ref (s : State) (d : Nat) (x : HgDom) : (s.setDom d x).ref = s.ref := by unfold State.setDom; split <;> rfl
@[simp] theorem setDom_sv (s : State) (d : Nat) (x : HgDom) : (s.setDom d x).sv = s.sv := by unfold State.setDom; split <;> rfl
@[simp] theorem setDom_boot (s : State) (d : Nat) (x : HgDom) : (s.setDom d x).boot = s.boot := by unfold State.setDom; split <;> rfl
@[simp] theorem setDom_pwr (s : State) (d : Nat) (x : HgDom) : (s.setDom d x).pwr = s.pwr := by unfold State.setDom; split <;> rfl
@[simp] theorem setDom_freshTab (s : State) (d : Nat) (x : HgDom) : (s.setDom d x).freshTab = s.freshTab := by unfold State.setDom; split <;> rfl
@[simp] theorem setDom_outbox (s : State) (d : Nat) (x : HgDom) : (s.setDom d x).outbox = s.outbox := by unfold State.setDom; split <;> rfl
@[simp] theorem setDom_freeCtr (s : State) (d : Nat) (x : HgDom) : (s.setDom d x).freeCtr = s.freeCtr := by unfold State.setDom; split <;> rfl
@[simp] theorem setDom_reg (s : State) (d : Nat) (x : HgDom) (q : Nat) : (s.setDom d x).reg q = s.reg q := by unfold State.setDom; split <;> rfl
@[simp] theorem setDom_get (s : State) (d : Nat) (x : HgDom) (q : Fld) : (s.setDom d x).get q = s.get q := by unfold State.setDom; split <;> rfl
@[simp] theorem setDom_is (s : State) (d : Nat) (x : HgDom) (q : Fld) : (s.setDom d x).is q = s.is q := by unfold State.setDom; split <;> rfl

/-! ### setTrig -/

@[simp] theorem setTrig_pending (s : State) (n : Nat) (x : Trig) : (s.setTrig n x).pending = s.pending := rfl
@[simp] theorem setTrig_regs (s : State) (n : Nat) (x : Trig) : (s.setTrig n x).regs = s.regs := rfl
@[simp] theorem setTrig_staged (s : State) (n : Nat) (x : Trig) : (s.setTrig n x).staged = s.staged := rfl
@[simp] theorem setTrig_heldLo (s : State) (n : Nat) (x : Trig) : (s.setTrig n x).heldLo = s.heldLo := rfl
@[simp] theorem setTrig_latch (s : State) (n : Nat) (x : Trig) : (s.setTrig n x).latch = s.latch := rfl
@[simp] theorem setTrig_fs (s : State) (n : Nat) (x : Trig) : (s.setTrig n x).fs = s.fs := rfl
@[simp] theorem setTrig_fsBad (s : State) (n : Nat) (x : Trig) : (s.setTrig n x).fsBad = s.fsBad := rfl
@[simp] theorem setTrig_streams (s : State) (n : Nat) (x : Trig) : (s.setTrig n x).streams = s.streams := rfl
@[simp] theorem setTrig_imus (s : State) (n : Nat) (x : Trig) : (s.setTrig n x).imus = s.imus := rfl
@[simp] theorem setTrig_cans (s : State) (n : Nat) (x : Trig) : (s.setTrig n x).cans = s.cans := rfl
@[simp] theorem setTrig_i2cs (s : State) (n : Nat) (x : Trig) : (s.setTrig n x).i2cs = s.i2cs := rfl
@[simp] theorem setTrig_eth (s : State) (n : Nat) (x : Trig) : (s.setTrig n x).eth = s.eth := rfl
@[simp] theorem setTrig_fresh (s : State) (n : Nat) (x : Trig) : (s.setTrig n x).fresh = s.fresh := rfl
@[simp] theorem setTrig_mem (s : State) (n : Nat) (x : Trig) : (s.setTrig n x).mem = s.mem := rfl
@[simp] theorem setTrig_atu (s : State) (n : Nat) (x : Trig) : (s.setTrig n x).atu = s.atu := rfl
@[simp] theorem setTrig_pool (s : State) (n : Nat) (x : Trig) : (s.setTrig n x).pool = s.pool := rfl
@[simp] theorem setTrig_hostFns (s : State) (n : Nat) (x : Trig) : (s.setTrig n x).hostFns = s.hostFns := rfl
@[simp] theorem setTrig_msixTab (s : State) (n : Nat) (x : Trig) : (s.setTrig n x).msixTab = s.msixTab := rfl
@[simp] theorem setTrig_track (s : State) (n : Nat) (x : Trig) : (s.setTrig n x).track = s.track := rfl
@[simp] theorem setTrig_eng (s : State) (n : Nat) (x : Trig) : (s.setTrig n x).eng = s.eng := rfl
@[simp] theorem setTrig_sk (s : State) (n : Nat) (x : Trig) : (s.setTrig n x).sk = s.sk := rfl
@[simp] theorem setTrig_weft (s : State) (n : Nat) (x : Trig) : (s.setTrig n x).weft = s.weft := rfl
@[simp] theorem setTrig_me (s : State) (n : Nat) (x : Trig) : (s.setTrig n x).me = s.me := rfl
@[simp] theorem setTrig_loom (s : State) (n : Nat) (x : Trig) : (s.setTrig n x).loom = s.loom := rfl
@[simp] theorem setTrig_ref (s : State) (n : Nat) (x : Trig) : (s.setTrig n x).ref = s.ref := rfl
@[simp] theorem setTrig_sv (s : State) (n : Nat) (x : Trig) : (s.setTrig n x).sv = s.sv := rfl
@[simp] theorem setTrig_boot (s : State) (n : Nat) (x : Trig) : (s.setTrig n x).boot = s.boot := rfl
@[simp] theorem setTrig_pwr (s : State) (n : Nat) (x : Trig) : (s.setTrig n x).pwr = s.pwr := rfl
@[simp] theorem setTrig_freshTab (s : State) (n : Nat) (x : Trig) : (s.setTrig n x).freshTab = s.freshTab := rfl
@[simp] theorem setTrig_outbox (s : State) (n : Nat) (x : Trig) : (s.setTrig n x).outbox = s.outbox := rfl
@[simp] theorem setTrig_freeCtr (s : State) (n : Nat) (x : Trig) : (s.setTrig n x).freeCtr = s.freeCtr := rfl
@[simp] theorem setTrig_reg (s : State) (n : Nat) (x : Trig) (q : Nat) : (s.setTrig n x).reg q = s.reg q := rfl
@[simp] theorem setTrig_get (s : State) (n : Nat) (x : Trig) (q : Fld) : (s.setTrig n x).get q = s.get q := rfl
@[simp] theorem setTrig_is (s : State) (n : Nat) (x : Trig) (q : Fld) : (s.setTrig n x).is q = s.is q := rfl

/-! ### setStream -/

@[simp] theorem setStream_pending (s : State) (n : Nat) (x : SpStream) : (s.setStream n x).pending = s.pending := rfl
@[simp] theorem setStream_regs (s : State) (n : Nat) (x : SpStream) : (s.setStream n x).regs = s.regs := rfl
@[simp] theorem setStream_staged (s : State) (n : Nat) (x : SpStream) : (s.setStream n x).staged = s.staged := rfl
@[simp] theorem setStream_heldLo (s : State) (n : Nat) (x : SpStream) : (s.setStream n x).heldLo = s.heldLo := rfl
@[simp] theorem setStream_latch (s : State) (n : Nat) (x : SpStream) : (s.setStream n x).latch = s.latch := rfl
@[simp] theorem setStream_hg (s : State) (n : Nat) (x : SpStream) : (s.setStream n x).hg = s.hg := rfl
@[simp] theorem setStream_fs (s : State) (n : Nat) (x : SpStream) : (s.setStream n x).fs = s.fs := rfl
@[simp] theorem setStream_fsBad (s : State) (n : Nat) (x : SpStream) : (s.setStream n x).fsBad = s.fsBad := rfl
@[simp] theorem setStream_imus (s : State) (n : Nat) (x : SpStream) : (s.setStream n x).imus = s.imus := rfl
@[simp] theorem setStream_cans (s : State) (n : Nat) (x : SpStream) : (s.setStream n x).cans = s.cans := rfl
@[simp] theorem setStream_i2cs (s : State) (n : Nat) (x : SpStream) : (s.setStream n x).i2cs = s.i2cs := rfl
@[simp] theorem setStream_eth (s : State) (n : Nat) (x : SpStream) : (s.setStream n x).eth = s.eth := rfl
@[simp] theorem setStream_fresh (s : State) (n : Nat) (x : SpStream) : (s.setStream n x).fresh = s.fresh := rfl
@[simp] theorem setStream_mem (s : State) (n : Nat) (x : SpStream) : (s.setStream n x).mem = s.mem := rfl
@[simp] theorem setStream_atu (s : State) (n : Nat) (x : SpStream) : (s.setStream n x).atu = s.atu := rfl
@[simp] theorem setStream_pool (s : State) (n : Nat) (x : SpStream) : (s.setStream n x).pool = s.pool := rfl
@[simp] theorem setStream_hostFns (s : State) (n : Nat) (x : SpStream) : (s.setStream n x).hostFns = s.hostFns := rfl
@[simp] theorem setStream_msixTab (s : State) (n : Nat) (x : SpStream) : (s.setStream n x).msixTab = s.msixTab := rfl
@[simp] theorem setStream_track (s : State) (n : Nat) (x : SpStream) : (s.setStream n x).track = s.track := rfl
@[simp] theorem setStream_eng (s : State) (n : Nat) (x : SpStream) : (s.setStream n x).eng = s.eng := rfl
@[simp] theorem setStream_sk (s : State) (n : Nat) (x : SpStream) : (s.setStream n x).sk = s.sk := rfl
@[simp] theorem setStream_weft (s : State) (n : Nat) (x : SpStream) : (s.setStream n x).weft = s.weft := rfl
@[simp] theorem setStream_me (s : State) (n : Nat) (x : SpStream) : (s.setStream n x).me = s.me := rfl
@[simp] theorem setStream_loom (s : State) (n : Nat) (x : SpStream) : (s.setStream n x).loom = s.loom := rfl
@[simp] theorem setStream_ref (s : State) (n : Nat) (x : SpStream) : (s.setStream n x).ref = s.ref := rfl
@[simp] theorem setStream_sv (s : State) (n : Nat) (x : SpStream) : (s.setStream n x).sv = s.sv := rfl
@[simp] theorem setStream_boot (s : State) (n : Nat) (x : SpStream) : (s.setStream n x).boot = s.boot := rfl
@[simp] theorem setStream_pwr (s : State) (n : Nat) (x : SpStream) : (s.setStream n x).pwr = s.pwr := rfl
@[simp] theorem setStream_freshTab (s : State) (n : Nat) (x : SpStream) : (s.setStream n x).freshTab = s.freshTab := rfl
@[simp] theorem setStream_outbox (s : State) (n : Nat) (x : SpStream) : (s.setStream n x).outbox = s.outbox := rfl
@[simp] theorem setStream_freeCtr (s : State) (n : Nat) (x : SpStream) : (s.setStream n x).freeCtr = s.freeCtr := rfl
@[simp] theorem setStream_reg (s : State) (n : Nat) (x : SpStream) (q : Nat) : (s.setStream n x).reg q = s.reg q := rfl
@[simp] theorem setStream_get (s : State) (n : Nat) (x : SpStream) (q : Fld) : (s.setStream n x).get q = s.get q := rfl
@[simp] theorem setStream_is (s : State) (n : Nat) (x : SpStream) (q : Fld) : (s.setStream n x).is q = s.is q := rfl

/-! ### setImu -/

@[simp] theorem setImu_pending (s : State) (n : Nat) (x : Imu) : (s.setImu n x).pending = s.pending := rfl
@[simp] theorem setImu_regs (s : State) (n : Nat) (x : Imu) : (s.setImu n x).regs = s.regs := rfl
@[simp] theorem setImu_staged (s : State) (n : Nat) (x : Imu) : (s.setImu n x).staged = s.staged := rfl
@[simp] theorem setImu_heldLo (s : State) (n : Nat) (x : Imu) : (s.setImu n x).heldLo = s.heldLo := rfl
@[simp] theorem setImu_latch (s : State) (n : Nat) (x : Imu) : (s.setImu n x).latch = s.latch := rfl
@[simp] theorem setImu_hg (s : State) (n : Nat) (x : Imu) : (s.setImu n x).hg = s.hg := rfl
@[simp] theorem setImu_fs (s : State) (n : Nat) (x : Imu) : (s.setImu n x).fs = s.fs := rfl
@[simp] theorem setImu_fsBad (s : State) (n : Nat) (x : Imu) : (s.setImu n x).fsBad = s.fsBad := rfl
@[simp] theorem setImu_streams (s : State) (n : Nat) (x : Imu) : (s.setImu n x).streams = s.streams := rfl
@[simp] theorem setImu_cans (s : State) (n : Nat) (x : Imu) : (s.setImu n x).cans = s.cans := rfl
@[simp] theorem setImu_i2cs (s : State) (n : Nat) (x : Imu) : (s.setImu n x).i2cs = s.i2cs := rfl
@[simp] theorem setImu_eth (s : State) (n : Nat) (x : Imu) : (s.setImu n x).eth = s.eth := rfl
@[simp] theorem setImu_fresh (s : State) (n : Nat) (x : Imu) : (s.setImu n x).fresh = s.fresh := rfl
@[simp] theorem setImu_mem (s : State) (n : Nat) (x : Imu) : (s.setImu n x).mem = s.mem := rfl
@[simp] theorem setImu_atu (s : State) (n : Nat) (x : Imu) : (s.setImu n x).atu = s.atu := rfl
@[simp] theorem setImu_pool (s : State) (n : Nat) (x : Imu) : (s.setImu n x).pool = s.pool := rfl
@[simp] theorem setImu_hostFns (s : State) (n : Nat) (x : Imu) : (s.setImu n x).hostFns = s.hostFns := rfl
@[simp] theorem setImu_msixTab (s : State) (n : Nat) (x : Imu) : (s.setImu n x).msixTab = s.msixTab := rfl
@[simp] theorem setImu_track (s : State) (n : Nat) (x : Imu) : (s.setImu n x).track = s.track := rfl
@[simp] theorem setImu_eng (s : State) (n : Nat) (x : Imu) : (s.setImu n x).eng = s.eng := rfl
@[simp] theorem setImu_sk (s : State) (n : Nat) (x : Imu) : (s.setImu n x).sk = s.sk := rfl
@[simp] theorem setImu_weft (s : State) (n : Nat) (x : Imu) : (s.setImu n x).weft = s.weft := rfl
@[simp] theorem setImu_me (s : State) (n : Nat) (x : Imu) : (s.setImu n x).me = s.me := rfl
@[simp] theorem setImu_loom (s : State) (n : Nat) (x : Imu) : (s.setImu n x).loom = s.loom := rfl
@[simp] theorem setImu_ref (s : State) (n : Nat) (x : Imu) : (s.setImu n x).ref = s.ref := rfl
@[simp] theorem setImu_sv (s : State) (n : Nat) (x : Imu) : (s.setImu n x).sv = s.sv := rfl
@[simp] theorem setImu_boot (s : State) (n : Nat) (x : Imu) : (s.setImu n x).boot = s.boot := rfl
@[simp] theorem setImu_pwr (s : State) (n : Nat) (x : Imu) : (s.setImu n x).pwr = s.pwr := rfl
@[simp] theorem setImu_freshTab (s : State) (n : Nat) (x : Imu) : (s.setImu n x).freshTab = s.freshTab := rfl
@[simp] theorem setImu_outbox (s : State) (n : Nat) (x : Imu) : (s.setImu n x).outbox = s.outbox := rfl
@[simp] theorem setImu_freeCtr (s : State) (n : Nat) (x : Imu) : (s.setImu n x).freeCtr = s.freeCtr := rfl
@[simp] theorem setImu_reg (s : State) (n : Nat) (x : Imu) (q : Nat) : (s.setImu n x).reg q = s.reg q := rfl
@[simp] theorem setImu_get (s : State) (n : Nat) (x : Imu) (q : Fld) : (s.setImu n x).get q = s.get q := rfl
@[simp] theorem setImu_is (s : State) (n : Nat) (x : Imu) (q : Fld) : (s.setImu n x).is q = s.is q := rfl

/-! ### setCan -/

@[simp] theorem setCan_pending (s : State) (n : Nat) (x : Can) : (s.setCan n x).pending = s.pending := rfl
@[simp] theorem setCan_regs (s : State) (n : Nat) (x : Can) : (s.setCan n x).regs = s.regs := rfl
@[simp] theorem setCan_staged (s : State) (n : Nat) (x : Can) : (s.setCan n x).staged = s.staged := rfl
@[simp] theorem setCan_heldLo (s : State) (n : Nat) (x : Can) : (s.setCan n x).heldLo = s.heldLo := rfl
@[simp] theorem setCan_latch (s : State) (n : Nat) (x : Can) : (s.setCan n x).latch = s.latch := rfl
@[simp] theorem setCan_hg (s : State) (n : Nat) (x : Can) : (s.setCan n x).hg = s.hg := rfl
@[simp] theorem setCan_fs (s : State) (n : Nat) (x : Can) : (s.setCan n x).fs = s.fs := rfl
@[simp] theorem setCan_fsBad (s : State) (n : Nat) (x : Can) : (s.setCan n x).fsBad = s.fsBad := rfl
@[simp] theorem setCan_streams (s : State) (n : Nat) (x : Can) : (s.setCan n x).streams = s.streams := rfl
@[simp] theorem setCan_imus (s : State) (n : Nat) (x : Can) : (s.setCan n x).imus = s.imus := rfl
@[simp] theorem setCan_i2cs (s : State) (n : Nat) (x : Can) : (s.setCan n x).i2cs = s.i2cs := rfl
@[simp] theorem setCan_eth (s : State) (n : Nat) (x : Can) : (s.setCan n x).eth = s.eth := rfl
@[simp] theorem setCan_fresh (s : State) (n : Nat) (x : Can) : (s.setCan n x).fresh = s.fresh := rfl
@[simp] theorem setCan_mem (s : State) (n : Nat) (x : Can) : (s.setCan n x).mem = s.mem := rfl
@[simp] theorem setCan_atu (s : State) (n : Nat) (x : Can) : (s.setCan n x).atu = s.atu := rfl
@[simp] theorem setCan_pool (s : State) (n : Nat) (x : Can) : (s.setCan n x).pool = s.pool := rfl
@[simp] theorem setCan_hostFns (s : State) (n : Nat) (x : Can) : (s.setCan n x).hostFns = s.hostFns := rfl
@[simp] theorem setCan_msixTab (s : State) (n : Nat) (x : Can) : (s.setCan n x).msixTab = s.msixTab := rfl
@[simp] theorem setCan_track (s : State) (n : Nat) (x : Can) : (s.setCan n x).track = s.track := rfl
@[simp] theorem setCan_eng (s : State) (n : Nat) (x : Can) : (s.setCan n x).eng = s.eng := rfl
@[simp] theorem setCan_sk (s : State) (n : Nat) (x : Can) : (s.setCan n x).sk = s.sk := rfl
@[simp] theorem setCan_weft (s : State) (n : Nat) (x : Can) : (s.setCan n x).weft = s.weft := rfl
@[simp] theorem setCan_me (s : State) (n : Nat) (x : Can) : (s.setCan n x).me = s.me := rfl
@[simp] theorem setCan_loom (s : State) (n : Nat) (x : Can) : (s.setCan n x).loom = s.loom := rfl
@[simp] theorem setCan_ref (s : State) (n : Nat) (x : Can) : (s.setCan n x).ref = s.ref := rfl
@[simp] theorem setCan_sv (s : State) (n : Nat) (x : Can) : (s.setCan n x).sv = s.sv := rfl
@[simp] theorem setCan_boot (s : State) (n : Nat) (x : Can) : (s.setCan n x).boot = s.boot := rfl
@[simp] theorem setCan_pwr (s : State) (n : Nat) (x : Can) : (s.setCan n x).pwr = s.pwr := rfl
@[simp] theorem setCan_freshTab (s : State) (n : Nat) (x : Can) : (s.setCan n x).freshTab = s.freshTab := rfl
@[simp] theorem setCan_outbox (s : State) (n : Nat) (x : Can) : (s.setCan n x).outbox = s.outbox := rfl
@[simp] theorem setCan_freeCtr (s : State) (n : Nat) (x : Can) : (s.setCan n x).freeCtr = s.freeCtr := rfl
@[simp] theorem setCan_reg (s : State) (n : Nat) (x : Can) (q : Nat) : (s.setCan n x).reg q = s.reg q := rfl
@[simp] theorem setCan_get (s : State) (n : Nat) (x : Can) (q : Fld) : (s.setCan n x).get q = s.get q := rfl
@[simp] theorem setCan_is (s : State) (n : Nat) (x : Can) (q : Fld) : (s.setCan n x).is q = s.is q := rfl

/-! ### setCanRx -/

@[simp] theorem setCanRx_pending (s : State) (n m : Nat) (x : CanRx) : (s.setCanRx n m x).pending = s.pending := rfl
@[simp] theorem setCanRx_regs (s : State) (n m : Nat) (x : CanRx) : (s.setCanRx n m x).regs = s.regs := rfl
@[simp] theorem setCanRx_staged (s : State) (n m : Nat) (x : CanRx) : (s.setCanRx n m x).staged = s.staged := rfl
@[simp] theorem setCanRx_heldLo (s : State) (n m : Nat) (x : CanRx) : (s.setCanRx n m x).heldLo = s.heldLo := rfl
@[simp] theorem setCanRx_latch (s : State) (n m : Nat) (x : CanRx) : (s.setCanRx n m x).latch = s.latch := rfl
@[simp] theorem setCanRx_hg (s : State) (n m : Nat) (x : CanRx) : (s.setCanRx n m x).hg = s.hg := rfl
@[simp] theorem setCanRx_fs (s : State) (n m : Nat) (x : CanRx) : (s.setCanRx n m x).fs = s.fs := rfl
@[simp] theorem setCanRx_fsBad (s : State) (n m : Nat) (x : CanRx) : (s.setCanRx n m x).fsBad = s.fsBad := rfl
@[simp] theorem setCanRx_streams (s : State) (n m : Nat) (x : CanRx) : (s.setCanRx n m x).streams = s.streams := rfl
@[simp] theorem setCanRx_imus (s : State) (n m : Nat) (x : CanRx) : (s.setCanRx n m x).imus = s.imus := rfl
@[simp] theorem setCanRx_i2cs (s : State) (n m : Nat) (x : CanRx) : (s.setCanRx n m x).i2cs = s.i2cs := rfl
@[simp] theorem setCanRx_eth (s : State) (n m : Nat) (x : CanRx) : (s.setCanRx n m x).eth = s.eth := rfl
@[simp] theorem setCanRx_fresh (s : State) (n m : Nat) (x : CanRx) : (s.setCanRx n m x).fresh = s.fresh := rfl
@[simp] theorem setCanRx_mem (s : State) (n m : Nat) (x : CanRx) : (s.setCanRx n m x).mem = s.mem := rfl
@[simp] theorem setCanRx_atu (s : State) (n m : Nat) (x : CanRx) : (s.setCanRx n m x).atu = s.atu := rfl
@[simp] theorem setCanRx_pool (s : State) (n m : Nat) (x : CanRx) : (s.setCanRx n m x).pool = s.pool := rfl
@[simp] theorem setCanRx_hostFns (s : State) (n m : Nat) (x : CanRx) : (s.setCanRx n m x).hostFns = s.hostFns := rfl
@[simp] theorem setCanRx_msixTab (s : State) (n m : Nat) (x : CanRx) : (s.setCanRx n m x).msixTab = s.msixTab := rfl
@[simp] theorem setCanRx_track (s : State) (n m : Nat) (x : CanRx) : (s.setCanRx n m x).track = s.track := rfl
@[simp] theorem setCanRx_eng (s : State) (n m : Nat) (x : CanRx) : (s.setCanRx n m x).eng = s.eng := rfl
@[simp] theorem setCanRx_sk (s : State) (n m : Nat) (x : CanRx) : (s.setCanRx n m x).sk = s.sk := rfl
@[simp] theorem setCanRx_weft (s : State) (n m : Nat) (x : CanRx) : (s.setCanRx n m x).weft = s.weft := rfl
@[simp] theorem setCanRx_me (s : State) (n m : Nat) (x : CanRx) : (s.setCanRx n m x).me = s.me := rfl
@[simp] theorem setCanRx_loom (s : State) (n m : Nat) (x : CanRx) : (s.setCanRx n m x).loom = s.loom := rfl
@[simp] theorem setCanRx_ref (s : State) (n m : Nat) (x : CanRx) : (s.setCanRx n m x).ref = s.ref := rfl
@[simp] theorem setCanRx_sv (s : State) (n m : Nat) (x : CanRx) : (s.setCanRx n m x).sv = s.sv := rfl
@[simp] theorem setCanRx_boot (s : State) (n m : Nat) (x : CanRx) : (s.setCanRx n m x).boot = s.boot := rfl
@[simp] theorem setCanRx_pwr (s : State) (n m : Nat) (x : CanRx) : (s.setCanRx n m x).pwr = s.pwr := rfl
@[simp] theorem setCanRx_freshTab (s : State) (n m : Nat) (x : CanRx) : (s.setCanRx n m x).freshTab = s.freshTab := rfl
@[simp] theorem setCanRx_outbox (s : State) (n m : Nat) (x : CanRx) : (s.setCanRx n m x).outbox = s.outbox := rfl
@[simp] theorem setCanRx_freeCtr (s : State) (n m : Nat) (x : CanRx) : (s.setCanRx n m x).freeCtr = s.freeCtr := rfl
@[simp] theorem setCanRx_reg (s : State) (n m : Nat) (x : CanRx) (q : Nat) : (s.setCanRx n m x).reg q = s.reg q := rfl
@[simp] theorem setCanRx_get (s : State) (n m : Nat) (x : CanRx) (q : Fld) : (s.setCanRx n m x).get q = s.get q := rfl
@[simp] theorem setCanRx_is (s : State) (n m : Nat) (x : CanRx) (q : Fld) : (s.setCanRx n m x).is q = s.is q := rfl

/-! ### setI2c -/

@[simp] theorem setI2c_pending (s : State) (n : Nat) (x : I2c) : (s.setI2c n x).pending = s.pending := rfl
@[simp] theorem setI2c_regs (s : State) (n : Nat) (x : I2c) : (s.setI2c n x).regs = s.regs := rfl
@[simp] theorem setI2c_staged (s : State) (n : Nat) (x : I2c) : (s.setI2c n x).staged = s.staged := rfl
@[simp] theorem setI2c_heldLo (s : State) (n : Nat) (x : I2c) : (s.setI2c n x).heldLo = s.heldLo := rfl
@[simp] theorem setI2c_latch (s : State) (n : Nat) (x : I2c) : (s.setI2c n x).latch = s.latch := rfl
@[simp] theorem setI2c_hg (s : State) (n : Nat) (x : I2c) : (s.setI2c n x).hg = s.hg := rfl
@[simp] theorem setI2c_fs (s : State) (n : Nat) (x : I2c) : (s.setI2c n x).fs = s.fs := rfl
@[simp] theorem setI2c_fsBad (s : State) (n : Nat) (x : I2c) : (s.setI2c n x).fsBad = s.fsBad := rfl
@[simp] theorem setI2c_streams (s : State) (n : Nat) (x : I2c) : (s.setI2c n x).streams = s.streams := rfl
@[simp] theorem setI2c_imus (s : State) (n : Nat) (x : I2c) : (s.setI2c n x).imus = s.imus := rfl
@[simp] theorem setI2c_cans (s : State) (n : Nat) (x : I2c) : (s.setI2c n x).cans = s.cans := rfl
@[simp] theorem setI2c_eth (s : State) (n : Nat) (x : I2c) : (s.setI2c n x).eth = s.eth := rfl
@[simp] theorem setI2c_fresh (s : State) (n : Nat) (x : I2c) : (s.setI2c n x).fresh = s.fresh := rfl
@[simp] theorem setI2c_mem (s : State) (n : Nat) (x : I2c) : (s.setI2c n x).mem = s.mem := rfl
@[simp] theorem setI2c_atu (s : State) (n : Nat) (x : I2c) : (s.setI2c n x).atu = s.atu := rfl
@[simp] theorem setI2c_pool (s : State) (n : Nat) (x : I2c) : (s.setI2c n x).pool = s.pool := rfl
@[simp] theorem setI2c_hostFns (s : State) (n : Nat) (x : I2c) : (s.setI2c n x).hostFns = s.hostFns := rfl
@[simp] theorem setI2c_msixTab (s : State) (n : Nat) (x : I2c) : (s.setI2c n x).msixTab = s.msixTab := rfl
@[simp] theorem setI2c_track (s : State) (n : Nat) (x : I2c) : (s.setI2c n x).track = s.track := rfl
@[simp] theorem setI2c_eng (s : State) (n : Nat) (x : I2c) : (s.setI2c n x).eng = s.eng := rfl
@[simp] theorem setI2c_sk (s : State) (n : Nat) (x : I2c) : (s.setI2c n x).sk = s.sk := rfl
@[simp] theorem setI2c_weft (s : State) (n : Nat) (x : I2c) : (s.setI2c n x).weft = s.weft := rfl
@[simp] theorem setI2c_me (s : State) (n : Nat) (x : I2c) : (s.setI2c n x).me = s.me := rfl
@[simp] theorem setI2c_loom (s : State) (n : Nat) (x : I2c) : (s.setI2c n x).loom = s.loom := rfl
@[simp] theorem setI2c_ref (s : State) (n : Nat) (x : I2c) : (s.setI2c n x).ref = s.ref := rfl
@[simp] theorem setI2c_sv (s : State) (n : Nat) (x : I2c) : (s.setI2c n x).sv = s.sv := rfl
@[simp] theorem setI2c_boot (s : State) (n : Nat) (x : I2c) : (s.setI2c n x).boot = s.boot := rfl
@[simp] theorem setI2c_pwr (s : State) (n : Nat) (x : I2c) : (s.setI2c n x).pwr = s.pwr := rfl
@[simp] theorem setI2c_freshTab (s : State) (n : Nat) (x : I2c) : (s.setI2c n x).freshTab = s.freshTab := rfl
@[simp] theorem setI2c_outbox (s : State) (n : Nat) (x : I2c) : (s.setI2c n x).outbox = s.outbox := rfl
@[simp] theorem setI2c_freeCtr (s : State) (n : Nat) (x : I2c) : (s.setI2c n x).freeCtr = s.freeCtr := rfl
@[simp] theorem setI2c_reg (s : State) (n : Nat) (x : I2c) (q : Nat) : (s.setI2c n x).reg q = s.reg q := rfl
@[simp] theorem setI2c_get (s : State) (n : Nat) (x : I2c) (q : Fld) : (s.setI2c n x).get q = s.get q := rfl
@[simp] theorem setI2c_is (s : State) (n : Nat) (x : I2c) (q : Fld) : (s.setI2c n x).is q = s.is q := rfl

/-! ### setExt -/

@[simp] theorem setExt_pending (s : State) (n : Nat) (x : Ext) : (s.setExt n x).pending = s.pending := rfl
@[simp] theorem setExt_regs (s : State) (n : Nat) (x : Ext) : (s.setExt n x).regs = s.regs := rfl
@[simp] theorem setExt_staged (s : State) (n : Nat) (x : Ext) : (s.setExt n x).staged = s.staged := rfl
@[simp] theorem setExt_heldLo (s : State) (n : Nat) (x : Ext) : (s.setExt n x).heldLo = s.heldLo := rfl
@[simp] theorem setExt_latch (s : State) (n : Nat) (x : Ext) : (s.setExt n x).latch = s.latch := rfl
@[simp] theorem setExt_hg (s : State) (n : Nat) (x : Ext) : (s.setExt n x).hg = s.hg := rfl
@[simp] theorem setExt_fs (s : State) (n : Nat) (x : Ext) : (s.setExt n x).fs = s.fs := rfl
@[simp] theorem setExt_fsBad (s : State) (n : Nat) (x : Ext) : (s.setExt n x).fsBad = s.fsBad := rfl
@[simp] theorem setExt_streams (s : State) (n : Nat) (x : Ext) : (s.setExt n x).streams = s.streams := rfl
@[simp] theorem setExt_imus (s : State) (n : Nat) (x : Ext) : (s.setExt n x).imus = s.imus := rfl
@[simp] theorem setExt_cans (s : State) (n : Nat) (x : Ext) : (s.setExt n x).cans = s.cans := rfl
@[simp] theorem setExt_i2cs (s : State) (n : Nat) (x : Ext) : (s.setExt n x).i2cs = s.i2cs := rfl
@[simp] theorem setExt_eth (s : State) (n : Nat) (x : Ext) : (s.setExt n x).eth = s.eth := rfl
@[simp] theorem setExt_fresh (s : State) (n : Nat) (x : Ext) : (s.setExt n x).fresh = s.fresh := rfl
@[simp] theorem setExt_mem (s : State) (n : Nat) (x : Ext) : (s.setExt n x).mem = s.mem := rfl
@[simp] theorem setExt_atu (s : State) (n : Nat) (x : Ext) : (s.setExt n x).atu = s.atu := rfl
@[simp] theorem setExt_hostFns (s : State) (n : Nat) (x : Ext) : (s.setExt n x).hostFns = s.hostFns := rfl
@[simp] theorem setExt_msixTab (s : State) (n : Nat) (x : Ext) : (s.setExt n x).msixTab = s.msixTab := rfl
@[simp] theorem setExt_track (s : State) (n : Nat) (x : Ext) : (s.setExt n x).track = s.track := rfl
@[simp] theorem setExt_eng (s : State) (n : Nat) (x : Ext) : (s.setExt n x).eng = s.eng := rfl
@[simp] theorem setExt_sk (s : State) (n : Nat) (x : Ext) : (s.setExt n x).sk = s.sk := rfl
@[simp] theorem setExt_weft (s : State) (n : Nat) (x : Ext) : (s.setExt n x).weft = s.weft := rfl
@[simp] theorem setExt_me (s : State) (n : Nat) (x : Ext) : (s.setExt n x).me = s.me := rfl
@[simp] theorem setExt_loom (s : State) (n : Nat) (x : Ext) : (s.setExt n x).loom = s.loom := rfl
@[simp] theorem setExt_ref (s : State) (n : Nat) (x : Ext) : (s.setExt n x).ref = s.ref := rfl
@[simp] theorem setExt_sv (s : State) (n : Nat) (x : Ext) : (s.setExt n x).sv = s.sv := rfl
@[simp] theorem setExt_boot (s : State) (n : Nat) (x : Ext) : (s.setExt n x).boot = s.boot := rfl
@[simp] theorem setExt_pwr (s : State) (n : Nat) (x : Ext) : (s.setExt n x).pwr = s.pwr := rfl
@[simp] theorem setExt_freshTab (s : State) (n : Nat) (x : Ext) : (s.setExt n x).freshTab = s.freshTab := rfl
@[simp] theorem setExt_outbox (s : State) (n : Nat) (x : Ext) : (s.setExt n x).outbox = s.outbox := rfl
@[simp] theorem setExt_freeCtr (s : State) (n : Nat) (x : Ext) : (s.setExt n x).freeCtr = s.freeCtr := rfl
@[simp] theorem setExt_reg (s : State) (n : Nat) (x : Ext) (q : Nat) : (s.setExt n x).reg q = s.reg q := rfl
@[simp] theorem setExt_get (s : State) (n : Nat) (x : Ext) (q : Fld) : (s.setExt n x).get q = s.get q := rfl
@[simp] theorem setExt_is (s : State) (n : Nat) (x : Ext) (q : Fld) : (s.setExt n x).is q = s.is q := rfl

/-! ### setHostFn -/

@[simp] theorem setHostFn_pending (s : State) (n : Nat) (x : HostFn) : (s.setHostFn n x).pending = s.pending := rfl
@[simp] theorem setHostFn_regs (s : State) (n : Nat) (x : HostFn) : (s.setHostFn n x).regs = s.regs := rfl
@[simp] theorem setHostFn_staged (s : State) (n : Nat) (x : HostFn) : (s.setHostFn n x).staged = s.staged := rfl
@[simp] theorem setHostFn_heldLo (s : State) (n : Nat) (x : HostFn) : (s.setHostFn n x).heldLo = s.heldLo := rfl
@[simp] theorem setHostFn_latch (s : State) (n : Nat) (x : HostFn) : (s.setHostFn n x).latch = s.latch := rfl
@[simp] theorem setHostFn_hg (s : State) (n : Nat) (x : HostFn) : (s.setHostFn n x).hg = s.hg := rfl
@[simp] theorem setHostFn_fs (s : State) (n : Nat) (x : HostFn) : (s.setHostFn n x).fs = s.fs := rfl
@[simp] theorem setHostFn_fsBad (s : State) (n : Nat) (x : HostFn) : (s.setHostFn n x).fsBad = s.fsBad := rfl
@[simp] theorem setHostFn_streams (s : State) (n : Nat) (x : HostFn) : (s.setHostFn n x).streams = s.streams := rfl
@[simp] theorem setHostFn_imus (s : State) (n : Nat) (x : HostFn) : (s.setHostFn n x).imus = s.imus := rfl
@[simp] theorem setHostFn_cans (s : State) (n : Nat) (x : HostFn) : (s.setHostFn n x).cans = s.cans := rfl
@[simp] theorem setHostFn_i2cs (s : State) (n : Nat) (x : HostFn) : (s.setHostFn n x).i2cs = s.i2cs := rfl
@[simp] theorem setHostFn_eth (s : State) (n : Nat) (x : HostFn) : (s.setHostFn n x).eth = s.eth := rfl
@[simp] theorem setHostFn_fresh (s : State) (n : Nat) (x : HostFn) : (s.setHostFn n x).fresh = s.fresh := rfl
@[simp] theorem setHostFn_mem (s : State) (n : Nat) (x : HostFn) : (s.setHostFn n x).mem = s.mem := rfl
@[simp] theorem setHostFn_atu (s : State) (n : Nat) (x : HostFn) : (s.setHostFn n x).atu = s.atu := rfl
@[simp] theorem setHostFn_pool (s : State) (n : Nat) (x : HostFn) : (s.setHostFn n x).pool = s.pool := rfl
@[simp] theorem setHostFn_msixTab (s : State) (n : Nat) (x : HostFn) : (s.setHostFn n x).msixTab = s.msixTab := rfl
@[simp] theorem setHostFn_track (s : State) (n : Nat) (x : HostFn) : (s.setHostFn n x).track = s.track := rfl
@[simp] theorem setHostFn_eng (s : State) (n : Nat) (x : HostFn) : (s.setHostFn n x).eng = s.eng := rfl
@[simp] theorem setHostFn_sk (s : State) (n : Nat) (x : HostFn) : (s.setHostFn n x).sk = s.sk := rfl
@[simp] theorem setHostFn_weft (s : State) (n : Nat) (x : HostFn) : (s.setHostFn n x).weft = s.weft := rfl
@[simp] theorem setHostFn_me (s : State) (n : Nat) (x : HostFn) : (s.setHostFn n x).me = s.me := rfl
@[simp] theorem setHostFn_loom (s : State) (n : Nat) (x : HostFn) : (s.setHostFn n x).loom = s.loom := rfl
@[simp] theorem setHostFn_ref (s : State) (n : Nat) (x : HostFn) : (s.setHostFn n x).ref = s.ref := rfl
@[simp] theorem setHostFn_sv (s : State) (n : Nat) (x : HostFn) : (s.setHostFn n x).sv = s.sv := rfl
@[simp] theorem setHostFn_boot (s : State) (n : Nat) (x : HostFn) : (s.setHostFn n x).boot = s.boot := rfl
@[simp] theorem setHostFn_pwr (s : State) (n : Nat) (x : HostFn) : (s.setHostFn n x).pwr = s.pwr := rfl
@[simp] theorem setHostFn_freshTab (s : State) (n : Nat) (x : HostFn) : (s.setHostFn n x).freshTab = s.freshTab := rfl
@[simp] theorem setHostFn_outbox (s : State) (n : Nat) (x : HostFn) : (s.setHostFn n x).outbox = s.outbox := rfl
@[simp] theorem setHostFn_freeCtr (s : State) (n : Nat) (x : HostFn) : (s.setHostFn n x).freeCtr = s.freeCtr := rfl
@[simp] theorem setHostFn_reg (s : State) (n : Nat) (x : HostFn) (q : Nat) : (s.setHostFn n x).reg q = s.reg q := rfl
@[simp] theorem setHostFn_get (s : State) (n : Nat) (x : HostFn) (q : Fld) : (s.setHostFn n x).get q = s.get q := rfl
@[simp] theorem setHostFn_is (s : State) (n : Nat) (x : HostFn) (q : Fld) : (s.setHostFn n x).is q = s.is q := rfl

/-! ### setTrack -/

@[simp] theorem setTrack_pending (s : State) (f : Track → Track) : (s.setTrack f).pending = s.pending := rfl
@[simp] theorem setTrack_regs (s : State) (f : Track → Track) : (s.setTrack f).regs = s.regs := rfl
@[simp] theorem setTrack_staged (s : State) (f : Track → Track) : (s.setTrack f).staged = s.staged := rfl
@[simp] theorem setTrack_heldLo (s : State) (f : Track → Track) : (s.setTrack f).heldLo = s.heldLo := rfl
@[simp] theorem setTrack_latch (s : State) (f : Track → Track) : (s.setTrack f).latch = s.latch := rfl
@[simp] theorem setTrack_hg (s : State) (f : Track → Track) : (s.setTrack f).hg = s.hg := rfl
@[simp] theorem setTrack_fs (s : State) (f : Track → Track) : (s.setTrack f).fs = s.fs := rfl
@[simp] theorem setTrack_fsBad (s : State) (f : Track → Track) : (s.setTrack f).fsBad = s.fsBad := rfl
@[simp] theorem setTrack_streams (s : State) (f : Track → Track) : (s.setTrack f).streams = s.streams := rfl
@[simp] theorem setTrack_imus (s : State) (f : Track → Track) : (s.setTrack f).imus = s.imus := rfl
@[simp] theorem setTrack_cans (s : State) (f : Track → Track) : (s.setTrack f).cans = s.cans := rfl
@[simp] theorem setTrack_i2cs (s : State) (f : Track → Track) : (s.setTrack f).i2cs = s.i2cs := rfl
@[simp] theorem setTrack_eth (s : State) (f : Track → Track) : (s.setTrack f).eth = s.eth := rfl
@[simp] theorem setTrack_fresh (s : State) (f : Track → Track) : (s.setTrack f).fresh = s.fresh := rfl
@[simp] theorem setTrack_mem (s : State) (f : Track → Track) : (s.setTrack f).mem = s.mem := rfl
@[simp] theorem setTrack_atu (s : State) (f : Track → Track) : (s.setTrack f).atu = s.atu := rfl
@[simp] theorem setTrack_pool (s : State) (f : Track → Track) : (s.setTrack f).pool = s.pool := rfl
@[simp] theorem setTrack_hostFns (s : State) (f : Track → Track) : (s.setTrack f).hostFns = s.hostFns := rfl
@[simp] theorem setTrack_msixTab (s : State) (f : Track → Track) : (s.setTrack f).msixTab = s.msixTab := rfl
@[simp] theorem setTrack_eng (s : State) (f : Track → Track) : (s.setTrack f).eng = s.eng := rfl
@[simp] theorem setTrack_sk (s : State) (f : Track → Track) : (s.setTrack f).sk = s.sk := rfl
@[simp] theorem setTrack_weft (s : State) (f : Track → Track) : (s.setTrack f).weft = s.weft := rfl
@[simp] theorem setTrack_me (s : State) (f : Track → Track) : (s.setTrack f).me = s.me := rfl
@[simp] theorem setTrack_loom (s : State) (f : Track → Track) : (s.setTrack f).loom = s.loom := rfl
@[simp] theorem setTrack_ref (s : State) (f : Track → Track) : (s.setTrack f).ref = s.ref := rfl
@[simp] theorem setTrack_sv (s : State) (f : Track → Track) : (s.setTrack f).sv = s.sv := rfl
@[simp] theorem setTrack_boot (s : State) (f : Track → Track) : (s.setTrack f).boot = s.boot := rfl
@[simp] theorem setTrack_pwr (s : State) (f : Track → Track) : (s.setTrack f).pwr = s.pwr := rfl
@[simp] theorem setTrack_freshTab (s : State) (f : Track → Track) : (s.setTrack f).freshTab = s.freshTab := rfl
@[simp] theorem setTrack_outbox (s : State) (f : Track → Track) : (s.setTrack f).outbox = s.outbox := rfl
@[simp] theorem setTrack_freeCtr (s : State) (f : Track → Track) : (s.setTrack f).freeCtr = s.freeCtr := rfl
@[simp] theorem setTrack_reg (s : State) (f : Track → Track) (q : Nat) : (s.setTrack f).reg q = s.reg q := rfl
@[simp] theorem setTrack_get (s : State) (f : Track → Track) (q : Fld) : (s.setTrack f).get q = s.get q := rfl
@[simp] theorem setTrack_is (s : State) (f : Track → Track) (q : Fld) : (s.setTrack f).is q = s.is q := rfl

/-! ### setSquare -/

@[simp] theorem setSquare_pending (s : State) (n : Nat) (x : Square) : (s.setSquare n x).pending = s.pending := rfl
@[simp] theorem setSquare_regs (s : State) (n : Nat) (x : Square) : (s.setSquare n x).regs = s.regs := rfl
@[simp] theorem setSquare_staged (s : State) (n : Nat) (x : Square) : (s.setSquare n x).staged = s.staged := rfl
@[simp] theorem setSquare_heldLo (s : State) (n : Nat) (x : Square) : (s.setSquare n x).heldLo = s.heldLo := rfl
@[simp] theorem setSquare_latch (s : State) (n : Nat) (x : Square) : (s.setSquare n x).latch = s.latch := rfl
@[simp] theorem setSquare_hg (s : State) (n : Nat) (x : Square) : (s.setSquare n x).hg = s.hg := rfl
@[simp] theorem setSquare_fs (s : State) (n : Nat) (x : Square) : (s.setSquare n x).fs = s.fs := rfl
@[simp] theorem setSquare_fsBad (s : State) (n : Nat) (x : Square) : (s.setSquare n x).fsBad = s.fsBad := rfl
@[simp] theorem setSquare_streams (s : State) (n : Nat) (x : Square) : (s.setSquare n x).streams = s.streams := rfl
@[simp] theorem setSquare_imus (s : State) (n : Nat) (x : Square) : (s.setSquare n x).imus = s.imus := rfl
@[simp] theorem setSquare_cans (s : State) (n : Nat) (x : Square) : (s.setSquare n x).cans = s.cans := rfl
@[simp] theorem setSquare_i2cs (s : State) (n : Nat) (x : Square) : (s.setSquare n x).i2cs = s.i2cs := rfl
@[simp] theorem setSquare_eth (s : State) (n : Nat) (x : Square) : (s.setSquare n x).eth = s.eth := rfl
@[simp] theorem setSquare_fresh (s : State) (n : Nat) (x : Square) : (s.setSquare n x).fresh = s.fresh := rfl
@[simp] theorem setSquare_mem (s : State) (n : Nat) (x : Square) : (s.setSquare n x).mem = s.mem := rfl
@[simp] theorem setSquare_atu (s : State) (n : Nat) (x : Square) : (s.setSquare n x).atu = s.atu := rfl
@[simp] theorem setSquare_pool (s : State) (n : Nat) (x : Square) : (s.setSquare n x).pool = s.pool := rfl
@[simp] theorem setSquare_hostFns (s : State) (n : Nat) (x : Square) : (s.setSquare n x).hostFns = s.hostFns := rfl
@[simp] theorem setSquare_msixTab (s : State) (n : Nat) (x : Square) : (s.setSquare n x).msixTab = s.msixTab := rfl
@[simp] theorem setSquare_eng (s : State) (n : Nat) (x : Square) : (s.setSquare n x).eng = s.eng := rfl
@[simp] theorem setSquare_sk (s : State) (n : Nat) (x : Square) : (s.setSquare n x).sk = s.sk := rfl
@[simp] theorem setSquare_weft (s : State) (n : Nat) (x : Square) : (s.setSquare n x).weft = s.weft := rfl
@[simp] theorem setSquare_me (s : State) (n : Nat) (x : Square) : (s.setSquare n x).me = s.me := rfl
@[simp] theorem setSquare_loom (s : State) (n : Nat) (x : Square) : (s.setSquare n x).loom = s.loom := rfl
@[simp] theorem setSquare_ref (s : State) (n : Nat) (x : Square) : (s.setSquare n x).ref = s.ref := rfl
@[simp] theorem setSquare_sv (s : State) (n : Nat) (x : Square) : (s.setSquare n x).sv = s.sv := rfl
@[simp] theorem setSquare_boot (s : State) (n : Nat) (x : Square) : (s.setSquare n x).boot = s.boot := rfl
@[simp] theorem setSquare_pwr (s : State) (n : Nat) (x : Square) : (s.setSquare n x).pwr = s.pwr := rfl
@[simp] theorem setSquare_freshTab (s : State) (n : Nat) (x : Square) : (s.setSquare n x).freshTab = s.freshTab := rfl
@[simp] theorem setSquare_outbox (s : State) (n : Nat) (x : Square) : (s.setSquare n x).outbox = s.outbox := rfl
@[simp] theorem setSquare_freeCtr (s : State) (n : Nat) (x : Square) : (s.setSquare n x).freeCtr = s.freeCtr := rfl
@[simp] theorem setSquare_reg (s : State) (n : Nat) (x : Square) (q : Nat) : (s.setSquare n x).reg q = s.reg q := rfl
@[simp] theorem setSquare_get (s : State) (n : Nat) (x : Square) (q : Fld) : (s.setSquare n x).get q = s.get q := rfl
@[simp] theorem setSquare_is (s : State) (n : Nat) (x : Square) (q : Fld) : (s.setSquare n x).is q = s.is q := rfl

/-! ### setEng -/

@[simp] theorem setEng_pending (s : State) (f : Engine → Engine) : (s.setEng f).pending = s.pending := rfl
@[simp] theorem setEng_regs (s : State) (f : Engine → Engine) : (s.setEng f).regs = s.regs := rfl
@[simp] theorem setEng_staged (s : State) (f : Engine → Engine) : (s.setEng f).staged = s.staged := rfl
@[simp] theorem setEng_heldLo (s : State) (f : Engine → Engine) : (s.setEng f).heldLo = s.heldLo := rfl
@[simp] theorem setEng_latch (s : State) (f : Engine → Engine) : (s.setEng f).latch = s.latch := rfl
@[simp] theorem setEng_hg (s : State) (f : Engine → Engine) : (s.setEng f).hg = s.hg := rfl
@[simp] theorem setEng_fs (s : State) (f : Engine → Engine) : (s.setEng f).fs = s.fs := rfl
@[simp] theorem setEng_fsBad (s : State) (f : Engine → Engine) : (s.setEng f).fsBad = s.fsBad := rfl
@[simp] theorem setEng_streams (s : State) (f : Engine → Engine) : (s.setEng f).streams = s.streams := rfl
@[simp] theorem setEng_imus (s : State) (f : Engine → Engine) : (s.setEng f).imus = s.imus := rfl
@[simp] theorem setEng_cans (s : State) (f : Engine → Engine) : (s.setEng f).cans = s.cans := rfl
@[simp] theorem setEng_i2cs (s : State) (f : Engine → Engine) : (s.setEng f).i2cs = s.i2cs := rfl
@[simp] theorem setEng_eth (s : State) (f : Engine → Engine) : (s.setEng f).eth = s.eth := rfl
@[simp] theorem setEng_fresh (s : State) (f : Engine → Engine) : (s.setEng f).fresh = s.fresh := rfl
@[simp] theorem setEng_mem (s : State) (f : Engine → Engine) : (s.setEng f).mem = s.mem := rfl
@[simp] theorem setEng_atu (s : State) (f : Engine → Engine) : (s.setEng f).atu = s.atu := rfl
@[simp] theorem setEng_pool (s : State) (f : Engine → Engine) : (s.setEng f).pool = s.pool := rfl
@[simp] theorem setEng_hostFns (s : State) (f : Engine → Engine) : (s.setEng f).hostFns = s.hostFns := rfl
@[simp] theorem setEng_msixTab (s : State) (f : Engine → Engine) : (s.setEng f).msixTab = s.msixTab := rfl
@[simp] theorem setEng_track (s : State) (f : Engine → Engine) : (s.setEng f).track = s.track := rfl
@[simp] theorem setEng_sk (s : State) (f : Engine → Engine) : (s.setEng f).sk = s.sk := rfl
@[simp] theorem setEng_weft (s : State) (f : Engine → Engine) : (s.setEng f).weft = s.weft := rfl
@[simp] theorem setEng_me (s : State) (f : Engine → Engine) : (s.setEng f).me = s.me := rfl
@[simp] theorem setEng_loom (s : State) (f : Engine → Engine) : (s.setEng f).loom = s.loom := rfl
@[simp] theorem setEng_ref (s : State) (f : Engine → Engine) : (s.setEng f).ref = s.ref := rfl
@[simp] theorem setEng_sv (s : State) (f : Engine → Engine) : (s.setEng f).sv = s.sv := rfl
@[simp] theorem setEng_boot (s : State) (f : Engine → Engine) : (s.setEng f).boot = s.boot := rfl
@[simp] theorem setEng_pwr (s : State) (f : Engine → Engine) : (s.setEng f).pwr = s.pwr := rfl
@[simp] theorem setEng_freshTab (s : State) (f : Engine → Engine) : (s.setEng f).freshTab = s.freshTab := rfl
@[simp] theorem setEng_outbox (s : State) (f : Engine → Engine) : (s.setEng f).outbox = s.outbox := rfl
@[simp] theorem setEng_freeCtr (s : State) (f : Engine → Engine) : (s.setEng f).freeCtr = s.freeCtr := rfl
@[simp] theorem setEng_reg (s : State) (f : Engine → Engine) (q : Nat) : (s.setEng f).reg q = s.reg q := rfl
@[simp] theorem setEng_get (s : State) (f : Engine → Engine) (q : Fld) : (s.setEng f).get q = s.get q := rfl
@[simp] theorem setEng_is (s : State) (f : Engine → Engine) (q : Fld) : (s.setEng f).is q = s.is q := rfl

/-! ### setHoop -/

@[simp] theorem setHoop_pending (s : State) (n : Nat) (x : Hoop) : (s.setHoop n x).pending = s.pending := rfl
@[simp] theorem setHoop_regs (s : State) (n : Nat) (x : Hoop) : (s.setHoop n x).regs = s.regs := rfl
@[simp] theorem setHoop_staged (s : State) (n : Nat) (x : Hoop) : (s.setHoop n x).staged = s.staged := rfl
@[simp] theorem setHoop_heldLo (s : State) (n : Nat) (x : Hoop) : (s.setHoop n x).heldLo = s.heldLo := rfl
@[simp] theorem setHoop_latch (s : State) (n : Nat) (x : Hoop) : (s.setHoop n x).latch = s.latch := rfl
@[simp] theorem setHoop_hg (s : State) (n : Nat) (x : Hoop) : (s.setHoop n x).hg = s.hg := rfl
@[simp] theorem setHoop_fs (s : State) (n : Nat) (x : Hoop) : (s.setHoop n x).fs = s.fs := rfl
@[simp] theorem setHoop_fsBad (s : State) (n : Nat) (x : Hoop) : (s.setHoop n x).fsBad = s.fsBad := rfl
@[simp] theorem setHoop_streams (s : State) (n : Nat) (x : Hoop) : (s.setHoop n x).streams = s.streams := rfl
@[simp] theorem setHoop_imus (s : State) (n : Nat) (x : Hoop) : (s.setHoop n x).imus = s.imus := rfl
@[simp] theorem setHoop_cans (s : State) (n : Nat) (x : Hoop) : (s.setHoop n x).cans = s.cans := rfl
@[simp] theorem setHoop_i2cs (s : State) (n : Nat) (x : Hoop) : (s.setHoop n x).i2cs = s.i2cs := rfl
@[simp] theorem setHoop_eth (s : State) (n : Nat) (x : Hoop) : (s.setHoop n x).eth = s.eth := rfl
@[simp] theorem setHoop_fresh (s : State) (n : Nat) (x : Hoop) : (s.setHoop n x).fresh = s.fresh := rfl
@[simp] theorem setHoop_mem (s : State) (n : Nat) (x : Hoop) : (s.setHoop n x).mem = s.mem := rfl
@[simp] theorem setHoop_atu (s : State) (n : Nat) (x : Hoop) : (s.setHoop n x).atu = s.atu := rfl
@[simp] theorem setHoop_pool (s : State) (n : Nat) (x : Hoop) : (s.setHoop n x).pool = s.pool := rfl
@[simp] theorem setHoop_hostFns (s : State) (n : Nat) (x : Hoop) : (s.setHoop n x).hostFns = s.hostFns := rfl
@[simp] theorem setHoop_msixTab (s : State) (n : Nat) (x : Hoop) : (s.setHoop n x).msixTab = s.msixTab := rfl
@[simp] theorem setHoop_track (s : State) (n : Nat) (x : Hoop) : (s.setHoop n x).track = s.track := rfl
@[simp] theorem setHoop_sk (s : State) (n : Nat) (x : Hoop) : (s.setHoop n x).sk = s.sk := rfl
@[simp] theorem setHoop_weft (s : State) (n : Nat) (x : Hoop) : (s.setHoop n x).weft = s.weft := rfl
@[simp] theorem setHoop_me (s : State) (n : Nat) (x : Hoop) : (s.setHoop n x).me = s.me := rfl
@[simp] theorem setHoop_loom (s : State) (n : Nat) (x : Hoop) : (s.setHoop n x).loom = s.loom := rfl
@[simp] theorem setHoop_ref (s : State) (n : Nat) (x : Hoop) : (s.setHoop n x).ref = s.ref := rfl
@[simp] theorem setHoop_sv (s : State) (n : Nat) (x : Hoop) : (s.setHoop n x).sv = s.sv := rfl
@[simp] theorem setHoop_boot (s : State) (n : Nat) (x : Hoop) : (s.setHoop n x).boot = s.boot := rfl
@[simp] theorem setHoop_pwr (s : State) (n : Nat) (x : Hoop) : (s.setHoop n x).pwr = s.pwr := rfl
@[simp] theorem setHoop_freshTab (s : State) (n : Nat) (x : Hoop) : (s.setHoop n x).freshTab = s.freshTab := rfl
@[simp] theorem setHoop_outbox (s : State) (n : Nat) (x : Hoop) : (s.setHoop n x).outbox = s.outbox := rfl
@[simp] theorem setHoop_freeCtr (s : State) (n : Nat) (x : Hoop) : (s.setHoop n x).freeCtr = s.freeCtr := rfl
@[simp] theorem setHoop_reg (s : State) (n : Nat) (x : Hoop) (q : Nat) : (s.setHoop n x).reg q = s.reg q := rfl
@[simp] theorem setHoop_get (s : State) (n : Nat) (x : Hoop) (q : Fld) : (s.setHoop n x).get q = s.get q := rfl
@[simp] theorem setHoop_is (s : State) (n : Nat) (x : Hoop) (q : Fld) : (s.setHoop n x).is q = s.is q := rfl

/-! ### setSched -/

@[simp] theorem setSched_pending (s : State) (f : Sched → Sched) : (s.setSched f).pending = s.pending := rfl
@[simp] theorem setSched_regs (s : State) (f : Sched → Sched) : (s.setSched f).regs = s.regs := rfl
@[simp] theorem setSched_staged (s : State) (f : Sched → Sched) : (s.setSched f).staged = s.staged := rfl
@[simp] theorem setSched_heldLo (s : State) (f : Sched → Sched) : (s.setSched f).heldLo = s.heldLo := rfl
@[simp] theorem setSched_latch (s : State) (f : Sched → Sched) : (s.setSched f).latch = s.latch := rfl
@[simp] theorem setSched_hg (s : State) (f : Sched → Sched) : (s.setSched f).hg = s.hg := rfl
@[simp] theorem setSched_fs (s : State) (f : Sched → Sched) : (s.setSched f).fs = s.fs := rfl
@[simp] theorem setSched_fsBad (s : State) (f : Sched → Sched) : (s.setSched f).fsBad = s.fsBad := rfl
@[simp] theorem setSched_streams (s : State) (f : Sched → Sched) : (s.setSched f).streams = s.streams := rfl
@[simp] theorem setSched_imus (s : State) (f : Sched → Sched) : (s.setSched f).imus = s.imus := rfl
@[simp] theorem setSched_cans (s : State) (f : Sched → Sched) : (s.setSched f).cans = s.cans := rfl
@[simp] theorem setSched_i2cs (s : State) (f : Sched → Sched) : (s.setSched f).i2cs = s.i2cs := rfl
@[simp] theorem setSched_eth (s : State) (f : Sched → Sched) : (s.setSched f).eth = s.eth := rfl
@[simp] theorem setSched_fresh (s : State) (f : Sched → Sched) : (s.setSched f).fresh = s.fresh := rfl
@[simp] theorem setSched_mem (s : State) (f : Sched → Sched) : (s.setSched f).mem = s.mem := rfl
@[simp] theorem setSched_atu (s : State) (f : Sched → Sched) : (s.setSched f).atu = s.atu := rfl
@[simp] theorem setSched_pool (s : State) (f : Sched → Sched) : (s.setSched f).pool = s.pool := rfl
@[simp] theorem setSched_hostFns (s : State) (f : Sched → Sched) : (s.setSched f).hostFns = s.hostFns := rfl
@[simp] theorem setSched_msixTab (s : State) (f : Sched → Sched) : (s.setSched f).msixTab = s.msixTab := rfl
@[simp] theorem setSched_track (s : State) (f : Sched → Sched) : (s.setSched f).track = s.track := rfl
@[simp] theorem setSched_sk (s : State) (f : Sched → Sched) : (s.setSched f).sk = s.sk := rfl
@[simp] theorem setSched_weft (s : State) (f : Sched → Sched) : (s.setSched f).weft = s.weft := rfl
@[simp] theorem setSched_me (s : State) (f : Sched → Sched) : (s.setSched f).me = s.me := rfl
@[simp] theorem setSched_loom (s : State) (f : Sched → Sched) : (s.setSched f).loom = s.loom := rfl
@[simp] theorem setSched_ref (s : State) (f : Sched → Sched) : (s.setSched f).ref = s.ref := rfl
@[simp] theorem setSched_sv (s : State) (f : Sched → Sched) : (s.setSched f).sv = s.sv := rfl
@[simp] theorem setSched_boot (s : State) (f : Sched → Sched) : (s.setSched f).boot = s.boot := rfl
@[simp] theorem setSched_pwr (s : State) (f : Sched → Sched) : (s.setSched f).pwr = s.pwr := rfl
@[simp] theorem setSched_freshTab (s : State) (f : Sched → Sched) : (s.setSched f).freshTab = s.freshTab := rfl
@[simp] theorem setSched_outbox (s : State) (f : Sched → Sched) : (s.setSched f).outbox = s.outbox := rfl
@[simp] theorem setSched_freeCtr (s : State) (f : Sched → Sched) : (s.setSched f).freeCtr = s.freeCtr := rfl
@[simp] theorem setSched_reg (s : State) (f : Sched → Sched) (q : Nat) : (s.setSched f).reg q = s.reg q := rfl
@[simp] theorem setSched_get (s : State) (f : Sched → Sched) (q : Fld) : (s.setSched f).get q = s.get q := rfl
@[simp] theorem setSched_is (s : State) (f : Sched → Sched) (q : Fld) : (s.setSched f).is q = s.is q := rfl

/-! ### setGov -/

@[simp] theorem setGov_pending (s : State) (f : Gov → Gov) : (s.setGov f).pending = s.pending := rfl
@[simp] theorem setGov_regs (s : State) (f : Gov → Gov) : (s.setGov f).regs = s.regs := rfl
@[simp] theorem setGov_staged (s : State) (f : Gov → Gov) : (s.setGov f).staged = s.staged := rfl
@[simp] theorem setGov_heldLo (s : State) (f : Gov → Gov) : (s.setGov f).heldLo = s.heldLo := rfl
@[simp] theorem setGov_latch (s : State) (f : Gov → Gov) : (s.setGov f).latch = s.latch := rfl
@[simp] theorem setGov_hg (s : State) (f : Gov → Gov) : (s.setGov f).hg = s.hg := rfl
@[simp] theorem setGov_fs (s : State) (f : Gov → Gov) : (s.setGov f).fs = s.fs := rfl
@[simp] theorem setGov_fsBad (s : State) (f : Gov → Gov) : (s.setGov f).fsBad = s.fsBad := rfl
@[simp] theorem setGov_streams (s : State) (f : Gov → Gov) : (s.setGov f).streams = s.streams := rfl
@[simp] theorem setGov_imus (s : State) (f : Gov → Gov) : (s.setGov f).imus = s.imus := rfl
@[simp] theorem setGov_cans (s : State) (f : Gov → Gov) : (s.setGov f).cans = s.cans := rfl
@[simp] theorem setGov_i2cs (s : State) (f : Gov → Gov) : (s.setGov f).i2cs = s.i2cs := rfl
@[simp] theorem setGov_eth (s : State) (f : Gov → Gov) : (s.setGov f).eth = s.eth := rfl
@[simp] theorem setGov_fresh (s : State) (f : Gov → Gov) : (s.setGov f).fresh = s.fresh := rfl
@[simp] theorem setGov_mem (s : State) (f : Gov → Gov) : (s.setGov f).mem = s.mem := rfl
@[simp] theorem setGov_atu (s : State) (f : Gov → Gov) : (s.setGov f).atu = s.atu := rfl
@[simp] theorem setGov_pool (s : State) (f : Gov → Gov) : (s.setGov f).pool = s.pool := rfl
@[simp] theorem setGov_hostFns (s : State) (f : Gov → Gov) : (s.setGov f).hostFns = s.hostFns := rfl
@[simp] theorem setGov_msixTab (s : State) (f : Gov → Gov) : (s.setGov f).msixTab = s.msixTab := rfl
@[simp] theorem setGov_track (s : State) (f : Gov → Gov) : (s.setGov f).track = s.track := rfl
@[simp] theorem setGov_sk (s : State) (f : Gov → Gov) : (s.setGov f).sk = s.sk := rfl
@[simp] theorem setGov_weft (s : State) (f : Gov → Gov) : (s.setGov f).weft = s.weft := rfl
@[simp] theorem setGov_me (s : State) (f : Gov → Gov) : (s.setGov f).me = s.me := rfl
@[simp] theorem setGov_loom (s : State) (f : Gov → Gov) : (s.setGov f).loom = s.loom := rfl
@[simp] theorem setGov_ref (s : State) (f : Gov → Gov) : (s.setGov f).ref = s.ref := rfl
@[simp] theorem setGov_sv (s : State) (f : Gov → Gov) : (s.setGov f).sv = s.sv := rfl
@[simp] theorem setGov_boot (s : State) (f : Gov → Gov) : (s.setGov f).boot = s.boot := rfl
@[simp] theorem setGov_pwr (s : State) (f : Gov → Gov) : (s.setGov f).pwr = s.pwr := rfl
@[simp] theorem setGov_freshTab (s : State) (f : Gov → Gov) : (s.setGov f).freshTab = s.freshTab := rfl
@[simp] theorem setGov_outbox (s : State) (f : Gov → Gov) : (s.setGov f).outbox = s.outbox := rfl
@[simp] theorem setGov_freeCtr (s : State) (f : Gov → Gov) : (s.setGov f).freeCtr = s.freeCtr := rfl
@[simp] theorem setGov_reg (s : State) (f : Gov → Gov) (q : Nat) : (s.setGov f).reg q = s.reg q := rfl
@[simp] theorem setGov_get (s : State) (f : Gov → Gov) (q : Fld) : (s.setGov f).get q = s.get q := rfl
@[simp] theorem setGov_is (s : State) (f : Gov → Gov) (q : Fld) : (s.setGov f).is q = s.is q := rfl

/-! ### setLace -/

@[simp] theorem setLace_pending (s : State) (n : Nat) (x : Lace) : (s.setLace n x).pending = s.pending := rfl
@[simp] theorem setLace_regs (s : State) (n : Nat) (x : Lace) : (s.setLace n x).regs = s.regs := rfl
@[simp] theorem setLace_staged (s : State) (n : Nat) (x : Lace) : (s.setLace n x).staged = s.staged := rfl
@[simp] theorem setLace_heldLo (s : State) (n : Nat) (x : Lace) : (s.setLace n x).heldLo = s.heldLo := rfl
@[simp] theorem setLace_latch (s : State) (n : Nat) (x : Lace) : (s.setLace n x).latch = s.latch := rfl
@[simp] theorem setLace_hg (s : State) (n : Nat) (x : Lace) : (s.setLace n x).hg = s.hg := rfl
@[simp] theorem setLace_fs (s : State) (n : Nat) (x : Lace) : (s.setLace n x).fs = s.fs := rfl
@[simp] theorem setLace_fsBad (s : State) (n : Nat) (x : Lace) : (s.setLace n x).fsBad = s.fsBad := rfl
@[simp] theorem setLace_streams (s : State) (n : Nat) (x : Lace) : (s.setLace n x).streams = s.streams := rfl
@[simp] theorem setLace_imus (s : State) (n : Nat) (x : Lace) : (s.setLace n x).imus = s.imus := rfl
@[simp] theorem setLace_cans (s : State) (n : Nat) (x : Lace) : (s.setLace n x).cans = s.cans := rfl
@[simp] theorem setLace_i2cs (s : State) (n : Nat) (x : Lace) : (s.setLace n x).i2cs = s.i2cs := rfl
@[simp] theorem setLace_eth (s : State) (n : Nat) (x : Lace) : (s.setLace n x).eth = s.eth := rfl
@[simp] theorem setLace_fresh (s : State) (n : Nat) (x : Lace) : (s.setLace n x).fresh = s.fresh := rfl
@[simp] theorem setLace_mem (s : State) (n : Nat) (x : Lace) : (s.setLace n x).mem = s.mem := rfl
@[simp] theorem setLace_atu (s : State) (n : Nat) (x : Lace) : (s.setLace n x).atu = s.atu := rfl
@[simp] theorem setLace_pool (s : State) (n : Nat) (x : Lace) : (s.setLace n x).pool = s.pool := rfl
@[simp] theorem setLace_hostFns (s : State) (n : Nat) (x : Lace) : (s.setLace n x).hostFns = s.hostFns := rfl
@[simp] theorem setLace_msixTab (s : State) (n : Nat) (x : Lace) : (s.setLace n x).msixTab = s.msixTab := rfl
@[simp] theorem setLace_track (s : State) (n : Nat) (x : Lace) : (s.setLace n x).track = s.track := rfl
@[simp] theorem setLace_sk (s : State) (n : Nat) (x : Lace) : (s.setLace n x).sk = s.sk := rfl
@[simp] theorem setLace_weft (s : State) (n : Nat) (x : Lace) : (s.setLace n x).weft = s.weft := rfl
@[simp] theorem setLace_me (s : State) (n : Nat) (x : Lace) : (s.setLace n x).me = s.me := rfl
@[simp] theorem setLace_loom (s : State) (n : Nat) (x : Lace) : (s.setLace n x).loom = s.loom := rfl
@[simp] theorem setLace_ref (s : State) (n : Nat) (x : Lace) : (s.setLace n x).ref = s.ref := rfl
@[simp] theorem setLace_sv (s : State) (n : Nat) (x : Lace) : (s.setLace n x).sv = s.sv := rfl
@[simp] theorem setLace_boot (s : State) (n : Nat) (x : Lace) : (s.setLace n x).boot = s.boot := rfl
@[simp] theorem setLace_pwr (s : State) (n : Nat) (x : Lace) : (s.setLace n x).pwr = s.pwr := rfl
@[simp] theorem setLace_freshTab (s : State) (n : Nat) (x : Lace) : (s.setLace n x).freshTab = s.freshTab := rfl
@[simp] theorem setLace_outbox (s : State) (n : Nat) (x : Lace) : (s.setLace n x).outbox = s.outbox := rfl
@[simp] theorem setLace_freeCtr (s : State) (n : Nat) (x : Lace) : (s.setLace n x).freeCtr = s.freeCtr := rfl
@[simp] theorem setLace_reg (s : State) (n : Nat) (x : Lace) (q : Nat) : (s.setLace n x).reg q = s.reg q := rfl
@[simp] theorem setLace_get (s : State) (n : Nat) (x : Lace) (q : Fld) : (s.setLace n x).get q = s.get q := rfl
@[simp] theorem setLace_is (s : State) (n : Nat) (x : Lace) (q : Fld) : (s.setLace n x).is q = s.is q := rfl

/-! ### setSk -/

@[simp] theorem setSk_pending (s : State) (f : Sk → Sk) : (s.setSk f).pending = s.pending := rfl
@[simp] theorem setSk_regs (s : State) (f : Sk → Sk) : (s.setSk f).regs = s.regs := rfl
@[simp] theorem setSk_staged (s : State) (f : Sk → Sk) : (s.setSk f).staged = s.staged := rfl
@[simp] theorem setSk_heldLo (s : State) (f : Sk → Sk) : (s.setSk f).heldLo = s.heldLo := rfl
@[simp] theorem setSk_latch (s : State) (f : Sk → Sk) : (s.setSk f).latch = s.latch := rfl
@[simp] theorem setSk_hg (s : State) (f : Sk → Sk) : (s.setSk f).hg = s.hg := rfl
@[simp] theorem setSk_fs (s : State) (f : Sk → Sk) : (s.setSk f).fs = s.fs := rfl
@[simp] theorem setSk_fsBad (s : State) (f : Sk → Sk) : (s.setSk f).fsBad = s.fsBad := rfl
@[simp] theorem setSk_streams (s : State) (f : Sk → Sk) : (s.setSk f).streams = s.streams := rfl
@[simp] theorem setSk_imus (s : State) (f : Sk → Sk) : (s.setSk f).imus = s.imus := rfl
@[simp] theorem setSk_cans (s : State) (f : Sk → Sk) : (s.setSk f).cans = s.cans := rfl
@[simp] theorem setSk_i2cs (s : State) (f : Sk → Sk) : (s.setSk f).i2cs = s.i2cs := rfl
@[simp] theorem setSk_eth (s : State) (f : Sk → Sk) : (s.setSk f).eth = s.eth := rfl
@[simp] theorem setSk_fresh (s : State) (f : Sk → Sk) : (s.setSk f).fresh = s.fresh := rfl
@[simp] theorem setSk_mem (s : State) (f : Sk → Sk) : (s.setSk f).mem = s.mem := rfl
@[simp] theorem setSk_atu (s : State) (f : Sk → Sk) : (s.setSk f).atu = s.atu := rfl
@[simp] theorem setSk_pool (s : State) (f : Sk → Sk) : (s.setSk f).pool = s.pool := rfl
@[simp] theorem setSk_hostFns (s : State) (f : Sk → Sk) : (s.setSk f).hostFns = s.hostFns := rfl
@[simp] theorem setSk_msixTab (s : State) (f : Sk → Sk) : (s.setSk f).msixTab = s.msixTab := rfl
@[simp] theorem setSk_track (s : State) (f : Sk → Sk) : (s.setSk f).track = s.track := rfl
@[simp] theorem setSk_eng (s : State) (f : Sk → Sk) : (s.setSk f).eng = s.eng := rfl
@[simp] theorem setSk_weft (s : State) (f : Sk → Sk) : (s.setSk f).weft = s.weft := rfl
@[simp] theorem setSk_me (s : State) (f : Sk → Sk) : (s.setSk f).me = s.me := rfl
@[simp] theorem setSk_loom (s : State) (f : Sk → Sk) : (s.setSk f).loom = s.loom := rfl
@[simp] theorem setSk_ref (s : State) (f : Sk → Sk) : (s.setSk f).ref = s.ref := rfl
@[simp] theorem setSk_sv (s : State) (f : Sk → Sk) : (s.setSk f).sv = s.sv := rfl
@[simp] theorem setSk_boot (s : State) (f : Sk → Sk) : (s.setSk f).boot = s.boot := rfl
@[simp] theorem setSk_pwr (s : State) (f : Sk → Sk) : (s.setSk f).pwr = s.pwr := rfl
@[simp] theorem setSk_freshTab (s : State) (f : Sk → Sk) : (s.setSk f).freshTab = s.freshTab := rfl
@[simp] theorem setSk_outbox (s : State) (f : Sk → Sk) : (s.setSk f).outbox = s.outbox := rfl
@[simp] theorem setSk_freeCtr (s : State) (f : Sk → Sk) : (s.setSk f).freeCtr = s.freeCtr := rfl
@[simp] theorem setSk_reg (s : State) (f : Sk → Sk) (q : Nat) : (s.setSk f).reg q = s.reg q := rfl
@[simp] theorem setSk_get (s : State) (f : Sk → Sk) (q : Fld) : (s.setSk f).get q = s.get q := rfl
@[simp] theorem setSk_is (s : State) (f : Sk → Sk) (q : Fld) : (s.setSk f).is q = s.is q := rfl

/-! ### setWeft -/

@[simp] theorem setWeft_pending (s : State) (f : Weft → Weft) : (s.setWeft f).pending = s.pending := rfl
@[simp] theorem setWeft_regs (s : State) (f : Weft → Weft) : (s.setWeft f).regs = s.regs := rfl
@[simp] theorem setWeft_staged (s : State) (f : Weft → Weft) : (s.setWeft f).staged = s.staged := rfl
@[simp] theorem setWeft_heldLo (s : State) (f : Weft → Weft) : (s.setWeft f).heldLo = s.heldLo := rfl
@[simp] theorem setWeft_latch (s : State) (f : Weft → Weft) : (s.setWeft f).latch = s.latch := rfl
@[simp] theorem setWeft_hg (s : State) (f : Weft → Weft) : (s.setWeft f).hg = s.hg := rfl
@[simp] theorem setWeft_fs (s : State) (f : Weft → Weft) : (s.setWeft f).fs = s.fs := rfl
@[simp] theorem setWeft_fsBad (s : State) (f : Weft → Weft) : (s.setWeft f).fsBad = s.fsBad := rfl
@[simp] theorem setWeft_streams (s : State) (f : Weft → Weft) : (s.setWeft f).streams = s.streams := rfl
@[simp] theorem setWeft_imus (s : State) (f : Weft → Weft) : (s.setWeft f).imus = s.imus := rfl
@[simp] theorem setWeft_cans (s : State) (f : Weft → Weft) : (s.setWeft f).cans = s.cans := rfl
@[simp] theorem setWeft_i2cs (s : State) (f : Weft → Weft) : (s.setWeft f).i2cs = s.i2cs := rfl
@[simp] theorem setWeft_eth (s : State) (f : Weft → Weft) : (s.setWeft f).eth = s.eth := rfl
@[simp] theorem setWeft_fresh (s : State) (f : Weft → Weft) : (s.setWeft f).fresh = s.fresh := rfl
@[simp] theorem setWeft_mem (s : State) (f : Weft → Weft) : (s.setWeft f).mem = s.mem := rfl
@[simp] theorem setWeft_atu (s : State) (f : Weft → Weft) : (s.setWeft f).atu = s.atu := rfl
@[simp] theorem setWeft_pool (s : State) (f : Weft → Weft) : (s.setWeft f).pool = s.pool := rfl
@[simp] theorem setWeft_hostFns (s : State) (f : Weft → Weft) : (s.setWeft f).hostFns = s.hostFns := rfl
@[simp] theorem setWeft_msixTab (s : State) (f : Weft → Weft) : (s.setWeft f).msixTab = s.msixTab := rfl
@[simp] theorem setWeft_track (s : State) (f : Weft → Weft) : (s.setWeft f).track = s.track := rfl
@[simp] theorem setWeft_eng (s : State) (f : Weft → Weft) : (s.setWeft f).eng = s.eng := rfl
@[simp] theorem setWeft_sk (s : State) (f : Weft → Weft) : (s.setWeft f).sk = s.sk := rfl
@[simp] theorem setWeft_me (s : State) (f : Weft → Weft) : (s.setWeft f).me = s.me := rfl
@[simp] theorem setWeft_loom (s : State) (f : Weft → Weft) : (s.setWeft f).loom = s.loom := rfl
@[simp] theorem setWeft_ref (s : State) (f : Weft → Weft) : (s.setWeft f).ref = s.ref := rfl
@[simp] theorem setWeft_sv (s : State) (f : Weft → Weft) : (s.setWeft f).sv = s.sv := rfl
@[simp] theorem setWeft_boot (s : State) (f : Weft → Weft) : (s.setWeft f).boot = s.boot := rfl
@[simp] theorem setWeft_pwr (s : State) (f : Weft → Weft) : (s.setWeft f).pwr = s.pwr := rfl
@[simp] theorem setWeft_freshTab (s : State) (f : Weft → Weft) : (s.setWeft f).freshTab = s.freshTab := rfl
@[simp] theorem setWeft_outbox (s : State) (f : Weft → Weft) : (s.setWeft f).outbox = s.outbox := rfl
@[simp] theorem setWeft_freeCtr (s : State) (f : Weft → Weft) : (s.setWeft f).freeCtr = s.freeCtr := rfl
@[simp] theorem setWeft_reg (s : State) (f : Weft → Weft) (q : Nat) : (s.setWeft f).reg q = s.reg q := rfl
@[simp] theorem setWeft_get (s : State) (f : Weft → Weft) (q : Fld) : (s.setWeft f).get q = s.get q := rfl
@[simp] theorem setWeft_is (s : State) (f : Weft → Weft) (q : Fld) : (s.setWeft f).is q = s.is q := rfl

/-! ### setMe -/

@[simp] theorem setMe_pending (s : State) (f : Me → Me) : (s.setMe f).pending = s.pending := rfl
@[simp] theorem setMe_regs (s : State) (f : Me → Me) : (s.setMe f).regs = s.regs := rfl
@[simp] theorem setMe_staged (s : State) (f : Me → Me) : (s.setMe f).staged = s.staged := rfl
@[simp] theorem setMe_heldLo (s : State) (f : Me → Me) : (s.setMe f).heldLo = s.heldLo := rfl
@[simp] theorem setMe_latch (s : State) (f : Me → Me) : (s.setMe f).latch = s.latch := rfl
@[simp] theorem setMe_hg (s : State) (f : Me → Me) : (s.setMe f).hg = s.hg := rfl
@[simp] theorem setMe_fs (s : State) (f : Me → Me) : (s.setMe f).fs = s.fs := rfl
@[simp] theorem setMe_fsBad (s : State) (f : Me → Me) : (s.setMe f).fsBad = s.fsBad := rfl
@[simp] theorem setMe_streams (s : State) (f : Me → Me) : (s.setMe f).streams = s.streams := rfl
@[simp] theorem setMe_imus (s : State) (f : Me → Me) : (s.setMe f).imus = s.imus := rfl
@[simp] theorem setMe_cans (s : State) (f : Me → Me) : (s.setMe f).cans = s.cans := rfl
@[simp] theorem setMe_i2cs (s : State) (f : Me → Me) : (s.setMe f).i2cs = s.i2cs := rfl
@[simp] theorem setMe_eth (s : State) (f : Me → Me) : (s.setMe f).eth = s.eth := rfl
@[simp] theorem setMe_fresh (s : State) (f : Me → Me) : (s.setMe f).fresh = s.fresh := rfl
@[simp] theorem setMe_mem (s : State) (f : Me → Me) : (s.setMe f).mem = s.mem := rfl
@[simp] theorem setMe_atu (s : State) (f : Me → Me) : (s.setMe f).atu = s.atu := rfl
@[simp] theorem setMe_pool (s : State) (f : Me → Me) : (s.setMe f).pool = s.pool := rfl
@[simp] theorem setMe_hostFns (s : State) (f : Me → Me) : (s.setMe f).hostFns = s.hostFns := rfl
@[simp] theorem setMe_msixTab (s : State) (f : Me → Me) : (s.setMe f).msixTab = s.msixTab := rfl
@[simp] theorem setMe_track (s : State) (f : Me → Me) : (s.setMe f).track = s.track := rfl
@[simp] theorem setMe_eng (s : State) (f : Me → Me) : (s.setMe f).eng = s.eng := rfl
@[simp] theorem setMe_sk (s : State) (f : Me → Me) : (s.setMe f).sk = s.sk := rfl
@[simp] theorem setMe_weft (s : State) (f : Me → Me) : (s.setMe f).weft = s.weft := rfl
@[simp] theorem setMe_loom (s : State) (f : Me → Me) : (s.setMe f).loom = s.loom := rfl
@[simp] theorem setMe_ref (s : State) (f : Me → Me) : (s.setMe f).ref = s.ref := rfl
@[simp] theorem setMe_sv (s : State) (f : Me → Me) : (s.setMe f).sv = s.sv := rfl
@[simp] theorem setMe_boot (s : State) (f : Me → Me) : (s.setMe f).boot = s.boot := rfl
@[simp] theorem setMe_pwr (s : State) (f : Me → Me) : (s.setMe f).pwr = s.pwr := rfl
@[simp] theorem setMe_freshTab (s : State) (f : Me → Me) : (s.setMe f).freshTab = s.freshTab := rfl
@[simp] theorem setMe_outbox (s : State) (f : Me → Me) : (s.setMe f).outbox = s.outbox := rfl
@[simp] theorem setMe_freeCtr (s : State) (f : Me → Me) : (s.setMe f).freeCtr = s.freeCtr := rfl
@[simp] theorem setMe_reg (s : State) (f : Me → Me) (q : Nat) : (s.setMe f).reg q = s.reg q := rfl
@[simp] theorem setMe_get (s : State) (f : Me → Me) (q : Fld) : (s.setMe f).get q = s.get q := rfl
@[simp] theorem setMe_is (s : State) (f : Me → Me) (q : Fld) : (s.setMe f).is q = s.is q := rfl

/-! ### setLoom -/

@[simp] theorem setLoom_pending (s : State) (f : Loom → Loom) : (s.setLoom f).pending = s.pending := rfl
@[simp] theorem setLoom_regs (s : State) (f : Loom → Loom) : (s.setLoom f).regs = s.regs := rfl
@[simp] theorem setLoom_staged (s : State) (f : Loom → Loom) : (s.setLoom f).staged = s.staged := rfl
@[simp] theorem setLoom_heldLo (s : State) (f : Loom → Loom) : (s.setLoom f).heldLo = s.heldLo := rfl
@[simp] theorem setLoom_latch (s : State) (f : Loom → Loom) : (s.setLoom f).latch = s.latch := rfl
@[simp] theorem setLoom_hg (s : State) (f : Loom → Loom) : (s.setLoom f).hg = s.hg := rfl
@[simp] theorem setLoom_fs (s : State) (f : Loom → Loom) : (s.setLoom f).fs = s.fs := rfl
@[simp] theorem setLoom_fsBad (s : State) (f : Loom → Loom) : (s.setLoom f).fsBad = s.fsBad := rfl
@[simp] theorem setLoom_streams (s : State) (f : Loom → Loom) : (s.setLoom f).streams = s.streams := rfl
@[simp] theorem setLoom_imus (s : State) (f : Loom → Loom) : (s.setLoom f).imus = s.imus := rfl
@[simp] theorem setLoom_cans (s : State) (f : Loom → Loom) : (s.setLoom f).cans = s.cans := rfl
@[simp] theorem setLoom_i2cs (s : State) (f : Loom → Loom) : (s.setLoom f).i2cs = s.i2cs := rfl
@[simp] theorem setLoom_eth (s : State) (f : Loom → Loom) : (s.setLoom f).eth = s.eth := rfl
@[simp] theorem setLoom_fresh (s : State) (f : Loom → Loom) : (s.setLoom f).fresh = s.fresh := rfl
@[simp] theorem setLoom_mem (s : State) (f : Loom → Loom) : (s.setLoom f).mem = s.mem := rfl
@[simp] theorem setLoom_atu (s : State) (f : Loom → Loom) : (s.setLoom f).atu = s.atu := rfl
@[simp] theorem setLoom_pool (s : State) (f : Loom → Loom) : (s.setLoom f).pool = s.pool := rfl
@[simp] theorem setLoom_hostFns (s : State) (f : Loom → Loom) : (s.setLoom f).hostFns = s.hostFns := rfl
@[simp] theorem setLoom_msixTab (s : State) (f : Loom → Loom) : (s.setLoom f).msixTab = s.msixTab := rfl
@[simp] theorem setLoom_track (s : State) (f : Loom → Loom) : (s.setLoom f).track = s.track := rfl
@[simp] theorem setLoom_eng (s : State) (f : Loom → Loom) : (s.setLoom f).eng = s.eng := rfl
@[simp] theorem setLoom_sk (s : State) (f : Loom → Loom) : (s.setLoom f).sk = s.sk := rfl
@[simp] theorem setLoom_weft (s : State) (f : Loom → Loom) : (s.setLoom f).weft = s.weft := rfl
@[simp] theorem setLoom_me (s : State) (f : Loom → Loom) : (s.setLoom f).me = s.me := rfl
@[simp] theorem setLoom_ref (s : State) (f : Loom → Loom) : (s.setLoom f).ref = s.ref := rfl
@[simp] theorem setLoom_sv (s : State) (f : Loom → Loom) : (s.setLoom f).sv = s.sv := rfl
@[simp] theorem setLoom_boot (s : State) (f : Loom → Loom) : (s.setLoom f).boot = s.boot := rfl
@[simp] theorem setLoom_pwr (s : State) (f : Loom → Loom) : (s.setLoom f).pwr = s.pwr := rfl
@[simp] theorem setLoom_freshTab (s : State) (f : Loom → Loom) : (s.setLoom f).freshTab = s.freshTab := rfl
@[simp] theorem setLoom_outbox (s : State) (f : Loom → Loom) : (s.setLoom f).outbox = s.outbox := rfl
@[simp] theorem setLoom_freeCtr (s : State) (f : Loom → Loom) : (s.setLoom f).freeCtr = s.freeCtr := rfl
@[simp] theorem setLoom_reg (s : State) (f : Loom → Loom) (q : Nat) : (s.setLoom f).reg q = s.reg q := rfl
@[simp] theorem setLoom_get (s : State) (f : Loom → Loom) (q : Fld) : (s.setLoom f).get q = s.get q := rfl
@[simp] theorem setLoom_is (s : State) (f : Loom → Loom) (q : Fld) : (s.setLoom f).is q = s.is q := rfl

/-! ### setPort -/

@[simp] theorem setPort_pending (s : State) (n : Nat) (x : LmPort) : (s.setPort n x).pending = s.pending := rfl
@[simp] theorem setPort_regs (s : State) (n : Nat) (x : LmPort) : (s.setPort n x).regs = s.regs := rfl
@[simp] theorem setPort_staged (s : State) (n : Nat) (x : LmPort) : (s.setPort n x).staged = s.staged := rfl
@[simp] theorem setPort_heldLo (s : State) (n : Nat) (x : LmPort) : (s.setPort n x).heldLo = s.heldLo := rfl
@[simp] theorem setPort_latch (s : State) (n : Nat) (x : LmPort) : (s.setPort n x).latch = s.latch := rfl
@[simp] theorem setPort_hg (s : State) (n : Nat) (x : LmPort) : (s.setPort n x).hg = s.hg := rfl
@[simp] theorem setPort_fs (s : State) (n : Nat) (x : LmPort) : (s.setPort n x).fs = s.fs := rfl
@[simp] theorem setPort_fsBad (s : State) (n : Nat) (x : LmPort) : (s.setPort n x).fsBad = s.fsBad := rfl
@[simp] theorem setPort_streams (s : State) (n : Nat) (x : LmPort) : (s.setPort n x).streams = s.streams := rfl
@[simp] theorem setPort_imus (s : State) (n : Nat) (x : LmPort) : (s.setPort n x).imus = s.imus := rfl
@[simp] theorem setPort_cans (s : State) (n : Nat) (x : LmPort) : (s.setPort n x).cans = s.cans := rfl
@[simp] theorem setPort_i2cs (s : State) (n : Nat) (x : LmPort) : (s.setPort n x).i2cs = s.i2cs := rfl
@[simp] theorem setPort_eth (s : State) (n : Nat) (x : LmPort) : (s.setPort n x).eth = s.eth := rfl
@[simp] theorem setPort_fresh (s : State) (n : Nat) (x : LmPort) : (s.setPort n x).fresh = s.fresh := rfl
@[simp] theorem setPort_mem (s : State) (n : Nat) (x : LmPort) : (s.setPort n x).mem = s.mem := rfl
@[simp] theorem setPort_atu (s : State) (n : Nat) (x : LmPort) : (s.setPort n x).atu = s.atu := rfl
@[simp] theorem setPort_pool (s : State) (n : Nat) (x : LmPort) : (s.setPort n x).pool = s.pool := rfl
@[simp] theorem setPort_hostFns (s : State) (n : Nat) (x : LmPort) : (s.setPort n x).hostFns = s.hostFns := rfl
@[simp] theorem setPort_msixTab (s : State) (n : Nat) (x : LmPort) : (s.setPort n x).msixTab = s.msixTab := rfl
@[simp] theorem setPort_track (s : State) (n : Nat) (x : LmPort) : (s.setPort n x).track = s.track := rfl
@[simp] theorem setPort_eng (s : State) (n : Nat) (x : LmPort) : (s.setPort n x).eng = s.eng := rfl
@[simp] theorem setPort_sk (s : State) (n : Nat) (x : LmPort) : (s.setPort n x).sk = s.sk := rfl
@[simp] theorem setPort_weft (s : State) (n : Nat) (x : LmPort) : (s.setPort n x).weft = s.weft := rfl
@[simp] theorem setPort_me (s : State) (n : Nat) (x : LmPort) : (s.setPort n x).me = s.me := rfl
@[simp] theorem setPort_ref (s : State) (n : Nat) (x : LmPort) : (s.setPort n x).ref = s.ref := rfl
@[simp] theorem setPort_sv (s : State) (n : Nat) (x : LmPort) : (s.setPort n x).sv = s.sv := rfl
@[simp] theorem setPort_boot (s : State) (n : Nat) (x : LmPort) : (s.setPort n x).boot = s.boot := rfl
@[simp] theorem setPort_pwr (s : State) (n : Nat) (x : LmPort) : (s.setPort n x).pwr = s.pwr := rfl
@[simp] theorem setPort_freshTab (s : State) (n : Nat) (x : LmPort) : (s.setPort n x).freshTab = s.freshTab := rfl
@[simp] theorem setPort_outbox (s : State) (n : Nat) (x : LmPort) : (s.setPort n x).outbox = s.outbox := rfl
@[simp] theorem setPort_freeCtr (s : State) (n : Nat) (x : LmPort) : (s.setPort n x).freeCtr = s.freeCtr := rfl
@[simp] theorem setPort_reg (s : State) (n : Nat) (x : LmPort) (q : Nat) : (s.setPort n x).reg q = s.reg q := rfl
@[simp] theorem setPort_get (s : State) (n : Nat) (x : LmPort) (q : Fld) : (s.setPort n x).get q = s.get q := rfl
@[simp] theorem setPort_is (s : State) (n : Nat) (x : LmPort) (q : Fld) : (s.setPort n x).is q = s.is q := rfl

/-! ### setRef -/

@[simp] theorem setRef_pending (s : State) (f : Ref → Ref) : (s.setRef f).pending = s.pending := rfl
@[simp] theorem setRef_regs (s : State) (f : Ref → Ref) : (s.setRef f).regs = s.regs := rfl
@[simp] theorem setRef_staged (s : State) (f : Ref → Ref) : (s.setRef f).staged = s.staged := rfl
@[simp] theorem setRef_heldLo (s : State) (f : Ref → Ref) : (s.setRef f).heldLo = s.heldLo := rfl
@[simp] theorem setRef_latch (s : State) (f : Ref → Ref) : (s.setRef f).latch = s.latch := rfl
@[simp] theorem setRef_hg (s : State) (f : Ref → Ref) : (s.setRef f).hg = s.hg := rfl
@[simp] theorem setRef_fs (s : State) (f : Ref → Ref) : (s.setRef f).fs = s.fs := rfl
@[simp] theorem setRef_fsBad (s : State) (f : Ref → Ref) : (s.setRef f).fsBad = s.fsBad := rfl
@[simp] theorem setRef_streams (s : State) (f : Ref → Ref) : (s.setRef f).streams = s.streams := rfl
@[simp] theorem setRef_imus (s : State) (f : Ref → Ref) : (s.setRef f).imus = s.imus := rfl
@[simp] theorem setRef_cans (s : State) (f : Ref → Ref) : (s.setRef f).cans = s.cans := rfl
@[simp] theorem setRef_i2cs (s : State) (f : Ref → Ref) : (s.setRef f).i2cs = s.i2cs := rfl
@[simp] theorem setRef_eth (s : State) (f : Ref → Ref) : (s.setRef f).eth = s.eth := rfl
@[simp] theorem setRef_fresh (s : State) (f : Ref → Ref) : (s.setRef f).fresh = s.fresh := rfl
@[simp] theorem setRef_mem (s : State) (f : Ref → Ref) : (s.setRef f).mem = s.mem := rfl
@[simp] theorem setRef_atu (s : State) (f : Ref → Ref) : (s.setRef f).atu = s.atu := rfl
@[simp] theorem setRef_pool (s : State) (f : Ref → Ref) : (s.setRef f).pool = s.pool := rfl
@[simp] theorem setRef_hostFns (s : State) (f : Ref → Ref) : (s.setRef f).hostFns = s.hostFns := rfl
@[simp] theorem setRef_msixTab (s : State) (f : Ref → Ref) : (s.setRef f).msixTab = s.msixTab := rfl
@[simp] theorem setRef_track (s : State) (f : Ref → Ref) : (s.setRef f).track = s.track := rfl
@[simp] theorem setRef_eng (s : State) (f : Ref → Ref) : (s.setRef f).eng = s.eng := rfl
@[simp] theorem setRef_sk (s : State) (f : Ref → Ref) : (s.setRef f).sk = s.sk := rfl
@[simp] theorem setRef_weft (s : State) (f : Ref → Ref) : (s.setRef f).weft = s.weft := rfl
@[simp] theorem setRef_me (s : State) (f : Ref → Ref) : (s.setRef f).me = s.me := rfl
@[simp] theorem setRef_loom (s : State) (f : Ref → Ref) : (s.setRef f).loom = s.loom := rfl
@[simp] theorem setRef_sv (s : State) (f : Ref → Ref) : (s.setRef f).sv = s.sv := rfl
@[simp] theorem setRef_boot (s : State) (f : Ref → Ref) : (s.setRef f).boot = s.boot := rfl
@[simp] theorem setRef_pwr (s : State) (f : Ref → Ref) : (s.setRef f).pwr = s.pwr := rfl
@[simp] theorem setRef_freshTab (s : State) (f : Ref → Ref) : (s.setRef f).freshTab = s.freshTab := rfl
@[simp] theorem setRef_outbox (s : State) (f : Ref → Ref) : (s.setRef f).outbox = s.outbox := rfl
@[simp] theorem setRef_freeCtr (s : State) (f : Ref → Ref) : (s.setRef f).freeCtr = s.freeCtr := rfl
@[simp] theorem setRef_reg (s : State) (f : Ref → Ref) (q : Nat) : (s.setRef f).reg q = s.reg q := rfl
@[simp] theorem setRef_get (s : State) (f : Ref → Ref) (q : Fld) : (s.setRef f).get q = s.get q := rfl
@[simp] theorem setRef_is (s : State) (f : Ref → Ref) (q : Fld) : (s.setRef f).is q = s.is q := rfl

/-! ### setSv -/

@[simp] theorem setSv_pending (s : State) (f : Sv → Sv) : (s.setSv f).pending = s.pending := rfl
@[simp] theorem setSv_regs (s : State) (f : Sv → Sv) : (s.setSv f).regs = s.regs := rfl
@[simp] theorem setSv_staged (s : State) (f : Sv → Sv) : (s.setSv f).staged = s.staged := rfl
@[simp] theorem setSv_heldLo (s : State) (f : Sv → Sv) : (s.setSv f).heldLo = s.heldLo := rfl
@[simp] theorem setSv_latch (s : State) (f : Sv → Sv) : (s.setSv f).latch = s.latch := rfl
@[simp] theorem setSv_hg (s : State) (f : Sv → Sv) : (s.setSv f).hg = s.hg := rfl
@[simp] theorem setSv_fs (s : State) (f : Sv → Sv) : (s.setSv f).fs = s.fs := rfl
@[simp] theorem setSv_fsBad (s : State) (f : Sv → Sv) : (s.setSv f).fsBad = s.fsBad := rfl
@[simp] theorem setSv_streams (s : State) (f : Sv → Sv) : (s.setSv f).streams = s.streams := rfl
@[simp] theorem setSv_imus (s : State) (f : Sv → Sv) : (s.setSv f).imus = s.imus := rfl
@[simp] theorem setSv_cans (s : State) (f : Sv → Sv) : (s.setSv f).cans = s.cans := rfl
@[simp] theorem setSv_i2cs (s : State) (f : Sv → Sv) : (s.setSv f).i2cs = s.i2cs := rfl
@[simp] theorem setSv_eth (s : State) (f : Sv → Sv) : (s.setSv f).eth = s.eth := rfl
@[simp] theorem setSv_fresh (s : State) (f : Sv → Sv) : (s.setSv f).fresh = s.fresh := rfl
@[simp] theorem setSv_mem (s : State) (f : Sv → Sv) : (s.setSv f).mem = s.mem := rfl
@[simp] theorem setSv_atu (s : State) (f : Sv → Sv) : (s.setSv f).atu = s.atu := rfl
@[simp] theorem setSv_pool (s : State) (f : Sv → Sv) : (s.setSv f).pool = s.pool := rfl
@[simp] theorem setSv_hostFns (s : State) (f : Sv → Sv) : (s.setSv f).hostFns = s.hostFns := rfl
@[simp] theorem setSv_msixTab (s : State) (f : Sv → Sv) : (s.setSv f).msixTab = s.msixTab := rfl
@[simp] theorem setSv_track (s : State) (f : Sv → Sv) : (s.setSv f).track = s.track := rfl
@[simp] theorem setSv_eng (s : State) (f : Sv → Sv) : (s.setSv f).eng = s.eng := rfl
@[simp] theorem setSv_sk (s : State) (f : Sv → Sv) : (s.setSv f).sk = s.sk := rfl
@[simp] theorem setSv_weft (s : State) (f : Sv → Sv) : (s.setSv f).weft = s.weft := rfl
@[simp] theorem setSv_me (s : State) (f : Sv → Sv) : (s.setSv f).me = s.me := rfl
@[simp] theorem setSv_loom (s : State) (f : Sv → Sv) : (s.setSv f).loom = s.loom := rfl
@[simp] theorem setSv_ref (s : State) (f : Sv → Sv) : (s.setSv f).ref = s.ref := rfl
@[simp] theorem setSv_boot (s : State) (f : Sv → Sv) : (s.setSv f).boot = s.boot := rfl
@[simp] theorem setSv_pwr (s : State) (f : Sv → Sv) : (s.setSv f).pwr = s.pwr := rfl
@[simp] theorem setSv_freshTab (s : State) (f : Sv → Sv) : (s.setSv f).freshTab = s.freshTab := rfl
@[simp] theorem setSv_outbox (s : State) (f : Sv → Sv) : (s.setSv f).outbox = s.outbox := rfl
@[simp] theorem setSv_freeCtr (s : State) (f : Sv → Sv) : (s.setSv f).freeCtr = s.freeCtr := rfl
@[simp] theorem setSv_reg (s : State) (f : Sv → Sv) (q : Nat) : (s.setSv f).reg q = s.reg q := rfl
@[simp] theorem setSv_get (s : State) (f : Sv → Sv) (q : Fld) : (s.setSv f).get q = s.get q := rfl
@[simp] theorem setSv_is (s : State) (f : Sv → Sv) (q : Fld) : (s.setSv f).is q = s.is q := rfl

/-! ### setSvPort -/

@[simp] theorem setSvPort_pending (s : State) (n : Nat) (x : SvPort) : (s.setSvPort n x).pending = s.pending := rfl
@[simp] theorem setSvPort_regs (s : State) (n : Nat) (x : SvPort) : (s.setSvPort n x).regs = s.regs := rfl
@[simp] theorem setSvPort_staged (s : State) (n : Nat) (x : SvPort) : (s.setSvPort n x).staged = s.staged := rfl
@[simp] theorem setSvPort_heldLo (s : State) (n : Nat) (x : SvPort) : (s.setSvPort n x).heldLo = s.heldLo := rfl
@[simp] theorem setSvPort_latch (s : State) (n : Nat) (x : SvPort) : (s.setSvPort n x).latch = s.latch := rfl
@[simp] theorem setSvPort_hg (s : State) (n : Nat) (x : SvPort) : (s.setSvPort n x).hg = s.hg := rfl
@[simp] theorem setSvPort_fs (s : State) (n : Nat) (x : SvPort) : (s.setSvPort n x).fs = s.fs := rfl
@[simp] theorem setSvPort_fsBad (s : State) (n : Nat) (x : SvPort) : (s.setSvPort n x).fsBad = s.fsBad := rfl
@[simp] theorem setSvPort_streams (s : State) (n : Nat) (x : SvPort) : (s.setSvPort n x).streams = s.streams := rfl
@[simp] theorem setSvPort_imus (s : State) (n : Nat) (x : SvPort) : (s.setSvPort n x).imus = s.imus := rfl
@[simp] theorem setSvPort_cans (s : State) (n : Nat) (x : SvPort) : (s.setSvPort n x).cans = s.cans := rfl
@[simp] theorem setSvPort_i2cs (s : State) (n : Nat) (x : SvPort) : (s.setSvPort n x).i2cs = s.i2cs := rfl
@[simp] theorem setSvPort_eth (s : State) (n : Nat) (x : SvPort) : (s.setSvPort n x).eth = s.eth := rfl
@[simp] theorem setSvPort_fresh (s : State) (n : Nat) (x : SvPort) : (s.setSvPort n x).fresh = s.fresh := rfl
@[simp] theorem setSvPort_mem (s : State) (n : Nat) (x : SvPort) : (s.setSvPort n x).mem = s.mem := rfl
@[simp] theorem setSvPort_atu (s : State) (n : Nat) (x : SvPort) : (s.setSvPort n x).atu = s.atu := rfl
@[simp] theorem setSvPort_pool (s : State) (n : Nat) (x : SvPort) : (s.setSvPort n x).pool = s.pool := rfl
@[simp] theorem setSvPort_hostFns (s : State) (n : Nat) (x : SvPort) : (s.setSvPort n x).hostFns = s.hostFns := rfl
@[simp] theorem setSvPort_msixTab (s : State) (n : Nat) (x : SvPort) : (s.setSvPort n x).msixTab = s.msixTab := rfl
@[simp] theorem setSvPort_track (s : State) (n : Nat) (x : SvPort) : (s.setSvPort n x).track = s.track := rfl
@[simp] theorem setSvPort_eng (s : State) (n : Nat) (x : SvPort) : (s.setSvPort n x).eng = s.eng := rfl
@[simp] theorem setSvPort_sk (s : State) (n : Nat) (x : SvPort) : (s.setSvPort n x).sk = s.sk := rfl
@[simp] theorem setSvPort_weft (s : State) (n : Nat) (x : SvPort) : (s.setSvPort n x).weft = s.weft := rfl
@[simp] theorem setSvPort_me (s : State) (n : Nat) (x : SvPort) : (s.setSvPort n x).me = s.me := rfl
@[simp] theorem setSvPort_loom (s : State) (n : Nat) (x : SvPort) : (s.setSvPort n x).loom = s.loom := rfl
@[simp] theorem setSvPort_ref (s : State) (n : Nat) (x : SvPort) : (s.setSvPort n x).ref = s.ref := rfl
@[simp] theorem setSvPort_boot (s : State) (n : Nat) (x : SvPort) : (s.setSvPort n x).boot = s.boot := rfl
@[simp] theorem setSvPort_pwr (s : State) (n : Nat) (x : SvPort) : (s.setSvPort n x).pwr = s.pwr := rfl
@[simp] theorem setSvPort_freshTab (s : State) (n : Nat) (x : SvPort) : (s.setSvPort n x).freshTab = s.freshTab := rfl
@[simp] theorem setSvPort_outbox (s : State) (n : Nat) (x : SvPort) : (s.setSvPort n x).outbox = s.outbox := rfl
@[simp] theorem setSvPort_freeCtr (s : State) (n : Nat) (x : SvPort) : (s.setSvPort n x).freeCtr = s.freeCtr := rfl
@[simp] theorem setSvPort_reg (s : State) (n : Nat) (x : SvPort) (q : Nat) : (s.setSvPort n x).reg q = s.reg q := rfl
@[simp] theorem setSvPort_get (s : State) (n : Nat) (x : SvPort) (q : Fld) : (s.setSvPort n x).get q = s.get q := rfl
@[simp] theorem setSvPort_is (s : State) (n : Nat) (x : SvPort) (q : Fld) : (s.setSvPort n x).is q = s.is q := rfl

/-! ### setSvPeer -/

@[simp] theorem setSvPeer_pending (s : State) (n : Nat) (x : SvPeer) : (s.setSvPeer n x).pending = s.pending := rfl
@[simp] theorem setSvPeer_regs (s : State) (n : Nat) (x : SvPeer) : (s.setSvPeer n x).regs = s.regs := rfl
@[simp] theorem setSvPeer_staged (s : State) (n : Nat) (x : SvPeer) : (s.setSvPeer n x).staged = s.staged := rfl
@[simp] theorem setSvPeer_heldLo (s : State) (n : Nat) (x : SvPeer) : (s.setSvPeer n x).heldLo = s.heldLo := rfl
@[simp] theorem setSvPeer_latch (s : State) (n : Nat) (x : SvPeer) : (s.setSvPeer n x).latch = s.latch := rfl
@[simp] theorem setSvPeer_hg (s : State) (n : Nat) (x : SvPeer) : (s.setSvPeer n x).hg = s.hg := rfl
@[simp] theorem setSvPeer_fs (s : State) (n : Nat) (x : SvPeer) : (s.setSvPeer n x).fs = s.fs := rfl
@[simp] theorem setSvPeer_fsBad (s : State) (n : Nat) (x : SvPeer) : (s.setSvPeer n x).fsBad = s.fsBad := rfl
@[simp] theorem setSvPeer_streams (s : State) (n : Nat) (x : SvPeer) : (s.setSvPeer n x).streams = s.streams := rfl
@[simp] theorem setSvPeer_imus (s : State) (n : Nat) (x : SvPeer) : (s.setSvPeer n x).imus = s.imus := rfl
@[simp] theorem setSvPeer_cans (s : State) (n : Nat) (x : SvPeer) : (s.setSvPeer n x).cans = s.cans := rfl
@[simp] theorem setSvPeer_i2cs (s : State) (n : Nat) (x : SvPeer) : (s.setSvPeer n x).i2cs = s.i2cs := rfl
@[simp] theorem setSvPeer_eth (s : State) (n : Nat) (x : SvPeer) : (s.setSvPeer n x).eth = s.eth := rfl
@[simp] theorem setSvPeer_fresh (s : State) (n : Nat) (x : SvPeer) : (s.setSvPeer n x).fresh = s.fresh := rfl
@[simp] theorem setSvPeer_mem (s : State) (n : Nat) (x : SvPeer) : (s.setSvPeer n x).mem = s.mem := rfl
@[simp] theorem setSvPeer_atu (s : State) (n : Nat) (x : SvPeer) : (s.setSvPeer n x).atu = s.atu := rfl
@[simp] theorem setSvPeer_pool (s : State) (n : Nat) (x : SvPeer) : (s.setSvPeer n x).pool = s.pool := rfl
@[simp] theorem setSvPeer_hostFns (s : State) (n : Nat) (x : SvPeer) : (s.setSvPeer n x).hostFns = s.hostFns := rfl
@[simp] theorem setSvPeer_msixTab (s : State) (n : Nat) (x : SvPeer) : (s.setSvPeer n x).msixTab = s.msixTab := rfl
@[simp] theorem setSvPeer_track (s : State) (n : Nat) (x : SvPeer) : (s.setSvPeer n x).track = s.track := rfl
@[simp] theorem setSvPeer_eng (s : State) (n : Nat) (x : SvPeer) : (s.setSvPeer n x).eng = s.eng := rfl
@[simp] theorem setSvPeer_sk (s : State) (n : Nat) (x : SvPeer) : (s.setSvPeer n x).sk = s.sk := rfl
@[simp] theorem setSvPeer_weft (s : State) (n : Nat) (x : SvPeer) : (s.setSvPeer n x).weft = s.weft := rfl
@[simp] theorem setSvPeer_me (s : State) (n : Nat) (x : SvPeer) : (s.setSvPeer n x).me = s.me := rfl
@[simp] theorem setSvPeer_loom (s : State) (n : Nat) (x : SvPeer) : (s.setSvPeer n x).loom = s.loom := rfl
@[simp] theorem setSvPeer_ref (s : State) (n : Nat) (x : SvPeer) : (s.setSvPeer n x).ref = s.ref := rfl
@[simp] theorem setSvPeer_boot (s : State) (n : Nat) (x : SvPeer) : (s.setSvPeer n x).boot = s.boot := rfl
@[simp] theorem setSvPeer_pwr (s : State) (n : Nat) (x : SvPeer) : (s.setSvPeer n x).pwr = s.pwr := rfl
@[simp] theorem setSvPeer_freshTab (s : State) (n : Nat) (x : SvPeer) : (s.setSvPeer n x).freshTab = s.freshTab := rfl
@[simp] theorem setSvPeer_outbox (s : State) (n : Nat) (x : SvPeer) : (s.setSvPeer n x).outbox = s.outbox := rfl
@[simp] theorem setSvPeer_freeCtr (s : State) (n : Nat) (x : SvPeer) : (s.setSvPeer n x).freeCtr = s.freeCtr := rfl
@[simp] theorem setSvPeer_reg (s : State) (n : Nat) (x : SvPeer) (q : Nat) : (s.setSvPeer n x).reg q = s.reg q := rfl
@[simp] theorem setSvPeer_get (s : State) (n : Nat) (x : SvPeer) (q : Fld) : (s.setSvPeer n x).get q = s.get q := rfl
@[simp] theorem setSvPeer_is (s : State) (n : Nat) (x : SvPeer) (q : Fld) : (s.setSvPeer n x).is q = s.is q := rfl

/-! ### setPwr -/

@[simp] theorem setPwr_pending (s : State) (f : Pwr → Pwr) : (s.setPwr f).pending = s.pending := rfl
@[simp] theorem setPwr_regs (s : State) (f : Pwr → Pwr) : (s.setPwr f).regs = s.regs := rfl
@[simp] theorem setPwr_staged (s : State) (f : Pwr → Pwr) : (s.setPwr f).staged = s.staged := rfl
@[simp] theorem setPwr_heldLo (s : State) (f : Pwr → Pwr) : (s.setPwr f).heldLo = s.heldLo := rfl
@[simp] theorem setPwr_latch (s : State) (f : Pwr → Pwr) : (s.setPwr f).latch = s.latch := rfl
@[simp] theorem setPwr_hg (s : State) (f : Pwr → Pwr) : (s.setPwr f).hg = s.hg := rfl
@[simp] theorem setPwr_fs (s : State) (f : Pwr → Pwr) : (s.setPwr f).fs = s.fs := rfl
@[simp] theorem setPwr_fsBad (s : State) (f : Pwr → Pwr) : (s.setPwr f).fsBad = s.fsBad := rfl
@[simp] theorem setPwr_streams (s : State) (f : Pwr → Pwr) : (s.setPwr f).streams = s.streams := rfl
@[simp] theorem setPwr_imus (s : State) (f : Pwr → Pwr) : (s.setPwr f).imus = s.imus := rfl
@[simp] theorem setPwr_cans (s : State) (f : Pwr → Pwr) : (s.setPwr f).cans = s.cans := rfl
@[simp] theorem setPwr_i2cs (s : State) (f : Pwr → Pwr) : (s.setPwr f).i2cs = s.i2cs := rfl
@[simp] theorem setPwr_eth (s : State) (f : Pwr → Pwr) : (s.setPwr f).eth = s.eth := rfl
@[simp] theorem setPwr_fresh (s : State) (f : Pwr → Pwr) : (s.setPwr f).fresh = s.fresh := rfl
@[simp] theorem setPwr_mem (s : State) (f : Pwr → Pwr) : (s.setPwr f).mem = s.mem := rfl
@[simp] theorem setPwr_atu (s : State) (f : Pwr → Pwr) : (s.setPwr f).atu = s.atu := rfl
@[simp] theorem setPwr_pool (s : State) (f : Pwr → Pwr) : (s.setPwr f).pool = s.pool := rfl
@[simp] theorem setPwr_hostFns (s : State) (f : Pwr → Pwr) : (s.setPwr f).hostFns = s.hostFns := rfl
@[simp] theorem setPwr_msixTab (s : State) (f : Pwr → Pwr) : (s.setPwr f).msixTab = s.msixTab := rfl
@[simp] theorem setPwr_track (s : State) (f : Pwr → Pwr) : (s.setPwr f).track = s.track := rfl
@[simp] theorem setPwr_eng (s : State) (f : Pwr → Pwr) : (s.setPwr f).eng = s.eng := rfl
@[simp] theorem setPwr_sk (s : State) (f : Pwr → Pwr) : (s.setPwr f).sk = s.sk := rfl
@[simp] theorem setPwr_weft (s : State) (f : Pwr → Pwr) : (s.setPwr f).weft = s.weft := rfl
@[simp] theorem setPwr_me (s : State) (f : Pwr → Pwr) : (s.setPwr f).me = s.me := rfl
@[simp] theorem setPwr_loom (s : State) (f : Pwr → Pwr) : (s.setPwr f).loom = s.loom := rfl
@[simp] theorem setPwr_ref (s : State) (f : Pwr → Pwr) : (s.setPwr f).ref = s.ref := rfl
@[simp] theorem setPwr_sv (s : State) (f : Pwr → Pwr) : (s.setPwr f).sv = s.sv := rfl
@[simp] theorem setPwr_boot (s : State) (f : Pwr → Pwr) : (s.setPwr f).boot = s.boot := rfl
@[simp] theorem setPwr_freshTab (s : State) (f : Pwr → Pwr) : (s.setPwr f).freshTab = s.freshTab := rfl
@[simp] theorem setPwr_outbox (s : State) (f : Pwr → Pwr) : (s.setPwr f).outbox = s.outbox := rfl
@[simp] theorem setPwr_freeCtr (s : State) (f : Pwr → Pwr) : (s.setPwr f).freeCtr = s.freeCtr := rfl
@[simp] theorem setPwr_reg (s : State) (f : Pwr → Pwr) (q : Nat) : (s.setPwr f).reg q = s.reg q := rfl
@[simp] theorem setPwr_get (s : State) (f : Pwr → Pwr) (q : Fld) : (s.setPwr f).get q = s.get q := rfl
@[simp] theorem setPwr_is (s : State) (f : Pwr → Pwr) (q : Fld) : (s.setPwr f).is q = s.is q := rfl

/-! ### setBoot -/

@[simp] theorem setBoot_pending (s : State) (f : Boot → Boot) : (s.setBoot f).pending = s.pending := rfl
@[simp] theorem setBoot_regs (s : State) (f : Boot → Boot) : (s.setBoot f).regs = s.regs := rfl
@[simp] theorem setBoot_staged (s : State) (f : Boot → Boot) : (s.setBoot f).staged = s.staged := rfl
@[simp] theorem setBoot_heldLo (s : State) (f : Boot → Boot) : (s.setBoot f).heldLo = s.heldLo := rfl
@[simp] theorem setBoot_latch (s : State) (f : Boot → Boot) : (s.setBoot f).latch = s.latch := rfl
@[simp] theorem setBoot_hg (s : State) (f : Boot → Boot) : (s.setBoot f).hg = s.hg := rfl
@[simp] theorem setBoot_fs (s : State) (f : Boot → Boot) : (s.setBoot f).fs = s.fs := rfl
@[simp] theorem setBoot_fsBad (s : State) (f : Boot → Boot) : (s.setBoot f).fsBad = s.fsBad := rfl
@[simp] theorem setBoot_streams (s : State) (f : Boot → Boot) : (s.setBoot f).streams = s.streams := rfl
@[simp] theorem setBoot_imus (s : State) (f : Boot → Boot) : (s.setBoot f).imus = s.imus := rfl
@[simp] theorem setBoot_cans (s : State) (f : Boot → Boot) : (s.setBoot f).cans = s.cans := rfl
@[simp] theorem setBoot_i2cs (s : State) (f : Boot → Boot) : (s.setBoot f).i2cs = s.i2cs := rfl
@[simp] theorem setBoot_eth (s : State) (f : Boot → Boot) : (s.setBoot f).eth = s.eth := rfl
@[simp] theorem setBoot_fresh (s : State) (f : Boot → Boot) : (s.setBoot f).fresh = s.fresh := rfl
@[simp] theorem setBoot_mem (s : State) (f : Boot → Boot) : (s.setBoot f).mem = s.mem := rfl
@[simp] theorem setBoot_atu (s : State) (f : Boot → Boot) : (s.setBoot f).atu = s.atu := rfl
@[simp] theorem setBoot_pool (s : State) (f : Boot → Boot) : (s.setBoot f).pool = s.pool := rfl
@[simp] theorem setBoot_hostFns (s : State) (f : Boot → Boot) : (s.setBoot f).hostFns = s.hostFns := rfl
@[simp] theorem setBoot_msixTab (s : State) (f : Boot → Boot) : (s.setBoot f).msixTab = s.msixTab := rfl
@[simp] theorem setBoot_track (s : State) (f : Boot → Boot) : (s.setBoot f).track = s.track := rfl
@[simp] theorem setBoot_eng (s : State) (f : Boot → Boot) : (s.setBoot f).eng = s.eng := rfl
@[simp] theorem setBoot_sk (s : State) (f : Boot → Boot) : (s.setBoot f).sk = s.sk := rfl
@[simp] theorem setBoot_weft (s : State) (f : Boot → Boot) : (s.setBoot f).weft = s.weft := rfl
@[simp] theorem setBoot_me (s : State) (f : Boot → Boot) : (s.setBoot f).me = s.me := rfl
@[simp] theorem setBoot_loom (s : State) (f : Boot → Boot) : (s.setBoot f).loom = s.loom := rfl
@[simp] theorem setBoot_ref (s : State) (f : Boot → Boot) : (s.setBoot f).ref = s.ref := rfl
@[simp] theorem setBoot_sv (s : State) (f : Boot → Boot) : (s.setBoot f).sv = s.sv := rfl
@[simp] theorem setBoot_pwr (s : State) (f : Boot → Boot) : (s.setBoot f).pwr = s.pwr := rfl
@[simp] theorem setBoot_freshTab (s : State) (f : Boot → Boot) : (s.setBoot f).freshTab = s.freshTab := rfl
@[simp] theorem setBoot_outbox (s : State) (f : Boot → Boot) : (s.setBoot f).outbox = s.outbox := rfl
@[simp] theorem setBoot_freeCtr (s : State) (f : Boot → Boot) : (s.setBoot f).freeCtr = s.freeCtr := rfl
@[simp] theorem setBoot_reg (s : State) (f : Boot → Boot) (q : Nat) : (s.setBoot f).reg q = s.reg q := rfl
@[simp] theorem setBoot_get (s : State) (f : Boot → Boot) (q : Fld) : (s.setBoot f).get q = s.get q := rfl
@[simp] theorem setBoot_is (s : State) (f : Boot → Boot) (q : Fld) : (s.setBoot f).is q = s.is q := rfl

/-! ### What the updates write -/

@[simp] theorem emit_outbox (s : State) (x : Out) : (s.emit x).outbox = x :: s.outbox := rfl
@[simp] theorem took_freeCtr (s : State) : s.took.freeCtr = s.freeCtr + 1 := rfl
@[simp] theorem setTrack_track (s : State) (f : Track → Track) : (s.setTrack f).track = f s.track := rfl
@[simp] theorem setEng_eng (s : State) (f : Engine → Engine) : (s.setEng f).eng = f s.eng := rfl
@[simp] theorem setSk_sk (s : State) (f : Sk → Sk) : (s.setSk f).sk = f s.sk := rfl
@[simp] theorem setWeft_weft (s : State) (f : Weft → Weft) : (s.setWeft f).weft = f s.weft := rfl
@[simp] theorem setMe_me (s : State) (f : Me → Me) : (s.setMe f).me = f s.me := rfl
@[simp] theorem setLoom_loom (s : State) (f : Loom → Loom) : (s.setLoom f).loom = f s.loom := rfl
@[simp] theorem setRef_ref (s : State) (f : Ref → Ref) : (s.setRef f).ref = f s.ref := rfl
@[simp] theorem setSv_sv (s : State) (f : Sv → Sv) : (s.setSv f).sv = f s.sv := rfl
@[simp] theorem setPwr_pwr (s : State) (f : Pwr → Pwr) : (s.setPwr f).pwr = f s.pwr := rfl
@[simp] theorem setBoot_boot (s : State) (f : Boot → Boot) : (s.setBoot f).boot = f s.boot := rfl

end Sys2Proof.Machine
end

