-- ==== Sys2Proof/Laws/Regs.lean ====
section
/-! SUPPORT. What reading a register, a field or a pair gives after a write of one, and what a report leaves in the fault registers. -/

namespace Sys2Proof.Machine

/-! ### Bits of a number -/

theorem bitsOf_lt (v lo w : Nat) : bitsOf v lo w < 2 ^ w := Nat.mod_lt _ (by positivity)

/-- A number in three parts: above a field, the field, below it. -/
theorem nat_parts (v lo w : Nat) : v = v / 2 ^ (lo + w) * 2 ^ (lo + w) + bitsOf v lo w * 2 ^ lo + v % 2 ^ lo := by
  have h1 := Nat.div_add_mod v (2 ^ lo)
  have h2 := Nat.div_add_mod (v / 2 ^ lo) (2 ^ w)
  rw [Nat.div_div_eq_div_mul, ← pow_add] at h2
  unfold bitsOf
  calc v = 2 ^ lo * (v / 2 ^ lo) + v % 2 ^ lo := h1.symm
    _ = 2 ^ lo * (2 ^ w * (v / 2 ^ (lo + w)) + v / 2 ^ lo % 2 ^ w) + v % 2 ^ lo := by rw [h2]
    _ = _ := by rw [pow_add]; ring

theorem setBits_eq (v lo w x : Nat) :
    setBits v lo w x = v / 2 ^ (lo + w) * 2 ^ (lo + w) + x % 2 ^ w * 2 ^ lo + v % 2 ^ lo := by
  have := nat_parts v lo w
  unfold setBits
  rw [Nat.mul_comm (2 ^ lo) (x % 2 ^ w), Nat.mul_comm (2 ^ lo) (bitsOf v lo w)]
  omega

/-- A field reads as it was set. -/
@[simp] theorem bitsOf_setBits (v lo w x : Nat) : bitsOf (setBits v lo w x) lo w = x % 2 ^ w := by
  have e : setBits v lo w x = v % 2 ^ lo + 2 ^ lo * (x % 2 ^ w + 2 ^ w * (v / 2 ^ (lo + w))) := by
    rw [setBits_eq, pow_add]; ring
  have hl : v % 2 ^ lo < 2 ^ lo := Nat.mod_lt _ (by positivity)
  rw [bitsOf, e, Nat.add_mul_div_left _ _ (by positivity), Nat.div_eq_of_lt hl, Nat.zero_add, Nat.add_mul_mod_self_left,
    Nat.mod_mod]

theorem div_setBits (v lo w x : Nat) : setBits v lo w x / 2 ^ (lo + w) = v / 2 ^ (lo + w) := by
  have hl : v % 2 ^ lo < 2 ^ lo := Nat.mod_lt _ (by positivity)
  have hx : x % 2 ^ w < 2 ^ w := Nat.mod_lt _ (by positivity)
  have hb : x % 2 ^ w * 2 ^ lo + v % 2 ^ lo < 2 ^ (lo + w) := by
    rw [Nat.add_comm lo w, pow_add]; nlinarith [Nat.mul_le_mul_right (2 ^ lo) (Nat.succ_le_of_lt hx)]
  rw [setBits_eq, Nat.add_assoc, Nat.mul_comm, Nat.mul_add_div (by positivity), Nat.div_eq_of_lt hb, Nat.add_zero]

theorem mod_setBits (v lo w x : Nat) : setBits v lo w x % 2 ^ lo = v % 2 ^ lo := by
  have e : setBits v lo w x = v % 2 ^ lo + 2 ^ lo * (x % 2 ^ w + 2 ^ w * (v / 2 ^ (lo + w))) := by
    rw [setBits_eq, pow_add]; ring
  rw [e, Nat.add_mul_mod_self_left, Nat.mod_mod]

theorem setBits_lt {v lo w x n : Nat} (h : v < 2 ^ n) (hn : lo + w ≤ n) : setBits v lo w x < 2 ^ n := by
  have hd := div_setBits v lo w x
  have e : (2 : Nat) ^ n = 2 ^ (lo + w) * 2 ^ (n - (lo + w)) := by rw [← pow_add]; congr 1; omega
  have h2 : setBits v lo w x / 2 ^ (lo + w) < 2 ^ (n - (lo + w)) := by
    rw [hd]; exact Nat.div_lt_of_lt_mul (by rwa [← e])
  rw [e]
  exact (Nat.div_lt_iff_lt_mul (by positivity)).1 h2 |>.trans_eq (Nat.mul_comm _ _)

/-- Another field above or below is unchanged. -/
theorem bitsOf_setBits_ne (v lo w x lo' w' : Nat) (h : lo + w ≤ lo' ∨ lo' + w' ≤ lo) :
    bitsOf (setBits v lo w x) lo' w' = bitsOf v lo' w' := by
  unfold bitsOf
  rcases h with h | h
  · have e : (2 : Nat) ^ lo' = 2 ^ (lo + w) * 2 ^ (lo' - (lo + w)) := by rw [← pow_add]; congr 1; omega
    rw [e, ← Nat.div_div_eq_div_mul, ← Nat.div_div_eq_div_mul, div_setBits]
  · have e : (2 : Nat) ^ lo = 2 ^ (lo' + w') * 2 ^ (lo - (lo' + w')) := by rw [← pow_add]; congr 1; omega
    have hm : setBits v lo w x % 2 ^ (lo' + w') = v % 2 ^ (lo' + w') := by
      have a := congrArg (· % 2 ^ (lo' + w')) (mod_setBits v lo w x)
      simpa [e, Nat.mod_mul_right_mod] using a
    have key : ∀ u : Nat, u / 2 ^ lo' % 2 ^ w' = u % 2 ^ (lo' + w') / 2 ^ lo' := fun u => by
      rw [pow_add, Nat.mod_mul_right_div_self]
    rw [key, key, hm]

/-! ### Registers, fields and pairs -/

theorem reg_setReg (s : State) (o q : Nat) (v : Word) : (s.setReg o v).reg q = if o = q then v else s.reg q := by
  simp only [State.reg, State.setReg, spGet_spPut]

@[simp] theorem reg_setReg_same (s : State) (o : Nat) (v : Word) : (s.setReg o v).reg o = v := by simp [reg_setReg]

theorem reg_setReg_ne (s : State) {o q : Nat} (v : Word) (h : o ≠ q) : (s.setReg o v).reg q = s.reg q := by simp [reg_setReg, h]

theorem get_setReg_ne (s : State) {o : Nat} {f : Fld} (v : Word) (h : o ≠ f.off) : (s.setReg o v).get f = s.get f := by
  simp only [State.get, reg_setReg_ne s v h]

theorem is_setReg_ne (s : State) {o : Nat} {f : Fld} (v : Word) (h : o ≠ f.off) : (s.setReg o v).is f = s.is f := by
  simp only [State.is, get_setReg_ne s v h]

theorem reg_put_ne (s : State) {f : Fld} {q : Nat} (v : Nat) (h : f.off ≠ q) : (s.put f v).reg q = s.reg q := reg_setReg_ne _ _ h

theorem reg_putB_ne (s : State) {f : Fld} {q : Nat} (b : Bool) (h : f.off ≠ q) : (s.putB f b).reg q = s.reg q := reg_setReg_ne _ _ h

theorem reg_bump_ne (s : State) {f : Fld} {q : Nat} (n : Nat) (h : f.off ≠ q) : (s.bump f n).reg q = s.reg q := reg_setReg_ne _ _ h

theorem toNat_put (s : State) (f : Fld) (v : Nat) (h : f.lo + f.w ≤ 32) :
    ((s.put f v).reg f.off).toNat = setBits (s.reg f.off).toNat f.lo f.w v := by
  rw [State.put, reg_setReg_same, BitVec.toNat_ofNat, Nat.mod_eq_of_lt (setBits_lt (s.reg f.off).isLt h)]

/-- A field reads as it was placed. -/
theorem get_put (s : State) (f : Fld) (v : Nat) (h : f.lo + f.w ≤ 32) : (s.put f v).get f = v % 2 ^ f.w := by
  rw [State.get, toNat_put s f v h, bitsOf_setBits]

/-- Another field of the same register, or of another one, is unchanged. -/
theorem get_put_ne (s : State) (f g : Fld) (v : Nat) (h : f.lo + f.w ≤ 32)
    (d : f.off ≠ g.off ∨ f.lo + f.w ≤ g.lo ∨ g.lo + g.w ≤ f.lo) : (s.put f v).get g = s.get g := by
  by_cases e : f.off = g.off
  · rcases d with d | d
    · exact absurd e d
    · unfold State.get
      rw [← e, toNat_put s f v h, bitsOf_setBits_ne _ _ _ _ _ _ d]
  · exact get_setReg_ne _ _ e

theorem is_put (s : State) (f : Fld) (v : Nat) (h : f.lo + f.w ≤ 32) : (s.put f v).is f = (v % 2 ^ f.w == 1) := by
  rw [State.is, get_put s f v h]

theorem is_putB (s : State) (f : Fld) (b : Bool) (h : f.lo + f.w ≤ 32) (w : f.w = 1) : (s.putB f b).is f = b := by
  rw [State.putB, is_put _ _ _ h, w]; cases b <;> rfl

theorem is_put_ne (s : State) (f g : Fld) (v : Nat) (h : f.lo + f.w ≤ 32)
    (d : f.off ≠ g.off ∨ f.lo + f.w ≤ g.lo ∨ g.lo + g.w ≤ f.lo) : (s.put f v).is g = s.is g := by
  rw [State.is, State.is, get_put_ne s f g v h d]

/-- A saturating count after an addition. -/
theorem get_bump (s : State) (f : Fld) (n : Nat) (h : f.lo + f.w ≤ 32) : (s.bump f n).get f = min (s.get f + n) (2 ^ f.w - 1) := by
  have hp : 0 < 2 ^ f.w := Nat.two_pow_pos _
  rw [State.bump, get_put _ _ _ h, Nat.mod_eq_of_lt (by omega)]

theorem get_whole (s : State) (o : Nat) : s.get (whole o) = (s.reg o).toNat := by
  have h := (s.reg o).isLt
  rw [State.get, whole, bitsOf, Nat.pow_zero, Nat.div_one, Nat.mod_eq_of_lt h]

@[simp] theorem pair_setPair (s : State) (o v : Nat) : (s.setPair o v).pair o = v % 2 ^ 64 := by
  unfold State.pair State.setPair
  rw [reg_setReg_ne _ _ (by omega), reg_setReg_same, reg_setReg_same, BitVec.toNat_ofNat, BitVec.toNat_ofNat]
  omega

theorem reg_setPair_ne (s : State) {o q : Nat} (v : Nat) (h : o ≠ q) (h4 : o + 4 ≠ q) : (s.setPair o v).reg q = s.reg q := by
  unfold State.setPair
  rw [reg_setReg_ne _ _ h4, reg_setReg_ne _ _ h]

/-! ### Reports (R50-R52) -/

/-- The word that a report writes. -/
def faultWord (code iid : Nat) : Word := BitVec.ofNat 32 (code + 0x10000 * (iid % 64))

theorem report_last (s : State) (c i : Nat) : (s.report c i).reg Reg.GLB_FAULT_LAST = faultWord c i := by
  unfold State.report faultWord
  rw [reg_bump_ne _ _ (by decide), reg_setReg_same]

theorem report_first (s : State) (c i : Nat) :
    (s.report c i).reg Reg.GLB_FAULT_FIRST =
      if s.reg Reg.GLB_FAULT_FIRST = 0 then faultWord c i else s.reg Reg.GLB_FAULT_FIRST := by
  unfold State.report faultWord
  rw [reg_bump_ne _ _ (by decide), reg_setReg_ne _ _ (by decide)]
  split <;> simp_all

theorem report_count (s : State) (c i : Nat) :
    ((s.report c i).reg Reg.GLB_FAULT_COUNT).toNat = min ((s.reg Reg.GLB_FAULT_COUNT).toNat + 1) (2 ^ 32 - 1) := by
  have e : ∀ t : State, (t.reg Reg.GLB_FAULT_COUNT).toNat = t.get (whole Reg.GLB_FAULT_COUNT) := fun t => (get_whole t _).symm
  rw [e, e]
  unfold State.report
  rw [get_bump _ _ _ (by decide), get_setReg_ne _ _ (by decide)]
  split
  · rw [get_setReg_ne _ _ (by decide)]; rfl
  · rfl

/-- A report leaves every register but the three fault registers as it was. -/
theorem report_reg_ne (s : State) (c i q : Nat) (h1 : Reg.GLB_FAULT_FIRST ≠ q) (h2 : Reg.GLB_FAULT_LAST ≠ q)
    (h3 : Reg.GLB_FAULT_COUNT ≠ q) : (s.report c i).reg q = s.reg q := by
  unfold State.report
  rw [reg_bump_ne _ _ h3, reg_setReg_ne _ _ h2]
  split
  · rw [reg_setReg_ne _ _ h1]
  · rfl

end Sys2Proof.Machine
end

