-- ==== Sys2Proof/Laws/Access.lean ====
section
/-! SUPPORT. What an admitted and a refused register access come to. -/

namespace Sys2Proof.Machine

theorem writeWith_ok {s : State} {iid : Iid} {off : Nat} (h : s.writeOk iid off = true) (f : State → State) :
    s.writeWith iid off f = f s := by
  unfold State.writeOk at h
  unfold State.writeWith
  cases hc : s.regCheck iid.toNat off 4 true with
  | some c => simp [hc] at h
  | none =>
    cases hr : regRow off with
    | none => rfl
    | some r =>
      have hl : (s.locked && r.lk != 0) = false := by
        rw [hc, hr] at h; cases hL : s.locked <;> simp_all
      simp [hl]

theorem writeWith_refused {s : State} {iid : Iid} {off c : Nat} (h : s.regCheck iid.toNat off 4 true = some c) (f : State → State) :
    s.writeWith iid off f = s.refuse c iid.toNat := by simp [State.writeWith, h]

theorem readWith_ok {s : State} {iid : Iid} {off : Nat} (h : s.readOk iid off = true) (f : State → State) :
    s.readWith iid off f = f (s.readReg iid.toNat off) := by
  unfold State.readOk at h
  unfold State.readWith
  cases hc : s.regCheck iid.toNat off 4 false with
  | some c => simp [hc] at h
  | none => rfl

/-- A command's outcome is its effect, where that leaves the queue and the start-up state alone. -/
theorem done_eq (s t : State) (hp : t.pending = s.pending) (hb : t.boot = s.boot) : s.done t = .next t := by
  cases t; subst hp hb; rfl

theorem booted_eq (s t : State) (hp : t.pending = s.pending) : s.booted t = .next t := by
  cases t; subst hp; rfl

theorem done_next (s t : State) : s.done t = .next { t with pending := s.pending, boot := s.boot } := rfl

theorem booted_next (s t : State) : s.booted t = .next { t with pending := s.pending } := rfl

/-- What a command's outcome holds, from what its effect holds: anything but the queue and the start-up state. -/
theorem done_completes {c : Instr} {s t : State} {p : State → Prop} (h : exec c s = s.done t)
    (hp : p { t with pending := s.pending, boot := s.boot }) : Completes c s p := ⟨_, h, hp⟩

theorem booted_completes {c : Instr} {s t : State} {p : State → Prop} (h : exec c s = s.booted t)
    (hp : p { t with pending := s.pending }) : Completes c s p := ⟨_, h, hp⟩

/-- A refused access changes registers alone. -/
theorem refuse_last (s : State) (c i : Nat) : (s.refuse c i).reg Reg.GLB_FAULT_LAST = faultWord c i := by
  unfold State.refuse; rw [reg_bump_ne _ _ (by decide), report_last]

theorem refuse_done (s : State) (c i : Nat) : s.done (s.refuse c i) = .next (s.refuse c i) := done_eq _ _ (by simp) (by simp)

end Sys2Proof.Machine
end

