-- ==== Sys2Proof/Laws/Memory.lean ====
section
/-! SUPPORT. Every operation on the memories keeps their canonical form; a byte that has been written reads back, and every other
byte reads as before. -/

namespace Sys2Proof.Machine

/-! ### Sparse arrays -/

theorem spWf_filter {α : Type} [DecidableEq α] {d : Nat → α} (m : Sparse α) (p : Nat × α → Bool) (h : spWf d m = true) :
    spWf d (m.filter p) = true := by
  induction m with
  | nil => rfl
  | cons x r ih =>
    obtain ⟨h1, h2, h3⟩ := spWf_cons.1 h
    by_cases hp : p x = true
    · rw [List.filter_cons_of_pos hp]
      exact spWf_cons.2 ⟨h1, fun q hq => h2 q (List.mem_filter.1 hq).1, ih h3⟩
    · rw [List.filter_cons_of_neg hp]; exact ih h3

theorem spWf_foldPut {α β : Type} [DecidableEq α] {d : Nat → α} (l : List β) (k : β → Nat) (v : β → α) (m : Sparse α)
    (h : spWf d m = true) : spWf d (l.foldl (fun r p => spPut d r (k p) (v p)) m) = true := by
  induction l generalizing m with
  | nil => exact h
  | cons x r ih => exact ih _ (spWf_spPut _ _ _ h)

/-! ### Memory behind the DPAs -/

theorem Mem.wf_iff (m : Mem) : m.wf = true ↔ spWf (fun _ => 0) m.bob = true ∧ spWf (fun _ => 0) m.reel = true ∧
    spWf (fun _ => none) m.reelNew = true ∧ spWf (fun _ => false) m.poison = true := by
  simp [Mem.wf, and_assoc]

theorem Mem.wf_toReel (m : Mem) (l : Nat) (h : m.wf = true) : (m.toReel l).wf = true := by
  obtain ⟨h1, h2, h3, h4⟩ := m.wf_iff.1 h
  exact (Mem.wf_iff _).2 ⟨h1, spWf_foldPut _ _ _ _ h2, spWf_filter _ _ h3, h4⟩

theorem Mem.wf_toReels (ls : List Nat) (m : Mem) (h : m.wf = true) : (ls.foldl Mem.toReel m).wf = true := by
  induction ls generalizing m with
  | nil => exact h
  | cons l r ih => exact ih _ (m.wf_toReel l h)

theorem Mem.wf_drain (m : Mem) (h : m.wf = true) : m.drain.wf = true := by
  unfold Mem.drain
  split
  · exact h
  · exact m.wf_toReel _ h

theorem Mem.wf_evict (m : Mem) (x : Option (Nat × Bool)) (h : m.wf = true) : (m.evict x).wf = true := by
  unfold Mem.evict
  split
  · split
    · exact m.wf_drain h
    · exact h
  · exact h

theorem Mem.wf_clean (m : Mem) (ls : List Nat) (h : m.wf = true) : (m.clean ls).wf = true := Mem.wf_toReels ls _ h

theorem Mem.wf_put (m : Mem) (a : Nat) (b : Byte) (h : m.wf = true) : (m.put a b).wf = true := by
  obtain ⟨h1, h2, h3, h4⟩ := m.wf_iff.1 h
  unfold Mem.put
  split
  · exact (Mem.wf_iff _).2 ⟨h1, h2, spWf_spPut _ _ _ h3, h4⟩
  · exact (Mem.wf_iff _).2 ⟨spWf_spPut _ _ _ h1, h2, h3, h4⟩

theorem Mem.wf_puts (bs : List Byte) (m : Mem) (a : Nat) (h : m.wf = true) : (m.puts a bs).wf = true := by
  induction bs generalizing m a with
  | nil => exact h
  | cons b r ih => exact ih _ _ (m.wf_put a b h)

/-! ### Operations on the state -/

theorem mem_setPoison (s : State) (l : Nat) (b : Bool) (h : s.mem.wf = true) : (s.setPoison l b).mem.wf = true := by
  obtain ⟨h1, h2, h3, h4⟩ := s.mem.wf_iff.1 h
  exact (Mem.wf_iff _).2 ⟨h1, h2, h3, spWf_spPut _ _ _ h4⟩

theorem mem_poisonLines (n : Nat) (s : State) (l : Nat) (h : s.mem.wf = true) : (s.poisonLines l n).mem.wf = true := by
  induction n generalizing s l with
  | zero => exact h
  | succ n ih => exact ih _ _ (mem_setPoison s l true h)

theorem mem_reelTouch (s : State) (l : Nat) (wr : Bool) (h : s.mem.wf = true) : (s.reelTouch l wr).mem.wf = true := by
  unfold State.reelTouch
  dsimp only
  split
  · exact h
  · split
    · split
      · exact Mem.wf_evict _ _ h
      · exact h
    · exact Mem.wf_evict _ _ h

theorem mem_reelTouches (a : Nat) (wr : Bool) (l : List Nat) (s : State) (h : s.mem.wf = true) :
    (l.foldl (fun s i => s.reelTouch (a + i) wr) s).mem.wf = true := by
  induction l generalizing s with
  | nil => exact h
  | cons x r ih => exact ih _ (mem_reelTouch s _ wr h)

theorem mem_reelSpan (s : State) (a n : Nat) (wr : Bool) (h : s.mem.wf = true) : (s.reelSpan a n wr).mem.wf = true := by
  unfold State.reelSpan
  split
  · refine mem_reelTouches _ wr _ _ ?_
    split
    · exact h
    · exact h
  · exact h

theorem onlyRegs_eccUe (s : State) (iid l : Nat) : OnlyRegs s (s.eccUe iid l) := by
  unfold State.eccUe
  split
  · exact ((OnlyRegs.refl s).bump _ _).report _ _
  · exact (((OnlyRegs.refl s).bump _ _).setPair _ _).report _ _

theorem onlyRegs_recoverBy (s : State) (iid l : Nat) (e : MemErr) (o : Option Prot) : OnlyRegs s (s.recoverBy iid l e o).1 := by
  unfold State.recoverBy
  split
  · dsimp only
    split
    · split
      · exact onlyRegs_report _ _ _
      · exact (OnlyRegs.refl s).bump _ _
    · split
      · split
        · exact onlyRegs_report _ _ _
        · exact .refl s
      · exact .refl s
  · exact .refl s

theorem onlyRegs_recover (s : State) (iid l : Nat) (e : MemErr) : OnlyRegs s (s.recover iid l e).1 := onlyRegs_recoverBy s iid l e _

theorem mem_lineRead (s : State) (iid l : Nat) (e : MemErr) (h : s.mem.wf = true) : (s.lineRead iid l e).1.mem.wf = true := by
  have k : ((s.eccUe iid l).recover iid l e).1.mem.wf = true := by
    rw [(onlyRegs_recover _ iid l e).mem, (onlyRegs_eccUe s iid l).mem]; exact h
  simp only [State.lineRead]
  split
  · exact h
  · split
    · split
      · exact mem_poisonLines _ _ _ k
      · exact k
    · split
      · split
        · exact h
        · exact h
      · exact h

theorem mem_linesRead (iid : Nat) (e : MemErr) (n : Nat) (s : State) (l : Nat) (h : s.mem.wf = true) :
    (s.linesRead iid l e n).1.mem.wf = true := by
  induction n generalizing s l with
  | zero => exact h
  | succ n ih => exact ih _ _ (mem_lineRead s iid l e h)

theorem mem_dpaRead (s : State) (iid a n : Nat) (e : MemErr) (h : s.mem.wf = true) : (s.dpaRead iid a n e).1.mem.wf = true := by
  unfold State.dpaRead
  split
  · exact h
  · exact mem_linesRead _ _ _ _ _ (mem_reelSpan s a n false h)

theorem mem_lineWrite (s : State) (iid l : Nat) (w : Bool) (e : MemErr) (h : s.mem.wf = true) :
    (s.lineWrite iid l w e).mem.wf = true := by
  have k := mem_lineRead s iid l e h
  unfold State.lineWrite
  dsimp only
  repeat' split
  all_goals first | exact mem_setPoison _ _ _ h | exact mem_setPoison _ _ _ k | exact k

theorem mem_linesWrite (iid a n : Nat) (e : MemErr) (k : Nat) (s : State) (l : Nat) (h : s.mem.wf = true) :
    (s.linesWrite iid a n l e k).mem.wf = true := by
  induction k generalizing s l with
  | zero => exact h
  | succ k ih => exact ih _ _ (mem_lineWrite s iid l _ e h)

theorem mem_parityLines (base n : Nat) (s : State) (l : Nat) (h : s.mem.wf = true) : (s.parityLines base l n).mem.wf = true := by
  induction n generalizing s l with
  | zero => exact h
  | succ n ih => exact ih _ _ (Mem.wf_puts _ _ _ h)

/-! ### A write and its twin's copy -/

theorem mem_svPump (s : State) (p : Nat) : (s.svPump p).mem = s.mem := by
  have k (l : List SvTx) (u : State) : (l.foldl (fun s m => s.emit (.svMsg p m)) u).mem = u.mem := by
    induction l generalizing u with
    | nil => rfl
    | cons x r ih => exact ih _
  unfold State.svPump
  dsimp only
  split
  · rfl
  · rw [k]; rfl

theorem mem_svStale (s : State) (p : Nat) (x : SvPort) :
    ((s.setSvPort p x).report 0xA031 (svIid p)).mem = s.mem := (onlyRegs_report _ _ _).mem

theorem mem_svQueue (s : State) (p : Nat) (m : SvTx) : (s.svQueue p m).mem = s.mem := by
  unfold State.svQueue
  extract_lets x s1
  generalize (m.msg.stale && s.svState p == 4 && !x.locked && decide (x.lostAt + 200000 * 256 ≤ s.hg.dt)) = c
  cases c with
  | false => exact mem_svPump _ p
  | true =>
    rw [if_pos rfl]
    cases x.staleSaid with
    | true => rfl
    | false => exact mem_svStale s1 p _

theorem mem_svSend (s : State) (d : Nat) (m : SvMsg) : (s.svSend d m).mem = s.mem := mem_svQueue _ _ _

theorem mem_mirrorSend (k : Nat) (s : State) (l n : Nat) : (s.mirrorSend l n k).mem = s.mem := by
  induction k generalizing s l n with
  | zero => rfl
  | succ k ih =>
    unfold State.mirrorSend
    split
    · rfl
    · rw [ih, mem_svSend]

theorem mem_degraded (s : State) (p : Prot) (a : Nat) : (s.degraded p a).mem = s.mem := by
  unfold State.degraded
  dsimp only
  generalize he : (if p.range < 16 then _ else _ : State) = u
  have hu : u.mem = s.mem := by
    rw [← he]; split <;> rfl
  split
  · exact hu
  · rw [(onlyRegs_report _ _ _).mem, hu]

theorem mem_mirror (s : State) (p : Prot) (a n : Nat) : (s.mirror p a n).mem = s.mem := by
  unfold State.mirror
  split
  · exact mem_mirrorSend _ _ _ _
  · exact mem_degraded _ _ _

/-- A checked write keeps the form. -/
theorem mem_dpaWrite (s : State) (iid a : Nat) (bs : List Byte) (e : MemErr) (twin : Bool) (h : s.mem.wf = true) :
    (s.dpaWrite iid a bs e twin).mem.wf = true := by
  unfold State.dpaWrite
  split
  · exact h
  · dsimp only
    have k := Mem.wf_puts bs _ a (mem_linesWrite iid a bs.length e ((a + bs.length - 1) / 64 - a / 64 + 1) _ (a / 64)
      (mem_reelSpan s a bs.length true h))
    split
    · split
      · exact mem_parityLines _ _ _ _ k
      · split
        · rw [mem_mirror]; exact k
        · exact k
    · exact k

theorem mem_reported (s : State) (h : s.mem.wf = true) : ((s.bump Reg.MEM_REEL_ERR_UE).report 0x5020 26).mem.wf = true := by
  rw [(onlyRegs_report _ _ _).mem]; exact h

theorem mem_fillFailed (s : State) (l : Nat) (h : s.mem.wf = true) :
    (((s.bump Reg.MEM_REEL_ERR_UE).report 0x5020 26).poisonLines l 256).mem.wf = true :=
  mem_poisonLines _ _ _ (mem_reported s h)

theorem mem_reelFilled (s : State) (l : Nat) (ok : Bool) (h : s.mem.wf = true) : (s.reelFilled l ok).mem.wf = true := by
  have e : ({ s with mem := { s.mem with filling := s.mem.filling.filter (· != l) } } : State).mem.wf = true := h
  unfold State.reelFilled
  split
  · exact h
  · dsimp only
    split
    · exact e
    · exact mem_fillFailed _ _ e

theorem mem_reelFlushed (s : State) (h : s.mem.wf = true) : s.reelFlushed.mem.wf = true := by
  unfold State.reelFlushed
  split
  · exact h
  · exact s.mem.wf_clean _ h

theorem mem_loseCache (s : State) (h : s.mem.wf = true) : s.loseCache.mem.wf = true := Mem.wf_toReels _ _ (s.mem.wf_clean _ h)

/-! ### The Frame Store -/

theorem spWf_clearBad (m : Sparse Bool) (w n : Nat) (h : spWf (fun _ => false) m = true) :
    spWf (fun _ => false) (clearBad m w n) = true ∧ ∀ p ∈ clearBad m w n, p ∈ m := by
  induction m with
  | nil => exact ⟨rfl, by simp [clearBad]⟩
  | cons x r ih =>
    obtain ⟨h1, h2, h3⟩ := spWf_cons.1 h
    obtain ⟨i1, i2⟩ := ih h3
    unfold clearBad
    split
    · exact ⟨i1, fun p hp => List.mem_cons_of_mem _ (i2 p hp)⟩
    · refine ⟨spWf_cons.2 ⟨h1, fun p hp => h2 p (i2 p hp), i1⟩, fun p hp => ?_⟩
      rcases List.mem_cons.1 hp with rfl | hp
      · exact List.mem_cons_self
      · exact List.mem_cons_of_mem _ (i2 p hp)

/-- A write into the Frame Store keeps its form. -/
theorem fs_fsWrite (s : State) (iid a : Nat) (bs : List Byte) (bad : List Nat) (h : Memory.wf s = true) :
    Memory.wf (s.fsWrite iid a bs bad) = true := by
  have kr (l : List Nat) (u : State) : OnlyRegs u (l.foldl (fun s _ => s.report 0x5012 iid) u) := by
    induction l generalizing u with
    | nil => exact .refl u
    | cons x r ih => exact (onlyRegs_report u _ _).trans (ih _)
  simp only [Memory.wf, Bool.and_eq_true] at h ⊢
  obtain ⟨⟨h1, h2⟩, h3⟩ := h
  unfold State.fsWrite
  dsimp only
  refine ⟨⟨?_, ?_⟩, spWf_foldPut _ _ _ _ ?_⟩
  · rw [(kr _ _).mem]; exact h1
  · rw [(kr _ _).fs]; exact spWf_spPuts _ _ _ h2
  · rw [(kr _ _).fsBad]; exact (spWf_clearBad _ _ _ h3).1

/-! ### A byte reads back -/

theorem byteAt_put (s : State) (a j : Nat) (b : Byte) :
    ({ s with mem := s.mem.put a b } : State).byteAt j = if a = j then b else s.byteAt j := by
  unfold State.byteAt Mem.put
  by_cases ha : isReel a = true <;> by_cases hj : isReel j = true <;> by_cases e : a = j
  all_goals simp_all [spGet_spPut]
  split <;> simp_all

/-- A run of bytes leaves every byte outside it unchanged. -/
theorem byteAt_puts_out (bs : List Byte) (s : State) (a j : Nat) (h : j < a ∨ a + bs.length ≤ j) :
    ({ s with mem := s.mem.puts a bs } : State).byteAt j = s.byteAt j := by
  induction bs generalizing s a with
  | nil => rfl
  | cons b r ih =>
    simp only [List.length_cons] at h
    have k := ih { s with mem := s.mem.put a b } (a + 1) (by omega)
    rw [byteAt_put, if_neg (by omega)] at k
    exact k

/-- A run of bytes reads back. -/
theorem byteAt_puts_in (bs : List Byte) (s : State) (a i : Nat) (h : i < bs.length) :
    ({ s with mem := s.mem.puts a bs } : State).byteAt (a + i) = bs.getD i 0 := by
  induction bs generalizing s a i with
  | nil => simp at h
  | cons b r ih =>
    cases i with
    | zero =>
      have k := byteAt_puts_out r { s with mem := s.mem.put a b } (a + 1) a (by omega)
      rw [byteAt_put, if_pos rfl] at k
      exact k
    | succ i =>
      have k := ih { s with mem := s.mem.put a b } (a + 1) i (by simpa using h)
      rw [show a + 1 + i = a + (i + 1) by omega] at k
      exact k

theorem reset_memory_wf : Memory.wf State.reset = true := by decide

end Sys2Proof.Machine
end

