-- ==== Sys2Proof/WellFormed.lean ====
section
/-! DEFINITION. Well-formed commands: the operands lie in the ranges that the spec's words, packets and messages have. -/

namespace Sys2Proof

/-- The bundle of a syllable (R308). -/
def Instr.issue : Instr → Option Issue
  | .ctlAdd x _ _ _ => some x
  | .ctlSub x _ _ _ => some x
  | .ctlMul x _ _ _ => some x
  | .ctlAnd x _ _ _ => some x
  | .ctlOr x _ _ _ => some x
  | .ctlXor x _ _ _ => some x
  | .ctlShl x _ _ _ => some x
  | .ctlShr x _ _ _ => some x
  | .ctlSra x _ _ _ => some x
  | .ctlAddi x _ _ => some x
  | .ctlMovi x _ _ => some x
  | .ctlMovhi x _ _ => some x
  | .ctlCmpEq x _ _ _ => some x
  | .ctlCmpLt x _ _ _ => some x
  | .ctlCmpLtu x _ _ _ => some x
  | .ctlPlog x _ _ _ _ => some x
  | .ctlBr x _ => some x
  | .ctlLoop x _ _ => some x
  | .ctlEnd x => some x
  | .ctlWaitturn x => some x
  | .ctlCkpt x _ => some x
  | .ctlFence x => some x
  | .ctlTdld x _ _ _ => some x
  | .ctlTdadd x _ _ => some x
  | .ctlFlags x _ _ => some x
  | .ctlHclr x _ => some x
  | .ctlSreg x _ _ => some x
  | .ldT x _ _ _ _ _ => some x
  | .shfT x _ _ _ _ => some x
  | .ldV x _ _ _ _ => some x
  | .ldS x _ _ _ _ => some x
  | .kvGather x _ _ _ _ _ _ => some x
  | .mma x _ _ _ _ _ => some x
  | .mmaAtt x _ _ _ _ _ _ => some x
  | .ndlClr x _ _ => some x
  | .prlAdd x _ _ _ _ => some x
  | .prlSub x _ _ _ _ => some x
  | .prlMul x _ _ _ _ => some x
  | .prlFma x _ _ _ _ _ => some x
  | .prlDiv x _ _ _ _ => some x
  | .prlSqrt x _ _ _ => some x
  | .prlMin x _ _ _ _ => some x
  | .prlMax x _ _ _ _ => some x
  | .prlAbs x _ _ _ => some x
  | .prlNeg x _ _ _ => some x
  | .prlMov x _ _ _ => some x
  | .prlCmpEq x _ _ _ _ => some x
  | .prlCmpLt x _ _ _ _ => some x
  | .prlCmpLe x _ _ _ _ => some x
  | .prlSel x _ _ _ _ _ => some x
  | .prlExp2 x _ _ _ => some x
  | .prlRedSum x _ _ _ => some x
  | .prlRedMax x _ _ _ => some x
  | .prlCvt x _ _ _ _ _ => some x
  | .prlBcast x _ _ _ => some x
  | .prlRdacc x _ _ _ _ => some x
  | .prlLane x _ _ _ _ => some x
  | .stT x _ _ _ _ _ _ => some x
  | .stTV x _ _ _ _ _ => some x
  | .stS x _ _ _ _ => some x
  | .stHist x _ _ _ _ => some x
  | .kvAppend x _ _ _ _ _ _ => some x
  | .syncSig x _ _ => some x
  | .syncWait x _ _ => some x
  | .tokRecv x _ _ _ _ => some x
  | .tokSend x _ _ _ _ _ => some x
  | .tokCredit x _ _ => some x
  | .laceStep x _ _ _ _ => some x
  | .laceLearn x _ _ => some x
  | .laceCommitSyllable x => some x
  | _ => none

/-- The START and END fields of a Selvedge message (R562). -/
def Instr.head : Instr → Option SvHead
  | .badMsg m _ => some m
  | .hello m _ _ _ _ _ => some m
  | .heartbeat m _ _ _ _ _ _ _ => some m
  | .time m _ _ _ _ => some m
  | .handover m _ _ => some m
  | .notice m _ _ => some m
  | .detach m => some m
  | .mirrorWr m _ _ _ => some m
  | .mirrorAck m _ _ => some m
  | .poolRd m _ _ _ _ => some m
  | .poolRdData m _ _ _ => some m
  | .poolWr m _ _ _ _ => some m
  | .poolWrAck m _ => some m
  | .ringBlock m _ _ _ _ _ => some m
  | .blockFetch m _ _ => some m
  | _ => none

/-- A bundle lists at most eight slots (R308). -/
def Issue.wf (x : Issue) : Bool := decide (x.bundle.length ≤ 8)

/-- START.LEN is at most 64 data blocks, and the hops taken fill three bits (R562). -/
def SvHead.wf (m : SvHead) : Bool := decide (m.len ≤ 64 ∧ m.hops < 8)

/-- The lengths of a CAN frame's data (R128, R131). -/
def CanFrame.wf (f : CanFrame) : Bool :=
  decide (f.data.length ≤ 8) || (f.fdf && [12, 16, 20, 24, 32, 48, 64].contains f.data.length)

/-- An offset of the control window (R530), and a width that a host can access with (R34 refuses some). -/
def busWf (off size : Nat) : Bool := decide (off < 2 ^ 26) && [1, 2, 4, 8].contains size

/-- Whole 64-byte lines, `n` at most (R563). -/
def linesWf (n : Nat) (bs : List Byte) : Bool := bs.length % 64 == 0 && decide (1 ≤ bs.length ∧ bs.length ≤ 64 * n)

/-- The operands beside a bundle or a message head. -/
def Instr.operands : Instr → Bool
  | .registerWrite _ off size _ => busWf off size
  | .loReadLatch _ off size => busWf off size
  | .rcRead _ off => busWf off 4
  | .ethFrameReceive f _ => decide (14 ≤ f.length)
  | .ethFrameTransmit f _ => decide (14 ≤ f.length)
  | .longPacket _ _ _ d _ _ _ => decide (d.length < 2 ^ 16)
  | .imuReadComplete _ d => decide (d.length ≤ 32)
  | .canFrameReceive _ f => f.wf
  | .scrubLine l _ => decide (l < 2 ^ 30)
  | .poolWindowAccess _ off wr len d _ _ =>
    decide (off < 2 ^ 34 ∧ 1 ≤ len ∧ off % 4096 + len ≤ 4096) && (d.length == if wr then len else 0)
  | .mirrorWr _ _ ls _ => linesWf 7 ls
  | .poolWr _ _ ls _ _ => linesWf 7 ls
  | .poolRdData _ d p _ => d.isEmpty || (linesWf 7 d && p.length == d.length / 64)
  | .rulesetDoorbell b => decide (b.length ≤ 65536)
  | .thermalSample die _ p => die.length == 8 && decide (p < 2 ^ 32)
  | .wearLevel a b => decide (a ≤ 100 ∧ b ≤ 100)
  | _ => true

/-- A well-formed command. -/
def Instr.wf (i : Instr) : Bool :=
  (i.issue.map Issue.wf).getD true && (i.head.map SvHead.wf).getD true && i.operands

end Sys2Proof
end

