-- ==== Sys2Proof/Tests/Slice0.lean ====
section
/-! SUPPORT. This model's own tests: ill-formed commands are refused by name, each hypothesis of a statement is met by a concrete
state (wit_…), and small commands give what the spec's text and tables say (test_…). -/

namespace Sys2Proof.Tests

open Sys2Proof.Machine Reg

/- One kernel evaluation at a time: together they would fill the memory. -/
set_option Elab.async false

/-! ### Helpers -/

/-- A state with these registers. -/
def wr (l : List (Nat × Nat)) (s : State) : State := l.foldl (fun s p => s.setReg p.1 (BitVec.ofNat 32 p.2)) s

/-- A state with these fields. -/
def fl (l : List (Fld × Nat)) (s : State) : State := l.foldl (fun s p => s.put p.1 p.2) s

/-- The command answers a next state in which `p` holds. -/
def runs (c : Instr) (s : State) (p : State → Bool) : Bool :=
  match exec c s with
  | .next t => p t
  | _ => false

/-- The state that a command answers. -/
def after (c : Instr) (s : State) : State :=
  match exec c s with
  | .next t => t
  | _ => s

/-- The state right after reset. -/
abbrev z : State := State.reset

/-- The value last sent out to a reader. -/
def lastRead (s : State) : Option (BitVec 64) :=
  match s.outbox with
  | .readData _ _ v :: _ => some v
  | _ => none

/-- A state in which every Initiator ID may read and write the page of a register. -/
def opened (off : Nat) (s : State) : State := wr [(0xC10000 + 8 * (off / 4096), 0xFFFFFFF), (0xC10004 + 8 * (off / 4096), 0xFFFFFFF)] s

/-- A message head: from device 1 to device 0, next in both orders after reset. -/
def hd (port : Fin 2) (bcast : Bool) : SvHead := ⟨port, 1, 0, bcast, 0, 1, 0, 0, true⟩

/-- All of these hold. -/
def allTrue (l : List Bool) : Bool := l.all id

/-- Device Time runs, one second after its start. -/
def zr : State := { z with hg := { z.hg with running := true, dt := 256 * 10 ^ 9 } }

/-! ### Well-formedness refuses -/

/-- A bundle of nine slots, and a head of 65 blocks or eight hops. -/
def nine : Issue := { (default : Issue) with bundle := List.replicate 9 0 }

theorem test_wf_bundle : (Instr.ctlEnd nine).wf = false := by decide
theorem test_wf_len : (Instr.detach { hd 0 false with len := 65 }).wf = false := by decide
theorem test_wf_hops : (Instr.detach { hd 0 false with hops := 8 }).wf = false := by decide
theorem test_wf_offset : (Instr.registerWrite 9 (2 ^ 26) 4 0).wf = false := by decide
theorem test_wf_size : (Instr.registerWrite 9 0 3 0).wf = false := by decide
theorem test_wf_latch : (Instr.loReadLatch 9 (2 ^ 26) 4).wf = false ∧ (Instr.rcRead 9 (2 ^ 26)).wf = false := by decide
theorem test_wf_frame : (Instr.ethFrameReceive (List.replicate 13 0) true).wf = false ∧
    (Instr.ethFrameTransmit (List.replicate 13 0) true).wf = false := by decide
theorem test_wf_packet (d : List Byte) (h : d.length = 2 ^ 16) : (Instr.longPacket 0 0 0x2A d true .ok .none).wf = false := by
  simp [Instr.wf, Instr.operands, h]
theorem test_wf_imu : (Instr.imuReadComplete 0 (List.replicate 33 0)).wf = false := by decide
theorem test_wf_can : (Instr.canFrameReceive 0 { (default : CanFrame) with data := List.replicate 9 0, fdf := true }).wf = false := by decide
theorem test_wf_scrub : (Instr.scrubLine (2 ^ 30) .ok).wf = false := by decide
theorem test_wf_window : (Instr.poolWindowAccess 0 4000 false 97 [] false .none).wf = false ∧
    (Instr.poolWindowAccess 0 0 true 4 [1] false .none).wf = false := by decide
theorem test_wf_lines : (Instr.mirrorWr (hd 0 false) 0 (List.replicate 63 0) .none).wf = false ∧
    (Instr.poolWr (hd 0 false) 0 (List.replicate 512 0) 0 .none).wf = false ∧
    (Instr.poolRdData (hd 0 false) (List.replicate 64 0) [] 0).wf = false := by decide +kernel
theorem test_wf_ruleset (b : List Byte) (h : b.length = 65537) : (Instr.rulesetDoorbell b).wf = false := by
  simp [Instr.wf, Instr.operands, h]
theorem test_wf_thermal : (Instr.thermalSample [0] [0] 0).wf = false := by decide
theorem test_wf_wear : (Instr.wearLevel 101 0).wf = false := by decide
theorem test_wf_ok : (Instr.registerWrite 9 0 4 0).wf = true ∧ (Instr.detach (hd 0 false)).wf = true ∧
    (Instr.mirrorWr (hd 0 false) 0 (List.replicate 448 0) .none).wf = true := by decide +kernel

/-! ### Witnesses: registers -/

theorem wit_StepRunsFrontCommand : z.pending = [] := by decide

theorem wit_BootInvariantKept : BootInv z ∧ (runs (.ctlEnd default) z fun _ => true) = true := by
  exact ⟨⟨by decide, by decide, by decide⟩, by decide +kernel⟩

theorem wit_LockClearsOnlyAtReset_set :
    runs (.configLock 9 1) z (fun t => z.boot.lock == false && t.boot.lock) = true := by decide +kernel

theorem wit_LockClearsOnlyAtReset_clear :
    runs (.warmReset none) { z with boot := { z.boot with lock := true, stage := 5 } } (fun t => !t.boot.lock) = true := by
  decide +kernel
theorem wit_FuseRisesOnlyByRollbackCommit :
    runs (.rollbackCommit 2 1) { opened MC_BOOT_CTL (fl [(MC_PWR_OWNER_VALID, 1), (MC_PWR_OWNER_TENANT, 2)] z) with boot := { rollback := 5, fuse := 3 } }
      (fun t => t.boot.fuse == 5) = true := by decide +kernel

theorem wit_WrongWidthAccessRefused : widthOk 0 2 = false ∧ widthOk 2 4 = false ∧ widthOk 4 8 = false ∧
    runs (.loReadLatch 9 2 4) z (fun t => t.reg GLB_FAULT_LAST == 0x99001 && lastRead t == some 0) = true := by decide +kernel

theorem wit_ReservedInitiatorRefused :
    runs (.registerWrite 28 0x100000 4 1) z (fun t => t.reg GLB_FAULT_LAST == 0x1C9007) = true ∧
    runs (.rcRead 63 0x100000) z (fun t => t.reg GLB_FAULT_LAST == 0x3F9007) = true := by decide +kernel

theorem wit_UnassignedOffsetRefused : isSquare 0xC00010 = false ∧ regRow 0xC00010 = none ∧ widthOk 0xC00010 4 = true ∧
    z.pageOk 9 0xC00010 true = true ∧ z.pageOk 9 0xC00010 false = true ∧ widthOk 0xC00010 1 = false ∧
    z.pageOk 3 0xC00010 true = false ∧ regRow 0x900F00 = none ∧ isSquare 0x900F00 = false ∧ z.pageOk 3 0x900F00 false = false := by
  decide +kernel

theorem wit_PageClassAndIndexRefusals : (regRow MEM_SCRUB_CFG).isSome = true ∧ z.pageOk 3 MEM_SCRUB_CFG false = false ∧
    z.pageOk 3 MEM_SCRUB_CFG true = false ∧ z.pageOk 3 (AT_TEN_CTL 2) true = true ∧
    ((regRow (AT_TEN_CTL 2)).map fun r => z.classOk 3 (AT_TEN_CTL 2) r && !z.indexOk 3 (AT_TEN_CTL 2) true r) = some true ∧
    z.pageOk 3 (AT_TEN_CTL 2) false = true ∧
    ((regRow (AT_TEN_CTL 2)).map fun r => z.indexOk 3 (AT_TEN_CTL 2) false r) = some false := by decide +kernel

theorem wit_RefusedAccessesHaveNoEffect : z.regCheck 3 (AT_FAULT_INFO 2) 4 false = some 0x9005 ∧
    z.regCheck 3 (SV_PORT_CTL 0) 4 true = some 0x9004 ∧ z.regCheck 40 TK_CLAIM 4 false = some 0x9007 := by decide +kernel

theorem wit_LockedRegisterWriteIgnored : z.regCheck 9 (HI_FENCE_FIRST 0) 4 true = none ∧
    ((regRow (HI_FENCE_FIRST 0)).map fun r => r.lk != 0) = some true ∧ isStart (HI_FENCE_FIRST 0) = false ∧
    ((regRow (HI_PWIN_BASE 0)).map fun r => (r.half, r.ranges.isEmpty, r.st)) = some (none, true, 0) ∧
    runs (.registerWrite 9 (HI_PWIN_BASE 0) 4 5) z (fun t => t.reg (HI_PWIN_BASE 0) == 5) = true ∧
    runs (.registerWrite 9 (HI_FENCE_FIRST 0) 4 5) { z with boot := { lock := true, stage := 5 } }
      (fun t => t.reg (HI_FENCE_FIRST 0) == z.reg (HI_FENCE_FIRST 0) && t.reg GLB_FAULT_LAST == 0x99002) = true := by decide +kernel

theorem wit_FaultClearAndReport : z.writeOk 9 GLB_FAULT_CLEAR = true ∧ z.ref.running = false ∧
    runs (.glbFaultClear 9 1) (z.report 0x1001 9) (fun t => t.reg GLB_FAULT_FIRST == 0 && t.reg GLB_FAULT_LAST == 0x91001) = true := by
  decide +kernel

theorem wit_LowHalfReadLatchesHighHalf : z.readOk 3 HG_TURN_NUM_LO = true ∧ latchList HG_TURN_NUM_LO = [HG_TURN_NUM_LO + 4] ∧
    isLatched HG_TURN_NUM_LO = false ∧ (regRow HG_TURN_NUM_LO).map (fun r => (r.half, r.rc, r.wo)) = some (some false, 0, 0) ∧
    (after (.loReadLatch 3 HG_TURN_NUM_LO 4) z).readOk 3 HG_TURN_NUM_HI = true ∧
    spGet (fun _ => none) (after (.loReadLatch 3 HG_TURN_NUM_LO 4) z).latch (State.latchKey HG_TURN_NUM_HI 3) = some 0 := by
  decide +kernel

theorem wit_RcReadReturnsThenClears : z.readOk 9 GLB_FAULT_COUNT = true ∧ z.readOk 9 HI_DENY_CNT = true ∧
    runs (.rcRead 9 GLB_FAULT_COUNT) (wr [(GLB_FAULT_COUNT, 7)] z) (fun t => t.reg GLB_FAULT_COUNT == 0 && lastRead t == some 7) = true := by
  decide +kernel

theorem wit_PairIsPlacedInOneInstant : z.writeOk 9 HG_TURN_EPOCH_LO = true ∧ z.writeOk 9 HG_TURN_EPOCH_HI = true ∧
    z.is HG_TURN_CTL_ACTIVE = false ∧ (fl [(HG_TURN_CTL_ACTIVE, 1)] z).is HG_TURN_CTL_ACTIVE = true ∧
    (fl [(HG_TURN_CTL_ACTIVE, 1)] z).writeOk 9 HG_TURN_EPOCH_HI = true ∧ z.regCheck 9 HG_TURN_PER_LO 8 true = none ∧
    runs (.registerWrite 9 HG_TURN_EPOCH_HI 4 2) (after (.registerWrite 9 HG_TURN_EPOCH_LO 4 5) z)
      (fun t => t.pair HG_TURN_EPOCH_LO == 2 * 2 ^ 32 + 5) = true ∧
    runs (.registerWrite 9 HG_TURN_PER_LO 8 2133333333) z (fun t => t.pair HG_TURN_PER_LO == z.pair HG_TURN_PER_LO) = true ∧
    runs (.registerWrite 9 HG_TURN_PER_LO 8 2133333334) z (fun t => t.pair HG_TURN_PER_LO == 2133333334) = true := by decide +kernel

/-! ### Witnesses: time and turns -/

/-- Turns armed: epoch two seconds from the start of Device Time, the largest period. -/
def zArm : State := fl [(HG_TURN_CTL_RUN, 1), (HG_TURN_CTL_ACTIVE, 1)] (wr [(HG_TURN_EPOCH_LO, 2000000000)] zr)

/-- Turns run. -/
def zTurn : State := fl [(HG_TURN_CTL_STARTED, 1)] { zArm with hg := { zArm.hg with nextTurn := 3 } }

/-- Domain 1 runs in INC mode; the active domain is 0. -/
def zDom : State := fl [(HG_DOM_CFG_EN 1, 1)] zr

theorem wit_DeviceTimeReadIsOneInstant : allTrue [z.readOk 3 HG_DT_LO,
    runs (.deviceTimeRead 3) zr fun t => lastRead t == some 1000000000] = true := by decide +kernel

theorem wit_EpochNetworkAndBackupReads : allTrue [z.readOk 3 HG_EPOCH_NT_NS, z.readOk 3 (HG_DOM_NT_NS 0), z.readOk 3 (HG_DOM_NT_NS 1),
    z.readOk 3 HG_BK_SEC, runs (.backupSecRead 9) { z with hg := { z.hg with bkSec := 7 } } fun t => lastRead t == some 7] = true := by
  decide +kernel

theorem wit_DeviceTimeAndReference : allTrue [z.hg.running == false, zr.hg.running,
    runs .deviceTimeStart z fun t => t.hg.running && t.hg.dt == 0,
    runs .refLockReturn (fl [(HG_STATUS_HOLDOVER, 1)] zr) fun t => !t.is HG_STATUS_HOLDOVER] = true := by decide +kernel

theorem wit_TurnsArmRunAndStop : allTrue [z.writeOk 9 HG_TURN_CTL, z.is HG_TURN_CTL_ACTIVE == false,
    (wr [(HG_TURN_EPOCH_LO, 2000000000)] zr).hg.dt + 100000 * 256 ≤ (wr [(HG_TURN_EPOCH_LO, 2000000000)] zr).pair HG_TURN_EPOCH_LO * 256,
    zr.pair HG_TURN_EPOCH_LO * 256 < zr.hg.dt + 100000 * 256, zArm.is HG_TURN_CTL_ACTIVE, zArm.writeOk 9 HG_TURN_CTL,
    zTurn.is HG_TURN_CTL_STARTED, zTurn.writeOk 9 HG_TURN_CTL, zArm.is HG_TURN_CTL_STARTED == false, zArm.track.commit == none,
    (fl [(HG_TURN_CTL_RUN, 0)] zTurn).is HG_TURN_CTL_RUN == false, (fl [(HG_TURN_CTL_RUN, 0)] zTurn).is HG_TURN_CTL_STARTED,
    runs (.turnRun 9) (wr [(HG_TURN_EPOCH_LO, 2000000000)] zr) fun t => t.is HG_TURN_CTL_RUN && t.is HG_TURN_CTL_ACTIVE,
    runs (.turnRun 9) (wr [(HG_TURN_EPOCH_LO, 1000099999)] zr) fun t => t.reg GLB_FAULT_LAST == 0x91002,
    runs (.turnStop 9) zTurn fun t => !t.is HG_TURN_CTL_RUN && t.is HG_TURN_CTL_ACTIVE,
    runs .turnEndStop (fl [(HG_TURN_CTL_RUN, 0)] zTurn) fun t => !t.is HG_TURN_CTL_ACTIVE] = true := by decide +kernel

theorem wit_DomainsEnableAndSelect : allTrue [z.get HG_OWNER_IID == 9, z.writeOk 9 (HG_DOM_CFG 1), z.is (HG_DOM_CFG_MODE 1) == false,
    z.is (HG_DOM_CFG_EN 1) == false, z.actDom == 0, z.hg.pendAct == none, z.turnsRun == false, zDom.is (HG_DOM_CFG_EN 1),
    z.writeOk 9 HG_ACTIVE, zTurn.is HG_TURN_CTL_ACTIVE, (fl [(HG_DOM_CFG_EN 1, 1)] zTurn).is (HG_DOM_CFG_EN 1),
    (fl [(HG_OWNER_IID, 3)] z).writeOk 9 HG_ACTIVE, (fl [(HG_OWNER_IID, 3)] z).get HG_OWNER_IID == 3,
    runs (.domainEnable 9 0 1) z fun t => t.is (HG_DOM_CFG_EN 0) && t.domLetter == 0x41,
    runs (.domainDisable 9 1 0) zDom fun t => !t.is (HG_DOM_CFG_EN 1),
    runs (.hgActiveWrite 9 1) zDom fun t => t.hg.act && t.is HG_ACTIVE_DOM,
    runs (.hgActiveWrite 9 1) (fl [(HG_DOM_CFG_EN 1, 1)] zTurn) fun t => t.is HG_ACTIVE_PENDING && !t.hg.act,
    runs (.hgActiveWrite 9 1) z fun t => t.reg GLB_FAULT_LAST == 0x9100C,
    runs (.hgActiveWrite 9 1) (fl [(HG_OWNER_IID, 3)] z) fun t => t.reg GLB_FAULT_LAST == 0x9100D] = true := by decide +kernel

theorem wit_ServoAndIncModes : allTrue [z.writeOk 9 (HG_DOM_ADJ 0), z.writeOk 9 HG_SLEW_LIM,
    (fl [(HG_DOM_CFG_MODE 0, 1)] z).is (HG_DOM_CFG_MODE 0), (fl [(HG_DOM_CFG_MODE 0, 1)] z).writeOk 9 (HG_DOM_CFG 0),
    runs (.servoModeEnter 9 0 4) z fun t => t.is (HG_DOM_CFG_MODE 0),
    runs (.incModeEnter 9 0 0) (fl [(HG_DOM_CFG_MODE 0, 1)] z) fun t => !t.is (HG_DOM_CFG_MODE 0),
    runs (.hgSlewLimWrite 9 1953) z fun t => t.reg HG_SLEW_LIM == 1953,
    runs (.hgSlewLimWrite 9 1954) z fun t => t.reg GLB_FAULT_LAST == 0x91003,
    runs (.hgSlewLimWrite 9 0) z fun t => t.reg GLB_FAULT_LAST == 0x91003,
    runs (.hgDomAdjWrite 9 0 5) z fun t => t.reg (HG_DOM_ADJ 0) == 5] = true := by decide +kernel

/-- Domain 1 with a sample of 7 ns waiting. -/
def zSample (θ : Int) : State := zDom.setDom 1 { zDom.dom 1 with samples := [θ] }

/-- Domain 1 slews 1 ns. -/
def zSlew : State := fl [(HG_DOM_STAT_SLEWING 1, 1)] (zDom.setDom 1 { zDom.dom 1 with rem := 2 ^ 40 })

theorem wit_SamplesStepOrSlew : allTrue [z.writeOk 9 (HG_DOM_MEAS_HI 1), ((zSample 7).dom 1).samples == [7],
    7 ≤ ((zSample 7).reg HG_STEP_THR).toNat * 1000, (zSample 7).is (HG_DOM_CFG_MODE 1) == false,
    ((zSample (10 ^ 12)).reg HG_STEP_THR).toNat * 1000 < 10 ^ 12, (zSample (10 ^ 12)).stepFits 1 (10 ^ 12),
    (zSample 7).ref.running == false, zSlew.is (HG_DOM_STAT_SLEWING 1), (zSlew.dom 1).rem != 0, 0 < zSlew.amort 1,
    zSlew.is (HG_DOM_CFG_EN 1), zSlew.hg.running,
    runs (.sampleSubmit 9 1 0) zDom fun t => (t.dom 1).samples.length == 1,
    runs (.sampleApply 1) (zSample 7) fun t => (t.dom 1).rem == 7 * 2 ^ 40 && t.is (HG_DOM_STAT_SLEWING 1),
    runs (.sampleApply 1) (zSample (10 ^ 12)) fun t => (t.dom 1).ofs == 10 ^ 12 * 2 ^ 40 && t.reg GLB_FAULT_LAST == 0x91007,
    runs (.slewComplete 1) zSlew fun t => (t.dom 1).rem == 0 && !t.is (HG_DOM_STAT_SLEWING 1)] = true := by decide +kernel

/-! ### Witnesses: triggers, captures, backup -/

/-- Trigger 2 is an armed one-shot whose target lies 1 µs ahead. -/
def zShot : State :=
  let s := fl [(HG_TRIG_CFG_MODE 2, 1), (HG_TRIG_CFG_ARM 2, 1)] (wr [(HG_TRIG_CMP_LO 2, 1000001000)] zr)
  s.setTrig 2 { s.trig 2 with armed := true }

/-- Trigger 2 is an armed periodic one, next one period of 4096 units ahead. -/
def zPer : State :=
  let s := fl [(HG_TRIG_CFG_MODE 2, 2), (HG_TRIG_CFG_ARM 2, 1)] (wr [(HG_TRIG_PER_LO 2, 4096)] zr)
  s.setTrig 2 { s.trig 2 with armed := true, last := some (256 * 10 ^ 9), next := some (256 * 10 ^ 9 + 4096) }

theorem wit_OneShotTriggers : allTrue [z.writeOk 9 (HG_TRIG_CFG 2), z.is (HG_TRIG_CFG_ARM 2) == false,
    (wr [(HG_TRIG_CMP_LO 2, 1000001000)] zr).writeOk 9 (HG_TRIG_CFG 2),
    cmpDiff (wr [(HG_TRIG_CMP_LO 2, 1000001000)] zr).now ((wr [(HG_TRIG_CMP_LO 2, 1000001000)] zr).trigCmp 2) < 0,
    (0 : Int) ≤ cmpDiff zr.now (zr.trigCmp 2), (zr.trig 2).pulseEnd == none, zShot.get (HG_TRIG_CFG_MODE 2) == 1,
    (zShot.trig 2).armed, cmpDiff zShot.now (zShot.trigCmp 2) < 0, z.writeOk 9 (HG_TRIG_CMP_HI 2), (z.trig 2).armed == false,
    ((after (.triggerEdge 2) zShot).trig 2).pulseEnd.isSome, (after (.triggerEdge 2) zShot).sv.oeLate.testBit 2 == false,
    runs (.triggerArm 9 2 9) zr fun t => t.is (HG_TRIG_STAT_LATE 2) && t.reg GLB_FAULT_LAST == 0x91004,
    runs (.triggerArm 9 2 9) (wr [(HG_TRIG_CMP_LO 2, 1000001000)] zr) fun t => t.is (HG_TRIG_CFG_ARM 2) && (t.trig 2).armed,
    runs (.triggerEdge 2) zShot fun t => t.hg.dt == 1000001000 * 256 && !t.is (HG_TRIG_CFG_ARM 2) && t.get (HG_TRIG_STAT_FIRED 2) == 1,
    runs (.triggerPulseEnd 2) (after (.triggerEdge 2) zShot) fun t => (t.trig 2).pulseEnd == none] = true := by decide +kernel

theorem wit_PeriodicTriggers : allTrue [zPer.get (HG_TRIG_CFG_MODE 2) == 2, (zPer.trig 2).next == some (256 * 10 ^ 9 + 4096),
    zPer.now < nearestNs (256 * 10 ^ 9 + 4096), 2048 ≤ zPer.trigPer 2, (zPer.trig 2).pulseEnd == none,
    zPer.writeOk 9 (HG_TRIG_PER_HI 2), z.pairValue 9 (HG_TRIG_PER_LO 2) 0 < 2048,
    zPer.pairValue 9 (HG_TRIG_PER_LO 2) 0 == 4096, (zPer.trig 2).last == some (256 * 10 ^ 9),
    runs (.triggerEdge 2) zPer fun t => t.now == 1000000016 && (t.trig 2).next == some (256 * 10 ^ 9 + 8192),
    runs (.triggerPeriodWrite 9 2 0) z fun t => t.reg GLB_FAULT_LAST == 0x91003,
    runs (.triggerPeriodWrite 9 2 1) zPer fun t => t.pair (HG_TRIG_PER_LO 2) == 2 ^ 32 + 4096] = true := by decide +kernel

/-- Capture 0 takes rising edges of at least 10 cycles. -/
def zCap : State := fl [(HG_CAP_CFG_EN 0, 1), (HG_CAP_CFG_FILT 0, 10)] zr

/-- Its FIFO is full. -/
def zCapFull : State :=
  after (.captureEdge 0 true 10) (after (.captureEdge 0 true 10) (after (.captureEdge 0 true 10) (after (.captureEdge 0 true 10) zCap)))

/-- A timestamp waits in each FIFO. -/
def zTs : State := { z with hg := { z.hg with tsTx := [default], tsRx := [default] } }

theorem wit_CapturesAndTimestamps : allTrue [zCap.is (HG_CAP_CFG_EN 0), zCap.get (HG_CAP_CFG_FILT 0) == 10,
    zCap.get (HG_CAP_CFG_EDGE 0) == 0, (spGet (fun _ => []) zCap.hg.caps 0).length < 4, 4 ≤ (spGet (fun _ => []) zCapFull.hg.caps 0).length,
    zCapFull.is (HG_CAP_CFG_EN 0), (fl [(HG_CAP_CFG_EDGE 0, 2)] zCap).get (HG_CAP_CFG_EDGE 0) == 2,
    (fl [(HG_CAP_CFG_EDGE 0, 1)] zCap).get (HG_CAP_CFG_EDGE 0) == 1, z.readOk 9 (HG_CAP_DT_LO 0), zCapFull.readOk 9 (HG_CAP_DT_LO 0),
    zTs.readOk 9 HG_TSRX_META, zTs.readOk 9 HG_TSTX_META, zTs.readOk 3 HG_TSRX_META, zTs.hg.tsTx.length == 1,
    runs (.captureEdge 0 true 9) zCap fun t => (spGet (fun _ => []) t.hg.caps 0).length == 0,
    runs (.captureEdge 0 true 10) zCapFull fun t => t.is (HG_CAP_STAT_OVF 0) && t.reg GLB_FAULT_LAST == 0x91006,
    runs (.capturePop 9 0) zCapFull fun t => lastRead t == some 1000000000 && t.is (HG_CAP_STAT_POPPED 0),
    runs (.tsFifoPop 9 true) zTs fun t => t.hg.tsRx.isEmpty && lastRead t == some 0x200000,
    runs (.tsFifoPop 3 true) zTs fun t => t.hg.tsRx.length == 1 && lastRead t == some 0] = true := by decide +kernel

theorem wit_BackupCounter : allTrue [z.writeOk 9 HG_BK_CTL, (opened HG_BK_CTL z).writeOk 8 HG_BK_CTL,
    runs (.backupLoad 9) (wr [(HG_BK_SET_SEC, 77)] z) fun t => t.hg.bkSec == 77,
    runs (.backupLoad 8) (opened HG_BK_CTL z) fun t => t.reg GLB_FAULT_LAST == 0x8100D,
    runs .backupPowerOn z fun t => t.is HG_BK_STAT_LOST] = true := by decide +kernel

/-! ### Witnesses: Spindle -/

/-- Stream 3 has two slots of 1 MiB from the start of the Frame Store: port 0, channel 0, RAW8 lines of 64 bytes. -/
def zStr : State :=
  fl [(SP_PORT_CFG_EN 0, 1), (SP_STR_FMT_LINE_STRIDE 3, 1), (SP_STR_SLOT_SIZE 3, 1), (SP_STR_SLOT_COUNT 3, 2), (SP_STR_GEOM_LINES 3, 2)] zr

/-- The same, enabled. -/
def zStrOn : State := after (.streamEnable 9 3 (BitVec.ofNat 32 (1 + 0x2A * 512))) zStr

/-- The same with a frame that lands. -/
def zOpen : State := after (.frameStart 0 0 7 .ok) zStrOn

/-- The same with no slot free. -/
def zNoSlot : State := zStrOn.setStream 3 { zStrOn.stream 3 with order := [] }

theorem wit_StreamsEnableAndDisable : allTrue [zStr.writeOk 9 (SP_STR_SRC 3), zStr.is (SP_STR_SRC_EN 3) == false,
    (zStr.setReg (SP_STR_SRC 3) (0x5401 &&& srcMask)).streamCfgOk 3, (z.setReg (SP_STR_SRC 3) (0x5401 &&& srcMask)).streamCfgOk 3 == false,
    z.is (SP_STR_SRC_EN 3) == false, zStrOn.is (SP_STR_SRC_EN 3), zStrOn.writeOk 9 (SP_STR_SRC 3),
    (0x5400 &&& srcMask) == (zStrOn.reg (SP_STR_SRC 3) &&& srcMask), (zStr.stream 3).opened == none,
    runs (.streamEnable 9 3 0x5401) zStr fun t => (t.stream 3).order == [0, 1] && t.reg (SP_STR_SRC 3) == 0x5401,
    runs (.streamEnable 9 3 0x5401) z fun t => !t.is (SP_STR_SRC_EN 3) && t.reg GLB_FAULT_LAST == 0x9200B,
    runs (.streamEnable 9 3 0x5403) zStrOn fun t => t.reg GLB_FAULT_LAST == 0x92008 && t.reg (SP_STR_SRC 3) == 0x5401,
    runs (.streamDisable 9 3 0x5400) zStrOn fun t => t.reg (SP_STR_SRC 3) == 0x5400] = true := by decide +kernel

theorem wit_FramesOpenAndClose : allTrue [zStrOn.is (SP_PORT_CFG_EN 0), zStrOn.streamsOf 0 0 64 == [(3, 0x2A)],
    (zStrOn.stream 3).opened == none, (zStrOn.stream 3).order == [0, 1], ((zStrOn.stream 3).slots.getD 0 {}).toJudge == false,
    zNoSlot.is (SP_PORT_CFG_EN 0), zNoSlot.streamsOf 0 0 64 == [(3, 0x2A)], (zNoSlot.stream 3).opened == none, zNoSlot.is (SP_STR_SRC_EN 3),
    (zNoSlot.stream 3).order == [], zOpen.streamsOf 0 0 64 == [(3, 0x2A)], (zOpen.stream 3).opened.isSome, zOpen.turnsRun == false,
    (zOpen.stream 3).slots.length == 2, zStrOn.streamsOf 0 1 64 == [],
    runs (.frameStart 0 0 7 .ok) zStrOn fun t => t.is (SP_STR_STAT_OPEN 3) && t.reg (SP_STR_SEQ 3) == 1,
    runs (.frameStart 0 0 7 .ok) zNoSlot fun t => t.reg (SP_STR_DROP 3) == 1 && t.reg GLB_FAULT_LAST == 0x102005,
    runs (.frameEnd 0 0 7 .ok) zOpen fun t => !t.is (SP_STR_STAT_OPEN 3) && t.reg GLB_FAULT_LAST == 0x102007,
    runs (.frameStart 0 1 7 .ok) zStrOn fun t => t.get (SP_PORT_ERR_UNMATCHED 0) == 1,
    runs (.frameStart 0 0 7 .uncorrectable) zStrOn fun t => t.reg GLB_FAULT_LAST == 0x102001] = true := by decide +kernel

theorem wit_LinesLandInTheFrameStore : allTrue [zOpen.is (SP_PORT_CFG_EN 0), dtSupported 0x2A,
    (zOpen.streamsOf 0 0 64).find? (fun q => q.2 == 0x2A) == some (3, 0x2A), zOpen.is WF_CTL_EN == false,
    (match (zOpen.stream 3).opened with
      | some (k, f) => f.format != 3 && f.format != 4 && k == 0 && bitsOf f.fmt.toNat 8 16 == 1 && decide (64 + f.rows * 64 + 64 ≤ f.cap) &&
          decide (f.addr + 64 + f.rows * 64 + 64 ≤ fsSize)
      | none => false),
    (zOpen.fsOthers 3 70).all (fun x => decide (x.1 + x.2 ≤ 64 ∨ 128 ≤ x.1)),
    runs (.longPacket 0 0 0x2A [1, 2, 3] true .ok .none) zOpen fun t => spGet fsUnset t.fs 64 == 1 && spGet fsUnset t.fs 66 == 3,
    runs (.phySync 0 false) zOpen fun t => t.get (SP_PORT_ERR_SYNC 0) == 1 && t.reg GLB_FAULT_LAST == 0x102003,
    runs (.phySync 0 true) zOpen fun t => t.get (SP_PORT_ERR_SYNC 0) == 0] = true := by decide +kernel

/-- A frame waits to be judged in slot 0 of stream 3. -/
def zWait : State := after (.frameEnd 0 0 7 .ok) zOpen

theorem wit_FramesAreJudgedOnce : allTrue [(match (zWait.stream 3).slots[0]? with | some sl => sl.toJudge && zWait.ofNoTurn sl.frame | none => false),
    zWait.ref.running == false, (match (zStrOn.stream 3).slots[0]? with | some sl => !sl.toJudge | none => false),
    { zWait with hg := { zWait.hg with run := 1 } }.ofNoTurn { turn := some (1, 1) },
    (fl [(HG_TURN_CTL_ACTIVE, 1), (HG_TURN_CTL_STARTED, 1)] zWait).ofNoTurn { turn := some (0, 1) } == false,
    leAt [4] 0 1 / 4 % 4 != 0, ({ flags := 0 } : SpFrame).flag 0 == false,
    runs (.frameJudge 3 0) zWait fun t => (t.stream 3).order == [1, 0] && (t.stream 3).pred.isSome] = true := by decide +kernel

/-- IMU slot 1 in DRDY mode. -/
def zImu : State := fl [(SP_IMU_CFG_EN 1, 1)] zr

/-- IMU slot 1 in PERIOD mode, next read 1 µs ahead. -/
def zImuPer : State :=
  let s := fl [(SP_IMU_CFG_EN 1, 1), (SP_IMU_CFG_SRC 1, 1)] (wr [(SP_IMU_PER 1, 1000)] zr)
  s.setImu 1 { s.imu 1 with next := some (1000001000 * 256) }

theorem wit_ImuReadsAndTimeouts : allTrue [z.writeOk 9 (SP_IMU_CFG 1), bitsOf 0x10003 8 3 ≤ 4, z.imuMode 1 true == false,
    zImu.imuMode 1 false, (zImu.imu 1).cur == none, ((after (.imuDrdyEdge 1) zImu).imu 1).cur.isSome,
    (after (.imuDrdyEdge 1) zImu).imuMode 1 false, (zImuPer.imu 1).next == some (1000001000 * 256), (zImuPer.imu 1).cur == none,
    zImuPer.hg.running, zImuPer.hg.dt ≤ 1000001000 * 256, (zImu.imu 1).said == false, zImu.get (SP_IMU_CFG_READ_LEN 1) + 1 == 1,
    runs (.imuEnable 9 1 0x10003) zr fun t => (t.imu 1).next == some (256 * 10 ^ 9) && t.reg (SP_IMU_CFG 1) == 0x10003,
    runs (.imuDrdyEdge 1) (after (.imuDrdyEdge 1) zImu) fun t => t.is (SP_IMU_STAT_OVERRUN 1) && t.reg GLB_FAULT_LAST == 0x102021,
    runs (.imuPeriodTick 1) zImuPer fun t => t.now == 1000001000 && (t.imu 1).next == some (1000002000 * 256),
    runs (.imuReadComplete 1 [5]) (after (.imuDrdyEdge 1) zImu) fun t => t.get (SP_IMU_STAT_HEAD 1) == 1 && (t.imu 1).seq == 1,
    runs (.imuTimeout 1) zImu fun t => t.is (SP_IMU_STAT_TIMEOUT 1) && t.reg GLB_FAULT_LAST == 0x102020] = true := by decide +kernel

/-- CAN controller 1 on the bus. -/
def zCan : State := fl [(SP_CAN_CTL_EN 1, 1)] zr

/-- In bus-off, mailbox 2 pending. -/
def zBoff : State := fl [(SP_CAN_ECNT_STATE 1, 2), (SP_CAN_TXC_REQ 1 2, 1)] zCan

/-- Mailbox 2 pending. -/
def zTxReq : State := fl [(SP_CAN_TXC_REQ 1 2, 1), (SP_CAN_ECNT_TEC 1, 20)] zCan

theorem wit_CanTransmitAndConfinement : allTrue [zCan.writeOk 9 (SP_CAN_TXC 1 2), zCan.is (SP_CAN_TXH_FDF 1 2) == false,
    zCan.is (SP_CAN_TXH_BRS 1 2) == false, zBoff.busOff 1, zBoff.writeOk 9 (SP_CAN_TXC 1 2), zTxReq.writeOk 9 (SP_CAN_TXC 1 2),
    zTxReq.is (SP_CAN_TXC_REQ 1 2), (zTxReq.can 1).tx == none, zTxReq.is (SP_CAN_CTL_EN 1), zTxReq.busOff 1 == false,
    zTxReq.get (SP_CAN_ECNT_TEC 1) ≤ 255, zTxReq.get (SP_CAN_ECNT_STATE 1) == 0, zTxReq.get (SP_CAN_ECNT_TEC 1) + 8 ≤ 127,
    zTxReq.get (SP_CAN_ECNT_REC 1) ≤ 127, 255 < (fl [(SP_CAN_ECNT_TEC 1, 248)] zCan).get (SP_CAN_ECNT_TEC 1) + 8,
    zBoff.writeOk 9 (SP_CAN_CTL 1), zBoff.is (SP_CAN_CTL_EN 1), (fl [(SP_CAN_STAT_RECOVERING 1, 1)] zBoff).is (SP_CAN_CTL_EN 1),
    runs (.canTxRequest 9 1 2 0x108) zBoff fun t => t.is (SP_CAN_TXC_HELD 1 2),
    runs (.canTxRequest 9 1 2 0x140) zCan fun t => t.is (SP_CAN_TXC_REQ 1 2) && t.get (SP_CAN_TXC_LEN 1 2) == 64,
    runs (.canTxRequest 9 1 2 0x109) zCan fun t => !t.is (SP_CAN_TXC_REQ 1 2) && t.reg GLB_FAULT_LAST == 0x9200B,
    runs (.canTxAbort 9 1 2 0x200) zTxReq fun t => t.is (SP_CAN_TXC_ABORTED 1 2),
    runs (.canTxDone 1 2) zTxReq fun t => t.is (SP_CAN_TXC_DONE 1 2) && t.get (SP_CAN_ECNT_TEC 1) == 19,
    runs (.canBusError 1 2 true false) zTxReq fun t => t.get (SP_CAN_ECNT_TEC 1) == 28 && t.get (SP_CAN_STAT_LAST_ERR 1) == 3,
    runs (.canBusError 1 2 true false) (fl [(SP_CAN_ECNT_TEC 1, 248)] zCan) fun t => t.is (SP_CAN_STAT_BOFF 1) && t.reg GLB_FAULT_LAST == 0x102031,
    runs (.canRecover 9 1 0x11) zBoff fun t => t.is (SP_CAN_STAT_RECOVERING 1),
    runs (.canDisable 9 1 0) zBoff fun t => t.is (SP_CAN_TXC_ABORTED 1 2),
    runs (.canRecoveryComplete 1) (fl [(SP_CAN_STAT_RECOVERING 1, 1)] zBoff) fun t => t.reg (SP_CAN_ECNT 1) == 0] = true := by decide +kernel

/-- A data frame on the bus. -/
def canEx : CanFrame := { ide := false, id := 0x123, fdf := false, rtr := false, brs := false, esi := false, data := [1, 2], sof := 256 * 10 ^ 9 }

/-- Mailbox 5 of controller 1 takes that frame and is watched. -/
def zRx : State := fl [(SP_CAN_RXF_ID 1 5, 0x123), (SP_CAN_RXF_EN 1 5, 1), (SP_CAN_RXM_MASK 1 5, 0x7FF), (SP_CAN_RXC_TIMEOUT 1 5, 2)] zCan

theorem wit_CanReceiveAndSilence : allTrue [zRx.is (SP_CAN_CTL_EN 1), zRx.busOff 1 == false, zRx.get (SP_CAN_ECNT_TEC 1) ≤ 127,
    zRx.get (SP_CAN_ECNT_REC 1) ≤ 127, zRx.pwr.held == [], zRx.get MC_PWR_STAT_STATE == 0, zRx.canMailbox 1 canEx 64 == some 5,
    zCan.canMailbox 1 canEx 64 == none, zRx.canWatched 1 5, (zRx.canRx 1 5).said == false,
    runs (.canFrameReceive 1 canEx) zRx fun t => (t.reg (SP_CAN_LOGHEAD 1)).toNat == 1,
    runs (.canFrameReceive 1 canEx) zCan fun t => t.get (SP_CAN_STAT_RX_DISCARD 1) == 1,
    runs (.canRxTimeout 1 5) zRx fun t => t.is (SP_CAN_RXS_TIMEOUT 1 5) && t.reg GLB_FAULT_LAST == 0x102032] = true := by decide +kernel

/-- I2C controller 2 with these commands waiting. -/
def zI2c (l : List Nat) : State :=
  let s := fl [(SP_I2C_CFG_EN 2, 1), (SP_I2C_STAT_BUSY 2, 1)] (wr [(SP_I2C_AT_LO 2, 1000001000)] zr)
  s.setI2c 2 { s.i2c 2 with cmds := l }

/-- Its FIFO waits for the instant. -/
def zI2cAt : State := after (.i2cCommandExecute 2 0) (zI2c [0x600, 0x500])

theorem wit_I2cControllers : allTrue [z.writeOk 9 (SP_I2C_CMD 2), (z.i2c 2).skip == false, (z.i2c 2).cmds.length < 64,
    (zI2c (List.replicate 64 0x500)).writeOk 9 (SP_I2C_CMD 2), 64 ≤ ((zI2c (List.replicate 64 0x500)).i2c 2).cmds.length,
    (zI2c [0x300]).is (SP_I2C_CFG_EN 2), ((zI2c [0x300]).i2c 2).atHold == false, ((zI2c [0x300]).i2c 2).rxd.length < 64,
    cmpDiff (zI2c [0x600]).now ((zI2c [0x600]).i2cAt 2) < 0, (zI2cAt.i2c 2).atHold, zI2cAt.hg.running, cmpDiff zI2cAt.now (zI2cAt.i2cAt 2) < 0,
    zI2cAt.is (SP_I2C_STAT_BUSY 2), bitsOf 0x500 8 4 == 5, bitsOf 0x241 8 4 != 5, (after (.i2cCommandExecute 2 9) (zI2c [0x300])).readOk 9 (SP_I2C_RXD 2),
    runs (.i2cCommandPush 9 2 0x123) z fun t => (t.i2c 2).cmds == [0x123],
    runs (.i2cCommandPush 9 2 0x123) (zI2c (List.replicate 64 0x500)) fun t => t.is (SP_I2C_STAT_OVF 2) && (t.i2c 2).cmds.length == 64,
    runs (.i2cCommandExecute 2 9) (zI2c [0x300]) fun t => (t.i2c 2).rxd == [9],
    runs (.i2cCommandExecute 2 9) (zI2c [0x500]) fun t => !t.is (SP_I2C_STAT_BUSY 2),
    runs (.i2cAtFire 2) zI2cAt fun t => t.now == 1000001000 && (t.i2c 2).cmds == [0x500],
    runs (.i2cNack 2) (zI2c [0x241, 0x500, 0x142]) fun t => (t.i2c 2).cmds == [0x142] && t.reg GLB_FAULT_LAST == 0x102038,
    runs (.i2cTimeout 2) (zI2c [0x241, 0x500, 0x142]) fun t => (t.i2c 2).cmds == [0x142] && t.is (SP_I2C_STAT_TIMEOUT 2),
    runs (.i2cRxdPop 9 2) (after (.i2cCommandExecute 2 9) (zI2c [0x300])) fun t => lastRead t == some 0x109] = true := by decide +kernel

/-! ### Witnesses: Ethernet, Motion Estimator, Weft, Loom, Referee -/

/-- A broadcast frame that is neither PTP nor UDP, and a PTP message. -/
def ethEx (type : List Byte) : List Byte := List.replicate 6 0xFF ++ List.replicate 6 2 ++ type ++ List.replicate 46 0

/-- The MAC is enabled and has no lock; a PTP message waits behind another frame. -/
def zEth : State :=
  let s := fl [(SP_ETH_CFG_EN, 1)] zr
  { s with eth := { s.eth with locked := false, txWait := [(0, false, ethEx [0x88, 0xB5]), (5, false, ethEx [0x88, 0xF7])] } }

theorem wit_EthernetFramesMove : allTrue [zEth.is SP_ETH_CFG_EN, (ethParse (ethEx [0x88, 0xB5])).bad == false, zEth.ethForMe (ethEx [0x88, 0xB5]),
    ptpAt (ethEx [0x88, 0xB5]) == none, (ethParse (ethEx [0x88, 0xB5])).udp == none, (ethEx []).length ≤ 9216,
    (ethParse (ethEx [0x81, 0, 0, 0, 0x81, 0])).bad, 9216 < (List.replicate 10000 (0 : Byte)).length,
    zEth.ethForMe (List.replicate 60 3) == false, zEth.eth.locked == false, (takePtp zEth.eth.txWait).isSome,
    { zEth with eth := { zEth.eth with locked := true } }.eth.locked,
    runs (.ethFrameReceive (ethEx [0x88, 0xB5]) false) zEth fun t => t.get SP_ETH_STAT_FCS_ERR == 1,
    runs .ethSerdesLockReturn { zEth with eth := { zEth.eth with txWait := [(0, false, ethEx [1, 2])] } } fun t =>
      t.outbox == [.ethFrame (ethEx [1, 2])] && t.eth.txWait == [],
    runs .ptpTxDrop zEth fun t => t.eth.txWait.length == 1 && t.reg GLB_FAULT_LAST == 0x91009 && t.get HG_TS_STAT_TX_DROP == 1] = true := by
  decide +kernel

/-- A page table of tenant 0 for VA 0 to 4095, whose leaf is DPA 0x10000; every Initiator ID may use Bobbin memory. -/
def zMap : State :=
  let s := fl [(AT_CTL_EN, 1), (AT_TEN_CTL_EN 0, 1)] (wr [(AT_ROOT_LO 0, 0x1000), (HI_FENCE_FIRST 0, 2 ^ 31),
    (HI_FENCE_LAST 0, 0xFFFFFF), (HI_FENCE_RD 0, 0xFFFFFFFF), (HI_FENCE_WR 0, 0xFFFFFFFF)] zr)
  { s with mem := { s.mem with bob := [(0x1000, 1), (0x1001, 0x20), (0x2000, 1), (0x2001, 0x30), (0x3000, 1), (0x3001, 0x40),
    (0x4000, 7), (0x4002, 1), (0x10000, 0x5A), (0x10408, 1)] } }

/-- The Motion Estimator runs with a table of zeros and one IMU sample that its window has passed. -/
def meIn : MeInput := { imu := true, stamp := 1000, unit := 0, data := List.replicate 16 0 }

/-- A Motion table whose wheel 0 is enabled. -/
def motEx : List Byte := List.replicate 326 0 ++ [1] ++ List.replicate 137 0

/-- An ended turn 6 of run 0. -/
def turnEx : TurnRec := { run := 0, turn := 6, gen := 0, ended := true }

/-- The Motion Estimator runs and the turn waits for it. -/
def zMe : State :=
  let s := fl [(ME_CTL_EN, 1)] zMap
  { s with
    me := { s.me with tab := some ⟨1, motEx⟩, queue := [meIn], wheels := [(0, some { stamp := 0, ticks := 0, still := 0 })] }
    weft := { s.weft with tab := some ⟨1, List.replicate 64 0⟩ }
    loom := { s.loom with turns := [turnEx] }
    fresh := { s.fresh with holdSince := some 7 } }

/-- The same with an input later than the state's time, a stale one, no tables, and poisoned detections. -/
def zMeLate : State := { zMe with me := { zMe.me with time := 2000 } }
def zMeOff : State := { zMe with me := { zMe.me with tab := none } }
def zMePoison : State := { zMe with mem := { zMe.mem with poison := [(0x10000 / 64, true)] } }
def zMeHeld : State := fl [(AT_CTL_EN, 0)] zMe

theorem wit_MotionInputsUpdateTheState : allTrue [zMe.fresh.holdSince == some 7, nextInput zMe.me.queue == some meIn,
    { zMe with hg := { zMe.hg with dt := 0 } }.hg.dt < meIn.stamp, zMe.meOn, meIn.stamp + (zMe.reg ME_WINDOW).toNat * 256000 ≤ zMe.hg.dt,
    tableAt zMe.me.past zMe.me.tab meIn.stamp == some ⟨1, motEx⟩, meIn.imu, meIn.unit == leAt motEx 16 1, meIn.stamp < zMeLate.me.time,
    nextInput zMeLate.me.queue == some meIn, zMe.me.time ≤ meIn.stamp,
    (List.range 6).all (fun k => !beyond (imuRaw (motImu motEx 0) meIn.data k) (leAt (motImu motEx 0) (if k < 3 then 8 else 12) 4)
      (leAt (motImu motEx 0) (if k < 3 then 32 else 36) 4)),
    wheelsOn motEx == [0], (spGet (fun _ => none) zMe.me.wheels 0).isSome, zMe.writeOk 9 ME_CTL,
    zMe.firstTurn (fun y => y.ended && !y.meDone && !y.held) == some turnEx, zMeOff.me.tab == none,
    zMeOff.firstTurn (fun y => y.ended && !y.meDone && !y.held) == some turnEx, zMe.weft.tab.isSome,
    (zMeHeld.detections 0 (leAt motEx 0 8 + 0)).2 == none, zMeHeld.meOn, (zMePoison.detections 0 (leAt motEx 0 8 + 0)).2 == some none,
    (zMap.tenantWrite meIid 0 0 [1, 2, 3] {}).2.fault == none,
    runs .meInputProcess zMeLate fun t => t.reg GLB_FAULT_LAST == 0x123013 && t.get ME_REJECT_STALE == 1 && t.me.queue == [],
    runs .meTurnUpdate zMeOff fun t => t.loom.turns == [{ turnEx with meDone := true }],
    runs .meTurnUpdate zMeHeld fun t => t.loom.turns == [{ turnEx with held := true }]] = true := by decide +kernel

/-- A staged Pattern table. -/
def zStaged : State := { zr with track := { zr.track with staged := [⟨1, 5, List.replicate 64 0, 1⟩] } }

/-- Its expansion. -/
def zExp : State := { zr with weft := { zr.weft with exp := some ⟨1, 5, 2, 256000, false⟩ } }

/-- A turn that the Motion Estimator has completed. -/
def zDone (pat : Option Table) : State := { zr with loom := { zr.loom with turns := [{ turnEx with meDone := true, pat := pat }] } }

theorem wit_BoardTablesExpandAndWarp : allTrue [zStaged.weft.exp == none, zStaged.bankSweep.patPick.isSome, zStaged.bankSweep.freeBank == some 0,
    zr.bankSweep.patPick == none, zExp.weft.exp.isSome, zExp.track.commit == none,
    (zr.firstTurn fun x => x.meDone && !x.warped) == none, ((zDone none).firstTurn fun x => x.meDone && !x.warped).isSome,
    (fl [(WF_CTL_EN, 1)] (zDone (some ⟨1, List.replicate 64 0⟩))).is WF_CTL_EN, patViews (List.replicate 64 0) == [],
    runs .expansionStart zStaged fun t => t.weft.exp == some ⟨1, 5, 0, 256 * 10 ^ 9, false⟩,
    runs .expansionComplete zExp fun t => t.reg WF_EXPAND_US == 999999,
    (zDone (some ⟨1, List.replicate 64 0⟩)).is WF_CTL_EN == false,
    runs .viewWarp (zDone (some ⟨1, List.replicate 64 0⟩)) fun t => t.loom.turns.all fun x => x.viewFlags == [0, 0, 0, 0],
    runs .viewWarp (zDone none) fun t => t.loom.turns.all (·.warped)] = true := by decide +kernel

/-- A stamp that accepts. -/
def stampEx : Stamp := { verdict := 1, step := 0, causes := 0, fresh := [], motion := 0, holdMs := 0 }

/-- A record without payload. -/
def recEx : LmRec := { id := 4, cls := 0, groups := 0, payload := [] }

/-- The Loom runs with a ring of two slots at VA 0 that tenant 0 has mapped for it. -/
def zLoom (log2 : Nat) (x : TurnRec) : State :=
  let s := fl [(LM_CTL_EN, 1), (LM_REC_CFG_LOG2COUNT, log2)] zMap
  { s with
    atu := { s.atu with pts := [⟨.loom, 0, 0, 1, 0x10000, true, true⟩] }
    loom := { s.loom with turns := [x], ring := true } }

/-- A turn whose manifest lists one record. -/
def zMan (len : Byte) : State :=
  let s := zLoom 1 { turnEx with meDone := true }
  { s with mem := s.mem.puts 0x10000 ([1] ++ List.replicate 15 0 ++ [9, 0, 0, 0] ++ List.replicate 12 0 ++ [len, 0, 0, 0]) }

/-- A frame entry, and a port with it. -/
def lmEx : LmFrame := { view := 2, run := 0, turn := 6, since := 0, tenant := 0, va := 0, rows := 1, rowBytes := 4, fmt := 0, emb := [] }
def zPort (x : LmPort) : State := (fl [(LM_PORT_CFG_EN 1, 1)] zr).setPort 1 x

theorem wit_RecordsAndViewsAreReleased : allTrue [
    ((zMan 0).firstTurn fun x => x.meDone && x.recs.isNone && !x.held).isSome, ((zMan 0).manifest 6).2.length == 1,
    (((zMan 0).manifest 6).1.payloads (zMan 0).recTenant ((zMan 0).manifest 6).2).2.isSome,
    ((fl [(AT_CTL_EN, 0)] (zMan 8)).payloads 0 ((zMan 8).manifest 6).2).2 == none,
    ((zLoom 1 { turnEx with stamp := some stampEx }).firstTurn fun x => x.stamp.isSome).isSome,
    (zLoom 1 turnEx).loomStopped == false, (zLoom 1 turnEx).is LM_CTL_EN, (zLoom 1 turnEx).loom.ring, (zLoom 1 turnEx).recSize == 2,
    (zLoom 0 turnEx).recSize == 1,
    (((zLoom 1 turnEx).dropTurns fun _ => true).pinnedWrite lmIid 0 ((zLoom 1 turnEx).pair LM_REC_BASE_LO + 0)
      (((zLoom 1 turnEx).dropTurns fun _ => true).recordBytes turnEx stampEx 0 1 recEx) {}).2,
    ((zPort { fifo := [lmEx], locked := true }).port 1).locked, (zPort { fifo := [lmEx], locked := true }).is (LM_PORT_CFG_EN 1),
    (zPort { fifo := [lmEx], locked := true }).loomStopped == false, ((zPort { fifo := [lmEx] }).port 1).locked == false,
    ((zPort { wire := some (lmEx, 256 * 10 ^ 10, 0), locked := true }).port 1).wire.isSome,
    (zPort {}).hg.dt < 256 * 10 ^ 10, ((zPort {}).port 1).fifo.head? == none,
    z.writeOk 9 LM_CTL, z.is LM_CTL_EN == false, (fl [(LM_VIEW_CFG_VC 1, 1), (LM_VIEW_CFG_PORT 2, 1), (LM_VIEW_CFG_PORT 3, 1), (LM_VIEW_CFG_VC 3, 1)] z).viewsOk,
    (fl [(LM_VIEW_CFG_PORT 0, 0), (LM_VIEW_CFG_PORT 1, 0), (LM_VIEW_CFG_PORT 2, 0)] z).viewsOk == false,
    runs .recordAssembly (zMan 0) fun t => t.loom.turns.all fun x => (x.recs.map fun l => l.map fun (r : LmRec) => r.id) == some [9, 0xFFFF],
    runs .release (zLoom 1 { turnEx with stamp := some stampEx, recs := some [recEx] }) fun t => t.reg LM_REC_HEAD == 1 && t.loom.turns == [],
    runs .release (zLoom 0 { turnEx with stamp := some stampEx, recs := some [recEx] }) fun t => t.get LM_STAT_REC_DROP == 1,
    runs (.viewLockDrop 1) (zPort { fifo := [lmEx] }) fun t => t.get (LM_PORT_DROP_LOCK_DROP 1) == 1,
    runs (.stxLockLoss 1) (zPort { wire := some (lmEx, 256 * 10 ^ 10, 0), locked := true }) fun t => t.outbox == [.viewCut 1],
    runs (.stxLockReturn 1) (zPort {}) fun t => (t.port 1).locked] = true := by decide +kernel

/-- R724: a group wholly absent from turn 0 leaves turn 1 clean; an expired holdover goes on demanding F4 (R157). -/
theorem test_absence_demands_once :
    ({ zr with fresh := { zr.fresh with grpStep := 4, demand := 4 } }.newInterval.fresh.demand == 0 &&
      { zr with fresh := { zr.fresh with expired := true, demand := 4 } }.newInterval.fresh.demand == 4) = true := by decide +kernel

/-- A ruleset image without rules: number 7, version 1. -/
def ruleEx : List Byte :=
  leBytes 4 0x31534652 ++ leBytes 4 1 ++ leBytes 4 128 ++ leBytes 4 7 ++ leBytes 4 1 ++ leBytes 4 0x33800000 ++ leBytes 2 1000 ++ [2] ++
    List.replicate 101 0

/-- The Referee runs with that image and judges this turn. -/
def zRef (x : TurnRec) : State :=
  { zr with
    ref := { zr.ref with running := true, on := true, off := false, rules := some ruleEx }
    loom := { zr.loom with turns := [x] } }

/-- An assembled turn. -/
def asmEx : TurnRec :=
  { turnEx with meDone := true, recs := some [], ready := 256 * 10 ^ 9, reports := List.replicate 224 ⟨6, 0, 0, 0, 0, 0⟩ }

/-- Its ABORT has completed with a fault. -/
def zHang : State :=
  let s := zRef asmEx
  { s with
    ref := { s.ref with abort := some 3 }
    track := { s.track with own := [(8, [⟨3, 0, 0, 0x8007, 0x23, false, 0, false, 0⟩])] } }

theorem wit_RefereeJudgesAndHalts : allTrue [(zRef asmEx).ref.running,
    ((zRef asmEx).loom.turns.find? fun x => x.recs.isSome && x.stamp.isNone) == some asmEx, asmEx.fault == 0,
    (zRef asmEx).reportsWrong asmEx == false, asmEx.reports.all (fun r => r.flagged == 0), ruleFails ruleEx [] == none,
    zr.ref.rung == false, { zr with ref := { zr.ref with rung := true } }.ref.rung, imageOk ruleEx, imageOk [] == false,
    { zRef asmEx with ref := { (zRef asmEx).ref with image := some ruleEx } }.ref.image.isSome,
    (zRef asmEx).hg.running, { zRef asmEx with ref := { (zRef asmEx).ref with hbAt := 256 * (10 ^ 9 - 5000000) } }.ref.hbAt +
      ((zRef asmEx).reg RF_HB_PER).toNat * 256000 == (zRef asmEx).hg.dt, (zRef asmEx).overdue == false, (zRef asmEx).get RF_STEP_S != 5,
    (fl [(RF_STEP_S, 5)] (zRef asmEx)).get RF_STEP_S == 5, zHang.ref.abort == some 3, (zHang.refDone 3).isSome,
    ((zHang.refDone 3).map (·.status)) == some 0x8007, z.ref.running == false, z.ref.halted == false,
    runs .refereeVerdict (zRef { asmEx with fault := 1 }) fun t => t.ref.window == [true] && t.reg RF_REJECTS == 1,
    runs .refereeVerdict (zRef asmEx) fun t => t.ref.window == [false] && t.reg RF_LAST_TURN == 6,
    runs (.rulesetCheckDone true) { zRef asmEx with ref := { (zRef asmEx).ref with image := some ruleEx } } fun t =>
      t.reg RF_RULESET_ID == 7 && t.reg RF_HB_PER == 1000,
    runs (.rulesetCheckDone false) { zRef asmEx with ref := { (zRef asmEx).ref with image := some ruleEx } } fun t =>
      t.is RF_STATUS_AUTH_FAIL && t.reg GLB_FAULT_LAST == 0x8B001,
    runs .clockMonitor (zRef asmEx) fun t => t.ref.halted && t.get RF_SAFE_CAUSE_CODE == 0xB00F,
    runs .hangRelaunch zHang fun t => t.ref.abort == none,
    runs .refereeResetRelease z fun t => t.ref.running] = true := by decide +kernel

/-! ### Witnesses: Tapestry bundles -/

/-- A syllable of slot `k` of the bundle that holds it alone, neither its first nor its last; with `one`, both. -/
def syl (k op args : Nat) (one : Bool := false) (h : Fin 36 := 0) : Issue :=
  let x : Issue := { hoop := h, pred := 0, pneg := false, opens := one, closes := one, bundle := [] }
  { x with bundle := List.replicate k 0 ++ [sylWord op x args] }

/-- The hypothesis Issues, evaluated. -/
def issues (x : Issue) (slots : List Nat) (w : Word) (r : HRegs) (s : State) : Bool :=
  decide ((s.hoop x.hoop).st = .running ∧ inBundle slots x.bundle w = true ∧ x.opens = false ∧ x.closes = false ∧
    (s.hoop x.hoop).snap = some r ∧ ((s.hoop x.hoop).snap.isSome = true ∧ (s.hoop x.hoop).stuck = [] ∧
      (s.hoop x.hoop).stall = .none ∧ (s.hoop x.hoop).defer = false) ∧ r.pv x.pred ≠ x.pneg)

theorem issues_iff (x : Issue) (slots : List Nat) (w : Word) (r : HRegs) (s : State) : issues x slots w r s = true ↔ Issues x slots w r s := by
  simp [issues, Issues, MidBundle]

/-- Registers: S1 = 7, S2 = 3, S3 = -1, and as given. -/
def rEx : HRegs := { s := [(1, 7), (2, 3), (3, 0xFFFFFFFF)], flags := 5, hist := [(2, 9)], c := [(4, 2)] }

/-- Hoop `h` inside a bundle with these registers; the program has ten bundles, and its one hoop is hoop 0. -/
def zH (r : HRegs) (h : Nat := 0) : State :=
  let s : State := { zr with eng := { zr.eng with sched := { zr.eng.sched with
    running := some 6, header := [0, 0, 1] ++ List.replicate 65 0 ++ [10, 0, 0, 0] } } }
  s.setHoop h { (default : Hoop) with r := r, snap := some r, st := .running }

/-- The same between bundles. -/
def zBetween : State := (zH rEx).setHoop 0 { (zH rEx).hoop 0 with snap := none }

/-- S[d], P[d] and lane l of V[d] (32-bit lanes) of hoop 0. -/
def s0 (t : State) (d : Nat) : Word := (t.hoop 0).r.sv d
def p0 (t : State) (d : Nat) : Bool := (t.hoop 0).r.pv d
def v0 (t : State) (d l : Nat) : Nat := bitsOf ((t.hoop 0).r.vv d).toNat (32 * l) 32

theorem wit_BundlesIssueWhole : allTrue [(zBetween.hoop 0).st == .running, (zBetween.hoop 0).snap.isNone, (zBetween.hoop 0).stall == .none,
    inBundle [0] (syl 0 0x0B (5 * 2 ^ 17 + 0xFFFE) true).bundle (sylWord 0x0B (syl 0 0x0B (5 * 2 ^ 17 + 0xFFFE) true) (5 * 2 ^ 17 + 0xFFFE)),
    zBetween.legal 0 (syl 0 0x0B (5 * 2 ^ 17 + 0xFFFE)).bundle, (zBetween.hoop 0).pc + 1 < zBetween.bundleCount 0,
    zBetween.legal 0 [sylWord 0x0B (syl 0 0 0) 0, 0, 0, 0, 0, 0, 0, 0xFC000000] == false, (zBetween.hoop 0).firing.isNone,
    zBetween.eng.sched.running == some 6, zBetween.eng.sched.fault == 0, zr.hoop 0 |>.snap.isNone, (zr.hoop 0).st != .running,
    inBundle [0] [] (sylWord 0x0B (syl 0 0 0) 0) == false, (rEx.pv 0 != false), ((zH rEx).hoop 0).leave == {},
    (0 : Int) ≤ ((zH rEx).hoop 0).pc + (3 : BitVec 16).toInt, ((zH rEx).hoop 0).pc + (3 : BitVec 16).toInt < (zH rEx).bundleCount 0,
    ((zH rEx).hoop 0).pc + (0xFFFF : BitVec 16).toInt < 0, (zH rEx).bundleCount 0 ≤ ((zH rEx).hoop 0).pc + (10 : BitVec 16).toInt,
    issues (syl 7 0x02 (4 * 2 ^ 13 + 3)) [7] (sylWord 0x02 (syl 7 0x02 0) (4 * 2 ^ 13 + 3)) rEx (zH rEx), spGet (fun _ => 0) rEx.c 4 < 3,
    runs (.ctlMovi (syl 0 0x0B (5 * 2 ^ 17 + 0xFFFE) true) 5 0xFFFE) zBetween fun t =>
      s0 t 5 == 0xFFFFFFFE && (t.hoop 0).pc == 1 && (t.hoop 0).snap.isNone,
    runs (.ctlMovi { syl 0 0x0B 0 true with bundle := [sylWord 0x0B (syl 0 0 0) 0, 0, 0, 0, 0, 0, 0, 0xFC000000] } 0 0) zBetween fun t =>
      t.eng.sched.fault == 0x4010 && t.reg GLB_FAULT_LAST == 0xA4010,
    runs (.ctlBr { syl 0 0x18 3 with closes := true } 3) (zH rEx) fun t => (t.hoop 0).pc == 3,
    runs (.ctlBr { syl 0 0x18 0xFFFF with closes := true } 0xFFFF) (zH rEx) fun t => t.reg GLB_FAULT_LAST == 0xA4010,
    runs (.syncWait (syl 7 0x02 (4 * 2 ^ 13 + 3)) 4 3) (zH rEx) fun t => t.hoop 0 == (zH rEx).hoop 0] = true := by decide +kernel

/-- An RRR syllable with d = 5, a = 1, b = 2. -/
def rrr (op : Nat) : Issue := syl 0 op (5 * 2 ^ 17 + 1 * 2 ^ 12 + 2 * 2 ^ 7)

/-- A descriptor table of the program is pinned. -/
def zTd : State :=
  let s := zH rEx
  { s with
    regs := zMap.regs
    mem := { s.mem with bob := [(0x10000, 0xAB), (0x1003F, 0xCD)] }
    atu := { s.atu with pts := [⟨.turn 0, 0, 0, 0, 0x10000, true, false⟩] } }

theorem wit_ControlSyllablesCompute : allTrue [issues (rrr 0x01) [0] (sylWord 0x01 (rrr 0x01) (5 * 2 ^ 17 + 1 * 2 ^ 12 + 2 * 2 ^ 7)) rEx (zH rEx),
    issues (syl 0 0x1A 0) [0] (sylWord 0x1A (syl 0 0x1A 0) 0) rEx (zH rEx), (0 : Int) < (rEx.sv 1).toNat,
    issues (syl 0 0x20 (2 * 2 ^ 16)) [0] (sylWord 0x20 (syl 0 0x20 0) (2 * 2 ^ 16)) rEx zTd,
    (match zTd.memRead (zTd.cx 0 .none) (zTd.descVa 0 0 % 2 ^ 48) 64 with
      | (u, .ok _) => (u.hoop 0).snap.isSome && (u.hoop 0).stuck.isEmpty && (u.hoop 0).stall == .none && !(u.hoop 0).defer
      | _ => false),
    issues (syl 0 0x23 1) [0] (sylWord 0x23 (syl 0 0x23 0) 1) rEx (zH rEx), rEx.sv 2 != 1, (0 : Nat) < 8 && (2 : Nat) < 68,
    runs (.ctlAdd (rrr 0x01) 5 1 2) (zH rEx) fun t => s0 t 5 == 10, runs (.ctlSub (rrr 0x02) 5 1 2) (zH rEx) fun t => s0 t 5 == 4,
    runs (.ctlMul (rrr 0x03) 5 1 2) (zH rEx) fun t => s0 t 5 == 21, runs (.ctlAnd (rrr 0x04) 5 1 2) (zH rEx) fun t => s0 t 5 == 3,
    runs (.ctlOr (rrr 0x05) 5 1 2) (zH rEx) fun t => s0 t 5 == 7, runs (.ctlXor (rrr 0x06) 5 1 2) (zH rEx) fun t => s0 t 5 == 4,
    runs (.ctlShl (rrr 0x07) 5 1 2) (zH rEx) fun t => s0 t 5 == 56, runs (.ctlShr (rrr 0x08) 5 1 2) (zH rEx) fun t => s0 t 5 == 0,
    runs (.ctlSra (syl 0 0x09 (5 * 2 ^ 17 + 3 * 2 ^ 12 + 2 * 2 ^ 7)) 5 3 2) (zH rEx) fun t => s0 t 5 == 0xFFFFFFFF,
    runs (.ctlAddi (syl 0 0x0A (1 * 2 ^ 17 + 0xFFFF)) 1 0xFFFF) (zH rEx) fun t => s0 t 1 == 6,
    runs (.ctlMovhi (syl 0 0x0C (1 * 2 ^ 17 + 0x1234)) 1 0x1234) (zH rEx) fun t => s0 t 1 == 0x12340007,
    runs (.ctlCmpLt (syl 0 0x11 (2 * 2 ^ 19 + 3 * 2 ^ 12 + 2 * 2 ^ 7)) 2 3 2) (zH rEx) fun t => p0 t 2,
    runs (.ctlCmpLtu (syl 0 0x12 (2 * 2 ^ 19 + 3 * 2 ^ 12 + 2 * 2 ^ 7)) 2 3 2) (zH rEx) fun t => !p0 t 2,
    runs (.ctlCmpEq (syl 0 0x10 (2 * 2 ^ 19 + 2 * 2 ^ 12 + 2 * 2 ^ 7)) 2 2 2) (zH rEx) fun t => p0 t 2,
    runs (.ctlPlog (syl 0 0x13 (2 * 2 ^ 19 + 0 * 2 ^ 16 + 3 * 2 ^ 13 + 3)) 2 0 3 3) (zH rEx) fun t => p0 t 2,
    runs (.ctlLoop (syl 0 0x19 (2 * 2 ^ 17 + 0xFFFF)) 2 0xFFFF) (zH rEx) fun t => s0 t 2 == 2 && (t.hoop 0).leave.branch == some (-1),
    runs (.ctlEnd (syl 0 0x1A 0)) (zH rEx) fun t => (t.hoop 0).leave.ends, runs (.ctlWaitturn (syl 0 0x1B 0)) (zH rEx) fun t => (t.hoop 0).leave.waits,
    runs (.ctlCkpt (syl 0 0x1C 9) 9) (zH rEx) fun t => (t.hoop 0).ckpt == some 9, runs (.ctlFence (syl 0 0x1D 0)) (zH rEx) fun t => t.hoop 0 == (zH rEx).hoop 0,
    runs (.ctlTdld (syl 0 0x20 (2 * 2 ^ 16)) 2 0 .none) zTd fun t => ((t.hoop 0).r.tdv 2).toNat == 0xAB + 0xCD * 2 ^ 504,
    runs (.ctlTdadd (syl 0 0x21 (2 * 2 ^ 16 + 3 * 2 ^ 8)) 2 3) (zH rEx) fun t => ((t.hoop 0).r.tdv 2).toNat == 2 ^ 48 - 64,
    runs (.ctlFlags (syl 0 0x22 (5 * 2 ^ 17)) 5 false) (zH rEx) fun t => s0 t 5 == 5 && (t.hoop 0).r.flags == 5,
    runs (.ctlFlags (syl 0 0x22 (5 * 2 ^ 17 + 1)) 5 true) (zH rEx) fun t => s0 t 5 == 5 && (t.hoop 0).r.flags == 0,
    runs (.ctlHclr (syl 0 0x23 1) 1) (zH rEx) fun t => spGet (fun _ => 0) (t.hoop 0).r.hist 2 == 0,
    runs (.ctlSreg (syl 0 0x24 (5 * 2 ^ 17 + 9)) 5 9) (zH rEx) fun t => s0 t 5 == 1000000000] = true := by decide +kernel

/-- Registers with V1 = lanes 1.0, V2 = lanes 2.5 in FP32, and a tile of ones. -/
def rVec : HRegs := { s := [(1, 0x40200000)], v := [(1, BitVec.ofNat 4096 0x3F800000), (2, BitVec.ofNat 4096 0x40200000)],
                      acc := [(9, ⟨[(0, 0x3F800000)], 0x40000000, false⟩)] }

theorem wit_PurlSyllablesCompute : allTrue [
    issues (syl 5 0x01 (3 * 2 ^ 17 + 1 * 2 ^ 12 + 2 * 2 ^ 7)) [5] (sylWord 0x01 (syl 5 0 0) (3 * 2 ^ 17 + 1 * 2 ^ 12 + 2 * 2 ^ 7)) rVec (zH rVec),
    issues (syl 5 0x10 (3 * 2 ^ 17 + 1 * 2 ^ 12)) [5] (sylWord 0x10 (syl 5 0 0) (3 * 2 ^ 17 + 1 * 2 ^ 12)) rVec (zH rVec),
    (fpDecode .fp32 0x3F800000).isNan == false, (5 : Nat) < 4096 / (purlFmt 3).bits,
    runs (.prlAdd (syl 5 0x01 (3 * 2 ^ 17 + 1 * 2 ^ 12 + 2 * 2 ^ 7)) 3 1 2 0) (zH rVec) fun t => v0 t 3 0 == 0x40600000 && v0 t 3 1 == 0,
    runs (.prlMul (syl 5 0x03 (3 * 2 ^ 17 + 2 * 2 ^ 12 + 2 * 2 ^ 7)) 3 2 2 0) (zH rVec) fun t => v0 t 3 0 == 0x40C80000,
    runs (.prlNeg (syl 5 0x0A (3 * 2 ^ 17 + 1 * 2 ^ 12)) 3 1 0) (zH rVec) fun t => v0 t 3 0 == 0xBF800000 && v0 t 3 1 == 0x80000000,
    runs (.prlMax (syl 5 0x08 (3 * 2 ^ 17 + 1 * 2 ^ 12 + 2 * 2 ^ 7)) 3 1 2 0) (zH rVec) fun t => v0 t 3 0 == 0x40200000,
    runs (.prlRedSum (syl 5 0x11 (3 * 2 ^ 17 + 2 * 2 ^ 12)) 3 2 0) (zH rVec) fun t => v0 t 3 0 == 0x40200000 && v0 t 3 1 == 0,
    runs (.prlBcast (syl 5 0x14 (3 * 2 ^ 17 + 1 * 2 ^ 12)) 3 1 0) (zH rVec) fun t => v0 t 3 127 == 0x40200000,
    runs (.prlCvt (syl 5 0x13 (3 * 2 ^ 17 + 2 * 2 ^ 12 + 1)) 3 2 false 0 1) (zH rVec) fun t => v0 t 3 0 == 0x4100,
    runs (.prlRdacc (syl 5 0x15 (3 * 2 ^ 17 + 1 * 2 ^ 14 + 1 * 2 ^ 11)) 3 1 1 0) (zH rVec) fun t => v0 t 3 0 == 0x40000000,
    runs (.prlLane (syl 5 0x16 (5 * 2 ^ 17 + 2 * 2 ^ 12)) 5 2 0 0) (zH rVec) fun t => s0 t 5 == 0x40200000] = true := by decide +kernel

/-! ### Witnesses: tensors, tokens, Lace -/

/-- A descriptor of a tensor in Hoop SRAM: base, format, DIM0 and DIM1. -/
def tdEx (base code n0 n1 : Nat) : BitVec 512 :=
  BitVec.ofNat 512 (base + 2 ^ 48 * (code + 16 * 2 + 128) + 2 ^ 64 * n0 + 2 ^ 88 * n1 + (2 ^ 112 + 2 ^ 136 + 2 ^ 160 + 2 ^ 184) +
    2 ^ 208 * n0 + 2 ^ 368 * 0x3F800000 + 2 ^ 400 * 0x3F800000)

/-- Hoop 0 in a bundle whose TD1 and TD2 name FP32 tensors of two elements, TD3 and TD4 FP16 ones, TD5 64 elements, TD6 nothing. -/
def rTd : HRegs :=
  { s := [(1, 7), (2, 0), (8, 1)]
    hist := [(68, 5)]
    v := [(1, BitVec.ofNat 4096 0x3F800000)]
    td := [(1, tdEx 0x100 1 2 1), (2, tdEx 0x200 1 2 1), (3, tdEx 0x300 2 2 2), (4, tdEx 0x400 2 2 2), (5, tdEx 0x1000 1 128 1),
      (6, tdEx 0x100 1 0 1)] }

def zTen : State :=
  let s := zH rTd
  s.setHoop 0 { s.hoop 0 with sram := [(0x202, 0x80), (0x203, 0x3F), (0x301, 0x3C), (0x401, 0x40)] }

/-- A result without fault that leaves the hoop in its bundle. -/
def clean (p : State × Option Nat) : Bool :=
  p.2 == none && (p.1.hoop 0).snap.isSome && (p.1.hoop 0).stuck.isEmpty && (p.1.hoop 0).stall == .none && !(p.1.hoop 0).defer

/-- The same of a value. -/
def got {α : Type} (p : Got α) : Bool :=
  match p.2 with
  | .ok _ => (p.1.hoop 0).snap.isSome && (p.1.hoop 0).stuck.isEmpty && (p.1.hoop 0).stall == .none && !(p.1.hoop 0).defer
  | .error _ => false

/-- A token hoop's context stands for a sequence of tenant 0: stream 0, FP16 rows of 64, at most 64 tokens. -/
def seqEx : Seq := { tenant := 0, lane := 0, streams := 1, fmt := 2, dim := 64, min := 0, max := 0, maxLen := 64, area := (0, 0) }

def zSeq : State :=
  let s := fl [(SK_CTL_EN, 1), (SK_CFG_AHEAD, 0)] zTen
  { s with sk := { s.sk with seqs := [(7, some seqEx)] } }

theorem wit_TensorSyllablesMove : allTrue [
    issues (syl 1 0x01 (1 * 2 ^ 16 + 2 * 2 ^ 10)) [1, 2] (sylWord 0x01 (syl 1 0 0) (1 * 2 ^ 16 + 2 * 2 ^ 10)) rTd zTen,
    (descOf (rTd.tdv 6)).nonEmpty == false, clean (zTen.tensorCopy (zTen.cx 0 .none) (descOf (rTd.tdv 1)) (descOf (rTd.tdv 2)) false 0),
    clean (zTen.tensorCopy (zTen.cx 0 .none) { descOf (rTd.tdv 1) with sram := true } { descOf (rTd.tdv 2) with sram := true } true 0),
    (rTd.sv 1).toNat % vecLen (descOf (rTd.tdv 5)).code != 0, (rTd.sv 2).toNat % vecLen (descOf (rTd.tdv 5)).code == 0,
    got (zTen.readMany (zTen.cx 0 .none) (descOf (rTd.tdv 2)) ((List.range (vecLen (descOf (rTd.tdv 2)).code)).map fun l =>
      ((rTd.sv 2).toNat + l) :: (idxAt rTd 2).drop 1)),
    (descOf (rTd.tdv 1)).inside (idxAt rTd 1) == false, got (zTen.elemRead (zTen.cx 0 .none) (descOf (rTd.tdv 2)) (idxAt rTd 2)),
    (descOf (rTd.tdv 5)).nonEmpty, clean (zTen.storeLine (zTen.cx 0 .none) (descOf (rTd.tdv 5)) 0 ((List.range 128).map fun l =>
      putOf .fp32 (descOf (rTd.tdv 5)) (l :: (idxAt rTd 2).drop 1) 0)),
    (descOf (rTd.tdv 1)).code != 0, clean (zTen.elemWrite (zTen.cx 0 .none) (descOf (rTd.tdv 1)) (idxAt rTd 2) 5),
    got (zTen.product (zTen.cx 0 .none) (needleDesc (rTd.tdv 3)) (needleDesc (rTd.tdv 4)) []), rTd.sv (18 + 0) == 0,
    clean (zTen.each (fun w j => w.storeLine (zTen.cx 0 .none) (descOf (rTd.tdv 1)) 0 ((List.range 32).map fun i =>
      putOf .fp32 (descOf (rTd.tdv 1)) [i, j, 0, 0, 0, 0] 0)) (List.range 16)), mmaWrites rTd [] 0 0 == false,
    clean (zTen.spaceWrite (zTen.cx 0 .none) (some 0) 0x100 (histBytes rTd 1)),
    zTen.ownSeq 0 7 == none, (zTen.hoop 0).firing.isNone, zSeq.ownSeq 0 7 == some seqEx, decide ((rTd.sv 2).toNat < seqEx.streams),
    decide ((rTd.sv 2).toNat + 1 ≤ seqEx.maxLen), zSeq.gatherAway seqEx 0 0 1 == [], zSeq.get SK_CFG_AHEAD == 0,
    decide (((List.range 1).filter fun t => (seqEx.place (seqEx.len + t)).isNone).length + seqEx.used ≤ 32),
    clean ((zSeq.setSeq 7 (some (seqEx.alloc 0 1))).each (fun w t => w.appendRow (zSeq.cx 0 .none) (descOf (rTd.tdv 3)) seqEx 7 0 t t) (List.range 1)),
    (((zSeq.setSeq 7 (some (seqEx.alloc 0 1))).each (fun w t => w.appendRow (zSeq.cx 0 .none) (descOf (rTd.tdv 3)) seqEx 7 0 t t)
      (List.range 1)).1.seq? 7).isSome,
    clean (zSeq.gatherRows (zSeq.cx 0 .none) (descOf (rTd.tdv 3)) seqEx 0 0),
    runs (.ldT (syl 1 0x01 (1 * 2 ^ 16 + 2 * 2 ^ 10)) 1 2 false 0 .none) zTen fun t => spGet (fun _ => 0) (t.hoop 0).sram 0x103 == 0x3F,
    runs (.ldS (syl 1 0x04 (vtBits 5 2 2 0)) 5 2 2 .none) zTen fun t => s0 t 5 == 0x3F800000,
    runs (.ndlClr (syl 3 0x03 (2 * 2 ^ 19 + 2)) 2 2) zTen fun t => ((t.hoop 0).r.tile 2 1).cleared,
    runs (.stS (syl 6 0x03 (vtBits 1 1 2 0)) 1 1 2 .none) zTen fun t => spGet (fun _ => 0) (t.hoop 0).sram 0x100 == 7,
    runs (.stHist (syl 6 0x04 (1 * 2 ^ 19 + 1 * 2 ^ 13 + 2 ^ 12)) 1 1 true .none) zTen fun t => spGet (fun _ => 0) (t.hoop 0).r.hist 68 == 0,
    runs (.kvAppend (syl 6 0x08 (3 * 2 ^ 16 + 1 * 2 ^ 11 + 2 * 2 ^ 6 + 16)) 3 1 2 false true .none) zTen fun t => t.reg GLB_FAULT_LAST == 0x6001] =
    true := by decide +kernel

/-- A firing of tenant 0 on token hoop 0 with one input and one output channel. -/
def firEx : Firing := { graph := 0, actor := 0, ins := [{ ch := 0, first := 0, count := 2 }], outs := [{ ch := 0, first := 0, count := 2 }] }

def chanEx : Chan := { ring := 0, cap := 4, units := 1, prod := 0, cons := 0, pub := 2 }

/-- It fires, and its channel's ring is mapped. -/
def zFire : State :=
  let s := zH rTd
  let s1 := s.setHoop 0 { s.hoop 0 with firing := some firEx }
  let s2 : State := { s1 with regs := zMap.regs, mem := zMap.mem }
  s2.setGraph 0 (some { cmd := default, actors := [default], chans := [chanEx] })

/-- Lace Hoop 32 in a bundle, with a network of one synapse that learns not. -/
def zLace : State :=
  let s := zH rEx 32
  fl [(TE_LACE_STAT_LOADED 0, 1)] { s with eng := { s.eng with lace := [(0, { syn := [(0, 0)], deltas := [(3, (1, 1))], armed := some (0, 0, 5) })] } }

/-- The Lace Hoop's registers place its last step far ahead. -/
def zLaceEarly : State := wr [(TE_LACE_TNOW 0, 1000000 + 100000), (TE_LACE_DT 0, 1000)] zLace

theorem wit_SyncTokenAndLaceSyllables : allTrue [
    issues (syl 7 0x01 (3 * 2 ^ 17 + 2 * 2 ^ 13)) [7] (sylWord 0x01 (syl 7 0 0) (3 * 2 ^ 17 + 2 * 2 ^ 13)) rEx (zH rEx), decide ((3 : Nat) < (zH rEx).schedCount),
    decide ((zH rEx).schedCount ≤ 31), decide (2 ≤ spGet (fun _ => 0) ((zH rEx).hoop 0).r.c 4), (zFire.hoop 0).firing == some firEx,
    zFire.portChan 0 { ch := 0, first := 0, count := 2 } == some chanEx, firEx.ins[0]?.isSome, firEx.outs[0]?.isSome,
    issues (syl 7 0x08 (tkBits 2 0 0 false)) [7] (sylWord 0x08 (syl 7 0 0) (tkBits 2 0 0 false)) rTd zFire,
    clean (zFire.tokCopy 0 (descOf (rTd.tdv 2)) (chanEx.slot 0) chanEx.bytes false .none),
    clean (zFire.tokCopy 0 (descOf (rTd.tdv 2)) (chanEx.slot 0) chanEx.bytes true .none), (zFire.graph? 0).isSome,
    issues (syl 7 0x10 (1 * 2 ^ 16 + 2 * 2 ^ 10 + 1 * 2 ^ 5) false 32) [7] (sylWord 0x10 (syl 7 0 0) (1 * 2 ^ 16 + 2 * 2 ^ 10 + 1 * 2 ^ 5)) rEx zLace,
    (zH rEx 32).is (TE_LACE_STAT_LOADED 0) == false, zLaceEarly.laceEarly 0 7, zLace.is (TE_LACE_STAT_LOADED 0), zLace.laceEarly 0 0 == false,
    (descOf (rEx.tdv 1)).n 0 == 0, synPlastic 0 == false, (zLace.lace 0).armed.isSome, { zLace with eng := { zLace.eng with hoops := [] } }.laceIdle 0,
    zLace.laceIdle 0, z.writeOk 9 (TE_LACE_CTL 2), (zr.lace 2).armed.isNone, (fl [(TE_LACE_CTL_LOAD 2, 1)] zr).laceIdle 2,
    (fl [(TE_LACE_CTL_SAVE 2, 1)] zr).is (TE_LACE_CTL_SAVE 2),
    runs (.syncSig (syl 7 0x01 (0 * 2 ^ 17 + 4 * 2 ^ 13)) 0 4) (zH rEx) fun t =>
      spGet (fun _ => 0) (t.hoop 0).r.c 4 + spGet (fun _ => 0) (t.hoop (t.physical 0)).r.c 4 == (if t.physical 0 == 0 then 6 else 3),
    runs (.syncWait (syl 7 0x02 (4 * 2 ^ 13 + 2)) 4 2) (zH rEx) fun t => spGet (fun _ => 0) (t.hoop 0).r.c 4 == 0,
    runs (.tokRecv (syl 7 0x08 (tkBits 2 0 0 false)) 2 0 0 .none) zFire fun t => spGet (fun _ => 0) (t.hoop 0).sram 0x200 == 0x5A,
    runs (.tokSend (syl 7 0x09 (tkBits 2 0 1 false)) 2 0 1 false .none) zFire fun t =>
      ((t.hoop 0).firing.map fun f => f.outs.map (·.sent)) == some [[1]],
    runs (.tokCredit (syl 7 0x0A (2 * 2 ^ 5)) 0 2) zFire fun t => ((t.graph? 0).map fun g => g.chans.map (·.rel)) == some [2],
    runs (.tokCredit (syl 7 0x0A (3 * 2 ^ 5)) 0 3) zFire fun t => (t.reg GLB_FAULT_LAST).toNat % 65536 == 0x4012,
    runs (.laceCommitApply 0) zLace fun t => (t.lace 0).deltas == [] && t.reg (TE_LACE_GEN 0) == 1,
    runs (.laceLoad 9 2 4) z fun t => t.is (TE_LACE_CTL_LOAD 2), runs (.laceSave 9 2 9) z fun t => t.is (TE_LACE_CTL_SAVE 2)] = true := by
  decide +kernel

/-! ### Witnesses: the Track and its commands -/

/-- The 128 bytes of a square with these fields (offset, value); byte 2 names tenant 0 where `ten`. -/
def sqEx (op : Nat) (ten : Bool) (l : List (Nat × Nat)) : List Byte :=
  leBytes 128 (op + (if ten then 2 ^ 23 else 0) + 3 * 2 ^ 80 + l.foldl (fun n p => n + p.2 * 2 ^ (8 * p.1)) 0)

/-- Such a command of the Host Gate with CSN 3. -/
def cmdEx (op : Nat) (ten : Bool) (l : List (Nat × Nat)) : TkCmd := { req := 9, csn := 3, square := 4, bytes := sqEx op ten l, ord := 1 }

/-- Another one, suspended, running or waiting, with CSN 2. -/
def cmdOld (op : Nat) (ph : TkPhase) : TkCmd := { req := 9, csn := 2, square := 5, bytes := sqEx op false [(16, 0x100), (20, 64)], ord := 0, phase := ph }

/-- The store holds these commands. -/
def zCmd (l : List TkCmd) (s : State := zMap) : State :=
  let t := fl [(TK_CTL_EN, 1), (TE_CTL_EN, 1), (PL_CTL_EN, 1)] s
  { t with track := { t.track with store := l } }

/-- The hypothesis Executes of a command alone in the store, evaluated; past the checks. -/
def exe (p : TkCmd → Bool) (c : TkCmd) (l : List TkCmd := []) (s : State := zMap) : Bool :=
  (zCmd (c :: l) s).cmd? 9 3 == some c && p c && (zCmd (c :: l) s).mayExec c && (zCmd (c :: l) s).isNext c &&
    (zCmd (c :: l) s).cmdCode c == none

/-- The Track runs, and its queue for tenant 2 too. -/
def zTk : State := fl [(TK_CTL_EN, 1), (TK_CQ_CFG_EN 2, 1), (TK_CQ_CFG_LOG2 2, 6)] zr

/-- Tenant 2 has claimed square 0, and has published it. -/
def zSq (pub : Bool) : State :=
  let s := zTk.setSquare 0 { owner := some 2, csn := 1, since := 256 * 10 ^ 9, published := pub }
  { s with track := { s.track with used := 1, out := [(2, 1)] } }
def zClaim : State := zSq false
def zPub : State := zSq true

/-- A record waits. -/
def zRec (r : Nat) : State := { zTk with track := { zTk.track with recs := [(r, [⟨3, 0, 0, 0, 0, false, 0, false, 0⟩])] } }

/-- Message 5 of tenant 2 is held; its vector is open in one of them. -/
def zMsi (en : Bool) : State :=
  let s := zr.setHostFn 2 { msixEn := en, fmask := false, pend := 32 }
  fl [(HI_FUNC_STAT_DISABLED 2, 0)] { s with msixTab := [(128 * 2 + 4 * 5 + 3, 0)] }

theorem wit_SquaresAreClaimedAndPublished : allTrue [zTk.readOk 2 TK_CLAIM, z.claimOpen 2 == false, z.readOk 2 TK_CLAIM, zTk.claimOpen 2,
    (wr [(TK_QUOTA 2, 0)] zTk).atQuota 2, (wr [(TK_QUOTA 2, 0)] zTk).claimOpen 2, (wr [(TK_QUOTA 2, 9)] zTk).atQuota 2 == false, zTk.freeSquare 2 == some 0,
    zClaim.writeOk 2 (0xB80000 + 0x80 * 0 + 4 * 5), (zClaim.square 0).owner == some 2, (zClaim.square 0).published == false,
    (zClaim.square 0).passed == false, (zTk.square 0).owner != some 2, zClaim.writeOk 2 TK_PUBLISH, zClaim.hg.dt < zClaim.leaseEnd (zClaim.square 0),
    zPub.nextSquare == some 0, zTk.is TK_CTL_EN,
    (zRec 2).tkRecs 2 != [], (zRec 3).cqRoom 3 == false, (zRec 3).tkRecs 3 != [], (zRec 2).cqRoom 2, (zRec 9).tkRecs 9 != [],
    ((zMsi true).hostFn 2).pend.getLsbD 5, (zMsi true).msixOpen 2 5, (zMsi false).msixOpen 2 5 == false, ((zMsi true).hostFn 2).pend.getLsbD 4 == false,
    runs (.trackClaim 2) z fun t => lastRead t == some 0x80000000, runs (.trackClaim 2) (wr [(TK_QUOTA 2, 0)] zTk) fun t => lastRead t == some 0xC0000000,
    runs (.trackClaim 2) zTk fun t => lastRead t == some 0x1000 && t.outstanding 2 == 1,
    runs (.squareWrite 2 0 5 0x12345678) zClaim fun t => spGet (fun _ => 0) t.track.words 5 == 0x12345678,
    runs (.squareWrite 3 0 2 0x12345678) zClaim fun t => t.reg GLB_FAULT_LAST == 0x38003,
    runs (.trackPublish 2 0) zClaim fun t => (t.square 0).published, runs (.trackPublish 2 1) zClaim fun t => t.reg GLB_FAULT_LAST == 0x28003,
    runs (.leaseExpiry 0) zClaim fun t => t.reg TK_VOID_CNT == 1 && (t.tkRecs 2).length == 1,
    runs .commandAccept zPub fun t => (t.track.store.map fun c => c.csn) == [1],
    runs (.completionRecordWrite 2) (zRec 2) fun t => t.reg (TK_CQ_HEAD 2) == 1 && t.tkRecs 2 == [],
    runs (.msixPendingSend 2 5) (zMsi true) fun t => t.outbox == [.msix 2 5] && (t.hostFn 2).pend == 0] = true := by decide +kernel

/-- R491, R492: a square accepted behind one that is not published yet is accepted once. -/
theorem test_accepted_once : (after .commandAccept (let s := (zClaim.setSquare 1 { owner := some 2, csn := 2, published := true })
    { s with track := { s.track with used := 2 } })).nextSquare == none := by decide +kernel

theorem wit_TrackCommandsComplete : allTrue [exe (isOp 0x00) (cmdEx 0 false []), exe (isOp 0x04) (cmdEx 4 false []),
    exe (isOp 0x05) (cmdEx 5 false [(24, 5)]), exe (isOp 0x05) (cmdEx 5 false [(24, 10 ^ 9)]), exe (isOp 0x03) (cmdEx 3 true [(16, 0x101), (20, 64)]) == false,
    exe (isOp 0x03) (cmdEx 3 true [(16, 1), (20, 64)]), exe (isOp 0x03) (cmdEx 3 true [(16, 2), (20, 64)]),
    (zCmd []).fsWindow 0 0 64 == false, exe (isOp 0x08) (cmdEx 8 true [(16, 0), (20, 7), (24, 1024), (32, 9)]),
    exe (isOp 0x08) (cmdEx 8 true [(16, 0), (20, 7), (24, 1024), (32, 1088)]), (zCmd []).slotFor 0 7,
    ((zCmd []).tenantRead 9 0 1024 (kindLength 0) {}).2.fault == none, ((zCmd []).tenantRead 9 0 1024 (kindLength 0) {}).2.poison == false,
    ((zCmd []).tenantRead 9 0 1024 (kindLength 0) {}).1.tableCheck 0 ((zCmd []).tenantRead 9 0 1024 (kindLength 0) {}).2.bytes == none,
    exe (isOp 0x09) (cmdEx 9 false [(16, 2), (20, 5)]), ({ zCmd [] with track := { (zCmd []).track with commit := some ⟨9, 3, 2, 5, none, 0, false⟩ } }).carriedTabs.isEmpty,
    exe (isOp 0x09) (cmdEx 9 false [(16, 16), (20, 5), (24, 1)]) [] (fl [(HG_TURN_CTL_ACTIVE, 1), (HG_TURN_CTL_STARTED, 1)] zMap),
    exe (isOp 0x20) (cmdEx 0x20 false [(16, 2)]), exe (isOp 0x3F) (cmdEx 0x3F false []) == false,
    (zCmd [cmdEx 0x3F false []]).cmdCode (cmdEx 0x3F false []) == some 0x8001, (zCmd [cmdEx 0x3F false []]).mayExec (cmdEx 0x3F false []),
    runs (.nop 9 3) (zCmd [cmdEx 0 false []]) fun t => t.track.store == [] && (t.tkRecs 9).map (·.status) == [0],
    runs (.nop 9 3) (zCmd [cmdEx 0x3F false []]) fun t => (t.tkRecs 9).map (·.status) == [0x8001],
    runs (.timeEvent 9 3) (zCmd [cmdEx 5 false [(24, 5)]]) fun t => (t.tkRecs 9).map (·.status) == [0x8009],
    runs (.timeEventReached 9 3) (after (.timeEvent 9 3) (zCmd [cmdEx 5 false [(24, 10 ^ 9 + 7)]])) fun t =>
      t.now == 1000000007 && (t.tkRecs 9).map (·.status) == [0],
    runs (.copy 9 3) (zCmd [cmdEx 3 true [(16, 2), (20, 64)]]) fun t => (t.tkRecs 9).map (·.status) == [0x9006],
    runs (.copyGranule 9 3 (List.replicate 64 7) .none) (after (.copy 9 3) (zCmd [cmdEx 3 true [(16, 1), (20, 64)]])) fun t =>
      t.byteAt 0x1003F == 7 && (t.tkRecs 9).map (·.status) == [0],
    runs (.copyGranule 9 3 (List.replicate 64 7) .none) (fl [(HI_FUNC_STAT_DISABLED 0, 1)] (after (.copy 9 3) (zCmd [cmdEx 3 true [(16, 1), (20, 64)]]))) fun t =>
      t.byteAt 0x1003F == 0 && t.track.store.map (·.phase) == [.running],
    runs (.copyGranule 9 3 (List.replicate 64 7) .none) (after (.copy 9 3) (zCmd [cmdEx 3 true [(16, 1), (20, 64), (32, 2 ^ 20)]])) fun t =>
      (t.tkRecs 9).map (·.status) == [0x5001] && t.track.store.map (·.phase) == [.suspended],
    runs (.tableStage 9 3) (zCmd [cmdEx 8 true [(16, 0), (20, 7), (24, 1024), (32, 9)]]) fun t => (t.tkRecs 9).map (·.status) == [0x8008],
    runs (.tableCommit 9 3) (zCmd [cmdEx 9 false [(16, 2), (20, 5)]]) fun t => (t.tkRecs 9).map (·.status) == [0x8001],
    runs (.laceCommit 9 3) (zCmd [cmdEx 0x20 false [(16, 2)]]) fun t => t.is (TE_LACE_STAT_COMMIT_ARMED 2)] = true := by decide +kernel

/-- An actor that needs no token, on a free hoop. -/
def actEx : Actor := { va := 0, header := [1, 0, 0, 0, 1, 0] ++ List.replicate 58 0, since := some 0 }

def graphEx : Graph := { cmd := cmdEx 2 true [], actors := [actEx], chans := [] }

/-- Graph 2 of tenant 0 waits for a hoop, which is hoop 29. -/
def zGraph (s : State := zMap) : State := s.setGraph 2 (some graphEx)

/-- Its actor's firing is held, or parked, on hoop 29. -/
def zHeld (st : Stall) : State := zGraph.setHoop 29 { (default : Hoop) with st := .running, stall := st, firing := some { graph := 2, actor := 0 } }

/-- Its actor is held without a firing. -/
def zHeldAct : State := zMap.setGraph 2 (some { graphEx with actors := [{ actEx with st := .held }] })

/-- The leaf's PIN is set. -/
def zPin : State := { zMap with mem := { zMap.mem with bob := spPut (fun _ => 0) zMap.mem.bob 0x4000 0xF } }

/-- An image is in force. -/
def zImage : State := { zMap with eng := { zMap.eng with sched := { zMap.eng.sched with image := some ⟨1, 0, 0, 1⟩ } } }

theorem wit_LaunchesResumesAndAborts : allTrue [exe (isOp 0x01) (cmdEx 1 true [(24, 1), (32, 9)]) [] zPin,
    ((zCmd [] zPin).pinAll (.turn 1) 0 (cmdEx 1 true [(24, 1), (32, 9)]).pinRanges).2 == 0,
    exe (isOp 0x01) (cmdEx 1 true [(24, 1), (32, 9)]), ((zCmd []).pinAll (.turn 1) 0 (cmdEx 1 true [(24, 1), (32, 9)]).pinRanges).2 == 0x5005,
    exe (isOp 0x02) (cmdEx 2 true [(16, 2), (18, 1), (20, 1), (24, 64), (32, 128)]), ((zCmd []).graph? 2).isNone, (zGraph.graph? 2).isSome,
    exe (isOp 0x02) (cmdEx 2 true [(16, 2), (18, 1), (20, 1), (24, 64), (32, 128)]) [] zGraph,
    decide ((zCmd []).actorCount.1 + 1 ≤ 8192), ((zCmd []).tenantRead 9 0 64 8 {}).2.fault == none, ((zCmd []).tenantRead 9 0 128 32 {}).2.fault == none,
    firstIdx (fun l => zGraph.hoopFree l && (zGraph.choose l).isSome) 29 == none, zGraph.hoopFree 29, zGraph.choose 29 == some ⟨2, 0, 0, 0⟩,
    actorOk graphEx 0 actEx false, ((zHeld (.parked 5 0 [] [])).hoop 29).stall == .parked 5 0 [] [], (zHeld .none).unparks 5 0 [] [],
    { zHeld .none with sk := { z.sk with seqs := [(7, some seqEx)] } }.unparks 7 33 [] [] == false,
    exe (isKind 0x30 0) (cmdEx 0x30 false [(18, 2)]) [cmdOld 3 .suspended], (zCmd [cmdEx 0x30 false [(18, 2)], cmdOld 3 .suspended]).target? (cmdEx 0x30 false [(18, 2)]) ==
      some (cmdOld 3 .suspended), exe (isKind 0x30 0) (cmdEx 0x30 false [(18, 2)]) [cmdOld 3 .running],
    exe (isKind 0x31 0) (cmdEx 0x31 false [(18, 2)]) [cmdOld 3 .suspended], exe (isKind 0x31 0) (cmdEx 0x31 false [(18, 2)]) [cmdOld 3 .running],
    exe (isKind 0x30 1) (cmdEx 0x30 true [(16, 1), (20, 2)]) [] (zHeld (.held 0x5001)), (zHeld (.held 0x5001)).firingOf 2 0 == some 29,
    ((zHeld (.held 0x5001)).hoop 29).stall == .held 0x5001, (cmdEx 0x30 true [(16, 1), (20, 2)]).graphKey == 2,
    exe (isKind 0x31 1) (cmdEx 0x31 true [(16, 1), (20, 2)]) [] (zHeld (.held 0x5001)), zHeldAct.firingOf 2 0 == none,
    exe (isKind 0x30 1) (cmdEx 0x30 true [(16, 1), (20, 2)]) [] zHeldAct, exe (isKind 0x31 2) (cmdEx 0x31 true [(16, 2), (20, 2)]) [] zGraph,
    zGraph.eng.hoops == [], exe (isKind 0x31 2) (cmdEx 0x31 true [(16, 2), (20, 2)]), exe (isKind 0x31 3) (cmdEx 0x31 true [(16, 3)]),
    zMap.eng.sched.image == none, zMap.eng.sched.next == none, exe (isKind 0x31 3) (cmdEx 0x31 true [(16, 3)]) [] zImage, zImage.eng.sched.image.isSome,
    runs (.launchTurn 9 3) (zCmd [cmdEx 1 true [(24, 1), (32, 9)]] zPin) fun t => t.eng.sched.next.isSome && t.atu.pts.length == 1,
    runs (.launchTurn 9 3) (zCmd [cmdEx 1 true [(24, 1), (32, 9)]]) fun t => (t.tkRecs 9).map (·.status) == [0x5005],
    runs (.launchActors 9 3) (zCmd [cmdEx 2 true [(16, 2), (18, 1), (20, 1), (24, 64), (32, 128)]]) fun t => (t.graph? 2).isSome,
    runs (.firingPlace 29) zGraph fun t => (t.hoop 29).st == .running,
    runs (.parkedFiringResume 29) (zHeld (.parked 5 0 [] [])) fun t => (t.hoop 29).stall == .none,
    runs (.resumeCommand 9 3) (zCmd [cmdEx 0x30 false [(18, 2)], cmdOld 3 .suspended]) fun t => t.track.store.map (·.phase) == [.running],
    runs (.abortCommand 9 3) (zCmd [cmdEx 0x31 false [(18, 2)], cmdOld 3 .suspended]) fun t => (t.tkRecs 9).map (·.status) == [0x800B, 0],
    runs (.resumeActor 9 3) (zCmd [cmdEx 0x30 true [(16, 1), (20, 2)]] (zHeld (.held 0x5001))) fun t => (t.hoop 29).stall == .none,
    runs (.abortActor 9 3) (zCmd [cmdEx 0x31 true [(16, 1), (20, 2)]] (zHeld (.held 0x5001))) fun t => (t.hoop 29).firing.isNone,
    runs (.abortGraph 9 3) (zCmd [cmdEx 0x31 true [(16, 2), (20, 2)]] zGraph) fun t => (t.graph? 2).isNone,
    runs (.abortTurn 9 3) (zCmd [cmdEx 0x31 true [(16, 3)]] zImage) fun t => t.eng.sched.image.isNone] = true := by decide +kernel

/-! ### Witnesses: Skein Manager, Engine, memory, Pool -/

/-- The Skein Manager runs with a pool of one 2 MiB unit and a Thimble of four units; a descriptor lies at VA 64. -/
def zSk : State :=
  let s := fl [(SK_CTL_EN, 1)] (wr [(SK_POOL_SIZE, 1), (SK_THIM_SIZE, 4), (SK_POOL_BASE_LO, 0x400000)] zMap)
  { s with mem := { s.mem with bob := zMap.mem.bob.filter (fun p => p.1 != 0x10408) ++
    [(0x10040, 1), (0x10042, 2), (0x10044, 64), (0x10048, 64)] } }

/-- Sequence 7 with eight tokens, a leaf of its Skein 0, and places; and it with these Skeins. -/
def seqLeaf : Seq := { seqEx with len := 8, maxLen := 64, leaves := [(0, some 0)], area := (0, 1) }
def seqLong : Seq := { seqLeaf with len := 40, leaves := [(0, some 0), (1, some 1)], want := some (.block 9) }
def skEx (st : SkSt) : Skein := { unit := 0, log := 0, pins := 2, st := st, ord := 0, lane := 0, saved := if st = .returning then [1, 2, 3] else [] }
def zSeqs (x : Seq) (l : List Skein) : State :=
  { zSk with sk := { zSk.sk with
    seqs := [(7, some x)], skeins := l.zipIdx.map fun p => (p.2, some p.1), nextId := l.length, cut := [0], free := [(1, 0), (2, 1)] } }

/-- A place that is committed, and a sequence whose flush is due. -/
def seqFlush : Seq := { seqLeaf with places := (List.range 8).map fun i => (i, some { pos := i, committed := true }) }
def zFlush : State := fl [(SK_CFG_FLUSH_AT, 4)] (zSeqs seqFlush [skEx .live])

theorem wit_SequencesComeAndGo : allTrue [exe (isOp 0x10) (cmdEx 0x10 true [(16, 7), (24, 64)]) [] zSk, exe (isOp 0x10) (cmdEx 0x10 true [(16, 7), (24, 64)]) []
      (zSeqs seqLeaf []), ((zCmd [] zSk).seq? 7).isNone, ((zCmd [] zSk).tenantRead 9 0 64 64 {}).2.fault == none,
    descOk ((zCmd [] zSk).tenantRead 9 0 64 64 {}).2.bytes, ((zCmd [] zSk).thimRoom (thimUnits 1 128 0)).isSome, entryData 2 64 == 128,
    (zCmd [] (zSeqs seqLeaf [])).kvSeq (cmdEx 0x11 true []) 7 == some seqLeaf, exe (isOp 0x11) (cmdEx 0x11 true [(16, 7), (18, 8), (20, 4)]) [] (zSeqs seqLeaf []),
    exe (isOp 0x11) (cmdEx 0x11 true [(16, 7), (18, 8), (20, 9)]) [] (zSeqs seqLeaf []), (zSeqs seqLeaf []).thimRoom 1 == some 1,
    exe (isOp 0x12) (cmdEx 0x12 true [(16, 7)]) [] (zSeqs seqLeaf []), (zSeqs seqLeaf []).eng.hoops == [], seqLeaf.skeinsIn 0 8 == [0],
    exe (isPin 0) (cmdEx 0x13 true [(16, 7), (24, 8)]) [] (zSeqs seqLeaf [skEx .live]),
    exe (isPin 1) (cmdEx 0x13 true [(16, 7), (18, 1), (24, 8)]) [] (zSeqs seqLeaf [skEx .live]), decide (2 ≤ (skEx .live).pins),
    exe (isPin 2) (cmdEx 0x13 true [(16, 7), (18, 2), (24, 8)]) [] (zSeqs seqLeaf [skEx .spilled]), (zSeqs { seqLeaf with freeing := true } []).seq? 7 |>.isSome,
    (zSeqs seqLeaf []).flushDue 7 == false, zFlush.flushDue 7, seqFlush.oldest.isSome, (zFlush.flushOne 7).2, (zFlush.flushOne 7).1.track.store == [],
    (zFlush.flushOne 7).1.pending == [], (zFlush.flushOne 7).1.boot == zFlush.boot,
    ((zSeqs seqLong [{ skEx .live with pins := 0 }, skEx .live]).victim 0).isSome,
    ((zSeqs seqLeaf [skEx .live]).sk.take 1 9).isNone, ((zSeqs { seqLeaf with returns := [0] } [skEx .spilled]).sk.take 1 0).isSome,
    (((zSeqs { seqLeaf with returns := [0] } [skEx .spilled]).sk.take 1 0).map fun p => p.2.seqs) == some [(7, some { seqLeaf with returns := [0] })],
    (zFlush.seq? 7).isSome, (skEx .returning).refs != 0, (zSeqs seqLeaf [skEx .returning]).track.store == [], (zSeqs seqLeaf []).sk.bg == false,
    decide ((zSeqs seqLong [{ skEx .live with pins := 0, lane := 3 }, skEx .live]).skFree * 100 <
      (fl [(SK_CFG_LOW_PCT, 50), (SK_CFG_HIGH_PCT, 60)] (zSeqs seqLong [{ skEx .live with pins := 0, lane := 3 }, skEx .live])).get SK_CFG_LOW_PCT * (1 * 512)),
    ((fl [(SK_CFG_LOW_PCT, 50), (SK_CFG_HIGH_PCT, 60)] (zSeqs seqLong [{ skEx .live with pins := 0, lane := 3 }, skEx .live])).setSk (fun k => { k with bg := true })).victim 3 |>.isSome,
    decide ((fl [(SK_CFG_LOW_PCT, 0)] zSk).get SK_CFG_LOW_PCT * (zSk.skSize * 512) ≤ zSk.skFree * 100),
    runs (.kvCreate 9 3) (zCmd [cmdEx 0x10 true [(16, 7), (24, 64)]] zSk) fun t => (t.seq? 7).map (·.dim) == some 64,
    runs (.kvFork 9 3) (zCmd [cmdEx 0x11 true [(16, 7), (18, 8), (20, 4)]] (zSeqs seqLeaf [skEx .live])) fun t =>
      (t.seq? 8).map (·.len) == some 4 && (t.tkRecs 9).map (·.status) == [0],
    runs (.kvFree 9 3) (zCmd [cmdEx 0x12 true [(16, 7)]] (zSeqs seqLeaf [])) fun t => (t.seq? 7).map (·.freeing) == some true,
    runs (.kvPinPin 9 3) (zCmd [cmdEx 0x13 true [(16, 7), (24, 8)]] (zSeqs seqLeaf [skEx .live])) fun t => (t.skein? 0).map (·.pins) == some 3,
    runs (.kvPinUnpin 9 3) (zCmd [cmdEx 0x13 true [(16, 7), (18, 1), (24, 8)]] (zSeqs seqLeaf [skEx .live])) fun t => (t.skein? 0).map (·.pins) == some 1,
    runs (.kvPinPrefetch 9 3) (zCmd [cmdEx 0x13 true [(16, 7), (18, 2), (24, 8)]] (zSeqs seqLeaf [skEx .spilled])) fun t => (t.seq? 7).map (·.returns) == some [0],
    runs (.freeingComplete 7) (zSeqs { seqLeaf with freeing := true } []) fun t => (t.seq? 7).isNone,
    runs (.thimbleFlush 7) zFlush fun t => (t.seq? 7).map (·.used) == some 7,
    runs (.skeinSpill 7) (zSeqs seqLong [{ skEx .live with pins := 0 }, skEx .live]) fun t => (t.skein? 0).map (·.st) == some .spilling,
    runs (.skeinReturn 7 0) (zSeqs { seqLeaf with returns := [0] } [skEx .spilled]) fun t => (t.skein? 0).map (·.unit) == some 1,
    runs (.returnComplete 0 true) (zSeqs seqLeaf [skEx .returning]) fun t => t.get SK_STAT_RETURNS == 1 && t.byteAt (t.skBase + 1) == 2,
    runs (.returnComplete 0 false) (zSeqs seqLeaf [skEx .returning]) fun t => t.reg GLB_FAULT_LAST == 0x1A5020] = true := by decide +kernel

/-- Turn 6's program runs; hoop 0, its only hoop, has ended and reached checkpoint 0. -/
def zProg : State :=
  let s := zH rEx
  let s1 := s.setHoop 0 { (default : Hoop) with st := .ended, ckpt := some 0 }
  { s1 with
    eng := { s1.eng with sched := { s1.eng.sched with header := [0, 0, 1, 1] ++ List.replicate 68 0 ++ [1] } }
    loom := { s1.loom with turns := [{ run := 0, turn := 6, gen := 0 }] } }

/-- A relocation is being applied, before its table is read and after. -/
def zReloc (l : Option (List Nat)) : State := { zr with eng := { zr.eng with reloc := { zr.eng.reloc with applying := some 3, logical := l } }, hg := { zr.hg with nextTurn := 4 } }

/-- The Governor with a frame, a ramp or an idle line. -/
def zGov (g : Gov) : State := fl [(TE_CTL_GOV_EN, 1), (HG_TURN_CTL_ACTIVE, 1)] { zr with eng := { zr.eng with gov := g } }

theorem wit_EngineSchedulesAndGoverns : allTrue [z.writeOk 9 TE_RETIRE, (opened TE_RETIRE z).writeOk 8 TE_RETIRE, (opened TE_RETIRE z).role 30 != 1,
    z.retired 30 == false, (z.hoop 30).firing.isNone, z.applying == false, (wr [(TE_RETIRED_LO, 2 ^ 30)] (opened TE_RETIRE z)).retired 30,
    (zReloc none).eng.reloc.applying == some 3, (zReloc none).eng.sched.running.isNone, (zReloc none).eng.sched.pending.isNone, decide (3 < (zReloc none).hg.nextTurn),
    ((zReloc none).pinnedRead schedIid (zReloc none).relocTenant (zReloc none).relocVa 12 {}).2 == none,
    ((zReloc none).pinnedRead schedIid (zReloc none).relocTenant (zReloc none).relocVa 12 {}).1.eng == (zReloc none).eng, (zReloc (some [])).eng.reloc.logical.isSome,
    zProg.eng.sched.running == some 6, zProg.eng.sched.reached.isNone, decide (0 ≤ zProg.lastCkpt), zProg.ckptReached 0,
    { zProg with eng := { zProg.eng with sched := { zProg.eng.sched with reached := some (0, 5) } } }.eng.sched.reached == some (0, 5),
    (zGov { frame := some (750, false) }).eng.gov.frame.isSome, (zGov { ramp := true }).eng.gov.ramp, (zGov {}).is TE_CTL_GOV_EN,
    (zGov {}).is HG_TURN_CTL_ACTIVE, (zGov {}).is TE_STATUS_GOV_HOLD == false, (zGov {}).pwr.cap == false,
    max (zGov { vEnd := 900 }).eng.gov.vEnd ((zGov {}).reg TE_GOV_VFLOOR).toNat != (zGov { vEnd := 900 }).eng.gov.v, zProg.eng.sched.pending.isNone, zProg.progDone,
    runs (.hoopRetire 9 30) z fun t => t.reg GLB_FAULT_LAST == 0x9400C, runs (.hoopRetire 8 30) (opened TE_RETIRE z) fun t => t.retired 30 && !t.retired 29,
    runs .relocationApply (zReloc none) fun t => t.reg GLB_FAULT_LAST == 0xA4002, runs .relocationComplete (zReloc (some [])) fun t => t.get TE_RELOC_STAT_STATE == 3,
    runs (.checkpoint 0) zProg fun t => t.eng.sched.reached == some (0, 256 * 10 ^ 9),
    runs (.avsResponse false 1) (zGov { frame := some (750, false) }) fun t => t.reg TE_GOV_VNOW == 750 && t.eng.gov.ramp,
    runs (.avsResponse true 1) (zGov { frame := some (750, true) }) fun t => t.is TE_STATUS_GOV_HOLD && t.reg GLB_FAULT_LAST == 0xA4007,
    runs .avsRampEnd (zGov { ramp := true }) fun t => !t.eng.gov.ramp,
    runs .govPreturnSet (zGov { vEnd := 900 }) fun t => t.eng.gov.frame == some (900, false),
    runs .programEnd zProg fun t => t.loom.turns.all (·.ended) && t.eng.sched.running.isNone] = true := by decide +kernel

/-- Tenant 0's pool window is 2 MiB at DPA 0, and its function is enabled. -/
def zWin : State := fl [(HI_FUNC_STAT_DISABLED 0, 0)] (wr [(HI_PWIN_SIZE 0, 1)] zMap)

/-- The write-back buffer holds line 3, a line is being filled, scrub runs, and tenant 0 has a fault. -/
def zMemq : State :=
  let s := fl [(MEM_SCRUB_CFG_EN, 1), (MEM_RC_CTL_FLUSH, 1)] zMap
  { s with
    mem := { s.mem with wb := [3], filling := [5] }
    atu := { s.atu with faults := [(0, [⟨1, 2, true, 9, 0x5000⟩])], pts := [⟨.loom, 0, 0, 0, 0, true, true⟩, ⟨.loom, 1, 0, 0, 0, true, true⟩] } }

theorem wit_MemoryHoldsWhatIsWritten : allTrue [decide (Memory.wf zWin), zWin.pwinReq 0 0x500 2 true [7, 8], zWin.pwinCheck 0 0x500 2 true == none,
    (zWin.protOf 0x500).isNone, zWin.pwinReq 0 0x10000 2 false [], zWin.pwinCheck 0 0x10000 2 false == none, zWin.poisoned (0x10000 / 64) == false,
    zWin.pwinReq 0 0x200000 2 true [7, 8], zWin.pwinCheck 0 0x200000 2 true == some 0x900B, decide (Memory.wf zMemq), zMemq.mem.wb == [3],
    z.writeOk 9 MEM_RC_CTL, zMemq.is MEM_RC_CTL_FLUSH, zMemq.mem.filling.contains 5, zMemq.is MEM_SCRUB_CFG_EN, decide (zMemq.get MC_PWR_STAT_STATE < 2),
    decide (zMemq.mem.scrubbed + 1 < scrubLines), zMemq.poisoned 9 == false, z.writeOk 9 (AT_INV_CTL 0), zMemq.readOk 9 (AT_FAULT_INFO 0),
    runs (.poolWindowAccess 0 0x500 true 2 [7, 8] false .none) zWin fun t => t.byteAt 0x500 == 7 && t.byteAt 0x501 == 8 && t.byteAt 0x502 == 0,
    runs (.poolWindowAccess 0 0x10000 false 2 [] false .none) zWin fun t => t.outbox == [.poolData 0 [0x5A, 0] false],
    runs (.poolWindowAccess 0 0x200000 true 2 [7, 8] false .none) zWin fun t => t.reg GLB_FAULT_LAST == 0x900B,
    runs .writebackDrain zMemq fun t => t.mem.wb == [], runs (.reelFlush 9) z fun t => t.is MEM_STATUS_FLUSHING, runs .reelFlushDone zMemq fun t => !t.is MEM_RC_CTL_FLUSH,
    runs (.reelFillComplete 5 true) zMemq fun t => t.mem.filling == [],
    runs (.scrubLine 9 .corrected) zMemq fun t => t.reg (MEM_ECC_CE (bobbinOf (9 * 64))) == 1 && t.mem.scrubbed == 1,
    runs (.scrubLine 9 .uncorrectable) zMemq fun t => t.poisoned 9 && t.reg GLB_FAULT_LAST == 0x1B5011,
    runs (.atuInvalidate 9 0 0xC0000000) zMemq fun t => t.atu.pts.length == 1 && t.is (AT_INV_CTL_GO 0), runs (.atuInvalidateDone 0) zMemq fun t => !t.is (AT_INV_CTL_GO 0),
    runs (.atuFaultPop 9 0) zMemq fun t => t.atu.faults == [] && (lastRead t).map (fun v => v.toNat % 16) == some 1] = true := by decide +kernel

/-- Tenant 2 is the fabric manager. -/
def zFm : State := fl [(PL_FM_VALID, 1), (PL_FM_TENANT, 2)] (opened (PL_RGN_CFG 3) zMap)

/-- Region 3 in a state with a size. -/
def zRgn (st : Nat) : State := fl [(PL_RGN_CFG_STATE 3, st)] (wr [(PL_RGN_SIZE 3, 1)] zFm)

/-- Extent 5 in a state, held by tenant 0 under generation 6. -/
def zExt (st : Nat) : State := fl [(PL_EXT_STATE_STATE 5, st), (PL_EXT_STATE_GEN 5, 6)] (fl [(PL_FM_VALID, 1)] zMap)

theorem wit_PoolSharesAndRevokes : allTrue [zFm.isFm 9 == false, zFm.writeOk 9 (PL_RGN_CFG 3), zFm.isFm 2, zFm.writeOk 2 (PL_RGN_CFG 3), (zRgn 0).get (PL_RGN_CFG_STATE 3) == 0,
    ((zRgn 0).rangeCheck 3 0 1 0) == none, (zFm.rangeCheck 3 0 0 0).isSome, (zRgn 1).get (PL_RGN_CFG_STATE 3) == 1, (zRgn 1).writeOk 2 (PL_RGN_CFG 3),
    ((zRgn 1).reg (PL_RGN_CFG 3) &&& BitVec.ofNat 32 rgnCfgMask) == ((2 : Word) &&& BitVec.ofNat 32 rgnCfgMask), (zRgn 2).get (PL_RGN_CFG_STATE 3) == 2,
    spGet (fun _ => none) (after (.regionStateWrite 2 3 2) (zRgn 1)).pool.next 3 == some 2, exe (isOp 0x18) (cmdEx 0x18 false [(16, 5), (24, 1)]) [] (zExt 0),
    exe (isOp 0x18) (cmdEx 0x18 false [(16, 5), (24, 1)]) [] (zExt 1), (zExt 0).is PL_FM_VALID, (zExt 0).rangeCheck 16 0 1 0 == none,
    exe (isOp 0x19) (cmdEx 0x19 false [(16, 5), (18, 7)]) [] (zExt 1), exe (isOp 0x19) (cmdEx 0x19 false [(16, 5), (18, 6)]) [] (zExt 1),
    exe (isOp 0x19) (cmdEx 0x19 false [(16, 5), (17, 1), (18, 6)]) [] (zExt 1), ((zExt 1).get (PL_EXT_STATE_HOLDER 5)).testBit 3 == false,
    exe (isOp 0x1A) (cmdEx 0x1A true [(16, 5), (18, 7)]) [] (zExt 1), exe (isOp 0x1A) (cmdEx 0x1A true [(16, 5), (18, 6)]) [] (zExt 1),
    some (holderOf ((zExt 1).get (PL_EXT_STATE_HOLDER 5))) == (cmdEx 0x1A true [(16, 5), (18, 6)]).tenant, (zExt 2).get (PL_EXT_STATE_STATE 5) == 2,
    (zExt 3).get (PL_EXT_STATE_STATE 5) == 3,
    runs (.regionStateWrite 9 3 1) zFm fun t => t.reg GLB_FAULT_LAST == 0x97001, runs (.regionStateWrite 2 3 1) (zRgn 0) fun t => t.get (PL_RGN_CFG_STATE 3) == 1,
    runs (.regionStateWrite 2 3 2) (zRgn 1) fun t => t.is (PL_RGN_STAT_DRAINING 3),
    runs (.regionDrainComplete 3) (after (.regionStateWrite 2 3 2) (zRgn 1)) fun t => t.get (PL_RGN_CFG_STATE 3) == 2,
    runs (.extentGrant 9 3) (zCmd [cmdEx 0x18 false [(16, 5), (24, 1)]] (zExt 0)) fun t => t.get (PL_EXT_STATE_GEN 5) == 7 && (t.tkRecs 9).map (·.result) == [7],
    runs (.extentRecall 9 3) (zCmd [cmdEx 0x19 false [(16, 5), (18, 6)]] (zExt 1)) fun t => t.get (PL_EXT_STATE_STATE 5) == 2 && (t.reg (PL_NOTICE 0)).getLsbD 5,
    runs (.extentRelease 9 3) (zCmd [cmdEx 0x1A true [(16, 5), (18, 7)]] (zExt 1)) fun t => (t.tkRecs 9).map (·.status) == [0x7011],
    runs (.recallGraceExpiry 5) (zExt 2) fun t => t.is PL_STATUS_REVOKING, runs (.revocationComplete 5) (zExt 3) fun t => t.get (PL_EXT_STATE_STATE 5) == 0] =
    true := by decide +kernel

/-! ### Witnesses: functions, resets, power, Selvedge -/

/-- Function 1 with VFE where asked, and port A's link up. -/
def zFn : State := fl [(HI_FUNC_STAT_DISABLED 1, 0)] (wr [(HI_STATUS, 1)] z)

theorem wit_FunctionsComeAndGo : allTrue [fnOn 1 true true true, fnOn 1 true false true == false, z.is (HI_FUNC_STAT_FLR 1) == false,
    (fl [(HI_FUNC_STAT_FLR 1, 1)] z).is (HI_FUNC_STAT_FLR 1), zFn.is (HI_FUNC_STAT_DISABLED 1) == false, zFn.reg GLB_FAULT_FIRST == 0,
    (zFn.reg HI_STATUS).getLsbD 0, (z.reg HI_STATUS).getLsbD 0 == false,
    runs (.functionDisable 1 true false true) zFn fun t => t.is (HI_FUNC_STAT_DISABLED 1) && t.reg GLB_FAULT_FIRST == 0x19009,
    runs (.functionLevelReset 1) zFn fun t => t.is (HI_FUNC_STAT_FLR 1) && t.reg GLB_FAULT_FIRST == 0x19009,
    runs (.functionLevelResetDone 1) (fl [(HI_FUNC_STAT_FLR 1, 1)] z) fun t => !t.is (HI_FUNC_STAT_FLR 1),
    runs (.linkDown 0) zFn fun t => t.reg GLB_FAULT_FIRST == 0x900A && t.is (HI_FUNC_STAT_DISABLED 3)] = true := by decide +kernel

/-- Straps of device 0, and the two flash slots. -/
def strapEx (test : Bool) : Straps := { (default : Straps) with testEn := test }
def flashEx (a b : Bool) : BootFlash := { (default : BootFlash) with paenoA := a, paenoB := b }

/-- In recovery; and with tenant 2 as the power owner of a running image of ROLLBACK 5. -/
def zRecov : State := { z with boot := { z.boot with recovery := true } }
def zOwner : State := fl [(MC_PWR_OWNER_VALID, 1), (MC_PWR_OWNER_TENANT, 2)] (opened MC_BOOT_CTL { z with boot := { z.boot with rollback := 5 } })

theorem wit_ResetsKeepWhatTheSpecSays : allTrue [(strapEx false).testEn == false, (strapEx true).testEn, (flashEx true false).paenoA, z.writeOk 9 MC_RST_CTL,
    z.writeOk 9 MC_LOCK, zOwner.is MC_PWR_OWNER_VALID, zOwner.get MC_PWR_OWNER_TENANT == 2, z.writeOk 9 MC_BOOT_CTL, zRecov.boot.recovery, zRecov.boot.lock == false,
    zRecov.writeOk 9 MC_RECOV_GO, z.writeOk 9 MC_RECOV_GO,
    runs (.coldReset (strapEx false) (flashEx false true)) z fun t => t.boot.slot && t.boot.stage == 1 && !t.boot.recovery,
    runs (.coldReset (strapEx false) (flashEx false false)) z fun t => t.boot.recovery, runs (.coldReset (strapEx true) (flashEx true true)) z fun t => t.boot.stage == 0,
    runs .vddRefFall (zRef asmEx) fun t => t.ref.halted && !t.ref.on, runs (.configLock 9 1) z fun t => t.boot.lock && t.boot.stage == 5,
    runs (.portReset 1) (wr [(HI_STATUS, 0x101)] z) fun t => t.reg HI_STATUS == 1 && t.pwr.perst.testBit 1,
    runs (.recoveryLoad 9 1 false 3) zRecov fun t => t.reg GLB_FAULT_LAST == 0x9C00A] = true := by decide +kernel

/-- A boot stage with some rails enabled. -/
def zRail (stage en pg : Nat) : State := fl [(MC_RAIL_STAT_EN, en), (MC_RAIL_STAT_PG, pg)] { z with boot := { z.boot with stage := stage } }

theorem wit_RailsTrainingAndReel : allTrue [((zRail 1 1 0).get MC_RAIL_STAT_EN).testBit 0, ((zRail 1 1 0).get MC_RAIL_STAT_EN).testBit 1 == false,
    (zRail 1 1 0).boot.stage == 1, setBits ((zRail 1 15 7).get MC_RAIL_STAT_PG) 3 1 1 == 15, setBits ((zRail 1 1 0).get MC_RAIL_STAT_PG) 0 1 1 != 15,
    (zRail 2 15 15).boot.stage != 1, ((zRail 2 15 15).get MC_RAIL_STAT_PG).testBit 3, (zRail 2 15 15).reg GLB_FAULT_FIRST == 0, decide ((zRail 2 15 15).boot.stage < 3),
    (zRail 2 15 15).boot.recovery == false, (zRail 2 15 15).boot.retried.testBit 1 == false, zRecov.boot.recovery, decide (3 ≤ (zRail 3 15 15).boot.stage),
    (fl [(MEM_STATUS_REEL_READY, 1)] z).is MEM_STATUS_REEL_READY, z.is MEM_STATUS_REEL_READY == false,
    runs (.powerGoodRise 0) (zRail 1 1 0) fun t => t.get MC_RAIL_STAT_EN == 3 && t.get MC_RAIL_STAT_PG == 1,
    runs (.powerGoodRise 3) (zRail 1 15 7) fun t => t.boot.stage == 2,
    runs (.railFault 3) (zRail 2 15 15) fun t => t.get MC_RAIL_STAT_PG == 7 && t.reg GLB_FAULT_FIRST == 0x9C007,
    runs (.bobbinTrainingDone 15) (zRail 2 15 15) fun t => t.boot.stage == 3, runs (.bobbinTrainingDone 13) (zRail 2 15 15) fun t => t.boot.retried.testBit 1,
    runs (.bobbinTrainingDone 13) (after (.bobbinTrainingDone 13) (zRail 2 15 15)) fun t => t.boot.recovery && t.reg GLB_FAULT_LAST == 0x9C002,
    runs .reelInit z fun t => t.reg GLB_FAULT_LAST == 0x9C004, runs .reelReady z fun t => t.is MEM_STATUS_REEL_READY] = true := by decide +kernel

/-- Device Time runs, and this is the power state; every wake is enabled. -/
def zPow (st : Nat) : State := fl [(MC_PWR_STAT_STATE, st)] (wr [(MC_WAKE_EN, 0xFFFFFFFF), (MC_WAKE_AT_LO, 1000001000)] zr)

/-- Tenant 2 is the power owner and may be told. -/
def zTell : State :=
  fl [(MC_PWR_OWNER_VALID, 1), (MC_PWR_OWNER_TENANT, 2), (HI_FUNC_STAT_MSE 2, 1), (HI_FUNC_STAT_BME 2, 1)] (wr [(HI_STATUS, 1), (MC_WAKE_PEND, 4)] (zPow 0))

/-- Port p is UP and locked. -/
def zUp : State :=
  let s := fl [(SV_CFG_MEMBERS, 2), (SV_CFG_TWIN, 1), (SV_PORT_STAT_STATE 0, 4), (SV_PORT_STAT_STATE 1, 4), (SV_PORT_CTL_EN 0, 1), (SV_PORT_CTL_EN 1, 1)] zr
  let up : SvPort := { locked := true, credit := [64, 64, 64, 64] }
  (s.setSvPort 0 up).setSvPort 1 up

theorem wit_PowerStatesWakesAndUpkeep : allTrue [zr.is MC_PWR_STAT_MOVING == false, zr.get MC_PWR_STAT_STATE == 0, zr.pwr.entering.isNone, zr.pwr.leaving.isNone,
    { zr with pwr := { zr.pwr with entering := some 2 } }.pwr.entering == some 2, { zr with pwr := { zr.pwr with leaving := some 1 } }.pwr.leaving == some 1,
    (zPow 1).sleepLevel == 1, (fl [(HG_TURN_CTL_ACTIVE, 1)] (zPow 1)).sleepLevel == 1, decide (2 ≤ (zPow 3).sleepLevel ∧ (zPow 3).sleepLevel ≤ 4), (zPow 3).wakeOn 0,
    (zPow 3).pwr.wakeMet != some ((zPow 3).pair MC_WAKE_AT_LO), decide ((wr [(MC_NEXT_EV_HI, 0)] (zPow 3)).pair MC_NEXT_EV_LO < 0xFFFFFFFF * 2 ^ 32), (zPow 3).wakeOn 6,
    { zPow 3 with pwr := { (zPow 3).pwr with perst := 3 } }.pwr.perst.testBit 1, decide ((zPow 0).sleepLevel < 2), (zPow 0).sleepLevel == 0, zTell.ownerReady, zTell.reg MC_WAKE_PEND != 0,
    zr.ownerReady == false, (opened MC_PWR_REQ zr).writeOk 9 MC_PWR_REQ, (fl [(HG_TURN_CTL_ACTIVE, 1)] zr).active, zr.active == false, zUp.svState 0 == 4, zUp.track.store == [], (zUp.svPort 0).queue == [],
    { zUp with hg := { zUp.hg with dt := 256 * 10 ^ 15 } }.calDue 0 (zUp.get MC_CAL_CFG_IDLE_MIN_S), zr.svState 0 != 4,
    runs .powerStateEntryDone { zr with pwr := { zr.pwr with entering := some 2 } } fun t => t.get MC_PWR_STAT_STATE == 2,
    runs .powerStateExitDone { zr with pwr := { zr.pwr with leaving := some 1 } } fun t => t.get MC_PWR_STAT_STATE == 0 && t.pwr.leaving.isNone,
    runs .wakeTime (zPow 3) fun t => (t.reg MC_WAKE_PEND).getLsbD 0 && t.pwr.leaving.isSome && t.now == 1000001000,
    runs (.wakeIn 10000) (zPow 3) fun t => (t.reg MC_WAKE_PEND).getLsbD 6, runs (.wakeIn 9999) (zPow 3) fun t => t.reg MC_WAKE_PEND == 0,
    runs (.hostWake 1 2) { zPow 3 with pwr := { (zPow 3).pwr with perst := 3 } } fun t => (t.reg MC_WAKE_PEND).getLsbD 3 && t.pwr.perst == 1,
    runs .wakeReport zTell fun t => t.reg MC_WAKE_RPT == 4 && t.reg MC_WAKE_PEND == 0,
    runs (.prepOff 9 0x103) (fl [(HG_TURN_CTL_ACTIVE, 1)] (opened MC_PWR_REQ zr)) fun t => t.reg GLB_FAULT_LAST == 0x9C008,
    runs (.prepOff 9 0x103) (opened MC_PWR_REQ zr) fun t => t.is MEM_STATUS_FLUSHING && t.get MC_PWR_REQ_DEEPEST == 3,
    runs (.thermalSample [40, 95, 30, 20, 10, 0, -5, 7] [60, 61, 62, 63] 900) z fun t => t.get MC_TEMP_MAX_TJ == 95 && t.get MC_TEMP_MAX_SENSOR == 1 && t.reg MC_POWER == 900,
    runs (.wearLevel 3 50) z fun t => t.get MEM_REEL_STAT_FREE_PCT == 3,
    runs (.idleCal 0) { zUp with hg := { zUp.hg with dt := 256 * 10 ^ 15 } } fun t => t.svState 0 == 5 && t.outbox == [.svCal 0],
    runs (.forcedCal 1) zUp fun t => t.svState 1 == 5] = true := by decide +kernel

/-- Port 0 in a state. -/
def zPs (st : Nat) (x : SvPort := {}) : State := (fl [(SV_PORT_STAT_STATE 0, st)] zUp).setSvPort 0 x

/-- A message in flight. -/
def txEx (m : SvMsg) (tries : Nat) : SvTx := { (default : SvTx) with msg := m, dst := 1, tries := tries }

theorem wit_SelvedgePortsTrainAndRecover : allTrue [zUp.writeOk 9 (SV_PORT_CTL 0), (zPs 0).svState 0 == 0, (zPs 0).svMembers == 2, ((zPs 0).svPort 0).retry.isNone, z.svMembers == 1,
    (zPs 1).svState 0 == 1, (zPs 2).svState 0 == 2, (zPs 0 { retry := some 5 }).is (SV_PORT_CTL_EN 0), (zPs 3).svState 0 == 3, (zPs 4).svState 0 == 4, (zPs 5).svState 0 == 5, zUp.svUsable 0,
    (zPs 1).svUsable 0 == false, ((zPs 2 { blk := 15 }).svPort 0).blk.testBit 3, (zPs 4).svIgnores 0 == false, (zPs 4 { calRx := some (256 * 10 ^ 9) }).svIgnores 0,
    ((zPs 4).svPort 0).queue == [], (0x8000 : BitVec 16).getLsbD 15, (dropAcked 0 ((zPs 4 { unacked := [{ txEx .detach 7 with lseq := 1 }] }).svPort 0).unacked).any (fun m => decide (7 ≤ m.tries)),
    ((zPs 4 { queue := [txEx (.handover 1 1) 0] }).svPort 0).queue.any (fun m => m.msg.stale), ((zPs 4 { queue := [txEx (.handover 1 1) 0] }).svPort 0).locked == false, (zUp.svPort 0).locked,
    runs (.svPortEnable 9 0) (zPs 0) fun t => t.svState 0 == 1, runs (.svPortDisable 9 0) (zPs 4) fun t => t.svState 0 == 0 && !t.is (SV_PORT_CTL_EN 0),
    runs (.laneTrainingDone 0) (zPs 1) fun t => t.svState 0 == 2, runs (.linkTrainFail 0) (zPs 2) fun t => t.reg GLB_FAULT_LAST == 0x18A001 && (t.svPort 0).retry.isSome,
    runs (.svTrainRetry 0) (zPs 0 { retry := some 5 }) fun t => t.svState 0 == 1, runs (.svInitDone 0) (zPs 3) fun t => t.svState 0 == 4 && (t.svPort 0).rxLseq == 4095,
    runs (.selvedgeCal 0) (zPs 4) fun t => t.svState 0 == 5, runs (.calTimeout 0) (zPs 5) fun t => t.svState 0 == 1 && t.reg GLB_FAULT_LAST == 0x18A002,
    runs (.laneMarkerLock 0 3 true) (fl [(SV_PORT_STAT_LANES_LOCKED 0, 7)] (zPs 2 { blk := 15 })) fun t => t.svState 0 == 3,
    runs (.laneBlockLockLoss 0 3) (fl [(SV_PORT_STAT_LANES_LOCKED 0, 15)] (zPs 4 { blk := 15 })) fun t => t.reg GLB_FAULT_LAST == 0x18A002,
    runs (.creditBlock 0 0x8000 0 0) (zPs 4 { unacked := [{ txEx .detach 7 with lseq := 1 }] }) fun t => t.svState 0 == 1,
    runs (.creditBlock 0 0x8000 2 5) (zPs 4 { unacked := [{ txEx .detach 0 with lseq := 1 }] }) fun t => t.get (SV_PORT_ERR_REPLAY 0) == 1,
    runs (.txStaleDrop 0) (zPs 4 { queue := [txEx (.handover 1 1) 0] }) fun t => (t.svPort 0).queue == [] && t.reg GLB_FAULT_LAST == 0x18A031,
    runs (.svTxPllLockLoss 0) zUp fun t => !(t.svPort 0).locked] = true := by decide +kernel

/-- The hypotheses Arrives, ForUs and InOrder, evaluated. -/
def arrives (h : SvHead) (cls : Nat) (s : State) : Bool :=
  decide ((s.svState h.port = 4 ∨ s.svState h.port = 5) ∧ s.svHeldUnits h.port cls + svUnits h.len ≤ svCap cls ∧ h.crcOk = true ∧
    h.lseq.toNat = ((s.svPort h.port).rxLseq + 1) % 4096 ∧ (s.svPort h.port).bad = false)

def forUs (h : SvHead) (s : State) : Bool := decide (h.bcast = false ∧ h.dst.val = s.svDev)

def inOrder (h : SvHead) (cls : Nat) (s : State) : Bool :=
  arrives h cls s && forUs h s && decide (h.e2e.toNat = s.svNextE2e h.src cls ∧ s.sv.early = [] ∧ s.sv.full = [])

theorem arrives_iff (h : SvHead) (cls : Nat) (s : State) : arrives h cls s = true ↔ Arrives h cls s := by simp [arrives, Arrives]

theorem inOrder_iff (h : SvHead) (cls : Nat) (s : State) : inOrder h cls s = true ↔ InOrder h cls s := by
  simp [inOrder, InOrder, arrives_iff, forUs, ForUs, and_assoc]

/-- Device 1 is live, or lost. -/
def zPeer (x : SvPeer) : State := fl [(SV_STATUS_LIVE, 3), (SV_STATUS_OWNER, 1), (SV_CTL_EN, 1)] (zUp.setSvPeer 1 x)

theorem wit_SelvedgeMessagesAct : allTrue [arrives (hd 0 false) 0 zUp, zUp.svState 0 == 4, arrives (hd 0 true) 0 zUp, (zUp.svPeer 1).hello.isNone, zUp.svDev == 0, zUp.svMembers == 2,
    zUp.is SV_CFG_TWIN, zUp.is SV_CFG_ROLE == false, (BitVec.ofNat 8 Config.stepping).toNat == Config.stepping, ((zPeer {}).svPeer 1).lost == false, ((zPeer { lost := true }).svPeer 1).staleSaid == false,
    (zPeer {}).is SV_CTL_EN, ((zPeer { hbAt := some 0 }).svPeer 1).hbAt == some 0, (zPeer {}).reg GLB_FAULT_FIRST == 0, forUs (hd 0 false) zUp, (zUp.svPort 0).unacked == [],
    decide (1 ≤ (zUp.svPort 0).credit.getD 0 0), zUp.turnsRun == false, (fl [(HG_TURN_CTL_ACTIVE, 1), (HG_TURN_CTL_STARTED, 1)] { zUp with hg := { zUp.hg with nextTurn := 9 } }).turnsRun,
    zUp.sv.early == [], (zPeer {}).writeOk 9 SV_HANDOVER, (zPeer {}).is SV_STATUS_OWNER, (zPeer {}).is SV_CFG_TWIN, zUp.writeOk 9 SV_CTL, zUp.is SV_CTL_EN == false, zUp.svNextE2e 1 0 == 0,
    runs (.badMsg (hd 0 false) 0x7F) zUp fun t => t.get (SV_PORT_ERR_BAD_MSG 0) == 1, runs (.heartbeat { hd 0 true with crcOk := false } 0 0 false 0 0 0 false) zUp fun t =>
      t.outbox == [.svCredit 0 4095 true 0 0], runs (.hello (hd 0 true) 0 2 true true 1) zUp fun t => t.reg GLB_FAULT_LAST == 0x18A010,
    runs (.hello (hd 0 true) 1 2 true true (BitVec.ofNat 8 Config.stepping)) zUp fun t => (t.svPeer 1).hello.isSome,
    runs (.heartbeat (hd 0 true) 5 3 true 9 8 7 false) (zPeer {}) fun t => (t.svPeer 1).owner && (t.svPeer 1).epoch == 9,
    runs (.heartbeat (hd 0 true) 5 3 true 9 8 7 false) (zPeer { lost := true }) fun t => t.reg GLB_FAULT_LAST == 0x18A013,
    runs .heartbeatSend (zPeer {}) fun t => t.sv.hbSeq == (zPeer {}).sv.hbSeq + 1, runs (.heartbeatLoss 1) (zPeer { hbAt := some 0 }) fun t => t.get SV_STATUS_LIVE == 1 && t.reg GLB_FAULT_FIRST == 0x18A012,
    runs (.timeExchangeSend 0) zUp fun t => (t.svPort 0).timeAt == 256 * 10 ^ 9, runs (.time (hd 0 false) true 999999000 999999500 999999600) zUp fun t =>
      t.reg (SV_PEER_DELAY 0) == 450 && (t.svPort 0).ofs == some 50, runs (.time (hd 0 false) false 7 0 0) zUp fun t =>
      t.outbox.any fun o => match o with | .svMsg 0 x => x.msg == .time true 7 1000000000 1000000000 | _ => false,
    runs (.handover (hd 0 false) 12 3) zUp fun t => t.sv.take == some (12, 3), runs (.detach (hd 0 false)) (zPeer {}) fun t => (t.svPeer 1).lost && t.get SV_STATUS_LIVE == 1,
    runs (.notice (hd 0 false) 5 6) zUp fun t => t.outbox.contains (.noticeIn 1 5 6), runs (.notice { hd 0 false with e2e := 1 } 5 6) zUp fun t => t.sv.early.length == 1,
    runs (.triggerHandover 9 12) (zPeer {}) fun t => (t.sv.give.map (·.1)) == some 12, runs (.svEnable 9) zUp fun t => t.is SV_CTL_EN,
    runs (.svDetach 9) (zPeer {}) fun t => t.sv.detaching || t.get SV_STATUS_STATE == 0] = true := by decide +kernel

/-- Region entries admit every requester; the twin is up. -/
def zMir : State := wr [(HI_FENCE_FIRST 0, 2 ^ 31), (HI_FENCE_LAST 0, 0xFFFFFF), (HI_FENCE_RD 0, 0xFFFFFFFF), (HI_FENCE_WR 0, 0xFFFFFFFF)] (fl [(PL_CTL_EN, 1), (PL_STATUS_TWIN, 1), (SV_STATUS_LIVE, 3), (SV_STATUS_STATE, 2)] zUp)

/-- A RING sequence 7 of blocks of 16 tokens on device 0 of two, its owner table at VA 0, and a command of it. -/
def seqRing : Seq := { seqEx with ring := true, members := 2, blockLog := 4, ownerVa := 0, maxLen := 64 }
def zRing : State :=
  let s := fl [(SK_CTL_EN, 1)] zMap
  { zMir with sk := { s.sk with seqs := [(7, some seqRing)] }, mem := zMap.mem }

/-- The same with a window of four and a pool. -/
def zLand : State := fl [(SK_CTL_EN, 1), (SK_RING_CFG_WINDOW, 4)] (wr [(SK_POOL_SIZE, 1), (SK_POOL_BASE_LO, 0x400000)] zRing)

/-- The same, with the tables and the Track, as a store for commands. -/
def zRot : State :=
  let s := fl [(SK_CTL_EN, 1), (SV_CFG_MEMBERS, 2)] zMap
  { s with sk := { s.sk with seqs := [(7, some seqRing)] } }

theorem wit_MirrorPoolAndRingTraffic : allTrue [inOrder (hd 0 false) 1 zUp, inOrder (hd 0 false) 1 zMir, (AtDelivery (hd 0 false) 1 zMir).fenceOk (svIid 0) 0x1000 64 true,
    (AtDelivery (hd 0 false) 1 (wr [(HI_FENCE_WR 0, 0)] zMir)).fenceOk (svIid 0) 0x1000 64 true == false, spGet (fun _ => false) zMir.pool.dirty 1 == false,
    spGet (fun _ => false) { zMir with pool := { zMir.pool with dirty := [(1, true)] } }.pool.dirty 1, zMir.is SV_CFG_ROLE == false, inOrder (hd 0 false) 2 zMir, zMir.track.store == [],
    decide (2 ≤ ({ zMir with pool := { zMir.pool with mirrorWait := [64, 64] } }.pool.mirrorWait).count 64), (AtDelivery (hd 0 false) 1 zMir).remoteCheck (hd 0 false) 0x1000 64 2 false == none,
    (AtDelivery (hd 0 false) 1 (wr [(HI_FENCE_RD 0, 0), (HI_FENCE_WR 0, 0)] zMir)).remoteCheck (hd 0 false) 0x1000 64 2 false == some 0x9003,
    (AtDelivery (hd 0 false) 1 (wr [(HI_FENCE_RD 0, 0), (HI_FENCE_WR 0, 0)] zMir)).remoteCheck (hd 0 false) 0x1000 64 2 true == some 0x9003,
    (AtDelivery (hd 0 false) 1 zMir).remoteCheck (hd 0 false) 0x1000 64 2 true == none, inOrder (hd 0 false) 3 zMir, (zMir.seq? 7).isNone, ((zRing.seq? 7).filter fun x => x.ring && !x.freeing) == some seqRing,
    inOrder (hd 0 false) 3 zRing, decide ((fl [(SK_RING_CFG_WINDOW, 0)] zRing).get SK_RING_CFG_WINDOW ≤ seqRing.ringHeld), seqRing.visits 1 == false, seqRing.regions != [],
    ((AtDelivery (hd 0 false) 3 zLand).ringLand 1 7 1 0 [1] true).2,
    ((AtDelivery (hd 0 false) 3 zLand).ringForward 0 7 1 0 [1] true |>.ringLand 1 7 1 0 [1] true).2,
    zMir.pool.dirty == [], { zMir with pool := { zMir.pool with dirty := [(1, true)] } }.twinUp, exe (isPin 3) (cmdEx 0x13 true [(16, 7), (18, 3), (24, 4)]) [] zRot,
    (match (zCmd [cmdEx 0x13 true [(16, 7), (18, 3), (24, 4)]] zRot).ringCmd (cmdEx 0x13 true [(16, 7), (18, 3), (24, 4)]) with | .ok x => x == seqRing | _ => false), zRot.sv.full == [],
    (match (zRot.foreign skIid seqRing [0, 1, 2, 3]).2 with | .ok l => l.length == 1 | _ => false),
    (match ((fl [(AT_CTL_EN, 0)] zRot).foreign skIid seqRing [0, 1, 2, 3]).2 with | .error _ => true | _ => false),
    exe (isPin 4) (cmdEx 0x13 true [(16, 7), (18, 4), (24, 4)]) [] zRot,
    runs (.mirrorWr (hd 0 false) 0x1000 (List.replicate 64 9) .none) zMir fun t => t.byteAt 0x103F == 9, runs (.mirrorAck (hd 0 false) 64 0)
      { zMir with pool := { zMir.pool with mirrorWait := [64, 64] } } fun t => t.pool.mirrorWait == [64],
    runs (.poolWr (hd 0 false) 0x1000 (List.replicate 64 9) 2 .none) zMir fun t => t.byteAt 0x1000 == 9, runs (.ringBlock (hd 0 false) 7 1 0 [1] true) zMir fun t => t.sk == zMir.sk,
    runs (.ringBlock (hd 0 false) 7 1 0 [1] true) (fl [(SK_RING_CFG_WINDOW, 0)] zRing) fun t => t.sv.full.length == 1,
    runs .resilverGranule { zMir with pool := { zMir.pool with dirty := [(1, true)] } } fun t => t.pool.dirty == []] = true := by decide +kernel

end Sys2Proof.Tests
end

section
/-! How turns are armed, counted and stopped (O21): what the other units leave of the Hourglass, and the four commands. -/

namespace Sys2Proof.Machine

open Reg

/-! ### The Hourglass as the other units see it -/

/-- The offset lies outside the Hourglass's register block. -/
def OutsideHg (o : Nat) : Prop := o < 0x100000 ∨ 0x200000 ≤ o

@[simp] theorem outsideHg_iff (o : Nat) : OutsideHg o ↔ o < 0x100000 ∨ 0x200000 ≤ o := Iff.rfl

/-- The Hourglass: its own state, and what the registers of its block read. -/
def State.hourglass (s : State) : Hg × (Nat → Word) := (s.hg, fun o => if o < 0x100000 ∨ 0x200000 ≤ o then 0 else s.reg o)

theorem hourglass_ext {s t : State} (h : t.hg = s.hg) (r : ∀ o, ¬ OutsideHg o → t.reg o = s.reg o) :
    t.hourglass = s.hourglass := by
  refine Prod.ext h (funext fun o => ?_)
  simp only [State.hourglass]
  split
  · rfl
  · exact r o ‹_›

theorem hg_of_hourglass {s t : State} (h : t.hourglass = s.hourglass) : t.hg = s.hg := congrArg Prod.fst h

theorem reg_of_hourglass {s t : State} (h : t.hourglass = s.hourglass) {o : Nat} (ho : ¬ OutsideHg o) : t.reg o = s.reg o := by
  have e := congrFun (congrArg Prod.snd h) o
  rw [outsideHg_iff] at ho
  simpa only [State.hourglass, if_neg ho] using e

theorem is_congr {s t : State} {f : Fld} (h : t.reg f.off = s.reg f.off) : t.is f = s.is f := by
  simp only [State.is, State.get, h]

theorem pair_congr {s t : State} {o : Nat} (h : t.reg o = s.reg o) (h4 : t.reg (o + 4) = s.reg (o + 4)) : t.pair o = s.pair o := by
  simp only [State.pair, h, h4]

theorem is_of_hourglass {s t : State} (h : t.hourglass = s.hourglass) {f : Fld} (hf : ¬ OutsideHg f.off) : t.is f = s.is f :=
  is_congr (reg_of_hourglass h hf)

theorem is_putB_ne (s : State) (f g : Fld) (b : Bool) (h : f.lo + f.w ≤ 32)
    (d : f.off ≠ g.off ∨ f.lo + f.w ≤ g.lo ∨ g.lo + g.w ≤ f.lo) : (s.putB f b).is g = s.is g := is_put_ne s f g _ h d

/-- A fold of steps that leave the Hourglass alone leaves it alone. -/
theorem hourglass_foldl {α : Type} (l : List α) (f : State → α → State) (h : ∀ s x, (f s x).hourglass = s.hourglass)
    (s : State) : (l.foldl f s).hourglass = s.hourglass := by
  induction l generalizing s with
  | nil => rfl
  | cons x r ih => rw [List.foldl_cons, ih, h]

/-- The same where the fold carries a second value along. -/
theorem hourglass_foldl_fst {α β : Type} (l : List α) (f : State × β → α → State × β)
    (h : ∀ p x, (f p x).1.hourglass = p.1.hourglass) (p : State × β) : (l.foldl f p).1.hourglass = p.1.hourglass := by
  induction l generalizing p with
  | nil => rfl
  | cons x r ih => rw [List.foldl_cons, ih, h]

/-! ### Registers outside the block -/

@[simp] theorem hourglass_setReg (s : State) {o : Nat} (v : Word) (h : OutsideHg o) : (s.setReg o v).hourglass = s.hourglass :=
  hourglass_ext rfl fun _ hq => reg_setReg_ne s v fun e => hq (e ▸ h)

@[simp] theorem hourglass_put (s : State) {f : Fld} (v : Nat) (h : OutsideHg f.off) : (s.put f v).hourglass = s.hourglass :=
  hourglass_setReg s _ h

@[simp] theorem hourglass_putB (s : State) {f : Fld} (b : Bool) (h : OutsideHg f.off) : (s.putB f b).hourglass = s.hourglass :=
  hourglass_put s _ h

@[simp] theorem hourglass_bump (s : State) {f : Fld} (n : Nat) (h : OutsideHg f.off) : (s.bump f n).hourglass = s.hourglass :=
  hourglass_put s _ h

@[simp] theorem hourglass_setPair (s : State) {o : Nat} (v : Nat) (h : OutsideHg o) (h4 : OutsideHg (o + 4)) :
    (s.setPair o v).hourglass = s.hourglass := (hourglass_setReg _ _ h4).trans (hourglass_setReg s _ h)

@[simp] theorem hourglass_report (s : State) (c i : Nat) : (s.report c i).hourglass = s.hourglass := by
  unfold State.report
  split <;> simp [whole, GLB_FAULT_FIRST, GLB_FAULT_LAST, GLB_FAULT_COUNT]

@[simp] theorem hourglass_reportAll (s : State) (i : Nat) (l : List Nat) : (s.reportAll i l).hourglass = s.hourglass := by
  cases l with
  | nil => rfl
  | cons c r => simp [State.reportAll, whole, GLB_FAULT_COUNT]

@[simp] theorem hourglass_safetyLog (s : State) (t c a b d : Nat) : (s.safetyLog t c a b d).hourglass = s.hourglass := by
  simp [State.safetyLog, RF_LOG, RF_LOG_HEAD, Nat.le_add_right_of_le]

@[simp] theorem hourglass_safety (s : State) (c a b d : Nat) (t : Option Nat) : (s.safety c a b d t).hourglass = s.hourglass := by
  unfold State.safety
  split <;> simp

/-! ### Updates of other units' state -/

@[simp] theorem hourglass_with_fresh (s : State) (x : Fresh) : State.hourglass { s with fresh := x } = s.hourglass := rfl
@[simp] theorem hourglass_with_mem (s : State) (x : Mem) : State.hourglass { s with mem := x } = s.hourglass := rfl
@[simp] theorem hourglass_with_atu (s : State) (x : Atu) : State.hourglass { s with atu := x } = s.hourglass := rfl
@[simp] theorem hourglass_with_pool (s : State) (x : Pool) : State.hourglass { s with pool := x } = s.hourglass := rfl
@[simp] theorem hourglass_with_freshTab (s : State) (x : Table) : State.hourglass { s with freshTab := x } = s.hourglass := rfl
@[simp] theorem hourglass_emit (s : State) (x : Out) : (s.emit x).hourglass = s.hourglass := rfl
@[simp] theorem hourglass_setStream (s : State) (n : Nat) (x : SpStream) : (s.setStream n x).hourglass = s.hourglass := rfl
@[simp] theorem hourglass_setSvPort (s : State) (p : Nat) (x : SvPort) : (s.setSvPort p x).hourglass = s.hourglass := rfl
@[simp] theorem hourglass_setPoison (s : State) (l : Nat) (b : Bool) : (s.setPoison l b).hourglass = s.hourglass := rfl
@[simp] theorem hourglass_unpin (s : State) (f : PinOwner → Bool) : (s.unpin f).hourglass = s.hourglass := rfl
@[simp] theorem hourglass_setTrack (s : State) (f : Track → Track) : (s.setTrack f).hourglass = s.hourglass := rfl
@[simp] theorem hourglass_setSquare (s : State) (n : Nat) (x : Square) : (s.setSquare n x).hourglass = s.hourglass := rfl
@[simp] theorem hourglass_setOut (s : State) (r n : Nat) : (s.setOut r n).hourglass = s.hourglass := rfl
@[simp] theorem hourglass_complete (s : State) (c : TkCmd) (a b : Nat) : (s.complete c a b).hourglass = s.hourglass := rfl
@[simp] theorem hourglass_setEng (s : State) (f : Engine → Engine) : (s.setEng f).hourglass = s.hourglass := rfl
@[simp] theorem hourglass_setHoop (s : State) (h : Nat) (x : Hoop) : (s.setHoop h x).hourglass = s.hourglass := rfl
@[simp] theorem hourglass_modHoop (s : State) (h : Nat) (f : Hoop → Hoop) : (s.modHoop h f).hourglass = s.hourglass := rfl
@[simp] theorem hourglass_setSched (s : State) (f : Sched → Sched) : (s.setSched f).hourglass = s.hourglass := rfl
@[simp] theorem hourglass_setGov (s : State) (f : Gov → Gov) : (s.setGov f).hourglass = s.hourglass := rfl
@[simp] theorem hourglass_setReloc (s : State) (f : Reloc → Reloc) : (s.setReloc f).hourglass = s.hourglass := rfl
@[simp] theorem hourglass_dropTurns (s : State) (p : TurnRec → Bool) : (s.dropTurns p).hourglass = s.hourglass := rfl
@[simp] theorem hourglass_setWeft (s : State) (f : Weft → Weft) : (s.setWeft f).hourglass = s.hourglass := rfl
@[simp] theorem hourglass_setCanvas (s : State) (b : Nat) (c : Canvas) : (s.setCanvas b c).hourglass = s.hourglass := rfl
@[simp] theorem hourglass_setLoom (s : State) (f : Loom → Loom) : (s.setLoom f).hourglass = s.hourglass := rfl
@[simp] theorem hourglass_setPort (s : State) (p : Nat) (x : LmPort) : (s.setPort p x).hourglass = s.hourglass := rfl
@[simp] theorem hourglass_setRef (s : State) (f : Ref → Ref) : (s.setRef f).hourglass = s.hourglass := rfl
@[simp] theorem hourglass_demandStep (s : State) (d c : Nat) : (s.demandStep d c).hourglass = s.hourglass := rfl
@[simp] theorem hourglass_rollDemand (s : State) : s.rollDemand.hourglass = s.hourglass := rfl

@[simp] theorem hourglass_modCanvas (s : State) (b : Nat) (f : Canvas → Canvas) : (s.modCanvas b f).hourglass = s.hourglass := by
  unfold State.modCanvas
  split <;> rfl

/-! ### The Frame Store -/

@[simp] theorem hourglass_fsWrite (s : State) (i a : Nat) (bs : List Byte) (bad : List Nat) :
    (s.fsWrite i a bs bad).hourglass = s.hourglass :=
  hourglass_foldl _ _ (fun _ _ => hourglass_report _ _ _) _

@[simp] theorem hourglass_blur (s : State) (spans : List (Nat × Nat)) (a : Nat) (bs : List Byte) :
    (s.blur spans a bs).2.hourglass = s.hourglass := by
  induction bs generalizing s a with
  | nil => rfl
  | cons b r ih =>
    unfold State.blur
    dsimp only
    rw [ih]
    split <;> rfl

@[simp] theorem hourglass_land (s : State) (u : FsUser) (a : Nat) (bs : List Byte) (bad : List Nat) :
    (s.land u a bs bad).hourglass = s.hourglass := by
  unfold State.land
  dsimp only
  split <;> simp

@[simp] theorem hourglass_putHeader (s : State) (n : Nat) (f : SpFrame) (c : Bool) : (s.putHeader n f c).hourglass = s.hourglass :=
  hourglass_land _ _ _ _ _

/-! ### Streams, judging and absence -/

@[simp] theorem hourglass_judgeSlot (s : State) (n k : Nat) : (s.judgeSlot n k).hourglass = s.hourglass := by
  unfold State.judgeSlot
  dsimp only
  split
  · rfl
  · split
    · rfl
    · split <;> simp

@[simp] theorem hourglass_judgeSlots (s : State) (n k : Nat) : (s.judgeSlots n k).hourglass = s.hourglass := by
  induction k with
  | zero => rfl
  | succ k ih => rw [State.judgeSlots, hourglass_judgeSlot, ih]

@[simp] theorem hourglass_judgeAll (s : State) (n : Nat) : (s.judgeAll n).hourglass = s.hourglass := by
  induction n with
  | zero => rfl
  | succ n ih => rw [State.judgeAll, hourglass_judgeSlots, ih]

@[simp] theorem hourglass_handOver (s : State) (N n : Nat) : (s.handOver N n).hourglass = s.hourglass := by
  induction n with
  | zero => rfl
  | succ n ih => exact ih

@[simp] theorem hourglass_slotsStop (s : State) (n : Nat) : (s.slotsStop n).hourglass = s.hourglass := by
  induction n with
  | zero => rfl
  | succ n ih => exact ih

@[simp] theorem hourglass_demandLasting (s : State) : s.demandLasting.hourglass = s.hourglass := rfl

@[simp] theorem hourglass_holdUpdate (s : State) : s.holdUpdate.hourglass = s.hourglass := by
  unfold State.holdUpdate
  dsimp only
  repeat' split
  all_goals rfl

@[simp] theorem hourglass_absences (s : State) (N n : Nat) : (s.absences N n).hourglass = s.hourglass := by
  induction n with
  | zero => rfl
  | succ n ih =>
    unfold State.absences
    dsimp only
    split
    · exact ih
    · split
      · exact ih
      · exact (hourglass_report _ _ _).trans ih

@[simp] theorem hourglass_imuTurn (s : State) (n : Nat) : (s.imuTurn n).hourglass = s.hourglass := by
  induction n with
  | zero => rfl
  | succ n ih => exact ih

@[simp] theorem hourglass_freshTurn (s : State) (N : Nat) : (s.freshTurn N).hourglass = s.hourglass := by
  simp [State.freshTurn]

@[simp] theorem hourglass_closeWith (s : State) (n c : Nat) (f : SpFrame) (k : Nat) :
    (s.closeWith n c f k).hourglass = s.hourglass := by
  unfold State.closeWith
  dsimp only
  split <;> simp [SP_STR_STAT_LAST, SP_STR_STAT_OPEN, SP_STR_STAT, Nat.le_add_right_of_le]

@[simp] theorem hourglass_closeComplete (s : State) (n fe : Nat) : (s.closeComplete n fe).hourglass = s.hourglass := by
  unfold State.closeComplete
  dsimp only
  repeat' split
  all_goals simp

@[simp] theorem hourglass_pptClose (s : State) (n : Nat) : (s.pptClose n).hourglass = s.hourglass := by
  unfold State.pptClose
  dsimp only
  split <;> simp

@[simp] theorem hourglass_pptTurn (s : State) (n : Nat) : (s.pptTurn n).hourglass = s.hourglass := by
  induction n with
  | zero => rfl
  | succ n ih =>
    unfold State.pptTurn
    dsimp only
    repeat' split
    all_goals simp [ih]


/-! ### Selvedge messages -/

@[simp] theorem hourglass_svPump (s : State) (p : Nat) : (s.svPump p).hourglass = s.hourglass := by
  unfold State.svPump
  dsimp only
  split
  · rfl
  · exact hourglass_foldl _ _ (fun s m => hourglass_emit s (.svMsg p m)) _

@[simp] theorem hourglass_svQueue (s : State) (p : Nat) (m : SvTx) : (s.svQueue p m).hourglass = s.hourglass := by
  unfold State.svQueue
  dsimp only
  repeat' split
  all_goals simp [SV_PORT_ERR_STALE, SV_PORT_ERR, Nat.le_add_right_of_le]

@[simp] theorem hourglass_svSend (s : State) (d : Nat) (m : SvMsg) : (s.svSend d m).hourglass = s.hourglass :=
  hourglass_svQueue _ _ _

/-! ### The Bobbins and the Reel -/

@[simp] theorem hourglass_dpaRefuse (s : State) (c i : Nat) : (s.dpaRefuse c i).hourglass = s.hourglass := by
  unfold State.dpaRefuse
  dsimp only
  split <;> simp [HI_DENY_CNT_REGION, HI_DENY_CNT, PL_STAT_DENIED, PL_STAT]

@[simp] theorem hourglass_reelTouch (s : State) (l : Nat) (wr : Bool) : (s.reelTouch l wr).hourglass = s.hourglass := by
  unfold State.reelTouch
  dsimp only
  split
  · rfl
  · split
    · split <;> rfl
    · exact hourglass_bump _ _ (by simp [whole, MEM_RC_MISS])

@[simp] theorem hourglass_poisonLines (s : State) (l n : Nat) : (s.poisonLines l n).hourglass = s.hourglass := by
  induction n generalizing s l with
  | zero => rfl
  | succ n ih => exact ih _ _

@[simp] theorem hourglass_eccUe (s : State) (i l : Nat) : (s.eccUe i l).hourglass = s.hourglass := by
  unfold State.eccUe
  dsimp only
  split <;> simp [whole, MEM_REEL_ERR_UE, MEM_REEL_ERR, MEM_ECC_UE, MEM_ECC_ADDR_LO, Nat.le_add_right_of_le]

@[simp] theorem hourglass_recover (s : State) (i l : Nat) (e : MemErr) : (s.recover i l e).1.hourglass = s.hourglass := by
  unfold State.recover State.recoverBy
  dsimp only
  repeat' split
  all_goals simp [PL_STAT_REBUILT, PL_STAT]

@[simp] theorem hourglass_lineRead (s : State) (i l : Nat) (e : MemErr) : (s.lineRead i l e).1.hourglass = s.hourglass := by
  unfold State.lineRead
  dsimp only
  repeat' split
  all_goals simp [whole, MEM_REEL_ERR_CE, MEM_REEL_ERR, MEM_ECC_CE, Nat.le_add_right_of_le]

@[simp] theorem hourglass_linesRead (s : State) (i l : Nat) (e : MemErr) (n : Nat) :
    (s.linesRead i l e n).1.hourglass = s.hourglass := by
  induction n generalizing s l with
  | zero => rfl
  | succ n ih => exact (ih _ _).trans (hourglass_lineRead s i l e)

@[simp] theorem hourglass_reelSpan (s : State) (a n : Nat) (wr : Bool) : (s.reelSpan a n wr).hourglass = s.hourglass := by
  unfold State.reelSpan
  split
  · rw [hourglass_foldl _ _ fun _ _ => hourglass_reelTouch _ _ _]
    split
    · simp [MC_PWR_STAT_OFF_READY, MC_PWR_STAT]
    · rfl
  · rfl

@[simp] theorem hourglass_dpaRead (s : State) (i a n : Nat) (e : MemErr) : (s.dpaRead i a n e).1.hourglass = s.hourglass := by
  unfold State.dpaRead
  split <;> simp

@[simp] theorem hourglass_lineWrite (s : State) (i l : Nat) (w : Bool) (e : MemErr) :
    (s.lineWrite i l w e).hourglass = s.hourglass := by
  unfold State.lineWrite
  dsimp only
  repeat' split
  all_goals simp

@[simp] theorem hourglass_linesWrite (s : State) (i a n l : Nat) (e : MemErr) (k : Nat) :
    (s.linesWrite i a n l e k).hourglass = s.hourglass := by
  induction k generalizing s l with
  | zero => rfl
  | succ k ih => rw [State.linesWrite, ih, hourglass_lineWrite]

@[simp] theorem hourglass_parityLines (s : State) (b l n : Nat) : (s.parityLines b l n).hourglass = s.hourglass := by
  induction n generalizing s l with
  | zero => rfl
  | succ n ih => exact ih _ _

@[simp] theorem hourglass_mirrorSend (s : State) (l n k : Nat) : (s.mirrorSend l n k).hourglass = s.hourglass := by
  induction k generalizing s l n with
  | zero => rfl
  | succ k ih =>
    unfold State.mirrorSend
    split
    · rfl
    · exact (ih _ _ _).trans (hourglass_svSend _ _ _)

@[simp] theorem hourglass_degraded (s : State) (p : Prot) (a : Nat) : (s.degraded p a).hourglass = s.hourglass := by
  unfold State.degraded
  dsimp only
  repeat' split
  all_goals simp [PL_RGN_STAT_DEGRADED, PL_RGN_STAT, Nat.le_add_right_of_le]

@[simp] theorem hourglass_mirror (s : State) (p : Prot) (a n : Nat) : (s.mirror p a n).hourglass = s.hourglass := by
  unfold State.mirror
  split <;> simp

@[simp] theorem hourglass_dpaWrite (s : State) (i a : Nat) (bs : List Byte) (e : MemErr) (tw : Bool) :
    (s.dpaWrite i a bs e tw).hourglass = s.hourglass := by
  unfold State.dpaWrite
  dsimp only
  repeat' split
  all_goals simp

/-! ### Walks and pinned mappings -/

@[simp] theorem hourglass_tableRead (s : State) (t a : Nat) (e : MemErr) : (s.tableRead t a e).1.hourglass = s.hourglass := by
  unfold State.tableRead
  split <;> simp

@[simp] theorem hourglass_leafOf (s : State) (v a n : Nat) : (s.leafOf v a n).1.hourglass = s.hourglass := by
  unfold State.leafOf
  dsimp only
  repeat' split
  all_goals rfl

@[simp] theorem hourglass_walkFrom (s : State) (t va : Nat) (e : MemErr) (n b u : Nat) :
    (s.walkFrom t va e n b u).1.hourglass = s.hourglass := by
  induction n generalizing s b u with
  | zero => rfl
  | succ n ih =>
    unfold State.walkFrom
    dsimp only
    split
    · rfl
    · have h := hourglass_tableRead s t (b + vaIndex va (4 - n) * 8) e
      rcases hr : s.tableRead t (b + vaIndex va (4 - n) * 8) e with ⟨s1, _ | entry⟩
      · simpa [hr] using h
      · rw [hr] at h
        dsimp only at h ⊢
        repeat' split
        all_goals simp [ih, h]

@[simp] theorem hourglass_walk (s : State) (t va : Nat) (e : MemErr) : (s.walk t va e).1.hourglass = s.hourglass := by
  unfold State.walk
  split
  · rfl
  · simp [AT_STAT_WALKS, AT_STAT]

@[simp] theorem hourglass_pinRead (s : State) (i t : Nat) (e : MemErr) (k va n : Nat) :
    (s.pinRead i t e k va n).1.hourglass = s.hourglass := by
  induction k generalizing s va n with
  | zero => rfl
  | succ k ih =>
    unfold State.pinRead
    dsimp only
    repeat' split
    all_goals simp [ih]

@[simp] theorem hourglass_pinnedRead (s : State) (i t va n : Nat) (e : MemErr) :
    (s.pinnedRead i t va n e).1.hourglass = s.hourglass := hourglass_pinRead _ _ _ _ _ _ _

@[simp] theorem hourglass_pinWrite (s : State) (i t : Nat) (e : MemErr) (k va : Nat) (bs : List Byte) :
    (s.pinWrite i t e k va bs).1.hourglass = s.hourglass := by
  induction k generalizing s va bs with
  | zero => rfl
  | succ k ih =>
    unfold State.pinWrite
    dsimp only
    repeat' split
    all_goals simp [ih]

@[simp] theorem hourglass_pinnedWrite (s : State) (i t va : Nat) (bs : List Byte) (e : MemErr) :
    (s.pinnedWrite i t va bs e).1.hourglass = s.hourglass := hourglass_pinWrite _ _ _ _ _ _ _

@[simp] theorem hourglass_pinPages (s : State) (o : PinOwner) (t : Nat) (wr : Bool) (e : MemErr) (k pg : Nat) :
    (s.pinPages o t wr e k pg).1.hourglass = s.hourglass := by
  induction k generalizing s pg with
  | zero => rfl
  | succ k ih =>
    unfold State.pinPages
    have h := hourglass_walk s t (pg * 4096) e
    split
    · exact ih _ _
    · rcases hr : s.walk t (pg * 4096) e with ⟨s1, l | ⟨a, b⟩⟩
      all_goals
        rw [hr] at h
        dsimp only at h ⊢
        repeat' split
        all_goals simp [ih, h]

@[simp] theorem hourglass_pinWalk (s : State) (o : PinOwner) (t va n : Nat) (wr : Bool) (e : MemErr) :
    (s.pinWalk o t va n wr e).1.hourglass = s.hourglass := by
  unfold State.pinWalk
  split <;> simp

/-! ### The Track -/

@[simp] theorem hourglass_fail (s : State) (c : TkCmd) (a b : Nat) : (s.fail c a b).hourglass = s.hourglass := by
  unfold State.fail
  split <;> simp

@[simp] theorem hourglass_blankSquare (s : State) (n w : Nat) : (s.blankSquare n w).hourglass = s.hourglass := by
  induction w with
  | zero => rfl
  | succ w ih => exact ih

@[simp] theorem hourglass_claimSquare (s : State) (r n : Nat) : (s.claimSquare r n).hourglass = s.hourglass := by
  simp [State.claimSquare]

@[simp] theorem hourglass_fillSquare (s : State) (n : Nat) (b : List Byte) : (s.fillSquare n b).hourglass = s.hourglass :=
  hourglass_foldl _ _ (fun _ _ => hourglass_setTrack _ _) _

@[simp] theorem hourglass_skipWindow (s : State) (k : Bool) : (s.skipWindow k).hourglass = s.hourglass := by
  unfold State.skipWindow
  dsimp only
  split
  · exact hourglass_report _ _ _
  · rfl

/-! ### The Scheduled partition -/

@[simp] theorem hourglass_stopSched (s : State) : s.stopSched.hourglass = s.hourglass :=
  hourglass_foldl _ _ (fun _ _ => hourglass_modHoop _ _ _) _

@[simp] theorem hourglass_beginHoops (s : State) (z : Bool) : (s.beginHoops z).hourglass = s.hourglass :=
  hourglass_foldl _ _ (fun _ _ => hourglass_modHoop _ _ _) _

@[simp] theorem hourglass_schedFault (s : State) (c : Nat) (r : Bool) : (s.schedFault c r).hourglass = s.hourglass := by
  unfold State.schedFault
  dsimp only
  repeat' split
  all_goals simp

@[simp] theorem hourglass_schedRead (s : State) (t va n : Nat) (e : MemErr) : (s.schedRead t va n e).1.hourglass = s.hourglass := by
  unfold State.schedRead
  have h := hourglass_pinnedRead s schedIid t va n e
  rcases hr : s.pinnedRead schedIid t va n e with ⟨s1, _ | r⟩
  · simpa [hr] using h
  · rw [hr] at h
    dsimp only
    split <;> simpa using h

@[simp] theorem hourglass_loadStreams (s : State) (m : Image) (hdr : List Byte) (l : List Nat) :
    (s.loadStreams m hdr l).1.hourglass = s.hourglass := by
  induction l generalizing s with
  | nil => rfl
  | cons j r ih =>
    unfold State.loadStreams
    have h := hourglass_schedRead s m.tenant (m.va + leAt hdr (64 + 16 * j) 4) (32 * leAt hdr (68 + 16 * j) 4) {}
    rcases hr : s.schedRead m.tenant (m.va + leAt hdr (64 + 16 * j) 4) (32 * leAt hdr (68 + 16 * j) 4) {} with ⟨s1, _ | code⟩
    · simpa [hr] using h
    · rw [hr] at h
      exact (ih _).trans h

@[simp] theorem hourglass_runImage (s : State) (m : Image) : (s.runImage m).hourglass = s.hourglass := by
  unfold State.runImage
  dsimp only
  split
  · simp
  · have h := hourglass_schedRead s m.tenant m.va 1024 {}
    rcases hr : s.schedRead m.tenant m.va 1024 {} with ⟨s1, _ | hdr⟩
    · simpa [hr] using h
    · rw [hr] at h
      dsimp only
      have k := hourglass_loadStreams (s1.setSched fun d => { d with header := hdr }) m hdr
        (List.range (min (leAt hdr 2 1) (s1.setSched fun d => { d with header := hdr }).schedCount))
      split <;> rename_i hl <;> rw [hl] at k
      · exact k.trans h
      · simpa using k.trans h

@[simp] theorem hourglass_newImage (s : State) (l : Launch) (n : Nat) : (s.newImage l n).hourglass = s.hourglass := by
  unfold State.newImage
  extract_lets old s1 s2
  have h2 : s2.hourglass = s.hourglass := by
    unfold s2 old
    split <;> rfl
  split
  · exact h2
  · exact h2

@[simp] theorem hourglass_progStart (s : State) (n : Nat) : (s.progStart n).hourglass = s.hourglass := by
  unfold State.progStart
  dsimp only
  repeat' split
  all_goals simp

@[simp] theorem hourglass_govSend (s : State) (v : Nat) : (s.govSend v).hourglass = s.hourglass := by
  simp [State.govSend, TE_AVS_STAT_BUSY, TE_AVS_STAT]

@[simp] theorem hourglass_govSet (s : State) (v : Nat) : (s.govSet v).hourglass = s.hourglass := by
  unfold State.govSet
  dsimp only
  repeat' split
  all_goals simp

@[simp] theorem hourglass_govEnd (s : State) : s.govEnd.hourglass = s.hourglass := by
  unfold State.govEnd
  dsimp only
  split <;> simp

@[simp] theorem hourglass_noteCkpt (s : State) (k : Nat) : (s.noteCkpt k).hourglass = s.hourglass := by
  unfold State.noteCkpt
  split
  dsimp only
  rw [hourglass_setSched, hourglass_setReg _ _ (by simp [TE_GOV_RATE]), hourglass_setReg _ _ (by simp [TE_GOV_CKPT])]


@[simp] theorem hourglass_progEnd (s : State) : s.progEnd.hourglass = s.hourglass := by
  unfold State.progEnd
  split
  · rfl
  · rename_i n _
    split
    · rfl
    · extract_lets s1 s2 s3
      have h1 : s1.hourglass = s.hourglass := by
        unfold s1
        split
        · rfl
        · exact hourglass_noteCkpt _ _
      have h3 : s3.hourglass = s.hourglass := (hourglass_govEnd s2).trans h1
      split
      · split
        · exact h3
        · exact (hourglass_progStart _ _).trans h3
      · exact h3

@[simp] theorem hourglass_engTurn (s : State) (n : Nat) : (s.engTurn n).hourglass = s.hourglass := by
  unfold State.engTurn
  dsimp only
  repeat' split
  all_goals simp [whole, TE_SKIP_CNT, TE_OVERRUN_CNT]

@[simp] theorem hourglass_runTurn (s : State) (n : Nat) : (s.runTurn n).hourglass = s.hourglass := by
  simp [State.runTurn]

/-! ### Partition maps -/

@[simp] theorem hourglass_laceLost (s : State) (l : Nat) : (s.laceLost l).hourglass = s.hourglass := by
  unfold State.laceLost
  dsimp only
  split <;> simp [TE_LACE_STAT_LOADED, TE_LACE_STAT_COMMIT_ARMED, TE_LACE_STAT_BUSY, TE_LACE_STAT, TE_LACE_GEN,
    Nat.le_add_right_of_le]

@[simp] theorem hourglass_gateHoop (s : State) (h : Nat) : (s.gateHoop h).hourglass = s.hourglass := by
  unfold State.gateHoop
  dsimp only
  split <;> simp

@[simp] theorem hourglass_pmapRetired (s : State) (m : Table) (l : List Nat) : (s.pmapRetired m l).hourglass = s.hourglass := by
  unfold State.pmapRetired
  dsimp only
  repeat' split
  all_goals simp [TE_RELOC_STAT_STATE, TE_RELOC_STAT_HOOP, TE_RELOC_STAT_LHOOP, TE_RELOC_STAT]

@[simp] theorem hourglass_pmapSwitch (s : State) (m : Table) : (s.pmapSwitch m).hourglass = s.hourglass := by
  unfold State.pmapSwitch
  dsimp only
  have gated (t : State) := hourglass_foldl (List.range 36)
    (fun t h => if t.role h = 0 ∧ ((List.range 36).map s.role).getD h 0 ≠ 0 then t.gateHoop h else t)
    (fun t h => by split <;> simp) t
  rw [hourglass_pmapRetired]
  split
  · rw [gated]
    simp [TE_RELOC_STAT_STATE, TE_RELOC_STAT_HOOP, TE_RELOC_STAT_LHOOP, TE_RELOC_STAT]
  · rw [hourglass_put _ _ (by simp [TE_RELOC_STAT_STATE, TE_RELOC_STAT]), hourglass_pinWalk, gated]
    simp [TE_RELOC_STAT_STATE, TE_RELOC_STAT_HOOP, TE_RELOC_STAT_LHOOP, TE_RELOC_STAT]

/-! ### The Weft -/

@[simp] theorem hourglass_boardFault (s : State) : s.boardFault.hourglass = s.hourglass := by
  unfold State.boardFault
  dsimp only
  split <;> simp

@[simp] theorem hourglass_boardWrite (s : State) (buf : Nat) (c : Canvas) (off : Nat) (bs : List Byte) (e : MemErr) :
    (s.boardWrite buf c off bs e).hourglass = s.hourglass := by
  unfold State.boardWrite
  dsimp only
  have h := hourglass_pinnedWrite s wfIid (patTenant c.tab.bytes) (boardVa c.tab.bytes buf + off) bs e
  split <;> rename_i hr <;> rw [hr] at h
  · exact h
  · simpa using h

@[simp] theorem hourglass_boardRead (s : State) (buf : Nat) (c : Canvas) (off n : Nat) (e : MemErr) :
    (s.boardRead buf c off n e).1.hourglass = s.hourglass := hourglass_pinnedRead _ _ _ _ _ _

@[simp] theorem hourglass_paintCell (s : State) (buf : Nat) (c : Canvas) (src : List Byte) (f : SpFrame) (x y : Nat) (e : MemErr) :
    (s.paintCell buf c src f x y e).hourglass = s.hourglass := by
  unfold State.paintCell
  dsimp only
  repeat' split
  all_goals simp [whole, WF_OUTSIDE]

@[simp] theorem hourglass_paintImage (s : State) (buf : Nat) (c : Canvas) (src : List Byte) (z : WfSrc) (f : SpFrame) (row : Nat)
    (e : MemErr) : (s.paintImage buf c src z f row e).hourglass = s.hourglass :=
  hourglass_foldl _ _ (fun s q => by simp [apply_ite State.hourglass]) _

@[simp] theorem hourglass_forward (s : State) (buf : Nat) (src : List Byte) (hit : List Byte → Option (Int × Int × Nat)) (e : MemErr)
    (f : Nat → Nat → List Byte → Option (List Byte × Nat)) : (s.forward buf src hit e f).hourglass = s.hourglass := by
  unfold State.forward
  split
  · rfl
  · rename_i c _
    split
    · rfl
    · rename_i x y d _
      dsimp only
      have h := hourglass_boardRead s buf c (cellOff c.tab.bytes (leAt src 1 1) (leAt src 2 1) x y) 4 e
      split <;> rename_i hr <;> rw [hr] at h
      · simpa using h
      · split <;> simpa using h

@[simp] theorem hourglass_confAt (s : State) (src : List Byte) (f : SpFrame) (r c : Nat) :
    (s.confAt src f r c).1.hourglass = s.hourglass := by
  unfold State.confAt
  dsimp only
  repeat' split
  all_goals rfl

@[simp] theorem hourglass_paintDepth (s : State) (buf : Nat) (src : List Byte) (f : SpFrame) (row : Nat) (e : MemErr) (col : Nat)
    (bs : List Byte) : (s.paintDepth buf src f row e col bs).hourglass = s.hourglass := by
  fun_induction State.paintDepth s buf src f row e col bs with
  | case1 s col a b r z s1 ih =>
    rw [ih]
    unfold s1
    split <;> simp
  | case2 => rfl

@[simp] theorem hourglass_paintPoints (s : State) (buf : Nat) (src : List Byte) (p : Bool) (e : MemErr) (k : Nat) (bs : List Byte) :
    (s.paintPoints buf src p e k bs).hourglass = s.hourglass := by
  induction k generalizing s bs with
  | zero => rfl
  | succ k ih => exact (ih _ _).trans (hourglass_forward _ _ _ _ _ _)

@[simp] theorem hourglass_paintEvents (s : State) (buf : Nat) (src : List Byte) (f : SpFrame) (l : List Nat) (e : MemErr) :
    (s.paintEvents buf src f l e).hourglass = s.hourglass :=
  hourglass_foldl _ _ (fun _ _ => hourglass_forward _ _ _ _ _ _) _

@[simp] theorem hourglass_paintSource (s : State) (buf j : Nat) (x : WfLine) (e : MemErr) :
    (s.paintSource buf j x e).hourglass = s.hourglass := by
  unfold State.paintSource
  dsimp only
  repeat' split
  all_goals simp

@[simp] theorem hourglass_paintLine (s : State) (buf : Nat) (x : WfLine) (e : MemErr) :
    (s.paintLine buf x e).hourglass = s.hourglass := by
  unfold State.paintLine
  split
  · rfl
  · exact hourglass_foldl _ _ (fun _ _ => hourglass_paintSource _ _ _ _ _) _

@[simp] theorem hourglass_clearLayer (s : State) (buf : Nat) (c : Canvas) (i l : Nat) :
    (s.clearLayer buf c i l).hourglass = s.hourglass := by
  unfold State.clearLayer
  dsimp only
  split
  · rfl
  · exact hourglass_foldl _ _ (fun _ _ => hourglass_boardWrite _ _ _ _ _ _) _

@[simp] theorem hourglass_clearBoard (s : State) (buf : Nat) : (s.clearBoard buf).hourglass = s.hourglass := by
  unfold State.clearBoard
  split
  · rfl
  · refine hourglass_foldl _ _ (fun s i => ?_) _
    exact (hourglass_boardWrite _ _ _ _ _ _).trans (hourglass_foldl _ _ (fun _ _ => hourglass_clearLayer _ _ _ _ _) _)

@[simp] theorem hourglass_boardResume (s : State) (buf : Nat) : (s.boardResume buf).hourglass = s.hourglass := by
  unfold State.boardResume
  split
  · rfl
  · split
    · rfl
    · rw [hourglass_modCanvas, hourglass_foldl _ _ fun _ _ => hourglass_paintLine _ _ _ _]
      split <;> simp

@[simp] theorem hourglass_newBoard (s : State) (n : Nat) : (s.newBoard n).hourglass = s.hourglass := by
  unfold State.newBoard
  dsimp only
  repeat' split
  all_goals simp

@[simp] theorem hourglass_setValid (s : State) (buf : Nat) (c : Canvas) (i l x y : Nat) :
    (s.setValid buf c i l x y).hourglass = s.hourglass := by
  unfold State.setValid
  extract_lets off
  have h := hourglass_boardRead s buf c off 1 {}
  split <;> rename_i hr <;> rw [hr] at h <;> simpa using h

@[simp] theorem hourglass_sourceTiles (s : State) (buf : Nat) (c : Canvas) (j : Nat) :
    (s.sourceTiles buf c j).1.hourglass = s.hourglass := by
  unfold State.sourceTiles
  dsimp only
  split
  · rfl
  · refine hourglass_foldl_fst _ _ (fun p q => ?_) _
    repeat' split
    all_goals simp

@[simp] theorem hourglass_boardDone (s : State) (n : Nat) : (s.boardDone n).hourglass = s.hourglass := by
  unfold State.boardDone
  dsimp only
  split
  · rfl
  · rename_i c _
    split
    · rfl
    · have h (l : List Nat) := hourglass_foldl_fst l
        (fun (s, k) j => ((s.sourceTiles (n % 3) c j).1, k + (s.sourceTiles (n % 3) c j).2))
        (fun p j => hourglass_sourceTiles p.1 (n % 3) c j) (s, 0)
      repeat' split
      all_goals simp [h, whole, WF_PAINT_DONE, WF_LATE_TILES]

@[simp] theorem hourglass_emptyBank (s : State) (b : Nat) : (s.emptyBank b).hourglass = s.hourglass := by
  unfold State.emptyBank
  split <;> rfl

@[simp] theorem hourglass_bankSweep (s : State) : s.bankSweep.hourglass = s.hourglass :=
  hourglass_foldl _ _ (fun s b => by split <;> simp) _

@[simp] theorem hourglass_expCheck (s : State) : s.expCheck.hourglass = s.hourglass := by
  unfold State.expCheck
  repeat' split
  all_goals simp

@[simp] theorem hourglass_weftAsk (s : State) (x : Staged) : (s.weftAsk x).1.hourglass = s.hourglass := by
  unfold State.weftAsk
  dsimp only
  split
  · rfl
  · exact hourglass_report _ _ _

@[simp] theorem hourglass_weftTurn (s : State) (n : Nat) (p : Option Table) (b : Nat) :
    (s.weftTurn n p b).hourglass = s.hourglass := by
  simp [State.weftTurn]

@[simp] theorem hourglass_meSwitch (s : State) (t : Table) : (s.meSwitch t).hourglass = s.hourglass := by
  unfold State.meSwitch
  dsimp only
  split <;> rfl

/-! ### The Loom and the Referee -/

@[simp] theorem hourglass_unsent (s : State) (f : LmFrame) (k : Nat) : (s.unsent f k).hourglass = s.hourglass := by
  simp [State.unsent, LM_VIEW_SEQ, Nat.le_add_right_of_le]

@[simp] theorem hourglass_cutWire (s : State) (p : Nat) (a : Bool) : (s.cutWire p a).hourglass = s.hourglass := by
  unfold State.cutWire
  dsimp only
  repeat' split
  all_goals simp [LM_PORT_DROP_ABORTED, LM_PORT_DROP, Nat.le_add_right_of_le]

@[simp] theorem hourglass_loomStop (s : State) : s.loomStop.hourglass = s.hourglass := by
  simp [State.loomStop]

@[simp] theorem hourglass_noVerdict (s : State) (n : Nat) : (s.noVerdict n).hourglass = s.hourglass := by
  unfold State.noVerdict
  dsimp only
  split <;> simp [LM_STAT_NO_VERDICT, LM_STAT]

@[simp] theorem hourglass_safeState (s : State) : s.safeState.hourglass = s.hourglass := by
  simp [State.safeState, State.safeOff, State.safeCause, RF_SAFE_CAUSE_CODE, RF_SAFE_CAUSE_COUNT, RF_SAFE_CAUSE_VALID, RF_SAFE_CAUSE]

@[simp] theorem hourglass_newInterval (s : State) : s.newInterval.hourglass = s.hourglass :=
  (hourglass_demandLasting _).trans (hourglass_with_fresh s _)

@[simp] theorem hourglass_pushWindow (s : State) (t : Nat) (r : Bool) : (s.pushWindow t r).hourglass = s.hourglass := by
  unfold State.pushWindow
  dsimp only
  repeat' split
  all_goals simp [RF_LAST_TURN]

@[simp] theorem hourglass_setStep (s : State) (t c n : Nat) : (s.setStep t c n).hourglass = s.hourglass := by
  unfold State.setStep
  dsimp only
  split <;> simp [RF_STEP_S, RF_STEP]

@[simp] theorem hourglass_evalStep (s : State) (t f : Nat) : (s.evalStep t f).1.hourglass = s.hourglass := by
  unfold State.evalStep
  dsimp only
  repeat' split
  all_goals simp [RF_STEP_D, RF_STEP_CLEAN, RF_STEP]

@[simp] theorem hourglass_missed (s : State) (l : List TurnRec) : (s.missed l).hourglass = s.hourglass := by
  induction l generalizing s with
  | nil => rfl
  | cons x r ih => simp [State.missed, ih, whole, RF_MISSED]

theorem hourglass_refIssue {s t : State} {b : List Byte} {c : BitVec 16} (h : s.refIssue b = some (t, c)) :
    t.hourglass = s.hourglass := by
  unfold State.refIssue at h
  split at h
  · cases h
  · obtain ⟨n, -, e⟩ := Option.map_eq_some_iff.1 h
    obtain ⟨rfl, -⟩ := Prod.mk.inj e
    rw [hourglass_setSquare, hourglass_fillSquare, hourglass_claimSquare]

@[simp] theorem hourglass_hangCheck (s : State) (n : Nat) : (s.hangCheck n).hourglass = s.hourglass := by
  unfold State.hangCheck
  split
  · split
    · rfl
    · split
      · rename_i h
        simpa using hourglass_refIssue h
      · rfl
  · rfl

@[simp] theorem hourglass_refTurn (s : State) (n : Nat) : (s.refTurn n).hourglass = s.hourglass := by
  unfold State.refTurn
  dsimp only
  split <;> simp

/-! ### A commit at a turn start

The switch of staged fields may write any register that has staged bits, so of the Hourglass only its own state is kept. -/

@[simp] theorem hg_switchFields (s : State) : s.switchFields.hg = s.hg := by
  have h (l : List (Nat × Option Word)) (t : State) : (l.foldl (fun s p => match p.2, regRow p.1 with
      | some v, some r => s.setReg p.1 ((s.reg p.1 &&& ~~~ BitVec.ofNat 32 r.st) ||| v)
      | _, _ => s) t).hg = t.hg := by
    induction l generalizing t with
    | nil => rfl
    | cons p r ih =>
      rw [List.foldl_cons, ih]
      split <;> rfl
  exact h s.staged s

@[simp] theorem hourglass_switchTable (s : State) (x : Staged) : (s.switchTable x).hourglass = s.hourglass := by
  unfold State.switchTable
  dsimp only
  repeat' split
  all_goals simp [State.weftSwitch]

@[simp] theorem hourglass_askUnits (s : State) (l : List Staged) : (s.askUnits l).1.hourglass = s.hourglass := by
  induction l generalizing s with
  | nil => rfl
  | cons x r ih =>
    unfold State.askUnits
    dsimp only
    rw [ih]
    split <;> simp

@[simp] theorem hourglass_commitMove (s : State) (c : Commit) (n : Nat) : (s.commitMove c n).hourglass = s.hourglass := by
  unfold State.commitMove
  dsimp only
  repeat' split
  all_goals simp

@[simp] theorem hg_commitSwitch (s : State) (c : Commit) (r : Nat) : (s.commitSwitch c r).hg = s.hg := by
  unfold State.commitSwitch
  extract_lets tabs s1 s2 s3 s4
  have h2 : s2.hg = s.hg := hg_of_hourglass (hourglass_foldl tabs _ hourglass_switchTable s1)
  have h3 : s3.hg = s2.hg := by
    unfold s3
    split <;> simp
  have h4 : s4.hourglass = s3.hourglass := by
    unfold s4
    split <;> simp
  have h5 : s4.expCheck.bankSweep.hourglass = s3.hourglass := by rw [hourglass_bankSweep, hourglass_expCheck, h4]
  rw [hg_of_hourglass h5, h3, h2]

@[simp] theorem hg_commitTurn (s : State) (n : Nat) : (s.commitTurn n).hg = s.hg := by
  unfold State.commitTurn
  split
  · rfl
  · have h := hg_of_hourglass (hourglass_askUnits s s.carriedTabs)
    split
    · rfl
    · split <;> rename_i hr <;> rw [hr] at h
      · rw [hg_commitSwitch, h]
      · split
        · rw [hg_of_hourglass (hourglass_commitMove _ _ _), h]
        · exact h

/-- With no commit pending, stopping has none to go on with (R505). -/
theorem hourglass_commitStop (s : State) (h : s.track.commit = none) : s.commitStop.hourglass = s.hourglass := by
  simp [State.commitStop, State.commitPoll, h]

/-! ### The Hourglass's own steps -/

/-- The epoch goes into its own four registers. -/
theorem reg_publishEpoch (s : State) {o : Nat} (h : o < HG_EPOCH_NT_NS ∨ HG_EPOCH_META < o) : s.publishEpoch.reg o = s.reg o := by
  have put (t : State) (v : Nat) : (t.putEpoch v).reg o = t.reg o := by
    simp only [State.putEpoch]
    simp only [HG_EPOCH_NT_NS, HG_EPOCH_META] at h
    rw [reg_setReg_ne, reg_setReg_ne, reg_setReg_ne, reg_setReg_ne] <;>
      simp only [HG_EPOCH_NT_NS, HG_EPOCH_NT_SEC_LO, HG_EPOCH_NT_SEC_HI, HG_EPOCH_META] <;> omega
  unfold State.publishEpoch
  dsimp only
  split
  · exact put _ _
  · exact put _ _

theorem onlyRegs_putEpoch (s : State) (v : Nat) : OnlyRegs s (s.putEpoch v) :=
  ((((OnlyRegs.refl s).setReg _ _).setReg _ _).setReg _ _).setReg _ _

@[simp] theorem hg_publishEpoch (s : State) : s.publishEpoch.hg = s.hg := by
  unfold State.publishEpoch
  dsimp only
  split
  · exact (onlyRegs_putEpoch _ _).hg
  · exact (onlyRegs_putEpoch _ _).hg

theorem reg_hgApplyPending (s : State) {o : Nat} (h : HG_ACTIVE ≠ o) : s.hgApplyPending.reg o = s.reg o := by
  unfold State.hgApplyPending
  split
  · exact (reg_putB_ne _ _ h).trans (reg_putB_ne _ _ h)
  · split <;> rfl

@[simp] theorem dt_hgApplyPending (s : State) : s.hgApplyPending.hg.dt = s.hg.dt := by
  unfold State.hgApplyPending
  split
  · rfl
  · split <;> rfl

@[simp] theorem track_hgApplyPending (s : State) : s.hgApplyPending.track = s.track := by
  unfold State.hgApplyPending
  split
  · rfl
  · split <;> rfl

@[simp] theorem track_publishEpoch (s : State) : s.publishEpoch.track = s.track := by
  unfold State.publishEpoch
  dsimp only
  split
  · exact (onlyRegs_putEpoch _ _).track
  · exact (onlyRegs_putEpoch _ _).track

/-- ACTIVE clears and RUN with it (R62). -/
theorem hgStop_turnCtl (s : State) : s.hgStop.is HG_TURN_CTL_RUN = false ∧ s.hgStop.is HG_TURN_CTL_ACTIVE = false := by
  have cleared : ((s.putB HG_TURN_CTL_RUN false).putB HG_TURN_CTL_ACTIVE false).is HG_TURN_CTL_RUN = false ∧
      ((s.putB HG_TURN_CTL_RUN false).putB HG_TURN_CTL_ACTIVE false).is HG_TURN_CTL_ACTIVE = false :=
    ⟨(is_put_ne _ _ _ _ (by decide) (by decide)).trans (is_putB _ _ _ (by decide) rfl), is_putB _ _ _ (by decide) rfl⟩
  unfold State.hgStop
  dsimp only
  split
  · have e (t : State) : t.hgApplyPending.publishEpoch.reg HG_TURN_CTL = t.reg HG_TURN_CTL := by
      rw [reg_publishEpoch _ (by decide), reg_hgApplyPending _ (by decide)]
    rwa [is_congr (f := HG_TURN_CTL_RUN) (e _), is_congr (f := HG_TURN_CTL_ACTIVE) (e _)]
  · exact cleared

@[simp] theorem track_hgStop (s : State) : s.hgStop.track = s.track := by
  unfold State.hgStop
  dsimp only
  split <;> simp

/-- Turns are over with no commit pending: the Hourglass is as ACTIVE's clearing left it. -/
theorem hourglass_turnsOver (s : State) (h : s.track.commit = none) : s.turnsOver.hourglass = s.hourglass := by
  have ht (n : Nat) : (s.slotsStop n).track = s.track := by
    induction n with
    | zero => rfl
    | succ n ih => exact ih
  rw [State.turnsOver, hourglass_commitStop _ (by rw [ht, h]), hourglass_slotsStop]

/-! ### Device Time runs on (R55, R56) -/

theorem onlyHg_advanceTo (s : State) (t : Nat) : s.advanceTo t = { s with hg := (s.advanceTo t).hg } := by
  unfold State.advanceTo State.backupCycles
  dsimp only
  repeat' split
  all_goals rfl

@[simp] theorem track_advanceTo (s : State) (t : Nat) : (s.advanceTo t).track = s.track := by rw [onlyHg_advanceTo]

theorem le_dt_advanceTo (s : State) (t : Nat) (h : s.hg.running = true) : t ≤ (s.advanceTo t).hg.dt := by
  unfold State.advanceTo
  split
  · unfold State.backupCycles
    dsimp only
    split <;> exact le_refl t
  · rename_i hn
    exact Nat.le_of_not_lt fun hl => hn ⟨h, hl⟩

/-! ### The start of a turn -/

/-- What the start of a turn fixes: STARTED, the turn's number, the next turn, and Device Time. -/
def State.turnCount (s : State) : Bool × Nat × Nat × Nat :=
  (s.is HG_TURN_CTL_STARTED, s.pair HG_TURN_NUM_LO, s.hg.nextTurn, s.hg.dt)

theorem turnCount_congr {s t : State} (hc : t.reg HG_TURN_CTL = s.reg HG_TURN_CTL) (hl : t.reg HG_TURN_NUM_LO = s.reg HG_TURN_NUM_LO)
    (hh : t.reg HG_TURN_NUM_HI = s.reg HG_TURN_NUM_HI) (hn : t.hg.nextTurn = s.hg.nextTurn) (hd : t.hg.dt = s.hg.dt) :
    t.turnCount = s.turnCount := by
  simp only [State.turnCount, is_congr (f := HG_TURN_CTL_STARTED) hc, pair_congr (o := HG_TURN_NUM_LO) hl hh, hn, hd]

theorem turnCount_of_hourglass {s t : State} (h : t.hourglass = s.hourglass) : t.turnCount = s.turnCount := by
  have r {o : Nat} (ho : ¬ OutsideHg o) := reg_of_hourglass h ho
  have g := hg_of_hourglass h
  exact turnCount_congr (r (by simp [HG_TURN_CTL])) (r (by simp [HG_TURN_NUM_LO])) (r (by simp [HG_TURN_NUM_HI]))
    (congrArg Hg.nextTurn g) (congrArg Hg.dt g)

theorem turnCount_hgTurn (s : State) (N : Nat) : (s.hgTurn N).turnCount = (true, N % 2 ^ 64, N + 1, s.hg.dt) := by
  have started (t : State) : ((t.putB HG_TURN_CTL_STARTED true).setPair HG_TURN_NUM_LO N).is HG_TURN_CTL_STARTED = true := by
    rw [is_congr (reg_setPair_ne _ _ (by decide) (by decide)), is_putB _ _ _ (by decide) rfl]
  refine Prod.ext (started _) (Prod.ext (pair_setPair _ _ _) (Prod.ext rfl ?_))
  simp [State.turnCount, State.hgTurn]

/-- A trigger's edge lies in the trigger's own state (R78). -/
theorem turnCount_trigsTurn (s : State) (N : Nat) : (s.trigsTurn N).turnCount = s.turnCount := by
  have edge (t : State) (n : Nat) : (t.turnEdge n N).turnCount = t.turnCount := by
    unfold State.turnEdge
    split <;> rfl
  unfold State.trigsTurn
  generalize List.range 16 = l
  induction l generalizing s with
  | nil => rfl
  | cons n r ih => rw [List.foldl_cons, ih, edge]

theorem turnCount_setReg (s : State) {o : Nat} (v : Word) (h : HG_TURN_NUM_HI < o) : (s.setReg o v).turnCount = s.turnCount := by
  have ne {q : Nat} (hq : q ≤ HG_TURN_NUM_HI) : o ≠ q := by omega
  exact turnCount_congr (reg_setReg_ne _ _ (ne (by decide))) (reg_setReg_ne _ _ (ne (by decide)))
    (reg_setReg_ne _ _ (ne (by decide))) rfl rfl

/-- The Selvedge hands outputs over: of the Hourglass it writes HG_TRIG_OE alone (R577, R578). -/
theorem turnCount_svTurn (s : State) (N : Nat) : (s.svTurn N).turnCount = s.turnCount := by
  have oe (t : State) (m : Nat) (b : Bool) : (t.oeSet m b).turnCount = t.turnCount := turnCount_setReg _ _ (by decide)
  have owner (t : State) (b : Bool) : (t.putB SV_STATUS_OWNER b).turnCount = t.turnCount := turnCount_setReg _ _ (by decide)
  have sv (t : State) (f : Sv → Sv) : (t.setSv f).turnCount = t.turnCount := rfl
  have rep (t : State) (c i : Nat) : (t.report c i).turnCount = t.turnCount := turnCount_of_hourglass (hourglass_report _ _ _)
  have took (t : State) : t.took.turnCount = t.turnCount := rfl
  unfold State.svTurn
  extract_lets L s1 s2 s3
  have h1 : s1.turnCount = s.turnCount := by
    unfold s1
    split
    · split <;> simp only [sv, oe, owner]
    · rfl
  have h2 : s2.turnCount = s1.turnCount := by
    unfold s2
    split
    · split <;> simp only [sv, oe, owner]
    · rfl
  have h3 : s3.turnCount = s.turnCount := by rw [took, h2, h1]
  split
  · split
    · simp only [rep, sv, oe, owner, h3]
    · exact h3
  · rw [h2, h1]

@[simp] theorem hourglass_openTurn (s : State) (N : Nat) (p : Option Table) : (s.openTurn N p).hourglass = s.hourglass := rfl

@[simp] theorem hourglass_ringTurn (s : State) : s.ringTurn.hourglass = s.hourglass := rfl

@[simp] theorem hourglass_endProgram (s : State) : s.endProgram.hourglass = s.hourglass := by
  unfold State.endProgram
  split <;> simp

/-- Up to the switch of the configuration nothing touches the Hourglass's own state. -/
theorem hg_beforeTurn (s : State) (N : Nat) :
    (((((s.endProgram.judgeAll 64).handOver N 64).boardDone N).rollDemand).commitTurn N).hg = s.hg := by
  have h : ((((s.endProgram.judgeAll 64).handOver N 64).boardDone N).rollDemand).hourglass = s.hourglass := by
    rw [hourglass_rollDemand, hourglass_boardDone, hourglass_handOver, hourglass_judgeAll, hourglass_endProgram]
  rw [hg_commitTurn, hg_of_hourglass h]

theorem turnCount_opened (s : State) (N : Nat) (p : Option Table) :
    ((((s.hgTurn N).trigsTurn N).freshTurn N).openTurn N p).turnCount = (true, N % 2 ^ 64, N + 1, s.hg.dt) := by
  have h : ((((s.hgTurn N).trigsTurn N).freshTurn N).openTurn N p).hourglass = ((s.hgTurn N).trigsTurn N).hourglass := by simp
  rw [turnCount_of_hourglass h, turnCount_trigsTurn, turnCount_hgTurn]

theorem hourglass_unitsTurn (s : State) (N : Nat) (p : Option Table) (b : Nat) :
    ((((((s.ringTurn.weftTurn N p b).refTurn N).noVerdict N)).runTurn N).pptTurn 64).hourglass = s.hourglass := by simp

/-- Turn N is numbered by its start, whatever the other units do at it. -/
theorem turnCount_startTurn (s : State) (N : Nat) : (s.startTurn N).turnCount = (true, N % 2 ^ 64, N + 1, s.hg.dt) := by
  unfold State.startTurn
  dsimp only
  rw [turnCount_svTurn, turnCount_of_hourglass (hourglass_unitsTurn _ _ _ _), turnCount_opened, hg_beforeTurn]

/-! ### TURN_RUN arms turns (R60) -/

theorem faultWord_iid (c : Nat) (iid : Iid) : faultWord c iid.toNat = BitVec.ofNat 32 (c + iid.toNat * 0x10000) := by
  rw [faultWord, Nat.mod_eq_of_lt iid.isLt, Nat.mul_comm]

@[simp] theorem hourglass_svPeerTurn (s : State) : s.svPeerTurn.hourglass = s.hourglass := by
  unfold State.svPeerTurn
  dsimp only
  split
  · exact hourglass_setReg _ _ (by simp [SV_PEER_TURN])
  · rfl

/-- The registers of the Hourglass as turns are armed (R60): RUN and ACTIVE set, STARTED and the turn's number clear. -/
def State.armRegs (s : State) : State :=
  (((s.putB HG_TURN_CTL_RUN true).putB HG_TURN_CTL_ACTIVE true).putB HG_TURN_CTL_STARTED false).setPair HG_TURN_NUM_LO 0

/-- Turns are armed, and turn 0 is next (R60). -/
def State.armed (s : State) : State := { s.armRegs with hg := { s.hg with nextTurn := 0, run := s.hg.run + 1 } }

theorem hgRun_armed (s : State) (i : Nat) (ha : s.is HG_TURN_CTL_ACTIVE = false)
    (he : s.hg.dt + 100000 * 256 ≤ s.pair HG_TURN_EPOCH_LO * 256) :
    s.hgRun i = s.armed := by
  unfold State.hgRun State.active
  rw [if_neg (by simp [ha]), if_pos he]
  rfl

theorem hgRun_late (s : State) (i : Nat) (ha : s.is HG_TURN_CTL_ACTIVE = false)
    (he : s.pair HG_TURN_EPOCH_LO * 256 < s.hg.dt + 100000 * 256) : s.hgRun i = s.report 0x1002 i := by
  unfold State.hgRun State.active
  rw [if_neg (by simp [ha]), if_neg (Nat.not_le.2 he)]

theorem armRegs_turnCtl (s : State) : s.armRegs.is HG_TURN_CTL_RUN = true ∧ s.armRegs.is HG_TURN_CTL_ACTIVE = true ∧
    s.armRegs.is HG_TURN_CTL_STARTED = false := by
  have num {f : Fld} (hf : f.off = HG_TURN_CTL) : s.armRegs.is f =
      (((s.putB HG_TURN_CTL_RUN true).putB HG_TURN_CTL_ACTIVE true).putB HG_TURN_CTL_STARTED false).is f :=
    is_congr (by rw [hf]; exact reg_setPair_ne _ _ (by decide) (by decide))
  refine ⟨?_, ?_, ?_⟩
  · rw [num rfl, is_putB_ne _ _ _ _ (by decide) (by decide), is_putB_ne _ _ _ _ (by decide) (by decide),
      is_putB _ _ _ (by decide) rfl]
  · rw [num rfl, is_putB_ne _ _ _ _ (by decide) (by decide), is_putB _ _ _ (by decide) rfl]
  · rw [num rfl, is_putB _ _ _ (by decide) rfl]

theorem armRegs_epoch (s : State) : s.armRegs.pair HG_TURN_EPOCH_LO = s.pair HG_TURN_EPOCH_LO := by
  have kept {o : Nat} (h1 : HG_TURN_CTL ≠ o) (h2 : HG_TURN_NUM_LO ≠ o) (h3 : HG_TURN_NUM_LO + 4 ≠ o) :
      s.armRegs.reg o = s.reg o := by
    rw [State.armRegs, reg_setPair_ne _ _ h2 h3, reg_putB_ne _ _ h1, reg_putB_ne _ _ h1, reg_putB_ne _ _ h1]
  exact pair_congr (kept (by decide) (by decide) (by decide)) (kept (by decide) (by decide) (by decide))

/-! ### A write to HG_TURN_CTL (R60, R62) -/

/-- Arming shows a Follower the Lead's turn and leaves the Hourglass as R60 armed it. -/
theorem turnCtl_run_armed (s : State) (i : Nat) (ha : s.is HG_TURN_CTL_ACTIVE = false)
    (he : s.hg.dt + 100000 * 256 ≤ s.pair HG_TURN_EPOCH_LO * 256) : (s.turnCtl i true).hourglass = s.armed.hourglass := by
  rw [← hgRun_armed s i ha he]
  unfold State.turnCtl
  rw [if_pos rfl]
  dsimp only
  split
  · exact hourglass_svPeerTurn _
  · rfl

theorem turnCtl_run_late (s : State) (i : Nat) (ha : s.is HG_TURN_CTL_ACTIVE = false)
    (he : s.pair HG_TURN_EPOCH_LO * 256 < s.hg.dt + 100000 * 256) : s.turnCtl i true = s.report 0x1002 i := by
  have hr : (s.report 0x1002 i).active = false := by
    rw [State.active, is_of_hourglass (hourglass_report _ _ _) (by simp [HG_TURN_CTL_ACTIVE, HG_TURN_CTL]), ha]
  simp [State.turnCtl, hgRun_late s i ha he, hr]

theorem turnCtl_run_active (s : State) (i : Nat) (ha : s.is HG_TURN_CTL_ACTIVE = true) : s.turnCtl i true = s := by
  simp [State.turnCtl, State.hgRun, State.active, ha]

theorem turnCtl_stop_running (s : State) (i : Nat) (ha : s.is HG_TURN_CTL_ACTIVE = true) (hs : s.is HG_TURN_CTL_STARTED = true) :
    s.turnCtl i false = s.putB HG_TURN_CTL_RUN false := by
  have kept : (s.putB HG_TURN_CTL_RUN false).is HG_TURN_CTL_ACTIVE = true := by rw [is_putB_ne _ _ _ _ (by decide) (by decide), ha]
  simp [State.turnCtl, State.hgStopWrite, State.active, ha, hs, kept]

theorem turnCtl_stop_armed (s : State) (i : Nat) (ha : s.is HG_TURN_CTL_ACTIVE = true) (hs : s.is HG_TURN_CTL_STARTED = false) :
    s.turnCtl i false = s.hgStop.turnsOver := by
  have cleared := (hgStop_turnCtl s).2
  simp [State.turnCtl, State.hgStopWrite, State.active, ha, hs, cleared]

theorem turnCtl_stop_inactive (s : State) (i : Nat) (ha : s.is HG_TURN_CTL_ACTIVE = false) : s.turnCtl i false = s := by
  simp [State.turnCtl, State.hgStopWrite, State.active, ha]

/-- Turns have stopped with no commit pending: RUN and ACTIVE are clear (R62). -/
theorem turnsOver_turnCtl (s : State) (hc : s.track.commit = none) :
    s.hgStop.turnsOver.is HG_TURN_CTL_RUN = false ∧ s.hgStop.turnsOver.is HG_TURN_CTL_ACTIVE = false := by
  have h := hourglass_turnsOver s.hgStop (by rw [track_hgStop, hc])
  rw [is_of_hourglass h (by simp [HG_TURN_CTL_RUN, HG_TURN_CTL]), is_of_hourglass h (by simp [HG_TURN_CTL_ACTIVE, HG_TURN_CTL])]
  exact hgStop_turnCtl s

/-! ### The four commands -/

theorem exec_turnRun {iid : Iid} {s : State} (h : s.writeOk iid HG_TURN_CTL = true) :
    exec (.turnRun iid) s = s.done (s.turnCtl iid.toNat true) := by
  show s.done (s.writeWith iid HG_TURN_CTL fun s => s.turnCtl iid.toNat true) = _
  rw [writeWith_ok h]

theorem exec_turnStop {iid : Iid} {s : State} (h : s.writeOk iid HG_TURN_CTL = true) :
    exec (.turnStop iid) s = s.done (s.turnCtl iid.toNat false) := by
  show s.done (s.writeWith iid HG_TURN_CTL fun s => s.turnCtl iid.toNat false) = _
  rw [writeWith_ok h]

theorem hourglass_with_pending_boot (s : State) (p : List Instr) (b : Boot) :
    State.hourglass { s with pending := p, boot := b } = s.hourglass := rfl

theorem done_self (s : State) : s.done s = .next s := rfl

/-- Turns are armed in every state whose Hourglass is as R60 armed it. -/
theorem armed_of_hourglass {s t : State} (h : t.hourglass = s.armed.hourglass) :
    t.is HG_TURN_CTL_RUN = true ∧ t.is HG_TURN_CTL_ACTIVE = true ∧ t.is HG_TURN_CTL_STARTED = false ∧
      t.pair HG_TURN_NUM_LO = 0 ∧ t.hg.nextTurn = 0 ∧ t.pair HG_TURN_EPOCH_LO = s.pair HG_TURN_EPOCH_LO := by
  have reg {o : Nat} (ho : ¬ OutsideHg o) : t.reg o = s.armRegs.reg o := (reg_of_hourglass h ho).trans (reg_with_hg _ _ _)
  obtain ⟨run, active, started⟩ := armRegs_turnCtl s
  refine ⟨?_, ?_, ?_, ?_, congrArg Hg.nextTurn (hg_of_hourglass h), ?_⟩
  · rw [is_congr (reg (by simp [HG_TURN_CTL_RUN, HG_TURN_CTL])), run]
  · rw [is_congr (reg (by simp [HG_TURN_CTL_ACTIVE, HG_TURN_CTL])), active]
  · rw [is_congr (reg (by simp [HG_TURN_CTL_STARTED, HG_TURN_CTL])), started]
  · rw [pair_congr (reg (by simp [HG_TURN_NUM_LO])) (reg (by simp [HG_TURN_NUM_LO])), State.armRegs, pair_setPair, Nat.zero_mod]
  · rw [pair_congr (reg (by simp [HG_TURN_EPOCH_LO])) (reg (by simp [HG_TURN_EPOCH_LO])), armRegs_epoch]

theorem turnRun_arms {iid : Iid} {s : State} (hw : s.writeOk iid HG_TURN_CTL = true) (ha : s.is HG_TURN_CTL_ACTIVE = false)
    (he : s.hg.dt + 100000 * 256 ≤ s.pair HG_TURN_EPOCH_LO * 256) : Completes (.turnRun iid) s fun t =>
      t.is HG_TURN_CTL_RUN = true ∧ t.is HG_TURN_CTL_ACTIVE = true ∧ t.is HG_TURN_CTL_STARTED = false ∧
      t.pair HG_TURN_NUM_LO = 0 ∧ t.hg.nextTurn = 0 ∧ t.pair HG_TURN_EPOCH_LO = s.pair HG_TURN_EPOCH_LO :=
  done_completes (exec_turnRun hw) (armed_of_hourglass ((hourglass_with_pending_boot _ _ _).trans (turnCtl_run_armed s _ ha he)))

theorem turnRun_refuses {iid : Iid} {s : State} (hw : s.writeOk iid HG_TURN_CTL = true) (ha : s.is HG_TURN_CTL_ACTIVE = false)
    (he : s.pair HG_TURN_EPOCH_LO * 256 < s.hg.dt + 100000 * 256) : Completes (.turnRun iid) s fun t =>
      t.reg HG_TURN_CTL = s.reg HG_TURN_CTL ∧ t.reg GLB_FAULT_LAST = BitVec.ofNat 32 (0x1002 + iid.toNat * 0x10000) ∧
      t.hg = s.hg := by
  refine ⟨s.report 0x1002 iid.toNat, ?_, ?_, ?_, report_hg _ _ _⟩
  · rw [exec_turnRun hw, turnCtl_run_late s _ ha he, done_eq _ _ (by simp) (by simp)]
  · exact reg_of_hourglass (hourglass_report _ _ _) (by simp [HG_TURN_CTL])
  · rw [report_last, faultWord_iid]

theorem turnStop_runs_out {iid : Iid} {s : State} (hw : s.writeOk iid HG_TURN_CTL = true) (ha : s.is HG_TURN_CTL_ACTIVE = true)
    (hs : s.is HG_TURN_CTL_STARTED = true) : Completes (.turnStop iid) s fun t =>
      OnlyRegs s t ∧ t.is HG_TURN_CTL_RUN = false ∧ t.is HG_TURN_CTL_ACTIVE = true ∧ RegsKept [HG_TURN_CTL] s t := by
  refine ⟨s.putB HG_TURN_CTL_RUN false, ?_, (OnlyRegs.refl s).putB _ _, is_putB _ _ _ (by decide) rfl, ?_, fun o ho => ?_⟩
  · rw [exec_turnStop hw, turnCtl_stop_running s _ ha hs]
    exact done_eq s _ rfl rfl
  · rw [is_putB_ne _ _ _ _ (by decide) (by decide), ha]
  · exact reg_putB_ne _ _ fun e => ho (List.mem_singleton.2 e.symm)

theorem turnStop_disarms {iid : Iid} {s : State} (hw : s.writeOk iid HG_TURN_CTL = true) (ha : s.is HG_TURN_CTL_ACTIVE = true)
    (hs : s.is HG_TURN_CTL_STARTED = false) (hc : s.track.commit = none) : Completes (.turnStop iid) s fun t =>
      t.is HG_TURN_CTL_RUN = false ∧ t.is HG_TURN_CTL_ACTIVE = false := by
  refine done_completes (exec_turnStop hw) ?_
  rw [turnCtl_stop_armed s _ ha hs]
  exact turnsOver_turnCtl s hc

theorem turnEndStop_clears {s : State} (ha : s.is HG_TURN_CTL_ACTIVE = true) (hs : s.is HG_TURN_CTL_STARTED = true)
    (hr : s.is HG_TURN_CTL_RUN = false) (hc : s.track.commit = none) :
    Completes .turnEndStop s fun t => t.is HG_TURN_CTL_ACTIVE = false := by
  have stops : s.turnEndStop = (s.advanceTo (s.turnInstant s.hg.nextTurn)).hgStop.turnsOver := by
    simp [State.turnEndStop, State.turnsRun, ha, hs, hr]
  have stopped := turnsOver_turnCtl (s.advanceTo (s.turnInstant s.hg.nextTurn)) (by rw [track_advanceTo, hc])
  exact done_completes (t := s.turnEndStop) rfl (by rw [stops]; exact stopped.2)

theorem turnStart_numbers {s : State} (ha : s.is HG_TURN_CTL_ACTIVE = true) (hr : s.is HG_TURN_CTL_RUN = true)
    (hd : s.hg.running = true) : Completes .turnStart s fun t =>
      t.is HG_TURN_CTL_STARTED = true ∧ t.pair HG_TURN_NUM_LO = s.hg.nextTurn % 2 ^ 64 ∧ t.hg.nextTurn = s.hg.nextTurn + 1 ∧
      s.pair HG_TURN_EPOCH_LO * 256 + s.hg.nextTurn * s.pair HG_TURN_PER_LO ≤ t.hg.dt := by
  have starts : s.turnStart = (s.advanceTo (s.turnInstant s.hg.nextTurn)).startTurn s.hg.nextTurn := by
    simp [State.turnStart, State.active, ha, hr]
  have count := turnCount_startTurn (s.advanceTo (s.turnInstant s.hg.nextTurn)) s.hg.nextTurn
  rw [← starts] at count
  obtain ⟨started, count⟩ := Prod.mk.inj count
  obtain ⟨num, count⟩ := Prod.mk.inj count
  obtain ⟨next, dt⟩ := Prod.mk.inj count
  refine done_completes (t := s.turnStart) rfl ⟨started, num, next, ?_⟩
  calc s.pair HG_TURN_EPOCH_LO * 256 + s.hg.nextTurn * s.pair HG_TURN_PER_LO
      = s.turnInstant s.hg.nextTurn := by rw [State.turnInstant, Nat.mul_comm 256]
    _ ≤ (s.advanceTo (s.turnInstant s.hg.nextTurn)).hg.dt := le_dt_advanceTo s _ hd
    _ = s.turnStart.hg.dt := dt.symm

/-- Settles O21: each command's effect on the Hourglass is its rule's, and at a turn start no other unit touches STARTED, the turn's
number, the next turn or Device Time. -/
theorem turnsArmRunAndStop : Obligations.TurnsArmRunAndStop := by
  unfold Obligations.TurnsArmRunAndStop
  refine ⟨fun iid s hw => ⟨turnRun_arms hw, turnRun_refuses hw, fun ha => ?_, turnStop_runs_out hw, turnStop_disarms hw,
    fun ha => ?_⟩, fun s => turnEndStop_clears, fun s => turnStart_numbers⟩
  · rw [exec_turnRun hw, turnCtl_run_active s _ ha, done_self]
  · rw [exec_turnStop hw, turnCtl_stop_inactive s _ ha, done_self]

end Sys2Proof.Machine
end

section
/-! What a refused and an admitted register access come to (O7, O12, O13), and what is placed by the access codes. -/

namespace Sys2Proof.Machine

open Reg

/-! ### Outcomes -/

/-- A command completes where its effect leaves the queue and the start-up state alone. -/
theorem completes_of_kept {c : Instr} {s t : State} {p : State → Prop} (h : exec c s = s.done t) (hp : t.pending = s.pending)
    (hb : t.boot = s.boot) (ht : p t) : Completes c s p :=
  ⟨t, h.trans (done_eq s t hp hb), ht⟩

theorem completes_of_onlyRegs {c : Instr} {s t : State} {p : State → Prop} (h : exec c s = s.done t) (k : OnlyRegs s t)
    (ht : p t) : Completes c s p :=
  completes_of_kept h k.pending k.boot ht

/-! ### Refused accesses (R51, R52, R545, R552) -/

/-- The record of a refusal keeps the other half of HI_DENY_CNT. -/
theorem refuse_region (s : State) (c i : Nat) : (s.refuse c i).get HI_DENY_CNT_REGION = s.get HI_DENY_CNT_REGION := by
  have kept : (s.report c i).reg HI_DENY_CNT = s.reg HI_DENY_CNT := report_reg_ne s c i _ (by decide) (by decide) (by decide)
  rw [State.refuse, State.bump, get_put_ne _ _ _ _ (by decide) (by decide), State.get, State.get]
  exact congrArg (fun w : Word => bitsOf w.toNat 0 16) kept

theorem refuse_register (s : State) (c i : Nat) :
    (s.refuse c i).get HI_DENY_CNT_REGISTER = min (s.get HI_DENY_CNT_REGISTER + 1) 0xFFFF := by
  have kept : (s.report c i).reg HI_DENY_CNT = s.reg HI_DENY_CNT := report_reg_ne s c i _ (by decide) (by decide) (by decide)
  have same : (s.report c i).get HI_DENY_CNT_REGISTER = s.get HI_DENY_CNT_REGISTER :=
    congrArg (fun w : Word => bitsOf w.toNat 16 16) kept
  rw [State.refuse, get_bump _ _ _ (by decide), same]
  rfl

/-- A refused access is recorded, and nothing else happens. -/
theorem denied_refuse (c : Nat) (iid : Iid) (s : State) : Denied c iid.toNat s (s.refuse c iid.toNat) := by
  have past {o : Nat} (h : HI_DENY_CNT ≠ o) : (s.refuse c iid.toNat).reg o = (s.report c iid.toNat).reg o := reg_bump_ne _ _ h
  refine ⟨onlyRegs_refuse _ _ _, ?_, ?_, ?_, refuse_register _ _ _, refuse_region _ _ _, fun o ho => ?_⟩
  · rw [refuse_last, faultWord_iid]
  · rw [past (by decide), report_first, faultWord_iid]
  · exact (congrArg BitVec.toNat (past (by decide))).trans (report_count _ _ _)
  · obtain ⟨first, last, count, deny⟩ : o ≠ GLB_FAULT_FIRST ∧ o ≠ GLB_FAULT_LAST ∧ o ≠ GLB_FAULT_COUNT ∧ o ≠ HI_DENY_CNT := by
      simpa using ho
    rw [past deny.symm, report_reg_ne _ _ _ _ first.symm last.symm count.symm]

theorem completes_denied {i : Instr} {c : Nat} {iid : Iid} {s : State} (h : exec i s = s.done (s.refuse c iid.toNat)) :
    Completes i s (Denied c iid.toNat s) :=
  completes_of_onlyRegs h (onlyRegs_refuse _ _ _) (denied_refuse _ _ _)

theorem completes_deniedRead {i : Instr} {c off : Nat} {iid : Iid} {s : State}
    (h : exec i s = s.done (s.refuseRead c iid.toNat off)) : Completes i s (DeniedRead c iid.toNat off s) :=
  completes_of_kept h (refuse_pending _ _ _) (refuse_boot _ _ _) ⟨_, denied_refuse _ _ _, rfl⟩

/-- A write that a check of R554 refuses, by whatever bus it goes: start-up registers have their own. -/
theorem exec_registerWrite_refused {iid : Iid} {off size c : Nat} {s : State} (v : BitVec 64)
    (h : s.regCheck iid.toNat off size true = some c) :
    exec (.registerWrite iid off size v) s = s.done (s.refuse c iid.toNat) := by
  show execRegisterWrite iid off size v s = _
  unfold execRegisterWrite
  split
  · obtain ⟨-, rfl⟩ : isStart off = true ∧ size = 4 := by simp_all
    rw [State.startWrite, writeWith_refused h, booted_eq _ _ (by simp), refuse_done]
  · rw [State.busWrite, h]

theorem busRead_refused {iid : Iid} {off size c : Nat} {s : State} (h : s.regCheck iid.toNat off size false = some c) :
    s.busRead iid off size = s.refuseRead c iid.toNat off := by
  rw [State.busRead, h]

theorem regCheck_wrong_width {s : State} {iid off size : Nat} (wr : Bool) (hi : iid < 28) (hw : widthOk off size = false) :
    s.regCheck iid off size wr = some 0x9001 := by
  rw [State.regCheck, if_neg (by omega), if_pos (by simp [hw])]

/-- Settles O7: the width is the second check of R554, so it is the one that fails. -/
theorem wrongWidthAccessRefused : Obligations.WrongWidthAccessRefused := by
  unfold Obligations.WrongWidthAccessRefused
  intro iid off size v s hi hw
  have check (wr : Bool) := regCheck_wrong_width (s := s) wr hi hw
  refine ⟨completes_denied (exec_registerWrite_refused v (check true)), completes_deniedRead ?_, ?_⟩
  · exact congrArg s.done (busRead_refused (check false))
  · rintro rfl
    exact completes_deniedRead (congrArg s.done (busRead_refused (check false)))

/-! ### What a plain write places (R36) -/

theorem getLsbD_placed (r : RegRow) (old v : Word) {b : Nat} (hb : b < 32) :
    (placed r old v).getLsbD b =
      if r.w1c.testBit b && v.getLsbD b then false
      else if r.w1s.testBit b && v.getLsbD b then true
      else if r.rw.testBit b || r.lk.testBit b then v.getLsbD b
      else old.getLsbD b := by
  simp only [placed, BitVec.getLsbD_and, BitVec.getLsbD_or, BitVec.getLsbD_not, BitVec.getLsbD_ofNat, Nat.testBit_or, hb,
    decide_true, Bool.true_and]
  generalize r.w1c.testBit b = clear, r.w1s.testBit b = set, (r.rw.testBit b || r.lk.testBit b) = take
  split_ifs with cleared isSet written
  · simp_all
  · simp_all
  · cases hv : v.getLsbD b <;> simp_all
  · cases hv : v.getLsbD b <;> simp_all

/-- Settles O13: each bit of `placed` is decided by the bit of the four masks at its place. -/
theorem placedByAccessCodes : Obligations.PlacedByAccessCodes := by
  unfold Obligations.PlacedByAccessCodes
  exact fun r old v b hb => getLsbD_placed r old v hb

/-- A register without ranges and staged fields takes its bits, whatever they are. -/
theorem plainWrite_free {off : Nat} {r : RegRow} (hr : regRow off = some r) (hn : r.ranges = []) (hs : r.st = 0)
    (s : State) (i : Nat) (v : Word) : s.plainWrite i off v = s.setReg off (placed r (s.reg off) v) := by
  simp [State.plainWrite, hr, rangesOk, hn, State.stage, hs]

/-! ### Admitted writes -/

theorem exec_registerWrite_bus {iid : Iid} {off size : Nat} {s : State} (v : BitVec 64) (h : isStart off = false) :
    exec (.registerWrite iid off size v) s = s.done (s.busWrite iid off size v) := by
  show execRegisterWrite iid off size v s = _
  rw [execRegisterWrite, h]
  rfl

/-- The lock holds a register with an LK field (R37). -/
theorem busWrite_locked {iid : Iid} {off size : Nat} {s : State} {r : RegRow} (v : BitVec 64)
    (hc : s.regCheck iid.toNat off size true = none) (hr : regRow off = some r) (hk : r.lk ≠ 0) (hl : s.boot.lock = true) :
    s.busWrite iid off size v = s.refuse 0x9002 iid.toNat := by
  simp [State.busWrite, hc, hr, State.locked, hl, hk]

/-- An admitted write that the lock does not hold is placed. -/
theorem busWrite_placed {iid : Iid} {off size : Nat} {s : State} {r : RegRow} (v : BitVec 64)
    (hc : s.regCheck iid.toNat off size true = none) (hr : regRow off = some r) (hk : s.boot.lock = false ∨ r.lk = 0) :
    s.busWrite iid off size v = s.busPlace iid off size v := by
  have free : (s.locked && r.lk != 0) = false := by
    rcases hk with h | h <;> simp [State.locked, h]
  simp [State.busWrite, hc, hr, free]

/-- A 4-byte write of a register goes to the register's own unit. -/
theorem busPlace_write4 {off : Nat} (iid : Iid) (v : BitVec 64) (s : State) (hw : off < 0x1000000) (hq : isSquare off = false) :
    s.busPlace iid off 4 v = s.write4 iid off (v.setWidth 32) := by
  rw [State.busPlace]
  simp [Nat.not_le.2 hw, hq]

/-- The Host Interface has plain registers alone, and none of start-up's. -/
theorem hostInterface_offset {off : Nat} (h : off / 0x100000 = 0xC) :
    off < 0x1000000 ∧ isSquare off = false ∧ isStart off = false := by
  refine ⟨by omega, ?_, ?_⟩
  · simp only [isSquare, decide_eq_false_iff_not]
    omega
  · simp only [isStart, Bool.or_eq_false_iff, beq_eq_false_iff_ne, MC_LOCK, MC_RST_CTL, MC_BOOT_CTL]
    omega

theorem write4_hostInterface {iid : Iid} {off : Nat} {r : RegRow} (v : Word) (s : State) (h : off / 0x100000 = 0xC)
    (hr : regRow off = some r) (hh : r.half = none) : s.write4 iid off v = s.plainWrite iid.toNat off v := by
  simp [State.write4, hr, hh, State.writeReg, h]

/-- Settles O12: R554's checks pass, so the lock alone decides between the refusal and the register's plain write. -/
theorem lockedRegisterWriteIgnored : Obligations.LockedRegisterWriteIgnored := by
  unfold Obligations.LockedRegisterWriteIgnored
  refine ⟨fun iid off v s r hc hr hk hl hst => ?_, fun iid off v s r hc hr hl hC hh hn hs => ?_⟩
  · exact completes_denied ((exec_registerWrite_bus v hst).trans (congrArg s.done (busWrite_locked v hc hr hk hl)))
  · obtain ⟨hw, hq, hst⟩ := hostInterface_offset hC
    have set : s.busWrite iid off 4 v = s.setReg off (placed r (s.reg off) (v.setWidth 32)) := by
      rw [busWrite_placed v hc hr (.inl hl), busPlace_write4 iid v s hw hq, write4_hostInterface _ s hC hr hh,
        plainWrite_free hr hn hs]
    refine completes_of_onlyRegs ((exec_registerWrite_bus v hst).trans (congrArg s.done set)) (onlyRegs_setReg _ _ _)
      ⟨onlyRegs_setReg _ _ _, reg_setReg_same _ _ _, fun o ho => reg_setReg_ne _ _ fun e => ho (by simp [e])⟩

end Sys2Proof.Machine
end

section
/-! The fault registers, counts that a read clears, and pairs that are placed whole (O14, O16, O17). -/

namespace Sys2Proof.Machine

open Reg

theorem regsKept_report (s : State) (c i : Nat) : RegsKept [GLB_FAULT_FIRST, GLB_FAULT_LAST, GLB_FAULT_COUNT] s (s.report c i) := by
  intro o ho
  obtain ⟨first, last, count⟩ : o ≠ GLB_FAULT_FIRST ∧ o ≠ GLB_FAULT_LAST ∧ o ≠ GLB_FAULT_COUNT := by simpa using ho
  exact report_reg_ne _ _ _ _ first.symm last.symm count.symm

theorem report_last_iid (s : State) (c : Nat) (iid : Iid) :
    (s.report c iid.toNat).reg GLB_FAULT_LAST = BitVec.ofNat 32 (c + iid.toNat * 0x10000) := by
  rw [report_last, faultWord_iid]

/-! ### GLB_FAULT_CLEAR and the loss of the reference (R52, R58) -/

theorem exec_glbFaultClear {iid : Iid} {s : State} (v : Word) (h : s.writeOk iid GLB_FAULT_CLEAR = true) :
    exec (.glbFaultClear iid v) s = s.done (s.faultClear v) := by
  show s.done (s.writeWith iid GLB_FAULT_CLEAR fun s => s.faultClear v) = _
  rw [writeWith_ok h]

/-- While the Referee does not run it logs nothing of a lost reference. -/
theorem refLost_quiet {s : State} (pin : Bool) (h : s.ref.running = false) : s.refLost pin = s.hgRefLoss pin := by
  have still : (s.hgRefLoss pin).ref = s.ref := by
    unfold State.hgRefLoss
    rw [report_ref]
    split <;> rfl
  have logs : (s.hgRefLoss pin).refSees 0x1001 0 = s.hgRefLoss pin := by simp [State.refSees, still, h]
  simp [State.refLost, logs, State.safety, still, h]

/-- HG_STATUS as a loss of the reference leaves it, before the report. -/
def State.holdoverRegs (s : State) (pin : Bool) : State :=
  if pin then ((s.putB HG_STATUS_HOLDOVER true).putB HG_STATUS_PLL_LOCK false).putB HG_STATUS_REF_OK false
  else (s.putB HG_STATUS_HOLDOVER true).putB HG_STATUS_PLL_LOCK false

theorem hgRefLoss_eq (s : State) (pin : Bool) : s.hgRefLoss pin = (s.holdoverRegs pin).report 0x1001 9 := rfl

theorem onlyRegs_holdoverRegs (s : State) (pin : Bool) : OnlyRegs s (s.holdoverRegs pin) := by
  have two : OnlyRegs s ((s.putB HG_STATUS_HOLDOVER true).putB HG_STATUS_PLL_LOCK false) := ((OnlyRegs.refl s).putB _ _).putB _ _
  cases pin with
  | true => exact two.putB _ _
  | false => exact two

theorem reg_holdoverRegs (s : State) (pin : Bool) {o : Nat} (h : HG_STATUS ≠ o) : (s.holdoverRegs pin).reg o = s.reg o := by
  have two : ((s.putB HG_STATUS_HOLDOVER true).putB HG_STATUS_PLL_LOCK false).reg o = s.reg o :=
    (reg_putB_ne _ _ h).trans (reg_putB_ne _ _ h)
  cases pin with
  | true => exact (reg_putB_ne _ _ h).trans two
  | false => exact two

theorem holdover_holdoverRegs (s : State) (pin : Bool) : (s.holdoverRegs pin).is HG_STATUS_HOLDOVER = true := by
  have two : ((s.putB HG_STATUS_HOLDOVER true).putB HG_STATUS_PLL_LOCK false).is HG_STATUS_HOLDOVER = true := by
    rw [is_putB_ne _ _ _ _ (by decide) (by decide), is_putB _ _ _ (by decide) rfl]
  cases pin with
  | true => exact (is_putB_ne _ _ _ _ (by decide) (by decide)).trans two
  | false => exact two

/-- Settles O14: clearing writes GLB_FAULT_FIRST alone, and a lost reference is HG_STATUS and one report. -/
theorem faultClearAndReport : Obligations.FaultClearAndReport := by
  unfold Obligations.FaultClearAndReport
  refine ⟨fun iid v s hw => ⟨fun hv => ?_, fun hv => ?_⟩, fun pin s hr => ?_⟩
  · have cleared : s.faultClear v = s.setReg GLB_FAULT_FIRST 0 := by simp only [State.faultClear, hv, if_true]
    exact completes_of_onlyRegs ((exec_glbFaultClear v hw).trans (congrArg s.done cleared)) (onlyRegs_setReg _ _ _)
      ⟨onlyRegs_setReg _ _ _, reg_setReg_same _ _ _, fun o ho => reg_setReg_ne _ _ fun e => ho (by simp [e])⟩
  · have kept : s.faultClear v = s := by simp only [State.faultClear, hv]; rfl
    rw [exec_glbFaultClear v hw, kept, done_self]
  · have lost : s.refLost pin = (s.holdoverRegs pin).report 0x1001 9 := (refLost_quiet pin hr).trans (hgRefLoss_eq s pin)
    have only : OnlyRegs s ((s.holdoverRegs pin).report 0x1001 9) := (onlyRegs_holdoverRegs s pin).report _ _
    refine completes_of_onlyRegs (congrArg s.done lost) only ⟨only, report_last _ _ _, ?_, ?_, ?_, fun o ho => ?_⟩
    · rw [report_first, reg_holdoverRegs s pin (by decide)]
      rfl
    · rw [report_count, reg_holdoverRegs s pin (by decide)]
      rfl
    · rw [is_congr (report_reg_ne _ _ _ _ (by decide) (by decide) (by decide)), holdover_holdoverRegs]
    · obtain ⟨first, last, count, status⟩ :
          o ≠ GLB_FAULT_FIRST ∧ o ≠ GLB_FAULT_LAST ∧ o ≠ GLB_FAULT_COUNT ∧ o ≠ HG_STATUS := by simpa using ho
      rw [report_reg_ne _ _ _ _ first.symm last.symm count.symm, reg_holdoverRegs s pin status.symm]

/-! ### Admitted reads -/

theorem regCheck_of_readOk {s : State} {iid : Iid} {off : Nat} (h : s.readOk iid off = true) :
    s.regCheck iid.toNat off 4 false = none := Option.isNone_iff_eq_none.1 h

theorem busRead_placed {s : State} {iid : Iid} {off : Nat} (h : s.readOk iid off = true) :
    s.busRead iid off 4 = s.readPlace iid off 4 := by
  rw [State.busRead, regCheck_of_readOk h]

/-- A register that no read of another one latches, and without WO fields, reads as it shows. -/
theorem readVal_view {off : Nat} {r : RegRow} (hl : isLatched off = false) (hr : regRow off = some r) (hw : r.wo = 0)
    (s : State) (iid : Nat) : s.readVal iid off = s.view off := by
  have all : ~~~ BitVec.ofNat 32 r.wo = BitVec.allOnes 32 := by rw [hw]; rfl
  calc s.readVal iid off = s.view off &&& ~~~ BitVec.ofNat 32 r.wo := by simp only [State.readVal, hl, hr, Bool.false_eq_true, if_false]
    _ = s.view off := by rw [all, BitVec.and_allOnes]

/-- A count that every read clears whole, and that latches nothing (R39). -/
theorem readReg_count {off : Nat} {r : RegRow} (hl : latchList off = []) (hr : regRow off = some r) (hc : r.rc = 0xFFFFFFFF)
    (s : State) (iid : Nat) :
    s.readReg iid off = (s.setReg off 0).emit (.readData (BitVec.ofNat 6 iid) off ((s.readVal iid off).zeroExtend 64)) := by
  simp [State.readReg, hl, State.latchAll, State.clearRc, hr, hc]
  rfl

theorem rcRead_clears {iid : Iid} {off : Nat} {s : State} {r : RegRow} (hok : s.readOk iid off = true)
    (hp : s.readPlace iid off 4 = s.readReg iid.toNat off) (hl : latchList off = []) (hr : regRow off = some r)
    (hc : r.rc = 0xFFFFFFFF) (hv : s.readVal iid.toNat off = s.reg off) : Completes (.rcRead iid off) s fun t =>
      ∃ u, OnlyRegs s u ∧ u.reg off = 0 ∧ RegsKept [off] s u ∧ t = u.emit (.readData iid off ((s.reg off).zeroExtend 64)) := by
  have read : s.busRead iid off 4 = (s.setReg off 0).emit (.readData iid off ((s.reg off).zeroExtend 64)) := by
    rw [busRead_placed hok, hp, readReg_count hl hr hc, hv, BitVec.ofNat_toNat, BitVec.setWidth_eq]
  exact completes_of_kept (congrArg s.done read) rfl rfl
    ⟨_, onlyRegs_setReg _ _ _, reg_setReg_same _ _ _, fun o ho => reg_setReg_ne _ _ fun e => ho (by simp [e]), rfl⟩

/-- Settles O16: both counts are RC over all 32 bits, and no unit shows another value in their place. -/
theorem rcReadReturnsThenClears : Obligations.RcReadReturnsThenClears := by
  unfold Obligations.RcReadReturnsThenClears
  rintro iid off s (rfl | rfl) hok
  · exact rcRead_clears (r := { base := 0x18, rc := 0xFFFFFFFF }) hok rfl rfl rfl rfl (readVal_view rfl rfl rfl s iid.toNat)
  · exact rcRead_clears (r := { base := 0xC00004, rc := 0xFFFFFFFF }) hok rfl rfl rfl rfl (readVal_view rfl rfl rfl s iid.toNat)

/-! ### Pairs (R61, R730) -/

theorem regCheck_of_writeOk {s : State} {iid : Iid} {off : Nat} (h : s.writeOk iid off = true) :
    s.regCheck iid.toNat off 4 true = none := by
  have both : (s.regCheck iid.toNat off 4 true).isNone = true ∧ (!(s.locked && (regRow off).any fun r => r.lk != 0)) = true := by
    simpa only [State.writeOk, Bool.and_eq_true] using h
  exact Option.isNone_iff_eq_none.1 both.1

/-- An admitted 4-byte write of a register without LK fields. -/
theorem exec_registerWrite_write4 {iid : Iid} {off : Nat} {s : State} {r : RegRow} (v : BitVec 64) (hok : s.writeOk iid off = true)
    (hr : regRow off = some r) (hk : r.lk = 0) (hs : isStart off = false) (hw : off < 0x1000000) (hq : isSquare off = false) :
    exec (.registerWrite iid off 4 v) s = s.done (s.write4 iid off (v.setWidth 32)) := by
  rw [exec_registerWrite_bus v hs, busWrite_placed v (regCheck_of_writeOk hok) hr (.inr hk), busPlace_write4 iid v s hw hq]

theorem epochLo_row : regRow HG_TURN_EPOCH_LO = some { base := 0x100018, rw := 0xFFFFFFFF, half := some false, cls := .config } := rfl

theorem epochHi_row : regRow HG_TURN_EPOCH_HI = some { base := 0x10001C, rw := 0xFFFFFFFF, half := some true, cls := .config } := rfl

theorem periodLo_row : regRow HG_TURN_PER_LO =
    some { base := 0x100020, reset := 0xFE502AAB, rw := 0xFFFFFFFF, half := some false, cls := .config } := rfl

theorem exec_epochLo {iid : Iid} {s : State} (v : BitVec 64) (h : s.writeOk iid HG_TURN_EPOCH_LO = true) :
    exec (.registerWrite iid HG_TURN_EPOCH_LO 4 v) s = s.done (s.holdLo iid.toNat HG_TURN_EPOCH_LO (v.setWidth 32)) := by
  rw [exec_registerWrite_write4 v h epochLo_row rfl rfl (by decide) rfl, State.write4, epochLo_row]
  rfl

/-- The epoch is placed with the held _LO or the one in force, and what was held is discarded. -/
theorem exec_epochHi {iid : Iid} {s : State} (v : BitVec 64) (h : s.writeOk iid HG_TURN_EPOCH_HI = true) :
    exec (.registerWrite iid HG_TURN_EPOCH_HI 4 v) s = s.done ((s.dropLo iid.toNat HG_TURN_EPOCH_LO).hgTurnPair iid.toNat
      HG_TURN_EPOCH_LO (s.pairValue iid.toNat HG_TURN_EPOCH_LO (v.setWidth 32))) := by
  rw [exec_registerWrite_write4 v h epochHi_row rfl rfl (by decide) rfl, State.write4, epochHi_row]
  rfl

/-- An 8-byte write of the period discards what was held of it. -/
theorem exec_period {iid : Iid} {s : State} (v : BitVec 64) (h : s.regCheck iid.toNat HG_TURN_PER_LO 8 true = none) :
    exec (.registerWrite iid HG_TURN_PER_LO 8 v) s =
      s.done ((s.dropLo iid.toNat HG_TURN_PER_LO).hgTurnPair iid.toNat HG_TURN_PER_LO v.toNat) := by
  rw [exec_registerWrite_bus v rfl, busWrite_placed v h periodLo_row (.inr rfl)]
  rfl

theorem hgTurnPair_active {s : State} {lo : Nat} (i v : Nat) (h : s.is HG_TURN_CTL_ACTIVE = true) :
    s.hgTurnPair i lo v = s.report 0x1003 i := by
  simp [State.hgTurnPair, State.active, h]

theorem hgTurnPair_epoch {s : State} (i v : Nat) (h : s.is HG_TURN_CTL_ACTIVE = false) :
    s.hgTurnPair i HG_TURN_EPOCH_LO v = s.setPair HG_TURN_EPOCH_LO v := by
  simp [State.hgTurnPair, State.active, h, HG_TURN_EPOCH_LO, HG_TURN_PER_LO]

/-- The period is placed within R59's range alone. -/
theorem hgTurnPair_period {s : State} (i v : Nat) (h : s.is HG_TURN_CTL_ACTIVE = false) :
    s.hgTurnPair i HG_TURN_PER_LO v =
      if 2133333334 ≤ v ∧ v ≤ 25600000000 then s.setPair HG_TURN_PER_LO v else s.report 0x1003 i := by
  by_cases hv : 2133333334 ≤ v ∧ v ≤ 25600000000 <;> simp [State.hgTurnPair, State.active, h, hv]

theorem reg_setPair_lo (s : State) (o v : Nat) : (s.setPair o v).reg o = BitVec.ofNat 32 v := by
  rw [State.setPair, reg_setReg_ne _ _ (by omega), reg_setReg_same]

theorem reg_setPair_hi (s : State) (o v : Nat) : (s.setPair o v).reg (o + 4) = BitVec.ofNat 32 (v / 2 ^ 32) := by
  rw [State.setPair, reg_setReg_same]

theorem regsKept_setPair (s : State) (o v : Nat) : RegsKept [o, o + 4] s (s.setPair o v) := by
  intro q hq
  obtain ⟨lo, hi⟩ : q ≠ o ∧ q ≠ o + 4 := by simpa using hq
  exact reg_setPair_ne s v lo.symm hi.symm

/-- The value that a write of _HI places has the held _LO, or the one in force, below it. -/
theorem pairValue_halves (s : State) (i lo : Nat) (hi : Word) :
    BitVec.ofNat 32 (s.pairValue i lo hi) = (spGet (fun _ => none) s.heldLo (State.latchKey lo i)).getD (s.reg lo) ∧
      BitVec.ofNat 32 (s.pairValue i lo hi / 2 ^ 32) = hi := by
  unfold State.pairValue
  generalize (spGet (fun _ => none) s.heldLo (State.latchKey lo i)).getD (s.reg lo) = l
  have hl := l.isLt
  have hh := hi.isLt
  constructor
  · apply BitVec.eq_of_toNat_eq
    rw [BitVec.toNat_ofNat]
    omega
  · apply BitVec.eq_of_toNat_eq
    rw [BitVec.toNat_ofNat]
    omega

/-- A report leaves every pair of the Hourglass as it was. -/
theorem pair_report {o : Nat} (h : 0x100000 ≤ o) (s : State) (c i : Nat) : (s.report c i).pair o = s.pair o := by
  have kept {q : Nat} (hq : 0x100000 ≤ q) : (s.report c i).reg q = s.reg q :=
    report_reg_ne _ _ _ _ (by simp only [GLB_FAULT_FIRST]; omega) (by simp only [GLB_FAULT_LAST]; omega)
      (by simp only [GLB_FAULT_COUNT]; omega)
  exact pair_congr (kept h) (kept (by omega))

/-- Settles O17: the pair is set by one `setPair`, from what R730 says stands below the written half. -/
theorem pairIsPlacedInOneInstant : Obligations.PairIsPlacedInOneInstant := by
  unfold Obligations.PairIsPlacedInOneInstant
  refine ⟨fun iid v s hw => ?_, fun iid lo v s hw hlo => ⟨fun ha => ?_, fun ha => ?_⟩, fun iid v s hc ha => ?_⟩
  · exact completes_of_kept (exec_epochLo v hw) rfl rfl rfl
  · obtain ⟨below, above⟩ := pairValue_halves s iid.toNat HG_TURN_EPOCH_LO (v.setWidth 32)
    have placed := hgTurnPair_epoch (s := s.dropLo iid.toNat HG_TURN_EPOCH_LO) iid.toNat
      (s.pairValue iid.toNat HG_TURN_EPOCH_LO (v.setWidth 32)) ha
    refine completes_of_kept ((exec_epochHi v hw).trans (congrArg s.done placed)) (by simp) (by simp) ⟨?_, ?_, ?_, ?_⟩
    · rw [reg_setPair_lo, below, hlo]
    · exact (reg_setPair_hi _ _ _).trans above
    · rw [setPair_heldLo]
      exact spGet_spPut_same s.heldLo _ none
    · exact regsKept_setPair (s.dropLo iid.toNat HG_TURN_EPOCH_LO) _ _
  · have refused := hgTurnPair_active (s := s.dropLo iid.toNat HG_TURN_EPOCH_LO) (lo := HG_TURN_EPOCH_LO) iid.toNat
      (s.pairValue iid.toNat HG_TURN_EPOCH_LO (v.setWidth 32)) ha
    exact completes_of_kept ((exec_epochHi v hw).trans (congrArg s.done refused)) (by simp) (by simp)
      ⟨pair_report (by decide) (s.dropLo iid.toNat HG_TURN_EPOCH_LO) _ _, report_last_iid _ _ _⟩
  · have written := hgTurnPair_period (s := s.dropLo iid.toNat HG_TURN_PER_LO) iid.toNat v.toNat ha
    by_cases hv : 2133333334 ≤ v.toNat ∧ v.toNat ≤ 25600000000
    · rw [if_pos hv] at written
      refine completes_of_kept ((exec_period v hc).trans (congrArg s.done written)) (by simp) (by simp) ?_
      rw [if_pos hv]
      exact ⟨(pair_setPair _ _ _).trans (Nat.mod_eq_of_lt v.isLt), regsKept_setPair (s.dropLo iid.toNat HG_TURN_PER_LO) _ _⟩
    · rw [if_neg hv] at written
      refine completes_of_kept ((exec_period v hc).trans (congrArg s.done written)) (by simp) (by simp) ?_
      rw [if_neg hv]
      exact ⟨pair_report (by decide) (s.dropLo iid.toNat HG_TURN_PER_LO) _ _, report_last_iid _ _ _⟩

end Sys2Proof.Machine
end

section
/-! Reads that latch other registers of the same instant (O19). -/

namespace Sys2Proof.Machine

open Reg

@[simp] theorem view_with_latch (s : State) (x : Sparse (Option Word)) (o : Nat) : State.view { s with latch := x } o = s.view o := rfl
@[simp] theorem view_emit (s : State) (x : Out) (o : Nat) : (s.emit x).view o = s.view o := rfl

theorem latchKey_inj {o q i : Nat} : State.latchKey o i = State.latchKey q i ↔ o = q := by
  simp only [State.latchKey]
  omega

/-- Capturing touches the latches alone. -/
theorem latchAll_eq (s : State) (i : Nat) (l : List Nat) : s.latchAll i l = { s with latch := (s.latchAll i l).latch } := by
  induction l generalizing s with
  | nil => rfl
  | cons o r ih => rw [State.latchAll, ih]

/-- Each captured register's latch holds what it shows at the read. -/
theorem latch_latchAll (s : State) (i : Nat) (l : List Nat) (o : Nat) :
    spGet (fun _ => none) (s.latchAll i l).latch (State.latchKey o i) =
      if o ∈ l then some (s.view o) else spGet (fun _ => none) s.latch (State.latchKey o i) := by
  induction l generalizing s with
  | nil => rfl
  | cons q r ih =>
    rw [State.latchAll, ih]
    by_cases hr : o ∈ r
    · simp [hr]
    · by_cases hq : q = o
      · simp [hr, hq]
      · simp [hr, Ne.symm hq, spGet_spPut_ne _ _ (mt latchKey_inj.1 hq)]

theorem clearRc_none {off : Nat} {r : RegRow} (hr : regRow off = some r) (hc : r.rc = 0) (s : State) : s.clearRc off = s := by
  simp [State.clearRc, hr, hc]

/-- An admitted read of a register that clears nothing and is not latched itself: the value in force goes out, and the registers
that it latches are captured at the same instant. -/
theorem readWith_latches {c : Instr} {iid : Iid} {off : Nat} {s : State} {r : RegRow}
    (h : exec c s = s.done (s.readWith iid off id)) (hok : s.readOk iid off = true) (hr : regRow off = some r) (hc : r.rc = 0)
    (hw : r.wo = 0) (hl : isLatched off = false) : Completes c s fun t =>
      t.outbox = .readData iid off ((s.view off).zeroExtend 64) :: s.outbox ∧
      (∀ o ∈ latchList off, spGet (fun _ => none) t.latch (State.latchKey o iid.toNat) = some (s.view o)) ∧
      t.regs = s.regs ∧ t.hg = s.hg := by
  have read : s.readWith iid off id =
      (s.emit (.readData iid off ((s.view off).zeroExtend 64))).latchAll iid.toNat (latchList off) := by
    rw [readWith_ok hok, id, State.readReg, clearRc_none hr hc, readVal_view hl hr hw, BitVec.ofNat_toNat, BitVec.setWidth_eq]
  rw [read] at h
  have frame := latchAll_eq (s.emit (.readData iid off ((s.view off).zeroExtend 64))) iid.toNat (latchList off)
  refine completes_of_kept h ?_ ?_ ⟨?_, fun o ho => ?_, ?_, ?_⟩
  · exact (congrArg State.pending frame :)
  · exact (congrArg State.boot frame :)
  · exact (congrArg State.outbox frame :)
  · rw [latch_latchAll, if_pos ho, view_emit]
  · exact (congrArg State.regs frame :)
  · exact (congrArg State.hg frame :)

/-! ### What the registers of the three reads show (R63, R90, R93) -/

/-- The published epoch is held in its registers. -/
theorem view_epoch {o : Nat} (h : o ∈ [HG_EPOCH_NT_NS, HG_EPOCH_NT_SEC_LO, HG_EPOCH_NT_SEC_HI, HG_EPOCH_META]) (s : State) :
    s.view o = s.reg o := by
  simp only [List.mem_cons, List.not_mem_nil, or_false] at h
  rcases h with rfl | rfl | rfl | rfl <;> rfl

/-- The nanoseconds of a domain's Network Time, and its seconds in a pair (R93). -/
theorem view_netTime (s : State) (d : Fin 2) :
    s.view (HG_DOM_NT_NS d) = BitVec.ofNat 32 (s.netTime d % 1000000000) ∧
    s.view (HG_DOM_NT_SEC_LO d) = BitVec.ofNat 32 (s.netTime d / 1000000000) ∧
    s.view (HG_DOM_NT_SEC_HI d) = BitVec.ofNat 32 (s.netTime d / 1000000000 / 2 ^ 32 % 65536) := by
  match d with
  | 0 => exact ⟨rfl, rfl, rfl⟩
  | 1 => exact ⟨rfl, rfl, rfl⟩

theorem netTimeNs_row (d : Fin 2) : regRow (HG_DOM_NT_NS d) = some { base := 0x100138, dims := [(2, 0x80)] } := by
  match d with
  | 0 => rfl
  | 1 => rfl

theorem netTimeNs_latches (d : Fin 2) : isLatched (HG_DOM_NT_NS d) = false ∧
    latchList (HG_DOM_NT_NS d) = [HG_DOM_NT_SEC_LO d, HG_DOM_NT_SEC_HI d] := by
  match d with
  | 0 => exact ⟨rfl, rfl⟩
  | 1 => exact ⟨rfl, rfl⟩

theorem view_backupSec (s : State) : s.view HG_BK_SEC = s.hg.bkSec :=
  (BitVec.ofNat_toNat 32 s.hg.bkSec).trans (BitVec.setWidth_eq _)

theorem view_backupSub (s : State) : s.view HG_BK_SUB = BitVec.ofNat 32 s.hg.bkSub := rfl

/-- A number below 2³² is the same word in 64 bits. -/
theorem zeroExtend_ofNat {n : Nat} (h : n < 2 ^ 32) : (BitVec.ofNat 32 n).zeroExtend 64 = BitVec.ofNat 64 n := by
  apply BitVec.eq_of_toNat_eq
  simp only [BitVec.truncate_eq_setWidth, BitVec.toNat_setWidth, BitVec.toNat_ofNat]
  omega

/-- Settles O19: each of the three is a read that latches, of registers that show the epoch, Network Time and the backup counter. -/
theorem epochNetworkAndBackupReads : Obligations.EpochNetworkAndBackupReads := by
  unfold Obligations.EpochNetworkAndBackupReads
  refine ⟨fun iid s hok => ?_, fun iid d s hok => ?_, fun iid s hok => ?_⟩
  · obtain ⟨t, done, out, latched, kept⟩ := readWith_latches (c := .epochRead iid) rfl hok
      (r := { base := 0x100030 }) rfl rfl rfl rfl
    rw [view_epoch (by simp)] at out
    exact ⟨t, done, out, fun o ho => (latched o ho).trans (congrArg some (view_epoch (List.mem_cons_of_mem _ ho) s)), kept⟩
  · obtain ⟨notLatched, list⟩ := netTimeNs_latches d
    obtain ⟨ns, secLo, secHi⟩ := view_netTime s d
    obtain ⟨t, done, out, latched, kept⟩ := readWith_latches (c := .networkTimeRead iid d) rfl hok (netTimeNs_row d) rfl rfl notLatched
    rw [list] at latched
    rw [ns, zeroExtend_ofNat (by omega)] at out
    exact ⟨t, done, out, (latched _ (by simp)).trans (congrArg some secLo), (latched _ (by simp)).trans (congrArg some secHi), kept⟩
  · obtain ⟨t, done, out, latched, kept⟩ := readWith_latches (c := .backupSecRead iid) rfl hok
      (r := { base := 0x100304 }) rfl rfl rfl rfl
    rw [view_backupSec] at out
    exact ⟨t, done, out, (latched _ (by decide)).trans (congrArg some (view_backupSub s)), kept⟩

end Sys2Proof.Machine
end

section
/-! Domains are enabled, disabled and selected (O22), and what a step runs (O1). -/

namespace Sys2Proof.Machine

open Reg

/-! ### Changes of the Hourglass alone -/

/-- `t` differs from `s` in registers, in the Hourglass and in the count of free values alone. -/
def OnlyHourglass (s t : State) : Prop := t = { s with regs := t.regs, hg := t.hg, freeCtr := t.freeCtr }

theorem OnlyHourglass.trans {s t u : State} (h : OnlyHourglass s t) (k : OnlyHourglass t u) : OnlyHourglass s u := by
  unfold OnlyHourglass at *
  rw [k, h]

theorem OnlyRegs.onlyHourglass {s t : State} (h : OnlyRegs s t) : OnlyHourglass s t := by
  unfold OnlyRegs at h
  rw [h]
  rfl

theorem onlyHourglass_hg (s : State) (x : Hg) : OnlyHourglass s { s with hg := x } := rfl

theorem OnlyHourglass.pending {s t : State} (h : OnlyHourglass s t) : t.pending = s.pending := (congrArg State.pending h :)

theorem OnlyHourglass.boot {s t : State} (h : OnlyHourglass s t) : t.boot = s.boot := (congrArg State.boot h :)

theorem completes_of_onlyHourglass {c : Instr} {s t : State} {p : State → Prop} (h : exec c s = s.done t)
    (k : OnlyHourglass s t) (ht : p t) : Completes c s p :=
  completes_of_kept h k.pending k.boot ht

theorem onlyHourglass_setDom (s : State) (d : Nat) (x : HgDom) : OnlyHourglass s (s.setDom d x) := by
  unfold State.setDom
  split <;> rfl

theorem onlyHourglass_publishEpoch (s : State) : OnlyHourglass s s.publishEpoch := by
  have took : OnlyHourglass s s.took := rfl
  unfold State.publishEpoch
  dsimp only
  split
  · exact (onlyRegs_putEpoch _ _).onlyHourglass
  · exact took.trans (onlyRegs_putEpoch _ _).onlyHourglass

/-! ### One-bit fields -/

theorem is_eq_getLsbD (s : State) (off lo : Nat) : s.is ⟨off, lo, 1⟩ = (s.reg off).getLsbD lo := by
  simp only [State.is, State.get, bitsOf, BitVec.getLsbD, Nat.testBit_eq_decide_div_mod_eq, pow_one]
  rfl

/-! ### The state of a domain -/

@[simp] theorem dom_setDom (s : State) (d : Nat) (x : HgDom) : (s.setDom d x).dom d = x := by
  by_cases h : d = 0 <;> simp [State.setDom, State.dom, h]

@[simp] theorem reg_setDom (s : State) (d : Nat) (x : HgDom) (o : Nat) : (s.setDom d x).reg o = s.reg o := by
  unfold State.setDom
  split <;> rfl

@[simp] theorem actDom_setDom (s : State) (d : Nat) (x : HgDom) : (s.setDom d x).actDom = s.actDom := by
  unfold State.setDom
  split <;> rfl

theorem dom_of_hg {s t : State} (h : t.hg = s.hg) (d : Nat) : t.dom d = s.dom d := by simp only [State.dom, h]

theorem actDom_of_hg {s t : State} (h : t.hg = s.hg) : t.actDom = s.actDom := by simp only [State.actDom, h]

/-! ### The write of HG_DOM_CFG (R68) -/

/-- The row of the two domains' configuration registers. -/
def domCfgRow : RegRow := { base := 0x100100, dims := [(2, 0x80)], rw := 0xFF0F }

theorem domCfg_row (d : Fin 2) : regRow (HG_DOM_CFG d) = some domCfgRow := by
  match d with
  | 0 => rfl
  | 1 => rfl

/-- HG_DOM_CFG[d] takes the bits of its fields. -/
def State.domCfgSet (s : State) (d : Nat) (v : Word) : State := s.setReg (HG_DOM_CFG d) (placed domCfgRow (s.reg (HG_DOM_CFG d)) v)

theorem is_domCfgSet (s : State) (d : Nat) (v : Word) : (s.domCfgSet d v).is (HG_DOM_CFG_EN d) = v.getLsbD 0 := by
  rw [HG_DOM_CFG_EN, is_eq_getLsbD, State.domCfgSet, reg_setReg_same, getLsbD_placed _ _ _ (by decide)]
  rfl

/-- Where MODE stays, a write to HG_DOM_CFG is its bits and what a change of EN brings. -/
theorem hgDomCfg_en {s : State} {d : Fin 2} {v : Word} (hm : v.getLsbD 2 = s.is (HG_DOM_CFG_MODE d)) :
    s.hgDomCfg d v =
      if s.is (HG_DOM_CFG_EN d) && !v.getLsbD 0 then (s.domCfgSet d v).hgDomOff d
      else if !s.is (HG_DOM_CFG_EN d) && v.getLsbD 0 then (s.domCfgSet d v).hgDomOn d else s.domCfgSet d v := by
  have set : s.plainWrite hgIid (HG_DOM_CFG d) v = s.domCfgSet d v := plainWrite_free (domCfg_row d) rfl rfl _ _ _
  simp only [State.hgDomCfg, set, hm, Bool.not_and_self, Bool.and_not_self, Bool.false_eq_true, if_false]

theorem ownerOnly_owner {s : State} {iid : Iid} (h : iid.toNat = s.get HG_OWNER_IID) (f : State → State) :
    s.ownerOnly iid f = f s := if_pos h

theorem ownerOnly_other {s : State} {iid : Iid} (h : iid.toNat ≠ s.get HG_OWNER_IID) (f : State → State) :
    s.ownerOnly iid f = s.report 0x100D iid.toNat := if_neg h

theorem exec_domainEnable {iid : Iid} {d : Fin 2} {v : Word} {s : State} (hw : s.writeOk iid (HG_DOM_CFG d) = true)
    (ho : iid.toNat = s.get HG_OWNER_IID) : exec (.domainEnable iid d v) s = s.done (s.hgDomCfg d v) := by
  show s.done (s.writeWith iid (HG_DOM_CFG d) fun s => s.ownerOnly iid fun s => s.hgDomCfg d v) = _
  rw [writeWith_ok hw, ownerOnly_owner ho]

theorem exec_domainDisable {iid : Iid} {d : Fin 2} {v : Word} {s : State} (hw : s.writeOk iid (HG_DOM_CFG d) = true)
    (ho : iid.toNat = s.get HG_OWNER_IID) : exec (.domainDisable iid d v) s = s.done (s.hgDomCfg d v) := by
  show s.done (s.writeWith iid (HG_DOM_CFG d) fun s => s.ownerOnly iid fun s => s.hgDomCfg d v) = _
  rw [writeWith_ok hw, ownerOnly_owner ho]

/-! ### EN goes from 0 to 1 -/

theorem onlyHourglass_hgDomOn (s : State) (d : Nat) : OnlyHourglass s (s.hgDomOn d) := by
  unfold State.hgDomOn
  split
  · split
    · rfl
    · exact (onlyHourglass_hg s _).trans (onlyHourglass_publishEpoch _)
  · rfl

/-- Outside the published epoch no register changes. -/
theorem reg_hgDomOn (s : State) (d : Nat) {o : Nat} (h : o < HG_EPOCH_NT_NS ∨ HG_EPOCH_META < o) :
    (s.hgDomOn d).reg o = s.reg o := by
  unfold State.hgDomOn
  split
  · split
    · rfl
    · exact reg_publishEpoch _ h
  · rfl

theorem dom_hgDomOn (s : State) (d e : Nat) : (s.hgDomOn d).dom e = s.dom e := by
  unfold State.hgDomOn
  split
  · split
    · rfl
    · exact dom_of_hg (hg_publishEpoch _) e
  · rfl

/-- Enabling a domain that outputs do not use changes nothing more. -/
theorem hgDomOn_unselected {s : State} {d : Nat} (h : s.actDom ≠ d) : s.hgDomOn d = s := if_neg h

/-- Where turns do not run, the selected domain's letter shows at once. -/
theorem domLetter_hgDomOn {s : State} {d : Nat} (ha : s.actDom = d) (hr : s.turnsRun = false)
    (he : s.is (HG_DOM_CFG_EN d) = true) : (s.hgDomOn d).domLetter = 0x41 + d := by
  have en : (s.hgDomOn d).is (HG_DOM_CFG_EN d) = true :=
    (is_congr (reg_hgDomOn s d (.inr (by simp only [HG_EPOCH_META, HG_DOM_CFG_EN, HG_DOM_CFG]; omega)))).trans he
  have hg : (s.hgDomOn d).hg = { s.hg with letter := true } := by
    rw [State.hgDomOn, if_pos ha, hr, if_neg Bool.false_ne_true, hg_publishEpoch]
  have act : (s.hgDomOn d).actDom = d := by rw [State.actDom, hg]; exact ha
  rw [State.domLetter, act, en, hg]
  rfl

theorem domainEnable_enables {iid : Iid} {d : Fin 2} {v : Word} {s : State} (hw : s.writeOk iid (HG_DOM_CFG d) = true)
    (ho : iid.toNat = s.get HG_OWNER_IID) (hm : v.getLsbD 2 = s.is (HG_DOM_CFG_MODE d))
    (he : s.is (HG_DOM_CFG_EN d) = false) (hv : v.getLsbD 0 = true) : Completes (.domainEnable iid d v) s fun t =>
      t.is (HG_DOM_CFG_EN d) = true ∧ t.dom d = s.dom d ∧
      (s.actDom ≠ d → OnlyRegs s t ∧ RegsKept [HG_DOM_CFG d] s t) ∧
      (s.actDom = d → s.hg.pendAct = none → s.turnsRun = false → t.domLetter = 0x41 + d) := by
  have on : s.hgDomCfg d v = (s.domCfgSet d v).hgDomOn d := by rw [hgDomCfg_en hm, he, hv]; rfl
  have set : OnlyRegs s (s.domCfgSet d v) := onlyRegs_setReg _ _ _
  have en : (s.domCfgSet d v).is (HG_DOM_CFG_EN d) = true := (is_domCfgSet s d v).trans hv
  refine completes_of_onlyHourglass ((exec_domainEnable hw ho).trans (congrArg s.done on))
    (set.onlyHourglass.trans (onlyHourglass_hgDomOn _ _)) ⟨?_, ?_, fun ha => ?_, fun ha _ hr => ?_⟩
  · exact (is_congr (reg_hgDomOn _ _ (.inr (by simp only [HG_EPOCH_META, HG_DOM_CFG_EN, HG_DOM_CFG]; omega)))).trans en
  · exact dom_hgDomOn _ _ _
  · rw [hgDomOn_unselected (s := s.domCfgSet d v) ha]
    exact ⟨set, fun o ho => reg_setReg_ne _ _ fun e => ho (by simp [e])⟩
  · refine domLetter_hgDomOn ha ?_ en
    have ctl : (s.domCfgSet d v).reg HG_TURN_CTL = s.reg HG_TURN_CTL :=
      reg_setReg_ne _ _ (by simp only [HG_TURN_CTL, HG_DOM_CFG]; omega)
    rw [← hr, State.turnsRun, State.turnsRun, is_congr (f := HG_TURN_CTL_ACTIVE) ctl, is_congr (f := HG_TURN_CTL_STARTED) ctl]

/-! ### EN goes from 1 to 0 -/

/-- The domain's own part of it: the amortisation ends, and the waiting samples are gone (R68, R97). -/
def State.domHalt (s : State) (d : Nat) : State :=
  (s.endSlew d).setDom d { (s.endSlew d).dom d with samples := [] }

theorem hgDomOff_eq (s : State) (d : Nat) : s.hgDomOff d =
    if (s.domHalt d).actDom = d then
      State.put { s.domHalt d with hg := { (s.domHalt d).hg with letter := false, pendLetter := false } } HG_EPOCH_META_DOMAIN 0
    else s.domHalt d := rfl

theorem onlyHourglass_domHalt (s : State) (d : Nat) : OnlyHourglass s (s.domHalt d) :=
  ((onlyHourglass_setDom s d _).trans (onlyRegs_setReg _ _ _).onlyHourglass).trans (onlyHourglass_setDom _ d _)

theorem dom_domHalt (s : State) (d : Nat) : (s.domHalt d).dom d = { s.dom d with rem := 0, samples := [] } := by
  have slew : (s.endSlew d).dom d = { s.dom d with rem := 0 } := (dom_of_hg rfl d).trans (dom_setDom s d _)
  rw [State.domHalt, dom_setDom, slew]

theorem reg_domHalt (s : State) (d : Nat) {o : Nat} (h : HG_DOM_STAT d ≠ o) : (s.domHalt d).reg o = s.reg o := by
  rw [State.domHalt, reg_setDom, State.endSlew, reg_putB_ne _ _ h, reg_setDom]

theorem slewing_domHalt (s : State) (d : Nat) : (s.domHalt d).is (HG_DOM_STAT_SLEWING d) = false := by
  rw [State.domHalt, is_congr (reg_setDom _ _ _ _), State.endSlew, is_putB _ _ _ (by simp [HG_DOM_STAT_SLEWING]) rfl]

theorem actDom_domHalt (s : State) (d : Nat) : (s.domHalt d).actDom = s.actDom := by
  rw [State.domHalt, actDom_setDom, State.endSlew]
  exact (actDom_of_hg rfl).trans (actDom_setDom s d _)

theorem onlyHourglass_hgDomOff (s : State) (d : Nat) : OnlyHourglass s (s.hgDomOff d) := by
  rw [hgDomOff_eq]
  split
  · exact ((onlyHourglass_domHalt s d).trans (onlyHourglass_hg _ _)).trans (onlyRegs_setReg _ _ _).onlyHourglass
  · exact onlyHourglass_domHalt s d

/-- Beside the domain, only the letter of the published epoch changes. -/
theorem reg_hgDomOff (s : State) (d : Nat) {o : Nat} (h : HG_EPOCH_META ≠ o) : (s.hgDomOff d).reg o = (s.domHalt d).reg o := by
  rw [hgDomOff_eq]
  split
  · exact reg_put_ne _ _ h
  · rfl

theorem dom_hgDomOff (s : State) (d : Nat) : (s.hgDomOff d).dom d = { s.dom d with rem := 0, samples := [] } := by
  rw [hgDomOff_eq]
  split
  · exact dom_domHalt s d
  · exact dom_domHalt s d

/-- A selected domain that is disabled shows letter 0, in outputs and in the published epoch. -/
theorem letter_hgDomOff {s : State} {d : Nat} (h : s.actDom = d) :
    (s.hgDomOff d).domLetter = 0 ∧ (s.hgDomOff d).get HG_EPOCH_META_DOMAIN = 0 := by
  rw [hgDomOff_eq, if_pos ((actDom_domHalt s d).trans h)]
  exact ⟨rfl, get_put _ _ _ (by decide)⟩

theorem domainDisable_disables {iid : Iid} {d : Fin 2} {v : Word} {s : State} (hw : s.writeOk iid (HG_DOM_CFG d) = true)
    (ho : iid.toNat = s.get HG_OWNER_IID) (hm : v.getLsbD 2 = s.is (HG_DOM_CFG_MODE d))
    (he : s.is (HG_DOM_CFG_EN d) = true) (hv : v.getLsbD 0 = false) : Completes (.domainDisable iid d v) s fun t =>
      t.is (HG_DOM_CFG_EN d) = false ∧ t.is (HG_DOM_STAT_SLEWING d) = false ∧
      t.dom d = { s.dom d with rem := 0, samples := [] } ∧ t.reg (HG_DOM_STEP d) = s.reg (HG_DOM_STEP d) ∧
      (s.actDom = d → t.domLetter = 0 ∧ t.get HG_EPOCH_META_DOMAIN = 0) := by
  have off : s.hgDomCfg d v = (s.domCfgSet d v).hgDomOff d := by rw [hgDomCfg_en hm, he, hv]; rfl
  have set : OnlyRegs s (s.domCfgSet d v) := onlyRegs_setReg _ _ _
  have kept {o : Nat} (hd : HG_DOM_STAT d ≠ o) (hm : HG_EPOCH_META ≠ o) :
      ((s.domCfgSet d v).hgDomOff d).reg o = (s.domCfgSet d v).reg o := (reg_hgDomOff _ _ hm).trans (reg_domHalt _ _ hd)
  refine completes_of_onlyHourglass ((exec_domainDisable hw ho).trans (congrArg s.done off))
    (set.onlyHourglass.trans (onlyHourglass_hgDomOff _ _)) ⟨?_, ?_, dom_hgDomOff _ _, ?_, fun ha => letter_hgDomOff ha⟩
  · have cfg := kept (o := HG_DOM_CFG d) (by simp only [HG_DOM_STAT, HG_DOM_CFG]; omega)
      (by simp only [HG_EPOCH_META, HG_DOM_CFG]; omega)
    exact (is_congr (f := HG_DOM_CFG_EN d) cfg).trans ((is_domCfgSet s d v).trans hv)
  · have stat := reg_hgDomOff (s.domCfgSet d v) d (o := HG_DOM_STAT d) (by simp only [HG_EPOCH_META, HG_DOM_STAT]; omega)
    exact (is_congr (f := HG_DOM_STAT_SLEWING d) stat).trans (slewing_domHalt _ _)
  · rw [kept (by simp only [HG_DOM_STAT, HG_DOM_STEP]; omega) (by simp only [HG_EPOCH_META, HG_DOM_STEP]; omega)]
    exact reg_setReg_ne _ _ (by simp only [HG_DOM_CFG, HG_DOM_STEP]; omega)

/-! ### HG_ACTIVE (R67) -/

theorem exec_hgActiveWrite {iid : Iid} {s : State} (v : Word) (hw : s.writeOk iid HG_ACTIVE = true) :
    exec (.hgActiveWrite iid v) s = s.done (s.ownerOnly iid fun s => s.hgActive iid.toNat (v.toNat % 2)) := by
  show s.done (s.writeWith iid HG_ACTIVE fun s => s.ownerOnly iid fun s => s.hgActive iid.toNat (v.toNat % 2)) = _
  rw [writeWith_ok hw]

/-- A switch to domain `a` waits (R67). -/
def State.pendSwitch (s : State) (a : Bool) : State := { s with hg := { s.hg with pendAct := some a } }

theorem hgActive_disabled {s : State} {d : Nat} (i : Nat) (he : s.is (HG_DOM_CFG_EN d) = false) :
    s.hgActive i d = s.report 0x100C i := by
  simp [State.hgActive, he]

theorem hgActive_waits {s : State} {d : Nat} (i : Nat) (he : s.is (HG_DOM_CFG_EN d) = true) (ha : s.is HG_TURN_CTL_ACTIVE = true) :
    s.hgActive i d = (s.pendSwitch (d != 0)).putB HG_ACTIVE_PENDING true := by
  simp [State.hgActive, he, State.active, ha, State.pendSwitch]

theorem hgActive_atOnce {s : State} {d : Nat} (i : Nat) (he : s.is (HG_DOM_CFG_EN d) = true) (ha : s.is HG_TURN_CTL_ACTIVE = false) :
    s.hgActive i d = (s.pendSwitch (d != 0)).hgApplyPending.publishEpoch := by
  simp [State.hgActive, he, State.active, ha, State.pendSwitch]

/-- The switch takes effect: the domain is selected, nothing waits, and the letter follows its EN (R67, R68). -/
theorem hgApplyPending_pendSwitch (s : State) (a : Bool) : ∃ l : Bool, (s.pendSwitch a).hgApplyPending =
    State.putB { s.putB HG_ACTIVE_PENDING false with hg := { s.hg with act := a, pendAct := none, pendLetter := false, letter := l } }
      HG_ACTIVE_DOM a := ⟨_, rfl⟩

theorem bit0_of_mod (v : Word) : (v.toNat % 2 != 0) = v.getLsbD 0 := by
  rw [BitVec.getLsbD, Nat.testBit_zero]
  rcases Nat.mod_two_eq_zero_or_one v.toNat with h | h <;> simp [h]

theorem hgActiveWrite_selects {iid : Iid} {v : Word} {s : State} (hw : s.writeOk iid HG_ACTIVE = true)
    (ho : iid.toNat = s.get HG_OWNER_IID) (he : s.is (HG_DOM_CFG_EN (v.toNat % 2)) = true) (ha : s.is HG_TURN_CTL_ACTIVE = false) :
    Completes (.hgActiveWrite iid v) s fun t =>
      t.hg.act = v.getLsbD 0 ∧ t.hg.pendAct = none ∧ t.is HG_ACTIVE_PENDING = false ∧ t.is HG_ACTIVE_DOM = v.getLsbD 0 ∧
      t.dom 0 = s.dom 0 ∧ t.dom 1 = s.dom 1 := by
  have h := exec_hgActiveWrite v hw
  rw [ownerOnly_owner ho, hgActive_atOnce _ he ha, bit0_of_mod] at h
  obtain ⟨l, switched⟩ := hgApplyPending_pendSwitch s (v.getLsbD 0)
  rw [switched] at h
  have same {f : Fld} (hf : f.off = HG_ACTIVE) (u : State) : u.publishEpoch.is f = u.is f :=
    is_congr (reg_publishEpoch _ (by rw [hf]; decide))
  have frame := onlyHourglass_publishEpoch (State.putB { s.putB HG_ACTIVE_PENDING false with
    hg := { s.hg with act := v.getLsbD 0, pendAct := none, pendLetter := false, letter := l } } HG_ACTIVE_DOM (v.getLsbD 0))
  refine completes_of_kept h frame.pending frame.boot ⟨?_, ?_, ?_, ?_, dom_of_hg (hg_publishEpoch _) 0, dom_of_hg (hg_publishEpoch _) 1⟩
  · rw [hg_publishEpoch]; rfl
  · rw [hg_publishEpoch]; rfl
  · rw [same rfl, is_putB_ne _ _ _ _ (by decide) (by decide)]
    exact is_putB s HG_ACTIVE_PENDING false (by decide) rfl
  · rw [same rfl, is_putB _ _ _ (by decide) rfl]

theorem hgActiveWrite_waits {iid : Iid} {v : Word} {s : State} (hw : s.writeOk iid HG_ACTIVE = true)
    (ho : iid.toNat = s.get HG_OWNER_IID) (he : s.is (HG_DOM_CFG_EN (v.toNat % 2)) = true) (ha : s.is HG_TURN_CTL_ACTIVE = true) :
    Completes (.hgActiveWrite iid v) s fun t =>
      t.hg = { s.hg with pendAct := some (v.getLsbD 0) } ∧ t.is HG_ACTIVE_PENDING = true ∧ RegsKept [HG_ACTIVE] s t := by
  have h := exec_hgActiveWrite v hw
  rw [ownerOnly_owner ho, hgActive_waits _ he ha, bit0_of_mod] at h
  exact completes_of_kept h rfl rfl ⟨rfl, is_putB _ _ _ (by decide) rfl,
    fun o ho => reg_putB_ne (s.pendSwitch _) _ fun e => ho (List.mem_singleton.2 e.symm)⟩

theorem completes_report {i : Instr} {s : State} (c : Nat) {iid : Iid} (h : exec i s = s.done (s.report c iid.toNat)) :
    Completes i s fun t => OnlyRegs s t ∧ t.reg GLB_FAULT_LAST = BitVec.ofNat 32 (c + iid.toNat * 0x10000) ∧
      RegsKept [GLB_FAULT_FIRST, GLB_FAULT_LAST, GLB_FAULT_COUNT] s t :=
  completes_of_onlyRegs h (onlyRegs_report _ _ _) ⟨onlyRegs_report _ _ _, report_last_iid _ _ _, regsKept_report _ _ _⟩

/-- Settles O22: a write to HG_DOM_CFG is its bits and what EN's change brings; a write to HG_ACTIVE waits for a turn start only
while turns are armed or running. -/
theorem domainsEnableAndSelect : Obligations.DomainsEnableAndSelect := by
  unfold Obligations.DomainsEnableAndSelect
  refine ⟨fun iid d v s hw ho hm => ⟨domainEnable_enables hw ho hm, domainDisable_disables hw ho hm⟩,
    fun iid v s hw ho => ⟨hgActiveWrite_selects hw ho, hgActiveWrite_waits hw ho, fun he => ?_⟩, fun iid v s hw ho => ?_⟩
  · have h := exec_hgActiveWrite v hw
    rw [ownerOnly_owner ho, hgActive_disabled _ he] at h
    exact completes_report _ h
  · have h := exec_hgActiveWrite v hw
    rw [ownerOnly_other ho] at h
    exact completes_report _ h

/-! ### A step (log entry 6) -/

/-- Settles O1: on an empty queue the step is an idle cycle, and `done` keeps the queue. -/
theorem stepRunsFrontCommand : Obligations.StepRunsFrontCommand := by
  unfold Obligations.StepRunsFrontCommand
  refine ⟨fun c r s => rfl, fun s hs => ?_⟩
  have idle : step s = s.done s.idle := by rw [step, hs]
  exact ⟨_, idle.trans (done_next s s.idle), hs⟩

end Sys2Proof.Machine
end

section
/-! Reads that take a head off a queue or capture an instant (O18, O27). -/

namespace Sys2Proof.Machine

open Reg

/-! ### The effect of an admitted read (R33) -/

/-- The state after an admitted read: the register's value goes out, and what the read latches is captured. -/
def State.readOut (s : State) (iid : Iid) (off : Nat) : State :=
  (s.emit (.readData iid off ((s.view off).zeroExtend 64))).latchAll iid.toNat (latchList off)

@[simp] theorem readOut_pending (s : State) (iid : Iid) (off : Nat) : (s.readOut iid off).pending = s.pending := by
  rw [State.readOut, latchAll_eq]; rfl

@[simp] theorem readOut_boot (s : State) (iid : Iid) (off : Nat) : (s.readOut iid off).boot = s.boot := by
  rw [State.readOut, latchAll_eq]; rfl

@[simp] theorem readOut_hg (s : State) (iid : Iid) (off : Nat) : (s.readOut iid off).hg = s.hg := by
  rw [State.readOut, latchAll_eq]; rfl

theorem readOut_outbox (s : State) (iid : Iid) (off : Nat) :
    (s.readOut iid off).outbox = .readData iid off ((s.view off).zeroExtend 64) :: s.outbox := by
  rw [State.readOut, latchAll_eq]; rfl

theorem readOut_latch (s : State) (iid : Iid) {off o : Nat} (h : o ∈ latchList off) :
    spGet (fun _ => none) (s.readOut iid off).latch (State.latchKey o iid.toNat) = some (s.view o) := by
  rw [State.readOut, latch_latchAll, if_pos h, view_emit]

/-- So a register reads that clears nothing, is not latched itself and has no WO field. -/
theorem readReg_eq_readOut {off : Nat} {r : RegRow} (hr : regRow off = some r) (hc : r.rc = 0) (hw : r.wo = 0)
    (hl : isLatched off = false) (iid : Iid) (s : State) : s.readReg iid.toNat off = s.readOut iid off := by
  rw [State.readReg, clearRc_none hr hc, readVal_view hl hr hw, BitVec.ofNat_toNat, BitVec.setWidth_eq, State.readOut]

/-- A number's low 32 bits, in 64. -/
theorem ofNat_zeroExtend (n : Nat) : (BitVec.ofNat 32 n).zeroExtend 64 = BitVec.ofNat 64 (n % 2 ^ 32) := by
  apply BitVec.eq_of_toNat_eq
  simp only [BitVec.truncate_eq_setWidth, BitVec.toNat_setWidth, BitVec.toNat_ofNat]

/-- The three registers of Device Time show one count: its whole nanoseconds in two words, and the fraction (R41, R57). -/
theorem view_deviceTime (s : State) : s.view HG_DT_LO = BitVec.ofNat 32 (s.hg.dt / 2 ^ 8) ∧
    s.view HG_DT_HI = BitVec.ofNat 32 (s.hg.dt / 2 ^ 40) ∧ s.view HG_DT_FRAC = BitVec.ofNat 32 (s.hg.dt % 2 ^ 8) :=
  ⟨rfl, congrArg (BitVec.ofNat 32) (Nat.div_div_eq_div_mul s.hg.dt (2 ^ 8) (2 ^ 32)), rfl⟩

/-- Settles O18: the read latches, and the three registers that it touches show parts of one count. -/
theorem deviceTimeReadIsOneInstant : Obligations.DeviceTimeReadIsOneInstant := by
  unfold Obligations.DeviceTimeReadIsOneInstant
  intro iid s hok
  obtain ⟨t, done, out, latched, kept⟩ := readWith_latches (c := .deviceTimeRead iid) rfl hok
    (r := { base := 0x100008, half := some false }) rfl rfl rfl rfl
  obtain ⟨low, high, frac⟩ := view_deviceTime s
  rw [low, ofNat_zeroExtend] at out
  exact ⟨t, done, out, (latched _ (by decide)).trans (congrArg some high), (latched _ (by decide)).trans (congrArg some frac), kept⟩

/-! ### A capture edge (R84, R662) -/

/-- `t` differs from `s` in registers and in the power state alone. -/
def OnlyPower (s t : State) : Prop := t = { s with regs := t.regs, pwr := t.pwr }

theorem OnlyPower.trans {s t u : State} (h : OnlyPower s t) (k : OnlyPower t u) : OnlyPower s u := by
  unfold OnlyPower at *
  rw [k, h]

theorem OnlyPower.hg {s t : State} (h : OnlyPower s t) : t.hg = s.hg := (congrArg State.hg h :)
theorem OnlyPower.pending {s t : State} (h : OnlyPower s t) : t.pending = s.pending := (congrArg State.pending h :)
theorem OnlyPower.boot {s t : State} (h : OnlyPower s t) : t.boot = s.boot := (congrArg State.boot h :)

theorem onlyPower_pendWake (s : State) (b : Nat) : OnlyPower s (s.pendWake b) := by
  unfold State.pendWake
  split <;> rfl

theorem onlyPower_assertWake (s : State) (b : Nat) : OnlyPower s (s.assertWake b) := by
  unfold State.assertWake
  dsimp only
  split <;> rfl

/-- An exit that begins moves the power state and enables rails; otherwise nothing happens (R655, R658). -/
theorem beginExit_cases (s : State) : s.beginExit = s ∨
    ∃ (x : Pwr) (v : Nat), s.beginExit = (State.putB { s with pwr := x } MC_PWR_STAT_MOVING true).put MC_RAIL_STAT_EN v := by
  unfold State.beginExit
  split
  · exact .inl rfl
  · split
    · exact .inr ⟨_, _, rfl⟩
    · split
      · exact .inl rfl
      · exact .inr ⟨_, _, rfl⟩

theorem onlyPower_beginExit (s : State) : OnlyPower s s.beginExit := by
  obtain same | ⟨x, v, exits⟩ := beginExit_cases s
  · rw [same]
    rfl
  · rw [exits]
    rfl

/-- A wake reason concerns the power state alone. -/
theorem onlyPower_recordWake (s : State) (b : Nat) : OnlyPower s (s.recordWake b) := by
  unfold State.recordWake
  split
  · exact ((onlyPower_pendWake _ _).trans (onlyPower_assertWake _ _)).trans (onlyPower_beginExit _)
  · rfl

/-- Below the MC's block no register changes by a wake reason. -/
theorem reg_recordWake (s : State) (b : Nat) {o : Nat} (h : o < 0xF00000) : (s.recordWake b).reg o = s.reg o := by
  have ne {q : Nat} (hq : 0xF00000 ≤ q) : q ≠ o := by omega
  have pend (t : State) : (t.pendWake b).reg o = t.reg o := by
    unfold State.pendWake
    split
    · exact reg_put_ne _ _ (ne (by decide))
    · exact reg_setReg_ne _ _ (ne (by decide))
  have wake (t : State) : (t.assertWake b).reg o = t.reg o := by
    unfold State.assertWake
    dsimp only
    split <;> rfl
  have exits (t : State) : t.beginExit.reg o = t.reg o := by
    obtain same | ⟨x, v, exits⟩ := beginExit_cases t
    · rw [same]
    · rw [exits]
      exact (reg_put_ne _ _ (ne (by decide))).trans (reg_putB_ne _ _ (ne (by decide)))
  unfold State.recordWake
  split
  · rw [exits, wake, pend]
  · rfl

/-- The capture entries that wait on input n. -/
def State.capQueue (s : State) (n : Nat) : List CapEntry := spGet (fun _ => []) s.hg.caps n

/-- What an edge of this instant enters on input n: the instant, and the time and step count of the input's domain (R84). -/
def State.capEntry (s : State) (n : Nat) : CapEntry :=
  ⟨s.hg.dt / 256, s.netTime (s.get (HG_CAP_CFG_DOM n)), (s.reg (HG_DOM_STEP (s.get (HG_CAP_CFG_DOM n)))).toNat⟩

/-- The entries that wait on input n become `q`. -/
def State.setCapQueue (s : State) (n : Nat) (q : List CapEntry) : State :=
  { s with hg := { s.hg with caps := spPut (fun _ => []) s.hg.caps n q } }

@[simp] theorem capQueue_setCapQueue (s : State) (n : Nat) (q : List CapEntry) : (s.setCapQueue n q).capQueue n = q :=
  spGet_spPut_same _ _ _

theorem capQueue_of_hg {s t : State} (h : t.hg = s.hg) (n : Nat) : t.capQueue n = s.capQueue n := by simp only [State.capQueue, h]

/-- Input n selects this edge (R84). -/
def State.capSelects (s : State) (n : Nat) (rising : Bool) : Prop :=
  s.get (HG_CAP_CFG_EDGE n) = 2 ∨ (s.get (HG_CAP_CFG_EDGE n) = 0 ∧ rising = true) ∨ (s.get (HG_CAP_CFG_EDGE n) = 1 ∧ rising = false)

theorem capSelects_bool {s : State} {n : Nat} {rising : Bool} (h : s.capSelects n rising) :
    (s.get (HG_CAP_CFG_EDGE n) == 2 || (s.get (HG_CAP_CFG_EDGE n) == 0) == rising) = true := by
  rcases h with h | ⟨h, rfl⟩ | ⟨h, rfl⟩ <;> rw [h] <;> rfl

/-- An accepted edge enters the FIFO, or at a full one is dropped; it is a wake reason either way. -/
theorem capture_accepted {s : State} {n : Nat} {rising : Bool} {pulse : Nat} (he : s.is (HG_CAP_CFG_EN n) = true)
    (hf : s.get (HG_CAP_CFG_FILT n) ≤ pulse) (hs : s.capSelects n rising) : s.capture n rising pulse =
      (if 4 ≤ (s.capQueue n).length then (s.putB (HG_CAP_STAT_OVF n) true).report 0x1006 hgIid
        else s.setCapQueue n (s.capQueue n ++ [s.capEntry n])).recordWake 5 := by
  have sel := capSelects_bool hs
  have long : decide (pulse < s.get (HG_CAP_CFG_FILT n)) = false := by simpa using hf
  have wakes : (s.is (HG_CAP_CFG_EN n) && decide (s.get (HG_CAP_CFG_FILT n) ≤ pulse) &&
      (s.get (HG_CAP_CFG_EDGE n) == 2 || (s.get (HG_CAP_CFG_EDGE n) == 0) == rising)) = true := by
    rw [he, sel, decide_eq_true hf]
    rfl
  have drops : (!s.is (HG_CAP_CFG_EN n) || decide (pulse < s.get (HG_CAP_CFG_FILT n)) ||
      !(s.get (HG_CAP_CFG_EDGE n) == 2 || (s.get (HG_CAP_CFG_EDGE n) == 0) == rising)) = false := by
    rw [he, sel, long]
    rfl
  have entry : s.capEntry n =
      ⟨s.now, s.netTime (s.get (HG_CAP_CFG_DOM n)), s.get (whole (HG_DOM_STEP (s.get (HG_CAP_CFG_DOM n))))⟩ := by
    rw [get_whole]
    rfl
  simp only [State.capture, State.hgCapture, wakes, drops, if_true, Bool.false_eq_true, if_false, entry]
  rfl

theorem captureEdge_enters {s : State} {n : Fin 8} {rising : Bool} {pulse : Nat} (he : s.is (HG_CAP_CFG_EN n) = true)
    (hf : s.get (HG_CAP_CFG_FILT n) ≤ pulse) (hs : s.capSelects n rising) (hq : (s.capQueue n).length < 4) :
    Completes (.captureEdge n rising pulse) s fun t => t.capQueue n = s.capQueue n ++ [s.capEntry n] ∧ t.hg.dt = s.hg.dt := by
  have enters := capture_accepted he hf hs
  rw [if_neg (Nat.not_le.2 hq)] at enters
  have wake := onlyPower_recordWake (s.setCapQueue n (s.capQueue n ++ [s.capEntry n])) 5
  refine completes_of_kept (congrArg s.done enters) wake.pending wake.boot ⟨?_, (congrArg Hg.dt wake.hg :)⟩
  rw [capQueue_of_hg wake.hg]
  exact capQueue_setCapQueue _ _ _

theorem captureEdge_overflows {s : State} {n : Fin 8} {rising : Bool} {pulse : Nat} (he : s.is (HG_CAP_CFG_EN n) = true)
    (hf : s.get (HG_CAP_CFG_FILT n) ≤ pulse) (hs : s.capSelects n rising) (hq : 4 ≤ (s.capQueue n).length) :
    Completes (.captureEdge n rising pulse) s fun t =>
      t.hg = s.hg ∧ t.is (HG_CAP_STAT_OVF n) = true ∧ t.reg GLB_FAULT_LAST = 0x91006 := by
  have drops := capture_accepted he hf hs
  rw [if_pos hq] at drops
  have regs : OnlyRegs s ((s.putB (HG_CAP_STAT_OVF n) true).report 0x1006 hgIid) := (onlyRegs_setReg _ _ _).report _ _
  have wake := onlyPower_recordWake ((s.putB (HG_CAP_STAT_OVF n) true).report 0x1006 hgIid) 5
  have block : HG_CAP_STAT n < 0xF00000 ∧ 0x1C < HG_CAP_STAT n := by simp only [HG_CAP_STAT]; omega
  refine completes_of_kept (congrArg s.done drops) (wake.pending.trans regs.pending) (wake.boot.trans regs.boot)
    ⟨wake.hg.trans regs.hg, ?_, ?_⟩
  · have kept := (reg_recordWake ((s.putB (HG_CAP_STAT_OVF n) true).report 0x1006 hgIid) 5 block.1).trans
      (report_reg_ne _ _ _ _ (by simp only [GLB_FAULT_FIRST]; omega) (by simp only [GLB_FAULT_LAST]; omega)
        (by simp only [GLB_FAULT_COUNT]; omega))
    rw [is_congr (f := HG_CAP_STAT_OVF n) kept, is_putB _ _ _ (by simp [HG_CAP_STAT_OVF]) rfl]
  · rw [reg_recordWake _ _ (by decide), report_last]
    rfl

/-! ### CAPTURE_POP (R85) -/

/-- A read of HG_CAP_DT_LO[n] returns the head's instant and latches the rest of the entry. -/
theorem capDtLo_read (n : Fin 8) : regRow (HG_CAP_DT_LO n) = some { base := 0x100708, dims := [(8, 0x20)], half := some false } ∧
    isLatched (HG_CAP_DT_LO n) = false ∧ HG_CAP_NT_NS n ∈ latchList (HG_CAP_DT_LO n) := by
  revert n
  decide

theorem view_capture (s : State) (n : Fin 8) :
    s.view (HG_CAP_DT_LO n) = BitVec.ofNat 32 (((s.capQueue n).head?.map CapEntry.dt).getD 0) ∧
    s.view (HG_CAP_NT_NS n) = BitVec.ofNat 32 (((s.capQueue n).head?.map CapEntry.nt).getD 0 % 1000000000) := by
  fin_cases n <;> exact ⟨rfl, rfl⟩

theorem hgCapPop_cons {s : State} {n : Nat} {e : CapEntry} {r : List CapEntry} (h : s.capQueue n = e :: r) :
    s.hgCapPop n = (s.setCapQueue n r).putB (HG_CAP_STAT_POPPED n) true := by
  unfold State.hgCapPop
  rw [show spGet (fun _ => []) s.hg.caps n = e :: r from h]
  rfl

theorem hgCapPop_nil {s : State} {n : Nat} (h : s.capQueue n = []) : s.hgCapPop n = s.putB (HG_CAP_STAT_POPPED n) false := by
  unfold State.hgCapPop
  rw [show spGet (fun _ => []) s.hg.caps n = [] from h]

theorem exec_capturePop {iid : Iid} {n : Fin 8} {s : State} (h : s.readOk iid (HG_CAP_DT_LO n) = true) :
    exec (.capturePop iid n) s = s.done ((s.readOut iid (HG_CAP_DT_LO n)).hgCapPop n) := by
  obtain ⟨row, notLatched, -⟩ := capDtLo_read n
  show s.done (s.readWith iid (HG_CAP_DT_LO n) fun s => s.hgCapPop n) = _
  rw [readWith_ok h, readReg_eq_readOut row rfl rfl notLatched]

theorem capturePop_pops {iid : Iid} {n : Fin 8} {s : State} (hok : s.readOk iid (HG_CAP_DT_LO n) = true) {e : CapEntry}
    {r : List CapEntry} (hq : s.capQueue n = e :: r) : Completes (.capturePop iid n) s fun t =>
      t.outbox = .readData iid (HG_CAP_DT_LO n) (BitVec.ofNat 64 (e.dt % 2 ^ 32)) :: s.outbox ∧ t.capQueue n = r ∧
      t.is (HG_CAP_STAT_POPPED n) = true ∧
      spGet (fun _ => none) t.latch (State.latchKey (HG_CAP_NT_NS n) iid.toNat) = some (BitVec.ofNat 32 (e.nt % 1000000000)) := by
  have pops := hgCapPop_cons ((capQueue_of_hg (readOut_hg s iid (HG_CAP_DT_LO n)) n).trans hq)
  obtain ⟨-, -, latched⟩ := capDtLo_read n
  obtain ⟨dt, nt⟩ := view_capture s n
  rw [hq] at dt nt
  refine completes_of_kept ((exec_capturePop hok).trans (congrArg s.done pops)) (readOut_pending _ _ _) (readOut_boot _ _ _)
    ⟨?_, ?_, is_putB _ _ _ (by simp [HG_CAP_STAT_POPPED]) rfl, ?_⟩
  · refine (readOut_outbox s iid (HG_CAP_DT_LO n)).trans ?_
    rw [dt, ofNat_zeroExtend]
    rfl
  · exact capQueue_setCapQueue _ _ _
  · refine (readOut_latch s iid latched).trans ?_
    rw [nt]
    rfl

theorem capturePop_empty {iid : Iid} {n : Fin 8} {s : State} (hok : s.readOk iid (HG_CAP_DT_LO n) = true)
    (hq : s.capQueue n = []) : Completes (.capturePop iid n) s fun t =>
      t.outbox = .readData iid (HG_CAP_DT_LO n) 0 :: s.outbox ∧ t.hg = s.hg ∧ t.is (HG_CAP_STAT_POPPED n) = false := by
  have pops := hgCapPop_nil ((capQueue_of_hg (readOut_hg s iid (HG_CAP_DT_LO n)) n).trans hq)
  obtain ⟨dt, -⟩ := view_capture s n
  rw [hq] at dt
  refine completes_of_kept ((exec_capturePop hok).trans (congrArg s.done pops)) (readOut_pending _ _ _) (readOut_boot _ _ _)
    ⟨?_, readOut_hg _ _ _, is_putB _ _ _ (by simp [HG_CAP_STAT_POPPED]) rfl⟩
  refine (readOut_outbox s iid (HG_CAP_DT_LO n)).trans ?_
  rw [dt]
  rfl

/-! ### TS_FIFO_POP (R70, R87) -/

/-- The META register of the receive or the transmit FIFO. -/
def tsMeta (rx : Bool) : Nat := if rx then HG_TSRX_META else HG_TSTX_META

/-- The receive or the transmit FIFO. -/
def State.tsQueue (s : State) (rx : Bool) : List TsEntry := if rx then s.hg.tsRx else s.hg.tsTx

/-- What META shows of an entry: sequenceId, messageType, domain and VALID (R87). -/
def TsEntry.word (e : TsEntry) : Nat := e.seqId.toNat + e.msgType.toNat * 2 ^ 16 + (if e.dom then 2 ^ 20 else 0) + 2 ^ 21

theorem TsEntry.word_lt (e : TsEntry) : e.word < 2 ^ 32 := by
  have seq := e.seqId.isLt
  have type := e.msgType.isLt
  unfold TsEntry.word
  split <;> omega

theorem tsMeta_read (rx : Bool) : regRow (tsMeta rx) = some { base := tsMeta rx } ∧ isLatched (tsMeta rx) = false := by
  cases rx <;> exact ⟨rfl, rfl⟩

theorem view_tsMeta (s : State) (rx : Bool) :
    s.view (tsMeta rx) = BitVec.ofNat 32 (((s.tsQueue rx).head?.map TsEntry.word).getD 0) := by
  cases rx <;> rfl

/-- The pop takes the head off one FIFO and leaves the other. -/
theorem tsQueue_hgTsPop (s : State) (rx : Bool) :
    (s.hgTsPop rx).tsQueue rx = (s.tsQueue rx).tail ∧ (s.hgTsPop rx).tsQueue (!rx) = s.tsQueue (!rx) := by
  cases rx <;> exact ⟨rfl, rfl⟩

theorem hgTsPop_eq (s : State) (rx : Bool) : s.hgTsPop rx = { s with hg := (s.hgTsPop rx).hg } := by
  cases rx <;> rfl

theorem tsQueue_of_hg {s t : State} (h : t.hg = s.hg) (rx : Bool) : t.tsQueue rx = s.tsQueue rx := by
  simp only [State.tsQueue, h]

theorem exec_tsFifoPop {iid : Iid} {rx : Bool} {s : State} (h : s.readOk iid (tsMeta rx) = true) :
    exec (.tsFifoPop iid rx) s = s.done (if iid.toNat = s.get HG_OWNER_IID then (s.readReg iid.toNat (tsMeta rx)).hgTsPop rx
      else s.emit (.readData iid (tsMeta rx) 0)) := by
  show s.done (match s.regCheck iid.toNat (tsMeta rx) 4 false with
    | some c => s.refuseRead c iid.toNat (tsMeta rx)
    | none => if iid.toNat = s.get HG_OWNER_IID then (s.readReg iid.toNat (tsMeta rx)).hgTsPop rx
        else s.emit (.readData iid (tsMeta rx) 0)) = _
  rw [regCheck_of_readOk h]

theorem tsFifoPop_owner {iid : Iid} {rx : Bool} {s : State} {e : TsEntry} {r : List TsEntry}
    (hok : s.readOk iid (tsMeta rx) = true) (hq : s.tsQueue rx = e :: r) (ho : iid.toNat = s.get HG_OWNER_IID) :
    Completes (.tsFifoPop iid rx) s fun t => t.tsQueue rx = r ∧ t.tsQueue (!rx) = s.tsQueue (!rx) ∧
      t.outbox = .readData iid (tsMeta rx) (BitVec.ofNat 64 e.word) :: s.outbox := by
  obtain ⟨row, notLatched⟩ := tsMeta_read rx
  have pops := exec_tsFifoPop hok
  rw [if_pos ho, readReg_eq_readOut row rfl rfl notLatched] at pops
  have only := hgTsPop_eq (s.readOut iid (tsMeta rx)) rx
  obtain ⟨taken, other⟩ := tsQueue_hgTsPop (s.readOut iid (tsMeta rx)) rx
  have queue (b : Bool) := tsQueue_of_hg (readOut_hg s iid (tsMeta rx)) b
  refine completes_of_kept pops ?_ ?_ ⟨?_, other.trans (queue _), ?_⟩
  · rw [only]
    exact readOut_pending _ _ _
  · rw [only]
    exact readOut_boot _ _ _
  · rw [taken, queue, hq, List.tail_cons]
  · rw [only]
    refine (readOut_outbox _ _ _).trans ?_
    rw [view_tsMeta, hq]
    exact congrArg (Out.readData iid (tsMeta rx) · :: s.outbox) (zeroExtend_ofNat e.word_lt)

theorem tsFifoPop_other {iid : Iid} {rx : Bool} {s : State} (hok : s.readOk iid (tsMeta rx) = true)
    (ho : iid.toNat ≠ s.get HG_OWNER_IID) :
    Completes (.tsFifoPop iid rx) s fun t => t = s.emit (.readData iid (tsMeta rx) 0) := by
  have ignored := exec_tsFifoPop hok
  rw [if_neg ho] at ignored
  exact completes_of_kept ignored rfl rfl rfl

/-- Settles O27: each FIFO takes its entries last and gives them first, and a full or an empty one is left as it is. -/
theorem capturesAndTimestamps : Obligations.CapturesAndTimestamps := by
  unfold Obligations.CapturesAndTimestamps
  refine ⟨?_, fun iid n s hok => ⟨fun e r hq => capturePop_pops hok hq, fun hq => capturePop_empty hok hq⟩, ?_⟩
  · rintro n rising pulse q s he hf hs rfl
    exact ⟨captureEdge_enters he hf hs, captureEdge_overflows he hf hs⟩
  · refine fun iid rx e r s hok hq => ⟨fun ho => ?_, tsFifoPop_other hok⟩
    obtain ⟨t, done, popped, other, out⟩ := tsFifoPop_owner hok hq ho
    exact ⟨t, done, popped, by cases rx <;> exact other, by rw [out]; rfl⟩

end Sys2Proof.Machine
end

section
/-! Device Time starts, the reference returns, and the backup counter (O20, O28). -/

namespace Sys2Proof.Machine

open Reg

/-- A write of one register keeps the others. -/
theorem regsKept_setReg (s : State) (o : Nat) (v : Word) : RegsKept [o] s (s.setReg o v) :=
  fun _ h => reg_setReg_ne _ _ fun e => h (List.mem_singleton.2 e.symm)

theorem regsKept_put (s : State) {f : Fld} {o : Nat} (v : Nat) (h : f.off = o) : RegsKept [o] s (s.put f v) :=
  h ▸ regsKept_setReg _ _ _

theorem regsKept_putB (s : State) {f : Fld} {o : Nat} (b : Bool) (h : f.off = o) : RegsKept [o] s (s.putB f b) := regsKept_put s _ h

theorem RegsKept.trans {l : List Nat} {s t u : State} (h : RegsKept l s t) (k : RegsKept l t u) : RegsKept l s u :=
  fun o ho => (k o ho).trans (h o ho)

/-! ### Device Time and its reference (R56, R58) -/

/-- The PLL has locked and the reference is good. -/
def State.lockRegs (s : State) : State := (s.putB HG_STATUS_PLL_LOCK true).putB HG_STATUS_REF_OK true

theorem onlyRegs_lockRegs (s : State) : OnlyRegs s s.lockRegs := ((OnlyRegs.refl s).putB _ _).putB _ _

theorem lockRegs_status (s : State) : s.lockRegs.is HG_STATUS_PLL_LOCK = true ∧ s.lockRegs.is HG_STATUS_REF_OK = true ∧
    s.lockRegs.is HG_STATUS_HOLDOVER = s.is HG_STATUS_HOLDOVER := by
  unfold State.lockRegs
  refine ⟨?_, is_putB _ _ _ (by decide) rfl, ?_⟩
  · rw [is_putB_ne _ _ _ _ (by decide) (by decide), is_putB _ _ _ (by decide) rfl]
  · rw [is_putB_ne _ _ _ _ (by decide) (by decide), is_putB_ne _ _ _ _ (by decide) (by decide)]

theorem regsKept_lockRegs (s : State) : RegsKept [HG_STATUS] s s.lockRegs :=
  (regsKept_putB (o := HG_STATUS) s _ rfl).trans (regsKept_putB _ _ rfl)

theorem hgStart_stopped {s : State} (h : s.hg.running = false) :
    s.hgStart = State.lockRegs { s with hg := { s.hg with running := true, dt := 0 } } := by
  rw [State.hgStart, h]
  rfl

theorem hgStart_running {s : State} (h : s.hg.running = true) : s.hgStart = s := if_pos h

/-- Settles O20: the start and the return are HG_STATUS and, at the start alone, Device Time. -/
theorem deviceTimeAndReference : Obligations.DeviceTimeAndReference := by
  unfold Obligations.DeviceTimeAndReference
  refine ⟨fun s hs => ?_, fun s hs => ?_, fun s => ?_⟩
  · obtain ⟨pll, ref, -⟩ := lockRegs_status { s with hg := { s.hg with running := true, dt := 0 } }
    exact completes_of_kept (congrArg s.done (hgStart_stopped hs)) rfl rfl
      ⟨rfl, pll, ref, regsKept_lockRegs { s with hg := { s.hg with running := true, dt := 0 } }⟩
  · exact (congrArg s.done (hgStart_running hs)).trans (done_self s)
  · obtain ⟨pll, ref, holdover⟩ := lockRegs_status (s.putB HG_STATUS_HOLDOVER false)
    have only : OnlyRegs s (s.putB HG_STATUS_HOLDOVER false).lockRegs := (onlyRegs_setReg _ _ _).trans (onlyRegs_lockRegs _)
    refine completes_of_onlyRegs (t := (s.putB HG_STATUS_HOLDOVER false).lockRegs) rfl only
      ⟨only, ?_, pll, ref, (regsKept_putB (o := HG_STATUS) s false rfl).trans (regsKept_lockRegs _)⟩
    rw [holdover, is_putB _ _ _ (by decide) rfl]

/-! ### The backup counter (R90, R91, R619, R700) -/

theorem exec_backupLoad {iid : Iid} {s : State} (h : s.writeOk iid HG_BK_CTL = true) :
    exec (.backupLoad iid) s = s.done (if iid = 9 then s.hgBkLoad else s.report 0x100D iid.toNat) := by
  show s.done (s.writeWith iid HG_BK_CTL fun s => s.backupOnly iid State.hgBkLoad) = _
  rw [writeWith_ok h]
  rfl

theorem backupLoad_loads {iid : Iid} {s : State} (h : s.writeOk iid HG_BK_CTL = true) : Completes (.backupLoad iid) s fun t =>
    if iid = 9 then t = { s with hg := { s.hg with bkSec := s.reg HG_BK_SET_SEC, bkSub := 0, bkAcc := 0 } }
    else OnlyRegs s t ∧ t.reg GLB_FAULT_LAST = BitVec.ofNat 32 (0x100D + iid.toNat * 0x10000) := by
  have load := exec_backupLoad h
  by_cases hi : iid = 9
  · rw [if_pos hi] at load
    exact completes_of_kept load rfl rfl (((if_pos hi).mpr rfl))
  · rw [if_neg hi] at load
    obtain ⟨t, done, only, last, -⟩ := completes_report 0x100D load
    exact ⟨t, done, (if_neg hi).mpr ⟨only, last⟩⟩

/-- The backup node's reset is its counter, HG_BK_STAT and RF_SAFE_CAUSE. -/
theorem backupPowerOn_resets (s : State) : Completes .backupPowerOn s fun t =>
    t.hg.bkSec = 0 ∧ t.hg.bkSub = 0 ∧ t.is HG_BK_STAT_LOST = true ∧ t.reg RF_SAFE_CAUSE = 0 ∧ t.hg.dt = s.hg.dt ∧
    RegsKept [HG_BK_STAT, RF_SAFE_CAUSE] s t := by
  have stat : s.backupOn.reg HG_BK_STAT = 1 := (reg_setReg_ne _ _ (by decide)).trans (reg_setReg_same _ _ _)
  refine completes_of_kept (t := s.backupOn) rfl rfl rfl ⟨rfl, rfl, ?_, reg_setReg_same _ _ _, rfl, fun o ho => ?_⟩
  · rw [State.is, State.get, show HG_BK_STAT_LOST.off = HG_BK_STAT from rfl, stat]
    rfl
  · obtain ⟨stat, cause⟩ : o ≠ HG_BK_STAT ∧ o ≠ RF_SAFE_CAUSE := by simpa using ho
    exact (reg_setReg_ne _ _ cause.symm).trans (reg_setReg_ne _ _ stat.symm)

/-- A bit of HG_BK_STAT other than LOST follows its event. -/
theorem backupStat_follows {c : Instr} {f : Fld} {b : Bool} {s : State} (h : exec c s = s.done (s.putB f b))
    (ho : f.off = HG_BK_STAT) (hw : f.w = 1) (h0 : 1 ≤ f.lo) (h32 : f.lo + f.w ≤ 32) :
    Completes c s fun t => OnlyRegs s t ∧ t.is f = b ∧ t.is HG_BK_STAT_LOST = s.is HG_BK_STAT_LOST ∧ RegsKept [HG_BK_STAT] s t :=
  completes_of_onlyRegs h (onlyRegs_setReg _ _ _)
    ⟨onlyRegs_setReg _ _ _, is_putB _ _ _ h32 hw, is_putB_ne _ _ _ _ h32 (.inr (.inr h0)), regsKept_putB s b ho⟩

/-- Settles O28: the load is the MC's alone, and the other three events touch the backup node's registers alone. -/
theorem backupCounter : Obligations.BackupCounter := by
  unfold Obligations.BackupCounter
  exact ⟨fun iid s => backupLoad_loads, backupPowerOn_resets, fun b s =>
    ⟨backupStat_follows rfl rfl rfl (by decide) (by decide), backupStat_follows rfl rfl rfl (by decide) (by decide)⟩⟩

end Sys2Proof.Machine
end

section
/-! The rate of a domain: its modes, its limit, samples, steps and slews (O23, O24). -/

namespace Sys2Proof.Machine

open Reg

/-! ### Signed words and clamping -/

theorem signed_toNat (v : Word) : signed 32 v.toNat = v.toInt := by
  have hv := v.isLt
  rw [signed, BitVec.toInt_eq_toNat_cond, Nat.mod_eq_of_lt hv]
  split <;> split <;> omega

theorem clampAbs_eq (l : Nat) (i : Int) : clampAbs l i = max (-(l : Int)) (min l i) := by
  unfold clampAbs
  split
  · omega
  · split <;> omega

theorem natAbs_clampAbs (l : Nat) (i : Int) : (clampAbs l i).natAbs ≤ l := by
  rw [clampAbs_eq]
  omega

theorem clampAbs_of_le {l : Nat} {i : Int} (h : i.natAbs ≤ l) : clampAbs l i = i := by
  rw [clampAbs_eq]
  omega

/-- A number that fits 32 bits reads back from its word. -/
theorem toInt_ofInt_of_natAbs {i : Int} (h : i.natAbs < 2 ^ 31) : (BitVec.ofInt 32 i).toInt = i := by
  rw [BitVec.toInt_ofInt, Int.bmod_eq_of_le] <;> omega

/-! ### A domain's registers -/

theorem adj_congr {s t : State} {d : Nat} (h : t.reg (HG_DOM_ADJ d) = s.reg (HG_DOM_ADJ d)) : t.adj d = s.adj d := by
  simp only [State.adj, h]

theorem adj_setReg (s : State) (d : Nat) (v : Word) : (s.setReg (HG_DOM_ADJ d) v).adj d = v.toInt := by
  rw [State.adj, reg_setReg_same, signed_toNat]

/-! ### An amortisation ends (R68, R71, R74) -/

theorem dom_endSlew (s : State) (d : Nat) : (s.endSlew d).dom d = { s.dom d with rem := 0 } :=
  (dom_of_hg rfl d).trans (dom_setDom s d _)

theorem reg_endSlew_ne (s : State) (d : Nat) {o : Nat} (h : HG_DOM_STAT d ≠ o) : (s.endSlew d).reg o = s.reg o :=
  (reg_putB_ne _ _ h).trans (reg_setDom s d _ o)

theorem slewing_endSlew (s : State) (d : Nat) : (s.endSlew d).is (HG_DOM_STAT_SLEWING d) = false :=
  is_putB _ _ _ (by simp [HG_DOM_STAT_SLEWING]) rfl

theorem onlyHourglass_endSlew (s : State) (d : Nat) : OnlyHourglass s (s.endSlew d) :=
  (onlyHourglass_setDom s d _).trans (onlyRegs_setReg _ _ _).onlyHourglass

/-! ### MODE (R74) -/

theorem mode_domCfgSet (s : State) (d : Nat) (v : Word) : (s.domCfgSet d v).is (HG_DOM_CFG_MODE d) = v.getLsbD 2 := by
  rw [HG_DOM_CFG_MODE, is_eq_getLsbD, State.domCfgSet, reg_setReg_same, getLsbD_placed _ _ _ (by decide)]
  rfl

theorem reg_domCfgSet_ne (s : State) (d : Nat) (v : Word) {o : Nat} (h : HG_DOM_CFG d ≠ o) : (s.domCfgSet d v).reg o = s.reg o :=
  reg_setReg_ne _ _ h

/-- Where EN stays, a write to HG_DOM_CFG is its bits and what a change of MODE brings. -/
theorem hgDomCfg_mode {s : State} {d : Fin 2} {v : Word} (he : v.getLsbD 0 = s.is (HG_DOM_CFG_EN d)) :
    s.hgDomCfg d v =
      if !s.is (HG_DOM_CFG_MODE d) && v.getLsbD 2 then (s.domCfgSet d v).hgServoIn d
      else if s.is (HG_DOM_CFG_MODE d) && !v.getLsbD 2 then (s.domCfgSet d v).hgServoOut d else s.domCfgSet d v := by
  have set : s.plainWrite hgIid (HG_DOM_CFG d) v = s.domCfgSet d v := plainWrite_free (domCfg_row d) rfl rfl _ _ _
  simp only [State.hgDomCfg, set, he, Bool.not_and_self, Bool.and_not_self, Bool.false_eq_true, if_false]

theorem hgServoIn_eq (s : State) (d : Nat) : s.hgServoIn d =
    (s.endSlew d).setDom d { s.dom d with rem := 0, integ := s.adj d * (s.reg (HG_DOM_TS d)).toNat * 1000000, clamped := 0 } := by
  have adj : (s.endSlew d).adj d = s.adj d := adj_congr (reg_endSlew_ne s d (by simp only [HG_DOM_STAT, HG_DOM_ADJ]; omega))
  have ts : (s.endSlew d).reg (HG_DOM_TS d) = s.reg (HG_DOM_TS d) :=
    reg_endSlew_ne s d (by simp only [HG_DOM_STAT, HG_DOM_TS]; omega)
  rw [State.hgServoIn, dom_endSlew, adj, ts]

theorem reg_hgServoIn_ne (s : State) (d : Nat) {o : Nat} (h : HG_DOM_STAT d ≠ o) : (s.hgServoIn d).reg o = s.reg o := by
  rw [hgServoIn_eq, reg_setDom, reg_endSlew_ne _ _ h]

theorem servoModeEnter_enters {iid : Iid} {d : Fin 2} {v : Word} {s : State} (hw : s.writeOk iid (HG_DOM_CFG d) = true)
    (ho : iid.toNat = s.get HG_OWNER_IID) (he : v.getLsbD 0 = s.is (HG_DOM_CFG_EN d)) (hm : s.is (HG_DOM_CFG_MODE d) = false)
    (hv : v.getLsbD 2 = true) : Completes (.servoModeEnter iid d v) s fun t =>
      t.is (HG_DOM_CFG_MODE d) = true ∧ (t.dom d).rem = 0 ∧ t.is (HG_DOM_STAT_SLEWING d) = false ∧
      (t.dom d).integ = s.adj d * (s.reg (HG_DOM_TS d)).toNat * 1000000 ∧ t.reg (HG_DOM_ADJ d) = s.reg (HG_DOM_ADJ d) ∧
      (t.dom d).ofs = (s.dom d).ofs := by
  have write : exec (.servoModeEnter iid d v) s = s.done (s.hgDomCfg d v) := exec_domainEnable hw ho
  have enters : s.hgDomCfg d v = (s.domCfgSet d v).hgServoIn d := by rw [hgDomCfg_mode he, hm, hv]; rfl
  have set : OnlyRegs s (s.domCfgSet d v) := onlyRegs_setReg _ _ _
  have kept {o : Nat} (h : HG_DOM_CFG d ≠ o) : (s.domCfgSet d v).reg o = s.reg o := reg_domCfgSet_ne s d v h
  have adj : (s.domCfgSet d v).reg (HG_DOM_ADJ d) = s.reg (HG_DOM_ADJ d) := kept (by simp only [HG_DOM_CFG, HG_DOM_ADJ]; omega)
  have ts : (s.domCfgSet d v).reg (HG_DOM_TS d) = s.reg (HG_DOM_TS d) := kept (by simp only [HG_DOM_CFG, HG_DOM_TS]; omega)
  have dom : ((s.domCfgSet d v).hgServoIn d).dom d =
      { s.dom d with rem := 0, integ := s.adj d * (s.reg (HG_DOM_TS d)).toNat * 1000000, clamped := 0 } := by
    rw [hgServoIn_eq, dom_setDom, adj_congr adj, ts, dom_of_hg set.hg]
  have frame : OnlyHourglass s ((s.domCfgSet d v).hgServoIn d) := by
    rw [hgServoIn_eq]
    exact (set.onlyHourglass.trans (onlyHourglass_endSlew _ _)).trans (onlyHourglass_setDom _ _ _)
  refine completes_of_onlyHourglass (write.trans (congrArg s.done enters)) frame
    ⟨?_, congrArg HgDom.rem dom, ?_, congrArg HgDom.integ dom, ?_, (congrArg HgDom.ofs dom :)⟩
  · have cfg := reg_hgServoIn_ne (s.domCfgSet d v) d (o := HG_DOM_CFG d) (by simp only [HG_DOM_STAT, HG_DOM_CFG]; omega)
    exact (is_congr (f := HG_DOM_CFG_MODE d) cfg).trans ((mode_domCfgSet s d v).trans hv)
  · rw [hgServoIn_eq, setDom_is, slewing_endSlew]
  · exact (reg_hgServoIn_ne _ _ (by simp only [HG_DOM_STAT, HG_DOM_ADJ]; omega)).trans adj

theorem incModeEnter_enters {iid : Iid} {d : Fin 2} {v : Word} {s : State} (hw : s.writeOk iid (HG_DOM_CFG d) = true)
    (ho : iid.toNat = s.get HG_OWNER_IID) (he : v.getLsbD 0 = s.is (HG_DOM_CFG_EN d)) (hm : s.is (HG_DOM_CFG_MODE d) = true)
    (hv : v.getLsbD 2 = false) : Completes (.incModeEnter iid d v) s fun t =>
      t.is (HG_DOM_CFG_MODE d) = false ∧ t.dom d = { s.dom d with clamped := 0 } ∧ RegsKept [HG_DOM_CFG d] s t := by
  have write : exec (.incModeEnter iid d v) s = s.done (s.hgDomCfg d v) := exec_domainEnable hw ho
  have leaves : s.hgDomCfg d v = (s.domCfgSet d v).hgServoOut d := by rw [hgDomCfg_mode he, hm, hv]; rfl
  have set : OnlyRegs s (s.domCfgSet d v) := onlyRegs_setReg _ _ _
  refine completes_of_onlyHourglass (write.trans (congrArg s.done leaves))
    (set.onlyHourglass.trans (onlyHourglass_setDom _ _ _)) ⟨?_, ?_, fun o h => ?_⟩
  · rw [State.hgServoOut, setDom_is, mode_domCfgSet, hv]
  · rw [State.hgServoOut, dom_setDom, dom_of_hg set.hg]
  · exact (reg_setDom _ _ _ _).trans (regsKept_setReg s _ _ o h)

/-! ### ADJ and HG_SLEW_LIM (R66, R72) -/

theorem exec_hgDomAdjWrite {iid : Iid} {d : Fin 2} {s : State} (v : Word) (hw : s.writeOk iid (HG_DOM_ADJ d) = true)
    (ho : iid.toNat = s.get HG_OWNER_IID) : exec (.hgDomAdjWrite iid d v) s = s.done (s.hgAdj d v) := by
  show s.done (s.writeWith iid (HG_DOM_ADJ d) fun s => s.ownerOnly iid fun s => s.hgAdj d v) = _
  rw [writeWith_ok hw, ownerOnly_owner ho]

theorem exec_hgSlewLimWrite {iid : Iid} {s : State} (v : Word) (hw : s.writeOk iid HG_SLEW_LIM = true)
    (ho : iid.toNat = s.get HG_OWNER_IID) : exec (.hgSlewLimWrite iid v) s = s.done (s.hgSlewLimW iid.toNat v) := by
  show s.done (s.writeWith iid HG_SLEW_LIM fun s => s.ownerOnly iid fun s => s.hgSlewLimW iid.toNat v) = _
  rw [writeWith_ok hw, ownerOnly_owner ho]

theorem hgAdj_inc {s : State} {d : Nat} (v : Word) (h : s.is (HG_DOM_CFG_MODE d) = false) :
    s.hgAdj d v = s.setReg (HG_DOM_ADJ d) (BitVec.ofInt 32 (max (-(s.slewLim : Int)) (min s.slewLim v.toInt))) := by
  rw [State.hgAdj, h, signed_toNat, clampAbs_eq]
  rfl

theorem hgAdj_servo {s : State} {d : Nat} (v : Word) (h : s.is (HG_DOM_CFG_MODE d) = true) : s.hgAdj d v = s := if_pos h

/-- A clamped rate lies within the limit, which itself fits the register. -/
theorem natAbs_adj_clampAdj {s : State} (d : Nat) (h : s.slewLim < 2 ^ 31) : ((s.clampAdj d).adj d).natAbs ≤ s.slewLim := by
  have le := natAbs_clampAbs s.slewLim (s.adj d)
  rw [State.clampAdj, adj_setReg, toInt_ofInt_of_natAbs (by omega)]
  exact le

/-- The rate limit of HG_SLEW_LIM = `v`, set and imposed on both domains (R72). -/
def State.limited (s : State) (v : Word) : State := ((s.setReg HG_SLEW_LIM v).clampAdj 0).clampAdj 1

theorem regsKept_limited (s : State) (v : Word) : RegsKept [HG_SLEW_LIM, HG_DOM_ADJ 0, HG_DOM_ADJ 1] s (s.limited v) := by
  intro o ho
  obtain ⟨lim, a, b⟩ : o ≠ HG_SLEW_LIM ∧ o ≠ HG_DOM_ADJ 0 ∧ o ≠ HG_DOM_ADJ 1 := by simpa using ho
  exact ((reg_setReg_ne _ _ b.symm).trans (reg_setReg_ne _ _ a.symm)).trans (reg_setReg_ne _ _ lim.symm)

theorem onlyRegs_limited (s : State) (v : Word) : OnlyRegs s (s.limited v) := (((OnlyRegs.refl s).setReg _ _).setReg _ _).setReg _ _

theorem limited_reg (s : State) (v : Word) : (s.limited v).reg HG_SLEW_LIM = v :=
  ((reg_setReg_ne _ _ (by decide)).trans (reg_setReg_ne _ _ (by decide))).trans (reg_setReg_same _ _ _)

theorem natAbs_adj_limited (s : State) {v : Word} (h : v.toNat ≤ 1953) :
    ((s.limited v).adj 0).natAbs ≤ (s.limited v).slewLim ∧ ((s.limited v).adj 1).natAbs ≤ (s.limited v).slewLim := by
  have lim {t : State} (ht : t.reg HG_SLEW_LIM = v) : t.slewLim = 2 ^ 40 * v.toNat / 1000000 := by rw [State.slewLim, ht]
  have fits : 2 ^ 40 * v.toNat / 1000000 < 2 ^ 31 := by omega
  have set : (s.setReg HG_SLEW_LIM v).slewLim = 2 ^ 40 * v.toNat / 1000000 := lim (reg_setReg_same _ _ _)
  have first : ((s.setReg HG_SLEW_LIM v).clampAdj 0).slewLim = 2 ^ 40 * v.toNat / 1000000 :=
    lim ((reg_setReg_ne _ _ (by decide)).trans (reg_setReg_same _ _ _))
  have a := natAbs_adj_clampAdj (s := s.setReg HG_SLEW_LIM v) 0 (set ▸ fits)
  have b := natAbs_adj_clampAdj (s := (s.setReg HG_SLEW_LIM v).clampAdj 0) 1 (first ▸ fits)
  rw [lim (limited_reg s v)]
  refine ⟨?_, b.trans first.le⟩
  rw [adj_congr (d := 0) (show (s.limited v).reg (HG_DOM_ADJ 0) = _ from reg_setReg_ne _ _ (by decide))]
  exact a.trans set.le

theorem hgSlewLimWrite_limits {iid : Iid} {v : Word} {s : State} (hw : s.writeOk iid HG_SLEW_LIM = true)
    (ho : iid.toNat = s.get HG_OWNER_IID) : Completes (.hgSlewLimWrite iid v) s fun t =>
      OnlyRegs s t ∧
      if 1 ≤ v.toNat ∧ v.toNat ≤ 1953 then
        t.reg HG_SLEW_LIM = v ∧ (t.adj 0).natAbs ≤ t.slewLim ∧ (t.adj 1).natAbs ≤ t.slewLim ∧
        RegsKept [HG_SLEW_LIM, HG_DOM_ADJ 0, HG_DOM_ADJ 1] s t
      else t.reg GLB_FAULT_LAST = BitVec.ofNat 32 (0x1003 + iid.toNat * 0x10000) ∧
        RegsKept [GLB_FAULT_FIRST, GLB_FAULT_LAST, GLB_FAULT_COUNT] s t := by
  have write := exec_hgSlewLimWrite v hw ho
  by_cases hv : 1 ≤ v.toNat ∧ v.toNat ≤ 1953
  · rw [State.hgSlewLimW, if_pos hv] at write
    obtain ⟨a, b⟩ := natAbs_adj_limited s hv.2
    exact completes_of_onlyRegs write (onlyRegs_limited s v)
      ⟨onlyRegs_limited s v, (if_pos hv).mpr ⟨limited_reg s v, a, b, regsKept_limited s v⟩⟩
  · rw [State.hgSlewLimW, if_neg hv] at write
    obtain ⟨t, done, only, last, kept⟩ := completes_report 0x1003 write
    exact ⟨t, done, only, (if_neg hv).mpr ⟨last, kept⟩⟩

/-- Settles O23: MODE's change touches the domain alone, and every rate that is placed has been clamped. -/
theorem servoAndIncModes : Obligations.ServoAndIncModes := by
  unfold Obligations.ServoAndIncModes
  refine ⟨fun iid d v s hw ho he => ⟨servoModeEnter_enters hw ho he, incModeEnter_enters hw ho he⟩,
    fun iid d v s hw ho => ⟨fun hm => ?_, fun hm => ?_⟩, fun iid v s hw ho => hgSlewLimWrite_limits hw ho⟩
  · exact completes_of_onlyRegs ((exec_hgDomAdjWrite v hw ho).trans (congrArg s.done (hgAdj_inc v hm))) (onlyRegs_setReg _ _ _)
      ⟨onlyRegs_setReg _ _ _, regsKept_setReg _ _ _, reg_setReg_same _ _ _⟩
  · rw [exec_hgDomAdjWrite v hw ho, hgAdj_servo v hm, done_self]

end Sys2Proof.Machine
end

section
/-! Samples: submitted, stepped or slewed, and absorbed (O24). -/

namespace Sys2Proof.Machine

open Reg

/-! ### SAMPLE_SUBMIT (R70, R97) -/

theorem exec_sampleSubmit {iid : Iid} {d : Fin 2} {s : State} (hi : Word) (hw : s.writeOk iid (HG_DOM_MEAS_HI d) = true)
    (ho : iid.toNat = s.get HG_OWNER_IID) : exec (.sampleSubmit iid d hi) s = s.done (s.hgMeasHi iid.toNat d hi) := by
  show s.done (s.writeWith iid (HG_DOM_MEAS_HI d) fun s => s.ownerOnly iid fun s => s.hgMeasHi iid.toNat d hi) = _
  rw [writeWith_ok hw, ownerOnly_owner ho]

theorem onlyHourglass_hgSubmit (s : State) (d : Nat) (θ : Int) : OnlyHourglass s (s.hgSubmit d θ) := by
  unfold State.hgSubmit
  split
  · exact onlyHourglass_setDom _ _ _
  · rfl

theorem dom_hgSubmit (s : State) (d : Nat) (θ : Int) : (s.hgSubmit d θ).dom d =
    if s.is (HG_DOM_CFG_EN d) then { s.dom d with samples := (s.dom d).samples ++ [θ] } else s.dom d := by
  rw [State.hgSubmit, apply_ite (State.dom · d), dom_setDom]

theorem sampleSubmit_queues {iid : Iid} {d : Fin 2} {hi : Word} {s : State} (hw : s.writeOk iid (HG_DOM_MEAS_HI d) = true)
    (ho : iid.toNat = s.get HG_OWNER_IID) : Completes (.sampleSubmit iid d hi) s fun t =>
      t.dom d = if s.is (HG_DOM_CFG_EN d) then
          { s.dom d with samples := (s.dom d).samples ++ [signed 64 (s.pairValue iid.toNat (HG_DOM_MEAS_LO d) hi)] }
        else s.dom d := by
  have submit := onlyHourglass_hgSubmit ((s.setPair (HG_DOM_MEAS_LO d) (s.pairValue iid.toNat (HG_DOM_MEAS_LO d) hi)).dropLo
    iid.toNat (HG_DOM_MEAS_LO d)) d (signed 64 (s.pairValue iid.toNat (HG_DOM_MEAS_LO d) hi))
  have en : (s.setPair (HG_DOM_MEAS_LO d) (s.pairValue iid.toNat (HG_DOM_MEAS_LO d) hi)).is (HG_DOM_CFG_EN d) =
      s.is (HG_DOM_CFG_EN d) :=
    is_congr (reg_setPair_ne _ _ (by simp only [HG_DOM_CFG_EN, HG_DOM_CFG, HG_DOM_MEAS_LO]; omega)
      (by simp only [HG_DOM_CFG_EN, HG_DOM_CFG, HG_DOM_MEAS_LO]; omega))
  refine completes_of_kept (exec_sampleSubmit hi hw ho) (submit.pending.trans (setPair_pending _ _ _))
    (submit.boot.trans (setPair_boot _ _ _)) ?_
  rw [State.hgMeasHi, dom_hgSubmit, dropLo_is, en]
  rfl

/-! ### SAMPLE_APPLY: a step (R71) -/

/-- A domain's own part of a step: the amortisation ends, the offset moves, the step is counted and LOCKED clears. -/
def State.stepped (s : State) (d : Nat) (θ : Int) : State :=
  (((s.endSlew d).setDom d { s.dom d with rem := 0, ofs := (s.dom d).ofs + θ * 2 ^ 40, good := 0, clamped := 0 }).setReg
    (HG_DOM_STEP d) (BitVec.ofNat 32 (((s.reg (HG_DOM_STEP d)).toNat + 1) % 65536))).putB (HG_DOM_STAT_LOCKED d) false

/-- The epoch is published anew where outputs use the domain (R63). -/
def State.republish (s : State) (d : Nat) : State := if s.actDom = d then s.publishEpoch else s

theorem onlyHourglass_republish (s : State) (d : Nat) : OnlyHourglass s (s.republish d) := by
  unfold State.republish
  split
  · exact onlyHourglass_publishEpoch s
  · rfl

theorem hg_republish (s : State) (d : Nat) : (s.republish d).hg = s.hg := by
  unfold State.republish
  split
  · exact hg_publishEpoch s
  · rfl

theorem reg_republish (s : State) (d : Nat) {o : Nat} (h : HG_EPOCH_META < o) : (s.republish d).reg o = s.reg o := by
  unfold State.republish
  split
  · exact reg_publishEpoch _ (.inr h)
  · rfl

theorem hgStep_fits {s : State} {d : Nat} {θ : Int} (h : s.stepFits d θ = true) :
    s.hgStep d θ = ((s.stepped d θ).republish d).report 0x1007 hgIid := by
  have count (x : HgDom) : ((s.endSlew d).setDom d x).get (whole (HG_DOM_STEP d)) = (s.reg (HG_DOM_STEP d)).toNat := by
    rw [setDom_get, get_whole, reg_endSlew_ne s d (by simp only [HG_DOM_STAT, HG_DOM_STEP]; omega)]
  rw [State.hgStep, if_pos h]
  dsimp only
  rw [count, dom_endSlew]
  rfl

theorem dom_stepped (s : State) (d : Nat) (θ : Int) : (s.stepped d θ).dom d =
    { s.dom d with rem := 0, ofs := (s.dom d).ofs + θ * 2 ^ 40, good := 0, clamped := 0 } :=
  (dom_of_hg rfl d).trans (dom_setDom _ d _)

theorem reg_stepped_ne (s : State) (d : Nat) (θ : Int) {o : Nat} (h : HG_DOM_STAT d ≠ o) (h' : HG_DOM_STEP d ≠ o) :
    (s.stepped d θ).reg o = s.reg o := by
  rw [State.stepped, reg_putB_ne _ _ h, reg_setReg_ne _ _ h', reg_setDom, reg_endSlew_ne _ _ h]

theorem step_stepped (s : State) (d : Nat) (θ : Int) :
    ((s.stepped d θ).reg (HG_DOM_STEP d)).toNat = ((s.reg (HG_DOM_STEP d)).toNat + 1) % 65536 := by
  have ne : HG_DOM_STAT d ≠ HG_DOM_STEP d := by simp only [HG_DOM_STAT, HG_DOM_STEP]; omega
  have lt : ((s.reg (HG_DOM_STEP d)).toNat + 1) % 65536 < 2 ^ 32 := by omega
  rw [State.stepped, reg_putB_ne _ _ ne, reg_setReg_same, BitVec.toNat_ofNat, Nat.mod_eq_of_lt lt]

theorem slewing_putB_locked (s : State) (d : Nat) (b : Bool) :
    (s.putB (HG_DOM_STAT_LOCKED d) b).is (HG_DOM_STAT_SLEWING d) = s.is (HG_DOM_STAT_SLEWING d) :=
  is_putB_ne _ _ _ _ (by simp [HG_DOM_STAT_LOCKED]) (.inr (.inl (by simp [HG_DOM_STAT_LOCKED, HG_DOM_STAT_SLEWING])))

theorem stat_stepped (s : State) (d : Nat) (θ : Int) : (s.stepped d θ).is (HG_DOM_STAT_SLEWING d) = false ∧
    (s.stepped d θ).is (HG_DOM_STAT_LOCKED d) = false := by
  have ne : HG_DOM_STEP d ≠ HG_DOM_STAT d := by simp only [HG_DOM_STAT, HG_DOM_STEP]; omega
  refine ⟨?_, is_putB _ _ _ (by simp [HG_DOM_STAT_LOCKED]) rfl⟩
  rw [State.stepped, slewing_putB_locked, is_setReg_ne _ _ ne, setDom_is, slewing_endSlew]

theorem onlyHourglass_stepped (s : State) (d : Nat) (θ : Int) : OnlyHourglass s (s.stepped d θ) :=
  ((onlyHourglass_endSlew s d).trans (onlyHourglass_setDom _ _ _)).trans
    ((onlyRegs_setReg _ _ _).trans (onlyRegs_setReg _ _ _)).onlyHourglass

/-- The oldest sample of domain d has been taken. -/
def State.sampleTaken (s : State) (d : Nat) (r : List Int) : State := s.setDom d { s.dom d with samples := r }

theorem dt_setDom (s : State) (d : Nat) (x : HgDom) : (s.setDom d x).hg.dt = s.hg.dt := by
  unfold State.setDom
  split <;> rfl

theorem stepFits_sampleTaken (s : State) (d : Nat) (r : List Int) (θ : Int) :
    (s.sampleTaken d r).stepFits d θ = s.stepFits d θ := by
  simp only [State.stepFits, State.sampleTaken, dom_setDom, dt_setDom]

theorem hgApply_step {s : State} {d : Nat} {θ : Int} {r : List Int} (hq : (s.dom d).samples = θ :: r)
    (hθ : (s.reg HG_STEP_THR).toNat * 1000 < θ.natAbs) : s.hgApply d = (s.sampleTaken d r).hgStep d θ := by
  simp only [State.hgApply, hq, hθ, if_true, State.sampleTaken]

theorem willStep_above {s : State} {d : Nat} {θ : Int} {r : List Int} (hq : (s.dom d).samples = θ :: r)
    (hθ : (s.reg HG_STEP_THR).toNat * 1000 < θ.natAbs) : s.willStep d = s.stepFits d θ := by
  simp only [State.willStep, hq, hθ, decide_true, Bool.true_and]

theorem refSees_quiet {s : State} (c x : Nat) (h : s.ref.running = false) : s.refSees c x = s := by
  simp [State.refSees, h]

/-- A report leaves every register above the fault registers as it was. -/
theorem reg_report {o : Nat} (h : GLB_FAULT_COUNT < o) (s : State) (c i : Nat) : (s.report c i).reg o = s.reg o :=
  report_reg_ne _ _ _ _ (by simp only [GLB_FAULT_COUNT, GLB_FAULT_FIRST] at *; omega)
    (by simp only [GLB_FAULT_COUNT, GLB_FAULT_LAST] at *; omega) (by omega)

theorem sampleApply_steps {d : Fin 2} {θ : Int} {r : List Int} {s : State} (hq : (s.dom d).samples = θ :: r)
    (hθ : (s.reg HG_STEP_THR).toNat * 1000 < θ.natAbs) (hf : s.stepFits d θ = true) (hr : s.ref.running = false) :
    Completes (.sampleApply d) s fun t =>
      (t.dom d).ofs = (s.dom d).ofs + θ * 2 ^ 40 ∧ (t.dom d).rem = 0 ∧ (t.dom d).samples = r ∧
      (t.reg (HG_DOM_STEP d)).toNat = ((s.reg (HG_DOM_STEP d)).toNat + 1) % 65536 ∧ t.is (HG_DOM_STAT_SLEWING d) = false ∧
      t.is (HG_DOM_STAT_LOCKED d) = false ∧ t.reg (HG_DOM_ADJ d) = s.reg (HG_DOM_ADJ d) ∧ t.reg GLB_FAULT_LAST = 0x91007 := by
  have fits := (stepFits_sampleTaken s d r θ).trans hf
  have steps : s.hgApply d = (((s.sampleTaken d r).stepped d θ).republish d).report 0x1007 hgIid :=
    (hgApply_step hq hθ).trans (hgStep_fits fits)
  have frame : OnlyHourglass s (s.hgApply d) := by
    rw [steps]
    exact ((onlyHourglass_setDom s d _).trans (onlyHourglass_stepped _ d θ)).trans
      ((onlyHourglass_republish _ d).trans (onlyRegs_report _ _ _).onlyHourglass)
  have still : (s.hgApply d).ref.running = false := (congrArg (fun t : State => t.ref.running) frame :).trans hr
  have quiet : s.applySample d = s.hgApply d := by
    rw [State.applySample, willStep_above hq hθ, hf, if_pos rfl, refSees_quiet _ _ still]
  have dom : (s.hgApply d).dom d =
      { s.dom d with samples := r, rem := 0, ofs := (s.dom d).ofs + θ * 2 ^ 40, good := 0, clamped := 0 } := by
    rw [steps, dom_of_hg (report_hg _ _ _), dom_of_hg (hg_republish _ _), dom_stepped, State.sampleTaken, dom_setDom]
  have kept {o : Nat} (h : HG_EPOCH_META < o) : (s.hgApply d).reg o = ((s.sampleTaken d r).stepped d θ).reg o := by
    rw [steps, reg_report (by simp only [HG_EPOCH_META, GLB_FAULT_COUNT] at *; omega), reg_republish _ _ h]
  have stat : (s.hgApply d).reg (HG_DOM_STAT d) = ((s.sampleTaken d r).stepped d θ).reg (HG_DOM_STAT d) :=
    kept (by simp only [HG_EPOCH_META, HG_DOM_STAT]; omega)
  obtain ⟨slewing, locked⟩ := stat_stepped (s.sampleTaken d r) d θ
  refine completes_of_onlyHourglass (congrArg s.done quiet) frame ⟨(congrArg HgDom.ofs dom :), congrArg HgDom.rem dom,
    congrArg HgDom.samples dom, ?_, (is_congr (f := HG_DOM_STAT_SLEWING d) stat).trans slewing,
    (is_congr (f := HG_DOM_STAT_LOCKED d) stat).trans locked, ?_, ?_⟩
  · rw [kept (by simp only [HG_EPOCH_META, HG_DOM_STEP]; omega), step_stepped, State.sampleTaken, reg_setDom]
  · rw [kept (by simp only [HG_EPOCH_META, HG_DOM_ADJ]; omega),
      reg_stepped_ne _ _ _ (by simp only [HG_DOM_STAT, HG_DOM_ADJ]; omega) (by simp only [HG_DOM_STEP, HG_DOM_ADJ]; omega),
      State.sampleTaken, reg_setDom]
  · rw [steps, report_last]
    rfl

/-! ### SAMPLE_APPLY: a slew (R72, R75) -/

/-- LOCKED's rule counts good samples and may set or clear LOCKED, and nothing more. -/
theorem hgLocked_cases (s : State) (d : Nat) (θ : Int) : ∃ n, s.hgLocked d θ = s.setDom d { s.dom d with good := n } ∨
    ∃ b, s.hgLocked d θ = (s.setDom d { s.dom d with good := n }).putB (HG_DOM_STAT_LOCKED d) b := by
  refine ⟨if θ.natAbs < 100 then (s.dom d).good + 1 else 0, ?_⟩
  unfold State.hgLocked
  dsimp only
  generalize (if θ.natAbs < 100 then (s.dom d).good + 1 else 0) = n
  split
  · exact .inr ⟨true, rfl⟩
  · split
    · exact .inr ⟨false, rfl⟩
    · exact .inl rfl

theorem hgLocked_frame (s : State) (d : Nat) (θ : Int) : OnlyHourglass s (s.hgLocked d θ) ∧
    (∃ n, (s.hgLocked d θ).dom d = { s.dom d with good := n }) ∧
    (s.hgLocked d θ).is (HG_DOM_STAT_SLEWING d) = s.is (HG_DOM_STAT_SLEWING d) ∧ RegsKept [HG_DOM_STAT d] s (s.hgLocked d θ) := by
  obtain ⟨n, same | ⟨b, puts⟩⟩ := hgLocked_cases s d θ
  · rw [same]
    exact ⟨onlyHourglass_setDom _ _ _, ⟨n, dom_setDom _ _ _⟩, setDom_is _ _ _ _, fun o _ => reg_setDom _ _ _ o⟩
  · rw [puts]
    refine ⟨(onlyHourglass_setDom s d _).trans (onlyRegs_setReg _ _ _).onlyHourglass,
      ⟨n, (dom_of_hg rfl d).trans (dom_setDom s d _)⟩, ?_, fun o ho => ?_⟩
    · rw [slewing_putB_locked, setDom_is]
    · exact (regsKept_putB _ b rfl o ho).trans (reg_setDom _ _ _ o)

theorem dom_hgIncSlew (s : State) (d : Nat) (θ : Int) : (s.hgIncSlew d θ).dom d = { s.dom d with rem := θ * 2 ^ 40 } :=
  (dom_of_hg rfl d).trans (dom_setDom s d _)

theorem hgApply_slew {s : State} {d : Nat} {θ : Int} {r : List Int} (hq : (s.dom d).samples = θ :: r)
    (hθ : θ.natAbs ≤ (s.reg HG_STEP_THR).toNat * 1000) (hm : s.is (HG_DOM_CFG_MODE d) = false) :
    s.hgApply d = ((s.sampleTaken d r).hgIncSlew d θ).hgLocked d θ := by
  simp only [State.hgApply, hq, if_neg (Nat.not_lt.2 hθ), setDom_is, hm, Bool.false_eq_true, if_false, State.sampleTaken]

theorem willStep_below {s : State} {d : Nat} {θ : Int} {r : List Int} (hq : (s.dom d).samples = θ :: r)
    (hθ : θ.natAbs ≤ (s.reg HG_STEP_THR).toNat * 1000) : s.willStep d = false := by
  simp only [State.willStep, hq, decide_eq_false (Nat.not_lt.2 hθ), Bool.false_and]

theorem sampleApply_slews {d : Fin 2} {θ : Int} {r : List Int} {s : State} (hq : (s.dom d).samples = θ :: r)
    (hθ : θ.natAbs ≤ (s.reg HG_STEP_THR).toNat * 1000) (hm : s.is (HG_DOM_CFG_MODE d) = false) :
    Completes (.sampleApply d) s fun t =>
      (t.dom d).ofs = (s.dom d).ofs ∧ (t.dom d).rem = θ * 2 ^ 40 ∧ (t.dom d).samples = r ∧
      t.is (HG_DOM_STAT_SLEWING d) = (θ != 0) ∧ t.reg (HG_DOM_ADJ d) = s.reg (HG_DOM_ADJ d) ∧ RegsKept [HG_DOM_STAT d] s t := by
  have slews : s.applySample d = ((s.sampleTaken d r).hgIncSlew d θ).hgLocked d θ := by
    rw [State.applySample, willStep_below hq hθ, if_neg Bool.false_ne_true, hgApply_slew hq hθ hm]
  obtain ⟨frame, ⟨n, dom⟩, slewing, kept⟩ := hgLocked_frame ((s.sampleTaken d r).hgIncSlew d θ) d θ
  rw [dom_hgIncSlew, State.sampleTaken, dom_setDom] at dom
  have start : RegsKept [HG_DOM_STAT d] s ((s.sampleTaken d r).hgIncSlew d θ) := fun o ho =>
    (regsKept_putB _ _ rfl o ho).trans ((reg_setDom _ _ _ o).trans (reg_setDom _ _ _ o))
  have regs := start.trans kept
  refine completes_of_onlyHourglass (congrArg s.done slews) ?_ ⟨(congrArg HgDom.ofs dom :), (congrArg HgDom.rem dom :),
    (congrArg HgDom.samples dom :), slewing.trans (is_putB _ _ _ (by simp [HG_DOM_STAT_SLEWING]) rfl), regs _ ?_, regs⟩
  · exact ((onlyHourglass_setDom s d _).trans (onlyHourglass_setDom _ d _)).trans
      ((onlyRegs_setReg _ _ _).onlyHourglass.trans frame)
  · simp only [List.mem_singleton, HG_DOM_ADJ, HG_DOM_STAT]
    omega

/-! ### SLEW_COMPLETE (R65, R72) -/

@[simp] theorem dom_backupCycles (s : State) (k d : Nat) : (s.backupCycles k).dom d = s.dom d := by
  unfold State.backupCycles
  split <;> rfl

@[simp] theorem dt_backupCycles (s : State) (k : Nat) : (s.backupCycles k).hg.dt = s.hg.dt := by
  unfold State.backupCycles
  split <;> rfl

/-- Device Time runs on to an instant that lies ahead, and each domain with it. -/
theorem advanceTo_ahead {s : State} {t : Nat} (hr : s.hg.running = true) (ht : s.hg.dt < t) (d : Fin 2) :
    (s.advanceTo t).hg.dt = t ∧ (s.advanceTo t).dom d = s.domCycles d (t / 1024 - s.hg.dt / 1024) := by
  rw [State.advanceTo, if_pos ⟨hr, ht⟩]
  refine ⟨dt_backupCycles _ _, (dom_backupCycles _ _ _).trans ?_⟩
  match d with
  | 0 => rfl
  | 1 => rfl

theorem reg_advanceTo (s : State) (t o : Nat) : (s.advanceTo t).reg o = s.reg o := by
  rw [onlyHg_advanceTo]
  rfl

/-- The cycles that an amortisation needs absorb all of it. -/
theorem cycles_absorb (x : HgDom) (adj : Int) {mag k : Nat} (h : x.rem.natAbs ≤ 4 * mag * k) :
    x.cycles adj mag k = { x with ofs := x.ofs + 4 * adj * k + x.rem, rem := 0 } := by
  simp only [HgDom.cycles, clampAbs_of_le h, sub_self]

/-- Division rounded up is the least enough. -/
theorem ceilDiv_bounds (a : Nat) {c : Nat} (hc : 0 < c) : a ≤ c * ((a + c - 1) / c) ∧ c * ((a + c - 1) / c) < a + c := by
  have split := Nat.div_add_mod (a + c - 1) c
  have rest := Nat.mod_lt (a + c - 1) hc
  omega

/-- The cycles until the amortisation of domain d has absorbed its sample. -/
def State.slewCycles (s : State) (d : Nat) : Nat := ((s.dom d).rem.natAbs + 4 * s.amort d - 1) / (4 * s.amort d)

theorem slewCycles_bounds {s : State} {d : Nat} (ha : 0 < s.amort d) : (s.dom d).rem.natAbs ≤ 4 * s.amort d * s.slewCycles d ∧
    4 * s.amort d * s.slewCycles d < (s.dom d).rem.natAbs + 4 * s.amort d :=
  ceilDiv_bounds _ (Nat.mul_pos (by decide) ha)

theorem slewCycles_pos {s : State} {d : Nat} (ha : 0 < s.amort d) (hr : (s.dom d).rem ≠ 0) : 0 < s.slewCycles d := by
  obtain ⟨enough, -⟩ := slewCycles_bounds ha
  refine Nat.pos_of_ne_zero fun none => hr ?_
  rw [none] at enough
  omega

theorem hgSlewDone_absorbs {s : State} {d : Nat} (hs : s.is (HG_DOM_STAT_SLEWING d) = true) (hr : (s.dom d).rem ≠ 0)
    (ha : 0 < s.amort d) (he : s.is (HG_DOM_CFG_EN d) = true) (hd : s.hg.running = true) :
    s.hgSlewDone d = (s.advanceTo ((s.hg.dt / 1024 + s.slewCycles d) * 1024)).endSlew d := by
  simp [State.hgSlewDone, hs, hr, ha.ne', he, hd, State.slewCycles]

theorem slewComplete_absorbs {d : Fin 2} {s : State} (hs : s.is (HG_DOM_STAT_SLEWING d) = true) (hr : (s.dom d).rem ≠ 0)
    (ha : 0 < s.amort d) (he : s.is (HG_DOM_CFG_EN d) = true) (hd : s.hg.running = true) :
    Completes (.slewComplete d) s fun t =>
      ∃ k : Nat, (t.dom d).ofs = (s.dom d).ofs + 4 * s.adj d * k + (s.dom d).rem ∧ (t.dom d).rem = 0 ∧
        (s.dom d).rem.natAbs ≤ 4 * s.amort d * k ∧ 4 * s.amort d * k < (s.dom d).rem.natAbs + 4 * s.amort d ∧
        t.hg.dt = (s.hg.dt / 1024 + k) * 1024 ∧ t.is (HG_DOM_STAT_SLEWING d) = false := by
  obtain ⟨enough, least⟩ := slewCycles_bounds ha
  have ahead := slewCycles_pos ha hr
  obtain ⟨dt, dom⟩ := advanceTo_ahead hd (t := (s.hg.dt / 1024 + s.slewCycles d) * 1024) (by omega) d
  have cycles : (s.hg.dt / 1024 + s.slewCycles d) * 1024 / 1024 - s.hg.dt / 1024 = s.slewCycles d := by omega
  rw [cycles, State.domCycles, if_pos he, cycles_absorb _ _ enough] at dom
  have ended := dom_endSlew (s.advanceTo ((s.hg.dt / 1024 + s.slewCycles d) * 1024)) d
  rw [dom] at ended
  have frame : OnlyHourglass s (s.advanceTo ((s.hg.dt / 1024 + s.slewCycles d) * 1024)) := by
    rw [onlyHg_advanceTo]
    rfl
  refine completes_of_onlyHourglass (congrArg s.done (hgSlewDone_absorbs hs hr ha he hd))
    (frame.trans (onlyHourglass_endSlew _ _)) ⟨s.slewCycles d, (congrArg HgDom.ofs ended :), congrArg HgDom.rem ended,
      enough, least, ?_, slewing_endSlew _ _⟩
  exact (dt_setDom _ _ _).trans dt

/-- Settles O24: a sample enters the queue last and leaves it first, as a step or as a slew, and a slew ends when its cycles have
absorbed it. -/
theorem samplesStepOrSlew : Obligations.SamplesStepOrSlew := by
  unfold Obligations.SamplesStepOrSlew
  exact ⟨fun iid d hi s => sampleSubmit_queues, fun d θ r s hq => ⟨sampleApply_steps hq, sampleApply_slews hq⟩,
    fun d s => slewComplete_absorbs⟩

end Sys2Proof.Machine
end

section
/-! One-shot triggers: armed, fired, retargeted, and the end of a pulse (O25). -/

namespace Sys2Proof.Machine

open Reg

theorem get_congr {s t : State} {f : Fld} (h : t.reg f.off = s.reg f.off) : t.get f = s.get f := by
  simp only [State.get, h]

/-! ### The state of a trigger -/

@[simp] theorem trig_setTrig (s : State) (n : Nat) (x : Trig) : (s.setTrig n x).trig n = x := spGet_spPut_same _ _ _

theorem trig_of_hg {s t : State} (h : t.hg = s.hg) (n : Nat) : t.trig n = s.trig n := by simp only [State.trig, h]

@[simp] theorem trig_putB (s : State) (f : Fld) (b : Bool) (n : Nat) : (s.putB f b).trig n = s.trig n := trig_of_hg rfl n

@[simp] theorem trig_backupCycles (s : State) (k n : Nat) : (s.backupCycles k).trig n = s.trig n := by
  unfold State.backupCycles
  split <;> rfl

/-- Time that passes leaves every trigger as it was. -/
@[simp] theorem trig_advanceTo (s : State) (t n : Nat) : (s.advanceTo t).trig n = s.trig n := by
  unfold State.advanceTo
  split
  · exact trig_backupCycles _ _ _
  · rfl

theorem trigCmp_congr {s t : State} {n : Nat} (h : t.reg (HG_TRIG_CMP_LO n) = s.reg (HG_TRIG_CMP_LO n))
    (h4 : t.reg (HG_TRIG_CMP_LO n + 4) = s.reg (HG_TRIG_CMP_LO n + 4)) : t.trigCmp n = s.trigCmp n := by
  rw [State.trigCmp, State.trigCmp, pair_congr h h4]

/-- What a trigger's commands may touch: registers, staged fields and the Hourglass. -/
def OnlyTrigger (s t : State) : Prop := t = { s with regs := t.regs, staged := t.staged, hg := t.hg }

theorem OnlyTrigger.trans {s t u : State} (h : OnlyTrigger s t) (k : OnlyTrigger t u) : OnlyTrigger s u := by
  unfold OnlyTrigger at *
  rw [k, h]

theorem OnlyTrigger.pending {s t : State} (h : OnlyTrigger s t) : t.pending = s.pending := (congrArg State.pending h :)
theorem OnlyTrigger.boot {s t : State} (h : OnlyTrigger s t) : t.boot = s.boot := (congrArg State.boot h :)

theorem completes_of_onlyTrigger {c : Instr} {s t : State} {p : State → Prop} (h : exec c s = s.done t) (k : OnlyTrigger s t)
    (ht : p t) : Completes c s p :=
  completes_of_kept h k.pending k.boot ht

theorem OnlyRegs.onlyTrigger {s t : State} (h : OnlyRegs s t) : OnlyTrigger s t := by
  unfold OnlyRegs at h
  rw [h]
  rfl

theorem onlyTrigger_setTrig (s : State) (n : Nat) (x : Trig) : OnlyTrigger s (s.setTrig n x) := rfl

theorem onlyTrigger_advanceTo (s : State) (t : Nat) : OnlyTrigger s (s.advanceTo t) := by
  rw [onlyHg_advanceTo]
  rfl

/-! ### An edge, and the end of a one-shot (R81, R94) -/

/-- `t` is `s` after an edge of trigger n that no pulse refused. -/
structure EdgeFalls (s t : State) (n : Nat) : Prop where
  frame : OnlyTrigger s t
  regs : RegsKept [HG_TRIG_STAT n] s t
  fired : t.get (HG_TRIG_STAT_FIRED n) = (s.get (HG_TRIG_STAT_FIRED n) + 1) % 65536
  pulse : (t.trig n).pulseEnd = some (s.hg.dt + (s.reg (HG_TRIG_WIDTH n)).toNat * 256)
  dt : t.hg.dt = s.hg.dt

theorem edgeFalls_trigPulse {s : State} {n : Nat} (h : (s.trig n).pulseEnd = none) : EdgeFalls s (s.trigPulse n) n := by
  have idle : ∃ x : Trig, x.pulseEnd = some (s.hg.dt + (s.reg (HG_TRIG_WIDTH n)).toNat * 256) ∧
      s.trigPulse n = (s.put (HG_TRIG_STAT_FIRED n) (s.get (HG_TRIG_STAT_FIRED n) + 1)).setTrig n x := by
    rw [State.trigPulse, h]
    exact ⟨_, rfl, rfl⟩
  obtain ⟨x, pulse, falls⟩ := idle
  rw [falls]
  refine ⟨rfl, regsKept_put s _ rfl, ?_, ?_, rfl⟩
  · exact get_put _ _ _ (by simp [HG_TRIG_STAT_FIRED])
  · rw [trig_setTrig, pulse]

/-- ARM is off, in the register and in the trigger. -/
theorem disarm_off (s : State) (n : Nat) : (s.disarm n).is (HG_TRIG_CFG_ARM n) = false ∧
    (s.disarm n).trig n = { s.trig n with armed := false, next := none } :=
  ⟨is_putB _ _ _ (by simp [HG_TRIG_CFG_ARM]) rfl, (trig_putB _ _ _ _).trans (trig_setTrig _ _ _)⟩

theorem onlyTrigger_disarm (s : State) (n : Nat) : OnlyTrigger s (s.disarm n) := rfl

theorem regsKept_disarm (s : State) (n : Nat) : RegsKept [HG_TRIG_CFG n] s (s.disarm n) := regsKept_putB (s.setTrig n _) _ rfl

theorem get_disarm_ne (s : State) (n : Nat) {g : Fld} (h : HG_TRIG_CFG n ≠ g.off ∨ 4 ≤ g.lo ∨ g.lo + g.w ≤ 3) :
    (s.disarm n).get g = s.get g := get_put_ne _ _ _ _ (by simp [HG_TRIG_CFG_ARM]) h

theorem trigCfg_ne_trigStat (n : Nat) : HG_TRIG_CFG n ≠ HG_TRIG_STAT n := by
  simp only [HG_TRIG_CFG, HG_TRIG_STAT]
  omega

/-- A one-shot that has had its edge: counted, disarmed, its pulse running (R77, R81, R94). -/
structure OneShotDone (s t : State) (n : Nat) : Prop where
  frame : OnlyTrigger s t
  arm : t.is (HG_TRIG_CFG_ARM n) = false
  armed : (t.trig n).armed = false
  fired : t.get (HG_TRIG_STAT_FIRED n) = (s.get (HG_TRIG_STAT_FIRED n) + 1) % 65536
  pulse : (t.trig n).pulseEnd = some (s.hg.dt + (s.reg (HG_TRIG_WIDTH n)).toNat * 256)
  dt : t.hg.dt = s.hg.dt

theorem oneShotDone_disarm {s : State} {n : Nat} (h : (s.trig n).pulseEnd = none) :
    OneShotDone s ((s.trigPulse n).disarm n) n := by
  have edge := edgeFalls_trigPulse h
  obtain ⟨arm, trig⟩ := disarm_off (s.trigPulse n) n
  exact ⟨edge.frame.trans (onlyTrigger_disarm _ _), arm, by rw [trig],
    (get_disarm_ne _ _ (.inl (trigCfg_ne_trigStat n))).trans edge.fired, by rw [trig]; exact edge.pulse, edge.dt⟩

/-- It fires late: LATE sets and 0x1004 is reported, and the rest stands (R77). -/
theorem OneShotDone.late {s t : State} {n : Nat} (h : OneShotDone s t n) : OneShotDone s (t.trigLate n) n ∧
    (t.trigLate n).is (HG_TRIG_STAT_LATE n) = true ∧ (t.trigLate n).reg GLB_FAULT_LAST = 0x91004 := by
  have only : OnlyRegs t (t.trigLate n) := (onlyRegs_setReg _ _ _).report _ _
  have kept {o : Nat} (ho : GLB_FAULT_COUNT < o) : (t.trigLate n).reg o = (t.putB (HG_TRIG_STAT_LATE n) true).reg o :=
    reg_report ho _ _ _
  have stat : GLB_FAULT_COUNT < HG_TRIG_STAT n := by simp only [GLB_FAULT_COUNT, HG_TRIG_STAT]; omega
  have cfg : GLB_FAULT_COUNT < HG_TRIG_CFG n := by simp only [GLB_FAULT_COUNT, HG_TRIG_CFG]; omega
  have trig := trig_of_hg only.hg n
  refine ⟨⟨h.frame.trans only.onlyTrigger, ?_, by rw [trig, h.armed], ?_, by rw [trig, h.pulse], ?_⟩, ?_, report_last _ _ _⟩
  · rw [is_congr (f := HG_TRIG_CFG_ARM n) (kept cfg), is_putB_ne _ _ _ _ (by simp [HG_TRIG_STAT_LATE])
      (.inl (trigCfg_ne_trigStat n).symm), h.arm]
  · rw [get_congr (f := HG_TRIG_STAT_FIRED n) (kept stat), State.putB, get_put_ne _ _ _ _ (by simp [HG_TRIG_STAT_LATE])
      (.inr (.inr (by simp [HG_TRIG_STAT_FIRED, HG_TRIG_STAT_LATE]))), h.fired]
  · rw [only.hg, h.dt]
  · rw [is_congr (f := HG_TRIG_STAT_LATE n) (kept stat), is_putB _ _ _ (by simp [HG_TRIG_STAT_LATE]) rfl]

/-! ### The write of HG_TRIG_CFG (R77, R82, R94) -/

/-- HG_TRIG_CFG[n] takes MODE and POL, and DIV is staged. -/
def State.trigCfgSet (s : State) (n : Nat) (v : Word) : State :=
  { (s.put (HG_TRIG_CFG_MODE n) (v.toNat % 4)).putB (HG_TRIG_CFG_POL n) (v.getLsbD 2) with
      staged := spPut (fun _ => none) s.staged (HG_TRIG_CFG n) (some (v &&& 0xF0)) }

/-- The trigger leaves its mode: ARM clears, and what the mode held is gone. -/
def State.modeLeft (s : State) (n : Nat) : State :=
  (s.disarm n).setTrig n { (s.disarm n).trig n with turnEdges := [], last := none }

/-- The write of `v` to HG_TRIG_CFG[n], before ARM acts. -/
def State.trigModeSet (s : State) (n : Nat) (v : Word) : State :=
  if s.get (HG_TRIG_CFG_MODE n) = v.toNat % 4 then s.trigCfgSet n v
  else if v.toNat % 4 = 3 then ((s.trigCfgSet n v).modeLeft n).enterTurnMode n
  else (s.trigCfgSet n v).modeLeft n

theorem trigCfg_eq (s : State) (n : Nat) (v : Word) : s.trigCfg n v =
    if v.getLsbD 3 && !(s.trigModeSet n v).is (HG_TRIG_CFG_ARM n) then
      if v.toNat % 4 = 1 then (s.trigModeSet n v).armOneShot n
      else if v.toNat % 4 = 2 then (s.trigModeSet n v).armPeriodic n else s.trigModeSet n v
    else s.trigModeSet n v := rfl

theorem reg_trigCfgSet (s : State) (n : Nat) (v : Word) (o : Nat) : (s.trigCfgSet n v).reg o =
    ((s.put (HG_TRIG_CFG_MODE n) (v.toNat % 4)).putB (HG_TRIG_CFG_POL n) (v.getLsbD 2)).reg o := rfl

theorem arm_trigCfgSet (s : State) (n : Nat) (v : Word) : (s.trigCfgSet n v).is (HG_TRIG_CFG_ARM n) = s.is (HG_TRIG_CFG_ARM n) := by
  rw [is_congr (reg_trigCfgSet s n v _),
    is_putB_ne _ _ _ _ (by simp [HG_TRIG_CFG_POL]) (.inr (.inl (by simp [HG_TRIG_CFG_POL, HG_TRIG_CFG_ARM]))),
    is_put_ne _ _ _ _ (by simp [HG_TRIG_CFG_MODE]) (.inr (.inl (by simp [HG_TRIG_CFG_MODE, HG_TRIG_CFG_ARM])))]

theorem mode_trigCfgSet (s : State) (n : Nat) (v : Word) : (s.trigCfgSet n v).get (HG_TRIG_CFG_MODE n) = v.toNat % 4 := by
  rw [get_congr (reg_trigCfgSet s n v _), State.putB,
    get_put_ne _ _ _ _ (by simp [HG_TRIG_CFG_POL]) (.inr (.inr (by simp [HG_TRIG_CFG_POL, HG_TRIG_CFG_MODE]))),
    get_put _ _ _ (by simp [HG_TRIG_CFG_MODE])]
  exact Nat.mod_eq_of_lt (Nat.mod_lt _ (by decide))

theorem regsKept_trigCfgSet (s : State) (n : Nat) (v : Word) : RegsKept [HG_TRIG_CFG n] s (s.trigCfgSet n v) := by
  intro o ho
  have ne : HG_TRIG_CFG n ≠ o := fun e => ho (List.mem_singleton.2 e.symm)
  rw [reg_trigCfgSet, reg_putB_ne _ _ ne, reg_put_ne _ _ ne]

/-- What a write of HG_TRIG_CFG[n] to a mode other than TURN leaves of a trigger that is not armed, before ARM acts. -/
structure ModeSet (s t : State) (n mode : Nat) : Prop where
  frame : OnlyTrigger s t
  regs : RegsKept [HG_TRIG_CFG n] s t
  mode : t.get (HG_TRIG_CFG_MODE n) = mode
  arm : t.is (HG_TRIG_CFG_ARM n) = false
  pulse : (t.trig n).pulseEnd = (s.trig n).pulseEnd
  dt : t.hg.dt = s.hg.dt

theorem modeSet_trigModeSet {s : State} {n : Nat} {v : Word} (hm : v.toNat % 4 ≠ 3) (ha : s.is (HG_TRIG_CFG_ARM n) = false) :
    ModeSet s (s.trigModeSet n v) n (v.toNat % 4) := by
  have mode := mode_trigCfgSet s n v
  have regs := regsKept_trigCfgSet s n v
  unfold State.trigModeSet
  rw [if_neg hm]
  split
  · exact ⟨rfl, regs, mode, (arm_trigCfgSet s n v).trans ha, rfl, rfl⟩
  · obtain ⟨arm, trig⟩ := disarm_off (s.trigCfgSet n v) n
    refine ⟨rfl, regs.trans (regsKept_disarm _ n), ?_, arm, ?_, rfl⟩
    · exact (get_disarm_ne _ _ (.inr (.inr (by simp [HG_TRIG_CFG_MODE])))).trans mode
    · rw [State.modeLeft, trig_setTrig, trig]
      rfl

/-- A write of ONE_SHOT with ARM to a trigger that is not armed arms it. -/
theorem trigCfg_oneShot {s : State} {n : Nat} {v : Word} (hm : v.toNat % 4 = 1) (hv : v.getLsbD 3 = true)
    (ha : s.is (HG_TRIG_CFG_ARM n) = false) : s.trigCfg n v = (s.trigModeSet n v).armOneShot n := by
  have set := modeSet_trigModeSet (n := n) (v := v) (by omega) ha
  rw [trigCfg_eq, hv, set.arm, hm]
  rfl

/-! ### TRIGGER_ARM (R77) -/

theorem exec_triggerArm {iid : Iid} {n : Fin 16} {s : State} (v : Word) (hw : s.writeOk iid (HG_TRIG_CFG n) = true) :
    exec (.triggerArm iid n v) s = s.done (s.trigCfg n v) := by
  show s.done (s.writeWith iid (HG_TRIG_CFG n) fun s => s.trigCfg n v) = _
  rw [writeWith_ok hw]

/-- The compare of trigger n is not moved by a write of its configuration. -/
theorem ModeSet.diff {s t : State} {n mode : Nat} (h : ModeSet s t n mode) :
    cmpDiff t.now (t.trigCmp n) = cmpDiff s.now (s.trigCmp n) := by
  have kept {o : Nat} (ho : o ≠ HG_TRIG_CFG n) : t.reg o = s.reg o := h.regs o (by simpa using ho)
  rw [State.now, h.dt, trigCmp_congr (kept (by simp only [HG_TRIG_CMP_LO, HG_TRIG_CFG]; omega))
    (kept (by simp only [HG_TRIG_CMP_LO, HG_TRIG_CFG]; omega)), State.now]

/-- ARM is on, in the register and in the trigger. -/
def State.armOn (s : State) (n : Nat) : State := (s.setTrig n { s.trig n with armed := true }).putB (HG_TRIG_CFG_ARM n) true

theorem armOneShot_eq (s : State) (n : Nat) : s.armOneShot n =
    if 0 ≤ cmpDiff s.now (s.trigCmp n) then (((s.armOn n).trigPulse n).disarm n).trigLate n else s.armOn n := rfl

theorem trig_armOn (s : State) (n : Nat) : (s.armOn n).trig n = { s.trig n with armed := true } :=
  (trig_putB _ _ _ _).trans (trig_setTrig _ _ _)

theorem triggerArm_waits {iid : Iid} {n : Fin 16} {v : Word} {s : State} (hw : s.writeOk iid (HG_TRIG_CFG n) = true)
    (hm : v.toNat % 4 = 1) (hv : v.getLsbD 3 = true) (ha : s.is (HG_TRIG_CFG_ARM n) = false)
    (hd : cmpDiff s.now (s.trigCmp n) < 0) : Completes (.triggerArm iid n v) s fun t =>
      t.is (HG_TRIG_CFG_ARM n) = true ∧ (t.trig n).armed = true ∧ t.get (HG_TRIG_CFG_MODE n) = 1 ∧
      t.reg (HG_TRIG_STAT n) = s.reg (HG_TRIG_STAT n) ∧ (t.trig n).pulseEnd = (s.trig n).pulseEnd := by
  have set := modeSet_trigModeSet (n := n) (v := v) (by omega) ha
  have waits : s.trigCfg n v = (s.trigModeSet n v).armOn n := by
    rw [trigCfg_oneShot hm hv ha, armOneShot_eq, set.diff, if_neg (Int.not_le.2 hd)]
  refine completes_of_onlyTrigger ((exec_triggerArm v hw).trans (congrArg s.done waits))
    (set.frame.trans (rfl : OnlyTrigger (s.trigModeSet n v) ((s.trigModeSet n v).armOn n))) ⟨?_, ?_, ?_, ?_, ?_⟩
  · exact is_putB _ _ _ (by simp [HG_TRIG_CFG_ARM]) rfl
  · rw [trig_armOn]
  · exact (get_put_ne _ _ _ _ (by simp [HG_TRIG_CFG_ARM]) (.inr (.inr (by simp [HG_TRIG_CFG_ARM, HG_TRIG_CFG_MODE])))).trans
      (set.mode.trans hm)
  · exact (reg_putB_ne _ _ (trigCfg_ne_trigStat n)).trans (set.regs _ (by simpa using (trigCfg_ne_trigStat n).symm))
  · rw [trig_armOn, ← set.pulse]

theorem triggerArm_firesLate {iid : Iid} {n : Fin 16} {v : Word} {s : State} (hw : s.writeOk iid (HG_TRIG_CFG n) = true)
    (hm : v.toNat % 4 = 1) (hv : v.getLsbD 3 = true) (ha : s.is (HG_TRIG_CFG_ARM n) = false)
    (hd : 0 ≤ cmpDiff s.now (s.trigCmp n)) (hp : (s.trig n).pulseEnd = none) : Completes (.triggerArm iid n v) s fun t =>
      t.is (HG_TRIG_CFG_ARM n) = false ∧ (t.trig n).armed = false ∧ t.is (HG_TRIG_STAT_LATE n) = true ∧
      t.get (HG_TRIG_STAT_FIRED n) = (s.get (HG_TRIG_STAT_FIRED n) + 1) % 65536 ∧ t.reg GLB_FAULT_LAST = 0x91004 ∧
      (t.trig n).pulseEnd = some (s.hg.dt + (s.reg (HG_TRIG_WIDTH n)).toNat * 256) := by
  have set := modeSet_trigModeSet (n := n) (v := v) (by omega) ha
  have fires : s.trigCfg n v = ((((s.trigModeSet n v).armOn n).trigPulse n).disarm n).trigLate n := by
    rw [trigCfg_oneShot hm hv ha, armOneShot_eq, set.diff, if_pos hd]
  have idle : (((s.trigModeSet n v).armOn n).trig n).pulseEnd = none := by rw [trig_armOn, ← hp, ← set.pulse]
  obtain ⟨done, late, last⟩ := (oneShotDone_disarm idle).late
  have kept {o : Nat} (ho : HG_TRIG_CFG n ≠ o) : ((s.trigModeSet n v).armOn n).reg o = s.reg o :=
    (reg_putB_ne _ _ ho).trans (set.regs _ (by simpa using ho.symm))
  have fired : ((s.trigModeSet n v).armOn n).get (HG_TRIG_STAT_FIRED n) = s.get (HG_TRIG_STAT_FIRED n) :=
    get_congr (kept (trigCfg_ne_trigStat n))
  have frame := (set.frame.trans (rfl : OnlyTrigger (s.trigModeSet n v) ((s.trigModeSet n v).armOn n))).trans done.frame
  refine completes_of_onlyTrigger ((exec_triggerArm v hw).trans (congrArg s.done fires)) frame
    ⟨done.arm, done.armed, late, fired ▸ done.fired, last, ?_⟩
  rw [done.pulse, kept (by simp only [HG_TRIG_CFG, HG_TRIG_WIDTH]; omega)]
  exact congrArg (fun u => some (u + _)) set.dt

/-! ### TRIGGER_EDGE, TRIGGER_CMP_WRITE and TRIGGER_PULSE_END (R76-R78, R81) -/

/-- A compare that lies ahead fires after this nanosecond. -/
theorem now_lt_cmpInstant {now cmp : Nat} (h : cmpDiff now cmp < 0) : now < cmpInstant now cmp := by
  unfold cmpInstant
  omega

theorem trigEdge_oneShot {s : State} {n : Nat} (hm : s.get (HG_TRIG_CFG_MODE n) = 1) (ha : (s.trig n).armed = true) :
    s.trigEdge n = ((s.advanceTo (cmpInstant s.now (s.trigCmp n) * 256)).trigPulse n).trigNext n := by
  have due : s.trigDue n = some (cmpInstant s.now (s.trigCmp n)) := if_pos ⟨hm, ha⟩
  rw [State.trigEdge, due]

theorem trigNext_oneShot {s : State} {n : Nat} (hm : s.get (HG_TRIG_CFG_MODE n) = 1) : s.trigNext n = s.disarm n := if_pos hm

theorem triggerEdge_fires {n : Fin 16} {s : State} (hm : s.get (HG_TRIG_CFG_MODE n) = 1) (ha : (s.trig n).armed = true)
    (hr : s.hg.running = true) (hd : cmpDiff s.now (s.trigCmp n) < 0) (hp : (s.trig n).pulseEnd = none) :
    Completes (.triggerEdge n) s fun t =>
      t.hg.dt = cmpInstant s.now (s.trigCmp n) * 256 ∧ t.is (HG_TRIG_CFG_ARM n) = false ∧ (t.trig n).armed = false ∧
      t.get (HG_TRIG_STAT_FIRED n) = (s.get (HG_TRIG_STAT_FIRED n) + 1) % 65536 ∧
      (t.trig n).pulseEnd = some (t.hg.dt + (s.reg (HG_TRIG_WIDTH n)).toNat * 256) := by
  have later := now_lt_cmpInstant hd
  have fires := trigEdge_oneShot hm ha
  generalize cmpInstant s.now (s.trigCmp n) = ns at later fires ⊢
  have ahead : s.hg.dt < ns * 256 := by
    rw [State.now] at later
    omega
  obtain ⟨dt, -⟩ := advanceTo_ahead hr ahead 0
  have reg (o : Nat) := reg_advanceTo s (ns * 256) o
  have idle : ((s.advanceTo (ns * 256)).trig n).pulseEnd = none := by rw [trig_advanceTo, hp]
  have mode : ((s.advanceTo (ns * 256)).trigPulse n).get (HG_TRIG_CFG_MODE n) = 1 :=
    (get_congr ((edgeFalls_trigPulse idle).regs _ (by simpa [HG_TRIG_CFG_MODE] using trigCfg_ne_trigStat n))).trans
      ((get_congr (reg _)).trans hm)
  rw [trigNext_oneShot mode] at fires
  have done := oneShotDone_disarm idle
  have now := done.dt.trans dt
  refine completes_of_onlyTrigger (congrArg s.done fires) ((onlyTrigger_advanceTo s _).trans done.frame)
    ⟨now, done.arm, done.armed, ?_, ?_⟩
  · rw [done.fired, get_congr (f := HG_TRIG_STAT_FIRED n) (reg _)]
  · rw [done.pulse, reg, ← done.dt]

theorem exec_triggerCmpWrite {iid : Iid} {n : Fin 16} {s : State} (hi : Word) (hw : s.writeOk iid (HG_TRIG_CMP_HI n) = true) :
    exec (.triggerCmpWrite iid n hi) s = s.done ((s.dropLo iid.toNat (HG_TRIG_CMP_LO n)).trigCmpPlace n
      (s.pairValue iid.toNat (HG_TRIG_CMP_LO n) hi)) := by
  show s.done (s.writeWith iid (HG_TRIG_CMP_HI n) fun s =>
    (s.dropLo iid.toNat (HG_TRIG_CMP_LO n)).trigCmpPlace n (s.pairValue iid.toNat (HG_TRIG_CMP_LO n) hi)) = _
  rw [writeWith_ok hw]

/-- Where no one-shot is armed, a new compare value is placed and nothing fires. -/
theorem trigCmpPlace_quiet {s : State} {n : Nat} (v : Nat) (h : s.get (HG_TRIG_CFG_MODE n) ≠ 1 ∨ (s.trig n).armed = false) :
    s.trigCmpPlace n v = s.setPair (HG_TRIG_CMP_LO n) (v % 2 ^ 40) := by
  have mode : (s.setPair (HG_TRIG_CMP_LO n) (v % 2 ^ 40)).get (HG_TRIG_CFG_MODE n) = s.get (HG_TRIG_CFG_MODE n) :=
    get_congr (reg_setPair_ne _ _ (by simp only [HG_TRIG_CMP_LO, HG_TRIG_CFG_MODE, HG_TRIG_CFG]; omega)
      (by simp only [HG_TRIG_CMP_LO, HG_TRIG_CFG_MODE, HG_TRIG_CFG]; omega))
  refine if_neg fun ⟨oneShot, armed, _⟩ => ?_
  rcases h with h | h
  · exact h (mode.symm.trans oneShot)
  · exact Bool.false_ne_true (h.symm.trans armed)

theorem triggerCmpWrite_places {iid : Iid} {n : Fin 16} {hi : Word} {s : State} (hw : s.writeOk iid (HG_TRIG_CMP_HI n) = true)
    (h : s.get (HG_TRIG_CFG_MODE n) ≠ 1 ∨ (s.trig n).armed = false) : Completes (.triggerCmpWrite iid n hi) s fun t =>
      t.pair (HG_TRIG_CMP_LO n) = s.pairValue iid.toNat (HG_TRIG_CMP_LO n) hi % 2 ^ 40 ∧ t.hg = s.hg ∧
      RegsKept [HG_TRIG_CMP_LO n, HG_TRIG_CMP_HI n] s t := by
  have places := trigCmpPlace_quiet (s := s.dropLo iid.toNat (HG_TRIG_CMP_LO n)) (s.pairValue iid.toNat (HG_TRIG_CMP_LO n) hi) h
  have high : HG_TRIG_CMP_LO n + 4 = HG_TRIG_CMP_HI n := by
    simp only [HG_TRIG_CMP_LO, HG_TRIG_CMP_HI]
    omega
  refine completes_of_kept ((exec_triggerCmpWrite hi hw).trans (congrArg s.done places)) (setPair_pending _ _ _)
    (setPair_boot _ _ _) ⟨?_, setPair_hg _ _ _, high ▸ regsKept_setPair (s.dropLo iid.toNat (HG_TRIG_CMP_LO n)) _ _⟩
  rw [pair_setPair]
  exact Nat.mod_eq_of_lt ((Nat.mod_lt _ (by decide)).trans (by decide))

/-- Where the pin has not been handed over, the end of a pulse is the trigger's alone. -/
theorem trigPulseEnd_ends {s : State} {n e : Nat} (he : (s.trig n).pulseEnd = some e) (ho : s.sv.oeLate.testBit n = false) :
    s.trigPulseEnd n = (s.advanceTo e).setTrig n { (s.advanceTo e).trig n with pulseEnd := none } := by
  have late : (s.advanceTo e).sv.oeLate.testBit n = false := by
    rw [onlyHg_advanceTo]
    exact ho
  simp only [State.trigPulseEnd, he, setTrig_sv, late, Bool.false_eq_true, if_false]

theorem triggerPulseEnd_ends {n : Fin 16} {e : Nat} {s : State} (he : (s.trig n).pulseEnd = some e)
    (ho : s.sv.oeLate.testBit n = false) : Completes (.triggerPulseEnd n) s fun t =>
      (t.trig n).pulseEnd = none ∧ t.trigPin n = s.is (HG_TRIG_CFG_POL n) ∧ (s.hg.running = true → e ≤ t.hg.dt) := by
  have ends := trigPulseEnd_ends he ho
  have pulse : (((s.advanceTo e).setTrig n { (s.advanceTo e).trig n with pulseEnd := none }).trig n).pulseEnd = none := by
    rw [trig_setTrig]
  refine completes_of_onlyTrigger (congrArg s.done ends) ((onlyTrigger_advanceTo s e).trans (onlyTrigger_setTrig _ _ _))
    ⟨pulse, ?_, le_dt_advanceTo s e⟩
  rw [State.trigPin, pulse, setTrig_is, is_congr (reg_advanceTo s e _)]
  exact Bool.false_bne _

/-- Settles O25: a one-shot has one edge, at its target or late, and what is not an edge leaves its pulse alone. -/
theorem oneShotTriggers : Obligations.OneShotTriggers := by
  unfold Obligations.OneShotTriggers
  exact ⟨fun iid n v s hw hm hv ha => ⟨triggerArm_waits hw hm hv ha, triggerArm_firesLate hw hm hv ha⟩,
    fun n s => triggerEdge_fires, fun iid n hi s => triggerCmpWrite_places, fun n e s => triggerPulseEnd_ends⟩

end Sys2Proof.Machine
end

section
/-! Ethernet frames: received, sent, and waiting for the SerDes lock (O37). -/

namespace Sys2Proof.Machine

open Reg

/-! ### Frames received (R119, R120) -/

/-- A frame of which no bytes land in the Frame Store. -/
theorem frameIn_unlanded {s t : State} {f : List Byte} {ok : Bool} (h : s.ethReceive f ok = (t, none)) : s.frameIn f ok = t := by
  rw [State.frameIn, h]
  rfl

theorem frameIn_badFcs {s : State} {f : List Byte} (he : s.is SP_ETH_CFG_EN = true) :
    s.frameIn f false = s.bump SP_ETH_STAT_FCS_ERR :=
  frameIn_unlanded (by rw [State.ethReceive, he]; rfl)

theorem frameIn_discarded {s : State} {f : List Byte} (he : s.is SP_ETH_CFG_EN = true)
    (h : 9216 < f.length ∨ (ethParse f).bad = true ∨ s.ethForMe f = false) : s.frameIn f true = s := by
  have bad : (decide (9216 < f.length) || (ethParse f).bad || !s.ethForMe f) = true := by
    rcases h with h | h | h <;> simp [h]
  refine frameIn_unlanded ?_
  rw [State.ethReceive, he, bad]
  rfl

theorem frameIn_forMc {s : State} {f : List Byte} (he : s.is SP_ETH_CFG_EN = true) (hl : f.length ≤ 9216)
    (hb : (ethParse f).bad = false) (hm : s.ethForMe f = true) (hp : ptpAt f = none) (hu : (ethParse f).udp = none) :
    s.frameIn f true = s.mcQueue (untag f) := by
  have good : (decide (9216 < f.length) || (ethParse f).bad || !s.ethForMe f) = false := by
    rw [hb, hm, decide_eq_false (Nat.not_lt.2 hl)]
    rfl
  refine frameIn_unlanded ?_
  rw [State.ethReceive, he, good, hp, hu]
  rfl

/-- The MC's queue takes the frame, or the drop is counted (log entry 2). -/
theorem mcQueue_cases (s : State) (f : List Byte) :
    s.mcQueue f = { s.took with eth := { s.eth with mcRx := s.eth.mcRx ++ [f] } } ∨
      s.mcQueue f = s.took.bump SP_ETH_STAT_MC_DROP := by
  unfold State.mcQueue
  split
  · exact .inr rfl
  · exact .inl rfl

/-- A saturating count of one register. -/
theorem regsKept_bump (s : State) {f : Fld} {o : Nat} (n : Nat) (h : f.off = o) : RegsKept [o] s (s.bump f n) := regsKept_put s _ h

theorem ethFrameReceive_forMc {s : State} {f : List Byte} (he : s.is SP_ETH_CFG_EN = true) (hl : f.length ≤ 9216)
    (hb : (ethParse f).bad = false) (hm : s.ethForMe f = true) (hp : ptpAt f = none) (hu : (ethParse f).udp = none) :
    Completes (.ethFrameReceive f true) s fun t =>
      (t.eth.mcRx = s.eth.mcRx ++ [untag f] ∧ t.regs = s.regs) ∨
      (t.eth = s.eth ∧ RegsKept [SP_ETH_STAT] s t ∧
        t.get SP_ETH_STAT_MC_DROP = min (s.get SP_ETH_STAT_MC_DROP + 1) (2 ^ SP_ETH_STAT_MC_DROP.w - 1)) := by
  have queues := frameIn_forMc he hl hb hm hp hu
  rcases mcQueue_cases s (untag f) with taken | dropped
  · exact completes_of_kept (congrArg s.done (queues.trans taken)) rfl rfl (.inl ⟨rfl, rfl⟩)
  · exact completes_of_kept (congrArg s.done (queues.trans dropped)) rfl rfl
      (.inr ⟨rfl, regsKept_bump s.took _ rfl, get_bump s.took _ _ (by decide)⟩)

theorem ethFrameReceive_badFcs {s : State} (f : List Byte) (he : s.is SP_ETH_CFG_EN = true) :
    Completes (.ethFrameReceive f false) s fun t => OnlyRegs s t ∧ RegsKept [SP_ETH_STAT] s t ∧
      t.get SP_ETH_STAT_FCS_ERR = min (s.get SP_ETH_STAT_FCS_ERR + 1) (2 ^ SP_ETH_STAT_FCS_ERR.w - 1) :=
  completes_of_onlyRegs (congrArg s.done (frameIn_badFcs he)) (onlyRegs_setReg _ _ _)
    ⟨onlyRegs_setReg _ _ _, regsKept_bump s _ rfl, get_bump s _ _ (by decide)⟩

/-! ### Frames sent (R86-R89) -/

/-- What the sending of frames touches: registers, the Hourglass's FIFOs and what has left the device. -/
def OnlySent (s t : State) : Prop := t = { s with regs := t.regs, hg := t.hg, outbox := t.outbox }

theorem OnlySent.trans {s t u : State} (h : OnlySent s t) (k : OnlySent t u) : OnlySent s u := by
  unfold OnlySent at *
  rw [k, h]

theorem OnlySent.eth {s t : State} (h : OnlySent s t) : t.eth = s.eth := (congrArg State.eth h :)
theorem OnlySent.pending {s t : State} (h : OnlySent s t) : t.pending = s.pending := (congrArg State.pending h :)
theorem OnlySent.boot {s t : State} (h : OnlySent s t) : t.boot = s.boot := (congrArg State.boot h :)

theorem OnlyRegs.onlySent {s t : State} (h : OnlyRegs s t) : OnlySent s t := by
  unfold OnlyRegs at h
  rw [h]
  rfl

/-- A timestamp is refused by a full FIFO, or enters one of the Hourglass (R87). -/
theorem hgStamp_cases (s : State) (rx : Bool) (e : TsEntry) :
    s.hgStamp rx e = (s.putB HG_TS_STAT_OVF true).report 0x100A hgIid ∨ ∃ h : Hg, s.hgStamp rx e = { s with hg := h } := by
  unfold State.hgStamp
  by_cases full : 16 ≤ (if rx then s.hg.tsRx else s.hg.tsTx).length
  · exact .inl (if_pos full)
  · rw [if_neg full]
    cases rx with
    | true => exact .inr ⟨_, rfl⟩
    | false => exact .inr ⟨_, rfl⟩

theorem onlySent_hgStamp (s : State) (rx : Bool) (e : TsEntry) : OnlySent s (s.hgStamp rx e) := by
  rcases hgStamp_cases s rx e with refused | ⟨h, enters⟩
  · rw [refused]
    exact ((onlyRegs_setReg _ _ _).report _ _).onlySent
  · rw [enters]
    rfl

theorem onlySent_ethSend (s : State) (f : List Byte) (o : Bool) : OnlySent s (s.ethSend f o) := by
  have sent (x : Out) : OnlySent s (s.emit x) := rfl
  unfold State.ethSend
  split
  · exact sent _
  · split
    · exact sent _
    · split
      · exact sent _
      · exact (sent _).trans (onlySent_hgStamp _ _ _)

/-- A frame that is no PTP message just leaves. -/
theorem ethSend_plain {s : State} {f : List Byte} (h : ptpAt f = none) (o : Bool) : s.ethSend f o = s.emit (.ethFrame f) := by
  rw [State.ethSend, h]

theorem ethFrameTransmit_sends {s : State} {f : List Byte} (he : s.is SP_ETH_CFG_EN = true) (o : Bool) (hl : s.eth.locked = true)
    (hp : ptpAt f = none) : Completes (.ethFrameTransmit f o) s fun t => t = { s with outbox := .ethFrame f :: s.outbox } := by
  have sends : s.ethTransmit f o = s.emit (.ethFrame f) := by
    rw [State.ethTransmit, he, hl, ethSend_plain hp]
    rfl
  exact completes_of_kept (congrArg s.done sends) rfl rfl rfl

theorem ethFrameTransmit_waits {s : State} {f : List Byte} (he : s.is SP_ETH_CFG_EN = true) (o : Bool) (hl : s.eth.locked = false) :
    Completes (.ethFrameTransmit f o) s fun t =>
      t = { s with eth := { s.eth with txWait := s.eth.txWait ++ [(s.hg.dt, o, f)] } } := by
  have waits : s.ethTransmit f o = { s with eth := { s.eth with txWait := s.eth.txWait ++ [(s.hg.dt, o, f)] } } := by
    rw [State.ethTransmit, he, hl]
    rfl
  exact completes_of_kept (congrArg s.done waits) rfl rfl rfl

/-! ### The SerDes lock (R89) -/

/-- Waiting frames leave one after another. -/
def State.sendAll (s : State) (q : List (Nat × Bool × List Byte)) : State := q.foldl (fun s w => s.ethSend w.2.2 w.2.1) s

theorem ethLock_eq (s : State) : s.ethLock =
    State.sendAll { s with eth := { s.eth with txWait := [], locked := true } } s.eth.txWait := rfl

theorem onlySent_sendAll (s : State) (q : List (Nat × Bool × List Byte)) : OnlySent s (s.sendAll q) := by
  induction q generalizing s with
  | nil => rfl
  | cons w r ih => exact (onlySent_ethSend s _ _).trans (ih _)

/-- With no PTP message among them, the frames leave in order and nothing is stamped. -/
theorem sendAll_plain (s : State) {q : List (Nat × Bool × List Byte)} (h : ∀ w ∈ q, ptpAt w.2.2 = none) :
    s.sendAll q = { s with outbox := (q.map fun w => Out.ethFrame w.2.2).reverse ++ s.outbox } := by
  induction q generalizing s with
  | nil => rfl
  | cons w r ih =>
    obtain ⟨first, rest⟩ := List.forall_mem_cons.1 h
    have sends : s.sendAll (w :: r) = (s.emit (.ethFrame w.2.2)).sendAll r := congrArg (State.sendAll · r) (ethSend_plain first _)
    rw [sends, ih _ rest, List.map_cons, List.reverse_cons, List.append_assoc]
    rfl

theorem ethSerdesLockReturn_sends (s : State) : Completes .ethSerdesLockReturn s fun t =>
    t.eth.locked = true ∧ t.eth.txWait = [] ∧ t.eth.mcRx = s.eth.mcRx ∧
    ((∀ w ∈ s.eth.txWait, ptpAt w.2.2 = none) →
      t.outbox = (s.eth.txWait.map fun w => Out.ethFrame w.2.2).reverse ++ s.outbox ∧ t.regs = s.regs) := by
  have sent := onlySent_sendAll { s with eth := { s.eth with txWait := [], locked := true } } s.eth.txWait
  refine completes_of_kept (congrArg s.done (ethLock_eq s)) sent.pending sent.boot ⟨?_, ?_, ?_, fun plain => ?_⟩
  · rw [sent.eth]
  · rw [sent.eth]
  · rw [sent.eth]
  · rw [sendAll_plain _ plain]
    exact ⟨rfl, rfl⟩

/-! ### PTP_TX_DROP (R89) -/

/-- A PTP message that waits too long: it leaves the queue and is counted. -/
def State.ptpDropped (s : State) (q : List (Nat × Bool × List Byte)) : State :=
  State.bump { s with eth := { s.eth with txWait := q } } HG_TS_STAT_TX_DROP

theorem ptpDrop_eq {s : State} {u : Nat} {q : List (Nat × Bool × List Byte)} (hl : s.eth.locked = false)
    (hq : takePtp s.eth.txWait = some (u, q)) :
    s.ptpDrop = ((s.advanceTo (u + 51200000)).ptpDropped q).report 0x1009 hgIid := by
  rw [State.ptpDrop, hl, hq]
  rfl

/-- Device Time runs on to an instant, or is past it, or does not run. -/
theorem dt_advanceTo (s : State) (t : Nat) : (s.advanceTo t).hg.dt = if s.hg.running then max s.hg.dt t else s.hg.dt := by
  by_cases hr : s.hg.running = true
  · rw [if_pos hr]
    by_cases ht : s.hg.dt < t
    · rw [(advanceTo_ahead hr ht 0).1]
      omega
    · rw [State.advanceTo, if_neg fun h => ht h.2]
      omega
  · rw [State.advanceTo, if_neg fun h => hr h.1, if_neg hr]

theorem ptpTxDrop_drops {s : State} {u : Nat} {q : List (Nat × Bool × List Byte)} (hl : s.eth.locked = false)
    (hq : takePtp s.eth.txWait = some (u, q)) : Completes .ptpTxDrop s fun t =>
      t.eth = { s.eth with txWait := q } ∧ t.reg GLB_FAULT_LAST = 0x91009 ∧
      RegsKept [HG_TS_STAT, GLB_FAULT_FIRST, GLB_FAULT_LAST, GLB_FAULT_COUNT] s t ∧
      t.get HG_TS_STAT_TX_DROP = min (s.get HG_TS_STAT_TX_DROP + 1) (2 ^ HG_TS_STAT_TX_DROP.w - 1) ∧
      t.hg.dt = if s.hg.running then max s.hg.dt (u + 51200000) else s.hg.dt := by
  have only := onlyRegs_report ((s.advanceTo (u + 51200000)).ptpDropped q) 0x1009 hgIid
  have dropped : ((s.advanceTo (u + 51200000)).ptpDropped q).eth = { s.eth with txWait := q } := by
    rw [onlyHg_advanceTo]
    rfl
  have kept : RegsKept [HG_TS_STAT] s ((s.advanceTo (u + 51200000)).ptpDropped q) := fun o ho =>
    (reg_bump_ne _ _ fun e => ho (List.mem_singleton.2 e.symm)).trans (reg_advanceTo s _ o)
  have count : ((s.advanceTo (u + 51200000)).ptpDropped q).get HG_TS_STAT_TX_DROP =
      min (s.get HG_TS_STAT_TX_DROP + 1) (2 ^ HG_TS_STAT_TX_DROP.w - 1) := by
    rw [State.ptpDropped, get_bump _ _ _ (by decide)]
    exact congrArg (fun v => min (v + 1) _) (get_congr (reg_advanceTo s _ _))
  have queue := onlyTrigger_advanceTo s (u + 51200000)
  refine completes_of_kept (congrArg s.done (ptpDrop_eq hl hq)) (only.pending.trans queue.pending) (only.boot.trans queue.boot)
    ⟨only.eth.trans dropped, report_last _ _ _, fun o ho => ?_, ?_, ?_⟩
  · obtain ⟨stat, faults⟩ : o ≠ HG_TS_STAT ∧ o ∉ [GLB_FAULT_FIRST, GLB_FAULT_LAST, GLB_FAULT_COUNT] := by simpa using ho
    exact (regsKept_report _ _ _ o faults).trans (kept o (by simpa using stat))
  · rw [get_congr (f := HG_TS_STAT_TX_DROP) (reg_report (by decide) _ _ _), count]
  · exact (congrArg Hg.dt only.hg :).trans (dt_advanceTo s _)

/-- Settles O37: reception decides by the frame alone, sending by the lock, and what waits leaves in order or is dropped alone. -/
theorem ethernetFramesMove : Obligations.EthernetFramesMove := by
  unfold Obligations.EthernetFramesMove
  refine ⟨fun f s he => ⟨ethFrameReceive_badFcs f he, fun h => ?_, ethFrameReceive_forMc he, ethFrameTransmit_sends he,
    ethFrameTransmit_waits he⟩, fun s => ?_, ethSerdesLockReturn_sends, fun u q s => ptpTxDrop_drops⟩
  · exact (congrArg s.done (frameIn_discarded he h)).trans (done_self s)
  · exact completes_of_kept (t := { s with eth := { s.eth with locked := false } }) rfl rfl rfl rfl

end Sys2Proof.Machine
end

section
/-! What lands in the Frame Store: lines of framed streams, and lost synchronisation (O31). -/

namespace Sys2Proof.Machine

open Reg

/-! ### What landing touches (R103, R732) -/

/-- `t` differs from `s` in registers, in the Frame Store and in the count of free values alone. -/
def OnlyLanded (s t : State) : Prop := t = { s with regs := t.regs, fs := t.fs, fsBad := t.fsBad, freeCtr := t.freeCtr }

theorem OnlyLanded.trans {s t u : State} (h : OnlyLanded s t) (k : OnlyLanded t u) : OnlyLanded s u := by
  unfold OnlyLanded at *
  rw [k, h]

theorem OnlyLanded.pending {s t : State} (h : OnlyLanded s t) : t.pending = s.pending := (congrArg State.pending h :)
theorem OnlyLanded.boot {s t : State} (h : OnlyLanded s t) : t.boot = s.boot := (congrArg State.boot h :)
theorem OnlyLanded.hg {s t : State} (h : OnlyLanded s t) : t.hg = s.hg := (congrArg State.hg h :)
theorem OnlyLanded.streams {s t : State} (h : OnlyLanded s t) : t.streams = s.streams := (congrArg State.streams h :)
theorem OnlyLanded.imus {s t : State} (h : OnlyLanded s t) : t.imus = s.imus := (congrArg State.imus h :)
theorem OnlyLanded.ref {s t : State} (h : OnlyLanded s t) : t.ref = s.ref := (congrArg State.ref h :)

theorem OnlyRegs.onlyLanded {s t : State} (h : OnlyRegs s t) : OnlyLanded s t := by
  unfold OnlyRegs at h
  rw [h]
  rfl

/-- One report after another: registers alone, and of them none above the fault registers. -/
theorem reports_frame (l : List Nat) (c i : Nat) (s : State) : OnlyRegs s (l.foldl (fun s _ => s.report c i) s) ∧
    ∀ o, GLB_FAULT_COUNT < o → (l.foldl (fun s _ => s.report c i) s).reg o = s.reg o := by
  induction l generalizing s with
  | nil => exact ⟨.refl s, fun _ _ => rfl⟩
  | cons w r ih =>
    obtain ⟨only, kept⟩ := ih (s.report c i)
    exact ⟨(onlyRegs_report s c i).trans only, fun o ho => (kept o ho).trans (reg_report ho s c i)⟩

theorem onlyLanded_fsWrite (s : State) (i a : Nat) (bs : List Byte) (bad : List Nat) : OnlyLanded s (s.fsWrite i a bs bad) := by
  unfold State.fsWrite
  extract_lets part found w0 s1 s2
  have written : OnlyLanded s s1 := rfl
  have reported : OnlyLanded s1 s2 := (reports_frame found 0x5012 i s1).1.onlyLanded
  have marked : OnlyLanded s2 { s2 with fsBad := found.foldl (fun m w => spPut (fun _ => false) m w true) s2.fsBad } := rfl
  exact (written.trans reported).trans marked

/-- The bytes of the Frame Store are the written ones, whatever words are reported. -/
theorem fs_fsWrite_eq (s : State) (i a : Nat) (bs : List Byte) (bad : List Nat) :
    (s.fsWrite i a bs bad).fs = spPuts fsUnset s.fs a bs := by
  unfold State.fsWrite
  extract_lets part found w0 s1 s2
  exact (reports_frame found 0x5012 i s1).1.fs

theorem reg_fsWrite (s : State) (i a : Nat) (bs : List Byte) (bad : List Nat) {o : Nat} (h : GLB_FAULT_COUNT < o) :
    (s.fsWrite i a bs bad).reg o = s.reg o := by
  unfold State.fsWrite
  extract_lets part found w0 s1 s2
  exact (reports_frame found 0x5012 i s1).2 o h

/-- Free values in place of some bytes touch the count of free values alone. -/
theorem blur_eq (s : State) (spans : List (Nat × Nat)) (a : Nat) (bs : List Byte) :
    (s.blur spans a bs).2 = { s with freeCtr := (s.blur spans a bs).2.freeCtr } := by
  induction bs generalizing s a with
  | nil => rfl
  | cons b r ih =>
    unfold State.blur
    dsimp only
    rw [ih]
    split <;> rfl

/-- What lands is a write to the Frame Store, after free values have been taken where it overlaps another user's bytes. -/
theorem land_cases (s : State) (u a : Nat) (bs : List Byte) (bad : List Nat) :
    ∃ (n : Nat) (l : List Byte), s.land u a bs bad = State.fsWrite { s with freeCtr := n } spIid a l bad := by
  unfold State.land
  extract_lets l spans
  split
  · exact ⟨s.freeCtr, _, rfl⟩
  · exact ⟨_, _, congrArg (State.fsWrite · spIid a _ bad) (blur_eq s spans a l)⟩

theorem onlyLanded_land (s : State) (u a : Nat) (bs : List Byte) (bad : List Nat) : OnlyLanded s (s.land u a bs bad) := by
  obtain ⟨n, l, lands⟩ := land_cases s u a bs bad
  have counted : OnlyLanded s { s with freeCtr := n } := rfl
  rw [lands]
  exact counted.trans (onlyLanded_fsWrite _ _ _ _ _)

/-- Bytes that stay within the Frame Store and off every other user's allocation land as they are. -/
theorem land_alone {s : State} {u a : Nat} {bs : List Byte} (bad : List Nat) (hf : a + bs.length ≤ fsSize)
    (ho : ∀ x ∈ s.fsOthers u 70, x.1 + x.2 ≤ a ∨ a + bs.length ≤ x.1) : s.land u a bs bad = s.fsWrite spIid a bs bad := by
  have whole : bs.take (fsSize - a) = bs := List.take_of_length_le (by omega)
  have apart : ((s.fsOthers u 70).filter fun (o, n) => decide (o < a + bs.length ∧ a < o + n)) = [] := by
    refine List.filter_eq_nil_iff.2 fun x hx => ?_
    have := ho x hx
    simp only [decide_eq_true_eq]
    omega
  rw [State.land, whole, apart]
  rfl

/-! ### Streams and allocations -/

theorem stream_setStream (s : State) (n m : Nat) (x : SpStream) : (s.setStream n x).stream m = if n = m then x else s.stream m :=
  spGet_spPut s.streams n m x

@[simp] theorem stream_setStream_same (s : State) (n : Nat) (x : SpStream) : (s.setStream n x).stream n = x := by
  rw [stream_setStream, if_pos rfl]

theorem stream_of_streams {s t : State} (h : t.streams = s.streams) (n : Nat) : t.stream n = s.stream n := by
  simp only [State.stream, h]

theorem reg_of_regs {s t : State} (h : t.regs = s.regs) (o : Nat) : t.reg o = s.reg o := by simp only [State.reg, h]

/-- Who owns which bytes is a matter of the registers. -/
theorem fsOthers_of_regs {s t : State} (h : t.regs = s.regs) (u n : Nat) : t.fsOthers u n = s.fsOthers u n := by
  have alloc (v : Nat) : t.fsAlloc v = s.fsAlloc v := by
    have is (f : Fld) : t.is f = s.is f := is_congr (reg_of_regs h _)
    have get (f : Fld) : t.get f = s.get f := get_congr (reg_of_regs h _)
    simp only [State.fsAlloc, is, get]
  induction n with
  | zero => rfl
  | succ n ih => simp only [State.fsOthers, ih, alloc]

/-! ### A line lands (R108, R110, R111, R114) -/

/-- A packet that a stream takes, of a frame that lands there. -/
theorem spLongPacket_taken {s : State} {p vc dt n k : Nat} {f : SpFrame} (payload : List Byte) (bad : List Nat)
    (he : s.is (SP_PORT_CFG_EN p) = true) (hd : dtSupported dt = true)
    (hs : (s.streamsOf p vc 64).find? (fun q => q.2 == dt) = some (n, dt)) (ho : (s.stream n).opened = some (k, f)) :
    s.spLongPacket p vc dt payload true .ok bad = s.landPacket n k f payload true bad := by
  simp only [State.spLongPacket, he, State.header, hd, hs, ho, Bool.not_true, Bool.false_eq_true, if_false]

/-- The frame `f` with `line` as its next row. -/
structure TakesLine (f g : SpFrame) (line : List Byte) : Prop where
  rows : g.rows = f.rows + 1
  lines : g.lines = min (f.lines + 1) 65535
  bytes : g.bytes = f.bytes + line.length
  flags : g.flags = f.flags

/-- Where a frame's row of `stride` bytes lies (R114; the count of lines received gives the row, log entry 40). -/
def SpFrame.rowAt (f : SpFrame) (stride : Nat) : Nat := f.addr + 64 + f.rows * stride

theorem landPacket_line {s : State} {n k : Nat} {f : SpFrame} {payload line : List Byte} {stride : Nat} (bad : List Nat)
    (h3 : f.format ≠ 3) (h4 : f.format ≠ 4) (hs : stride = bitsOf f.fmt.toNat 8 16 * 64) (hl : line = payload.take stride)
    (hc : 64 + f.rows * stride + line.length ≤ f.cap) :
    ∃ g, TakesLine f g line ∧ s.landPacket n k f payload true bad =
      ((s.setOpen n k g).land n (f.rowAt stride) line bad, some ⟨n, f.rows, f.rowAt stride, line, []⟩) := by
  subst hs hl
  have fits : s.landPacket n k f payload true bad = s.landLine n k f payload bad := by
    simp only [State.landPacket, State.lineCrc, if_true, h3, h4, if_false]
  rw [fits, State.landLine, if_neg (Nat.not_lt.2 hc), ← Nat.add_assoc]
  refine ⟨_, ?_, rfl⟩
  exact ⟨rfl, rfl, rfl, rfl⟩

/-- What holds no CD words reaches no Lace Hoop. -/
theorem laceFeed_nil (s : State) (n : Nat) : s.laceFeed n [] = s := by
  simp only [State.laceFeed, List.foldl_nil, ite_self, List.foldl_fixed]

/-- A disabled Weft paints nothing. -/
theorem weftLand_disabled {s : State} (n row : Nat) (bytes : List Byte) (cds : List Nat) (e : MemErr)
    (h : s.is WF_CTL_EN = false) : s.weftLand n row bytes cds e = s := by
  unfold State.weftLand
  split
  · rfl
  · split
    · rfl
    · dsimp only
      split
      · rfl
      · rw [if_pos (by simp [h])]

theorem landedOn_disabled {s : State} (e : MemErr) {x : Landed} (hx : x.cds = []) (h : s.is WF_CTL_EN = false) :
    s.landedOn e (some x) = s := by
  rw [State.landedOn, hx, laceFeed_nil, weftLand_disabled _ _ _ _ _ h]

/-! ### LONG_PACKET (R108)

The hypotheses of this section: port p is enabled, stream n takes the packet's data type and lands frame `f`, the Weft is disabled,
and `line`, the packet cut to the stride, fits the slot and lies off every other user's bytes. -/

section LineTaken

variable {s : State} {p : Fin 8} {vc : Fin 16} {dt : BitVec 6} {n k : Nat} {f : SpFrame} {payload line : List Byte} {stride : Nat}
  (he : s.is (SP_PORT_CFG_EN p) = true) (hd : dtSupported dt.toNat = true)
  (hs : (s.streamsOf p vc 64).find? (fun q => q.2 == dt.toNat) = some (n, dt.toNat)) (ho : (s.stream n).opened = some (k, f))
  (h3 : f.format ≠ 3) (h4 : f.format ≠ 4) (hw : s.is WF_CTL_EN = false) (hst : stride = bitsOf f.fmt.toNat 8 16 * 64)
  (hl : line = payload.take stride) (hc : 64 + f.rows * stride + line.length ≤ f.cap)
  (hf : f.rowAt stride + line.length ≤ fsSize)
  (ha : ∀ x ∈ s.fsOthers n 70, x.1 + x.2 ≤ f.rowAt stride ∨ f.rowAt stride + line.length ≤ x.1)

include he hd hs ho h3 h4 hw hst hl hc hf ha

theorem packetIn_lands (e : MemErr) : ∃ g, TakesLine f g line ∧
    s.packetIn p vc dt.toNat payload true .ok e = (s.setOpen n k g).fsWrite spIid (f.rowAt stride) line e.fs := by
  obtain ⟨g, takes, lands⟩ := landPacket_line (s := s) (n := n) (k := k) e.fs h3 h4 hst hl hc
  have others : (s.setOpen n k g).fsOthers n 70 = s.fsOthers n 70 := fsOthers_of_regs rfl n 70
  have off : ((s.setOpen n k g).fsWrite spIid (f.rowAt stride) line e.fs).is WF_CTL_EN = false :=
    (is_congr (reg_fsWrite _ _ _ _ _ (by decide))).trans hw
  rw [land_alone e.fs hf (others ▸ ha)] at lands
  refine ⟨g, takes, ?_⟩
  rw [State.packetIn, spLongPacket_taken payload e.fs he hd hs ho, lands]
  exact landedOn_disabled e rfl off

theorem longPacket_lands (e : MemErr) : Completes (.longPacket p vc dt payload true .ok e) s fun t =>
    (∀ i, i < line.length → spGet fsUnset t.fs (f.rowAt stride + i) = line.getD i 0) ∧
    (∀ b, b < f.rowAt stride ∨ f.rowAt stride + line.length ≤ b → spGet fsUnset t.fs b = spGet fsUnset s.fs b) ∧
    (∃ g, (t.stream n).opened = some (k, g) ∧ g.rows = f.rows + 1 ∧ g.lines = min (f.lines + 1) 65535 ∧
      g.bytes = f.bytes + line.length ∧ g.flags = f.flags) ∧ ∀ m, m ≠ n → t.stream m = s.stream m := by
  obtain ⟨g, takes, lands⟩ := packetIn_lands he hd hs ho h3 h4 hw hst hl hc hf ha e
  have frame := onlyLanded_fsWrite (s.setOpen n k g) spIid (f.rowAt stride) line e.fs
  have bytes : ((s.setOpen n k g).fsWrite spIid (f.rowAt stride) line e.fs).fs = spPuts fsUnset s.fs (f.rowAt stride) line :=
    fs_fsWrite_eq _ _ _ _ _
  have stream (m : Nat) := (stream_of_streams frame.streams m).trans (stream_setStream s n m _)
  refine completes_of_kept (congrArg s.done lands) frame.pending frame.boot ⟨fun i hi => ?_, fun b hb => ?_, ⟨g, ?_, ?_⟩, ?_⟩
  · rw [bytes, spGet_spPuts_in _ _ _ _ hi, List.getD_eq_getElem _ _ hi]
  · rw [bytes, spGet_spPuts_out _ _ _ _ hb]
  · rw [stream, if_pos rfl]
  · exact ⟨takes.rows, takes.lines, takes.bytes, takes.flags⟩
  · exact fun m hm => (stream m).trans (if_neg hm.symm)

end LineTaken

/-! ### Lost synchronisation (R109) -/

theorem phySync_skew {p : Fin 8} {s : State} (he : s.is (SP_PORT_CFG_EN p) = true) :
    s.spPhySync p true = (s.putB (SP_PORT_STAT_DESKEW_OK p) false).report 0x2003 spIid := by
  simp only [State.spPhySync, he, Bool.not_true, Bool.false_eq_true, if_false, if_true]

theorem phySync_count {p : Fin 8} {s : State} (he : s.is (SP_PORT_CFG_EN p) = true) :
    s.spPhySync p false = (s.bump (SP_PORT_ERR_SYNC p)).report 0x2003 spIid := by
  simp only [State.spPhySync, he, Bool.not_true, Bool.false_eq_true, if_false]

theorem phySync_reports {p : Fin 8} {skew : Bool} {s : State} (he : s.is (SP_PORT_CFG_EN p) = true) :
    Completes (.phySync p skew) s fun t => OnlyRegs s t ∧ t.reg GLB_FAULT_LAST = 0x102003 ∧
      (skew = true → t.is (SP_PORT_STAT_DESKEW_OK p) = false ∧ t.reg (SP_PORT_ERR p) = s.reg (SP_PORT_ERR p)) ∧
      (skew = false →
        t.get (SP_PORT_ERR_SYNC p) = min (s.get (SP_PORT_ERR_SYNC p) + 1) (2 ^ (SP_PORT_ERR_SYNC p).w - 1)) := by
  have stat : GLB_FAULT_COUNT < SP_PORT_STAT p := by simp only [GLB_FAULT_COUNT, SP_PORT_STAT]; omega
  have err : GLB_FAULT_COUNT < SP_PORT_ERR p := by simp only [GLB_FAULT_COUNT, SP_PORT_ERR]; omega
  cases skew with
  | true =>
    have only : OnlyRegs s ((s.putB (SP_PORT_STAT_DESKEW_OK p) false).report 0x2003 spIid) := (onlyRegs_setReg _ _ _).report _ _
    refine completes_of_onlyRegs (congrArg s.done (phySync_skew he)) only ⟨only, report_last _ _ _, fun _ => ⟨?_, ?_⟩, nofun⟩
    · rw [is_congr (f := SP_PORT_STAT_DESKEW_OK p) (reg_report stat _ _ _), is_putB _ _ _ (by simp [SP_PORT_STAT_DESKEW_OK]) rfl]
    · rw [reg_report err]
      exact reg_putB_ne _ _ (by simp only [SP_PORT_STAT_DESKEW_OK, SP_PORT_STAT, SP_PORT_ERR]; omega)
  | false =>
    have only : OnlyRegs s ((s.bump (SP_PORT_ERR_SYNC p)).report 0x2003 spIid) := (onlyRegs_setReg _ _ _).report _ _
    refine completes_of_onlyRegs (congrArg s.done (phySync_count he)) only ⟨only, report_last _ _ _, nofun, fun _ => ?_⟩
    rw [get_congr (f := SP_PORT_ERR_SYNC p) (reg_report err _ _ _), get_bump _ _ _ (by simp [SP_PORT_ERR_SYNC])]

/-- Settles O31: the line is the one write to the Frame Store, within the slot and off every other user's bytes. -/
theorem linesLandInTheFrameStore : Obligations.LinesLandInTheFrameStore := by
  unfold Obligations.LinesLandInTheFrameStore
  refine ⟨?_, fun p skew s => phySync_reports⟩
  intro p vc dt payload e n k f s he hd hs ho h3 h4 hw stride line a hc hf ha
  exact longPacket_lands he hd hs ho h3 h4 hw rfl rfl hc hf ha e

end Sys2Proof.Machine
end

section
/-! Frames are judged once, against their predecessor (O32). -/

namespace Sys2Proof.Machine

open Reg

theorem getElem?_listSet_same {α : Type} {l : List α} {k : Nat} {x : α} (h : l[k]? = some x) (v : α) :
    (listSet l k v)[k]? = some v := by
  induction l generalizing k with
  | nil => simp at h
  | cons y r ih =>
    cases k with
    | zero => rfl
    | succ k => exact ih h

theorem onlyRegs_reportAll (s : State) (i : Nat) (l : List Nat) : OnlyRegs s (s.reportAll i l) := by
  cases l with
  | nil => exact .refl s
  | cons c r => exact (onlyRegs_report s _ _).bump _ _

theorem safety_quiet {s : State} (c a b d : Nat) (n : Option Nat) (h : s.ref.running = false) : s.safety c a b d n = s := by
  simp [State.safety, h]

/-! ### The frame and its stream once judged (R118, R152) -/

/-- What the monitor finds of a frame of stream n. -/
def State.frameVerdict (s : State) (n : Nat) (f : SpFrame) : Verdict := judge f (s.stream n).pred (s.stream n).run

/-- The frame with its judgement: CLEARED or NOT_CLEARED. -/
def State.judged (s : State) (n : Nat) (f : SpFrame) : SpFrame := f.setFlag (if (s.frameVerdict n f).ok then 6 else 7)

/-- Stream n with the judged frame in slot k, which no longer waits, and is the predecessor. -/
def State.streamJudged (s : State) (n k : Nat) (sl : SpSlot) : SpStream :=
  { s.stream n with
    pred := some ⟨sl.frame.num, sl.frame.trigFired, sl.frame.sig⟩
    run := (s.frameVerdict n sl.frame).run
    slots := listSet (s.stream n).slots k { sl with frame := s.judged n sl.frame, toJudge := false } }

/-- The same, with the slot FREE where the frame belongs to no turn of the turns that run. -/
def State.streamAfter (s : State) (n k : Nat) (sl : SpSlot) : SpStream :=
  if s.ofNoTurn sl.frame then (s.streamJudged n k sl).freeSlot k else s.streamJudged n k sl

/-- A frame that waits for nothing is judged no more (log entry 5). -/
theorem judgeSlot_settled {s : State} {n k : Nat} {sl : SpSlot} (hk : (s.stream n).slots[k]? = some sl)
    (hj : sl.toJudge = false) : s.judgeSlot n k = s := by
  simp [State.judgeSlot, hk, hj]

theorem judgeSlot_waiting {s : State} {n k : Nat} {sl : SpSlot} (hk : (s.stream n).slots[k]? = some sl)
    (hj : sl.toJudge = true) (hr : s.ref.running = false) : s.judgeSlot n k =
      ((s.putHeader n (s.judged n sl.frame) true).setStream n (s.streamAfter n k sl)).reportAll spIid
        (s.frameVerdict n sl.frame).codes := by
  have quiet : (((s.putHeader n (s.judged n sl.frame) true).setStream n (s.streamAfter n k sl)).reportAll spIid
      (s.frameVerdict n sl.frame).codes).ref.running = false := by
    rw [(onlyRegs_reportAll _ _ _).ref]
    exact (congrArg Ref.running (onlyLanded_land s _ _ _ _).ref).trans hr
  have silent := safety_quiet 0xB005 n 0 0 none quiet
  unfold State.judgeSlot
  simp only [hk, hj, Bool.not_true, Bool.false_eq_true, if_false]
  refine (ite_congr rfl (fun _ => silent) fun _ => rfl).trans (ite_self _)

theorem frameJudge_judges {n : Fin 64} {k : Fin 8} {sl : SpSlot} {s : State} (hk : (s.stream n).slots[k.val]? = some sl)
    (hj : sl.toJudge = true) (hr : s.ref.running = false) : Completes (.frameJudge n k) s fun t =>
      t.stream n = s.streamAfter n k sl := by
  have landed := onlyLanded_land s n (s.judged n sl.frame).addr ((s.judged n sl.frame).header true) []
  have reported := onlyRegs_reportAll ((s.putHeader n (s.judged n sl.frame) true).setStream n (s.streamAfter n k sl)) spIid
    (s.frameVerdict n sl.frame).codes
  refine completes_of_kept (congrArg s.done (judgeSlot_waiting hk hj hr)) (reported.pending.trans landed.pending)
    (reported.boot.trans landed.boot) ?_
  rw [stream_of_streams reported.streams, stream_setStream_same]

/-- The slot in which a frame has been judged: as it was but for the judgement, or FREE, last in the order. -/
theorem slot_streamAfter {s : State} {n k : Nat} {sl : SpSlot} (hk : (s.stream n).slots[k]? = some sl) :
    (s.ofNoTurn sl.frame = true → (s.streamAfter n k sl).slots[k]? = some {} ∧
      (s.streamAfter n k sl).order = (s.stream n).order ++ [k]) ∧
    (s.ofNoTurn sl.frame = false →
      (s.streamAfter n k sl).slots[k]? = some { sl with frame := s.judged n sl.frame, toJudge := false }) := by
  have judged := getElem?_listSet_same hk { sl with frame := s.judged n sl.frame, toJudge := false }
  constructor
  · intro free
    rw [State.streamAfter, if_pos free]
    exact ⟨getElem?_listSet_same judged {}, rfl⟩
  · intro kept
    rw [State.streamAfter, kept]
    exact judged

theorem pred_streamAfter (s : State) (n k : Nat) (sl : SpSlot) :
    (s.streamAfter n k sl).pred = some ⟨sl.frame.num, sl.frame.trigFired, sl.frame.sig⟩ := by
  unfold State.streamAfter
  split <;> rfl

/-! ### What fails a frame (R150, R152) -/

/-- A frame that repeats its predecessor's number, where the entry checks numbers: the check on repeats alone fails it. -/
theorem judge_repeated {f : SpFrame} {q : SpPred} (run : Nat) (hc : leAt f.entry 0 1 / 4 % 4 ≠ 0) (hn : f.num = q.num) :
    (judge f (some q) run).ok = false ∧ 0x2041 ∈ (judge f (some q) run).codes := by
  simp [judge, hc, hn]

/-- COMPLETE is the first conjunct of a whole frame. -/
theorem judge_incomplete {f : SpFrame} (p : Option SpPred) (run : Nat) (h : f.flag 0 = false) : (judge f p run).ok = false := by
  simp [judge, h]

/-- Settles O32: a waiting frame is judged by one update of its stream, and a slot that waits for nothing is left as it is. -/
theorem framesAreJudgedOnce : Obligations.FramesAreJudgedOnce := by
  unfold Obligations.FramesAreJudgedOnce
  refine ⟨?_, fun n k sl s hk hj => ?_, fun f q run => judge_repeated run, fun f p run => judge_incomplete p run⟩
  · intro n k sl s hk hj hr v
    obtain ⟨t, done, stream⟩ := frameJudge_judges hk hj hr
    obtain ⟨free, kept⟩ := slot_streamAfter hk
    refine ⟨t, done, ?_, ?_⟩
    · rw [stream, pred_streamAfter]
    · rw [stream]
      cases hturn : s.ofNoTurn sl.frame with
      | true => exact ⟨{}, (free hturn).1, rfl, fun _ => ⟨rfl, (free hturn).2⟩, nofun⟩
      | false => exact ⟨_, kept hturn, rfl, nofun, fun _ => ⟨rfl, rfl⟩⟩
  · exact (congrArg s.done (judgeSlot_settled hk hj)).trans (done_self s)

end Sys2Proof.Machine
end

section
/-! IMU slots: enabled, read at an edge or an instant, overrun, completed and timed out (O33). -/

namespace Sys2Proof.Machine

open Reg

/-! ### The slots, and what their commands touch -/

@[simp] theorem imu_setImu (s : State) (i : Nat) (x : Imu) : (s.setImu i x).imu i = x := spGet_spPut_same _ _ _

theorem imu_of_imus {s t : State} (h : t.imus = s.imus) (i : Nat) : t.imu i = s.imu i := by simp only [State.imu, h]

theorem imu_advanceTo (s : State) (t i : Nat) : (s.advanceTo t).imu i = s.imu i := by
  rw [onlyHg_advanceTo]
  rfl

/-- What the commands of the IMU slots and of the I2C controllers may touch: registers, staged fields, the Hourglass, the slots,
the controllers and what has left the device. -/
def OnlySerial (s t : State) : Prop :=
  t = { s with regs := t.regs, staged := t.staged, hg := t.hg, imus := t.imus, i2cs := t.i2cs, outbox := t.outbox }

theorem OnlySerial.trans {s t u : State} (h : OnlySerial s t) (k : OnlySerial t u) : OnlySerial s u := by
  unfold OnlySerial at *
  rw [k, h]

theorem OnlyTrigger.onlySerial {s t : State} (h : OnlyTrigger s t) : OnlySerial s t := by
  unfold OnlyTrigger at h
  rw [h]
  rfl

theorem onlySerial_setImu (s : State) (i : Nat) (x : Imu) : OnlySerial s (s.setImu i x) := rfl

theorem completes_of_onlySerial {c : Instr} {s t : State} {p : State → Prop} (h : exec c s = s.done t) (k : OnlySerial s t)
    (ht : p t) : Completes c s p :=
  completes_of_kept h (congrArg State.pending k :) (congrArg State.boot k :) ht

/-! ### IMU_ENABLE (R125, R146) -/

/-- A register whose only writable fields are RW takes them from the written value. -/
theorem placed_and_rw {r : RegRow} (old v : Word) (hl : r.lk = 0) (hs : r.w1s = 0) (hc : r.w1c = 0) :
    placed r old v &&& BitVec.ofNat 32 r.rw = v &&& BitVec.ofNat 32 r.rw := by
  refine BitVec.eq_of_getLsbD_eq fun b hb => ?_
  rw [BitVec.getLsbD_and, BitVec.getLsbD_and, getLsbD_placed r old v hb, BitVec.getLsbD_ofNat, hl, hs, hc]
  cases r.rw.testBit b <;> simp

theorem testBit_bitsOf (v lo w b : Nat) : (bitsOf v lo w).testBit b = (decide (b < w) && v.testBit (lo + b)) := by
  rw [bitsOf, Nat.testBit_mod_two_pow, Nat.testBit_div_two_pow, Nat.add_comm]

/-- A field depends on the bits of its place alone. -/
theorem bitsOf_of_and {u v m : Word} {lo w : Nat} (h : u &&& m = v &&& m) (hm : ∀ b < w, m.getLsbD (lo + b) = true) :
    bitsOf u.toNat lo w = bitsOf v.toNat lo w := by
  refine Nat.eq_of_testBit_eq fun b => ?_
  rw [testBit_bitsOf, testBit_bitsOf, BitVec.testBit_toNat, BitVec.testBit_toNat]
  by_cases hb : b < w
  · have bit := congrArg (·.getLsbD (lo + b)) h
    simpa [hb, hm b hb] using bit
  · simp [hb]

/-- The row of the four slots' configuration registers. -/
def imuCfgRow : RegRow :=
  { base := 0x203000, dims := [(4, 0x40)], rw := 0x1F0707, cls := .config, ranges := [(8, 3, 0, 4), (16, 5, 0, 31)] }

theorem imuCfg_row (i : Fin 4) : regRow (SP_IMU_CFG i) = some imuCfgRow := by
  match i with
  | 0 => rfl
  | 1 => rfl
  | 2 => rfl
  | 3 => rfl

/-- SP_IMU_CFG[i] takes the bits of its fields. -/
def State.imuCfgSet (s : State) (i : Nat) (v : Word) : State :=
  s.setReg (SP_IMU_CFG i) (placed imuCfgRow (s.reg (SP_IMU_CFG i)) v)

theorem reg_imuCfgSet (s : State) (i : Nat) (v : Word) : (s.imuCfgSet i v).reg (SP_IMU_CFG i) &&& 0x1F0707 = v &&& 0x1F0707 := by
  rw [State.imuCfgSet, reg_setReg_same]
  exact placed_and_rw (r := imuCfgRow) _ v rfl rfl rfl

theorem rangesOk_imuCfgRow (n : Nat) : rangesOk imuCfgRow n = true ↔ bitsOf n 8 3 ≤ 4 ∧ bitsOf n 16 5 ≤ 31 := by
  simp [rangesOk, imuCfgRow]

/-- A command of at most four bytes is in range, and READ_LEN always is. -/
theorem imuCfg_inRange (old : Word) {v : Word} (h : bitsOf v.toNat 8 3 ≤ 4) :
    rangesOk imuCfgRow (placed imuCfgRow old v).toNat = true := by
  have same : placed imuCfgRow old v &&& 0x1F0707 = v &&& 0x1F0707 := placed_and_rw old v rfl rfl rfl
  have cmd : bitsOf (placed imuCfgRow old v).toNat 8 3 = bitsOf v.toNat 8 3 := bitsOf_of_and same (by decide)
  have read := bitsOf_lt (placed imuCfgRow old v).toNat 16 5
  exact (rangesOk_imuCfgRow _).2 ⟨cmd.trans_le h, Nat.le_of_lt_succ read⟩

theorem plainWrite_imuCfg {i : Fin 4} {v : Word} (s : State) (j : Nat) (h : bitsOf v.toNat 8 3 ≤ 4) :
    s.plainWrite j (SP_IMU_CFG i) v = s.imuCfgSet i v := by
  have all : placed imuCfgRow (s.reg (SP_IMU_CFG i)) v ||| (v &&& BitVec.ofNat 32 imuCfgRow.st) =
      placed imuCfgRow (s.reg (SP_IMU_CFG i)) v := by simp [imuCfgRow]
  simp only [State.plainWrite, imuCfg_row, all, imuCfg_inRange _ h, if_true]
  rfl

/-- The written EN and SRC give the mode. -/
theorem imuMode_imuCfgSet (s : State) (i : Nat) (v : Word) (period : Bool) :
    (s.imuCfgSet i v).imuMode i period = (v.getLsbD 0 && v.getLsbD 1 == period) := by
  have bit {b : Nat} (hb : b < 32) (hm : imuCfgRow.rw.testBit b = true) :
      ((s.imuCfgSet i v).reg (SP_IMU_CFG i)).getLsbD b = v.getLsbD b := by
    rw [State.imuCfgSet, reg_setReg_same, getLsbD_placed _ _ _ hb, hm]
    simp [imuCfgRow]
  rw [State.imuMode, SP_IMU_CFG_EN, SP_IMU_CFG_SRC, is_eq_getLsbD, is_eq_getLsbD, bit (by decide) rfl, bit (by decide) rfl]

/-- The write of SP_IMU_CFG[i] and its slot: the next instant is this one where PERIOD mode is entered
(log entry 12), and none outside it. -/
theorem imuCfg_eq (s : State) (j i : Nat) (v : Word) : ∃ x : Imu,
    s.imuCfg j i v = (s.plainWrite j (SP_IMU_CFG i) v).setImu i x ∧
    ((s.plainWrite j (SP_IMU_CFG i) v).imuMode i true = true → s.imuMode i true = false → x.next = some s.hg.dt) ∧
    ((s.plainWrite j (SP_IMU_CFG i) v).imuMode i true = false → x.next = none) := by
  refine ⟨_, rfl, fun on was => ?_, fun off => ?_⟩
  · rw [on, was]
    split <;> rfl
  · rw [off]
    split <;> rfl

theorem imuEnable_writes {iid : Iid} {i : Fin 4} {v : Word} {s : State} (hw : s.writeOk iid (SP_IMU_CFG i) = true)
    (hv : bitsOf v.toNat 8 3 ≤ 4) : Completes (.imuEnable iid i v) s fun t =>
      t.reg (SP_IMU_CFG i) &&& 0x1F0707 = v &&& 0x1F0707 ∧
      (v.getLsbD 0 = true → v.getLsbD 1 = true → s.imuMode i true = false → (t.imu i).next = some s.hg.dt) ∧
      (v.getLsbD 0 = false → (t.imu i).next = none) ∧ RegsKept [SP_IMU_CFG i] s t := by
  have admitted : exec (.imuEnable iid i v) s = s.done (s.imuCfg iid.toNat i v) := by
    show s.done (s.writeWith iid (SP_IMU_CFG i) fun s => s.imuCfg iid.toNat i v) = _
    rw [writeWith_ok hw]
  obtain ⟨x, writes, enters, leaves⟩ := imuCfg_eq s iid.toNat i v
  rw [plainWrite_imuCfg s iid.toNat hv] at writes enters leaves
  rw [imuMode_imuCfgSet] at enters leaves
  refine completes_of_kept (admitted.trans (congrArg s.done writes)) rfl rfl ⟨?_, fun en src was => ?_, fun en => ?_, ?_⟩
  · exact reg_imuCfgSet s i v
  · rw [imu_setImu, enters (by rw [en, src]; rfl) was]
  · rw [imu_setImu, leaves (by rw [en]; rfl)]
  · exact regsKept_setReg s _ _

/-! ### A read starts, or overruns (R125, R127) -/

theorem imuEdge_drdy {s : State} {i : Nat} (h : s.imuMode i false = true) : s.imuEdge i =
    if (s.imu i).cur.isSome then (s.setImu i { s.imu i with since := s.hg.dt, said := false }).imuOverrun i
    else (s.setImu i { s.imu i with since := s.hg.dt, said := false }).imuStart i := by
  simp only [State.imuEdge, h, Bool.not_true, Bool.false_eq_true, if_false, imu_setImu]

/-- A read that starts is stamped with this instant, and a timeout ends. -/
theorem imu_imuStart (s : State) (i : Nat) : ((s.imuStart i).imu i).cur = some s.hg.dt ∧ ((s.imuStart i).imu i).inTimeout = false ∧
    ((s.imuStart i).imu i).next = (s.imu i).next := by
  rw [State.imuStart, imu_setImu]
  exact ⟨rfl, rfl, rfl⟩

theorem drdyEdge_starts {i : Fin 4} {s : State} (h : s.imuMode i false = true) (hc : (s.imu i).cur = none) :
    Completes (.imuDrdyEdge i) s fun t => (t.imu i).cur = some s.hg.dt ∧ (t.imu i).inTimeout = false ∧ t.regs = s.regs := by
  have starts := imuEdge_drdy h
  rw [if_neg (by simp [hc])] at starts
  obtain ⟨cur, ended, -⟩ := imu_imuStart (s.setImu i { s.imu i with since := s.hg.dt, said := false }) i
  exact completes_of_kept (congrArg s.done starts) rfl rfl ⟨cur, ended, rfl⟩

theorem imu_imuOverrun (s : State) (i : Nat) : OnlySerial s (s.imuOverrun i) ∧ ((s.imuOverrun i).imu i).cur = (s.imu i).cur ∧
    (s.imuOverrun i).is (SP_IMU_STAT_OVERRUN i) = true ∧ (s.imuOverrun i).reg GLB_FAULT_LAST = faultWord 0x2021 spIid := by
  have regs : OnlyRegs s ((s.putB (SP_IMU_STAT_OVERRUN i) true).report 0x2021 spIid) := (onlyRegs_setReg _ _ _).report _ _
  have stat : GLB_FAULT_COUNT < SP_IMU_STAT i := by simp only [GLB_FAULT_COUNT, SP_IMU_STAT]; omega
  unfold State.imuOverrun
  refine ⟨regs.onlyTrigger.onlySerial.trans (onlySerial_setImu _ _ _), by rw [imu_setImu], ?_, ?_⟩
  · rw [setImu_is, is_congr (f := SP_IMU_STAT_OVERRUN i) (reg_report stat _ _ _), is_putB _ _ _ (by simp [SP_IMU_STAT_OVERRUN]) rfl]
  · rw [setImu_reg, report_last]

theorem drdyEdge_overruns {i : Fin 4} {s : State} (h : s.imuMode i false = true) (hc : (s.imu i).cur.isSome = true) :
    Completes (.imuDrdyEdge i) s fun t =>
      (t.imu i).cur = (s.imu i).cur ∧ t.is (SP_IMU_STAT_OVERRUN i) = true ∧ t.reg GLB_FAULT_LAST = 0x102021 := by
  have overruns := imuEdge_drdy h
  rw [if_pos hc] at overruns
  obtain ⟨only, cur, stat, last⟩ := imu_imuOverrun (s.setImu i { s.imu i with since := s.hg.dt, said := false }) i
  refine completes_of_onlySerial (congrArg s.done overruns) ((onlySerial_setImu _ _ _).trans only) ⟨?_, stat, last⟩
  rw [cur, imu_setImu]

/-! ### IMU_PERIOD_TICK (R125) -/

theorem imuTick_due {s : State} {i u : Nat} (hn : (s.imu i).next = some u) (hc : (s.imu i).cur = none) : s.imuTick i =
    ((s.advanceTo u).setImu i { s.imu i with next := some (u + (s.reg (SP_IMU_PER i)).toNat * 256) }).imuStart i := by
  simp only [State.imuTick, hn, imu_advanceTo, reg_advanceTo, imu_setImu, hc, Option.isSome_none, Bool.false_eq_true, if_false]

theorem periodTick_starts {i : Fin 4} {u : Nat} {s : State} (hn : (s.imu i).next = some u) (hc : (s.imu i).cur = none)
    (hr : s.hg.running = true) (hu : s.hg.dt ≤ u) : Completes (.imuPeriodTick i) s fun t =>
      t.hg.dt = u ∧ (t.imu i).cur = some u ∧ (t.imu i).next = some (u + (s.reg (SP_IMU_PER i)).toNat * 256) := by
  have dt : (s.advanceTo u).hg.dt = u := by rw [dt_advanceTo, if_pos hr, Nat.max_eq_right hu]
  obtain ⟨cur, -, next⟩ :=
    imu_imuStart ((s.advanceTo u).setImu i { s.imu i with next := some (u + (s.reg (SP_IMU_PER i)).toNat * 256) }) i
  have only := (onlyTrigger_advanceTo s u).onlySerial.trans (onlySerial_setImu (s.advanceTo u) i
    { s.imu i with next := some (u + (s.reg (SP_IMU_PER i)).toNat * 256) })
  refine completes_of_onlySerial (congrArg s.done (imuTick_due hn hc)) (only.trans (onlySerial_setImu _ _ _)) ⟨dt, ?_, ?_⟩
  · rw [cur]
    exact congrArg some dt
  · rw [next, imu_setImu]

/-! ### IMU_READ_COMPLETE (R126) -/

/-- With every byte driven, the sample is the bytes clocked in. -/
theorem imuData_whole (s : State) (data : List Byte) : s.imuData data.length data = (data, s) := by
  induction data with
  | nil => rfl
  | cons b r ih => rw [List.length_cons, State.imuData, ih]

/-- How many records slot i's ring holds (R126). -/
def State.imuRing (s : State) (i : Nat) : Nat := 256 * 2 ^ s.get (SP_IMU_RING_SIZE i)

/-- The slot's read is over: HEAD moves on within the ring, and SEQ counts. -/
structure SampleLanded (s t : State) (i : Nat) : Prop where
  pending : t.pending = s.pending
  boot : t.boot = s.boot
  cur : (t.imu i).cur = none
  seq : (t.imu i).seq = ((s.imu i).seq + 1) % 2 ^ 32
  head : t.get (SP_IMU_STAT_HEAD i) = (s.get (SP_IMU_STAT_HEAD i) % s.imuRing i + 1) % s.imuRing i % 1024

theorem sampleLanded_imuLand {s : State} {i u : Nat} {data : List Byte} (hc : (s.imu i).cur = some u)
    (hd : data.length = s.get (SP_IMU_CFG_READ_LEN i) + 1) :
    ∃ t, s.imuLand i data = (t, some (u, data)) ∧ SampleLanded s t i := by
  have clocked := imuData_whole s data
  rw [hd] at clocked
  simp only [State.imuLand, hc, clocked]
  refine ⟨_, rfl, ?_⟩
  have landed (a : Nat) (bs : List Byte) := onlyLanded_land s (64 + i) a bs []
  refine ⟨(landed _ _).pending, (landed _ _).boot, ?_, ?_, ?_⟩
  · rw [imu_setImu]
  · rw [imu_setImu]
  · rw [setImu_get, get_put _ _ _ (by simp [SP_IMU_STAT_HEAD])]
    rfl

/-- The ME takes the sample or does not run; either way nothing but its own state changes (R193). -/
theorem meInput_eq (s : State) (x : MeInput) : s.meInput x = { s with me := (s.meInput x).me } := by
  unfold State.meInput
  split <;> rfl

theorem SampleLanded.meInput {s t : State} {i : Nat} (h : SampleLanded s t i) (x : MeInput) : SampleLanded s (t.meInput x) i := by
  rw [meInput_eq]
  exact ⟨h.pending, h.boot, h.cur, h.seq, h.head⟩

theorem readComplete_lands {i : Fin 4} {u : Nat} {data : List Byte} {s : State} (hc : (s.imu i).cur = some u)
    (hd : data.length = s.get (SP_IMU_CFG_READ_LEN i) + 1) : Completes (.imuReadComplete i data) s fun t =>
      SampleLanded s t i := by
  obtain ⟨t, lands, landed⟩ := sampleLanded_imuLand hc hd
  have taken : s.imuIn i data = t.meInput { imu := true, stamp := u, unit := i, data := data } := by rw [State.imuIn, lands]
  have all := landed.meInput { imu := true, stamp := u, unit := i, data := data }
  exact completes_of_kept (congrArg s.done taken) all.pending all.boot all

/-! ### IMU_TIMEOUT (R127) -/

theorem imuSilence_reports {s : State} {i : Nat} (h : s.imuMode i false = true) (hs : (s.imu i).said = false) :
    ∃ (u : Nat) (x : Imu), x.said = true ∧ s.imuSilence i =
      (((s.advanceTo u).setImu i x).putB (SP_IMU_STAT_TIMEOUT i) true).report 0x2020 spIid := by
  simp only [State.imuSilence, h, hs, Bool.not_true, Bool.or_self, Bool.false_eq_true, if_false]
  refine ⟨_, _, ?_, rfl⟩
  rfl

theorem imuTimeout_reports {i : Fin 4} {s : State} (h : s.imuMode i false = true) (hs : (s.imu i).said = false) :
    Completes (.imuTimeout i) s fun t =>
      t.is (SP_IMU_STAT_TIMEOUT i) = true ∧ t.reg GLB_FAULT_LAST = 0x102020 ∧ (t.imu i).said = true := by
  obtain ⟨u, x, said, reports⟩ := imuSilence_reports h hs
  have regs : OnlyRegs ((s.advanceTo u).setImu i x)
      ((((s.advanceTo u).setImu i x).putB (SP_IMU_STAT_TIMEOUT i) true).report 0x2020 spIid) := (onlyRegs_setReg _ _ _).report _ _
  have only := ((onlyTrigger_advanceTo s u).onlySerial.trans (onlySerial_setImu _ i x)).trans regs.onlyTrigger.onlySerial
  have stat : GLB_FAULT_COUNT < SP_IMU_STAT i := by simp only [GLB_FAULT_COUNT, SP_IMU_STAT]; omega
  refine completes_of_onlySerial (congrArg s.done reports) only ⟨?_, report_last _ _ _, ?_⟩
  · rw [is_congr (f := SP_IMU_STAT_TIMEOUT i) (reg_report stat _ _ _), is_putB _ _ _ (by simp [SP_IMU_STAT_TIMEOUT]) rfl]
  · rw [imu_of_imus regs.imus, imu_setImu, said]

/-- Settles O33: a slot is enabled by its configuration, and starts, overruns, completes or times out a read by its own state. -/
theorem imuReadsAndTimeouts : Obligations.ImuReadsAndTimeouts := by
  unfold Obligations.ImuReadsAndTimeouts
  refine ⟨fun iid i v s => imuEnable_writes, fun i s h => ⟨drdyEdge_starts h, drdyEdge_overruns h⟩,
    fun i u s => periodTick_starts, fun i u data s hc hd => ?_, fun i s => imuTimeout_reports⟩
  obtain ⟨t, done, landed⟩ := readComplete_lands hc hd
  exact ⟨t, done, landed.cur, landed.seq, landed.head⟩

end Sys2Proof.Machine
end

section
/-! I2C controllers: commands are pushed, run, held by an AT and discarded, and bytes are popped (O36). -/

namespace Sys2Proof.Machine

open Reg

/-! ### The controllers, and what their commands touch -/

@[simp] theorem i2c_setI2c (s : State) (k : Nat) (x : I2c) : (s.setI2c k x).i2c k = x := spGet_spPut_same _ _ _

theorem i2c_of_i2cs {s t : State} (h : t.i2cs = s.i2cs) (k : Nat) : t.i2c k = s.i2c k := by simp only [State.i2c, h]

theorem i2c_advanceTo (s : State) (t k : Nat) : (s.advanceTo t).i2c k = s.i2c k := by
  rw [onlyHg_advanceTo]
  rfl

theorem onlySerial_setI2c (s : State) (k : Nat) (x : I2c) : OnlySerial s (s.setI2c k x) := rfl

theorem onlySerial_putB (s : State) (f : Fld) (b : Bool) : OnlySerial s (s.putB f b) := rfl

/-! ### I2C_COMMAND_PUSH (R135) -/

theorem exec_i2cCommandPush {iid : Iid} {k : Fin 4} {s : State} (v : Word) (hw : s.writeOk iid (SP_I2C_CMD k) = true) :
    exec (.i2cCommandPush iid k v) s = s.done (s.i2cPush k v) := by
  show s.done (s.writeWith iid (SP_I2C_CMD k) fun s => s.i2cPush k v) = _
  rw [writeWith_ok hw]

theorem i2cPush_noSkip {s : State} {k : Nat} (v : Word) (hs : (s.i2c k).skip = false) : s.i2cPush k v =
    if 64 ≤ (s.i2c k).cmds.length then s.putB (SP_I2C_STAT_OVF k) true
    else s.setI2c k { s.i2c k with cmds := (s.i2c k).cmds ++ [v.toNat % 4096] } := by
  simp only [State.i2cPush, hs, Bool.false_eq_true, if_false]

theorem commandPush_enters {iid : Iid} {k : Fin 4} {v : Word} {s : State} (hw : s.writeOk iid (SP_I2C_CMD k) = true)
    (hs : (s.i2c k).skip = false) (hl : (s.i2c k).cmds.length < 64) : Completes (.i2cCommandPush iid k v) s fun t =>
      (t.i2c k).cmds = (s.i2c k).cmds ++ [v.toNat % 4096] ∧ t.regs = s.regs := by
  have enters := i2cPush_noSkip v hs
  rw [if_neg (Nat.not_le.2 hl)] at enters
  refine completes_of_onlySerial ((exec_i2cCommandPush v hw).trans (congrArg s.done enters)) (onlySerial_setI2c _ _ _) ⟨?_, rfl⟩
  rw [i2c_setI2c]

theorem commandPush_overflows {iid : Iid} {k : Fin 4} {v : Word} {s : State} (hw : s.writeOk iid (SP_I2C_CMD k) = true)
    (hs : (s.i2c k).skip = false) (hl : 64 ≤ (s.i2c k).cmds.length) : Completes (.i2cCommandPush iid k v) s fun t =>
      OnlyRegs s t ∧ t.is (SP_I2C_STAT_OVF k) = true ∧ RegsKept [SP_I2C_STAT k] s t := by
  have overflows := i2cPush_noSkip v hs
  rw [if_pos hl] at overflows
  exact completes_of_onlyRegs ((exec_i2cCommandPush v hw).trans (congrArg s.done overflows)) (onlyRegs_setReg _ _ _)
    ⟨onlyRegs_setReg _ _ _, is_putB _ _ _ (by simp [SP_I2C_STAT_OVF]) rfl, regsKept_putB s _ rfl⟩

/-! ### I2C_COMMAND_EXECUTE (R135) -/

/-- The first command is taken off the FIFO. -/
def State.i2cTaken (s : State) (k : Nat) (r : List Nat) : State := s.setI2c k { s.i2c k with cmds := r }

/-- The first command is taken and goes out on the bus. -/
def State.i2cSent (s : State) (k c : Nat) (r : List Nat) : State := (s.i2cTaken k r).emit (.i2c k (i2cOp c) (c % 256))

theorem i2cStep_cons {s : State} {k c : Nat} {r : List Nat} (rd : Byte) (he : s.is (SP_I2C_CFG_EN k) = true)
    (ha : (s.i2c k).atHold = false) (hc : (s.i2c k).cmds = c :: r) : s.i2cStep k rd =
      if i2cOp c = 6 then
        if 0 ≤ cmpDiff s.now (s.i2cAt k) then (s.i2cTaken k r).report 0x203A spIid
        else (s.i2cTaken k r).setI2c k { (s.i2cTaken k r).i2c k with atHold := true }
      else if 6 < i2cOp c then s.i2cTaken k r
      else if i2cOp c ≤ 1 then (s.i2cSent k c r).putB (SP_I2C_STAT_BUSY k) true
      else if i2cOp c = 5 then (s.i2cSent k c r).putB (SP_I2C_STAT_BUSY k) false
      else if i2cOp c = 2 then s.i2cSent k c r
      else (s.i2cSent k c r).i2cRead k rd := by
  simp only [State.i2cStep, State.i2cSent, State.i2cTaken, he, ha, hc, Bool.not_true, Bool.or_self, Bool.false_eq_true, if_false]

theorem i2cRead_room {s : State} {k : Nat} (rd : Byte) (h : (s.i2c k).rxd.length < 64) :
    s.i2cRead k rd = s.setI2c k { s.i2c k with rxd := (s.i2c k).rxd ++ [rd] } := if_neg (Nat.not_le.2 h)

theorem i2cRead_full {s : State} {k : Nat} (rd : Byte) (h : 64 ≤ (s.i2c k).rxd.length) :
    s.i2cRead k rd = s.putB (SP_I2C_STAT_OVF k) true := if_pos h

/-- What is left of a controller whose first command went out on the bus: the rest of its commands, and what it had read. -/
theorem i2cSent_frame (s : State) (k c : Nat) (r : List Nat) : OnlySerial s (s.i2cSent k c r) ∧
    (s.i2cSent k c r).i2c k = { s.i2c k with cmds := r } ∧ (s.i2cSent k c r).outbox = .i2c k (i2cOp c) (c % 256) :: s.outbox :=
  ⟨rfl, i2c_setI2c _ _ _, rfl⟩

/-- A byte that is read enters the read FIFO or is lost, and nothing else of the controller moves. -/
theorem i2cRead_frame (s : State) (k : Nat) (rd : Byte) : OnlySerial s (s.i2cRead k rd) ∧
    ((s.i2cRead k rd).i2c k).cmds = (s.i2c k).cmds ∧ (s.i2cRead k rd).outbox = s.outbox ∧
    ((s.i2c k).rxd.length < 64 → ((s.i2cRead k rd).i2c k).rxd = (s.i2c k).rxd ++ [rd]) := by
  by_cases room : (s.i2c k).rxd.length < 64
  · rw [i2cRead_room rd room, i2c_setI2c]
    exact ⟨rfl, rfl, rfl, fun _ => rfl⟩
  · rw [i2cRead_full rd (Nat.not_lt.1 room)]
    exact ⟨rfl, rfl, rfl, fun h => absurd h room⟩

theorem commandExecute_sends {k : Fin 4} {rd : Byte} {c : Nat} {r : List Nat} {s : State} (he : s.is (SP_I2C_CFG_EN k) = true)
    (ha : (s.i2c k).atHold = false) (hc : (s.i2c k).cmds = c :: r) (h : i2cOp c ≤ 5) :
    Completes (.i2cCommandExecute k rd) s fun t =>
      (t.i2c k).cmds = r ∧ t.outbox = .i2c k (i2cOp c) (c % 256) :: s.outbox ∧
      (i2cOp c ≤ 1 → t.is (SP_I2C_STAT_BUSY k) = true) ∧ (i2cOp c = 5 → t.is (SP_I2C_STAT_BUSY k) = false) ∧
      (i2cOp c = 3 ∨ i2cOp c = 4 → (s.i2c k).rxd.length < 64 → (t.i2c k).rxd = (s.i2c k).rxd ++ [rd]) := by
  have step := i2cStep_cons rd he ha hc
  rw [if_neg (by omega), if_neg (by omega)] at step
  obtain ⟨only, ctl, out⟩ := i2cSent_frame s k c r
  have cmds : ((s.i2cSent k c r).i2c k).cmds = r := by rw [ctl]
  have busy (b : Bool) : ((s.i2cSent k c r).putB (SP_I2C_STAT_BUSY k) b).is (SP_I2C_STAT_BUSY k) = b :=
    is_putB _ _ _ (by simp [SP_I2C_STAT_BUSY]) rfl
  by_cases start : i2cOp c ≤ 1
  · rw [if_pos start] at step
    exact completes_of_onlySerial (congrArg s.done step) (only.trans (onlySerial_putB _ _ _))
      ⟨cmds, out, fun _ => busy true, by omega, by omega⟩
  rw [if_neg start] at step
  by_cases stop : i2cOp c = 5
  · rw [if_pos stop] at step
    exact completes_of_onlySerial (congrArg s.done step) (only.trans (onlySerial_putB _ _ _))
      ⟨cmds, out, fun h => absurd h start, fun _ => busy false, by omega⟩
  rw [if_neg stop] at step
  by_cases write : i2cOp c = 2
  · rw [if_pos write] at step
    exact completes_of_onlySerial (congrArg s.done step) only
      ⟨cmds, out, fun h => absurd h start, fun h => absurd h stop, by omega⟩
  rw [if_neg write] at step
  obtain ⟨read, kept, sent, entered⟩ := i2cRead_frame (s.i2cSent k c r) k rd
  rw [ctl] at entered
  exact completes_of_onlySerial (congrArg s.done step) (only.trans read)
    ⟨kept.trans cmds, sent.trans out, fun h => absurd h start, fun h => absurd h stop, fun _ room => entered room⟩

theorem commandExecute_holds {k : Fin 4} {rd : Byte} {c : Nat} {r : List Nat} {s : State} (he : s.is (SP_I2C_CFG_EN k) = true)
    (ha : (s.i2c k).atHold = false) (hc : (s.i2c k).cmds = c :: r) (h : i2cOp c = 6) (hd : cmpDiff s.now (s.i2cAt k) < 0) :
    Completes (.i2cCommandExecute k rd) s fun t =>
      (t.i2c k).cmds = r ∧ (t.i2c k).atHold = true ∧ t.outbox = s.outbox := by
  have holds := i2cStep_cons rd he ha hc
  rw [if_pos h, if_neg (Int.not_le.2 hd)] at holds
  refine completes_of_onlySerial (congrArg s.done holds) ((onlySerial_setI2c _ _ _).trans (onlySerial_setI2c _ _ _)) ⟨?_, ?_, rfl⟩
  · rw [i2c_setI2c, State.i2cTaken, i2c_setI2c]
  · rw [i2c_setI2c]

/-! ### I2C_AT_FIRE (R135) -/

theorem i2cFire_held {s : State} {k : Nat} (h : (s.i2c k).atHold = true) : s.i2cFire k =
    (s.advanceTo (cmpInstant s.now (s.i2cAt k) * 256)).setI2c k { s.i2c k with atHold := false } := by
  simp only [State.i2cFire, h, Bool.not_true, Bool.false_eq_true, if_false, i2c_advanceTo]

theorem atFire_releases {k : Fin 4} {s : State} (h : (s.i2c k).atHold = true) (hr : s.hg.running = true)
    (hd : cmpDiff s.now (s.i2cAt k) < 0) : Completes (.i2cAtFire k) s fun t =>
      (t.i2c k).atHold = false ∧ (t.i2c k).cmds = (s.i2c k).cmds ∧ t.hg.dt = cmpInstant s.now (s.i2cAt k) * 256 := by
  have later := now_lt_cmpInstant hd
  have fires := i2cFire_held h
  generalize cmpInstant s.now (s.i2cAt k) = ns at later fires ⊢
  have ahead : s.hg.dt ≤ ns * 256 := by
    rw [State.now] at later
    omega
  refine completes_of_onlySerial (congrArg s.done fires) ((onlyTrigger_advanceTo s _).onlySerial.trans (onlySerial_setI2c _ _ _)) ⟨?_, ?_, ?_⟩
  · rw [i2c_setI2c]
  · rw [i2c_setI2c]
  · rw [setI2c_hg, dt_advanceTo, if_pos hr, Nat.max_eq_right ahead]

/-! ### I2C_NACK and I2C_TIMEOUT (R136) -/

theorem afterStop_append {a : List Nat} (b : List Nat) {c : Nat} (ha : ∀ x ∈ a, i2cOp x ≠ 5) (hc : i2cOp c = 5) :
    afterStop (a ++ c :: b) = some b := by
  induction a with
  | nil => exact if_pos hc
  | cons x r ih =>
    obtain ⟨first, rest⟩ := List.forall_mem_cons.1 ha
    exact (if_neg first).trans (ih rest)

/-- The transfer is given up: a STOP goes out, and the FIFO goes on behind the next queued STOP. -/
theorem i2cAbandon_ends {s : State} {k : Nat} {b : List Nat} (h : afterStop (s.i2c k).cmds = some b) :
    OnlySerial s (s.i2cAbandon k) ∧ ((s.i2cAbandon k).i2c k).cmds = b ∧ (s.i2cAbandon k).is (SP_I2C_STAT_BUSY k) = false ∧
    (s.i2cAbandon k).outbox = .i2c k 5 0 :: s.outbox := by
  have stops : s.i2cAbandon k =
      ((s.setI2c k { s.i2c k with cmds := b, atHold := false }).emit (.i2c k 5 0)).putB (SP_I2C_STAT_BUSY k) false := by
    simp only [State.i2cAbandon, h]
  rw [stops]
  exact ⟨rfl, congrArg I2c.cmds (i2c_setI2c s k _), is_putB _ _ _ (by simp [SP_I2C_STAT_BUSY]) rfl, rfl⟩

/-- A transfer given up with field `f` of SP_I2C_STAT set and `code` reported. -/
def State.i2cFailed (s : State) (k : Nat) (f : Fld) (code : Nat) : State := ((s.i2cAbandon k).putB f true).report code spIid

/-- Whatever flag tells why, the transfer ends the same way. -/
theorem completes_i2cFailed {i : Instr} {s : State} {k code : Nat} {f : Fld} {b : List Nat}
    (h : exec i s = s.done (s.i2cFailed k f code)) (hb : afterStop (s.i2c k).cmds = some b) (hf : f.off = SP_I2C_STAT k)
    (hl : 17 ≤ f.lo) (hw : f.w = 1) (hn : f.lo + f.w ≤ 32) : Completes i s fun t =>
      (t.i2c k).cmds = b ∧ t.is (SP_I2C_STAT_BUSY k) = false ∧ t.is f = true ∧ t.outbox = .i2c k 5 0 :: s.outbox ∧ t.reg GLB_FAULT_LAST = faultWord code spIid := by
  have stat : GLB_FAULT_COUNT < SP_I2C_STAT k := by simp only [GLB_FAULT_COUNT, SP_I2C_STAT]; omega
  have told : OnlyRegs (s.i2cAbandon k) (s.i2cFailed k f code) := (onlyRegs_setReg _ _ _).report _ _
  have kept : (s.i2cFailed k f code).reg (SP_I2C_STAT k) = ((s.i2cAbandon k).putB f true).reg (SP_I2C_STAT k) :=
    reg_report stat _ _ _
  have flag : (s.i2cFailed k f code).is f = ((s.i2cAbandon k).putB f true).is f := is_congr (by rw [hf, kept])
  obtain ⟨only, cmds, busy, out⟩ := i2cAbandon_ends hb
  refine completes_of_onlySerial h (only.trans told.onlyTrigger.onlySerial) ⟨?_, ?_, ?_, ?_, report_last _ _ _⟩
  · rw [i2c_of_i2cs told.i2cs, cmds]
  · rw [is_congr (f := SP_I2C_STAT_BUSY k) kept, is_putB_ne _ _ _ _ hn (.inr (.inr (by simp only [SP_I2C_STAT_BUSY]; omega))), busy]
  · rw [flag, is_putB _ _ _ hn hw]
  · rw [told.outbox, out]

theorem i2cNack_fails {s : State} {k : Nat} (h : s.is (SP_I2C_STAT_BUSY k) = true) :
    s.i2cNack k = s.i2cFailed k (SP_I2C_STAT_NACK k) 0x2038 := by
  simp only [State.i2cNack, State.i2cFailed, h, Bool.not_true, Bool.false_eq_true, if_false]

theorem i2cTimeout_fails {s : State} {k : Nat} (h : s.is (SP_I2C_STAT_BUSY k) = true) :
    s.i2cTimeout k = s.i2cFailed k (SP_I2C_STAT_TIMEOUT k) 0x2039 := by
  simp only [State.i2cTimeout, State.i2cFailed, h, Bool.not_true, Bool.false_and, Bool.false_eq_true, if_false]

/-! ### I2C_RXD_POP (R135) -/

/-- A read of SP_I2C_RXD[k] clears nothing and is not latched. -/
theorem i2cRxd_read (k : Fin 4) : regRow (SP_I2C_RXD k) = some { base := 0x20600C, dims := [(4, 0x100)], cls := .grantable } ∧
    isLatched (SP_I2C_RXD k) = false := by
  revert k
  decide

theorem view_i2cRxd (s : State) (k : Fin 4) :
    s.view (SP_I2C_RXD k) = BitVec.ofNat 32 (((s.i2c k).rxd.head?.map fun b => b.toNat + 256).getD 0) := by
  fin_cases k <;> rfl

theorem readOut_i2cs (s : State) (iid : Iid) (off : Nat) : (s.readOut iid off).i2cs = s.i2cs := by
  rw [State.readOut, latchAll_eq]
  rfl

theorem exec_i2cRxdPop {iid : Iid} {k : Fin 4} {s : State} (h : s.readOk iid (SP_I2C_RXD k) = true) :
    exec (.i2cRxdPop iid k) s = s.done ((s.readOut iid (SP_I2C_RXD k)).i2cPop k) := by
  obtain ⟨row, notLatched⟩ := i2cRxd_read k
  show s.done (s.readWith iid (SP_I2C_RXD k) fun s => s.i2cPop k) = _
  rw [readWith_ok h, readReg_eq_readOut row rfl rfl notLatched]

theorem rxdPop_pops {iid : Iid} {k : Fin 4} {b : Byte} {r : List Byte} {s : State} (h : s.readOk iid (SP_I2C_RXD k) = true)
    (hq : (s.i2c k).rxd = b :: r) : Completes (.i2cRxdPop iid k) s fun t =>
      (t.i2c k).rxd = r ∧ t.outbox = .readData iid (SP_I2C_RXD k) (BitVec.ofNat 64 (b.toNat + 256)) :: s.outbox := by
  have small : b.toNat + 256 < 2 ^ 32 := by omega
  refine completes_of_kept (exec_i2cRxdPop h) (readOut_pending _ _ _) (readOut_boot _ _ _) ⟨?_, ?_⟩
  · rw [State.i2cPop, i2c_setI2c, i2c_of_i2cs (readOut_i2cs _ _ _), hq, List.tail_cons]
  · refine (readOut_outbox _ _ _).trans ?_
    rw [view_i2cRxd, hq]
    exact congrArg (Out.readData iid (SP_I2C_RXD k) · :: s.outbox) (zeroExtend_ofNat small)

/-- Settles O36: both FIFOs take their entries last and give them first, an AT holds, and a failed transfer ends at a STOP. -/
theorem i2cControllers : Obligations.I2cControllers := by
  unfold Obligations.I2cControllers
  refine ⟨fun iid k v s hw hs => ⟨commandPush_enters hw hs, commandPush_overflows hw hs⟩,
    fun k rd c r s he ha hc => ⟨commandExecute_sends he ha hc, commandExecute_holds he ha hc⟩, fun k s => atFire_releases,
    fun k a b c s hb hc hn h5 => ?_, fun iid k b r s => rxdPop_pops⟩
  have rest : afterStop (s.i2c k).cmds = some b := by rw [hc, afterStop_append b hn h5]
  exact ⟨completes_i2cFailed (congrArg s.done (i2cNack_fails hb)) rest rfl (by simp [SP_I2C_STAT_NACK]) rfl
      (by simp [SP_I2C_STAT_NACK]),
    completes_i2cFailed (congrArg s.done (i2cTimeout_fails hb)) rest rfl (by simp [SP_I2C_STAT_TIMEOUT]) rfl
      (by simp [SP_I2C_STAT_TIMEOUT])⟩

end Sys2Proof.Machine
end

section
/-! A verdict that brings F5 stops the Loom, which cuts the frames on the wire (O41): the verdict of a state whose frame names no
view of the device. -/

namespace Sys2Proof.Machine

open Reg

/-- A frame whose view is none of the four of R211: the place of its LM_VIEW_SEQ, to which a cut gives its value back (R214), is
that of RF_LAST_TURN. -/
def strayFrame : LmFrame :=
  { view := 0x8FFE1, run := 0, turn := 0, since := 0, tenant := 0, va := 0, rows := 1, rowBytes := 4, fmt := 0, emb := [], seqWas := 1 }

theorem reg_of_done {s u t : State} (h : s.done u = .next t) (o : Nat) : t.reg o = u.reg o := by
  cases h
  rfl

theorem viewSeq_strayFrame : LM_VIEW_SEQ strayFrame.view = RF_LAST_TURN := rfl

/-- An assembled turn with a known fault. -/
def faultedTurn : TurnRec := { run := 0, turn := 6, gen := 0, ended := true, meDone := true, fault := 1, recs := some [] }

/-- The Referee runs with a ruleset without rules, its window holds six rejects, which demand F5 (R608), and port 0 is sending the
stray frame. -/
def strayState : State :=
  { State.reset with
    ref := { State.reset.ref with running := true, rules := some [], window := List.replicate 6 true }
    loom := { State.reset.loom with
      turns := [faultedTurn]
      ports := spPut (fun _ => {}) State.reset.loom.ports 0 { wire := some (strayFrame, 1, 0) } } }

/-- SAFE_STATE follows the verdict's own write of RF_LAST_TURN, and the cut is what remains there. -/
theorem lastTurn_strayState : strayState.verdict.reg (LM_VIEW_SEQ strayFrame.view) = strayFrame.seqWas := by decide +kernel

/-- Refutes O41: RF_LAST_TURN is not the number of the turn that was rejected where the verdict brings F5 and the Loom sends a frame
whose view number is none of the four. The statement holds such a state possible; no run of the device queues such a frame. -/
theorem not_refereeJudgesAndHalts : ¬ Obligations.RefereeJudgesAndHalts := by
  unfold Obligations.RefereeJudgesAndHalts
  rintro ⟨judges, -⟩
  obtain ⟨rejected, -⟩ := judges [] faultedTurn strayState rfl rfl rfl
  obtain ⟨t, ht, -, hturn, -⟩ := rejected (by decide)
  have cut : t.reg RF_LAST_TURN = strayFrame.seqWas := by
    rw [← viewSeq_strayFrame, reg_of_done ht, lastTurn_strayState]
  exact absurd (hturn.symm.trans cut) (by decide)

end Sys2Proof.Machine
end

section
/-! The Motion Estimator: holdover, inputs in order, resets and the turn update (O38). -/

namespace Sys2Proof.Machine

open Reg

/-! ### HOLDOVER_EXPIRY (R157) -/

theorem holdExpire_since {s : State} {u : Nat} (h : s.fresh.holdSince = some u) :
    s.holdExpire = { s with
      hg := (s.advanceTo (u + s.holdMax * 256000000)).hg
      fresh := { s.fresh with
        expired := true, demand := max s.fresh.demand 4, causes := s.fresh.causes ||| causeBit 4 4 } } := by
  rw [State.holdExpire, h]
  dsimp only
  rw [onlyHg_advanceTo]
  rfl

theorem holdoverExpiry_demands {s : State} {u : Nat} (h : s.fresh.holdSince = some u) : Completes .holdoverExpiry s fun t =>
    t.fresh.expired = true ∧ 4 ≤ t.fresh.demand ∧ s.fresh.demand ≤ t.fresh.demand ∧ t.regs = s.regs ∧
    t.hg.dt = if s.hg.running then max s.hg.dt (u + s.holdMax * 256000000) else s.hg.dt :=
  done_completes (congrArg s.done (holdExpire_since h))
    ⟨rfl, Nat.le_max_right _ _, Nat.le_max_left _ _, rfl, dt_advanceTo s _⟩

/-! ### What the commands of the estimator touch -/

/-- `t` differs from `s` in registers, Device Time, the estimator and the count of free values alone. -/
def OnlyMe (s t : State) : Prop := t = { s with regs := t.regs, hg := t.hg, me := t.me, freeCtr := t.freeCtr }

theorem OnlyMe.trans {s t u : State} (h : OnlyMe s t) (k : OnlyMe t u) : OnlyMe s u := by
  unfold OnlyMe at *
  rw [k, h]

theorem OnlyRegs.onlyMe {s t : State} (h : OnlyRegs s t) : OnlyMe s t := by
  unfold OnlyRegs at h
  unfold OnlyMe
  rw [h]

theorem onlyMe_setMe (s : State) (f : Me → Me) : OnlyMe s (s.setMe f) := rfl

theorem onlyMe_advanceTo (s : State) (t : Nat) : OnlyMe s (s.advanceTo t) := by
  rw [onlyHg_advanceTo]
  rfl

theorem onlyMe_meResetNow (s : State) : OnlyMe s s.meResetNow := rfl

theorem onlyMe_meMeasure (s : State) (b : List Byte) (kind : Nat) (args : List Nat) (bit : Nat) :
    OnlyMe s (s.meMeasure b kind args bit) := rfl

theorem completes_of_onlyMe {c : Instr} {s t : State} {p : State → Prop} (h : exec c s = s.done t) (k : OnlyMe s t) (ht : p t) :
    Completes c s p :=
  completes_of_kept h (congrArg State.pending k :) (congrArg State.boot k :) ht

/-! ### A rejection, a reset, and the check after an update (R195, R196, R208) -/

theorem onlyRegs_meReject (s : State) (c : Nat) (f : Fld) : OnlyRegs s (s.meReject c f) := (onlyRegs_report s c meIid).bump f 1

theorem last_meReject (s : State) (c : Nat) {f : Fld} (h : f.off ≠ GLB_FAULT_LAST) :
    (s.meReject c f).reg GLB_FAULT_LAST = faultWord c meIid := by
  rw [State.meReject, reg_bump_ne _ _ h, report_last]

theorem stale_meReject (s : State) (c : Nat) : (s.meReject c ME_REJECT_STALE).get ME_REJECT_STALE =
    min (s.get ME_REJECT_STALE + 1) (2 ^ ME_REJECT_STALE.w - 1) := by
  have kept : (s.report c meIid).reg ME_REJECT_STALE.off = s.reg ME_REJECT_STALE.off :=
    report_reg_ne s c meIid _ (by decide) (by decide) (by decide)
  rw [State.meReject, get_bump _ _ _ (by decide), State.get, kept, ← State.get]

theorem me_meResetNow (s : State) : s.meResetNow.me =
    { s.me with num := meReset s.me.num s.free s.rearSpeeds, wasReset := true, clones := [] } := rfl

theorem resets_meResetNow (s : State) :
    (s.meResetNow.reg ME_RESETS).toNat = min ((s.reg ME_RESETS).toNat + 1) 0xFFFFFFFF := by
  rw [State.meResetNow, ← get_whole, get_bump _ _ _ (by decide), get_whole]
  rfl

theorem reg_meResetNow_ne (s : State) {o : Nat} (h : ME_RESETS ≠ o) : s.meResetNow.reg o = s.reg o := reg_bump_ne _ _ h

/-- The trace of these numbers exceeds COV_MAX of table b (R196). -/
def Diverges (b : List Byte) (n : List Nat) : Prop := fpCmp (fpDecode .fp32 (leAt b 40 4)) (fpDecode .fp64 (meTrace n)) = -1

theorem meCheck_diverges {s : State} {b : List Byte} (h : Diverges b s.me.num) :
    s.meCheck b = (s.report 0x3014 meIid).meResetNow := if_pos (beq_iff_eq.2 h)

theorem meCheck_passes {s : State} {b : List Byte} (h : ¬ Diverges b s.me.num) : s.meCheck b = s :=
  if_neg fun k => h (beq_iff_eq.1 k)

/-- The check leaves the inputs, the state's time and the classes of inputs used as they are. -/
theorem meCheck_kept (s : State) (b : List Byte) : OnlyMe s (s.meCheck b) ∧ (s.meCheck b).me.queue = s.me.queue ∧
    (s.meCheck b).me.time = s.me.time ∧ (s.meCheck b).me.used = s.me.used := by
  by_cases h : Diverges b s.me.num
  · rw [meCheck_diverges h, me_meResetNow, report_me]
    exact ⟨(onlyRegs_report s _ _).onlyMe.trans (onlyMe_meResetNow _), rfl, rfl, rfl⟩
  · rw [meCheck_passes h]
    exact ⟨rfl, rfl, rfl, rfl⟩

/-- A divergence is reported and counted, and resets the state. -/
theorem meCheck_resets {s : State} {b : List Byte} (h : Diverges b s.me.num) :
    (s.meCheck b).me.wasReset = true ∧ (s.meCheck b).me.clones = [] ∧ (s.meCheck b).reg GLB_FAULT_LAST = 0x123014 ∧
    ((s.meCheck b).reg ME_RESETS).toNat = min ((s.reg ME_RESETS).toNat + 1) 0xFFFFFFFF := by
  rw [meCheck_diverges h, reg_meResetNow_ne _ (by decide), report_last, resets_meResetNow,
    report_reg_ne s _ _ _ (by decide) (by decide) (by decide)]
  exact ⟨rfl, rfl, rfl, rfl⟩

/-! ### ME_INPUT_PROCESS (R193, R195) -/

theorem meProcess_early {s : State} {x : MeInput} (hx : nextInput s.me.queue = some x)
    (h : s.hg.dt < x.stamp + (s.reg ME_WINDOW).toNat * 256000) : s.meProcess = s := by
  simp [State.meProcess, hx, h]

/-- The input is taken off the queue. -/
def State.meTaken (s : State) (x : MeInput) : State := s.setMe fun m => { m with queue := m.queue.erase x }

/-- An IMU sample whose window has passed, by the table in force at its stamp. -/
theorem meProcess_imu {s : State} {x : MeInput} {tab : Table} (hx : nextInput s.me.queue = some x) (on : s.meOn = true)
    (h : x.stamp + (s.reg ME_WINDOW).toNat * 256000 ≤ s.hg.dt) (htab : tableAt s.me.past s.me.tab x.stamp = some tab)
    (himu : x.imu = true) : s.meProcess = (s.meTaken x).meImu tab.bytes x := by
  simp [State.meProcess, State.meTaken, hx, on, Nat.not_lt.2 h, htab, himu]

/-- Some axis of a sample is beyond its limit (R195). -/
def MeInput.implausible (x : MeInput) (b : List Byte) : Bool :=
  let e := motImu b x.unit
  (List.range 6).any fun k => beyond (imuRaw e x.data k) (leAt e (if k < 3 then 8 else 12) 4) (leAt e (if k < 3 then 32 else 36) 4)

/-- The numbers after a sample (R193). -/
def State.propagated (s : State) (b : List Byte) (x : MeInput) : List Nat :=
  mePropagate b s.me.num (x.unit :: (List.range 6).map fun k => unsign 32 (imuRaw (motImu b x.unit) x.data k)) (x.stamp - s.me.time)

/-- The state at the stamp of a sample. -/
def State.meMoved (s : State) (b : List Byte) (x : MeInput) : State :=
  s.setMe fun m => { m with num := s.propagated b x, time := x.stamp, used := m.used ||| 1 }

theorem onlyMe_meMoved_meTaken (s : State) (x : MeInput) (b : List Byte) : OnlyMe s ((s.meTaken x).meMoved b x) := rfl

theorem meImu_stale {s : State} {b : List Byte} {x : MeInput} (hp : x.unit = leAt b 16 1) (h : x.stamp < s.me.time) :
    s.meImu b x = s.meReject 0x3013 ME_REJECT_STALE := by
  simp [State.meImu, hp, h]

theorem meImu_propagates {s : State} {b : List Byte} {x : MeInput} (hp : x.unit = leAt b 16 1) (h : s.me.time ≤ x.stamp)
    (hl : x.implausible b = false) : s.meImu b x = (s.meMoved b x).meCheck b := by
  rw [MeInput.implausible] at hl
  simp only [State.meImu, hl, if_neg (Nat.not_lt.2 h), beq_iff_eq.2 hp, Bool.true_or, Bool.not_true]
  rfl

theorem inputProcess_stale {s : State} {x : MeInput} {b : List Byte} (hs : s.meProcess = (s.meTaken x).meImu b x)
    (hp : x.unit = leAt b 16 1) (h : x.stamp < s.me.time) : Completes .meInputProcess s fun t =>
      t.me = { s.me with queue := s.me.queue.erase x } ∧ t.reg GLB_FAULT_LAST = 0x123013 ∧
      t.get ME_REJECT_STALE = min (s.get ME_REJECT_STALE + 1) (2 ^ ME_REJECT_STALE.w - 1) := by
  have rejects : s.meProcess = (s.meTaken x).meReject 0x3013 ME_REJECT_STALE := hs.trans (meImu_stale hp h)
  have only := onlyRegs_meReject (s.meTaken x) 0x3013 ME_REJECT_STALE
  exact completes_of_onlyMe (congrArg s.done rejects) ((onlyMe_setMe _ _).trans only.onlyMe)
    ⟨only.me, last_meReject _ _ (by decide), stale_meReject _ _⟩

theorem inputProcess_propagates {s : State} {x : MeInput} {b : List Byte} (hs : s.meProcess = (s.meTaken x).meImu b x)
    (hp : x.unit = leAt b 16 1) (h : s.me.time ≤ x.stamp) (hl : x.implausible b = false) :
    Completes .meInputProcess s fun t =>
      t.me.queue = s.me.queue.erase x ∧ t.me.time = x.stamp ∧ t.me.used = s.me.used ||| 1 ∧
      if fpCmp (fpDecode .fp32 (leAt b 40 4)) (fpDecode .fp64 (meTrace (s.propagated b x))) = -1 then
        t.me.wasReset = true ∧ t.me.clones = [] ∧ t.reg GLB_FAULT_LAST = 0x123014 ∧
        (t.reg ME_RESETS).toNat = min ((s.reg ME_RESETS).toNat + 1) 0xFFFFFFFF
      else t.me.num = s.propagated b x ∧ t.me.clones = s.me.clones ∧ t.regs = s.regs := by
  have moves : s.meProcess = ((s.meTaken x).meMoved b x).meCheck b := hs.trans (meImu_propagates hp h hl)
  obtain ⟨only, queue, time, used⟩ := meCheck_kept ((s.meTaken x).meMoved b x) b
  refine completes_of_onlyMe (congrArg s.done moves) ((onlyMe_meMoved_meTaken s x b).trans only) ⟨queue, time, used, ?_⟩
  have num : ((s.meTaken x).meMoved b x).me.num = s.propagated b x := rfl
  split
  case isTrue diverges =>
    rw [← Diverges, ← num] at diverges
    exact meCheck_resets diverges
  case isFalse passes =>
    rw [← Diverges, ← num] at passes
    rw [meCheck_passes passes]
    exact ⟨rfl, rfl, rfl⟩

/-! ### ZERO_VELOCITY_UPDATE (R194) -/

/-- With every enabled wheel known, the update comes at some instant to which Device Time runs on. -/
theorem meZero_stands {s : State} {tab : Table} (htab : s.me.tab = some tab) (on : s.meOn = true) (hw : wheelsOn tab.bytes ≠ [])
    (hk : ∀ w ∈ wheelsOn tab.bytes, (spGet (fun _ => none) s.me.wheels w).isSome = true) :
    ∃ t, s.meZero = ((s.advanceTo t).meMeasure tab.bytes 4 [] 3).meCheck tab.bytes := by
  have known : ¬ ∃ w ∈ wheelsOn tab.bytes, spGet (fun _ => none) s.me.wheels w = none := by
    rintro ⟨w, hm, hn⟩
    simpa [hn] using hk w hm
  have enabled : (wheelsOn tab.bytes).isEmpty = false := List.isEmpty_eq_false_iff.2 hw
  rw [State.meZero, htab]
  simp only [on, enabled, List.isEmpty_map, List.any_map, List.any_eq_true, Function.comp_apply, Option.isNone_iff_eq_none, known,
    Bool.not_true, Bool.or_self, Bool.false_or, if_false]
  exact ⟨_, rfl⟩

theorem zeroVelocityUpdate_marks {s : State} {tab : Table} (htab : s.me.tab = some tab) (on : s.meOn = true)
    (hw : wheelsOn tab.bytes ≠ []) (hk : ∀ w ∈ wheelsOn tab.bytes, (spGet (fun _ => none) s.me.wheels w).isSome = true) :
    Completes .zeroVelocityUpdate s fun t =>
      t.me.used = s.me.used ||| 8 ∧ t.me.queue = s.me.queue ∧ t.me.time = s.me.time := by
  obtain ⟨u, stands⟩ := meZero_stands htab on hw hk
  obtain ⟨only, queue, time, used⟩ := meCheck_kept ((s.advanceTo u).meMeasure tab.bytes 4 [] 3) tab.bytes
  have same : (s.advanceTo u).me = s.me := by rw [onlyHg_advanceTo]
  have measured := (onlyMe_advanceTo s u).trans (onlyMe_meMeasure _ tab.bytes 4 [] 3)
  refine completes_of_onlyMe (congrArg s.done stands) (measured.trans only) ⟨?_, ?_, ?_⟩
  · rw [used, ← same]
    rfl
  · rw [queue, ← same]
    rfl
  · rw [time, ← same]
    rfl

/-! ### ME_RESET (R196, R198) -/

/-- The row of ME_CTL: EN is read and written, RESET is set by a write of 1. -/
theorem meCtl_row : regRow ME_CTL = some { base := 0x400000, rw := 0x1, w1s := 0x2, cls := .config } := rfl

/-- ME_CTL takes a write, and RESET reads 0 again. -/
def State.meCtlSet (s : State) (i : Nat) (v : Word) : State := (s.plainWrite i ME_CTL v).putB ME_CTL_RESET false

theorem meCtlSet_eq (s : State) (i : Nat) (v : Word) : ∃ w : Word, w.getLsbD 0 = v.getLsbD 0 ∧
    s.meCtlSet i v = (s.setReg ME_CTL w).putB ME_CTL_RESET false := by
  refine ⟨_, ?_, congrArg (State.putB · ME_CTL_RESET false) (plainWrite_free meCtl_row rfl rfl s i v)⟩
  rw [getLsbD_placed _ _ _ (by decide)]
  rfl

theorem onlyRegs_meCtlSet (s : State) (i : Nat) (v : Word) : OnlyRegs s (s.meCtlSet i v) := by
  obtain ⟨w, -, set⟩ := meCtlSet_eq s i v
  rw [set]
  exact (onlyRegs_setReg s _ _).putB _ _

theorem reg_meCtlSet_ne (s : State) (i : Nat) (v : Word) {o : Nat} (h : ME_CTL ≠ o) : (s.meCtlSet i v).reg o = s.reg o := by
  obtain ⟨w, -, set⟩ := meCtlSet_eq s i v
  rw [set, reg_putB_ne _ _ h, reg_setReg_ne _ _ h]

theorem enabled_meCtlSet (s : State) (i : Nat) (v : Word) : (s.meCtlSet i v).is ME_CTL_EN = v.getLsbD 0 := by
  obtain ⟨w, bit, set⟩ := meCtlSet_eq s i v
  rw [set, is_putB_ne _ _ _ _ (by decide) (by decide), ME_CTL_EN, is_eq_getLsbD, reg_setReg_same, bit]

/-- A write of EN = 1 and RESET = 1 while the ME runs resets the state that stands, and starts nothing. -/
theorem meCtl_resets {s : State} {v : Word} (i : Nat) (he : v.getLsbD 0 = true) (hr : v.getLsbD 1 = true) (on : s.meOn = true) :
    s.meCtl i v = (s.meCtlSet i v).meResetNow := by
  have still : (s.meCtlSet i v).meOn = true := by
    rw [State.meOn, Bool.and_eq_true] at on ⊢
    rw [(onlyRegs_meCtlSet s i v).me, enabled_meCtlSet]
    exact ⟨on.1, he⟩
  rw [State.meCtlSet] at still ⊢
  simp [State.meCtl, on, hr, still]

theorem meReset_resets {iid : Iid} {v : Word} {s : State} (hw : s.writeOk iid ME_CTL = true) (he : v.getLsbD 0 = true)
    (hr : v.getLsbD 1 = true) (on : s.meOn = true) : Completes (.meReset iid v) s fun t =>
      (∃ a, t.me.num = meReset s.me.num a s.rearSpeeds) ∧ t.me.wasReset = true ∧ t.me.clones = [] ∧
      (t.reg ME_RESETS).toNat = min ((s.reg ME_RESETS).toNat + 1) 0xFFFFFFFF ∧ RegsKept [ME_CTL, ME_RESETS] s t := by
  have resets : exec (.meReset iid v) s = s.done (s.meCtlSet iid.toNat v).meResetNow := by
    show s.done (s.writeWith iid ME_CTL fun s => s.meCtl iid.toNat v) = _
    rw [writeWith_ok hw, meCtl_resets _ he hr on]
  have only := onlyRegs_meCtlSet s iid.toNat v
  refine completes_of_onlyMe resets (only.onlyMe.trans (onlyMe_meResetNow _)) ⟨⟨(s.meCtlSet iid.toNat v).free, ?_⟩, rfl, rfl, ?_,
    fun o ho => ?_⟩
  · rw [me_meResetNow, State.rearSpeeds, only.me, ← State.rearSpeeds]
  · rw [resets_meResetNow, reg_meCtlSet_ne _ _ _ (by decide)]
  · obtain ⟨ctl, count⟩ : o ≠ ME_CTL ∧ o ≠ ME_RESETS := by simpa using ho
    rw [reg_meResetNow_ne _ count.symm, reg_meCtlSet_ne _ _ _ ctl.symm]

/-! ### ME_TURN_UPDATE (R197, R198, R200) -/

section TurnUpdate

variable {s s1 s2 : State} {x : TurnRec} {m p : Table} {r : VRes}

theorem turnUpdate_off (hx : s.firstTurn (fun y => y.ended && !y.meDone && !y.held) = some x) (hm : s.me.tab = none) :
    Completes .meTurnUpdate s fun t => t = s.modTurn x fun y => { y with meDone := true, motGen := 0, ego := [] } := by
  have done : s.meTurn = s.meFinish x 0 [] := by
    rw [State.meTurn, hx]
    simp only [hm]
  exact completes_of_kept (congrArg s.done done) rfl rfl rfl

/-- The turn waits where the read of its detections faults. -/
theorem turnUpdate_held (hx : s.firstTurn (fun y => y.ended && !y.meDone && !y.held) = some x) (hm : s.me.tab = some m)
    (hp : s.weft.tab = some p) (on : s.meOn = true)
    (hd : s.detections (patTenant p.bytes) (leAt m.bytes 0 8 + x.turn % 2 * 4096) = (s1, none)) :
    Completes .meTurnUpdate s fun t => t.loom = (s1.modTurn x fun y => { y with held := true }).loom := by
  have held : s.meTurn = s1.modTurn x fun y => { y with held := true } := by
    rw [State.meTurn, hx]
    simp only [hm, hp, on, hd, Bool.not_true, if_false, Bool.false_eq_true]
  exact done_completes (congrArg s.done held) rfl

/-- Without detections the record is that of the state as it stands. -/
theorem turnUpdate_absent (hx : s.firstTurn (fun y => y.ended && !y.meDone && !y.held) = some x) (hm : s.me.tab = some m)
    (hp : s.weft.tab = some p) (on : s.meOn = true)
    (hd : s.detections (patTenant p.bytes) (leAt m.bytes 0 8 + x.turn % 2 * 4096) = (s1, some none))
    (hw : s1.tenantWrite meIid (patTenant p.bytes) (leAt m.bytes 8 8 + x.turn % 2 * 4096) (s1.egoRecord ++ s1.trackList x.turn) {} =
      (s2, r)) (hf : r.fault = none) : Completes .meTurnUpdate s fun t =>
        t.me = { s2.me with last := s2.me.used, used := 0, wasReset := false } ∧
        t.loom = (s2.modTurn x fun y => { y with
          meDone := true, motGen := m.gen, ego := s1.egoRecord ++ s1.trackList x.turn }).loom := by
  have done : s.meTurn = (s2.setMe fun e => { e with last := e.used, used := 0, wasReset := false }).meFinish x m.gen
      (s1.egoRecord ++ s1.trackList x.turn) := by
    rw [State.meTurn, hx]
    simp only [hm, hp, on, hd, hw, hf, Bool.not_true, if_false, Bool.false_eq_true, Option.isSome_none]
  exact done_completes (congrArg s.done done) ⟨rfl, rfl⟩

end TurnUpdate

/-- Settles O38: each command by its own lemma; what follows an update is the check of R196. -/
theorem motionInputsUpdateTheState : Obligations.MotionInputsUpdateTheState := by
  unfold Obligations.MotionInputsUpdateTheState
  refine ⟨fun u s => holdoverExpiry_demands, fun x s hx => ⟨fun early => ?_, fun tab on due htab himu hp => ?_⟩,
    fun tab s => zeroVelocityUpdate_marks, fun iid v s => meReset_resets, fun x s hx => ⟨turnUpdate_off hx,
      fun m p s1 s2 r hm hp on => ⟨turnUpdate_held hx hm hp on, turnUpdate_absent hx hm hp on⟩⟩⟩
  · exact congrArg s.done (meProcess_early hx early)
  · have sample := meProcess_imu hx on due htab himu
    exact ⟨inputProcess_stale sample hp, inputProcess_propagates sample hp⟩

end Sys2Proof.Machine
end

section
/-! What reads of memory, table walks and pin-walks leave as it was (R426-R441). -/

namespace Sys2Proof.Machine

open Reg

/-- `t` differs from `s` only in what reads of memory, table walks and pin-walks touch: the fault registers and those from the ATU's
block up, the memories, the pinned mappings and the count of free values. -/
structure OnlyWalked (s t : State) : Prop where
  rest : t = { s with regs := t.regs, mem := t.mem, atu := t.atu, freeCtr := t.freeCtr }
  regs : ∀ o, GLB_FAULT_COUNT < o → o < 0x800000 → t.reg o = s.reg o

theorem OnlyWalked.refl (s : State) : OnlyWalked s s := ⟨rfl, fun _ _ _ => rfl⟩

theorem OnlyWalked.trans {s t u : State} (h : OnlyWalked s t) (k : OnlyWalked t u) : OnlyWalked s u :=
  ⟨by rw [k.rest, h.rest], fun o low high => (k.regs o low high).trans (h.regs o low high)⟩

theorem OnlyWalked.loom {s t : State} (h : OnlyWalked s t) : t.loom = s.loom := (congrArg State.loom h.rest :)

/-! ### Registers -/

theorem OnlyWalked.setReg {s t : State} (h : OnlyWalked s t) {o : Nat} (v : Word) (ho : 0x800000 ≤ o) :
    OnlyWalked s (t.setReg o v) :=
  h.trans ⟨rfl, fun _ _ high => reg_setReg_ne t v (by omega)⟩

theorem OnlyWalked.bump {s t : State} (h : OnlyWalked s t) {f : Fld} (n : Nat) (hf : 0x800000 ≤ f.off) :
    OnlyWalked s (t.bump f n) :=
  h.setReg _ hf

theorem OnlyWalked.putB {s t : State} (h : OnlyWalked s t) {f : Fld} (b : Bool) (hf : 0x800000 ≤ f.off) :
    OnlyWalked s (t.putB f b) :=
  h.setReg _ hf

theorem OnlyWalked.setPair {s t : State} (h : OnlyWalked s t) {o : Nat} (v : Nat) (ho : 0x800000 ≤ o) :
    OnlyWalked s (t.setPair o v) :=
  (h.setReg _ ho).setReg _ (by omega)

theorem OnlyWalked.report {s t : State} (h : OnlyWalked s t) (c i : Nat) : OnlyWalked s (t.report c i) := by
  have only := onlyRegs_report t c i
  refine h.trans ⟨?_, fun o low _ => reg_report low t c i⟩
  rw [OnlyRegs] at only
  rw [only]

/-! ### Reads of memory -/

theorem onlyWalked_mem (s : State) (m : Mem) : OnlyWalked s { s with mem := m } := ⟨rfl, fun _ _ _ => rfl⟩

theorem onlyWalked_atu (s : State) (a : Atu) : OnlyWalked s { s with atu := a } := ⟨rfl, fun _ _ _ => rfl⟩

theorem onlyWalked_took (s : State) : OnlyWalked s s.took := ⟨rfl, fun _ _ _ => rfl⟩

theorem onlyWalked_dpaRefuse (s : State) (c i : Nat) : OnlyWalked s (s.dpaRefuse c i) := by
  have reported := (OnlyWalked.refl s).report c i
  unfold State.dpaRefuse
  dsimp only
  split
  · exact reported.bump _ (by decide)
  · exact reported.bump _ (by decide)

theorem onlyWalked_reelTouch (s : State) (l : Nat) (wr : Bool) : OnlyWalked s (s.reelTouch l wr) := by
  unfold State.reelTouch
  dsimp only
  split
  · exact onlyWalked_mem s _
  · split
    · split
      · exact onlyWalked_mem s _
      · exact .refl s
    · exact (onlyWalked_mem s _).bump _ (by decide)

theorem onlyWalked_reelTouches (a : Nat) (wr : Bool) (l : List Nat) (s : State) :
    OnlyWalked s (l.foldl (fun s i => s.reelTouch (a + i) wr) s) := by
  induction l generalizing s with
  | nil => exact .refl s
  | cons x r ih => exact (onlyWalked_reelTouch s _ wr).trans (ih _)

theorem onlyWalked_reelSpan (s : State) (a n : Nat) (wr : Bool) : OnlyWalked s (s.reelSpan a n wr) := by
  unfold State.reelSpan
  split
  · refine OnlyWalked.trans ?_ (onlyWalked_reelTouches _ wr _ _)
    split
    · exact (OnlyWalked.refl s).putB false (by decide)
    · exact .refl s
  · exact .refl s

theorem onlyWalked_poisonLines (s : State) (l n : Nat) : OnlyWalked s (s.poisonLines l n) := by
  induction n generalizing s l with
  | zero => exact .refl s
  | succ n ih => exact (onlyWalked_mem s _).trans (ih _ _)

theorem onlyWalked_eccUe (s : State) (i l : Nat) : OnlyWalked s (s.eccUe i l) := by
  unfold State.eccUe
  split
  · exact ((OnlyWalked.refl s).bump _ (by decide)).report _ _
  · exact (((OnlyWalked.refl s).bump _ (by simp only [whole, MEM_ECC_UE]; omega)).setPair _
      (by simp only [MEM_ECC_ADDR_LO]; omega)).report _ _

theorem onlyWalked_recover (s : State) (i l : Nat) (e : MemErr) : OnlyWalked s (s.recover i l e).1 := by
  have told (c : Nat) : OnlyWalked s (s.report c i) := (OnlyWalked.refl s).report c i
  unfold State.recover State.recoverBy
  split
  · dsimp only
    split
    · split
      · exact told _
      · exact (OnlyWalked.refl s).bump _ (by decide)
    · split
      · split
        · exact told _
        · exact .refl s
      · exact .refl s
  · exact .refl s

theorem onlyWalked_lineRead (s : State) (i l : Nat) (e : MemErr) : OnlyWalked s (s.lineRead i l e).1 := by
  have tried : OnlyWalked s ((s.eccUe i l).recover i l e).1 := (onlyWalked_eccUe s i l).trans (onlyWalked_recover _ i l e)
  unfold State.lineRead
  dsimp only
  split
  · exact .refl s
  · split
    · split
      · dsimp only
        exact tried.trans (onlyWalked_poisonLines _ _ _)
      · exact tried
    · split
      · split
        · exact (OnlyWalked.refl s).bump _ (by decide)
        · exact (OnlyWalked.refl s).bump _ (by simp only [whole, MEM_ECC_CE]; omega)
      · exact .refl s

theorem onlyWalked_linesRead (s : State) (i l : Nat) (e : MemErr) (n : Nat) : OnlyWalked s (s.linesRead i l e n).1 := by
  induction n generalizing s l with
  | zero => exact .refl s
  | succ n ih => exact (onlyWalked_lineRead s i l e).trans (ih _ _)

theorem onlyWalked_dpaRead (s : State) (i a n : Nat) (e : MemErr) : OnlyWalked s (s.dpaRead i a n e).1 := by
  unfold State.dpaRead
  split
  · exact .refl s
  · exact (onlyWalked_reelSpan s a n false).trans (onlyWalked_linesRead _ _ _ _ _)

/-! ### Walks (R434-R439) -/

theorem onlyWalked_tableRead (s : State) (t a : Nat) (e : MemErr) : OnlyWalked s (s.tableRead t a e).1 := by
  unfold State.tableRead
  split
  · exact onlyWalked_dpaRefuse _ _ _
  · exact onlyWalked_dpaRead _ _ _ _ _

theorem onlyWalked_leafOf (s : State) (va a n : Nat) : OnlyWalked s (s.leafOf va a n).1 := by
  unfold State.leafOf
  dsimp only
  split
  · exact .refl s
  · split
    · exact .refl s
    · split
      · exact .refl s
      · split
        · exact .refl s
        · exact onlyWalked_took s

theorem onlyWalked_walkFrom (s : State) (t va : Nat) (e : MemErr) (n base up : Nat) :
    OnlyWalked s (s.walkFrom t va e n base up).1 := by
  induction n generalizing s base up with
  | zero => exact .refl s
  | succ n ih =>
    have read := onlyWalked_tableRead s t (base + vaIndex va (4 - n) * 8) e
    unfold State.walkFrom
    dsimp only
    split
    · exact .refl s
    · rcases hr : s.tableRead t (base + vaIndex va (4 - n) * 8) e with ⟨s1, _ | entry⟩
      · rw [hr] at read
        exact read
      · rw [hr] at read
        dsimp only at read ⊢
        split
        · exact read
        · split
          · exact read.trans (onlyWalked_leafOf _ _ _ _)
          · split
            · exact read
            · exact read.trans (ih _ _ _)

theorem onlyWalked_walk (s : State) (t va : Nat) (e : MemErr) : OnlyWalked s (s.walk t va e).1 := by
  unfold State.walk
  split
  · exact .refl s
  · exact ((OnlyWalked.refl s).bump _ (by decide)).trans (onlyWalked_walkFrom _ _ _ _ _ _ _)

theorem onlyWalked_pinPages (s : State) (o : PinOwner) (t : Nat) (wr : Bool) (e : MemErr) (k pg : Nat) :
    OnlyWalked s (s.pinPages o t wr e k pg).1 := by
  induction k generalizing s pg with
  | zero => exact .refl s
  | succ k ih =>
    have walked := onlyWalked_walk s t (pg * 4096) e
    unfold State.pinPages
    split
    · exact ih _ _
    · rcases hr : s.walk t (pg * 4096) e with ⟨s1, l | ⟨r, level⟩⟩
      · rw [hr] at walked
        dsimp only at walked ⊢
        split
        · exact walked.report _ _
        · split
          · exact walked.report _ _
          · exact (walked.trans (onlyWalked_atu _ _)).trans (ih _ _)
      · rw [hr] at walked
        exact walked.report _ _

theorem onlyWalked_pinWalk (s : State) (o : PinOwner) (t va n : Nat) (wr : Bool) (e : MemErr) :
    OnlyWalked s (s.pinWalk o t va n wr e).1 := by
  unfold State.pinWalk
  split
  · exact .refl s
  · exact onlyWalked_pinPages _ _ _ _ _ _ _

theorem onlyWalked_unpin (s : State) (f : PinOwner → Bool) : OnlyWalked s (s.unpin f) := onlyWalked_atu s _

end Sys2Proof.Machine
end

section
/-! The Loom: assembly, release, transmission, lock and EN (O40). -/

namespace Sys2Proof.Machine

open Reg

/-! ### Banks that become free (R187) -/

/-- `t` differs from `s` only in the pinned mappings and in the Weft's banks. -/
def OnlyBanks (s t : State) : Prop := t = { s with atu := t.atu, weft := t.weft }

theorem OnlyBanks.trans {s t u : State} (h : OnlyBanks s t) (k : OnlyBanks t u) : OnlyBanks s u := by
  unfold OnlyBanks at *
  rw [k, h]

theorem OnlyBanks.loom {s t : State} (h : OnlyBanks s t) : t.loom = s.loom := (congrArg State.loom h :)

theorem OnlyBanks.outbox {s t : State} (h : OnlyBanks s t) : t.outbox = s.outbox := (congrArg State.outbox h :)

theorem OnlyBanks.reg {s t : State} (h : OnlyBanks s t) (o : Nat) : t.reg o = s.reg o := by
  rw [OnlyBanks] at h
  rw [h]
  rfl

theorem onlyBanks_emptyBank (s : State) (b : Nat) : OnlyBanks s (s.emptyBank b) := by
  unfold State.emptyBank
  split
  · rfl
  · rfl

theorem onlyBanks_bankSweep (s : State) : OnlyBanks s s.bankSweep := by
  have fold (l : List Nat) (u : State) : OnlyBanks u (l.foldl (fun s b =>
      if s.bankFree b && (s.weft.exp.map (·.bank)) != some b then s.emptyBank b else s) u) := by
    induction l generalizing u with
    | nil => rfl
    | cons b r ih =>
      refine OnlyBanks.trans ?_ (ih _)
      dsimp only
      split
      · exact onlyBanks_emptyBank u b
      · rfl
  have used : OnlyBanks s (s.setWeft fun w => { w with uses := w.uses.filter fun u => s.turnLive u.1 u.2.1 }) := rfl
  exact used.trans (fold _ _)

/-- A command whose last act is the sweep of the banks: what the state before the sweep holds of the Loom, of the registers and of
what has left the device, the outcome holds. -/
theorem completes_of_bankSweep {c : Instr} {s u : State} {p : State → Prop} (h : exec c s = s.done u.bankSweep)
    (hp : ∀ t : State, t.loom = u.loom → (∀ o, t.reg o = u.reg o) → t.outbox = u.outbox → p t) : Completes c s p :=
  done_completes h (hp _ (onlyBanks_bankSweep u).loom (onlyBanks_bankSweep u).reg (onlyBanks_bankSweep u).outbox)

/-! ### RECORD_ASSEMBLY (R216) -/

section Assembly

variable {x : TurnRec} {s s1 s2 : State} {ms : List (List Byte)}

theorem recordAssembly_held (hx : (s.firstTurn fun x => x.meDone && x.recs.isNone && !x.held) = some x)
    (hm : s.manifest x.turn = (s1, ms)) (hp : s1.payloads s.recTenant ms = (s2, none)) :
    Completes .recordAssembly s fun t => t.loom = (s2.modTurn x fun y => { y with held := true }).loom := by
  have held : s.assemble = s2.modTurn x fun y => { y with held := true } := by
    rw [State.assemble, hx]
    simp only [hm, hp]
  exact done_completes (congrArg s.done held) rfl

theorem recordAssembly_assembles (hx : (s.firstTurn fun x => x.meDone && x.recs.isNone && !x.held) = some x)
    (hm : s.manifest x.turn = (s1, ms)) {l : List LmRec} (hp : s1.payloads s.recTenant ms = (s2, some l)) :
    Completes .recordAssembly s fun t => t.loom = (s2.modTurn x fun y => { y with
      ready := s2.hg.dt, recs := some (l ++ [{ id := 0xFFFF, cls := 0, groups := 0, payload := x.ego }]) }).loom := by
  have assembled : s.assemble = s2.modTurn x fun y => { y with
      ready := s2.hg.dt, recs := some (l ++ [{ id := 0xFFFF, cls := 0, groups := 0, payload := x.ego }]) } := by
    rw [State.assemble, hx]
    simp only [hm, hp]
  exact done_completes (congrArg s.done assembled) rfl

end Assembly

/-! ### RELEASE (R218, R220) -/

section Release

/-- The turn that is released leaves the open turns. -/
def State.releasing (s : State) (x : TurnRec) : State := s.dropTurns fun y => y.run == x.run && y.turn == x.turn

/-- The slots of the record ring that are free (R220). -/
def State.ringRoom (s : State) : Nat :=
  ((s.reg LM_REC_TAIL).toNat % s.recSize + s.recSize - (s.reg LM_REC_HEAD).toNat % s.recSize + s.recSize - 1) % s.recSize

variable {x : TurnRec} {st : Stamp} {s : State}

/-- With no Pattern table there are no views to wait for, and the records alone are released. -/
theorem release_records (hx : (s.firstTurn fun x => x.stamp.isSome) = some x) (hst : x.stamp = some st) (hp : x.pat = none)
    (hstop : s.loomStopped = false) (on : s.is LM_CTL_EN = true) (ring : s.loom.ring = true) :
    s.release = ((s.releasing x).releaseRecs x st).bankSweep := by
  rw [State.release, hx]
  simp [hst, hp, hstop, on, ring, State.releaseViews, State.releasing]

/-- Where the ring has no room, the turn is counted and none of its records is written. -/
theorem releaseRecs_full (h : s.ringRoom < (x.recs.getD []).length) : s.releaseRecs x st =
    (s.bump LM_STAT_REC_DROP).setLoom fun l => { l with lostTurns := l.lostTurns + 1 } := if_pos h

theorem releaseRecs_room (h : (x.recs.getD []).length ≤ s.ringRoom) : s.releaseRecs x st =
    s.writeRecs x st (x.recs.getD []).length 0 (x.recs.getD []) := if_neg (Nat.not_lt.2 h)

/-- An interrupt changes neither the Loom nor a register. -/
theorem msix_keeps (s : State) (t v : Nat) : (s.msix t v).loom = s.loom ∧ ∀ o, (s.msix t v).reg o = s.reg o := by
  unfold State.msix
  split
  · exact ⟨rfl, fun _ => rfl⟩
  · exact ⟨rfl, fun _ => rfl⟩

/-- The only record of a turn is written at the head, which moves on by one. -/
theorem writeRecs_single {r : LmRec} {s1 : State}
    (hw : s.pinnedWrite lmIid s.recTenant (s.pair LM_REC_BASE_LO + 4096 * ((s.reg LM_REC_HEAD).toNat % s.recSize))
      (s.recordBytes x st 0 1 r) {} = (s1, true)) :
    (s.writeRecs x st 1 0 [r]).loom.turns = s1.loom.turns ∧ (s.writeRecs x st 1 0 [r]).loom.lostTurns = 0 ∧
    (s.writeRecs x st 1 0 [r]).reg LM_REC_HEAD = BitVec.ofNat 32 (((s.reg LM_REC_HEAD).toNat % s.recSize + 1) % s.recSize) := by
  simp only [State.writeRecs, hw, List.isEmpty_nil, if_true, msix_keeps]
  exact ⟨rfl, rfl, reg_setReg_same s1 _ _⟩

theorem release_drops (hx : (s.firstTurn fun x => x.stamp.isSome) = some x) (hst : x.stamp = some st) (hp : x.pat = none)
    (hstop : s.loomStopped = false) (on : s.is LM_CTL_EN = true) (ring : s.loom.ring = true)
    (full : s.ringRoom < (x.recs.getD []).length) : Completes .release s fun t =>
      t.loom.turns = (s.loom.turns.filter fun y => !(y.run == x.run && y.turn == x.turn)) ∧
      t.loom.lostTurns = s.loom.lostTurns + 1 ∧ RegsKept [LM_STAT] s t ∧
      t.get LM_STAT_REC_DROP = min (s.get LM_STAT_REC_DROP + 1) (2 ^ LM_STAT_REC_DROP.w - 1) := by
  have drops := (release_records hx hst hp hstop on ring).trans (congrArg State.bankSweep (releaseRecs_full (st := st) full))
  refine completes_of_bankSweep (congrArg s.done drops) fun t loom reg _ => ?_
  rw [loom]
  exact ⟨rfl, rfl, fun o ho => (reg o).trans (regsKept_bump (s.releasing x) 1 rfl o ho),
    (get_congr (reg _)).trans (get_bump (s.releasing x) _ 1 (by decide))⟩

theorem release_writes {r : LmRec} {s1 : State} (hx : (s.firstTurn fun x => x.stamp.isSome) = some x) (hst : x.stamp = some st)
    (hp : x.pat = none) (hstop : s.loomStopped = false) (on : s.is LM_CTL_EN = true) (ring : s.loom.ring = true)
    (hr : x.recs = some [r]) (room : 1 ≤ s.ringRoom)
    (hw : (s.releasing x).pinnedWrite lmIid s.recTenant (s.pair LM_REC_BASE_LO + 4096 * ((s.reg LM_REC_HEAD).toNat % s.recSize))
      ((s.releasing x).recordBytes x st 0 1 r) {} = (s1, true)) : Completes .release s fun t =>
      t.loom.turns = s1.loom.turns ∧ t.loom.lostTurns = 0 ∧
      t.reg LM_REC_HEAD = BitVec.ofNat 32 (((s.reg LM_REC_HEAD).toNat % s.recSize + 1) % s.recSize) := by
  have writes : (s.releasing x).releaseRecs x st = (s.releasing x).writeRecs x st 1 0 [r] := by
    have recs : x.recs.getD [] = [r] := by rw [hr, Option.getD_some]
    rw [releaseRecs_room (by rw [recs]; exact room), recs]
    rfl
  have released := (release_records hx hst hp hstop on ring).trans (congrArg State.bankSweep writes)
  refine completes_of_bankSweep (congrArg s.done released) fun t loom reg _ => ?_
  rw [loom, reg]
  exact writeRecs_single hw

end Release

/-! ### VIEW_FRAME_TRANSMIT and VIEW_LOCK_DROP (R212-R214, R224) -/

@[simp] theorem port_setPort (s : State) (p : Nat) (x : LmPort) : (s.setPort p x).port p = x := spGet_spPut_same _ _ _

theorem port_of_loom {s t : State} (h : t.loom = s.loom) (p : Nat) : t.port p = s.port p := by simp only [State.port, h]

theorem loom_advanceTo (s : State) (t : Nat) : (s.advanceTo t).loom = s.loom := by rw [onlyHg_advanceTo]

/-- `u` sends `o`, which holds the frame of count `seq` of view `v`, and port p becomes `x`. -/
def State.frameSent (u : State) (p : Nat) (o : Out) (x : LmPort) (v seq : Nat) : State :=
  (((u.emit o).setPort p x).setReg (LM_VIEW_SEQ v) (BitVec.ofNat 32 seq)).setLoom fun l => { l with
    sent := spPut (fun _ => 0) l.sent v ((seq + 1) % 2 ^ 32), dropped := spPut (fun _ => 0) l.dropped v 0 }

/-- A port that is locked and enabled sends its oldest entry, which stays on the wire with its line made whole. -/
theorem transmit_sends {p : Nat} {f : LmFrame} {rest : List LmFrame} {s : State} (hf : (s.port p).fifo = f :: rest)
    (hl : (s.port p).locked = true) (he : s.is (LM_PORT_CFG_EN p) = true) (hs : s.loomStopped = false) :
    ∃ u vc ty emb rows line was stop next,
      s.transmit p = (State.frameSent u p (.viewFrame p vc ty emb rows)
        { s.port p with fifo := rest, wire := some ({ f with emb := line, seqWas := was }, stop, next) }
        f.view (spGet (fun _ => 0) s.loom.sent f.view)).bankSweep := by
  rw [State.transmit]
  simp only [hf, hl, he, hs, loom_advanceTo, Bool.not_true, Bool.or_false, Bool.false_eq_true, if_false]
  exact ⟨_, _, _, _, _, _, _, _, _, rfl⟩

theorem viewFrameTransmit_sends {p : Fin 2} {f : LmFrame} {rest : List LmFrame} {s : State} (hf : (s.port p).fifo = f :: rest)
    (hl : (s.port p).locked = true) (he : s.is (LM_PORT_CFG_EN p) = true) (hs : s.loomStopped = false) :
    Completes (.viewFrameTransmit p) s fun t => (t.port p).fifo = rest ∧
      (∃ g u v, (t.port p).wire = some (g, u, v) ∧ g.view = f.view ∧ g.turn = f.turn ∧ g.rows = f.rows) ∧
      t.reg (LM_VIEW_SEQ f.view) = BitVec.ofNat 32 (spGet (fun _ => 0) s.loom.sent f.view) ∧
      spGet (fun _ => 0) t.loom.dropped f.view = 0 ∧ ∃ vc ty emb rows o, t.outbox = .viewFrame p vc ty emb rows :: o := by
  obtain ⟨u, vc, ty, emb, rows, line, was, stop, next, sends⟩ := transmit_sends hf hl he hs
  refine completes_of_bankSweep (congrArg s.done sends) fun t loom reg outbox => ?_
  have port : t.port p = { s.port p with fifo := rest, wire := some ({ f with emb := line, seqWas := was }, stop, next) } :=
    (port_of_loom loom p).trans (spGet_spPut_same _ _ _)
  rw [port]
  refine ⟨rfl, ⟨_, _, _, rfl, rfl, rfl, rfl⟩, (reg _).trans (reg_setReg_same _ _ _), ?_, _, _, _, _, _, outbox⟩
  rw [loom]
  exact spGet_spPut_same u.loom.dropped f.view 0

/-- A drop takes the oldest entry out of the FIFO and counts it. -/
theorem lockDrop_drops {p : Fin 2} {f : LmFrame} {rest : List LmFrame} {s : State} (hf : (s.port p).fifo = f :: rest) :
    ((s.lockDrop p).port p).fifo = rest ∧ RegsKept [LM_PORT_DROP p] s (s.lockDrop p) ∧
    (s.lockDrop p).get (LM_PORT_DROP_LOCK_DROP p) =
      min (s.get (LM_PORT_DROP_LOCK_DROP p) + 1) (2 ^ (LM_PORT_DROP_LOCK_DROP p).w - 1) := by
  have drops : s.lockDrop p =
      ((s.setPort p { s.port p with fifo := rest }).bump (LM_PORT_DROP_LOCK_DROP p)).viewLost f.view := by
    rw [State.lockDrop, hf]
  rw [drops]
  exact ⟨congrArg LmPort.fifo (spGet_spPut_same _ _ _), regsKept_bump (s.setPort p _) 1 rfl,
    get_bump (s.setPort p _) _ 1 (by simp [LM_PORT_DROP_LOCK_DROP])⟩

theorem viewLockDrop_drops {p : Fin 2} {f : LmFrame} {rest : List LmFrame} {s : State} (hf : (s.port p).fifo = f :: rest)
    (hl : (s.port p).locked = false) : Completes (.viewLockDrop p) s fun t =>
      (t.port p).fifo = rest ∧ RegsKept [LM_PORT_DROP p] s t ∧
      t.get (LM_PORT_DROP_LOCK_DROP p) = min (s.get (LM_PORT_DROP_LOCK_DROP p) + 1) (2 ^ (LM_PORT_DROP_LOCK_DROP p).w - 1) := by
  have waited : s.lockWait p = ((s.advanceTo ((s.port p).waitEnd f)).lockDrop p).bankSweep := by
    rw [State.lockWait, hf]
    exact if_neg (ne_true_of_eq_false hl)
  obtain ⟨fifo, regs, count⟩ := lockDrop_drops (s := s.advanceTo ((s.port p).waitEnd f))
    ((congrArg LmPort.fifo (port_of_loom (loom_advanceTo _ _) p)).trans hf)
  refine completes_of_bankSweep (congrArg s.done waited) fun t loom reg _ => ⟨?_, fun o ho => ?_, ?_⟩
  · rw [port_of_loom loom p, fifo]
  · rw [reg, regs o ho, reg_advanceTo]
  · rw [get_congr (reg _), count, get_congr (reg_advanceTo s _ _)]

/-! ### STX_LOCK_LOSS and STX_LOCK_RETURN (R224, R225) -/

theorem stxLockLoss_idle {p : Fin 2} {s : State} (hl : (s.port p).locked = true) (hw : (s.port p).wire = none) :
    Completes (.stxLockLoss p) s fun t => t = s.setPort p { s.port p with locked := false, lost := s.hg.dt } := by
  have uncut : s.cutWire p true = s := by rw [State.cutWire, hw]
  have lost : s.stxLoss p = s.setPort p { s.port p with locked := false, lost := s.hg.dt } := by
    simp [State.stxLoss, hl, uncut]
  exact completes_of_kept (congrArg s.done lost) rfl rfl rfl

/-- A frame on the wire is cut and counted, and the counts of its view go back. -/
theorem cutWire_aborts {p : Fin 2} {f : LmFrame} {u v : Nat} {s : State} (hw : (s.port p).wire = some (f, u, v))
    (hu : s.hg.dt < u) :
    (s.cutWire p true).port p = { s.port p with wire := none } ∧ (s.cutWire p true).outbox = .viewCut p :: s.outbox ∧
    (s.cutWire p true).get (LM_PORT_DROP_ABORTED p) =
      min (s.get (LM_PORT_DROP_ABORTED p) + 1) (2 ^ (LM_PORT_DROP_ABORTED p).w - 1) ∧
    (s.cutWire p true).reg (LM_VIEW_SEQ f.view) = f.seqWas ∧ spGet (fun _ => 0) (s.cutWire p true).loom.dropped f.view =
      min (leAt f.emb 48 2 + spGet (fun _ => 0) s.loom.dropped f.view + 1) 65535 := by
  have cut : s.cutWire p true =
      (((s.setPort p { s.port p with wire := none }).emit (.viewCut p)).bump (LM_PORT_DROP_ABORTED p)).unsent f 1 := by
    rw [State.cutWire, hw]
    exact if_neg (Nat.not_le.2 hu)
  have apart : LM_VIEW_SEQ f.view ≠ (LM_PORT_DROP_ABORTED p).off := by
    simp only [LM_VIEW_SEQ, LM_PORT_DROP_ABORTED, LM_PORT_DROP]
    omega
  rw [cut]
  refine ⟨spGet_spPut_same _ _ _, rfl, ?_, reg_setReg_same _ _ _, spGet_spPut_same _ _ _⟩
  exact (get_setReg_ne _ _ apart).trans (get_bump ((s.setPort p _).emit _) _ 1 (by simp [LM_PORT_DROP_ABORTED]))

theorem stxLockLoss_aborts {p : Fin 2} {f : LmFrame} {u v : Nat} {s : State} (hl : (s.port p).locked = true)
    (hw : (s.port p).wire = some (f, u, v)) (hu : s.hg.dt < u) : Completes (.stxLockLoss p) s fun t =>
      (t.port p).locked = false ∧ (t.port p).wire = none ∧ t.outbox = .viewCut p :: s.outbox ∧
      t.get (LM_PORT_DROP_ABORTED p) = min (s.get (LM_PORT_DROP_ABORTED p) + 1) (2 ^ (LM_PORT_DROP_ABORTED p).w - 1) ∧
      t.reg (LM_VIEW_SEQ f.view) = f.seqWas ∧ spGet (fun _ => 0) t.loom.dropped f.view =
        min (leAt f.emb 48 2 + spGet (fun _ => 0) s.loom.dropped f.view + 1) 65535 := by
  obtain ⟨port, outbox, count, seq, dropped⟩ := cutWire_aborts hw hu
  have lost : s.stxLoss p = (s.cutWire p true).setPort p { s.port p with wire := none, locked := false, lost := s.hg.dt } := by
    simp [State.stxLoss, hl, port]
  have idle : (s.stxLoss p).port p = { s.port p with wire := none, locked := false, lost := s.hg.dt } := by rw [lost, port_setPort]
  refine done_completes (t := s.stxLoss p) rfl ⟨congrArg LmPort.locked idle, congrArg LmPort.wire idle, ?_⟩
  rw [lost]
  exact ⟨outbox, count, seq, dropped⟩

theorem stxLockReturn_locks {p : Fin 2} {s : State} (hl : (s.port p).locked = false) (he : s.is (LM_PORT_CFG_EN p) = true)
    (hw : ∀ f ∈ (s.port p).fifo.head?, s.hg.dt < (s.port p).waitEnd f) : Completes (.stxLockReturn p) s fun t =>
      t = s.setPort p { s.port p with locked := true } := by
  have waits : s.dropOverdue p 4 = s := by
    rw [State.dropOverdue]
    split
    · rfl
    · next f rest hf => exact if_neg (Nat.not_le.2 (hw f (by simp [hf])))
  have locks : s.stxLock p = s.setPort p { s.port p with locked := true } := by
    simp [State.stxLock, he, hl, waits]
  exact completes_of_kept (congrArg s.done locks) rfl rfl rfl

/-! ### LOOM_ENABLE and LOOM_DISABLE (R211, R440) -/

section Enable

variable {iid : Iid} {v : Word} {s : State}

theorem exec_loomEnable (hw : s.writeOk iid LM_CTL = true) : exec (.loomEnable iid v) s = s.done (s.loomCtl v) :=
  congrArg s.done (writeWith_ok hw _)

theorem exec_loomDisable (hw : s.writeOk iid LM_CTL = true) : exec (.loomDisable iid v) s = s.done (s.loomCtl v) :=
  congrArg s.done (writeWith_ok hw _)

/-- EN is set, and the counts of records and frames start again. -/
def State.loomBegun (s : State) : State :=
  (s.putB LM_CTL_EN true).setLoom fun l => { l with recSeq := 0, sent := [], dropped := [], ring := true }

/-- EN of valid views starts the Loom; what follows are pin-walks. -/
theorem loomCtl_begins (hv : v.getLsbD 0 = true) (off : s.is LM_CTL_EN = false) (ok : s.viewsOk = true) :
    OnlyWalked s.loomBegun (s.loomCtl v) := by
  simp only [State.loomCtl, hv, off, ok, Bool.not_true, Bool.and_false, Bool.false_eq_true, if_false]
  exact ((onlyWalked_unpin s.loomBegun _).trans (onlyWalked_pinWalk _ _ _ _ _ _ _)).trans (onlyWalked_pinWalk _ _ _ _ _ _ _)

theorem loomEnable_begins (hw : s.writeOk iid LM_CTL = true) (hv : v.getLsbD 0 = true) (off : s.is LM_CTL_EN = false)
    (ok : s.viewsOk = true) : Completes (.loomEnable iid v) s fun t =>
      t.is LM_CTL_EN = true ∧ t.loom = { s.loom with recSeq := 0, sent := [], dropped := [], ring := true } := by
  have walked := loomCtl_begins hv off ok
  have en : (s.loomCtl v).is LM_CTL_EN = true :=
    (is_congr (walked.regs _ (by decide) (by decide))).trans (is_putB s _ _ (by decide) rfl)
  exact done_completes (exec_loomEnable hw) ⟨en, walked.loom⟩

theorem loomEnable_refuses (hw : s.writeOk iid LM_CTL = true) (hv : v.getLsbD 0 = true) (off : s.is LM_CTL_EN = false)
    (bad : s.viewsOk = false) : exec (.loomEnable iid v) s = .next s := by
  have stands : s.loomCtl v = s := by simp [State.loomCtl, hv, off, bad]
  rw [exec_loomEnable hw, stands, done_eq s s rfl rfl]

theorem loomDisable_unpins (hw : s.writeOk iid LM_CTL = true) (hv : v.getLsbD 0 = false) :
    Completes (.loomDisable iid v) s fun t => t.is LM_CTL_EN = false ∧ RegsKept [LM_CTL] s t ∧
      t.loom = s.loom ∧ t.atu.pts = s.atu.pts.filter fun p => !decide (p.owner = PinOwner.loom) := by
  have stops : s.loomCtl v = (s.putB LM_CTL_EN false).loomUnpin := by
    rw [State.loomCtl, hv]
    rfl
  exact completes_of_kept ((exec_loomDisable hw).trans (congrArg s.done stops)) rfl rfl
    ⟨is_putB s _ _ (by decide) rfl, regsKept_putB s false rfl, rfl, rfl⟩

end Enable

/-- Settles O40: each command by its own lemmas; a release, a transmission and a drop end with the sweep of the banks, which leaves the
Loom alone, and EN = 1 ends with pin-walks. -/
theorem recordsAndViewsAreReleased : Obligations.RecordsAndViewsAreReleased := by
  unfold Obligations.RecordsAndViewsAreReleased
  refine ⟨fun x s s1 s2 ms hx hm => ⟨recordAssembly_held hx hm, fun l => recordAssembly_assembles hx hm⟩,
    fun x st s hx hst hp hstop on ring => ⟨release_drops hx hst hp hstop on ring, fun r s1 hr room =>
      release_writes hx hst hp hstop on ring hr room⟩,
    fun p f rest s hf => ⟨viewFrameTransmit_sends hf, viewLockDrop_drops hf⟩,
    fun p s hl => ⟨stxLockLoss_idle hl, fun f u v => stxLockLoss_aborts hl⟩,
    fun p s => stxLockReturn_locks,
    fun iid v s hw => ⟨loomEnable_begins hw, loomEnable_refuses hw, loomDisable_unpins hw⟩⟩

end Sys2Proof.Machine
end

section
/-! PROGRAM_END ends with a poll of the pending commit (R505), whose own report takes the place of 0x4005 in GLB_FAULT_LAST (O51): a
program that ends late while a Pattern commit waits. -/

namespace Sys2Proof.Machine

open Reg

/-- A Pattern table with one source, of stream 0, whose PHASE and TRIG_DIV are 0. -/
def phaselessTable : Staged := { kind := 1, gen := 5, bytes := List.replicate 18 0 ++ [1], ord := 1 }

/-- The Pattern unit's commit of that table, with no turn to wait for; this attempt has reported no phase yet. -/
def phaselessCommit : Commit := { req := 9, csn := 3, units := 2, gen := 5, target := none, tries := 0, phaseSaid := false }

/-- Turn 6's program has ended, one second after its turn's start and with the deadline of reset. Turns do not run, and the commit is
pending: stream 0 names trigger 0, whose PHASE is not the table's. -/
def overdueState : State :=
  let s := (State.reset.putB (SP_STR_SRC_TRIG_VALID 0) true).setReg (HG_TRIG_PHASE 0) 1
  { s with
    hg := { s.hg with running := true, dt := 256 * 10 ^ 9 }
    eng := { s.eng with sched := { s.eng.sched with running := some 6 } }
    track := { s.track with staged := [phaselessTable], commit := some phaselessCommit } }

theorem progDone_overdueState : overdueState.progDone = true := by decide +kernel

theorem late_overdueState : (overdueState.reg TE_GOV_DEADLINE).toNat * 256 < overdueState.hg.dt - overdueState.eng.sched.turnAt := by
  decide +kernel

/-- The end of the program reports 0x4005, and the poll that follows it 0x3002 (R187). -/
theorem lastFaults_overdueState : overdueState.endProgram.reg GLB_FAULT_LAST = 0xA4005 ∧
    overdueState.endProgram.commitPoll.reg GLB_FAULT_LAST = 0x113002 := by
  decide +kernel

/-- Refutes O51: where a program ends later than its deadline and the commit that PROGRAM_END polls next finds a phase mismatch,
GLB_FAULT_LAST holds that report and no longer 0x4005. -/
theorem not_engineSchedulesAndGoverns : ¬ Obligations.EngineSchedulesAndGoverns := by
  unfold Obligations.EngineSchedulesAndGoverns
  rintro ⟨-, -, -, -, -, -, ends⟩
  obtain ⟨t, ht, -, -, late⟩ := ends 6 overdueState rfl rfl progDone_overdueState
  obtain ⟨-, mismatch⟩ := lastFaults_overdueState
  have polled : t.reg GLB_FAULT_LAST = 0x113002 := (reg_of_done ht _).trans mismatch
  exact absurd ((late late_overdueState).symm.trans polled) (by decide)

end Sys2Proof.Machine
end

section
/-! Syllables of an open bundle, and what those of the Purl slot write (O44). -/

namespace Sys2Proof.Machine

/-! ### One hoop changes -/

theorem hoop_setHoop (s : State) (h g : Nat) (y : Hoop) : (s.setHoop h y).hoop g = if h = g then y else s.hoop g :=
  spGet_spPut _ _ _ _

theorem hoopOnly_setHoop (s : State) (h : Nat) (y : Hoop) : HoopOnly h s (s.setHoop h y) y :=
  ⟨by rw [hoop_setHoop, if_pos rfl], fun g hg => by rw [hoop_setHoop, if_neg hg.symm], rfl⟩

theorem hoopOnly_modHoop (s : State) (h : Nat) (f : Hoop → Hoop) : HoopOnly h s (s.modHoop h f) (f (s.hoop h)) :=
  hoopOnly_setHoop s h _

theorem hoopOnly_self (s : State) (h : Nat) : HoopOnly h s s (s.hoop h) := ⟨rfl, fun _ _ => rfl, rfl⟩

theorem hoopOnly_trans {h : Nat} {s t u : State} {y z : Hoop} (a : HoopOnly h s t y) (b : HoopOnly h t u z) : HoopOnly h s u z := by
  obtain ⟨-, others, rest⟩ := a
  obtain ⟨this, others', rest'⟩ := b
  refine ⟨this, fun g hg => (others' g hg).trans (others g hg), ?_⟩
  rw [rest] at rest'
  exact rest'

theorem hoop_of_hoopOnly {h : Nat} {s t : State} {y : Hoop} (a : HoopOnly h s t y) : t.hoop h = y := by
  obtain ⟨this, -⟩ := a
  exact this

theorem completes_of_hoopOnly {c : Instr} {h : Nat} {s t : State} {y : Hoop} {p : State → Prop} (he : exec c s = s.done t)
    (a : HoopOnly h s t y) (ht : p t) : Completes c s p := by
  obtain ⟨-, -, rest⟩ := a
  exact completes_of_kept he (congrArg State.pending rest :) (congrArg State.boot rest :) ht

/-! ### A syllable of an open bundle (R310, R311) -/

/-- After a syllable that does not close the bundle, a hoop with nothing stalled is as that syllable left it. -/
theorem afterSyl_midBundle {s : State} {x : Issue} (w : Word) (hm : MidBundle (s.hoop x.hoop)) (hc : x.closes = false) :
    s.afterSyl x w false .none = s.setHoop x.hoop (s.hoop x.hoop) := by
  obtain ⟨hsnap, hstuck, hstall, hdefer⟩ := hm
  have same : s.hoop x.hoop = { s.hoop x.hoop with stall := .none, stuck := [], defer := false } := by
    rw [← hstuck, ← hstall, ← hdefer]
  have hopen : (s.hoop x.hoop).snap.isNone = false := by simpa using hsnap
  conv_rhs => rw [same]
  simp [State.afterSyl, hopen, hstuck, hstall, hdefer, hc, Stall.and]

theorem midBundle_of_issues {x : Issue} {slots : List Nat} {w : Word} {r : HRegs} {s : State} (hi : Issues x slots w r s) :
    MidBundle (s.hoop x.hoop) := by
  obtain ⟨-, -, -, -, -, hm, -⟩ := hi
  exact hm

section Syllable

variable {x : Issue} {slots : List Nat} {w : Word} {r : HRegs} {s : State} {f : HRegs → State → State} {y : Hoop}

theorem syl_of_issues (hi : Issues x slots w r s) : s.syl x slots w f = (f r s).afterSyl x w false .none := by
  obtain ⟨hst, hw, ho, -, hr, ⟨-, hstuck, hstall, -⟩, hp⟩ := hi
  simp [State.syl, hst, hw, ho, hr, hstuck, hstall, hp]

/-- What a syllable does to its hoop is all that issuing it does. -/
theorem hoopOnly_syl (hi : Issues x slots w r s) (hf : HoopOnly x.hoop s (f r s) y) (hm : MidBundle y) :
    HoopOnly x.hoop s (s.syl x slots w f) y := by
  have hy := hoop_of_hoopOnly hf
  subst hy
  rw [syl_of_issues hi]
  obtain ⟨-, -, -, hc, -⟩ := hi
  rw [afterSyl_midBundle w hm hc]
  exact hoopOnly_trans hf (hoopOnly_setHoop _ _ _)

theorem completes_syl {i : Instr} {p : State → Prop} (hi : Issues x slots w r s) (he : exec i s = s.done (s.syl x slots w f))
    (hf : HoopOnly x.hoop s (f r s) y) (hm : MidBundle y) (hp : ∀ t, HoopOnly x.hoop s t y → p t) : Completes i s p :=
  have issued := hoopOnly_syl hi hf hm
  completes_of_hoopOnly he issued (hp _ issued)

end Syllable

/-! ### Writes to S and V (R305, R328) -/

theorem hoopOnly_setS (s : State) (h d : Nat) (v : Word) : HoopOnly h s (s.setS h d v) { s.hoop h with
    r := { (s.hoop h).r with s := if d = 0 then (s.hoop h).r.s else spPut (fun _ => 0) (s.hoop h).r.s d v } } := by
  unfold State.setS
  split
  · exact hoopOnly_self s h
  · exact hoopOnly_modHoop s h _

theorem completes_writesS {i : Instr} {x : Issue} {slots : List Nat} {w : Word} {r : HRegs} {s : State} {d : Fin 32}
    {v : HRegs → Word} (hi : Issues x slots w r s)
    (he : exec i s = s.done (s.syl x slots w fun r s => s.setS x.hoop d (v r))) : Completes i s (WritesS x.hoop d (v r) s) := by
  refine completes_syl hi he (hoopOnly_setS s _ _ _) (midBundle_of_issues hi) fun t ht => ⟨_, ht, fun n => ?_⟩
  rw [hoop_of_hoopOnly ht]
  rcases eq_or_ne n 0 with rfl | hn
  · simp [HRegs.sv]
  · by_cases hd : n = d.val
    · subst hd; simp [HRegs.sv, hn]
    · by_cases h0 : d.val = 0 <;> simp [HRegs.sv, hn, hd, h0, spGet_spPut_ne _ _ (Ne.symm hd)]

/-- The hoop with V[d] = v and these flags raised. -/
def withV (y : Hoop) (d : Nat) (v : BitVec 4096) (fl : Nat) : Hoop :=
  { y with
    raised := y.raised ||| BitVec.ofNat 6 fl
    r := { y.r with v := spPut (fun _ => 0) y.r.v d v, flags := y.r.flags ||| BitVec.ofNat 6 fl } }

theorem writesV_of_hoopOnly {h : Nat} {d : Fin 32} {v : BitVec 4096} {fl : Nat} {s t : State}
    (a : HoopOnly h s t (withV (s.hoop h) d v fl)) : WritesV h d v fl s t := by
  refine ⟨_, a, fun i => ?_⟩
  rw [hoop_of_hoopOnly a]
  simp [HRegs.vv, withV, spGet_spPut, eq_comm]

theorem hoopOnly_setV (s : State) (h d : Nat) (v : BitVec 4096) : HoopOnly h s (s.setV h d v) (withV (s.hoop h) d v 0) := by
  have a : HoopOnly h s (s.setV h d v) _ := hoopOnly_modHoop s h _
  simpa [withV] using a

theorem hoopOnly_setV_raise (s : State) (h d : Nat) (v : BitVec 4096) (fl : Nat) :
    HoopOnly h s ((s.setV h d v).raise h fl) (withV (s.hoop h) d v fl) := by
  have write := hoopOnly_setV s h d v
  have flags : HoopOnly h (s.setV h d v) ((s.setV h d v).raise h fl) _ := hoopOnly_modHoop _ h _
  rw [hoop_of_hoopOnly write] at flags
  simpa [withV] using hoopOnly_trans write flags

section VSyllable

variable {i : Instr} {x : Issue} {slots : List Nat} {w : Word} {r : HRegs} {s : State} {f : HRegs → State → State} {d : Fin 32}

theorem completes_writesV {p : State → Prop} {v : BitVec 4096} {fl : Nat} (hi : Issues x slots w r s)
    (he : exec i s = s.done (s.syl x slots w f)) (hf : HoopOnly x.hoop s (f r s) (withV (s.hoop x.hoop) d v fl))
    (hp : ∀ t, WritesV x.hoop d v fl s t → p t) : Completes i s p :=
  completes_syl hi he hf (midBundle_of_issues hi) fun t ht => hp t (writesV_of_hoopOnly ht)

theorem completes_setV_raise {v : BitVec 4096} {fl : Nat} (hi : Issues x slots w r s)
    (he : exec i s = s.done (s.syl x slots w f)) (hf : f r s = (s.setV x.hoop d v).raise x.hoop fl) :
    Completes i s (WritesV x.hoop d v fl s) :=
  completes_writesV hi he (hf ▸ hoopOnly_setV_raise s x.hoop d v fl) fun _ ht => ht

end VSyllable

/-! ### Lanes (R304) -/

theorem bitsOf_toNat_ofNat (n : Nat) {lo w k : Nat} (h : lo + w ≤ k) : bitsOf (BitVec.ofNat k n).toNat lo w = bitsOf n lo w := by
  refine Nat.eq_of_testBit_eq fun b => ?_
  rw [testBit_bitsOf, testBit_bitsOf, BitVec.toNat_ofNat, Nat.testBit_mod_two_pow]
  by_cases hb : b < w
  · simp [show lo + b < k by omega]
  · simp [hb]

/-- A list of lanes as one number holds each of them at its place. -/
theorem bitsOf_foldr_lanes (w l : Nat) (ls : List Nat) :
    bitsOf (ls.foldr (fun x a => x % 2 ^ w + a * 2 ^ w) 0) (w * l) w = ls.getD l 0 % 2 ^ w := by
  induction ls generalizing l with
  | nil => simp [bitsOf]
  | cons x ls ih =>
    have hw : 0 < 2 ^ w := Nat.two_pow_pos w
    cases l with
    | zero => simp [bitsOf]
    | succ l =>
      have rest (a : Nat) : (x % 2 ^ w + a * 2 ^ w) / 2 ^ w = a := by
        rw [Nat.add_mul_div_right _ _ hw, Nat.div_eq_of_lt (Nat.mod_lt _ hw), Nat.zero_add]
      rw [List.foldr_cons, List.getD_cons_succ, ← ih l, bitsOf, Nat.mul_succ, Nat.add_comm (w * l), Nat.pow_add,
        ← Nat.div_div_eq_div_mul, rest, bitsOf]

section Lanes

variable {w l : Nat} (h : l < 4096 / w)

include h

theorem bitsOf_packLanes (ls : List Nat) : bitsOf (packLanes w ls).toNat (w * l) w = ls.getD l 0 % 2 ^ w := by
  have inside : w * l + w ≤ 4096 :=
    calc w * (l + 1) ≤ w * (4096 / w) := Nat.mul_le_mul_left w h
      _ ≤ 4096 := Nat.mul_div_le 4096 w
  rw [packLanes, bitsOf_toNat_ofNat _ inside, bitsOf_foldr_lanes]

theorem getD_lanesOf (v : BitVec 4096) : (lanesOf w v).getD l 0 = bitsOf v.toNat (w * l) w := by
  simp [lanesOf, List.getD_eq_getElem?_getD, h]

theorem bitsOf_packLanes_replicate (v : Nat) :
    bitsOf (packLanes w (List.replicate (4096 / w) v)).toNat (w * l) w = v % 2 ^ w := by
  rw [bitsOf_packLanes h, List.getD_eq_getElem?_getD, List.getElem?_replicate, if_pos h, Option.getD_some]

end Lanes

@[simp] theorem length_lanesOf (w : Nat) (v : BitVec 4096) : (lanesOf w v).length = 4096 / w := by simp [lanesOf]

/-! ### Lane-by-lane syllables (R335, R336) -/

theorem hoopOnly_putLanes (s : State) (h d : Nat) (g : Fmt) (rs : List FRes) : HoopOnly h s (s.putLanes h d g rs)
    (withV (s.hoop h) d (packLanes g.bits (rs.map (·.bits))) (rs.foldl (fun m x => m ||| x.flags) 0)) :=
  hoopOnly_setV_raise s h d _ _

theorem completes_putLanes {i : Instr} {x : Issue} {slots : List Nat} {w : Word} {r : HRegs} {s : State}
    {f : HRegs → State → State} {d : Fin 32} {g : Fmt} {rs : List FRes} (hi : Issues x slots w r s)
    (he : exec i s = s.done (s.syl x slots w f)) (hf : f r s = s.putLanes x.hoop d g rs) :
    Completes i s (WritesLanes x.hoop d g rs s) := by
  refine completes_writesV hi he (hf ▸ hoopOnly_putLanes s x.hoop d g rs) fun t ht => ⟨_, fun l hl => ?_, ht⟩
  rw [bitsOf_packLanes hl, ← List.getD_map (f := FRes.bits)]

/-- The Purl slot works on the lanes that `laneResults` names. -/
theorem map_lanesOf (g : Fmt) (r : HRegs) (a b c : Nat) (f : Fmt → Nat → Nat → Nat → FRes) :
    ((List.range (lanesOf g.bits (r.vv a)).length).map fun l => f g ((lanesOf g.bits (r.vv a)).getD l 0)
      ((lanesOf g.bits (r.vv b)).getD l 0) ((lanesOf g.bits (r.vv c)).getD l 0)) = laneResults g r a b c f := by
  rw [length_lanesOf]
  refine List.map_congr_left fun l hl => ?_
  have h := List.mem_range.mp hl
  rw [getD_lanesOf h, getD_lanesOf h, getD_lanesOf h]

theorem completes_purl {i : Instr} {x : Issue} {op : Nat} {d a b c : Fin 32} {fmt : Fin 4} {r : HRegs} {s : State}
    {f : Fmt → Nat → Nat → Nat → FRes} (he : exec i s = s.done (s.purl x op d a b c fmt f))
    (hi : Issues x [5] (sylWord op x (d.val * 2 ^ 17 + a.val * 2 ^ 12 + b.val * 2 ^ 7 + c.val * 2 ^ 2 + fmt.val)) r s) :
    Completes i s (WritesLanes x.hoop d (purlFmt fmt) (laneResults (purlFmt fmt) r a b c f) s) := by
  refine completes_putLanes hi he ?_
  rw [← map_lanesOf]

/-- A command of `n` operands beside V[a] writes its operation on every lane. -/
def LaneWise (i : Issue → Fin 32 → Fin 32 → Fin 32 → Fin 32 → Fin 4 → Instr) (op n : Nat) (f : Fmt → Nat → Nat → Nat → FRes) : Prop :=
  ∀ (x : Issue) (d a b c : Fin 32) (fmt : Fin 4) (r : HRegs) (s : State),
    Issues x [5] (sylWord op x (d.val * 2 ^ 17 + a.val * 2 ^ 12 + (if n = 0 then 0 else b.val) * 2 ^ 7 +
      (if n = 2 then c.val else 0) * 2 ^ 2 + fmt.val)) r s →
    Completes (i x d a b c fmt) s (WritesLanes x.hoop d (purlFmt fmt) (laneResults (purlFmt fmt) r a b c f) s)

theorem laneWise_unary {i : Issue → Fin 32 → Fin 32 → Fin 4 → Instr} {op : Nat} {f : Fmt → Nat → FRes}
    (he : ∀ x d a fmt s, exec (i x d a fmt) s = s.done (s.purl x op d a 0 0 fmt fun g u _ _ => f g u)) :
    LaneWise (fun x d a _ _ fmt => i x d a fmt) op 0 fun g u _ _ => f g u :=
  fun x d a _ _ fmt _ s hi => (completes_purl (b := 0) (c := 0) (he x d a fmt s) (by simpa using hi) :)

theorem laneWise_binary {i : Issue → Fin 32 → Fin 32 → Fin 32 → Fin 4 → Instr} {op : Nat} {f : Fmt → Nat → Nat → FRes}
    (he : ∀ x d a b fmt s, exec (i x d a b fmt) s = s.done (s.purl x op d a b 0 fmt fun g u v _ => f g u v)) :
    LaneWise (fun x d a b _ fmt => i x d a b fmt) op 1 fun g u v _ => f g u v :=
  fun x d a b _ fmt _ s hi => (completes_purl (c := 0) (he x d a b fmt s) (by simpa using hi) :)

theorem laneWise_ternary {i : Issue → Fin 32 → Fin 32 → Fin 32 → Fin 32 → Fin 4 → Instr} {op : Nat}
    {f : Fmt → Nat → Nat → Nat → FRes} (he : ∀ x d a b c fmt s, exec (i x d a b c fmt) s = s.done (s.purl x op d a b c fmt f)) :
    LaneWise i op 2 f :=
  fun x d a b c fmt _ s hi => completes_purl (he x d a b c fmt s) (by simpa using hi)

theorem prlExp2_laneWise {x : Issue} {d a : Fin 32} {fmt : Fin 4} {r : HRegs} {s : State}
    (hi : Issues x [5] (sylWord 0x10 x (d.val * 2 ^ 17 + a.val * 2 ^ 12 + fmt.val)) r s) :
    Completes (.prlExp2 x d a fmt) s (WritesLanes x.hoop d (purlFmt fmt)
      (laneResults (purlFmt fmt) r a 0 0 fun _ u _ _ => fpExp2 fmt u) s) :=
  completes_purl (b := 0) (c := 0) rfl (by simpa using hi)

theorem fpMove_of_not_nan {f : Fmt} {v : Nat} (g : Nat → Nat) (h : (fpDecode f v).isNan = false) : fpMove f v g = ⟨g v, 0⟩ := by
  unfold fpMove
  generalize fpDecode f v = z at h
  cases z with
  | nan n sg p => cases h
  | inf n => rfl
  | fin n m e => rfl

theorem prlRdacc_scales {x : Issue} {d : Fin 32} {n k : Fin 8} {q : Fin 4} {r : HRegs} {s : State}
    (hi : Issues x [5] (sylWord 0x15 x (d.val * 2 ^ 17 + n.val * 2 ^ 14 + k.val * 2 ^ 11 + q.val * 2 ^ 9)) r s) :
    Completes (.prlRdacc x d n k q) s (WritesLanes x.hoop d .fp32 ((List.range 128).map fun l =>
      fpMul .fp32 ((r.tile n k).at (l % 32) (l / 32 + 4 * q)) (r.tile n k).f.toNat) s) :=
  completes_putLanes hi rfl rfl

/-! ### Reductions -/

theorem packLanes_singleton (w v : Nat) : packLanes w [v] = BitVec.ofNat 4096 (v % 2 ^ w) := by simp [packLanes]

theorem completes_reduce {i : Instr} {x : Issue} {op : Nat} {d a : Fin 32} {fmt : Fin 4} {r : HRegs} {s : State}
    {f : Fmt → Nat → Nat → FRes} (he : exec i s = s.done (s.reduce x op d a fmt f))
    (hi : Issues x [5] (sylWord op x (d.val * 2 ^ 17 + a.val * 2 ^ 12 + fmt.val)) r s) :
    let g := purlFmt fmt
    let z := treeFold (f g) 8 (lanesOf g.bits (r.vv a)) 0
    Completes i s (WritesV x.hoop d (BitVec.ofNat 4096 (z.1 % 2 ^ g.bits)) z.2 s) := by
  refine completes_setV_raise hi he ?_
  rw [← packLanes_singleton]

/-! ### PRL.CVT, PRL.BCAST and PRL.LANE (R336) -/

section Convert

variable (s : State) (h : Nat) (r : HRegs) (d a : Fin 32) (half : Bool)

theorem cvt_same_width {src dst : Nat} (hs : (purlFmt src).bits = 16) (hd : (purlFmt dst).bits = 16) :
    ∃ fl, s.cvt h r d a half src dst = (s.setV h d (packLanes 16 ((lanesOf 16 (r.vv a)).map fun v =>
      (saturate (purlFmt dst) (fpConvert (purlFmt src) (purlFmt dst) v)).bits))).raise h fl := by
  unfold State.cvt State.putLanes
  simp only [hs, hd, if_true, List.map_map, Function.comp_def]
  exact ⟨_, rfl⟩

/-- The 128 lanes of FP32 fill a half, so that no lane of it is left without a value. -/
theorem cvt_half_width {src dst : Nat} (hs : purlFmt src = .fp32) (hd : (purlFmt dst).bits = 16) :
    let new := (lanesOf 32 (r.vv a)).map fun v => (saturate (purlFmt dst) (fpConvert .fp32 (purlFmt dst) v)).bits
    let old := lanesOf 16 (r.vv d)
    ∃ fl, s.cvt h r d a half src dst =
      (s.setV h d (packLanes 16 (if half then old.take 128 ++ new else new ++ old.drop 128))).raise h fl := by
  have h32 : Fmt.fp32.bits = 32 := rfl
  unfold State.cvt
  simp only [hs, hd, h32, List.map_map, Function.comp_def, length_lanesOf, List.length_map]
  rw [if_neg (by decide), if_pos (by decide), if_neg (by decide), List.take_left' (by simp)]
  exact ⟨_, rfl⟩

end Convert

theorem completes_cvt {x : Issue} {d a : Fin 32} {h : Bool} {src dst : Fin 4} {r : HRegs} {s : State} {v : BitVec 4096}
    (hi : Issues x [5] (sylWord 0x13 x (d.val * 2 ^ 17 + a.val * 2 ^ 12 + h.toNat * 2 ^ 4 + src.val * 2 ^ 2 + dst.val)) r s)
    (hv : ∃ fl, s.cvt x.hoop r d a h src dst = (s.setV x.hoop d v).raise x.hoop fl) :
    Completes (.prlCvt x d a h src dst) s fun t => ∃ fl, WritesV x.hoop d v fl s t := by
  obtain ⟨fl, hv⟩ := hv
  obtain ⟨t, ht, hw⟩ := completes_setV_raise (i := .prlCvt x d a h src dst) hi rfl hv
  exact ⟨t, ht, fl, hw⟩

theorem prlLane_moves {x : Issue} {d a : Fin 32} {lane : Fin 128} {fmt : Fin 4} {r : HRegs} {s : State}
    (hi : Issues x [5] (sylWord 0x16 x (d.val * 2 ^ 17 + a.val * 2 ^ 12 + lane.val * 2 ^ 5 + fmt.val)) r s)
    (hl : lane.val < 4096 / (purlFmt fmt).bits) : Completes (.prlLane x d a lane fmt) s (WritesS x.hoop d
      (BitVec.ofNat 32 (bitsOf (r.vv a).toNat ((purlFmt fmt).bits * lane) (purlFmt fmt).bits)) s) := by
  rw [← getD_lanesOf hl]
  exact completes_writesS (v := fun r => BitVec.ofNat 32 ((lanesOf (purlFmt fmt).bits (r.vv a)).getD lane 0)) hi rfl

theorem prlBcast_copies {x : Issue} {d a : Fin 32} {fmt : Fin 4} {r : HRegs} {s : State}
    (hi : Issues x [5] (sylWord 0x14 x (d.val * 2 ^ 17 + a.val * 2 ^ 12 + fmt.val)) r s) : Completes (.prlBcast x d a fmt) s fun t =>
      ∃ v : BitVec 4096, WritesV x.hoop d v 0 s t ∧
        (fmt = 0 → ∀ l, l < 128 → bitsOf v.toNat (32 * l) 32 = (r.sv a).toNat) ∧
        (fmt = 1 ∨ fmt = 2 → ∀ l, l < 256 → bitsOf v.toNat (16 * l) 16 = (r.sv a).toNat % 65536) := by
  refine completes_writesV hi rfl (hoopOnly_setV s x.hoop d _) fun t ht => ⟨_, ht, ?_, ?_⟩
  · rintro rfl l hl
    exact (bitsOf_packLanes_replicate (w := 32) hl _).trans (Nat.mod_eq_of_lt (r.sv a).isLt)
  · rintro (rfl | rfl) l hl <;> exact (bitsOf_packLanes_replicate (w := 16) hl _).trans (Nat.mod_mod _ _)

/-- Settles O44: a Purl syllable changes its hoop alone, and that in V[d] and the flags, or in S[d]; what V[d] takes is read lane by
lane from what `packLanes` packs. -/
theorem purlSyllablesCompute : Obligations.PurlSyllablesCompute := by
  unfold Obligations.PurlSyllablesCompute
  refine ⟨?_, fun x d a fmt r s _ => prlExp2_laneWise, fun f v g => fpMove_of_not_nan g, ?_, fun x d a h src dst r s hi => ⟨?_, ?_⟩,
    fun x d a fmt r s => prlBcast_copies, fun x d n k q r s => prlRdacc_scales, fun x d a lane fmt r s => prlLane_moves⟩
  · intro q hq
    change LaneWise q.1 q.2.1 q.2.2.1 q.2.2.2
    simp only [List.mem_cons, List.not_mem_nil, or_false] at hq
    rcases hq with rfl | rfl | rfl | rfl | rfl | rfl | rfl | rfl | rfl | rfl | rfl | rfl | rfl | rfl | rfl
    exacts [laneWise_binary fun _ _ _ _ _ _ => rfl, laneWise_binary fun _ _ _ _ _ _ => rfl, laneWise_binary fun _ _ _ _ _ _ => rfl,
      laneWise_ternary fun _ _ _ _ _ _ _ => rfl, laneWise_binary fun _ _ _ _ _ _ => rfl, laneWise_unary fun _ _ _ _ _ => rfl,
      laneWise_binary fun _ _ _ _ _ _ => rfl, laneWise_binary fun _ _ _ _ _ _ => rfl, laneWise_unary fun _ _ _ _ _ => rfl,
      laneWise_unary fun _ _ _ _ _ => rfl, laneWise_unary fun _ _ _ _ _ => rfl, laneWise_binary fun _ _ _ _ _ _ => rfl,
      laneWise_binary fun _ _ _ _ _ _ => rfl, laneWise_binary fun _ _ _ _ _ _ => rfl, laneWise_ternary fun _ _ _ _ _ _ _ => rfl]
  · intro q hq
    simp only [List.mem_cons, List.not_mem_nil, or_false] at hq
    rcases hq with rfl | rfl
    all_goals exact fun _ _ _ _ _ _ => completes_reduce rfl
  · rintro (⟨rfl, rfl⟩ | ⟨rfl, rfl⟩)
    all_goals exact completes_cvt hi (cvt_same_width s x.hoop r d a h rfl rfl)
  · rintro rfl (rfl | rfl)
    all_goals exact completes_cvt hi (cvt_half_width s x.hoop r d a h rfl rfl)

end Sys2Proof.Machine
end

section
/-! How a bundle opens and closes, and what becomes of the hoop (O42). -/

namespace Sys2Proof.Machine

open Reg

/-! ### The bundles of a hoop's stream -/

/-- The number of bundles depends on what the hoop runs and on nothing else of the hoops. -/
theorem bundleCount_of_hoopOnly {h : Nat} {s t : State} {y : Hoop} (a : HoopOnly h s t y) (hf : y.firing = (s.hoop h).firing) :
    t.bundleCount h = s.bundleCount h := by
  obtain ⟨this, -, rest⟩ := a
  have graphs : t.graph? = s.graph? := by rw [rest]; rfl
  have stream : t.streamOf h = s.streamOf h := by rw [rest]; rfl
  have header : t.eng.sched.header = s.eng.sched.header := by rw [rest]
  unfold State.bundleCount
  rw [this, hf, graphs, stream, header]

theorem cx_of_hoopOnly {h : Nat} {s t : State} {y : Hoop} (e : MemErr) (a : HoopOnly h s t y) (hf : y.firing = (s.hoop h).firing) :
    t.cx h e = s.cx h e := by
  obtain ⟨this, -, rest⟩ := a
  have image : t.eng.sched.image = s.eng.sched.image := by rw [rest]
  unfold State.cx
  rw [this, hf, image]

/-! ### How a bundle opens (R311, R312) -/

/-- The hoop with a copy of its registers for the bundle that opens. -/
def Hoop.opened (y : Hoop) : Hoop := { y with snap := some y.r, leave := {}, raised := 0, stuck := [], defer := false }

theorem openBundle_legal {s : State} {h : Nat} {b : List Word} (hl : s.legal h b = true) (hpc : (s.hoop h).pc < s.bundleCount h) :
    s.openBundle h b = s.modHoop h Hoop.opened := by
  simp only [State.openBundle, hl, hpc, decide_true, Bool.and_self, if_true]
  rfl

theorem openBundle_illegal {s : State} {h : Nat} {b : List Word} (hl : s.legal h b = false) :
    s.openBundle h b = (s.report 0x4010 (s.cx h {}).iid).hoopFault h 0x4010 := by
  simp only [State.openBundle, hl, Bool.false_and, Bool.false_eq_true, if_false]

section Opens

variable {x : Issue} {slots : List Nat} {w : Word} {s : State} {f : HRegs → State → State}

/-- A syllable of a hoop that does not run, or that its bundle does not hold, does not occur. -/
theorem syl_absent (h : (s.hoop x.hoop).st ≠ .running ∨ inBundle slots x.bundle w = false) : s.syl x slots w f = s := by
  simp only [State.syl, if_pos h]

variable (hst : (s.hoop x.hoop).st = .running) (hw : inBundle slots x.bundle w = true) (ho : x.opens = true)
  (hsnap : (s.hoop x.hoop).snap = none)

include hst hw ho hsnap

/-- The first syllable of a legal bundle executes on the copy that it takes. -/
theorem syl_opens (hstall : (s.hoop x.hoop).stall = .none) (hl : s.legal x.hoop x.bundle = true)
    (hpc : (s.hoop x.hoop).pc < s.bundleCount x.hoop) :
    s.syl x slots w f =
      (if (s.hoop x.hoop).r.pv x.pred != x.pneg then f (s.hoop x.hoop).r (s.modHoop x.hoop Hoop.opened)
        else s.modHoop x.hoop Hoop.opened).afterSyl x w false .none := by
  have opened : (s.modHoop x.hoop Hoop.opened).hoop x.hoop = (s.hoop x.hoop).opened := hoop_of_hoopOnly (hoopOnly_modHoop _ _ _)
  simp [State.syl, hst, hw, ho, hsnap, openBundle_legal hl hpc, opened, Hoop.opened, hstall]

/-- Where the bundle does not open, its first syllable has no other effect. -/
theorem syl_unopened (hout : ((s.openBundle x.hoop x.bundle).hoop x.hoop).snap = none) :
    s.syl x slots w f = s.openBundle x.hoop x.bundle := by
  simp [State.syl, hst, hw, ho, hsnap, hout]

end Opens

/-! ### How a bundle closes (R315) -/

/-- The hoop outside any bundle, at bundle `pc`. -/
def Hoop.goTo (y : Hoop) (pc : Nat) : Hoop := { y with snap := none, leave := {}, stuck := [], defer := false, pc := pc }

/-- The bundle that follows in the absence of an end or a wait. -/
def Hoop.following (y : Hoop) : Int := y.pc + y.leave.branch.getD 1

theorem afterSyl_closing {s : State} {x : Issue} (w : Word) (hm : MidBundle (s.hoop x.hoop)) (hc : x.closes = true) :
    s.afterSyl x w false .none = (s.setHoop x.hoop { s.hoop x.hoop with defer := true }).closeBundle x.hoop := by
  obtain ⟨hsnap, hstuck, hstall, -⟩ := hm
  have hopen : (s.hoop x.hoop).snap.isNone = false := by simpa using hsnap
  have same : s.hoop x.hoop = { s.hoop x.hoop with stall := .none, stuck := [] } := by rw [← hstuck, ← hstall]
  conv_rhs => rw [same]
  simp [State.afterSyl, hopen, hstuck, hstall, hc, Stall.and]

theorem closeBundle_follows {s : State} {h : Nat} (he : (s.hoop h).leave.ends = false) (hw : (s.hoop h).leave.waits = false) :
    s.closeBundle h =
      if (s.hoop h).following < 0 ∨ s.bundleCount h ≤ (s.hoop h).following then
        ((s.setHoop h ((s.hoop h).goTo (s.hoop h).pc)).report 0x4010 (s.cx h {}).iid).hoopFault h 0x4010
      else s.setHoop h ((s.hoop h).goTo (s.hoop h).following.toNat) := by
  unfold State.closeBundle Hoop.following
  simp only [he, hw, Bool.false_eq_true, if_false]
  cases (s.hoop h).leave.branch <;> rfl

section Closes

variable {s u : State} {x : Issue} {y : Hoop} (effect : HoopOnly x.hoop s u y) (hm : MidBundle y) (hc : x.closes = true)
  (hf : y.firing = (s.hoop x.hoop).firing) (he : y.leave.ends = false) (hw : y.leave.waits = false)

include effect hm hc hf he hw

/-- The last syllable of a bundle that neither ends nor waits closes it: control goes to a bundle of the stream, or 0x4010 is
reported. -/
theorem afterSyl_closes (w : Word) : u.afterSyl x w false .none =
    if y.following < 0 ∨ s.bundleCount x.hoop ≤ y.following then
      (((u.setHoop x.hoop { y with defer := true }).setHoop x.hoop (y.goTo y.pc)).report 0x4010 (s.cx x.hoop {}).iid).hoopFault
        x.hoop 0x4010
    else (u.setHoop x.hoop { y with defer := true }).setHoop x.hoop (y.goTo y.following.toNat) := by
  have here := hoop_of_hoopOnly effect
  have deferred := hoopOnly_trans effect (hoopOnly_setHoop u x.hoop { y with defer := true })
  have there := hoop_of_hoopOnly deferred
  rw [afterSyl_closing w (here ▸ hm) hc, here, closeBundle_follows (by rwa [there]) (by rwa [there]), there,
    bundleCount_of_hoopOnly deferred hf, cx_of_hoopOnly {} deferred hf]
  rfl

theorem hoopOnly_closes (w : Word) (h0 : 0 ≤ y.following) (hn : y.following < s.bundleCount x.hoop) :
    HoopOnly x.hoop s (u.afterSyl x w false .none) (y.goTo y.following.toNat) := by
  rw [afterSyl_closes effect hm hc hf he hw, if_neg (by omega)]
  exact hoopOnly_trans (hoopOnly_trans effect (hoopOnly_setHoop _ _ _)) (hoopOnly_setHoop _ _ _)

end Closes

/-! ### The fault of a turn program's bundle (R312, R513) -/

theorem cx_program {s : State} {h : Nat} (e : MemErr) (hf : (s.hoop h).firing = none) : (s.cx h e).iid = schedIid := by
  simp only [State.cx, hf]

theorem hoopFault_program {s : State} {h : Nat} (c : Nat) (hf : (s.hoop h).firing = none) :
    s.hoopFault h c = s.schedFault c false := by
  simp only [State.hoopFault, hf, Option.isNone_none, if_true]

/-- Stopping the program's hoops changes no register of theirs and ends each that is loaded. -/
theorem hoop_stopHoops (l : List Nat) (s : State) (h : Nat) : (l.foldl (fun s g => s.modHoop g Hoop.stop) s).hoop h =
    if h ∈ l then (s.hoop h).stop else s.hoop h := by
  induction l generalizing s with
  | nil => simp
  | cons g l ih =>
    have first : (s.modHoop g Hoop.stop).hoop h = if g = h then (s.hoop h).stop else s.hoop h := by
      rw [State.modHoop, hoop_setHoop]
      split
      · subst g; rfl
      · rfl
    rw [List.foldl_cons, ih, first]
    by_cases hg : g = h
    · subst hg
      simp [Hoop.stop]
    · simp [hg, Ne.symm hg]

theorem stopHoops_hoops (l : List Nat) (s : State) :
    let t := l.foldl (fun s g => s.modHoop g Hoop.stop) s
    t = { s with eng := { s.eng with hoops := t.eng.hoops } } := by
  induction l generalizing s with
  | nil => rfl
  | cons g l ih =>
    dsimp only at ih ⊢
    rw [List.foldl_cons, ih]
    rfl

/-- A fault, already reported, of a turn program changes no register, and nothing of start-up or of the queue. -/
theorem schedFault_kept (s : State) (c : Nat) : (s.schedFault c false).regs = s.regs ∧
    (s.schedFault c false).pending = s.pending ∧ (s.schedFault c false).boot = s.boot := by
  unfold State.schedFault
  split
  · exact ⟨rfl, rfl, rfl⟩
  · simp only [Bool.false_eq_true, if_false]
    split
    · exact ⟨rfl, rfl, rfl⟩
    · have stopped := stopHoops_hoops s.loadedHoops s
      exact ⟨(congrArg State.regs stopped :), (congrArg State.pending stopped :), (congrArg State.boot stopped :)⟩

/-- The first fault of a turn program is kept, and every loaded hoop stops. -/
theorem schedFault_first {s : State} {n c : Nat} (hr : s.eng.sched.running = some n) (h0 : s.eng.sched.fault = 0) :
    (s.schedFault c false).eng.sched.fault = c ∧
    ∀ g, (s.schedFault c false).hoop g = if g ∈ s.loadedHoops then (s.hoop g).stop else s.hoop g := by
  have stops : s.schedFault c false = s.stopSched.setSched fun d => { d with fault := c } := by
    simp [State.schedFault, hr, h0]
  rw [stops]
  exact ⟨rfl, hoop_stopHoops s.loadedHoops s⟩

theorem hoop_of_eng {s t : State} (h : t.eng = s.eng) (g : Nat) : t.hoop g = s.hoop g := by
  simp only [State.hoop, h]

theorem loadedHoops_of_eng {s t : State} (h : t.eng = s.eng) : t.loadedHoops = s.loadedHoops := by
  have physical : t.physical = s.physical := by
    funext j
    simp only [State.physical, State.pmap, h]
  simp only [State.loadedHoops, State.schedCount, State.pmap, physical, h]

/-- A bundle that leads to none of the stream is a fault of the turn program. -/
theorem last_afterSyl_closes {s u : State} {x : Issue} {y : Hoop} (effect : HoopOnly x.hoop s u y) (hm : MidBundle y)
    (hc : x.closes = true) (hf : y.firing = (s.hoop x.hoop).firing) (he : y.leave.ends = false) (hw : y.leave.waits = false)
    (w : Word) (hout : y.following < 0 ∨ s.bundleCount x.hoop ≤ y.following) (hp : (s.hoop x.hoop).firing = none) :
    (u.afterSyl x w false .none).reg GLB_FAULT_LAST = faultWord 0x4010 schedIid := by
  rw [afterSyl_closes effect hm hc hf he hw, if_pos hout, cx_program _ hp, hoopFault_program]
  · obtain ⟨regs, -⟩ := schedFault_kept
      (((u.setHoop x.hoop { y with defer := true }).setHoop x.hoop (y.goTo y.pc)).report 0x4010 schedIid) 0x4010
    rw [reg_of_regs regs, report_last]
  · rw [hoop_of_eng (report_eng _ _ _), hoop_setHoop, if_pos rfl]
    exact hf.trans hp

section Illegal

variable {s : State} {h : Nat} {b : List Word} (hl : s.legal h b = false) (hf : (s.hoop h).firing = none)

include hl hf

theorem openBundle_program : s.openBundle h b = (s.report 0x4010 schedIid).schedFault 0x4010 false := by
  rw [openBundle_illegal hl, cx_program _ hf,
    hoopFault_program _ ((congrArg Hoop.firing (hoop_of_eng (report_eng _ _ _) h)).trans hf)]

/-- What an illegal bundle does to a turn program that has met no fault yet. -/
theorem openBundle_faults {n : Nat} (hr : s.eng.sched.running = some n) (h0 : s.eng.sched.fault = 0) :
    (∀ g, (s.openBundle h b).hoop g = if g ∈ s.loadedHoops then (s.hoop g).stop else s.hoop g) ∧
    (s.openBundle h b).regs = (s.report 0x4010 schedIid).regs ∧ (s.openBundle h b).pending = s.pending ∧
    (s.openBundle h b).boot = s.boot ∧ (s.openBundle h b).eng.sched.fault = 0x4010 := by
  have eng := report_eng s 0x4010 schedIid
  obtain ⟨fault, hoops⟩ := schedFault_first (c := 0x4010) ((congrArg (·.sched.running) eng).trans hr)
    ((congrArg (·.sched.fault) eng).trans h0)
  obtain ⟨regs, pending, boot⟩ := schedFault_kept (s.report 0x4010 schedIid) 0x4010
  rw [openBundle_program hl hf]
  refine ⟨fun g => ?_, regs, pending.trans (report_pending _ _ _), boot.trans (report_boot _ _ _), fault⟩
  rw [hoops, loadedHoops_of_eng eng, hoop_of_eng eng]

end Illegal

/-! ### CTL.MOVI as a whole bundle -/

theorem sv_write (r : HRegs) (d i : Nat) (v : Word) :
    HRegs.sv { r with s := if d = 0 then r.s else spPut (fun _ => 0) r.s d v } i = if i = d ∧ i ≠ 0 then v else r.sv i := by
  rcases eq_or_ne i 0 with rfl | hi
  · simp [HRegs.sv]
  · by_cases h0 : d = 0
    · simp [HRegs.sv, hi, h0]
    · simp [HRegs.sv, hi, h0, spGet_spPut, eq_comm]

section Movi

variable {x : Issue} {d : Fin 32} {v : BitVec 16} {s : State}

/-- The effect of MOVI on the bundle's copy: S[d] where its predicate holds. -/
theorem movi_effect (s : State) (x : Issue) (d : Fin 32) (v : Word) (b : Bool) : ∃ m,
    HoopOnly x.hoop s (if b then (s.modHoop x.hoop Hoop.opened).setS x.hoop d v else s.modHoop x.hoop Hoop.opened)
      { (s.hoop x.hoop).opened with r := { (s.hoop x.hoop).r with s := m } } ∧
    ∀ i : Nat, HRegs.sv { (s.hoop x.hoop).r with s := m } i = if i = d.val ∧ i ≠ 0 ∧ b then v else (s.hoop x.hoop).r.sv i := by
  have opens := hoopOnly_modHoop s x.hoop Hoop.opened
  cases b with
  | false => exact ⟨_, opens, fun i => by simp⟩
  | true =>
    have writes := hoopOnly_setS (s.modHoop x.hoop Hoop.opened) x.hoop d v
    rw [hoop_of_hoopOnly opens] at writes
    exact ⟨_, hoopOnly_trans opens writes, fun i => (sv_write (s.hoop x.hoop).r d i v).trans (by simp)⟩

theorem movi_bundle (hst : (s.hoop x.hoop).st = .running) (hsnap : (s.hoop x.hoop).snap = none)
    (hstall : (s.hoop x.hoop).stall = .none) (hw : inBundle [0] x.bundle (sylWord 0x0B x (d.val * 2 ^ 17 + v.toNat)) = true)
    (ho : x.opens = true) (hc : x.closes = true) (hl : s.legal x.hoop x.bundle = true)
    (hpc : (s.hoop x.hoop).pc + 1 < s.bundleCount x.hoop) : Completes (.ctlMovi x d v) s fun t =>
      (t.hoop x.hoop).pc = (s.hoop x.hoop).pc + 1 ∧ (t.hoop x.hoop).snap = none ∧ (t.hoop x.hoop).st = .running ∧
      (∀ i : Nat, (t.hoop x.hoop).r.sv i = if i = d.val ∧ i ≠ 0 ∧ (s.hoop x.hoop).r.pv x.pred ≠ x.pneg
        then v.signExtend 32 else (s.hoop x.hoop).r.sv i) ∧
      (∀ g, g ≠ x.hoop.val → t.hoop g = s.hoop g) ∧ t = { s with eng := { s.eng with hoops := t.eng.hoops } } := by
  obtain ⟨m, effect, regs⟩ := movi_effect s x d (v.signExtend 32) ((s.hoop x.hoop).r.pv x.pred != x.pneg)
  have closed := hoopOnly_closes effect ⟨rfl, rfl, hstall, rfl⟩ hc rfl rfl rfl (sylWord 0x0B x (d.val * 2 ^ 17 + v.toNat))
    (Int.natCast_nonneg ((s.hoop x.hoop).pc + 1)) (Int.ofNat_lt.2 hpc)
  refine completes_of_hoopOnly (congrArg s.done (syl_opens hst hw ho hsnap hstall hl (Nat.lt_of_succ_lt hpc))) closed ?_
  obtain ⟨this, others, rest⟩ := closed
  rw [this]
  exact ⟨rfl, rfl, hst, fun i => (regs i).trans (by simp), others, rest⟩

theorem movi_illegal {n : Nat} (hst : (s.hoop x.hoop).st = .running) (hsnap : (s.hoop x.hoop).snap = none)
    (hw : inBundle [0] x.bundle (sylWord 0x0B x (d.val * 2 ^ 17 + v.toNat)) = true) (ho : x.opens = true)
    (hl : s.legal x.hoop x.bundle = false) (hf : (s.hoop x.hoop).firing = none) (hr : s.eng.sched.running = some n)
    (h0 : s.eng.sched.fault = 0) : Completes (.ctlMovi x d v) s fun t =>
      t.eng.sched.fault = 0x4010 ∧ t.reg GLB_FAULT_LAST = 0xA4010 ∧ (∀ g ∈ s.loadedHoops, (t.hoop g).st = .ended) ∧
      (t.hoop x.hoop).r = (s.hoop x.hoop).r ∧ RegsKept [GLB_FAULT_FIRST, GLB_FAULT_LAST, GLB_FAULT_COUNT] s t := by
  obtain ⟨hoops, regs, pending, boot, fault⟩ := openBundle_faults hl hf hr h0
  have out : ((s.openBundle x.hoop x.bundle).hoop x.hoop).snap = none := by
    rw [hoops]
    split
    · rfl
    · exact hsnap
  refine completes_of_kept (congrArg s.done (syl_unopened hst hw ho hsnap out)) pending boot
    ⟨fault, ?_, fun g hg => ?_, ?_, fun o ho => ?_⟩
  · rw [reg_of_regs regs, report_last]
    rfl
  · rw [hoops, if_pos hg]
    rfl
  · rw [hoops]
    split <;> rfl
  · rw [reg_of_regs regs]
    exact regsKept_report s _ _ o ho

end Movi

/-! ### CTL.BR that closes its bundle (R315) -/

section Br

variable {x : Issue} {off : BitVec 16} {r : HRegs} {s : State}

/-- The hoop where CTL.BR has set the branch. -/
def Hoop.branching (y : Hoop) (off : Int) : Hoop := { y with leave := { branch := some off } }

theorem hoopOnly_branching (hl : (s.hoop x.hoop).leave = {}) :
    HoopOnly x.hoop s (s.leaveBy x.hoop fun l => { l with branch := some off.toInt }) ((s.hoop x.hoop).branching off.toInt) := by
  have branches : HoopOnly x.hoop s (s.leaveBy x.hoop fun l => { l with branch := some off.toInt }) _ := hoopOnly_modHoop s _ _
  rwa [hl] at branches

theorem goTo_branching {y : Hoop} (hm : MidBundle y) (pc : Nat) :
    (y.branching off.toInt).goTo pc = { y with snap := none, leave := {}, pc := pc } := by
  obtain ⟨-, hstuck, -, hdefer⟩ := hm
  simp only [Hoop.goTo, Hoop.branching, hstuck, hdefer]

variable (hst : (s.hoop x.hoop).st = .running) (hw : inBundle [0] x.bundle (sylWord 0x18 x off.toNat) = true)
  (ho : x.opens = false) (hr : (s.hoop x.hoop).snap = some r) (hm : MidBundle (s.hoop x.hoop)) (hp : r.pv x.pred ≠ x.pneg)

include hst hw ho hr hm hp

theorem exec_br : exec (.ctlBr x off) s = s.done ((s.leaveBy x.hoop fun l => { l with branch := some off.toInt }).afterSyl x
    (sylWord 0x18 x off.toNat) false .none) := by
  obtain ⟨-, hstuck, hstall, -⟩ := hm
  refine congrArg s.done ?_
  simp [State.syl, hst, hw, ho, hr, hstuck, hstall, hp]

variable (hc : x.closes = true) (hl : (s.hoop x.hoop).leave = {})

include hc hl

theorem br_goes (h0 : 0 ≤ (s.hoop x.hoop).pc + off.toInt) (hn : (s.hoop x.hoop).pc + off.toInt < s.bundleCount x.hoop) :
    Completes (.ctlBr x off) s fun t => HoopOnly x.hoop s t
      { s.hoop x.hoop with snap := none, leave := {}, pc := ((s.hoop x.hoop).pc + off.toInt).toNat } := by
  have closed := hoopOnly_closes (hoopOnly_branching (off := off) hl) hm hc rfl rfl rfl (sylWord 0x18 x off.toNat) h0 hn
  rw [goTo_branching hm] at closed
  exact completes_of_hoopOnly (exec_br hst hw ho hr hm hp) closed closed

theorem br_faults (hout : (s.hoop x.hoop).pc + off.toInt < 0 ∨ s.bundleCount x.hoop ≤ (s.hoop x.hoop).pc + off.toInt)
    (hf : (s.hoop x.hoop).firing = none) : Completes (.ctlBr x off) s fun t => t.reg GLB_FAULT_LAST = 0xA4010 := by
  exact done_completes (exec_br hst hw ho hr hm hp)
    (last_afterSyl_closes (hoopOnly_branching (off := off) hl) hm hc rfl rfl rfl (sylWord 0x18 x off.toNat) hout hf)

end Br

/-! ### SYNC.WAIT (R341) -/

theorem syncWait_waits {x : Issue} {c : Fin 16} {v : BitVec 12} {r : HRegs} {s : State}
    (hi : Issues x [7] (sylWord 0x02 x (c.val * 2 ^ 13 + v.toNat)) r s)
    (hv : spGet (fun _ => 0) (s.hoop x.hoop).r.c c < v.toNat) : exec (.syncWait x c v) s = .next s := by
  obtain ⟨-, -, ho, -, hr, -, hp⟩ := hi
  have held : s.syncHeld x c v.toNat = true := by
    simp [State.syncHeld, State.bundleRegs, hr, hp, hv, ho]
  exact (congrArg s.done (if_pos held)).trans (done_self s)

/-- Settles O42: a bundle opens on a copy of the registers or is the program's fault, its one MOVI writes S[d] or nothing, and the
last syllable closes it into the bundle that follows. -/
theorem bundlesIssueWhole : Obligations.BundlesIssueWhole := by
  unfold Obligations.BundlesIssueWhole
  refine ⟨fun x d v s hst hsnap hstall hw ho hc => ⟨movi_bundle hst hsnap hstall hw ho hc, fun n => movi_illegal hst hsnap hw ho⟩,
    fun x d v s absent => ?_, fun x off r s hst hw ho hc hr hm hp hl => ⟨br_goes hst hw ho hr hm hp hc hl,
      br_faults hst hw ho hr hm hp hc hl⟩, fun x c v r s => syncWait_waits⟩
  exact (congrArg s.done (syl_absent absent)).trans (done_self s)

end Sys2Proof.Machine
end

section
/-! SHF.T on a descriptor of SPACE 0 (O45): it takes the descriptor as SPACE 1, whose offset is BASE bits 22:0 (R287, R295), while the
statement sets the SPACE bit and keeps the whole BASE. -/

namespace Sys2Proof.Machine

/-- A TD register of a single FP32 element at this BASE, in SPACE 0: FORMAT 1, RANK 1, and every DIM 1. -/
def wordTensor (base : Nat) : BitVec 512 :=
  BitVec.ofNat 512 (base + 0x11 * 2 ^ 48 + ((List.range 6).map fun d => 2 ^ (8 * (8 + 3 * d))).sum)

/-- SHF.T of TD[1] to TD[0], in slot 1, neither first nor last of its bundle. -/
def shuttleIssue : Issue :=
  { hoop := 0, pred := 0, pneg := false, opens := false, closes := false, bundle := [0, BitVec.ofNat 32 (2 * 2 ^ 26 + 2 ^ 10)] }

/-- TD[0] lies 8 MiB on, of which bits 22:0 are 0; TD[1] lies at 64. -/
def shuttleRegs : HRegs := { td := [(0, wordTensor (2 ^ 23)), (1, wordTensor 64)] }

/-- Hoop 0 stands inside the bundle, and its SRAM holds a 1 at 64. -/
def shuttleState : State :=
  State.reset.setHoop 0 { r := shuttleRegs, snap := some shuttleRegs, sram := [(64, 1)], st := .running }

/-- The copy that the statement speaks of: SPACE 1, and BASE as SPACE 0 has it. -/
def uncutCopy : State × Option Nat :=
  shuttleState.tensorCopy (shuttleState.cx 0 {}) { descOf (shuttleRegs.tdv 0) with sram := true }
    { descOf (shuttleRegs.tdv 1) with sram := true } true 0

theorem issues_shuttle : Issues shuttleIssue [1, 2] (sylWord 0x02 shuttleIssue ((0 : Fin 64).val * 2 ^ 16 + (1 : Fin 64).val * 2 ^ 10 +
    (0 : Fin 8).val * 2 ^ 6)) shuttleRegs shuttleState := by
  refine ⟨?_, ?_, ?_, ?_, ?_, ⟨?_, ?_, ?_, ?_⟩, ?_⟩ <;> decide +kernel

theorem uncutCopy_ends : uncutCopy = (uncutCopy.1, none) := by
  have ends : uncutCopy.2 = none := by decide +kernel
  rw [← ends]

theorem midBundle_uncutCopy : MidBundle (uncutCopy.1.hoop shuttleIssue.hoop) := by
  refine ⟨?_, ?_, ?_, ?_⟩ <;> decide +kernel

/-- The copy writes 8 MiB on modulo the 6 MiB of the SRAM, and not offset 0. -/
theorem uncutCopy_offset : spGet (fun _ => 0) (uncutCopy.1.hoop 0).sram 0 = 0 := by decide +kernel

/-- SHF.T writes offset 0. -/
theorem shuttle_offset : spGet (fun _ => 0) ((shuttleState.syl shuttleIssue [1, 2] (sylWord 0x02 shuttleIssue (2 ^ 10)) fun r s =>
    State.orFault (s.tensorCopy (s.cx 0 {}) (descOf (r.tdv 0)).inSram (descOf (r.tdv 1)).inSram true 0) 0).hoop 0).sram 0 = 1 := by
  decide +kernel

theorem hoop_of_done {s u t : State} (h : s.done u = .next t) (g : Nat) : t.hoop g = u.hoop g := by
  cases h
  rfl

/-- Refutes O45: SHF.T to a descriptor of SPACE 0 whose BASE is 8 MiB writes at offset 0, its bits 22:0, and the copy that the statement
names does not. -/
theorem not_tensorSyllablesMove : ¬ Obligations.TensorSyllablesMove := by
  unfold Obligations.TensorSyllablesMove
  rintro ⟨copies, -⟩
  have shuttles := (copies shuttleIssue 0 1 false 0 {} shuttleRegs shuttleState uncutCopy.1 midBundle_uncutCopy).2 issues_shuttle
  obtain ⟨t, ht, -, same⟩ := shuttles uncutCopy_ends
  have there : spGet (fun _ => 0) (t.hoop 0).sram 0 = 0 := by rw [same, uncutCopy_offset]
  rw [hoop_of_done ht] at there
  exact absurd (there.symm.trans shuttle_offset) (by decide)

end Sys2Proof.Machine
end

section
/-! How turn programs and graphs are launched, and firings and commands resumed and aborted (O49). -/

namespace Sys2Proof.Machine

open Reg

/-! ### The command that executes, and its completion (R493, R517) -/

section Executes

variable {r : Fin 10} {n : BitVec 16} {p : TkCmd → Bool} {c : TkCmd} {s : State}

theorem runCmd_executes {f : TkCmd → State → State} (h : Executes r n p c s) (hc : s.cmdCode c = none) :
    s.runCmd r n p f = f c s := by
  obtain ⟨named, row, may, next⟩ := h
  simp [State.runCmd, named, row, may, next, hc]

/-- What a row that runs a command comes to. -/
theorem exec_executes {i : Instr} {f : TkCmd → State → State} {t : State} (he : exec i s = s.done (s.runCmd r n p f))
    (h : Executes r n p c s) (hc : s.cmdCode c = none) (ht : f c s = t) : exec i s = s.done t := by
  rw [he, runCmd_executes h hc, ht]

/-- A launch executes like any other command while TE_CTL.EN is 1. -/
theorem launchCmd_executes {op : Nat} {f : TkCmd → State → State} (h : Executes r n (isOp op) c s) (hc : s.cmdCode c = none)
    (he : s.is TE_CTL_EN = true) : s.launchCmd r n op f = f c s := by
  obtain ⟨named, row, may, next⟩ := h
  exact runCmd_executes ⟨named, by simp [row, he], may, next⟩ hc

end Executes

theorem complete_pending (s : State) (c : TkCmd) (a b : Nat) : (s.complete c a b).pending = s.pending := rfl

theorem complete_boot (s : State) (c : TkCmd) (a b : Nat) : (s.complete c a b).boot = s.boot := rfl

theorem complete_eng (s : State) (c : TkCmd) (a b : Nat) : (s.complete c a b).eng = s.eng := rfl

theorem fail_pending (s : State) (c : TkCmd) (code v : Nat) : (s.fail c code v).pending = s.pending := by
  unfold State.fail
  split
  · rfl
  · exact report_pending s code c.req

theorem fail_boot (s : State) (c : TkCmd) (code v : Nat) : (s.fail c code v).boot = s.boot := by
  unfold State.fail
  split
  · rfl
  · exact report_boot s code c.req

theorem completes_fail {i : Instr} {c : TkCmd} {code v : Nat} {s : State} (h : exec i s = s.done (s.fail c code v)) :
    Completes i s fun t => t = s.fail c code v :=
  completes_of_kept h (fail_pending _ _ _ _) (fail_boot _ _ _ _) rfl

/-- A command completes with what its effect leaves of the Engine. -/
theorem completes_of_eng {i : Instr} {s t : State} {p : State → Prop} (h : exec i s = s.done t)
    (hp : ∀ u, u.eng = t.eng → p u) : Completes i s p := ⟨_, h, hp _ rfl⟩

/-- A completion leaves the queue and the start-up state alone. -/
theorem completes_complete {i : Instr} {c : TkCmd} {a b : Nat} {s u : State} {p : State → Prop}
    (h : exec i s = s.done (u.complete c a b)) (hp : u.pending = s.pending) (hb : u.boot = s.boot) (ht : p (u.complete c a b)) :
    Completes i s p :=
  completes_of_kept h ((complete_pending u c a b).trans hp) ((complete_boot u c a b).trans hb) ht

/-- An aborted command's code appears in its record only. -/
theorem fail_aborted (s : State) (c : TkCmd) (v : Nat) : s.fail c 0x800B v = s.complete c 0x800B v := rfl

theorem tkRecs_complete (s : State) (c : TkCmd) (a b : Nat) :
    (s.complete c a b).tkRecs c.req = s.tkRecs c.req ++ [c.record a b false] :=
  spGet_spPut_same _ _ _

/-! ### LAUNCH_TURN (R439, R501) -/

/-- A pin-walk over ranges, whole or not, changes what walks change. -/
theorem onlyWalked_pinAll (s : State) (o : PinOwner) (t : Nat) (l : List (Nat × Nat)) : OnlyWalked s (s.pinAll o t l).1 := by
  induction l generalizing s with
  | nil => exact OnlyWalked.refl s
  | cons p l ih =>
    obtain ⟨va, pages⟩ := p
    have first := onlyWalked_pinWalk s o t va (4096 * pages) false {}
    unfold State.pinAll
    split
    · next walked =>
      rw [walked] at first
      exact first.trans (ih _)
    · next walked =>
      rw [walked] at first
      exact first

section LaunchTurn

variable {r : Fin 10} {n : BitVec 16} {c : TkCmd} {k : Nat} {s u : State} (hc : s.cmdCode c = none) (hk : c.tenant = some k)
  (he : s.is TE_CTL_EN = true) (hx : Executes r n (isOp 0x01) c s)

include hc he hx in
theorem exec_launchTurn : exec (.launchTurn r n) s = s.done (s.launchTurn c) :=
  congrArg s.done (launchCmd_executes hx hc he)

include hc hk he hx

theorem launchTurn_pinned (hu : s.pinAll (.turn c.ord) k c.pinRanges = (u, 0)) : Completes (.launchTurn r n) s fun t =>
    t.eng.sched = { u.eng.sched with
      next := some ⟨⟨c.ord, k, c.u 16 8 % 2 ^ 48, c.u 24 4⟩, c.u 32 8, c.req, c.csn, (u.hg.run, u.hg.nextTurn)⟩ } := by
  refine done_completes (exec_launchTurn hc he hx) ?_
  simp only [State.launchTurn, hk, hu]
  rfl

theorem launchTurn_unpinned {code : Nat} (h0 : code ≠ 0) (hu : s.pinAll (.turn c.ord) k c.pinRanges = (u, code)) :
    Completes (.launchTurn r n) s fun t => t = u.complete c code 0 := by
  have walked := onlyWalked_pinAll s (.turn c.ord) k c.pinRanges
  rw [hu] at walked
  have ends : s.launchTurn c = u.complete c code 0 := by
    simp only [State.launchTurn, hk, hu]
  refine completes_of_kept (exec_launchTurn hc he hx) ?_ ?_ ends <;> rw [ends]
  · exact (congrArg State.pending walked.rest :)
  · exact (congrArg State.boot walked.rest :)

end LaunchTurn

/-! ### Graphs (R502) -/

theorem graph?_setGraph (s : State) (k : Nat) (g : Option Graph) : (s.setGraph k g).graph? k = g := spGet_spPut_same _ _ _

theorem graph?_of_eng {s t : State} (h : t.eng = s.eng) (k : Nat) : t.graph? k = s.graph? k := by
  simp only [State.graph?, h]

theorem graph?_putGraph (s : State) (k : Nat) (g : Graph) : (s.putGraph k g).graph? k = some (g.refresh s.eng.token.ord) :=
  graph?_setGraph s k (some (g.refresh s.eng.token.ord))

/-- Putting a graph back concerns the graphs alone. -/
theorem hoop_putGraph (s : State) (k : Nat) (g : Graph) (h : Nat) : (s.putGraph k g).hoop h = s.hoop h := by
  unfold State.putGraph
  rfl

theorem putGraph_kept (s : State) (k : Nat) (g : Graph) :
    (s.putGraph k g).regs = s.regs ∧ (s.putGraph k g).pending = s.pending ∧ (s.putGraph k g).boot = s.boot := by
  unfold State.putGraph
  exact ⟨rfl, rfl, rfl⟩

/-- Noting since when the actors are ready keeps their headers. -/
theorem headers_refresh (g : Graph) (n : Nat) : (g.refresh n).actors.map (·.header) = g.actors.map (·.header) := by
  apply List.ext_getElem <;> simp [Graph.refresh]

/-- An actor keeps its state where it is noted since when it is ready. -/
theorem actor_refresh {g : Graph} {i : Nat} {a : Actor} (n : Nat) (h : g.actors[i]? = some a) :
    ∃ b, (g.refresh n).actors[i]? = some b ∧ b.st = a.st := by
  simp [Graph.refresh, h]

theorem actor_modActor {g : Graph} {i : Nat} {a : Actor} (f : Actor → Actor) (h : g.actors[i]? = some a) :
    (g.modActor i f).actors[i]? = some (f a) := by
  simp only [Graph.modActor, h]
  exact getElem?_listSet_same h _

/-- A changed actor is in its graph in its new state. -/
theorem actor_putGraph {g : Graph} {i : Nat} {a : Actor} (s : State) (k : Nat) (f : Actor → Actor) (h : g.actors[i]? = some a) :
    ∃ g' a', (s.putGraph k (g.modActor i f)).graph? k = some g' ∧ g'.actors[i]? = some a' ∧ a'.st = (f a).st := by
  obtain ⟨b, there, st⟩ := actor_refresh s.eng.token.ord (actor_modActor f h)
  exact ⟨_, b, graph?_putGraph _ _ _, there, st⟩

section LaunchActors

variable {r : Fin 10} {n : BitVec 16} {c : TkCmd} {k : Nat} {s : State} (hc : s.cmdCode c = none) (hk : c.tenant = some k)
  (he : s.is TE_CTL_EN = true) (hx : Executes r n (isOp 0x02) c s)

include hc he hx in
theorem exec_launchActors : exec (.launchActors r n) s = s.done (s.launchActors c) :=
  congrArg s.done (launchCmd_executes hx hc he)

include hc hk he hx

theorem launchActors_inUse (hg : (s.graph? (k * 64 + c.u 16 1)).isSome = true) :
    Completes (.launchActors r n) s fun t => t = s.fail c 0x800F 0 := by
  refine completes_fail ((exec_launchActors hc he hx).trans ?_)
  simp only [State.launchActors, hk, hg, if_true]

theorem launchActors_makes {x y : VRes} {u v w : State} {l : List Actor} (hg : s.graph? (k * 64 + c.u 16 1) = none)
    (ha : s.actorCount.1 + c.u 18 2 ≤ 8192) (hn : s.actorCount.2 + c.u 20 2 ≤ 16384)
    (hu : s.tenantRead c.req k (c.u 24 8) (8 * c.u 18 2) {} = (u, x)) (hxf : x.fault = none) (hxp : x.poison = false)
    (hv : u.tenantRead c.req k (c.u 32 8) (32 * c.u 20 2) {} = (v, y)) (hyf : y.fault = none) (hyp : y.poison = false)
    (hw : v.readActors c.req k ((entries x.bytes 8 (c.u 18 2)).map fun b => leNat b % 2 ^ 48) = (w, l)) :
    Completes (.launchActors r n) s fun t => ∃ g, t.graph? (k * 64 + c.u 16 1) = some g ∧ g.cmd = c ∧
      g.chans = (entries y.bytes 32 (c.u 20 2)).map chanOf ∧ g.actors.map (·.header) = l.map (·.header) := by
  have made : s.launchActors c = (w.putGraph (k * 64 + c.u 16 1)
      { cmd := c, actors := l, chans := (entries y.bytes 32 (c.u 20 2)).map chanOf }).complete c 0 (c.u 16 1) := by
    have few : ¬ (8192 < s.actorCount.1 + c.u 18 2 ∨ 16384 < s.actorCount.2 + c.u 20 2) := by omega
    simp [State.launchActors, hk, hg, few, hu, hxf, hxp, hv, hyf, hyp, hw, -Nat.reducePow]
  refine completes_of_eng (exec_launchActors hc he hx) fun t ht => ?_
  rw [made, complete_eng] at ht
  exact ⟨_, (graph?_of_eng ht _).trans (graph?_putGraph w _ _), rfl, rfl, headers_refresh _ _⟩

end LaunchActors

/-! ### FIRING_PLACE and PARKED_FIRING_RESUME (R324, R507, R508) -/

/-- A firing that starts is on its hoop, which runs it from bundle 0; its graph has what it holds and reserves. -/
theorem fire_eq (s : State) (h k i : Nat) (g : Graph) (a : Actor) : ∃ y g' f, s.fire h k i g a = (s.setHoop h y).putGraph k g' ∧
    y.st = .running ∧ y.pc = 0 ∧ y.firing = some f ∧ f.graph = k ∧ f.actor = i ∧ f.turn = s.curTurn :=
  ⟨_, _, _, rfl, rfl, rfl, rfl, rfl, rfl, rfl⟩

theorem place_fires {h : Fin 36} {c : Cand} {g : Graph} {a : Actor} {s : State}
    (hi : firstIdx (fun l => s.hoopFree l && (s.choose l).isSome) h = none) (hf : s.hoopFree h = true)
    (hc : s.choose h = some c) (hg : s.graph? c.key = some g) (ha : g.actors[c.actor]? = some a)
    (ok : actorOk g c.actor a (decide (32 ≤ h.val)) = true) : s.place h = s.fire h c.key c.actor g a := by
  simp [State.place, hf, hc, hi, hg, ha, ok]

theorem firingPlace_starts {i : Instr} {h k j : Nat} {g : Graph} {a : Actor} {s : State}
    (he : exec i s = s.done (s.fire h k j g a)) : Completes i s fun t => (t.hoop h).st = .running ∧ (t.hoop h).pc = 0 ∧
      (∃ f, (t.hoop h).firing = some f ∧ f.graph = k ∧ f.actor = j ∧ f.turn = s.curTurn) ∧ t.regs = s.regs := by
  obtain ⟨y, g', f, fires, st, pc, firing, graph, actor, turn⟩ := fire_eq s h k j g a
  obtain ⟨regs, pending, boot⟩ := putGraph_kept (s.setHoop h y) k g'
  rw [fires] at he
  refine completes_of_kept he pending boot ?_
  rw [hoop_putGraph, hoop_setHoop, if_pos rfl]
  exact ⟨st, pc, ⟨f, firing, graph, actor, turn⟩, regs⟩

section Parked

variable {h : Fin 36} {q m : Nat} {ks bs : List Nat} {s : State} (hs : (s.hoop h).stall = .parked q m ks bs)

include hs

theorem unpark_goes (hu : s.unparks q m ks bs = true) :
    s.unpark h = s.modHoop h fun x => { x with stall := .none } := by
  simp only [State.unpark, hs, hu, if_true]

theorem unpark_waits (hu : s.unparks q m ks bs = false) : s.unpark h = s := by
  simp only [State.unpark, hs, hu, Bool.false_eq_true, if_false]

end Parked

/-! ### RESUME and ABORT of a command (R512) -/

section Command

variable {r : Fin 10} {n : BitVec 16} {c x : TkCmd} {s : State} (hc : s.cmdCode c = none) (ht : s.target? c = some x)

include hc ht

theorem resumeCommand_goes (hx : Executes r n (isKind 0x30 0) c s) (h0 : c.u 16 1 = 0) (hp : x.phase = .suspended) :
    Completes (.resumeCommand r n) s fun t => t = (s.putCmd { x with phase := .running }).complete c 0 0 := by
  have goes : exec (.resumeCommand r n) s = s.done ((s.putCmd { x with phase := .running }).complete c 0 0) :=
    exec_executes (f := State.resumeCmd) rfl hx hc (by simp [State.resumeCmd, h0, ht, hp])
  exact completes_complete goes rfl rfl rfl

theorem resumeCommand_fails (hx : Executes r n (isKind 0x30 0) c s) (h0 : c.u 16 1 = 0) (hp : x.phase ≠ .suspended) :
    Completes (.resumeCommand r n) s fun t => t = s.fail c 0x800A 0 := by
  refine completes_fail (exec_executes (f := State.resumeCmd) rfl hx hc ?_)
  simp [State.resumeCmd, h0, ht, hp]

theorem abortCommand_ends (hx : Executes r n (isKind 0x31 0) c s) (hp : x.phase ≠ .running) :
    Completes (.abortCommand r n) s fun t => t = (s.complete x 0x800B x.done).complete c 0 0 := by
  have ends : exec (.abortCommand r n) s = s.done ((s.complete x 0x800B x.done).complete c 0 0) :=
    exec_executes (f := State.abortCmd) rfl hx hc (by simp [State.abortCmd, ht, hp, fail_aborted])
  exact completes_complete ends (complete_pending _ _ _ _) (complete_boot _ _ _ _) rfl

theorem abortCommand_fails (hx : Executes r n (isKind 0x31 0) c s) (hp : x.phase = .running) :
    Completes (.abortCommand r n) s fun t => t = s.fail c 0x800A 0 := by
  refine completes_fail (exec_executes (f := State.abortCmd) rfl hx hc ?_)
  simp [State.abortCmd, ht, hp]

end Command

/-! ### What the end of firings and graphs keeps (R510, R512) -/

theorem eng_graphGone (s : State) (k : Nat) (l : List TkCmd) : (s.graphGone k l).eng = s.eng := by
  induction l generalizing s with
  | nil => rfl
  | cons c l ih => exact (ih _).trans rfl

/-- The freeing of a graph concerns no hoop. -/
theorem hoop_freeGraph (s : State) (k h : Nat) : (s.freeGraph k).hoop h = s.hoop h := by
  unfold State.freeGraph
  split
  · split
    · exact (hoop_of_eng (eng_graphGone _ _ _) h).trans rfl
    · rfl
  · rfl

theorem graph?_freeGraph {s : State} {k : Nat} {g : Graph} (hg : s.graph? k = some g) (he : g.ending = true)
    (hf : ∀ h f, (s.hoop h).firing = some f → f.graph ≠ k) : (s.freeGraph k).graph? k = none := by
  have free : ((List.range 36).any fun h => ((s.hoop h).firing.map fun f => f.graph == k).getD false) = false := by
    refine List.any_eq_false.2 fun h _ => ?_
    cases hh : (s.hoop h).firing with
    | none => simp
    | some f => simp [hf h f hh]
  simp only [State.freeGraph, hg, he, free, Bool.not_false, Bool.and_self, if_true]
  have kept := eng_graphGone (s.setGraph k none) k
    (s.track.store.filter fun c => isOp 0x31 c && c.u 16 1 == 2 && c.phase == .running && c.graphKey == k)
  exact (congrArg (fun e : Engine => spGet (fun _ => none) e.token.graphs k) kept).trans (graph?_setGraph s k none)

/-- A hoop whose firing is gone. -/
def Hoop.idled (y : Hoop) : Hoop :=
  { y with st := .idle, firing := none, stall := .none, snap := none, leave := {}, stuck := [], defer := false }

theorem hoop_idleHoop (s : State) (h : Nat) : (s.idleHoop h).hoop h = (s.hoop h).idled := spGet_spPut_same _ _ _

theorem hoop_discard {s : State} {h : Nat} {f : Firing} (st : ActSt) (hf : (s.hoop h).firing = some f) :
    (s.discard h st).hoop h = (s.hoop h).idled := by
  simp only [State.discard, hf]
  split
  · exact hoop_idleHoop s h
  · rw [hoop_freeGraph, hoop_putGraph, hoop_idleHoop]

/-! ### RESUME and ABORT of an actor (R512) -/

theorem of_firstIdx {p : Nat → Bool} {n k : Nat} (h : firstIdx p n = some k) : p k = true := by
  induction n with
  | zero => cases h
  | succ n ih =>
    unfold firstIdx at h
    split at h
    · next found => exact ih (found.trans h)
    · split at h
      · next hn => cases h; exact hn
      · cases h

/-- The hoop that fires an actor has a firing. -/
theorem firing_of_firingOf {s : State} {k i h : Nat} (hf : s.firingOf k i = some h) : ∃ f, (s.hoop h).firing = some f := by
  have fires := of_firstIdx hf
  cases hh : (s.hoop h).firing with
  | none => simp [hh] at fires
  | some f => exact ⟨f, rfl⟩

section Actor

variable {r : Fin 10} {n : BitVec 16} {c : TkCmd} {s : State} {g : Graph} {a : Actor} (hc : s.cmdCode c = none)
  (hg : s.graph? c.graphKey = some g)

include hc hg

theorem resumeActor_goes {h code : Nat} (hx : Executes r n (isKind 0x30 1) c s) (hf : s.firingOf c.graphKey (c.u 22 2) = some h)
    (hs : (s.hoop h).stall = .held code) : Completes (.resumeActor r n) s fun t =>
      (t.hoop h).stall = .none ∧ (t.hoop h).firing = (s.hoop h).firing ∧
      t.tkRecs c.req = s.tkRecs c.req ++ [c.record 0 0 false] := by
  have goes : exec (.resumeActor r n) s = s.done ((s.modHoop h fun x => { x with stall := .none }).complete c 0 0) :=
    exec_executes (f := State.resumeActor) rfl hx hc (by simp only [State.resumeActor, hg, hf, hs])
  refine completes_complete goes rfl rfl ?_
  have here : ((s.modHoop h fun x => { x with stall := .none }).complete c 0 0).hoop h = { s.hoop h with stall := .none } :=
    spGet_spPut_same _ _ _
  rw [here]
  exact ⟨rfl, rfl, tkRecs_complete _ _ _ _⟩

theorem abortActor_discards {h code : Nat} (hx : Executes r n (isKind 0x31 1) c s)
    (hf : s.firingOf c.graphKey (c.u 22 2) = some h) (hs : (s.hoop h).stall = .held code) :
    Completes (.abortActor r n) s fun t => (t.hoop h).firing = none ∧ (t.hoop h).st = .idle := by
  have ends : exec (.abortActor r n) s = s.done ((s.discard h .dead).complete c 0 0) :=
    exec_executes (f := State.abortActor) rfl hx hc (by simp [State.abortActor, hg, hf, State.stalled, hs])
  obtain ⟨f, firing⟩ := firing_of_firingOf hf
  refine completes_of_eng ends fun t ht => ?_
  rw [hoop_of_eng (ht.trans (complete_eng _ _ _ _)), hoop_discard .dead firing]
  exact ⟨rfl, rfl⟩

variable (ha : g.actors[c.u 22 2]? = some a) (hf : s.firingOf c.graphKey (c.u 22 2) = none) (hs : a.st = .held)

include ha hf hs

theorem resumeActor_readies (hx : Executes r n (isKind 0x30 1) c s) : Completes (.resumeActor r n) s fun t =>
    ∃ g' a', t.graph? c.graphKey = some g' ∧ g'.actors[c.u 22 2]? = some a' ∧ a'.st = .ready := by
  have goes : exec (.resumeActor r n) s =
      s.done ((s.putGraph c.graphKey (g.modActor (c.u 22 2) fun a => { a with st := .ready })).complete c 0 0) :=
    exec_executes (f := State.resumeActor) rfl hx hc (by simp only [State.resumeActor, hg, hf, ha, hs, if_true])
  obtain ⟨g', a', graph, actor, st⟩ := actor_putGraph s c.graphKey (fun a => { a with st := .ready }) ha
  exact completes_of_eng goes fun t ht => ⟨g', a', (graph?_of_eng (ht.trans (complete_eng _ _ _ _)) _).trans graph, actor, st⟩

theorem abortActor_kills (hx : Executes r n (isKind 0x31 1) c s) : Completes (.abortActor r n) s fun t =>
    ∃ g' a', t.graph? c.graphKey = some g' ∧ g'.actors[c.u 22 2]? = some a' ∧ a'.st = .dead := by
  have ends : exec (.abortActor r n) s =
      s.done ((s.putGraph c.graphKey (g.modActor (c.u 22 2) fun a => { a with st := .dead })).complete c 0 0) :=
    exec_executes (f := State.abortActor) rfl hx hc (by simp only [State.abortActor, hg, hf, ha, hs, if_true])
  obtain ⟨g', a', graph, actor, st⟩ := actor_putGraph s c.graphKey (fun a => { a with st := .dead }) ha
  exact completes_of_eng ends fun t ht => ⟨g', a', (graph?_of_eng (ht.trans (complete_eng _ _ _ _)) _).trans graph, actor, st⟩

end Actor

/-! ### ABORT of a graph (R512) -/

/-- Where no hoop fires an actor of a graph, its end frees it at once. -/
theorem graph?_endGraph {s : State} {k : Nat} {g : Graph} (hg : s.graph? k = some g)
    (hf : ∀ h f, (s.hoop h).firing = some f → f.graph ≠ k) : (s.endGraph k).graph? k = none := by
  have nothing : ∀ l : List Nat, l.foldl (fun t h =>
      if ((t.hoop h).firing.map fun f => f.graph == k).getD false && t.stalled h then t.discard h .dead else t)
        (s.setGraph k (some { g with ending := true })) = s.setGraph k (some { g with ending := true }) := by
    intro l
    induction l with
    | nil => rfl
    | cons h l ih =>
      have idle : (((s.setGraph k (some { g with ending := true })).hoop h).firing.map fun f => f.graph == k).getD false = false := by
        show ((s.hoop h).firing.map fun f => f.graph == k).getD false = false
        cases hh : (s.hoop h).firing with
        | none => rfl
        | some f => simp [hf h f hh]
      rw [List.foldl_cons, idle, Bool.false_and, if_neg Bool.false_ne_true, ih]
  simp only [State.endGraph, hg, nothing]
  exact graph?_freeGraph (graph?_setGraph s k _) rfl hf

section AbortGraph

variable {r : Fin 10} {n : BitVec 16} {c : TkCmd} {s : State} (hc : s.cmdCode c = none) (hx : Executes r n (isKind 0x31 2) c s)

include hc hx

theorem abortGraph_frees {g : Graph} (hg : s.graph? c.graphKey = some g)
    (hf : ∀ h f, (s.hoop h).firing = some f → f.graph ≠ c.graphKey) :
    Completes (.abortGraph r n) s fun t => t.graph? c.graphKey = none := by
  have ends : exec (.abortGraph r n) s = s.done ((s.startCmd c).endGraph c.graphKey) :=
    exec_executes (f := State.abortGraph) rfl hx hc (by simp [State.abortGraph, hg])
  have started : (s.startCmd c).eng = s.eng := rfl
  have freed := graph?_endGraph ((graph?_of_eng started _).trans hg)
    fun h f hh => hf h f ((congrArg Hoop.firing (hoop_of_eng started h)).symm.trans hh)
  exact completes_of_eng ends fun t ht => (graph?_of_eng ht _).trans freed

theorem abortGraph_fails (hg : s.graph? c.graphKey = none) : Completes (.abortGraph r n) s fun t => t = s.fail c 0x800A 0 := by
  refine completes_fail (exec_executes (f := State.abortGraph) rfl hx hc ?_)
  simp [State.abortGraph, hg]

end AbortGraph

/-! ### ABORT of the TURN (R512, R513) -/

/-- A program that is killed has a fault. -/
theorem fault_killTurn {s : State} (hr : s.eng.sched.running.isSome = true) : s.killTurn.eng.sched.fault ≠ 0 := by
  obtain ⟨n, running⟩ := Option.isSome_iff_exists.1 hr
  simp only [State.killTurn, hr, if_true]
  by_cases h0 : s.eng.sched.fault = 0
  · rw [(schedFault_first running h0).1]
    decide
  · have kept : s.schedFault 0x800B false = s := by simp [State.schedFault, running, h0]
    rwa [kept]

section AbortTurn

variable {r : Fin 10} {n : BitVec 16} {c : TkCmd} {s : State} (hc : s.cmdCode c = none) (hx : Executes r n (isKind 0x31 3) c s)

include hc hx

theorem abortTurn_fails (hi : s.eng.sched.image = none) (hn : s.eng.sched.next = none) :
    Completes (.abortTurn r n) s fun t => t = s.fail c 0x800A 0 := by
  refine completes_fail (exec_executes (f := State.abortTurn) rfl hx hc ?_)
  simp [State.abortTurn, hi, hn]

theorem abortTurn_ends (hi : s.eng.sched.image.isSome = true) : Completes (.abortTurn r n) s fun t =>
    t.eng.sched.image = none ∧ t.eng.sched.next = none ∧ t.eng.sched.pending = none ∧ t.eng.sched.resident = none ∧
    (s.eng.sched.running.isSome = true → t.eng.sched.fault ≠ 0) := by
  have sched : (s.abortTurn c).eng.sched =
      { s.killTurn.eng.sched with image := none, next := none, pending := none, resident := none } := by
    have some : s.eng.sched.image.isNone = false := by simpa [Option.isSome_iff_ne_none] using hi
    simp only [State.abortTurn, some, Bool.false_and, Bool.false_eq_true, if_false]
    cases s.eng.sched.next.bind fun l => s.killTurn.cmd? l.req l.csn <;> rfl
  refine done_completes (exec_executes (f := State.abortTurn) rfl hx hc rfl) ?_
  show _ ∧ _ ∧ _ ∧ _ ∧ _
  dsimp only
  rw [sched]
  exact ⟨rfl, rfl, rfl, rfl, fault_killTurn⟩

end AbortTurn

/-- Settles O49: each command executes on the state that its premises name, and the Token partition's and the Scheduled partition's
own operations give the rest. -/
theorem launchesResumesAndAborts : Obligations.LaunchesResumesAndAborts := by
  unfold Obligations.LaunchesResumesAndAborts
  refine ⟨fun r n c k s u hc hk he => ⟨fun hx => ⟨launchTurn_pinned hc hk he hx, fun code => launchTurn_unpinned hc hk he hx⟩,
      fun hx => ⟨launchActors_inUse hc hk he hx, fun x y v w l => launchActors_makes hc hk he hx⟩⟩,
    fun h c g a s hi hf hch hg ha ok => ?_, fun h q m ks bs s hs => ⟨fun hu => ?_, fun hu => ?_⟩,
    fun r n c s hc => ⟨fun x hx h0 ht => ⟨resumeCommand_goes hc ht hx h0, resumeCommand_fails hc ht hx h0⟩,
      fun x hx ht => ⟨abortCommand_ends hc ht hx, abortCommand_fails hc ht hx⟩,
      fun g a hg ha => ⟨fun h code hf hs => ⟨fun hx => resumeActor_goes hc hg hx hf hs,
          fun hx => abortActor_discards hc hg hx hf hs⟩,
        fun hf hs => ⟨resumeActor_readies hc hg ha hf hs, abortActor_kills hc hg ha hf hs⟩,
        fun hx => abortGraph_frees hc hx hg⟩,
      abortGraph_fails hc, fun hx => ⟨abortTurn_fails hc hx, abortTurn_ends hc hx⟩⟩⟩
  · exact firingPlace_starts (congrArg s.done (place_fires hi hf hch hg ha ok))
  · exact completes_of_hoopOnly (congrArg s.done (unpark_goes hs hu)) (hoopOnly_modHoop _ _ _) (hoopOnly_modHoop _ _ _)
  · exact (congrArg s.done (unpark_waits hs hu)).trans (done_self s)

end Sys2Proof.Machine
end

section
/-! What an access of a hoop to memory or SRAM can change. -/

namespace Sys2Proof.Machine

open Reg

/-- `t` differs from `s` only in what accesses to memory and SRAM touch: registers, the memories, mappings, the count of free
values, the Pool's notes, the Selvedge with the outbox, and hoops. -/
def OnlyAccessed (s t : State) : Prop :=
  t = { s with
    regs := t.regs, mem := t.mem, atu := t.atu, freeCtr := t.freeCtr, pool := t.pool, sv := t.sv, outbox := t.outbox,
    eng := { s.eng with hoops := t.eng.hoops } }

section

variable {s t u : State}

theorem OnlyAccessed.refl (s : State) : OnlyAccessed s s := rfl

theorem OnlyAccessed.trans (h : OnlyAccessed s t) (k : OnlyAccessed t u) : OnlyAccessed s u := by
  rw [OnlyAccessed] at *
  rw [k, h]

theorem OnlyWalked.accessed (h : OnlyWalked s t) : OnlyAccessed s t := by
  rw [OnlyAccessed, h.rest]

theorem OnlyAccessed.pending (h : OnlyAccessed s t) : t.pending = s.pending := (congrArg State.pending h :)

theorem OnlyAccessed.boot (h : OnlyAccessed s t) : t.boot = s.boot := (congrArg State.boot h :)

theorem OnlyAccessed.lace (h : OnlyAccessed s t) (l : Nat) : t.lace l = s.lace l := (congrArg (State.lace · l) h :)

theorem OnlyAccessed.report (h : OnlyAccessed s t) (c i : Nat) : OnlyAccessed s (t.report c i) :=
  h.trans ((OnlyWalked.refl t).report c i).accessed

theorem OnlyAccessed.foldl {α : Type} {f : State → α → State} (hf : ∀ s a, OnlyAccessed s (f s a)) (h : OnlyAccessed s t)
    (l : List α) : OnlyAccessed s (l.foldl f t) := by
  induction l generalizing t with
  | nil => exact h
  | cons a l ih => exact ih (h.trans (hf t a))

end

/-! ### The message to the twin (R472) -/

theorem onlyAccessed_svPump (s : State) (p : Nat) : OnlyAccessed s (s.svPump p) := by
  unfold State.svPump
  dsimp only
  split
  · exact .refl s
  · refine OnlyAccessed.foldl (fun t m => ?_) ?_ _ <;> rfl

theorem onlyAccessed_svQueue (s : State) (p : Nat) (m : SvTx) : OnlyAccessed s (s.svQueue p m) := by
  unfold State.svQueue
  dsimp only
  split
  · split
    · rfl
    · refine OnlyAccessed.report ?_ _ _
      rfl
  · refine OnlyAccessed.trans ?_ (onlyAccessed_svPump _ _)
    rfl

theorem onlyAccessed_svSend (s : State) (d : Nat) (m : SvMsg) : OnlyAccessed s (s.svSend d m) := by
  have numbered : OnlyAccessed s (s.svE2e (svKey d m)).1 := rfl
  exact numbered.trans (onlyAccessed_svQueue _ _ _)

theorem onlyAccessed_mirrorSend (s : State) (l n k : Nat) : OnlyAccessed s (s.mirrorSend l n k) := by
  induction k generalizing s l n with
  | zero => exact .refl s
  | succ k ih =>
    unfold State.mirrorSend
    split
    · exact .refl s
    · refine OnlyAccessed.trans ?_ ((onlyAccessed_svSend _ _ _).trans (ih _ _ _))
      rfl

theorem onlyAccessed_degraded (s : State) (p : Prot) (a : Nat) : OnlyAccessed s (s.degraded p a) := by
  unfold State.degraded
  dsimp only
  split <;> split
  · rfl
  · rfl
  · refine OnlyAccessed.report ?_ _ _
    rfl
  · refine OnlyAccessed.report ?_ _ _
    rfl

theorem onlyAccessed_mirror (s : State) (p : Prot) (a n : Nat) : OnlyAccessed s (s.mirror p a n) := by
  unfold State.mirror
  split
  · exact onlyAccessed_mirrorSend _ _ _ _
  · exact onlyAccessed_degraded _ _ _

/-! ### Writes of memory (R427, R470-R473) -/

theorem onlyAccessed_parityLines (s : State) (b l n : Nat) : OnlyAccessed s (s.parityLines b l n) := by
  induction n generalizing s l with
  | zero => exact .refl s
  | succ n ih =>
    refine OnlyAccessed.trans ?_ (ih _ _)
    rfl

theorem onlyAccessed_lineWrite (s : State) (i l : Nat) (w : Bool) (e : MemErr) : OnlyAccessed s (s.lineWrite i l w e) := by
  have read := (onlyWalked_lineRead s i l e).accessed
  unfold State.lineWrite
  split
  · rfl
  · dsimp only
    split
    · exact read.trans rfl
    · exact read

theorem onlyAccessed_linesWrite (s : State) (i a n l : Nat) (e : MemErr) (k : Nat) :
    OnlyAccessed s (s.linesWrite i a n l e k) := by
  induction k generalizing s l with
  | zero => exact .refl s
  | succ k ih => exact (onlyAccessed_lineWrite _ _ _ _ _).trans (ih _ _)

theorem onlyAccessed_dpaWrite (s : State) (i a : Nat) (bs : List Byte) (e : MemErr) (twin : Bool) :
    OnlyAccessed s (s.dpaWrite i a bs e twin) := by
  unfold State.dpaWrite
  split
  · exact .refl s
  · have lines := (onlyWalked_reelSpan s a bs.length true).accessed.trans
      (onlyAccessed_linesWrite _ i a bs.length (a / 64) e ((a + bs.length - 1) / 64 - a / 64 + 1))
    dsimp only
    generalize (s.reelSpan a bs.length true).linesWrite i a bs.length (a / 64) e _ = s1 at lines ⊢
    have placed : OnlyAccessed s { s1 with mem := s1.mem.puts a bs } := lines.trans rfl
    generalize ({ s1 with mem := s1.mem.puts a bs } : State) = s2 at placed ⊢
    split
    · split
      · exact placed.trans (onlyAccessed_parityLines _ _ _ _)
      · split
        · exact placed.trans (onlyAccessed_mirror _ _ _ _)
        · exact placed
    · exact placed

/-! ### Translated accesses (R436, R438) -/

theorem onlyAccessed_atuFault (s : State) (t : Nat) (f : AtuFault) : OnlyAccessed s (s.atuFault t f) := by
  have reported := (OnlyAccessed.refl s).report (faultCode f.reason) f.iid
  unfold State.atuFault
  dsimp only
  split
  · refine OnlyAccessed.report (reported.trans ?_) _ _
    rfl
  · exact reported.trans rfl

theorem onlyAccessed_xlate (s : State) (i t va : Nat) (wr : Bool) (e : MemErr) : OnlyAccessed s (s.xlate i t va wr e).1 := by
  have walked := (onlyWalked_walk s t (va % 2 ^ 48) e).accessed
  unfold State.xlate
  dsimp only
  split
  · next hw =>
    rw [hw] at walked
    exact walked.trans (onlyAccessed_atuFault _ _ _)
  · next s1 l hw =>
    rw [hw] at walked
    by_cases allowed : (if wr then l.wr else l.rd) = true
    · rw [if_pos allowed]
      exact walked
    · rw [if_neg allowed]
      exact walked.trans (onlyAccessed_atuFault _ _ _)

theorem onlyAccessed_vaRead (s : State) (i t : Nat) (e : MemErr) (k va n : Nat) : OnlyAccessed s (s.vaRead i t e k va n).1 := by
  induction k generalizing s va n with
  | zero => exact .refl s
  | succ k ih =>
    have found := onlyAccessed_xlate s i t va false e
    unfold State.vaRead
    split
    · exact .refl s
    · rcases hx : s.xlate i t va false e with ⟨s1, c | a⟩
      · rw [hx] at found
        exact found
      · rw [hx] at found
        dsimp only at found ⊢
        cases s1.dpaCheck (.local t) a (inPage va n) false with
        | some c => exact found.trans ((onlyWalked_dpaRefuse s1 c i).accessed.trans (ih _ _ _))
        | none => exact found.trans ((onlyWalked_dpaRead s1 i a (inPage va n) e).accessed.trans (ih _ _ _))

theorem onlyAccessed_vaWrite (s : State) (i t : Nat) (e : MemErr) (k va : Nat) (bs : List Byte) :
    OnlyAccessed s (s.vaWrite i t e k va bs).1 := by
  induction k generalizing s va bs with
  | zero => exact .refl s
  | succ k ih =>
    have found := onlyAccessed_xlate s i t va true e
    unfold State.vaWrite
    split
    · exact .refl s
    · rcases hx : s.xlate i t va true e with ⟨s1, c | a⟩
      · rw [hx] at found
        exact found
      · rw [hx] at found
        dsimp only at found ⊢
        cases s1.dpaCheck (.local t) a (inPage va bs.length) true with
        | some c => exact found.trans ((onlyWalked_dpaRefuse s1 c i).accessed.trans (ih _ _ _))
        | none => exact found.trans ((onlyAccessed_dpaWrite s1 i a (bs.take (inPage va bs.length)) e true).trans (ih _ _ _))

theorem onlyAccessed_tenantRead (s : State) (i t va n : Nat) (e : MemErr) : OnlyAccessed s (s.tenantRead i t va n e).1 :=
  onlyAccessed_vaRead _ _ _ _ _ _ _

theorem onlyAccessed_tenantWrite (s : State) (i t va : Nat) (bs : List Byte) (e : MemErr) :
    OnlyAccessed s (s.tenantWrite i t va bs e).1 :=
  onlyAccessed_vaWrite _ _ _ _ _ _ _

/-! ### Accesses through pinned mappings (R441) -/

theorem onlyAccessed_pinRead (s : State) (i t : Nat) (e : MemErr) (k va n : Nat) : OnlyAccessed s (s.pinRead i t e k va n).1 := by
  induction k generalizing s va n with
  | zero => exact .refl s
  | succ k ih =>
    unfold State.pinRead
    split
    · exact .refl s
    · dsimp only
      split
      · exact .refl s
      · next a _ =>
        cases s.dpaCheck (.local t) a (inPage va n) false with
        | some c => exact (onlyWalked_dpaRefuse s c i).accessed.trans (ih _ _ _)
        | none => exact (onlyWalked_dpaRead s i a (inPage va n) e).accessed.trans (ih _ _ _)

theorem onlyAccessed_pinWrite (s : State) (i t : Nat) (e : MemErr) (k va : Nat) (bs : List Byte) :
    OnlyAccessed s (s.pinWrite i t e k va bs).1 := by
  induction k generalizing s va bs with
  | zero => exact .refl s
  | succ k ih =>
    unfold State.pinWrite
    split
    · exact .refl s
    · dsimp only
      split
      · exact .refl s
      · next a _ =>
        cases s.dpaCheck (.local t) a (inPage va bs.length) true with
        | some c => exact (onlyWalked_dpaRefuse s c i).accessed.trans (ih _ _ _)
        | none => exact (onlyAccessed_dpaWrite s i a (bs.take (inPage va bs.length)) e true).trans (ih _ _ _)

/-! ### The accesses of a hoop (R290, R441) -/

theorem onlyAccessed_memRead (s : State) (c : Cx) (va n : Nat) : OnlyAccessed s (s.memRead c va n).1 := by
  unfold State.memRead
  split
  · have pinned := onlyAccessed_pinRead s c.iid c.tenant c.e (pagesOf n) va n
    rw [State.pinnedRead]
    split
    · next hr =>
      rw [hr] at pinned
      exact pinned.report _ _
    · next hr =>
      rw [hr] at pinned
      split <;> exact pinned
  · have tenants := onlyAccessed_tenantRead s c.iid c.tenant va n c.e
    dsimp only
    split <;> exact tenants

theorem onlyAccessed_memWrite (s : State) (c : Cx) (va : Nat) (bs : List Byte) : OnlyAccessed s (s.memWrite c va bs).1 := by
  unfold State.memWrite
  split
  · have pinned := onlyAccessed_pinWrite s c.iid c.tenant c.e (pagesOf bs.length) va bs
    rw [State.pinnedWrite]
    split
    · next hr =>
      rw [hr] at pinned
      exact pinned
    · next hr =>
      rw [hr] at pinned
      exact pinned.report _ _
  · exact onlyAccessed_tenantWrite s c.iid c.tenant va bs c.e

theorem onlyAccessed_sramRead (s : State) (c : Cx) (h off n : Nat) : OnlyAccessed s (s.sramRead c h off n).1 := by
  unfold State.sramRead
  dsimp only
  split
  · exact OnlyAccessed.report (.refl s) _ _
  · dsimp only
    generalize (if h = c.h then ((sramWords h off n).filter fun w => c.e.sramCe.contains w).length else 0) = cor
    split <;> rfl

theorem onlyAccessed_sramWrite (s : State) (c : Cx) (h off : Nat) (bs : List Byte) : OnlyAccessed s (s.sramWrite c h off bs).1 := by
  unfold State.sramWrite
  dsimp only
  split
  · rfl
  · refine OnlyAccessed.report ?_ _ _
    rfl

theorem onlyAccessed_spaceRead (s : State) (c : Cx) (h : Option Nat) (a n : Nat) : OnlyAccessed s (s.spaceRead c h a n).1 := by
  cases h with
  | none => exact onlyAccessed_memRead _ _ _ _
  | some k => exact onlyAccessed_sramRead _ _ _ _ _

theorem onlyAccessed_spaceWrite (s : State) (c : Cx) (h : Option Nat) (a : Nat) (bs : List Byte) :
    OnlyAccessed s (s.spaceWrite c h a bs).1 := by
  cases h with
  | none => exact onlyAccessed_memWrite _ _ _ _
  | some k => exact onlyAccessed_sramWrite _ _ _ _ _

theorem onlyAccessed_tokCopy (s : State) (h : Nat) (d : Desc) (va n : Nat) (out : Bool) (e : MemErr) :
    OnlyAccessed s (s.tokCopy h d va n out e).1 := by
  unfold State.tokCopy
  dsimp only
  split
  · have read := onlyAccessed_spaceRead s (s.cx h e) (if d.sram then some h else none) d.base n
    split
    · next hr =>
      rw [hr] at read
      exact read
    · next hr =>
      rw [hr] at read
      exact read.trans (onlyAccessed_memWrite _ _ _ _)
  · have read := onlyAccessed_memRead s (s.cx h e) va n
    split
    · next hr =>
      rw [hr] at read
      exact read
    · next hr =>
      rw [hr] at read
      exact read.trans (onlyAccessed_spaceWrite _ _ _ _ _)

end Sys2Proof.Machine
end

section
/-! Sync counters, token copies and the Lace commands (O46). -/

namespace Sys2Proof.Machine

open Reg

/-! ### A syllable with any effect that leaves its hoop inside the bundle -/

theorem hoop_setHoop_self (s : State) (h g : Nat) : (s.setHoop h (s.hoop h)).hoop g = s.hoop g := by
  rw [hoop_setHoop]
  split
  · next same => rw [same]
  · rfl

section Syllable

variable {i : Instr} {x : Issue} {slots : List Nat} {w : Word} {r : HRegs} {s : State} {f : HRegs → State → State}
  (hi : Issues x slots w r s) (he : exec i s = s.done (s.syl x slots w f)) (hm : MidBundle ((f r s).hoop x.hoop))

include hi he hm

/-- Issuing such a syllable writes its hoop down once more. -/
theorem exec_midBundle : exec i s = s.done ((f r s).setHoop x.hoop ((f r s).hoop x.hoop)) := by
  rw [he, syl_of_issues hi]
  obtain ⟨-, -, -, hc, -⟩ := hi
  rw [afterSyl_midBundle w hm hc]

/-- What such a syllable leaves of the hoops. -/
theorem completes_hoops {p : State → Prop} (hp : ∀ t, (∀ g, t.hoop g = (f r s).hoop g) → p t) : Completes i s p :=
  completes_of_eng (exec_midBundle hi he hm) fun t ht => hp t fun g => (hoop_of_eng ht g).trans (hoop_setHoop_self _ _ _)

theorem completes_sameState {u : State} (hu : f r s = u) (hp : u.pending = s.pending) (hb : u.boot = s.boot) :
    Completes i s (SameState u) := by
  subst hu
  exact completes_of_kept (exec_midBundle hi he hm) hp hb ⟨rfl, hoop_setHoop_self _ _⟩

end Syllable

/-! ### Sync counters (R314, R341) -/

theorem c_modC (s : State) (h : Nat) (f : HRegs → Sparse Nat) (g : Nat) :
    ((s.modR h fun r => { r with c := f r }).hoop g).r.c = if g = h then f (s.hoop h).r else (s.hoop g).r.c := by
  rw [State.modR, State.modHoop, hoop_setHoop]
  by_cases hg : h = g
  · rw [if_pos hg, if_pos hg.symm]
  · rw [if_neg hg, if_neg (Ne.symm hg)]

/-- A change of registers keeps a hoop inside its bundle. -/
theorem midBundle_modR {s : State} {h g : Nat} (f : HRegs → HRegs) (hm : MidBundle (s.hoop g)) :
    MidBundle ((s.modR h f).hoop g) := by
  rw [State.modR, State.modHoop, hoop_setHoop]
  split
  · next same =>
    subst same
    exact hm
  · exact hm

section Sync

variable {x : Issue} {c : Fin 16} {r : HRegs} {s : State}

theorem syncSig_counts {lh : Fin 32} (hi : Issues x [7] (sylWord 0x01 x (lh.val * 2 ^ 17 + c.val * 2 ^ 13)) r s)
    (hl : lh.val < s.schedCount) : Completes (.syncSig x lh c) s fun t => ∀ g k : Nat, spGet (fun _ => 0) (t.hoop g).r.c k =
      if g = s.physical lh ∧ k = c.val then min (spGet (fun _ => 0) (s.hoop g).r.c k + 1) 65535
      else spGet (fun _ => 0) (s.hoop g).r.c k := by
  have signals : s.syncSig lh c = s.modR (s.physical lh) fun r =>
      { r with c := spPut (fun _ => 0) r.c c (min (spGet (fun _ => 0) r.c c + 1) 65535) } := if_pos hl
  have hm : MidBundle ((s.syncSig lh c).hoop x.hoop) := signals ▸ midBundle_modR _ (midBundle_of_issues hi)
  refine completes_hoops hi rfl hm fun t ht g k => ?_
  rw [ht, signals, c_modC]
  by_cases hg : g = s.physical lh
  · subst hg
    by_cases hk : k = c.val
    · subst hk; simp
    · simp [hk, spGet_spPut_ne _ _ (Ne.symm hk)]
  · simp [hg]

theorem syncSig_discarded {lh : Fin 32} (hi : Issues x [7] (sylWord 0x01 x (lh.val * 2 ^ 17 + c.val * 2 ^ 13)) r s)
    (hl : s.schedCount ≤ lh.val) : Completes (.syncSig x lh c) s (SameState s) := by
  have nothing : s.syncSig lh c = s := if_neg (Nat.not_lt.2 hl)
  exact completes_sameState hi rfl (by rw [nothing]; exact midBundle_of_issues hi) nothing rfl rfl

theorem syncWait_takes {v : BitVec 12} (hi : Issues x [7] (sylWord 0x02 x (c.val * 2 ^ 13 + v.toNat)) r s)
    (hv : v.toNat ≤ spGet (fun _ => 0) (s.hoop x.hoop).r.c c) : Completes (.syncWait x c v) s fun t => ∀ k : Nat,
      spGet (fun _ => 0) (t.hoop x.hoop).r.c k =
        spGet (fun _ => 0) (s.hoop x.hoop).r.c k - if k = c.val then v.toNat else 0 := by
  have there : s.syncHeld x c v.toNat = false := by simp [State.syncHeld, Nat.not_lt.2 hv]
  have hm : MidBundle ((s.syncTake x.hoop c v.toNat).hoop x.hoop) := midBundle_modR _ (midBundle_of_issues hi)
  refine completes_hoops (f := fun _ s => s.syncTake x.hoop c v.toNat) hi ?_ hm fun t ht k => ?_
  · exact congrArg s.done (if_neg (ne_true_of_eq_false there))
  rw [ht, State.syncTake, c_modC, if_pos rfl]
  by_cases hk : k = c.val
  · subst hk; simp
  · simp [hk, spGet_spPut_ne _ _ (Ne.symm hk)]

end Sync

/-! ### Tokens (R342, R343) -/

theorem graph?_setHoop (s : State) (h : Nat) (y : Hoop) (k : Nat) : (s.setHoop h y).graph? k = s.graph? k := rfl

/-- A change of a firing's ports keeps a hoop inside its bundle. -/
theorem midBundle_modFiring {s : State} {h : Nat} (f : Firing → Firing) (hm : MidBundle (s.hoop h)) :
    MidBundle ((s.modHoop h fun y => { y with firing := y.firing.map f }).hoop h) := by
  rw [State.modHoop, hoop_setHoop, if_pos rfl]
  exact hm

/-- A bundle of a hoop that has lost its firing goes no further. -/
theorem afterSyl_left {s : State} {x : Issue} (w : Word) (again : Bool) (was : Stall) (h : (s.hoop x.hoop).snap = none) :
    s.afterSyl x w again was = s := by
  simp [State.afterSyl, h]

theorem regs_graphGone (s : State) (k : Nat) (l : List TkCmd) : (s.graphGone k l).regs = s.regs := by
  induction l generalizing s with
  | nil => rfl
  | cons c l ih => exact ih _

theorem regs_freeGraph (s : State) (k : Nat) : (s.freeGraph k).regs = s.regs := by
  unfold State.freeGraph
  split
  · split
    · exact regs_graphGone _ _ _
    · rfl
  · rfl

theorem regs_discard (s : State) (h : Nat) (st : ActSt) : (s.discard h st).regs = s.regs := by
  unfold State.discard
  split
  · rfl
  · next f _ =>
    split
    · rfl
    · next g _ =>
      obtain ⟨regs, -⟩ := putGraph_kept (s.idleHoop h) f.graph ((g.undo f).modActor f.actor fun a => { a with st := st })
      exact (regs_freeGraph _ _).trans regs

/-- A notice is the Track's alone. -/
theorem actNotice_kept (s : State) (k h i b c : Nat) :
    (s.actNotice k h i b c).regs = s.regs ∧ (s.actNotice k h i b c).eng = s.eng := by
  unfold State.actNotice
  split <;> exact ⟨rfl, rfl⟩

theorem regs_killFiring (s : State) (h c : Nat) : (s.killFiring h c).regs = s.regs := by
  unfold State.killFiring
  split
  · rfl
  · exact (actNotice_kept _ _ _ _ _ _).1.trans (regs_discard _ _ _)

theorem hoop_killFiring {s : State} {h : Nat} {f : Firing} (c : Nat) (hf : (s.hoop h).firing = some f) :
    (s.killFiring h c).hoop h = (s.hoop h).idled := by
  simp only [State.killFiring, hf]
  exact (hoop_of_eng (actNotice_kept _ _ _ _ _ _).2 h).trans (hoop_discard .held hf)

section Token

variable {x : Issue} {td : Fin 64} {ch : Fin 8} {i : BitVec 8} {e : MemErr} {f : Firing} {p : Port} {c : Chan} {r : HRegs}
  {s u : State} (hf : (s.hoop x.hoop).firing = some f)

include hf

theorem tokRecv_copies (hc : s.portChan x.hoop p = some c) (hi : Issues x [7] (sylWord 0x08 x (tkBits td ch i false)) r s)
    (hp : f.ins[ch.val]? = some p)
    (hu : s.tokCopy x.hoop (descOf (r.tdv td)) (c.slot (p.first + i.toNat)) c.bytes false e = (u, none))
    (hm : MidBundle (u.hoop x.hoop)) : Completes (.tokRecv x td ch i e) s (SameState u) := by
  have copied := onlyAccessed_tokCopy s x.hoop (descOf (r.tdv td)) (c.slot (p.first + i.toNat)) c.bytes false e
  rw [hu] at copied
  have effect : s.tokRecv x.hoop ch i.toNat (r.tdv td) e = u := by
    simp [State.tokRecv, hf, hp, hc, hu, State.orFault]
  exact completes_sameState hi rfl (by rw [effect]; exact hm) effect copied.pending copied.boot

theorem tokSend_copies (hc : s.portChan x.hoop p = some c) (hi : Issues x [7] (sylWord 0x09 x (tkBits td ch i false)) r s)
    (hp : f.outs[ch.val]? = some p)
    (hu : s.tokCopy x.hoop (descOf (r.tdv td)) (c.slot (p.first + i.toNat)) c.bytes true e = (u, none))
    (hm : MidBundle (u.hoop x.hoop)) : Completes (.tokSend x td ch i false e) s (SameState (u.modOut x.hoop ch fun p =>
      { p with sent := i.toNat :: p.sent.filter (· != i.toNat) })) := by
  have copied := onlyAccessed_tokCopy s x.hoop (descOf (r.tdv td)) (c.slot (p.first + i.toNat)) c.bytes true e
  rw [hu] at copied
  have effect : s.tokSend x.hoop ch i.toNat (r.tdv td) false e =
      u.modOut x.hoop ch fun p => { p with sent := i.toNat :: p.sent.filter (· != i.toNat) } := by
    simp [State.tokSend, hf, hp, hc, hu]
  exact completes_sameState hi rfl (by rw [effect]; exact midBundle_modFiring _ hm) effect copied.pending copied.boot

section Credit

variable {n : BitVec 8} {g : Graph} {k : Chan} (hi : Issues x [7] (sylWord 0x0A x (ch.val * 2 ^ 13 + n.toNat * 2 ^ 5)) r s)
  (hp : f.ins[ch.val]? = some p)

include hi hp

theorem tokCredit_returns (hg : s.graph? f.graph = some g) (hk : g.chans[p.ch]? = some k) (hn : n.toNat ≤ p.count - p.gone) :
    Completes (.tokCredit x ch n) s fun t => ∃ g', t.graph? f.graph = some g' ∧
      g'.chans[p.ch]? = some { k with rel := k.rel + n.toNat } := by
  have effect : s.tokCredit x.hoop ch n.toNat = (s.modIn x.hoop ch fun p => { p with gone := p.gone + n.toNat }).putGraph f.graph
      (g.modChan p.ch fun c => { c with rel := c.rel + n.toNat }) := by
    have same : (s.modIn x.hoop ch fun p => { p with gone := p.gone + n.toNat }).graph? f.graph = some g := hg
    simp only [State.tokCredit, hf, hp, if_neg (Nat.not_lt.2 hn), same]
  have hm : MidBundle ((s.tokCredit x.hoop ch n.toNat).hoop x.hoop) := by
    rw [effect, hoop_putGraph]
    exact midBundle_modFiring _ (midBundle_of_issues hi)
  have there : ((s.tokCredit x.hoop ch n.toNat).setHoop x.hoop ((s.tokCredit x.hoop ch n.toNat).hoop x.hoop)).graph? f.graph =
      some ((g.modChan p.ch fun c => { c with rel := c.rel + n.toNat }).refresh s.eng.token.ord) := by
    rw [effect, graph?_setHoop, graph?_putGraph]
    rfl
  refine done_completes (exec_midBundle hi rfl hm) ⟨_, there, ?_⟩
  simp only [Graph.refresh, Graph.modChan, hk]
  exact getElem?_listSet_same hk _

theorem tokCredit_exceeds (hn : p.count - p.gone < n.toNat) : Completes (.tokCredit x ch n) s fun t =>
    (t.reg GLB_FAULT_LAST).toNat % 65536 = 0x4012 := by
  have effect : s.tokCredit x.hoop ch n.toNat = (s.report 0x4012 (fireIid x.hoop)).killFiring x.hoop 0x4012 := by
    simp only [State.tokCredit, hf, hp, if_pos hn]
  have idle : ((s.tokCredit x.hoop ch n.toNat).hoop x.hoop).snap = none := by
    have firing : ((s.report 0x4012 (fireIid x.hoop)).hoop x.hoop).firing = some f := by
      rw [hoop_of_eng (report_eng _ _ _), hf]
    rw [effect, hoop_killFiring 0x4012 firing]
    rfl
  have issues : exec (.tokCredit x ch n) s = s.done (s.tokCredit x.hoop ch n.toNat) :=
    congrArg s.done ((syl_of_issues hi).trans (afterSyl_left _ _ _ idle))
  refine done_completes issues ?_
  have last : (s.tokCredit x.hoop ch n.toNat).reg GLB_FAULT_LAST = faultWord 0x4012 (fireIid x.hoop) := by
    rw [effect, reg_of_regs (regs_killFiring _ _ _), report_last]
  refine (congrArg (fun w : Word => w.toNat % 65536) last).trans ?_
  rw [faultWord, BitVec.toNat_ofNat]
  omega

end Credit

end Token

end Sys2Proof.Machine
end

section
/-! The Lace commands: steps, learning, commits, loads and saves (O46). -/

namespace Sys2Proof.Machine

open Reg

theorem lace_setLace (s : State) (l : Nat) (x : Lace) : (s.setLace l x).lace l = x := spGet_spPut_same _ _ _

theorem lace_of_eng {s t : State} (h : t.eng = s.eng) (l : Nat) : t.lace l = s.lace l := by
  simp only [State.lace, h]

theorem lace_setHoop (s : State) (h : Nat) (y : Hoop) (l : Nat) : (s.setHoop h y).lace l = s.lace l := rfl

theorem hoop_setLace (s : State) (l : Nat) (x : Lace) (h : Nat) : (s.setLace l x).hoop h = s.hoop h := rfl

/-! ### Time steps (R360, R363) -/

/-- Dropped events are counted and noted in two registers. -/
theorem reg_laceDrop (s : State) (l n : Nat) {o : Nat} (hd : TE_LACE_DROPS l ≠ o) (hs : TE_LACE_STAT l ≠ o) :
    (s.laceDrop l n).reg o = s.reg o := by
  unfold State.laceDrop
  split
  · rfl
  · exact (reg_putB_ne _ _ hs).trans (reg_bump_ne _ _ hd)

theorem eng_laceDrop (s : State) (l n : Nat) : (s.laceDrop l n).eng = s.eng := by
  unfold State.laceDrop
  split <;> rfl

section Step

variable (s : State) (l : Nat) (evs : List (Nat × Nat)) (k : Nat)

/-- One step moves TNOW on by DT; it keeps DT and the hoops. -/
theorem laceOne_clock :
    (s.laceOne l evs k).1.reg (TE_LACE_TNOW l) = BitVec.ofNat 32 ((s.reg (TE_LACE_TNOW l)).toNat + (s.reg (TE_LACE_DT l)).toNat) ∧
    (s.laceOne l evs k).1.reg (TE_LACE_DT l) = s.reg (TE_LACE_DT l) := by
  unfold State.laceOne
  refine ⟨reg_setReg_same _ _ _, ?_⟩
  have apart : TE_LACE_TNOW l ≠ TE_LACE_DT l ∧ TE_LACE_DROPS l ≠ TE_LACE_DT l ∧ TE_LACE_STAT l ≠ TE_LACE_DT l := by
    simp only [TE_LACE_TNOW, TE_LACE_DT, TE_LACE_DROPS, TE_LACE_STAT]
    omega
  obtain ⟨tnow, drops, stat⟩ := apart
  exact (reg_setReg_ne _ _ tnow).trans (reg_laceDrop _ _ _ drops stat)

theorem hoop_laceOne (h : Nat) : (s.laceOne l evs k).1.hoop h = s.hoop h := by
  unfold State.laceOne
  exact (hoop_of_eng (eng_laceDrop _ _ _) h).trans (hoop_setLace _ _ _ _)

/-- The first of n + 1 steps, and the n others. -/
theorem laceRun_succ (n : Nat) : (s.laceRun l evs k (n + 1)).1 = ((s.laceOne l evs k).1.laceRun l evs (k + 1) n).1 := by
  rw [State.laceRun]

theorem tnow_laceRun (n : Nat) : (s.laceRun l evs k n).1.reg (TE_LACE_TNOW l) =
    BitVec.ofNat 32 ((s.reg (TE_LACE_TNOW l)).toNat + n * (s.reg (TE_LACE_DT l)).toNat) := by
  induction n generalizing s k with
  | zero => simp [State.laceRun]
  | succ n ih =>
    obtain ⟨tnow, dt⟩ := laceOne_clock s l evs k
    rw [laceRun_succ, ih, tnow, dt]
    apply BitVec.eq_of_toNat_eq
    rw [BitVec.toNat_ofNat, BitVec.toNat_ofNat, BitVec.toNat_ofNat, Nat.mod_add_mod, Nat.succ_mul, Nat.add_assoc,
      Nat.add_comm (s.reg (TE_LACE_DT l)).toNat]

theorem hoop_laceRun (n h : Nat) : (s.laceRun l evs k n).1.hoop h = s.hoop h := by
  induction n generalizing s k with
  | zero => rfl
  | succ n ih => rw [laceRun_succ, ih, hoop_laceOne]

end Step

section LaceStep

variable {x : Issue} {p q : Fin 64} {a : Fin 32} {e : MemErr} {r : HRegs} {s : State}
  (hi : Issues x [7] (sylWord 0x10 x (p.val * 2 ^ 16 + q.val * 2 ^ 10 + a.val * 2 ^ 5)) r s)

include hi

/-- LACE.STEP before its time has no effect. -/
theorem laceStep_waits (he : s.laceEarly (x.hoop.val - 32) (min (r.sv a).toNat 64) = true) :
    exec (.laceStep x p q a e) s = .next s := by
  obtain ⟨-, -, ho, -, hr, -, hp⟩ := hi
  have early : ((s.bundleRegs x.hoop).pv x.pred != x.pneg && s.laceEarly (x.hoop.val - 32)
      (min ((s.bundleRegs x.hoop).sv a).toNat 64) && (!x.opens || s.legal x.hoop x.bundle)) = true := by
    simp [State.bundleRegs, hr, hp, ho, he]
  exact (congrArg s.done (if_pos early)).trans (done_self s)

/-- LACE.STEP in time is issued. -/
theorem exec_laceStep (he : s.laceEarly (x.hoop.val - 32) (min (r.sv a).toNat 64) = false) : exec (.laceStep x p q a e) s =
    s.done (s.syl x [7] (sylWord 0x10 x (p.val * 2 ^ 16 + q.val * 2 ^ 10 + a.val * 2 ^ 5)) fun r s =>
      s.laceStep x.hoop (descOf (r.tdv p)) (descOf (r.tdv q)) (r.sv a) e) := by
  obtain ⟨-, -, -, -, hr, -, -⟩ := hi
  have due : ((s.bundleRegs x.hoop).pv x.pred != x.pneg && s.laceEarly (x.hoop.val - 32)
      (min ((s.bundleRegs x.hoop).sv a).toNat 64) && (!x.opens || s.legal x.hoop x.bundle)) = false := by
    simp [State.bundleRegs, hr, he]
  exact congrArg s.done (if_neg (ne_true_of_eq_false due))

theorem laceStep_unloaded (hl : s.is (TE_LACE_STAT_LOADED (x.hoop.val - 32)) = false) :
    Completes (.laceStep x p q a e) s (SameState s) := by
  have effect : s.laceStep x.hoop (descOf (r.tdv p)) (descOf (r.tdv q)) (r.sv a) e = s := by
    simp [State.laceStep, hl]
  have due : s.laceEarly (x.hoop.val - 32) (min (r.sv a).toNat 64) = false := by simp [State.laceEarly, hl]
  exact completes_sameState hi (exec_laceStep hi due) (by rw [effect]; exact midBundle_of_issues hi) effect rfl rfl

end LaceStep

/-- A step on no listed events, which writes no spikes: what the run of its steps leaves, where a drop is reported. -/
theorem laceStep_plain {s : State} {h : Nat} {di d_o : Desc} {a : Word} {e : MemErr}
    (hl : s.is (TE_LACE_STAT_LOADED (h - 32)) = true) (hw : ∀ w ∈ e.sram, w < 2 ^ 19) (hdi : di.n 0 = 0) (hdo : d_o.n 0 = 0) :
    (∀ g, (s.laceStep h di d_o a e).hoop g = s.hoop g) ∧ (s.laceStep h di d_o a e).reg (TE_LACE_TNOW (h - 32)) =
      BitVec.ofNat 32 ((s.reg (TE_LACE_TNOW (h - 32))).toNat + min a.toNat 64 * (s.reg (TE_LACE_DT (h - 32))).toNat) := by
  have inside : (e.sram.any fun w => decide (2 ^ 19 ≤ w)) = false := by simpa using hw
  have run : s.laceStep h di d_o a e = (let s2 := (s.laceRun (h - 32) [] 0 (min a.toNat 64)).1
      if (s2.lace (h - 32)).dropped then (s2.setLace (h - 32) { s2.lace (h - 32) with dropped := false }).report 0x4021 (s.cx h e).iid
      else s2) := by
    simp [State.laceStep, hl, inside, hdi, hdo, State.laceDrop, -Nat.reducePow]
  rw [run]
  dsimp only
  split
  · refine ⟨fun g => ?_, ?_⟩
    · rw [hoop_of_eng (report_eng _ _ _), hoop_setLace, hoop_laceRun]
    · have above : GLB_FAULT_COUNT < TE_LACE_TNOW (h - 32) := by
        simp only [TE_LACE_TNOW, GLB_FAULT_COUNT]
        omega
      exact (reg_report above _ _ _).trans (tnow_laceRun _ _ _ _ _)
  · exact ⟨hoop_laceRun _ _ _ _ _, tnow_laceRun _ _ _ _ _⟩

theorem laceStep_moves {x : Issue} {p q : Fin 64} {a : Fin 32} {e : MemErr} {r : HRegs} {s : State}
    (hi : Issues x [7] (sylWord 0x10 x (p.val * 2 ^ 16 + q.val * 2 ^ 10 + a.val * 2 ^ 5)) r s)
    (hl : s.is (TE_LACE_STAT_LOADED (x.hoop.val - 32)) = true)
    (he : s.laceEarly (x.hoop.val - 32) (min (r.sv a).toNat 64) = false) (hw : ∀ w ∈ e.sram, w < 2 ^ 19)
    (hdi : (descOf (r.tdv p)).n 0 = 0) (hdo : (descOf (r.tdv q)).n 0 = 0) : Completes (.laceStep x p q a e) s fun t =>
      t.reg (TE_LACE_TNOW (x.hoop.val - 32)) = BitVec.ofNat 32 ((s.reg (TE_LACE_TNOW (x.hoop.val - 32))).toNat +
        min (r.sv a).toNat 64 * (s.reg (TE_LACE_DT (x.hoop.val - 32))).toNat) := by
  obtain ⟨hoops, tnow⟩ := laceStep_plain (a := r.sv a) hl hw hdi hdo
  exact done_completes (exec_midBundle hi (exec_laceStep hi he) (by rw [hoops]; exact midBundle_of_issues hi)) tnow

/-! ### Learning (R365, R368) -/

/-- Of a network, only deltas at indices of the list have changed. -/
def DeltasAt (l : List Nat) (x y : Lace) : Prop :=
  y = { x with deltas := y.deltas } ∧
    ∀ i, i ∉ l → spGet (fun _ => ((0 : Int), (0 : Int))) y.deltas i = spGet (fun _ => (0, 0)) x.deltas i

theorem DeltasAt.refl (l : List Nat) (x : Lace) : DeltasAt l x x := ⟨rfl, fun _ _ => rfl⟩

theorem DeltasAt.trans {l m : List Nat} {x y z : Lace} (h : DeltasAt l x y) (k : DeltasAt m y z) : DeltasAt (l ++ m) x z := by
  obtain ⟨rest, others⟩ := h
  obtain ⟨rest', others'⟩ := k
  refine ⟨by rw [rest', rest], fun i hi => ?_⟩
  obtain ⟨hl, hm⟩ := not_or.1 (mt List.mem_append.2 hi)
  exact (others' i hm).trans (others i hl)

theorem deltasAt_addDelta (x : Lace) (i : Nat) (d : Int × Int) : DeltasAt [i] x (x.addDelta i d).1 := by
  unfold Lace.addDelta
  dsimp only
  split
  · exact .refl _ _
  · split
    · exact .refl _ _
    · exact ⟨rfl, fun j hj => spGet_spPut_ne _ _ fun same => hj (List.mem_singleton.2 same.symm)⟩

/-- A buffer that takes one delta for each synapse of a list. -/
theorem deltasAt_foldl {f : Lace × Nat → Nat × BitVec 16 → Lace × Nat} (hf : ∀ y p, DeltasAt [p.1] y.1 (f y p).1)
    (l : List (Nat × BitVec 16)) (y : Lace × Nat) : DeltasAt (l.map (·.1)) y.1 (l.foldl f y).1 := by
  induction l generalizing y with
  | nil => exact .refl _ _
  | cons p l ih => exact (hf y p).trans (ih _)

/-- The synapses that rule r changes. -/
def Lace.learners (x : Lace) (r : Nat) : List (Nat × BitVec 16) :=
  x.syn.filter fun p => synOn p.2 && synPlastic p.2 && (x.u (ruleAt r + 2) 2).testBit (x.classOf (synNeuron p.1))

theorem plastic_of_learners {x : Lace} {r : Nat} {p : Nat × BitVec 16} (h : p ∈ x.learners r) :
    p ∈ x.syn ∧ synPlastic p.2 = true := by
  obtain ⟨syn, learns⟩ := List.mem_filter.1 h
  simp only [Bool.and_eq_true] at learns
  obtain ⟨⟨-, plastic⟩, -⟩ := learns
  exact ⟨syn, plastic⟩

/-- LACE.LEARN leaves the Engine as it was but for deltas of the synapses that learn. -/
theorem laceLearn_deltas (s : State) (h r : Nat) (a : Word) (hl : s.is (TE_LACE_STAT_LOADED (h - 32)) = true) :
    ∃ y, (s.laceLearn h r a).eng = (s.setLace (h - 32) y).eng ∧
      DeltasAt (((s.lace (h - 32)).learners r).map (·.1)) (s.lace (h - 32)) y := by
  unfold State.laceLearn
  simp only [hl, Bool.not_true, Bool.false_eq_true, if_false]
  generalize learnt : List.foldl _ (s.lace (h - 32), 0) _ = yl
  refine ⟨yl.1, ?_, ?_⟩
  · split
    · rfl
    · exact (report_eng _ _ _).trans rfl
  · rw [← learnt]
    exact deltasAt_foldl (fun _ _ => deltasAt_addDelta _ _ _) _ _

section Learn

variable {x : Issue} {k : Fin 16} {a : Fin 32} {r : HRegs} {s : State}
  (hi : Issues x [7] (sylWord 0x11 x (k.val * 2 ^ 18 + a.val * 2 ^ 13)) r s)

include hi

theorem laceLearn_unloaded (hl : s.is (TE_LACE_STAT_LOADED (x.hoop.val - 32)) = false) :
    Completes (.laceLearn x k a) s (SameState s) := by
  have effect : s.laceLearn x.hoop k (r.sv a) = s := by simp [State.laceLearn, hl]
  exact completes_sameState hi rfl (by rw [effect]; exact midBundle_of_issues hi) effect rfl rfl

theorem laceLearn_learns (hl : s.is (TE_LACE_STAT_LOADED (x.hoop.val - 32)) = true) : Completes (.laceLearn x k a) s fun t =>
    t.lace (x.hoop.val - 32) = { s.lace (x.hoop.val - 32) with deltas := (t.lace (x.hoop.val - 32)).deltas } ∧
    ∀ i, (∀ w, (i, w) ∈ (s.lace (x.hoop.val - 32)).syn → synPlastic w = false) →
      spGet (fun _ => ((0 : Int), (0 : Int))) (t.lace (x.hoop.val - 32)).deltas i =
        spGet (fun _ => (0, 0)) (s.lace (x.hoop.val - 32)).deltas i := by
  obtain ⟨y, eng, rest, others⟩ := laceLearn_deltas s x.hoop k (r.sv a) hl
  have hm : MidBundle ((s.laceLearn x.hoop k (r.sv a)).hoop x.hoop) := by
    rw [hoop_of_eng eng, hoop_setLace]
    exact midBundle_of_issues hi
  refine completes_of_eng (exec_midBundle hi rfl hm) fun t ht => ?_
  rw [lace_of_eng ht, lace_setHoop, lace_of_eng eng, lace_setLace]
  refine ⟨rest, fun i hi => others i fun learns => ?_⟩
  obtain ⟨⟨j, w⟩, there, rfl⟩ := List.mem_map.1 learns
  obtain ⟨syn, plastic⟩ := plastic_of_learners there
  exact absurd (hi w syn) (by rw [plastic]; decide)

end Learn

/-! ### Commits (R369, R370) -/

theorem complete_reg (s : State) (c : TkCmd) (a b o : Nat) : (s.complete c a b).reg o = s.reg o := rfl

/-- What an armed action leaves of the Engine, and the count of commits. -/
theorem laceApply_armed {s : State} {l act req : Nat} {csn : BitVec 16} (ha : (s.lace l).armed = some (act, req, csn)) :
    ∃ m, (s.laceApply l).eng = (s.setLace l { s.lace l with syn := m, deltas := [], armed := none }).eng ∧
      (act ≠ 0 → m = (s.lace l).syn) ∧
      (s.laceApply l).reg (TE_LACE_GEN l) = s.reg (TE_LACE_GEN l) + if act = 0 then 1 else 0 := by
  have apart : (TE_LACE_STAT_COMMIT_ARMED l).off ≠ TE_LACE_GEN l := by
    simp only [TE_LACE_STAT_COMMIT_ARMED, TE_LACE_STAT, TE_LACE_GEN]
    omega
  have disarms (x : Lace) : ((s.setLace l x).putB (TE_LACE_STAT_COMMIT_ARMED l) false).reg (TE_LACE_GEN l) = s.reg (TE_LACE_GEN l) :=
    reg_putB_ne (s.setLace l x) _ apart
  unfold State.laceApply
  simp only [ha]
  by_cases h0 : act = 0
  · simp only [h0, if_true]
    split
    · exact ⟨_, complete_eng _ _ _ _, fun h => absurd rfl h, by rw [complete_reg, reg_setReg_same, disarms]⟩
    · exact ⟨_, rfl, fun h => absurd rfl h, by rw [reg_setReg_same, disarms]⟩
  · have same : s.reg (TE_LACE_GEN l) = s.reg (TE_LACE_GEN l) + 0 := (BitVec.add_zero _).symm
    simp only [h0, if_false]
    split
    · exact ⟨_, complete_eng _ _ _ _, fun _ => rfl, (complete_reg _ _ _ _ _).trans ((disarms _).trans same)⟩
    · exact ⟨_, rfl, fun _ => rfl, (disarms _).trans same⟩

/-- An armed action with code `act` has ended: its deltas are gone, and APPLY alone changes weights and counts. -/
def LaceApplied (l act : Nat) (s t : State) : Prop :=
  (t.lace l).deltas = [] ∧ (t.lace l).armed = none ∧
    t.reg (TE_LACE_GEN l) = s.reg (TE_LACE_GEN l) + (if act = 0 then 1 else 0) ∧ (act ≠ 0 → (t.lace l).syn = (s.lace l).syn)

theorem laceApplied_of_laceApply {s t : State} {l act req : Nat} {csn : BitVec 16} (ha : (s.lace l).armed = some (act, req, csn))
    (eng : t.lace l = (s.laceApply l).lace l) (gen : t.reg (TE_LACE_GEN l) = (s.laceApply l).reg (TE_LACE_GEN l)) :
    LaceApplied l act s t := by
  obtain ⟨m, applied, syn, count⟩ := laceApply_armed ha
  rw [LaceApplied, eng, gen, lace_of_eng applied, lace_setLace]
  exact ⟨rfl, rfl, count, syn⟩

theorem laceCommitApply_applies {m : Fin 4} {act req : Nat} {csn : BitVec 16} {s : State}
    (ha : (s.lace m).armed = some (act, req, csn)) (hm : s.laceIdle m = true) : Completes (.laceCommitApply m) s (LaceApplied m act s) := by
  have applies : exec (.laceCommitApply m) s = s.done (s.laceApply m) := congrArg s.done (if_pos hm)
  exact done_completes applies (laceApplied_of_laceApply ha rfl rfl)

theorem laceCommitSyllable_applies {x : Issue} {m : Fin 4} {act req : Nat} {csn : BitVec 16} {r : HRegs} {s : State}
    (ha : (s.lace m).armed = some (act, req, csn)) (hx : x.hoop.val = 32 + m.val) (hi : Issues x [7] (sylWord 0x12 x 0) r s) :
    Completes (.laceCommitSyllable x) s (LaceApplied m act s) := by
  have this : x.hoop.val - 32 = m.val := by omega
  have hm : MidBundle ((s.laceApply (x.hoop.val - 32)).hoop x.hoop) := by
    obtain ⟨_, eng, -⟩ := laceApply_armed ha
    rw [this, hoop_of_eng eng, hoop_setLace]
    exact midBundle_of_issues hi
  refine done_completes (exec_midBundle (f := fun _ s => s.laceApply (x.hoop.val - 32)) hi rfl hm) ?_
  rw [this]
  exact laceApplied_of_laceApply ha (lace_setHoop _ _ _ _) rfl

/-! ### Requests to load and to save (R357, R373) -/

theorem is_ite {c : Prop} [Decidable c] {s t : State} {f : Fld} {v : Bool} (hs : s.is f = v) (ht : t.is f = v) :
    (if c then s else t).is f = v := by
  split
  · exact hs
  · exact ht

/-- Only register `o` has changed. -/
def OnlyReg (o : Nat) (s t : State) : Prop := OnlyRegs s t ∧ RegsKept [o] s t

theorem OnlyReg.refl (o : Nat) (s : State) : OnlyReg o s s := ⟨.refl s, fun _ _ => rfl⟩

theorem OnlyReg.put {o : Nat} {s t : State} (h : OnlyReg o s t) {f : Fld} (v : Nat) (hf : f.off = o) : OnlyReg o s (t.put f v) := by
  obtain ⟨only, kept⟩ := h
  exact ⟨only.setReg _ _, kept.trans (regsKept_put t v hf)⟩

theorem OnlyReg.putB {o : Nat} {s t : State} (h : OnlyReg o s t) {f : Fld} (b : Bool) (hf : f.off = o) : OnlyReg o s (t.putB f b) :=
  h.put _ hf

theorem OnlyReg.ite {o : Nat} {c : Prop} [Decidable c] {s t u : State} (h : OnlyReg o s t) (k : OnlyReg o s u) :
    OnlyReg o s (if c then t else u) := by
  split
  · exact h
  · exact k

/-- A write to TE_LACE_CTL, but for MODE and TENANT. -/
def State.laceRequest (s : State) (l : Nat) (v : Word) : State :=
  let s1 := s.putB (TE_LACE_CTL_EN l) (v.getLsbD 0)
  let s2 := if v.getLsbD 2 then s1.putB (TE_LACE_CTL_LOAD l) true else s1
  if v.getLsbD 3 then s2.putB (TE_LACE_CTL_SAVE l) true else s2

/-- Two bits of a register. -/
theorem is_putB_bit (s : State) (o : Nat) {i j : Nat} (b : Bool) (hi : i < 32) (h : i ≠ j) :
    (s.putB ⟨o, i, 1⟩ b).is ⟨o, j, 1⟩ = s.is ⟨o, j, 1⟩ :=
  is_putB_ne s _ _ b hi (.inr (by dsimp only; omega))

section Ctl

variable (s : State) (iid l : Nat) (v : Word)

theorem onlyReg_laceRequest : OnlyReg (TE_LACE_CTL l) s (s.laceRequest l v) := by
  have en := (OnlyReg.refl (TE_LACE_CTL l) s).putB (f := TE_LACE_CTL_EN l) (v.getLsbD 0) rfl
  have load := OnlyReg.ite (c := v.getLsbD 2) (en.putB (f := TE_LACE_CTL_LOAD l) true rfl) en
  exact OnlyReg.ite (load.putB (f := TE_LACE_CTL_SAVE l) true rfl) load

theorem onlyReg_laceCtl : OnlyReg (TE_LACE_CTL l) s (s.laceCtl iid l v) := by
  have mode := OnlyReg.ite (c := (s.is (TE_LACE_STAT_LOADED l) && !s.laceIdle l) = true) (onlyReg_laceRequest s l v)
    ((onlyReg_laceRequest s l v).putB (f := TE_LACE_CTL_MODE l) (v.getLsbD 1) rfl)
  exact OnlyReg.ite mode (mode.put (f := TE_LACE_CTL_TENANT l) (bitsOf v.toNat 4 3) rfl)

/-- MODE and TENANT are bits 1 and 6:4. -/
theorem is_laceCtl {k : Nat} (hm : 1 ≠ k) (ht : k < 4) :
    (s.laceCtl iid l v).is ⟨TE_LACE_CTL l, k, 1⟩ = (s.laceRequest l v).is ⟨TE_LACE_CTL l, k, 1⟩ := by
  have mode := is_ite (c := (s.is (TE_LACE_STAT_LOADED l) && !s.laceIdle l) = true) rfl
    (is_putB_bit (s.laceRequest l v) (TE_LACE_CTL l) (v.getLsbD 1) (by decide) hm)
  exact is_ite mode ((is_put_ne _ ⟨TE_LACE_CTL l, 4, 3⟩ ⟨TE_LACE_CTL l, k, 1⟩ _ (by decide : 4 + 3 ≤ 32) (.inr (.inr ht))).trans mode)

theorem en_laceRequest : (s.laceRequest l v).is (TE_LACE_CTL_EN l) = v.getLsbD 0 := by
  have en := is_putB s ⟨TE_LACE_CTL l, 0, 1⟩ (v.getLsbD 0) (by decide : 0 + 1 ≤ 32) rfl
  have load := is_ite (c := v.getLsbD 2) ((is_putB_bit _ (TE_LACE_CTL l) (i := 2) true (by decide) (by decide)).trans en) en
  exact is_ite ((is_putB_bit _ (TE_LACE_CTL l) true (by decide) (by decide)).trans load) load

theorem load_laceRequest (h : v.getLsbD 2 = true) : (s.laceRequest l v).is (TE_LACE_CTL_LOAD l) = true := by
  have load := is_putB (s.putB (TE_LACE_CTL_EN l) (v.getLsbD 0)) ⟨TE_LACE_CTL l, 2, 1⟩ true (by decide : 2 + 1 ≤ 32) rfl
  simp only [State.laceRequest, h, if_true]
  exact is_ite ((is_putB_bit _ (TE_LACE_CTL l) true (by decide) (by decide)).trans load) load

theorem save_laceRequest (h : v.getLsbD 3 = true) : (s.laceRequest l v).is (TE_LACE_CTL_SAVE l) = true := by
  simp only [State.laceRequest, h, if_true]
  exact is_putB _ ⟨TE_LACE_CTL l, 3, 1⟩ true (by decide : 3 + 1 ≤ 32) rfl

end Ctl

/-- A write that requests a load or a save. -/
theorem completes_laceCtl {i : Instr} {iid : Iid} {l : Fin 4} {v : Word} {s : State} {k : Nat}
    (he : exec i s = s.done (s.writeWith iid (TE_LACE_CTL l) fun s => s.laceCtl iid.toNat l v))
    (hw : s.writeOk iid (TE_LACE_CTL l) = true) (hm : 1 ≠ k) (hk : k < 4)
    (hr : (s.laceRequest l v).is ⟨TE_LACE_CTL l, k, 1⟩ = true) : Completes i s fun t => OnlyRegs s t ∧
      t.is ⟨TE_LACE_CTL l, k, 1⟩ = true ∧ t.is (TE_LACE_CTL_EN l) = v.getLsbD 0 ∧ RegsKept [TE_LACE_CTL l] s t := by
  obtain ⟨only, kept⟩ := onlyReg_laceCtl s iid.toNat l v
  rw [writeWith_ok hw] at he
  exact completes_of_onlyRegs he only ⟨only, (is_laceCtl s iid.toNat l v hm hk).trans hr,
    (is_laceCtl s iid.toNat l v (k := 0) (by decide) (by decide)).trans (en_laceRequest s l v), kept⟩

/-- A command completes with what its effect leaves of the Engine and of the registers. -/
theorem completes_of_eng_regs {i : Instr} {s t : State} {p : State → Prop} (h : exec i s = s.done t)
    (hp : ∀ u, u.eng = t.eng → u.regs = t.regs → p u) : Completes i s p := ⟨_, h, hp _ rfl rfl⟩

/-! ### Loads and saves of networks (R357, R373) -/

/-- A save ends with its request gone and the network kept. -/
theorem saved {l : Nat} {s t : State} (h : OnlyAccessed s t) :
    (t.putB (TE_LACE_CTL_SAVE l) false).is (TE_LACE_CTL_SAVE l) = false ∧
      (t.putB (TE_LACE_CTL_SAVE l) false).lace l = s.lace l :=
  ⟨is_putB t ⟨TE_LACE_CTL l, 3, 1⟩ false (by decide : 3 + 1 ≤ 32) rfl, h.lace l⟩

/-- The end of a load whose outcome is `good`. -/
def State.loadEnd (s : State) (l : Nat) (good : Bool) : State :=
  (if good then s else s.putB (TE_LACE_STAT_LOAD_ERR l) true).putB (TE_LACE_CTL_LOAD l) false

theorem lace_loadEnd (s : State) (l : Nat) (good : Bool) : (s.loadEnd l good).lace l = s.lace l := by
  cases good <;> rfl

/-- TE_LACE_STAT, TE_LACE_CTL and TE_LACE_GEN are three registers. -/
theorem laceRegs_apart (l : Nat) :
    TE_LACE_CTL l ≠ TE_LACE_STAT l ∧ TE_LACE_CTL l ≠ TE_LACE_GEN l ∧ TE_LACE_STAT l ≠ TE_LACE_GEN l := by
  simp only [TE_LACE_STAT, TE_LACE_CTL, TE_LACE_GEN]
  omega

theorem loadEnd_says {s : State} {l : Nat} {good : Bool} (hg : s.reg (TE_LACE_GEN l) = 0)
    (hl : s.is (TE_LACE_STAT_LOADED l) = good) : (s.loadEnd l good).is (TE_LACE_CTL_LOAD l) = false ∧
      (s.loadEnd l good).reg (TE_LACE_GEN l) = 0 ∧
      ((s.loadEnd l good).is (TE_LACE_STAT_LOADED l) = true ∨ (s.loadEnd l good).is (TE_LACE_STAT_LOAD_ERR l) = true) := by
  obtain ⟨ctlStat, ctlGen, statGen⟩ := laceRegs_apart l
  refine ⟨is_putB _ ⟨TE_LACE_CTL l, 2, 1⟩ false (by decide : 2 + 1 ≤ 32) rfl, ?_, ?_⟩
  · refine (reg_putB_ne _ _ ctlGen).trans ?_
    cases good with
    | true => exact hg
    | false => exact (reg_putB_ne _ _ statGen).trans hg
  · cases good with
    | true => exact .inl ((is_congr (reg_putB_ne _ _ ctlStat)).trans hl)
    | false =>
      have noted := is_putB s ⟨TE_LACE_STAT l, 8, 1⟩ true (by decide : 8 + 1 ≤ 32) rfl
      exact .inr ((is_congr (reg_putB_ne _ _ ctlStat)).trans noted)

section Run

variable {l : Fin 4} {s : State} (hi : s.laceIdle l = true) (ha : (s.lace l).armed = none)

include ha in
/-- Where nothing is armed, no action takes effect. -/
theorem laceApply_unarmed : s.laceApply l = s := by
  simp only [State.laceApply, ha]

include hi ha

theorem laceSaveRun_ends (hs : s.is (TE_LACE_CTL_SAVE l) = true) : Completes (.laceSaveRun l) s fun t =>
    t.is (TE_LACE_CTL_SAVE l) = false ∧ t.lace l = s.lace l := by
  have runs : (!s.is (TE_LACE_CTL_SAVE l) || !s.laceIdle l) = false := by
    rw [hs, hi]
    rfl
  refine completes_of_eng_regs (t := s.laceSaveRun l) rfl fun u eng regs => ?_
  rw [is_congr (reg_of_regs regs _), lace_of_eng eng, State.laceSaveRun, if_neg (ne_true_of_eq_false runs), laceApply_unarmed ha]
  extract_lets s' x t va done
  generalize ((List.range 4194304).flatMap fun i => leBytes 2 (x.sy i).toNat) = syn
  have wrote := onlyAccessed_tenantWrite s (laceIid l) t (va + 69632) syn {}
  split
  next s1 w hw =>
  rw [hw] at wrote
  split
  · exact saved wrote
  · have read := onlyAccessed_tenantRead s1 (laceIid l) t (va + 64) (laceImage - 64) {}
    split
    next s2 r hr =>
    rw [hr] at read
    split
    · exact saved (wrote.trans read)
    · exact saved ((wrote.trans read).trans (onlyAccessed_tenantWrite s2 _ _ _ _ _))

theorem laceLoadRun_ends (hl : s.is (TE_LACE_CTL_LOAD l) = true) : Completes (.laceLoadRun l) s fun t =>
    t.is (TE_LACE_CTL_LOAD l) = false ∧ t.reg (TE_LACE_GEN l) = 0 ∧
    (t.is (TE_LACE_STAT_LOADED l) = true ∨ t.is (TE_LACE_STAT_LOAD_ERR l) = true) ∧
    (t.lace l).v = [] ∧ (t.lace l).deltas = [] := by
  have runs : (!s.is (TE_LACE_CTL_LOAD l) || !s.laceIdle l) = false := by
    rw [hl, hi]
    rfl
  refine completes_of_eng_regs (t := s.laceLoadRun l) rfl fun u eng regs => ?_
  rw [is_congr (reg_of_regs regs _), is_congr (reg_of_regs regs _), is_congr (reg_of_regs regs _), reg_of_regs regs, lace_of_eng eng,
    State.laceLoadRun, if_neg (ne_true_of_eq_false runs), laceApply_unarmed ha]
  extract_lets s'
  split
  next s1 r hr =>
  extract_lets good x base s2 s3
  have fresh : base.v = [] ∧ base.deltas = [] := by
    dsimp only [base]
    split <;> exact ⟨rfl, rfl⟩
  obtain ⟨-, -, statGen⟩ := laceRegs_apart l
  have gen : s3.reg (TE_LACE_GEN l) = 0 := (reg_putB_ne _ _ statGen).trans (reg_setReg_same _ _ _)
  have loaded : s3.is (TE_LACE_STAT_LOADED l) = good := is_putB _ ⟨TE_LACE_STAT l, 0, 1⟩ good (by decide : 0 + 1 ≤ 32) rfl
  have network : s3.lace l = { base with queue := x.queue, dropped := x.dropped } := lace_setLace _ _ _
  obtain ⟨request, count, outcome⟩ := loadEnd_says gen loaded
  obtain ⟨v, deltas⟩ := fresh
  refine ⟨request, count, outcome, ?_⟩
  rw [← State.loadEnd, lace_loadEnd, network]
  exact ⟨v, deltas⟩

end Run


/-- Settles O46: each syllable and each command has the effect of its own operation, which leaves the queue, the start-up state and
what the statement compares. -/
theorem syncTokenAndLaceSyllables : Obligations.SyncTokenAndLaceSyllables := by
  unfold Obligations.SyncTokenAndLaceSyllables
  refine ⟨fun x lh c r s hi => ⟨syncSig_counts hi, syncSig_discarded hi⟩, fun x c v r s => syncWait_takes,
    fun x td ch i e f p c r s u hf hc => ⟨tokRecv_copies hf hc, tokSend_copies hf hc, fun n g k hi hp hg hk =>
      ⟨tokCredit_returns hf hi hp hg hk, tokCredit_exceeds hf hi hp⟩⟩,
    fun x p q a e r s hi => ⟨laceStep_unloaded hi, laceStep_waits hi,
      fun hl he hw hdi hdo _ => laceStep_moves hi hl he hw hdi hdo⟩,
    fun x k a r s hi => ⟨laceLearn_unloaded hi, laceLearn_learns hi⟩, fun c x m act req csn r s ha run => ?_,
    fun iid l v s hw => ⟨fun h => completes_laceCtl (k := 2) rfl hw (by decide) (by decide) (load_laceRequest s l v h),
      fun h => completes_laceCtl (k := 3) rfl hw (by decide) (by decide) (save_laceRequest s l v h)⟩,
    fun l s hi ha => ⟨laceLoadRun_ends hi ha, laceSaveRun_ends hi ha⟩⟩
  rcases run with ⟨rfl, hm⟩ | ⟨rfl, hx, hi⟩
  · exact laceCommitApply_applies ha hm
  · exact laceCommitSyllable_applies ha hx hi

end Sys2Proof.Machine
end

section
/-! What messages that leave change, and that they are kept until they are acknowledged (R562-R568). -/

namespace Sys2Proof.Machine

open Reg

/-! ### The ports -/

theorem svPort_setSvPort (s : State) (p q : Nat) (x : SvPort) : (s.setSvPort p x).svPort q = if p = q then x else s.svPort q :=
  spGet_spPut _ _ _ _

theorem start_of_not_stale {m : SvMsg} (h : m.stale = false) (now : Nat) : m.start now = m := by
  cases m with
  | time => cases h
  | _ => rfl

/-- A port holds a message to device d: it waits to be sent, or for its acknowledgement. -/
def SvPort.Holds (x : SvPort) (d : Nat) (m : SvMsg) : Prop :=
  ∃ t : SvTx, t.msg = m ∧ t.dst = d ∧ (t ∈ x.queue ∨ t ∈ x.unacked)

theorem sends_iff {d : Nat} {m : SvMsg} {s : State} : Sends d m s ↔ ∃ q : Fin 2, (s.svPort q).Holds d m := Iff.rfl

theorem Sends.of_sv {s t : State} {d : Nat} {m : SvMsg} (h : Sends d m s) (e : t.sv = s.sv) : Sends d m t := by
  simpa only [sends_iff, State.svPort, e] using h

/-- Starting what can start loses no message, and leaves what has been received (R564). -/
theorem svStart_holds {d : Nat} {m : SvMsg} (hm : m.stale = false) (now : Nat) (l : List SvTx) (x : SvPort) (held : List Nat)
    (h : SvPort.Holds { x with queue := l } d m) : (svStart now x held l).1.Holds d m := by
  induction l generalizing x held with
  | nil => exact h
  | cons a r ih =>
    obtain ⟨t, msg, dst, place⟩ := h
    unfold svStart
    dsimp only
    split
    · rcases place with place | sent
      · rcases List.mem_cons.1 place with rfl | later
        · exact ⟨t, msg, dst, .inl List.mem_cons_self⟩
        · obtain ⟨t', msg', dst', place'⟩ := ih x (a.msg.cls :: held) ⟨t, msg, dst, .inl later⟩
          exact ⟨t', msg', dst', place'.imp_left (List.mem_cons_of_mem a)⟩
      · obtain ⟨t', msg', dst', place'⟩ := ih x (a.msg.cls :: held) ⟨t, msg, dst, .inr sent⟩
        exact ⟨t', msg', dst', place'.imp_left (List.mem_cons_of_mem a)⟩
    · refine ih _ held ?_
      rcases place with place | sent
      · rcases List.mem_cons.1 place with rfl | later
        · exact ⟨{ t with lseq := x.lseq, msg := t.msg.start now }, (start_of_not_stale (msg ▸ hm) now).trans msg, dst,
            .inr (List.mem_append_right _ (List.mem_singleton.2 rfl))⟩
        · exact ⟨t, msg, dst, .inl later⟩
      · exact ⟨t, msg, dst, .inr (List.mem_append_left _ sent)⟩

theorem svStart_rxLseq (now : Nat) (l : List SvTx) (x : SvPort) (held : List Nat) :
    (svStart now x held l).1.rxLseq = x.rxLseq := by
  induction l generalizing x held with
  | nil => rfl
  | cons a r ih =>
    unfold svStart
    dsimp only
    split
    · exact ih _ _
    · exact ih _ _

theorem get_of_regs {s t : State} (h : t.regs = s.regs) (f : Fld) : t.get f = s.get f := get_congr (reg_of_regs h f.off)

/-! ### What a message that leaves changes -/

/-- `t` differs from `s` only in what sending messages that do not go stale touches: the ports, the E2E numbers and what has left. What
had been received is as it was, and what the ports held they still hold. -/
structure OnlyQueued (s t : State) : Prop where
  rest : t = { s with sv := { s.sv with ports := t.sv.ports, tx := t.sv.tx }, outbox := t.outbox }
  rxLseq : ∀ p, (t.svPort p).rxLseq = (s.svPort p).rxLseq
  kept : ∀ {d : Nat} {m : SvMsg}, m.stale = false → Sends d m s → Sends d m t

namespace OnlyQueued

variable {s t u : State}

theorem refl (s : State) : OnlyQueued s s := ⟨rfl, fun _ => rfl, fun _ h => h⟩

theorem trans (h : OnlyQueued s t) (k : OnlyQueued t u) : OnlyQueued s u :=
  ⟨by rw [k.rest, h.rest], fun p => (k.rxLseq p).trans (h.rxLseq p), fun hm m => k.kept hm (h.kept hm m)⟩

theorem regs (h : OnlyQueued s t) : t.regs = s.regs := (congrArg State.regs h.rest :)
theorem mem (h : OnlyQueued s t) : t.mem = s.mem := (congrArg State.mem h.rest :)
theorem pool (h : OnlyQueued s t) : t.pool = s.pool := (congrArg State.pool h.rest :)
theorem sk (h : OnlyQueued s t) : t.sk = s.sk := (congrArg State.sk h.rest :)
theorem full (h : OnlyQueued s t) : t.sv.full = s.sv.full := (congrArg (·.sv.full) h.rest :)

/-- New contents of a port that hold what it held. -/
theorem setPort {p : Nat} {x : SvPort} (hr : x.rxLseq = (s.svPort p).rxLseq)
    (hx : ∀ {d m}, m.stale = false → (s.svPort p).Holds d m → x.Holds d m) : OnlyQueued s (s.setSvPort p x) where
  rest := rfl
  rxLseq q := by
    rw [svPort_setSvPort]
    split
    · next e => rw [hr, e]
    · rfl
  kept hm h := by
    obtain ⟨q, held⟩ := h
    refine ⟨q, ?_⟩
    rw [svPort_setSvPort]
    split
    · next e => exact hx hm (e ▸ held)
    · exact held

theorem emits (h : OnlyQueued s t) (f : SvTx → Out) (l : List SvTx) : OnlyQueued s (l.foldl (fun s m => s.emit (f m)) t) := by
  induction l generalizing t with
  | nil => exact h
  | cons a r ih => exact ih (h.trans ⟨rfl, fun _ => rfl, fun _ h => h⟩)

end OnlyQueued

theorem onlyQueued_svPump (s : State) (p : Nat) : OnlyQueued s (s.svPump p) := by
  unfold State.svPump
  dsimp only
  split
  · exact .refl s
  · exact (OnlyQueued.setPort (svStart_rxLseq _ _ _ _) fun hm h => svStart_holds hm _ _ _ _ h).emits _ _

theorem onlyQueued_append (s : State) (p : Nat) (m : SvTx) :
    OnlyQueued s (s.setSvPort p { s.svPort p with queue := (s.svPort p).queue ++ [m] }) :=
  OnlyQueued.setPort rfl fun _ ⟨t, msg, dst, place⟩ => ⟨t, msg, dst, place.imp_left (List.mem_append_left _)⟩

/-- A message that does not go stale is queued whatever the lock (R568). -/
theorem svQueue_of_not_stale (s : State) (p : Nat) {m : SvTx} (h : m.msg.stale = false) :
    s.svQueue p m = (s.setSvPort p { s.svPort p with queue := (s.svPort p).queue ++ [m] }).svPump p := by
  simp [State.svQueue, h]

theorem onlyQueued_svQueue (s : State) (p : Nat) {m : SvTx} (h : m.msg.stale = false) : OnlyQueued s (s.svQueue p m) := by
  rw [svQueue_of_not_stale s p h]
  exact (onlyQueued_append s p m).trans (onlyQueued_svPump _ p)

theorem sends_svQueue (s : State) {p : Nat} (hp : p < 2) (m : SvTx) (h : m.msg.stale = false) :
    Sends m.dst m.msg (s.svQueue p m) := by
  rw [svQueue_of_not_stale s p h]
  refine (onlyQueued_svPump _ p).kept h ⟨⟨p, hp⟩, m, rfl, rfl, .inl ?_⟩
  rw [svPort_setSvPort, if_pos rfl]
  exact List.mem_append_right _ (List.mem_singleton.2 rfl)

theorem onlyQueued_svE2e (s : State) (key : Nat) : OnlyQueued s (s.svE2e key).1 := ⟨rfl, fun _ => rfl, fun _ h => h⟩

/-! ### Messages to a device, and to the neighbour (R571) -/

theorem svRoute_lt (s : State) (d : Nat) : s.svRoute d < 2 := by
  unfold State.svRoute
  dsimp only
  split <;> split <;> omega

theorem onlyQueued_svSend (s : State) (d : Nat) {m : SvMsg} (h : m.stale = false) : OnlyQueued s (s.svSend d m) :=
  (onlyQueued_svE2e s _).trans (onlyQueued_svQueue _ _ h)

theorem sends_svSend (s : State) (d : Nat) {m : SvMsg} (h : m.stale = false) : Sends d m (s.svSend d m) :=
  sends_svQueue _ (svRoute_lt _ _) { msg := m, src := _, dst := d, e2e := _ } h

theorem onlyQueued_svNeighbour (s : State) (p : Nat) {m : SvMsg} (h : m.stale = false) : OnlyQueued s (s.svNeighbour p m) :=
  (onlyQueued_svE2e s _).trans (onlyQueued_svQueue _ _ h)

theorem sends_svNeighbour (s : State) {m : SvMsg} (h : m.stale = false) :
    Sends ((s.svDev + 1) % s.svMembers) m (s.svNeighbour 0 m) :=
  sends_svQueue _ (p := 0) (by decide) { msg := m, src := _, dst := (s.svDev + 1) % s.svMembers, e2e := _ } h

end Sys2Proof.Machine
end

section
/-! Registers that no access to memory touches: those below the memories' blocks, and the configuration of the Selvedge. -/

namespace Sys2Proof.Machine

open Reg

/-- No access to memory writes the register: it lies between the fault registers and the ATU's block, or before the registers of the
Selvedge's ports. -/
abbrev OffMemory (o : Nat) : Prop := GLB_FAULT_COUNT < o ∧ o < 0x800000 ∨ 0xD00000 ≤ o ∧ o < 0xD00100

/-- Every such register reads in `t` as it does in `s`. -/
def OffMemoryKept (s t : State) : Prop := ∀ o, OffMemory o → t.reg o = s.reg o

namespace OffMemoryKept

variable {s t u : State}

theorem refl (s : State) : OffMemoryKept s s := fun _ _ => rfl

theorem trans (h : OffMemoryKept s t) (k : OffMemoryKept t u) : OffMemoryKept s u := fun o ho => (k o ho).trans (h o ho)

theorem of_regs (h : t.regs = s.regs) : OffMemoryKept s t := fun o _ => reg_of_regs h o

theorem get (h : OffMemoryKept s t) {f : Fld} (hf : OffMemory f.off) : t.get f = s.get f := get_congr (h _ hf)

theorem setReg (h : OffMemoryKept s t) {o : Nat} (v : Word) (ho : ¬ OffMemory o) : OffMemoryKept s (t.setReg o v) :=
  h.trans fun _ hq => reg_setReg_ne t v fun e => ho (e ▸ hq)

theorem bump (h : OffMemoryKept s t) {f : Fld} (n : Nat) (hf : ¬ OffMemory f.off) : OffMemoryKept s (t.bump f n) := h.setReg _ hf

theorem putB (h : OffMemoryKept s t) {f : Fld} (b : Bool) (hf : ¬ OffMemory f.off) : OffMemoryKept s (t.putB f b) := h.setReg _ hf

theorem report (h : OffMemoryKept s t) (c i : Nat) : OffMemoryKept s (t.report c i) :=
  h.trans fun o ho => reg_report (by simp only [OffMemory, GLB_FAULT_COUNT] at *; omega) t c i

theorem foldl {α : Type} {f : State → α → State} (hf : ∀ s a, OffMemoryKept s (f s a)) (h : OffMemoryKept s t) (l : List α) :
    OffMemoryKept s (l.foldl f t) := by
  induction l generalizing t with
  | nil => exact h
  | cons a r ih => exact ih (h.trans (hf t a))

end OffMemoryKept

theorem not_offMemory {o : Nat} (low : 0x800000 ≤ o) (high : o < 0xD00000 ∨ 0xD00100 ≤ o) : ¬ OffMemory o := by
  simp only [OffMemory]
  omega

/-! ### Reads (R426-R432) -/

theorem offMemory_dpaRefuse (s : State) (c i : Nat) : OffMemoryKept s (s.dpaRefuse c i) := by
  have told := (OffMemoryKept.refl s).report c i
  unfold State.dpaRefuse
  dsimp only
  split
  · exact told.bump _ (by decide)
  · exact told.bump _ (by decide)

theorem offMemory_reelTouch (s : State) (l : Nat) (wr : Bool) : OffMemoryKept s (s.reelTouch l wr) := by
  unfold State.reelTouch
  dsimp only
  split
  · exact .of_regs rfl
  · split
    · split <;> exact .of_regs rfl
    · exact OffMemoryKept.bump (.of_regs rfl) _ (by decide)

theorem offMemory_reelSpan (s : State) (a n : Nat) (wr : Bool) : OffMemoryKept s (s.reelSpan a n wr) := by
  unfold State.reelSpan
  split
  · refine OffMemoryKept.foldl (fun s i => offMemory_reelTouch s _ wr) ?_ _
    split
    · exact (OffMemoryKept.refl s).putB false (by decide)
    · exact .refl s
  · exact .refl s

theorem bobbinOf_lt (a : Nat) : bobbinOf a < 4 := Nat.xor_lt_two_pow (n := 2) (bitsOf_lt _ _ _) (bitsOf_lt _ _ _)

theorem offMemory_eccUe (s : State) (i l : Nat) : OffMemoryKept s (s.eccUe i l) := by
  have few := bobbinOf_lt (l * 64)
  unfold State.eccUe
  split
  · exact ((OffMemoryKept.refl s).bump _ (by decide)).report _ _
  · refine OffMemoryKept.report (OffMemoryKept.setReg (OffMemoryKept.setReg (OffMemoryKept.bump (.refl s) _ ?_) _ ?_) _ ?_) _ _
    · exact not_offMemory (by simp only [whole, MEM_ECC_UE]; omega) (by simp only [whole, MEM_ECC_UE]; omega)
    · exact not_offMemory (by simp only [MEM_ECC_ADDR_LO]; omega) (by simp only [MEM_ECC_ADDR_LO]; omega)
    · exact not_offMemory (by simp only [MEM_ECC_ADDR_LO]; omega) (by simp only [MEM_ECC_ADDR_LO]; omega)

theorem offMemory_recover (s : State) (i l : Nat) (e : MemErr) : OffMemoryKept s (s.recover i l e).1 := by
  have told (c : Nat) : OffMemoryKept s (s.report c i) := (OffMemoryKept.refl s).report c i
  unfold State.recover State.recoverBy
  split
  · dsimp only
    split
    · split
      · exact told _
      · exact (OffMemoryKept.refl s).bump _ (by decide)
    · split
      · split
        · exact told _
        · exact .refl s
      · exact .refl s
  · exact .refl s

theorem offMemory_poisonLines (s : State) (l n : Nat) : OffMemoryKept s (s.poisonLines l n) := by
  induction n generalizing s l with
  | zero => exact .refl s
  | succ n ih => exact ih (s.setPoison l true) (l + 1)

theorem offMemory_lineRead (s : State) (i l : Nat) (e : MemErr) : OffMemoryKept s (s.lineRead i l e).1 := by
  have few := bobbinOf_lt (l * 64)
  have tried := (offMemory_eccUe s i l).trans (offMemory_recover _ i l e)
  unfold State.lineRead
  dsimp only
  split
  · exact .refl s
  · split
    · split
      · dsimp only
        exact tried.trans (offMemory_poisonLines _ _ _)
      · exact tried
    · split
      · split
        · exact (OffMemoryKept.refl s).bump _ (by decide)
        · exact (OffMemoryKept.refl s).bump _
            (not_offMemory (by simp only [whole, MEM_ECC_CE]; omega) (by simp only [whole, MEM_ECC_CE]; omega))
      · exact .refl s

theorem offMemory_linesRead (s : State) (i l : Nat) (e : MemErr) (n : Nat) : OffMemoryKept s (s.linesRead i l e n).1 := by
  induction n generalizing s l with
  | zero => exact .refl s
  | succ n ih => exact (offMemory_lineRead s i l e).trans (ih _ _)

theorem offMemory_dpaRead (s : State) (i a n : Nat) (e : MemErr) : OffMemoryKept s (s.dpaRead i a n e).1 := by
  unfold State.dpaRead
  split
  · exact .refl s
  · exact (offMemory_reelSpan s a n false).trans (offMemory_linesRead _ _ _ _ _)

/-! ### Writes (R427, R470-R473) -/

theorem offMemory_linesWrite (s : State) (i a n l : Nat) (e : MemErr) (k : Nat) : OffMemoryKept s (s.linesWrite i a n l e k) := by
  induction k generalizing s l with
  | zero => exact .refl s
  | succ k ih =>
    refine OffMemoryKept.trans ?_ (ih _ _)
    unfold State.lineWrite
    split
    · exact .refl s
    · dsimp only
      split <;> exact offMemory_lineRead s i l e

theorem offMemory_parityLines (s : State) (b l n : Nat) : OffMemoryKept s (s.parityLines b l n) := by
  induction n generalizing s l with
  | zero => exact .refl s
  | succ n ih => exact OffMemoryKept.trans (.of_regs rfl) (ih _ _)

theorem offMemory_mirrorSend (s : State) (l n k : Nat) : OffMemoryKept s (s.mirrorSend l n k) := by
  induction k generalizing s l n with
  | zero => exact .refl s
  | succ k ih =>
    unfold State.mirrorSend
    split
    · exact .refl s
    · refine OffMemoryKept.trans ?_ (ih _ _ _)
      exact .of_regs (onlyQueued_svSend _ _ rfl).regs

theorem offMemory_degraded (s : State) (p : Prot) (a : Nat) : OffMemoryKept s (s.degraded p a) := by
  have marked (u : State) (few : p.range < 16) : OffMemoryKept u (u.putB (PL_RGN_STAT_DEGRADED p.range) true) :=
    (OffMemoryKept.refl u).putB _ (not_offMemory (by simp only [PL_RGN_STAT_DEGRADED, PL_RGN_STAT]; omega)
      (by simp only [PL_RGN_STAT_DEGRADED, PL_RGN_STAT]; omega))
  unfold State.degraded
  extract_lets said pool s1 s2
  have known : OffMemoryKept s s2 := by
    dsimp only [s2]
    split
    · next few => exact marked s1 few
    · exact .refl s
  split
  · exact known
  · exact known.report _ _

theorem offMemory_dpaWrite (s : State) (i a : Nat) (bs : List Byte) (e : MemErr) (twin : Bool) :
    OffMemoryKept s (s.dpaWrite i a bs e twin) := by
  unfold State.dpaWrite
  split
  · exact .refl s
  · extract_lets n l k s1 s2
    have lines : OffMemoryKept s s2 := (offMemory_reelSpan s a n true).trans (offMemory_linesWrite _ i a n l e k)
    split
    · split
      · exact lines.trans (offMemory_parityLines _ _ _ _)
      · split
        · refine lines.trans ?_
          unfold State.mirror
          split
          · exact offMemory_mirrorSend _ _ _ _
          · exact offMemory_degraded _ _ _
        · exact lines
    · exact lines

/-! ### Accesses for a sequence's owner (R433) -/

theorem onlyWalked_ownRead (s : State) (i t a n : Nat) (e : MemErr) : OnlyWalked s (s.ownRead i t a n e).1 := by
  unfold State.ownRead
  split
  · exact onlyWalked_dpaRefuse _ _ _
  · exact onlyWalked_dpaRead _ _ _ _ _

theorem offMemory_ownRead (s : State) (i t a n : Nat) (e : MemErr) : OffMemoryKept s (s.ownRead i t a n e).1 := by
  unfold State.ownRead
  split
  · exact offMemory_dpaRefuse _ _ _
  · exact offMemory_dpaRead _ _ _ _ _

theorem onlyAccessed_ownWrite (s : State) (i t a : Nat) (bs : List Byte) (e : MemErr) : OnlyAccessed s (s.ownWrite i t a bs e) := by
  unfold State.ownWrite
  split
  · exact (onlyWalked_dpaRefuse _ _ _).accessed
  · exact onlyAccessed_dpaWrite _ _ _ _ _ _

theorem offMemory_ownWrite (s : State) (i t a : Nat) (bs : List Byte) (e : MemErr) : OffMemoryKept s (s.ownWrite i t a bs e) := by
  unfold State.ownWrite
  split
  · exact offMemory_dpaRefuse _ _ _
  · exact offMemory_dpaWrite _ _ _ _ _ _

end Sys2Proof.Machine
end

section
/-! A message that is next in both orders acts at once (R564, R566): mirrored writes, remote reads and writes, re-silvering (O60). -/

namespace Sys2Proof.Machine

open Reg

/-! ### Delivery -/

section Delivery

variable (h : SvHead) (cls : Nat) (s : State)

/-- What the arrival touches beside the numbers of the message: the wake reason of R662. -/
theorem onlyPower_arrival : OnlyPower (s.modSvPort h.port fun x => { x with rxLseq := h.lseq.toNat })
    ((s.modSvPort h.port fun x => { x with rxLseq := h.lseq.toNat }).recordWake 7) := onlyPower_recordWake _ _

theorem atDelivery_mem : (AtDelivery h cls s).mem = s.mem := (congrArg State.mem (onlyPower_arrival h s) :)
theorem atDelivery_pool : (AtDelivery h cls s).pool = s.pool := (congrArg State.pool (onlyPower_arrival h s) :)
theorem atDelivery_track : (AtDelivery h cls s).track = s.track := (congrArg State.track (onlyPower_arrival h s) :)
theorem atDelivery_sk : (AtDelivery h cls s).sk = s.sk := (congrArg State.sk (onlyPower_arrival h s) :)
theorem atDelivery_outbox : (AtDelivery h cls s).outbox = s.outbox := (congrArg State.outbox (onlyPower_arrival h s) :)
theorem atDelivery_full : (AtDelivery h cls s).sv.full = s.sv.full := (congrArg (·.sv.full) (onlyPower_arrival h s) :)
theorem atDelivery_tx : (AtDelivery h cls s).sv.tx = s.sv.tx := (congrArg (·.sv.tx) (onlyPower_arrival h s) :)

theorem atDelivery_rxLseq : ((AtDelivery h cls s).svPort h.port).rxLseq = h.lseq.toNat := by
  have port : (AtDelivery h cls s).svPort h.port = (s.modSvPort h.port fun x => { x with rxLseq := h.lseq.toNat }).svPort h.port :=
    (congrArg (fun v : State => spGet (fun _ => {}) v.sv.ports h.port) (onlyPower_arrival h s) :)
  rw [port, State.modSvPort, svPort_setSvPort, if_pos rfl]

theorem atDelivery_reg {o : Nat} (ho : o < 0xF00000) : (AtDelivery h cls s).reg o = s.reg o := reg_recordWake _ 7 ho

theorem atDelivery_get {f : Fld} (ho : f.off < 0xF00000) : (AtDelivery h cls s).get f = s.get f :=
  get_congr (atDelivery_reg h cls s ho)

end Delivery

section InOrder

variable {h : SvHead} {msg : SvMsg} {s : State}

theorem InOrder.full {cls : Nat} (ho : InOrder h cls s) : (AtDelivery h cls s).sv.full = [] := by
  obtain ⟨-, -, -, -, full⟩ := ho
  exact (atDelivery_full h cls s).trans full

/-- What the checks of the link and of the two orders come to (R564, R566). -/
theorem svRx_inOrder (ho : InOrder h msg.cls s) (hl : msg.loose = false) (e : MemErr) :
    s.svRx h msg e = (AtDelivery h msg.cls s).svTake ⟨h, msg⟩ e := by
  obtain ⟨⟨up, room, crc, next, inRing⟩, ⟨single, ours⟩, e2e, early, full⟩ := ho
  let s1 := s.modSvPort h.port fun x => { x with rxLseq := h.lseq.toNat }
  have linked (f : State → State) : s.svLink h msg.cls f = f s1 := by
    have usable : (!(s.svState h.port == 4 || s.svState h.port == 5)) = false := by
      rcases up with up | up <;> simp [up]
    rw [State.svLink, usable, if_neg Bool.false_ne_true, if_neg (by omega), crc, if_neg (by decide), if_neg (not_not.2 next)]
  have good : (s1.svPort h.port).bad = false := by
    rw [show s1.svPort h.port = { s.svPort h.port with rxLseq := h.lseq.toNat } by simp [s1, State.modSvPort, svPort_setSvPort]]
    exact inRing
  have number : (s1.recordWake 7).svNextE2e h.src msg.cls = h.e2e.toNat := by
    rw [e2e]
    exact (congrArg (fun v : State => v.svNextE2e h.src msg.cls) (onlyPower_arrival h s) :)
  have none : (s1.recordWake 7).sv.early = [] := ((congrArg (·.sv.early) (onlyPower_arrival h s) :)).trans early
  have due : (h.e2e.toNat + 65536 - (s1.recordWake 7).svNextE2e h.src msg.cls) % 65536 = 0 := by
    rw [number]
    omega
  unfold State.svRx
  rw [linked]
  dsimp only
  rw [good, Bool.false_and, if_neg Bool.false_ne_true, single, if_neg Bool.false_ne_true,
    if_pos (show h.dst.val = s1.svDev from ours), State.svOrdered]
  simp only [single, hl, due, none, Bool.or_self, Bool.false_eq_true, if_false, if_true]
  rfl

theorem svRing_ready (hf : s.sv.full = []) (e : MemErr) : s.svRing ⟨h, msg⟩ e = s.svDeliver h msg e := by
  simp [State.svRing, hf]

/-- A message in order that acts: its units are given back, and its effect is the state after. -/
theorem exec_delivered {c : Instr} {e : MemErr} {t : State} (he : exec c s = s.done (s.svRx h msg e)) (ho : InOrder h msg.cls s)
    (hl : msg.loose = false) (hd : (AtDelivery h msg.cls s).svDeliver h msg e = (t, true)) :
    exec c s = s.done (t.svAck h.port msg.cls (svUnits h.len)) := by
  rw [he, svRx_inOrder ho hl, State.svTake, svRing_ready ho.full, hd]

/-- A message in order that cannot act yet waits until the ring has room (R409). -/
theorem exec_waits {c : Instr} {e : MemErr} {t : State} (he : exec c s = s.done (s.svRx h msg e)) (ho : InOrder h msg.cls s)
    (hl : msg.loose = false) (hd : (AtDelivery h msg.cls s).svDeliver h msg e = (t, false)) :
    exec c s = s.done (t.setSv fun v => { v with full := v.full ++ [⟨h, msg⟩] }) := by
  rw [he, svRx_inOrder ho hl, State.svTake, svRing_ready ho.full, hd]

end InOrder

/-! ### MIRROR_WR (R579, R580) -/

theorem dpaRefuse_mem (s : State) (c i : Nat) : (s.dpaRefuse c i).mem = s.mem := by
  have told := (onlyRegs_report s c i).mem
  unfold State.dpaRefuse
  dsimp only
  split <;> exact told

/-- GLB_FAULT_LAST names the code of a refusal and the port that brought the access. -/
theorem dpaRefuse_last (s : State) (p : Fin 2) : (s.dpaRefuse 0x9003 (svIid p)).reg GLB_FAULT_LAST =
    BitVec.ofNat 32 (0x9003 + (24 + p.val) * 0x10000) := by
  have port : (24 + p.val) % 64 = 24 + p.val := Nat.mod_eq_of_lt (by omega)
  rw [State.dpaRefuse, if_pos (by decide), reg_bump_ne _ _ (by decide), report_last, faultWord, svIid, port, Nat.mul_comm]

theorem clashed_mem (s : State) (a : Nat) : (s.clashed a).mem = s.mem := by
  unfold State.clashed
  dsimp only
  split
  · rfl
  · split
    · split
      · rfl
      · exact (onlyRegs_report _ _ _).mem
    · rfl

/-- A granule dirty on both devices counts as a conflict once. -/
theorem clashed_conflict (s : State) (a : Nat) : (s.clashed a).get SV_RESILVER_STAT_CONFLICT =
    if s.pool.clash.contains (a / 4096) then s.get SV_RESILVER_STAT_CONFLICT else min (s.get SV_RESILVER_STAT_CONFLICT + 1) 255 := by
  have counted (t : State) (ht : t.regs = s.regs) :
      (t.bump SV_RESILVER_STAT_CONFLICT).get SV_RESILVER_STAT_CONFLICT = min (s.get SV_RESILVER_STAT_CONFLICT + 1) 255 := by
    rw [get_bump t _ 1 (by decide), get_of_regs ht]
    rfl
  unfold State.clashed
  dsimp only
  split
  · rfl
  · split
    · split
      · exact counted _ rfl
      · rw [State.get, reg_report (by decide), ← State.get]
        exact counted _ rfl
    · exact counted _ rfl

section MirrorIn

variable {h : SvHead} {a : Nat} {bs : List Byte} {e : MemErr} {s : State}

theorem mirrorIn_refused (hf : s.fenceOk (svIid h.port) a bs.length true = false) :
    s.mirrorIn h a bs e = (s.dpaRefuse 0x9003 (svIid h.port)).svSend h.src (.mirrorAck a 0x9003) := by
  rw [State.mirrorIn, hf]
  rfl

theorem mirrorIn_writes (hf : s.fenceOk (svIid h.port) a bs.length true = true) (hc : s.clashes (a / 4096) = false) :
    s.mirrorIn h a bs e = (s.dpaWrite (svIid h.port) a bs e false).svSend h.src (.mirrorAck a 0) := by
  rw [State.mirrorIn, hf, hc]
  rfl

theorem mirrorIn_clashes (hf : s.fenceOk (svIid h.port) a bs.length true = true) (hc : s.clashes (a / 4096) = true)
    (lead : s.is SV_CFG_ROLE = false) : s.mirrorIn h a bs e = (s.clashed a).svSend h.src (.mirrorAck a 0) := by
  rw [State.mirrorIn, hf, hc, lead]
  rfl

end MirrorIn

section MirrorWr

variable {m : SvHead} {a : BitVec 40} {ls : List Byte} {e : MemErr} {s : State}

/-- The acknowledgement leaves, and the memory is as the message's effect left it. -/
theorem mirrorWr_acknowledged {v : State} {st : Nat} (ho : InOrder m 1 s)
    (hv : (AtDelivery m 1 s).mirrorIn m a.toNat ls e = v.svSend m.src (.mirrorAck a.toNat st)) :
    Completes (.mirrorWr m a ls e) s fun t => t.mem = v.mem ∧ t.regs = v.regs ∧ Sends m.src (.mirrorAck a.toNat st) t := by
  have sent := onlyQueued_svSend v m.src (m := .mirrorAck a.toNat st) rfl
  have acts : (AtDelivery m 1 s).svDeliver m (.mirrorWr a.toNat ls) e = (v.svSend m.src (.mirrorAck a.toNat st), true) :=
    congrArg (·, true) hv
  exact ⟨_, exec_delivered rfl ho rfl acts, sent.mem, sent.regs, (sends_svSend v m.src rfl).of_sv rfl⟩

theorem mirrorWr_refused (ho : InOrder m 1 s) (hf : (AtDelivery m 1 s).fenceOk (svIid m.port) a.toNat ls.length true = false) :
    Completes (.mirrorWr m a ls e) s fun t => t.mem = s.mem ∧
      t.reg GLB_FAULT_LAST = BitVec.ofNat 32 (0x9003 + (24 + m.port.val) * 0x10000) ∧ Sends m.src (.mirrorAck a.toNat 0x9003) t := by
  obtain ⟨t, ends, mem, regs, sends⟩ := mirrorWr_acknowledged ho (mirrorIn_refused (e := e) hf)
  exact ⟨t, ends, (mem.trans (dpaRefuse_mem _ _ _)).trans (atDelivery_mem m 1 s),
    (reg_of_regs regs _).trans (dpaRefuse_last _ _), sends⟩

theorem mirrorWr_writes (ho : InOrder m 1 s) (hf : (AtDelivery m 1 s).fenceOk (svIid m.port) a.toNat ls.length true = true)
    (hc : (AtDelivery m 1 s).clashes (a.toNat / 4096) = false) : Completes (.mirrorWr m a ls e) s fun t =>
      t.mem = ((AtDelivery m 1 s).dpaWrite (svIid m.port) a.toNat ls e false).mem ∧ Sends m.src (.mirrorAck a.toNat 0) t := by
  obtain ⟨t, ends, mem, -, sends⟩ := mirrorWr_acknowledged ho (mirrorIn_writes (e := e) hf hc)
  exact ⟨t, ends, mem, sends⟩

/-- The Lead keeps its own copy of a granule that both had written (R580). -/
theorem mirrorWr_clashes (ho : InOrder m 1 s) (hf : (AtDelivery m 1 s).fenceOk (svIid m.port) a.toNat ls.length true = true)
    (hc : (AtDelivery m 1 s).clashes (a.toNat / 4096) = true) (lead : s.is SV_CFG_ROLE = false) :
    Completes (.mirrorWr m a ls e) s fun t => t.mem = s.mem ∧ Sends m.src (.mirrorAck a.toNat 0) t ∧
      t.get SV_RESILVER_STAT_CONFLICT = (if s.pool.clash.contains (a.toNat / 4096) then s.get SV_RESILVER_STAT_CONFLICT
        else min (s.get SV_RESILVER_STAT_CONFLICT + 1) 255) := by
  have role : (AtDelivery m 1 s).is SV_CFG_ROLE = false := (is_congr (atDelivery_reg m 1 s (by decide))).trans lead
  obtain ⟨t, ends, mem, regs, sends⟩ := mirrorWr_acknowledged ho (mirrorIn_clashes (e := e) hf hc role)
  refine ⟨t, ends, (mem.trans (clashed_mem _ _)).trans (atDelivery_mem m 1 s), sends, ?_⟩
  rw [get_of_regs regs, clashed_conflict, atDelivery_pool, atDelivery_get m 1 s (by decide)]

end MirrorWr

/-! ### MIRROR_ACK, POOL_RD_DATA and POOL_WR_ACK (R472, log entry 24) -/

section MirrorAck

variable {m : SvHead} {a : BitVec 40} {st : BitVec 16} {s : State}

/-- The address is taken off those that wait, and the rest is for the COPYs that waited for it. -/
theorem mirrorAcked_open (h : 2 ≤ s.pool.mirrorWait.count a.toNat ∨ s.track.store = []) :
    (s.mirrorAcked a.toNat).pool.mirrorWait = s.pool.mirrorWait.erase a.toNat := by
  unfold State.mirrorAcked
  dsimp only
  split
  · rfl
  · next gone =>
    have left : a.toNat ∉ s.pool.mirrorWait.erase a.toNat := by simpa using gone
    rcases h with twice | empty
    · have one : (s.pool.mirrorWait.erase a.toNat).count a.toNat = s.pool.mirrorWait.count a.toNat - 1 := List.count_erase_self
      have zero := List.count_eq_zero.2 left
      omega
    · rw [empty]
      rfl

theorem mirrorAck_takes (ho : InOrder m 2 s) (h : 2 ≤ s.pool.mirrorWait.count a.toNat ∨ s.track.store = []) :
    Completes (.mirrorAck m a st) s fun t => t.pool.mirrorWait = s.pool.mirrorWait.erase a.toNat := by
  refine ⟨_, exec_delivered rfl ho rfl rfl, ?_⟩
  have taken := mirrorAcked_open (s := AtDelivery m 2 s) (a := a) (by rwa [atDelivery_pool, atDelivery_track])
  rw [atDelivery_pool] at taken
  exact taken

/-- The COPY that waited for nothing else completes. -/
theorem mirrorAcked_last {c : TkCmd} (hs : s.track.store = [c]) (hop : isOp 0x03 c = true) (hw : c.waits = [a.toNat])
    (hd : c.done = c.u 20 4) (hm : s.pool.mirrorWait = [a.toNat]) : (s.mirrorAcked a.toNat).pool.mirrorWait = [] ∧
      (s.mirrorAcked a.toNat).tkRecs c.req = s.tkRecs c.req ++ [c.record c.status c.done false] := by
  have none : s.pool.mirrorWait.erase a.toNat = [] := by simp [hm]
  have waiting : s.track.store.filter (fun c => isOp 0x03 c && c.waits.contains a.toNat) = [c] := by simp [hs, hop, hw]
  have met : (c.waits.filter fun x => x != a.toNat) = [] := by simp [hw]
  unfold State.mirrorAcked
  simp only [none, waiting, met, List.contains_nil, Bool.false_eq_true, if_false, List.foldl_cons, List.foldl_nil, State.copyEnd]
  rw [if_pos ⟨hd, trivial⟩]
  exact ⟨rfl, tkRecs_complete _ { c with waits := [] } _ _⟩

theorem mirrorAck_completes {c : TkCmd} (ho : InOrder m 2 s) (hs : s.track.store = [c]) (hop : isOp 0x03 c = true)
    (hw : c.waits = [a.toNat]) (hd : c.done = c.u 20 4) (hm : s.pool.mirrorWait = [a.toNat]) :
    Completes (.mirrorAck m a st) s fun t => t.pool.mirrorWait = [] ∧
      t.tkRecs c.req = s.tkRecs c.req ++ [c.record c.status c.done false] := by
  refine ⟨_, exec_delivered rfl ho rfl rfl, ?_⟩
  obtain ⟨empty, recs⟩ := mirrorAcked_last (s := AtDelivery m 2 s) (by rwa [atDelivery_track]) hop hw hd (by rwa [atDelivery_pool])
  rw [State.tkRecs, State.tkRecs, atDelivery_track] at recs
  exact ⟨empty, recs⟩

theorem poolRdData_ignored {d : List Byte} {bad : List Bool} (ho : InOrder m 2 s) :
    exec (.poolRdData m d bad st) s = s.done ((AtDelivery m 2 s).svAck m.port 2 (svUnits m.len)) :=
  exec_delivered (msg := .poolRdData d bad st.toNat) rfl ho rfl rfl

theorem poolWrAck_ignored (ho : InOrder m 2 s) :
    exec (.poolWrAck m st) s = s.done ((AtDelivery m 2 s).svAck m.port 2 (svUnits m.len)) :=
  exec_delivered (msg := .poolWrAck st.toNat) rfl ho rfl rfl

end MirrorAck

/-! ### POOL_RD and POOL_WR (R461, R579) -/

/-- The first piece of a list, where there is room for one. -/
theorem pieces448_head (bs : List Byte) (n : Nat) : ∃ r, pieces448 bs (n + 1) = bs.take 448 :: r := by
  unfold pieces448
  split
  · next short => exact ⟨[], by rw [List.take_of_length_le short]⟩
  · exact ⟨_, rfl⟩

theorem onlyQueued_sendData (s : State) (dst : Nat) (bad : List Bool) (st : Nat) (l : List (List Byte)) :
    OnlyQueued s (s.sendData dst bad st l) := by
  induction l generalizing s bad with
  | nil => exact .refl s
  | cons d r ih => exact (onlyQueued_svSend s dst rfl).trans (ih _ _)

/-- The first piece of an answer has been sent, and is kept. -/
theorem sends_sendData (s : State) (dst : Nat) (bad : List Bool) (st : Nat) (bs : List Byte) (n : Nat) :
    Sends dst (.poolRdData (bs.take 448) (bad.take 7) st) (s.sendData dst bad st (pieces448 bs (n + 1))) := by
  obtain ⟨r, pieces⟩ := pieces448_head bs n
  rw [pieces]
  exact (onlyQueued_sendData _ dst _ st r).kept rfl (sends_svSend s dst rfl)

section PoolTraffic

variable {m : SvHead} {a : BitVec 40} {n : Nat} {ls : List Byte} {k : Fin 8} {e : MemErr} {s : State}

/-- An answer leaves in pieces, and the memory is as the message's effect left it. -/
theorem poolRd_answered {v : State} {bad : List Bool} {st : Nat} {bs : List Byte} (ho : InOrder m 1 s)
    (hv : (AtDelivery m 1 s).poolRdIn m a.toNat n k e = v.sendData m.src bad st (pieces448 bs (n / 448 + 1))) :
    Completes (.poolRd m a n k e) s fun t => t.mem = v.mem ∧ ∃ bad, Sends m.src (.poolRdData (bs.take 448) bad st) t := by
  have acts : (AtDelivery m 1 s).svDeliver m (.poolRd a.toNat n k) e = (_, true) := congrArg (·, true) hv
  exact ⟨_, exec_delivered rfl ho rfl acts, (onlyQueued_sendData v m.src bad st _).mem, bad.take 7,
    (sends_sendData v m.src bad st bs _).of_sv rfl⟩

theorem poolRd_refused {c : Nat} (ho : InOrder m 1 s) (hc : (AtDelivery m 1 s).remoteCheck m a.toNat n k false = some c) :
    Completes (.poolRd m a n k e) s fun t => t.mem = s.mem ∧
      ∃ bad, Sends m.src (.poolRdData (List.replicate (min n 448) 0) bad c) t := by
  obtain ⟨t, ends, mem, sends⟩ := poolRd_answered (e := e) ho (by rw [State.poolRdIn, hc])
  rw [List.take_replicate, min_comm] at sends
  exact ⟨t, ends, (mem.trans (dpaRefuse_mem _ _ _)).trans (atDelivery_mem m 1 s), sends⟩

theorem poolRd_reads (ho : InOrder m 1 s) (hc : (AtDelivery m 1 s).remoteCheck m a.toNat n k false = none) :
    Completes (.poolRd m a n k e) s fun t =>
      let r := (AtDelivery m 1 s).dpaRead (svIid m.port) a.toNat n e
      t.mem = r.1.mem ∧ ∃ bad, Sends m.src (.poolRdData (r.2.1.take 448) bad 0) t :=
  poolRd_answered ho (by rw [State.poolRdIn, hc])

/-- The acknowledgement of a remote write leaves. -/
theorem poolWr_acknowledged {v : State} {st : Nat} (ho : InOrder m 1 s)
    (hv : (AtDelivery m 1 s).poolWrIn m a.toNat ls k e = v.svSend m.src (.poolWrAck st)) :
    Completes (.poolWr m a ls k e) s fun t => t.mem = v.mem ∧ Sends m.src (.poolWrAck st) t := by
  have acts : (AtDelivery m 1 s).svDeliver m (.poolWr a.toNat ls k) e = (_, true) := congrArg (·, true) hv
  exact ⟨_, exec_delivered rfl ho rfl acts, (onlyQueued_svSend v m.src rfl).mem, (sends_svSend v m.src rfl).of_sv rfl⟩

theorem poolWr_refused {c : Nat} (ho : InOrder m 1 s) (hc : (AtDelivery m 1 s).remoteCheck m a.toNat ls.length k true = some c) :
    Completes (.poolWr m a ls k e) s fun t => t.mem = s.mem ∧ Sends m.src (.poolWrAck c) t := by
  obtain ⟨t, ends, mem, sends⟩ := poolWr_acknowledged (e := e) ho (by rw [State.poolWrIn, hc])
  exact ⟨t, ends, (mem.trans (dpaRefuse_mem _ _ _)).trans (atDelivery_mem m 1 s), sends⟩

theorem poolWr_writes (ho : InOrder m 1 s) (hc : (AtDelivery m 1 s).remoteCheck m a.toNat ls.length k true = none) :
    Completes (.poolWr m a ls k e) s fun t =>
      t.mem = ((AtDelivery m 1 s).dpaWrite (svIid m.port) a.toNat ls e).mem ∧ Sends m.src (.poolWrAck 0) t :=
  poolWr_acknowledged ho (by rw [State.poolWrIn, hc])

end PoolTraffic

/-! ### RESILVER_GRANULE (R580) -/

/-- A range that leaves DEGRADED keeps what is dirty, the memory and the Selvedge. -/
theorem rangeClean_frame (s : State) (g : Nat) :
    (s.rangeClean g).pool.dirty = s.pool.dirty ∧ (s.rangeClean g).mem = s.mem ∧ (s.rangeClean g).sv = s.sv := by
  unfold State.rangeClean State.rangeCleanBy
  dsimp only
  split
  · exact ⟨rfl, rfl, rfl⟩
  · split
    · exact ⟨rfl, rfl, rfl⟩
    · split <;> exact ⟨rfl, rfl, rfl⟩

/-- Messages of mirrored lines, and the addresses that wait for their acknowledgement. -/
theorem mirrorSend_frame (s : State) (l n k : Nat) : (s.mirrorSend l n k).pool.dirty = s.pool.dirty ∧
    ∀ {d : Nat} {m : SvMsg}, m.stale = false → Sends d m s → Sends d m (s.mirrorSend l n k) := by
  induction k generalizing s l n with
  | zero => exact ⟨rfl, fun _ h => h⟩
  | succ k ih =>
    unfold State.mirrorSend
    split
    · exact ⟨rfl, fun _ h => h⟩
    · extract_lets x waiting s1
      have sent := onlyQueued_svSend s1 s.twinDev (m := .mirrorWr (l * 64) (s.bytesAt (l * 64) (64 * x))) rfl
      obtain ⟨dirty, kept⟩ := ih (s1.svSend s.twinDev (.mirrorWr (l * 64) (s.bytesAt (l * 64) (64 * x)))) (l + x) (n - x)
      exact ⟨dirty.trans ((congrArg Pool.dirty sent.pool).trans rfl), fun hm h => kept hm (sent.kept hm (h.of_sv rfl))⟩

/-- The first message of a granule holds its first seven lines. -/
theorem sends_mirrorSend (s : State) (g : Nat) :
    Sends s.twinDev (.mirrorWr (g * 64 * 64) (s.bytesAt (g * 64 * 64) 448)) (s.mirrorSend (g * 64) 64 64) := by
  rw [State.mirrorSend, if_neg (by decide)]
  exact (mirrorSend_frame _ _ _ _).2 rfl (sends_svSend _ _ rfl)

theorem resilver_idle {s : State} (h : s.pool.dirty = [] ∨ s.twinUp = false) : exec .resilverGranule s = .next s := by
  have same : s.resilver = s := by
    unfold State.resilver
    split
    · rfl
    · next first =>
      rcases h with clean | down
      · rw [clean] at first
        cases first
      · rw [down]
        rfl
  exact (congrArg s.done same).trans (done_eq s s rfl rfl)

theorem resilver_sends {s : State} {g : Nat} {z : Bool} {r : List (Nat × Bool)} (hd : s.pool.dirty = (g, z) :: r)
    (up : s.twinUp = true) : Completes .resilverGranule s fun t => spGet (fun _ => false) t.pool.dirty g = false ∧ t.mem = s.mem ∧
      Sends s.twinDev (.mirrorWr (g * 64 * 64) (s.bytesAt (g * 64 * 64) 448)) t := by
  have goes : s.resilver = State.rangeClean { s.mirrorSend (g * 64) 64 64 with
      pool := { (s.mirrorSend (g * 64) 64 64).pool with
        dirty := spPut (fun _ => false) (s.mirrorSend (g * 64) 64 64).pool.dirty g false
        resent := g :: (s.mirrorSend (g * 64) 64 64).pool.resent } } g := by
    rw [State.resilver, hd, up]
    rfl
  refine ⟨_, congrArg s.done goes, ?_⟩
  generalize hu : ({ s.mirrorSend (g * 64) 64 64 with pool := _ } : State) = u
  obtain ⟨dirty, mem, sv⟩ := rangeClean_frame u g
  subst hu
  refine ⟨?_, mem.trans (mem_mirrorSend _ _ _ _), (sends_mirrorSend s g).of_sv sv⟩
  exact (congrArg (spGet _ · g) dirty).trans (spGet_spPut_same (s.mirrorSend (g * 64) 64 64).pool.dirty g false)

end Sys2Proof.Machine
end

section
/-! Blocks of a ring sequence: sent, arriving and fetched (R409, R410; O60). -/

namespace Sys2Proof.Machine

open Reg

/-! ### A block is sent (R409) -/

/-- `t` differs from `s` in what reading and sending a block touches: what reads of memory touch, the ports, the E2E numbers and what
has left. What the ports held they still hold. -/
structure OnlyServed (s t : State) : Prop where
  rest : t = { s with
    regs := t.regs, mem := t.mem, atu := t.atu, freeCtr := t.freeCtr, sv := { s.sv with ports := t.sv.ports, tx := t.sv.tx }
    outbox := t.outbox }
  regs : OffMemoryKept s t
  kept : ∀ {d : Nat} {m : SvMsg}, m.stale = false → Sends d m s → Sends d m t

theorem OnlyServed.refl (s : State) : OnlyServed s s := ⟨rfl, .refl s, fun _ h => h⟩

theorem OnlyServed.trans {s t u : State} (h : OnlyServed s t) (k : OnlyServed t u) : OnlyServed s u :=
  ⟨by rw [k.rest, h.rest], h.regs.trans k.regs, fun hm m => k.kept hm (h.kept hm m)⟩

theorem OnlyServed.track {s t : State} (h : OnlyServed s t) : t.track = s.track := (congrArg State.track h.rest :)

theorem OnlyQueued.served {s t : State} (h : OnlyQueued s t) : OnlyServed s t :=
  ⟨by rw [h.rest], .of_regs h.regs, h.kept⟩

theorem onlyServed_ownRead (s : State) (i t a n : Nat) (e : MemErr) : OnlyServed s (s.ownRead i t a n e).1 := by
  have read := (onlyWalked_ownRead s i t a n e).rest
  exact ⟨by rw [read], offMemory_ownRead s i t a n e, fun _ h => h.of_sv (congrArg State.sv read :)⟩

theorem onlyServed_ringEntry (s : State) (x : Seq) (r p : Nat) : OnlyServed s (s.ringEntry x r p).1 := by
  unfold State.ringEntry
  dsimp only
  split
  · exact .refl s
  · split
    · exact .refl s
    · split
      · exact .refl s
      · exact .refl s
      · exact .refl s
      · split
        · exact onlyServed_ownRead s _ _ _ _ _
        · exact .refl s

theorem onlyServed_ringRegion (s : State) (x : Seq) (r : Nat) (ps : List Nat) : OnlyServed s (s.ringRegion x r ps).1 := by
  induction ps generalizing s with
  | nil => exact .refl s
  | cons p ps ih => exact (onlyServed_ringEntry s x r p).trans (ih _)

/-- `f` sends messages to the device `dst`, which hangs on the configuration of the Selvedge at most. -/
structure SendsTo (f : State → SvMsg → State) (dst : State → Nat) : Prop where
  only : ∀ (s : State) {m : SvMsg}, m.stale = false → OnlyQueued s (f s m)
  sends : ∀ (s : State) {m : SvMsg}, m.stale = false → Sends (dst s) m (f s m)
  place : ∀ {s t : State}, OffMemoryKept s t → dst t = dst s

theorem sendsTo_svSend (d : Nat) : SendsTo (fun s m => s.svSend d m) fun _ => d :=
  ⟨fun s _ => onlyQueued_svSend s d, fun s _ => sends_svSend s d, fun _ => rfl⟩

theorem sendsTo_svNeighbour : SendsTo (fun s m => s.svNeighbour 0 m) fun s => (s.svDev + 1) % s.svMembers :=
  ⟨fun s _ => onlyQueued_svNeighbour s 0, fun s _ => sends_svNeighbour s, fun kept => by
    simp only [State.svDev, State.svMembers, kept.get (f := SV_CFG_DEV_ID) (by decide), kept.get (f := SV_CFG_MEMBERS) (by decide)]⟩

section Block

variable {f : State → SvMsg → State} {dst : State → Nat} (hf : SendsTo f dst)
include hf

theorem onlyQueued_sendPieces (q b r : Nat) (last : Bool) (s : State) (l : List (List Byte)) :
    OnlyQueued s (State.sendPieces f q b r last s l) := by
  induction l generalizing s with
  | nil => exact .refl s
  | cons d ds ih =>
    cases ds with
    | nil => exact hf.only s rfl
    | cons e es => exact (hf.only s rfl).trans (ih _)

/-- The last piece of a region carries the mark that the region is given. -/
theorem sends_sendPieces (q b r : Nat) (last : Bool) (s : State) (d : List Byte) (ds : List (List Byte)) :
    ∃ d', Sends (dst s) (.ringBlock q b r d' last) (State.sendPieces f q b r last s (d :: ds)) := by
  induction ds generalizing s d with
  | nil => exact ⟨d, hf.sends s rfl⟩
  | cons e es ih =>
    have first := hf.only s (m := .ringBlock q b r d false) rfl
    obtain ⟨d', sent⟩ := ih (f s (.ringBlock q b r d false)) e
    exact ⟨d', hf.place (.of_regs first.regs) ▸ sent⟩

theorem onlyServed_sendRegions (q b : Nat) (x : Seq) (s : State) (rs : List Nat) :
    OnlyServed s (State.sendRegions f q b x s rs) := by
  induction rs generalizing s with
  | nil => exact .refl s
  | cons r rs ih =>
    exact ((onlyServed_ringRegion s x r _).trans (onlyQueued_sendPieces hf q b r rs.isEmpty _ _).served).trans (ih _)

/-- The last piece of the last region ends the block. -/
theorem sends_sendRegions (q b : Nat) (x : Seq) (s : State) (r : Nat) (rs : List Nat) :
    ∃ j d, Sends (dst s) (.ringBlock q b j d true) (State.sendRegions f q b x s (r :: rs)) := by
  have read := onlyServed_ringRegion s x r (x.positions b)
  induction rs generalizing s r with
  | nil =>
    obtain ⟨ds, pieces⟩ := pieces448_head (s.ringRegion x r (x.positions b)).2
      ((s.ringRegion x r (x.positions b)).2.length / 448)
    obtain ⟨d, sent⟩ := sends_sendPieces hf q b r true (s.ringRegion x r (x.positions b)).1 _ ds
    refine ⟨r, d, ?_⟩
    rw [State.sendRegions]
    dsimp only
    rw [pieces, ← hf.place read.regs]
    exact sent
  | cons r' rs ih =>
    have before := read.trans (onlyQueued_sendPieces hf q b r false (s.ringRegion x r (x.positions b)).1
      (pieces448 (s.ringRegion x r (x.positions b)).2 ((s.ringRegion x r (x.positions b)).2.length / 448 + 1))).served
    obtain ⟨j, d, sent⟩ := ih _ r' (onlyServed_ringRegion _ x r' _)
    exact ⟨j, d, hf.place before.regs ▸ sent⟩

theorem onlyServed_sendBlock (s : State) (q b : Nat) (x : Seq) : OnlyServed s (s.sendBlock f q b x) :=
  onlyServed_sendRegions hf q b x s x.regions

theorem sends_sendBlock (s : State) (q b : Nat) {x : Seq} (hx : x.regions ≠ []) :
    ∃ j d, Sends (dst s) (.ringBlock q b j d true) (s.sendBlock f q b x) := by
  obtain ⟨r, rs, regions⟩ := List.exists_cons_of_ne_nil hx
  rw [State.sendBlock, regions]
  exact sends_sendRegions hf q b x s r rs

theorem onlyServed_sendBlocks (q : Nat) (x : Seq) (s : State) (bs : List Nat) :
    OnlyServed s (bs.foldl (fun s b => s.sendBlock f q b x) s) := by
  induction bs generalizing s with
  | nil => exact .refl s
  | cons b bs ih => exact (onlyServed_sendBlock hf s q b x).trans (ih _)

/-- Each block of a list is sent, and kept while the later ones are sent. -/
theorem sends_sendBlocks (q : Nat) {x : Seq} (hx : x.regions ≠ []) (s : State) {bs : List Nat} {b : Nat} (hb : b ∈ bs) :
    ∃ j d, Sends (dst s) (.ringBlock q b j d true) (bs.foldl (fun s b => s.sendBlock f q b x) s) := by
  induction bs generalizing s with
  | nil => cases hb
  | cons a bs ih =>
    have first := onlyServed_sendBlock hf s q a x
    rcases List.mem_cons.1 hb with rfl | later
    · obtain ⟨j, d, sent⟩ := sends_sendBlock hf s q b hx
      exact ⟨j, d, (onlyServed_sendBlocks hf q x _ bs).kept rfl sent⟩
    · obtain ⟨j, d, sent⟩ := ih (s.sendBlock f q a x) later
      exact ⟨j, d, hf.place first.regs ▸ sent⟩

end Block

/-! ### The ROTATE commands of a sequence -/

/-- `t` differs from `s` in the Track alone. -/
def OnlyTrack (s t : State) : Prop := t = { s with track := t.track }

theorem OnlyTrack.trans {s t u : State} (h : OnlyTrack s t) (k : OnlyTrack t u) : OnlyTrack s u := by
  rw [OnlyTrack] at *
  rw [k, h]

theorem onlyTrack_putCmd (s : State) (c : TkCmd) : OnlyTrack s (s.putCmd c) := rfl

theorem onlyTrack_complete (s : State) (c : TkCmd) (a b : Nat) : OnlyTrack s (s.complete c a b) := rfl

theorem onlyTrack_rotateLook (s : State) (q : Nat) (came : Option Nat) : OnlyTrack s (s.rotateLook q came) := by
  unfold State.rotateLook
  generalize s.track.store.filter _ = l
  suffices h : ∀ t, OnlyTrack s t → OnlyTrack s (l.foldl _ t) from h s rfl
  induction l with
  | nil => exact fun _ h => h
  | cons c r ih =>
    intro t h
    refine ih _ ?_
    dsimp only
    split
    · exact h.trans (onlyTrack_complete _ _ _ _)
    · exact h.trans (onlyTrack_putCmd _ _)

/-! ### Skeins and their pins (R389, R390) -/

/-- `t` differs from `s` in Skeins and their pool, and in no sequence. -/
def OnlySkeins (s t : State) : Prop := t = { s with sk := { t.sk with seqs := s.sk.seqs } }

namespace OnlySkeins

variable {s t u : State}

theorem refl (s : State) : OnlySkeins s s := rfl

theorem trans (h : OnlySkeins s t) (k : OnlySkeins t u) : OnlySkeins s u := by
  rw [OnlySkeins] at *
  rw [k, h]

theorem seq? (h : OnlySkeins s t) (q : Nat) : t.seq? q = s.seq? q := (congrArg (State.seq? · q) h :)
theorem regs (h : OnlySkeins s t) : t.regs = s.regs := (congrArg State.regs h :)

theorem foldl {α : Type} {f : State → α → State} (hf : ∀ s a, OnlySkeins s (f s a)) (s : State) (l : List α) :
    OnlySkeins s (l.foldl f s) := by
  induction l generalizing s with
  | nil => exact .refl s
  | cons a l ih => exact (hf s a).trans (ih _)

end OnlySkeins

/-- Everything but the Skein Manager is as it was. -/
theorem OnlySkeins.onlySk {s t : State} (h : OnlySkeins s t) : t = { s with sk := t.sk } :=
  Eq.trans h (congrArg (fun k => ({ s with sk := k } : State)) (congrArg State.sk h).symm)

theorem onlySkeins_setSkein (s : State) (i : Nat) (x : Option Skein) : OnlySkeins s (s.setSkein i x) := rfl

theorem sk_give_seqs (k : Sk) (u l n : Nat) : (k.give u l n).seqs = k.seqs := by
  induction n generalizing k u l with
  | zero => rfl
  | succ n ih =>
    unfold Sk.give
    split
    · rfl
    · dsimp only
      split
      · exact ih _ _ _
      · rfl

theorem onlySkeins_skRelease (s : State) (i : Nat) : OnlySkeins s (s.skRelease i) := by
  unfold State.skRelease
  split
  · rfl
  · dsimp only
    split
    · rfl
    · next x _ _ =>
      have seqs := sk_give_seqs (s.setSkein i none).sk x.unit x.log 10
      rw [OnlySkeins]
      refine congrArg (fun k => ({ s with sk := k } : State)) ?_
      exact congrArg (fun l => ({ (s.setSkein i none).sk.give x.unit x.log 10 with seqs := l } : Sk)) seqs

theorem onlySkeins_dropRef (s : State) (i : Nat) : OnlySkeins s (s.dropRef i) := by
  unfold State.dropRef
  split
  · rfl
  · dsimp only
    split
    · rfl
    · split
      · rfl
      · exact (onlySkeins_setSkein s i _).trans (onlySkeins_skRelease _ i)

theorem onlySkeins_dropPin (s : State) (i : Nat) : OnlySkeins s (s.dropPin i) := by
  unfold State.dropPin
  split
  · rfl
  · dsimp only
    split
    · exact (onlySkeins_setSkein s i _).trans (onlySkeins_skRelease _ i)
    · rfl

theorem onlySkeins_addPin (s : State) (i : Nat) : OnlySkeins s (s.addPin i) := by
  unfold State.addPin
  split <;> rfl

theorem sk_take_seqs {k k' : Sk} {size log u : Nat} (h : k.take size log = some (u, k')) : k'.seqs = k.seqs := by
  unfold Sk.take at h
  split at h
  · cases h
    rfl
  · dsimp only at h
    split at h
    · cases h
      rfl
    · cases h

theorem onlySkeins_skNew {s t : State} {lane log i : Nat} (h : s.skNew lane log = some (t, i)) : OnlySkeins s t := by
  unfold State.skNew at h
  split at h
  · cases h
  · next u k taken =>
    cases h
    have seqs := sk_take_seqs taken
    rw [OnlySkeins, ← seqs]
    rfl

/-! ### A piece lands (R409) -/

/-- A sequence that is there stays there, and registers off the memory's blocks read as they did. -/
structure SeqStays (q : Nat) (s t : State) : Prop where
  live : (s.seq? q).isSome → (t.seq? q).isSome
  regs : OffMemoryKept s t

namespace SeqStays

variable {q : Nat} {s t u : State}

theorem refl (s : State) : SeqStays q s s := ⟨id, .refl s⟩

theorem trans (h : SeqStays q s t) (k : SeqStays q t u) : SeqStays q s u := ⟨fun l => k.live (h.live l), h.regs.trans k.regs⟩

theorem of_sk (h : t.sk = s.sk) (k : OffMemoryKept s t) : SeqStays q s t :=
  ⟨fun l => by rwa [State.seq?, h], k⟩

end SeqStays

theorem OnlySkeins.stays {s t : State} (h : OnlySkeins s t) (q : Nat) : SeqStays q s t :=
  ⟨fun l => by rwa [h.seq?], .of_regs h.regs⟩

theorem seq?_setSeq (s : State) (q : Nat) (x : Option Seq) : (s.setSeq q x).seq? q = x := spGet_spPut_same _ _ _

theorem seqStays_setSeq (s : State) (q : Nat) (x : Seq) : SeqStays q s (s.setSeq q (some x)) :=
  ⟨fun _ => by rw [seq?_setSeq]; rfl, .of_regs rfl⟩

theorem seqStays_ownWrite (s : State) (q i t a : Nat) (bs : List Byte) (e : MemErr) : SeqStays q s (s.ownWrite i t a bs e) :=
  .of_sk (congrArg State.sk (onlyAccessed_ownWrite s i t a bs e) :) (offMemory_ownWrite s i t a bs e)

theorem seqStays_copyUnits (s : State) (q t src dst n : Nat) : SeqStays q s (s.copyUnits t src dst n) := by
  induction n generalizing s src dst with
  | zero => exact .refl s
  | succ n ih =>
    have read : SeqStays q s (s.ownRead skIid t src 4096 {}).1 :=
      .of_sk (congrArg State.sk (onlyWalked_ownRead s skIid t src 4096 {}).rest :) (offMemory_ownRead s skIid t src 4096 {})
    exact (read.trans (seqStays_ownWrite _ _ _ _ _ _ _)).trans (ih _ _ _)

theorem seqStays_skFor (s : State) (q : Nat) (x : Seq) (r off : Nat) : SeqStays q s (s.skFor q x r off).1 := by
  unfold State.skFor
  extract_lets st log setLeaf
  have placed (t : State) (i : Nat) : SeqStays q t (setLeaf t i) := by
    dsimp only [setLeaf]
    split
    · exact seqStays_setSeq t q _
    · exact .refl t
  split
  · split
    · next made => exact ((onlySkeins_skNew made).stays q).trans (placed _ _)
    · exact .refl s
  · split
    · exact .refl s
    · split
      · exact .refl s
      · split
        · dsimp only
          split
          · exact (onlySkeins_setSkein s _ _).stays q
          · exact .refl s
        · split
          · exact .refl s
          · next made =>
            dsimp only
            refine SeqStays.trans ?_ ((onlySkeins_dropRef _ _).stays q)
            refine SeqStays.trans ?_ (placed _ _)
            refine SeqStays.trans ?_ (seqStays_copyUnits _ q _ _ _ _)
            exact (((onlySkeins_skNew made).trans (onlySkeins_addPin _ _)).trans (onlySkeins_dropPin _ _)).stays q

theorem seqStays_ringWrite (s : State) (q b r off : Nat) (bs : List Byte) (k : Nat) :
    SeqStays q s (s.ringWrite q b r off bs k).1 := by
  induction k generalizing s off bs with
  | zero => exact .refl s
  | succ k ih =>
    unfold State.ringWrite
    split
    · exact .refl s
    · split
      · exact .refl s
      · next x _ =>
        have found := seqStays_skFor s q x r off
        split
        · next hw =>
          rw [hw] at found
          exact found
        · next s1 i hw =>
          rw [hw] at found
          split
          · dsimp only
            refine SeqStays.trans ?_ (ih _ _ _)
            refine SeqStays.trans ?_ (seqStays_ownWrite _ _ _ _ _ _ _)
            refine found.trans ?_
            split
            · exact .refl s1
            · exact (seqStays_setSeq s1 q _).trans ((onlySkeins_addPin _ i).stays q)
          · exact found

/-- What the departure of a block leaves: everything but the Skein Manager. -/
theorem dropBlock_sk (s : State) (q b : Nat) : s.dropBlock q b = { s with sk := (s.dropBlock q b).sk } := by
  unfold State.dropBlock
  split
  · rfl
  · split
    · rfl
    · dsimp only
      exact ((OnlySkeins.foldl onlySkeins_dropPin _ _).trans (OnlySkeins.foldl onlySkeins_dropRef _ _)).onlySk

/-- A block that has come is counted once (R410, R412). -/
theorem get_blockCame {s : State} {q b : Nat} {x : Seq} {blk : RingBlk} (hx : s.seq? q = some x)
    (hb : spGet (fun _ => none) x.blocks b = some blk) : (s.blockCame q b).get SK_RING_STAT_RECEIVED =
      min (s.get SK_RING_STAT_RECEIVED + 1) (2 ^ SK_RING_STAT_RECEIVED.w - 1) := by
  have dropped (l : List (Nat × Nat)) (t : State) : (l.foldl (fun s y => s.dropBlock q y.1) t).regs = t.regs := by
    induction l generalizing t with
    | nil => rfl
    | cons y r ih => exact (ih _).trans (congrArg State.regs (dropBlock_sk t q y.1) :)
  unfold State.blockCame
  simp only [hx, hb]
  rw [get_of_regs (dropped _ _), setSv_get]
  split
  · split
    · rw [State.bump, get_put_ne _ _ _ _ (by decide) (by decide)]
      exact get_bump _ _ _ (by decide)
    · rw [State.bump, get_put_ne _ _ _ _ (by decide) (by decide)]
      exact get_bump _ _ _ (by decide)
  · exact get_bump _ _ _ (by decide)

theorem get_blockCame_entered (s : State) (q b : Nat) (x : Seq) (blk : RingBlk) :
    ((s.setSeq q (some { x with blocks := spPut (fun _ => none) x.blocks b (some blk) })).blockCame q b).get SK_RING_STAT_RECEIVED =
      min (s.get SK_RING_STAT_RECEIVED + 1) (2 ^ SK_RING_STAT_RECEIVED.w - 1) :=
  get_blockCame (seq?_setSeq _ _ _) (spGet_spPut_same x.blocks b (some blk))

/-- The sequence that a piece is for, where it is live and RING. -/
def State.ringSeq (s : State) (q : Nat) : Option Seq := (s.seq? q).filter fun x => x.ring && !x.freeing

theorem ringLand_absent {s : State} {src q b r : Nat} {bs : List Byte} {last : Bool} (h : s.ringSeq q = none) :
    s.ringLand src q b r bs last = (s, true) := by
  rw [State.ringSeq] at h
  rw [State.ringLand, h]

theorem ringLand_full {s : State} {src q b r : Nat} {bs : List Byte} {last : Bool} {x : Seq} (h : s.ringSeq q = some x)
    (hb : spGet (fun _ => none) x.blocks b = none) (hw : s.get SK_RING_CFG_WINDOW ≤ x.ringHeld) :
    s.ringLand src q b r bs last = (s, false) := by
  rw [State.ringSeq] at h
  rw [State.ringLand, h]
  simp [hb, hw]

/-- A last piece that lands is counted. -/
theorem get_ringLand_last {s : State} {src q b r : Nat} {bs : List Byte} {x : Seq} (h : s.ringSeq q = some x)
    (new : x.visits b = false) (lands : (s.ringLand src q b r bs true).2 = true) :
    (s.ringLand src q b r bs true).1.get SK_RING_STAT_RECEIVED =
      min (s.get SK_RING_STAT_RECEIVED + 1) (2 ^ SK_RING_STAT_RECEIVED.w - 1) := by
  have here : (s.seq? q).isSome := by
    rw [(Option.filter_eq_some_iff.1 h).1]
    rfl
  rw [State.ringSeq] at h
  rw [State.ringLand, h] at lands ⊢
  rw [Seq.visits] at new
  dsimp only at lands ⊢
  rw [new, if_neg Bool.false_ne_true] at lands ⊢
  split at lands
  · cases lands
  · next room =>
    rw [if_neg room]
    generalize hs0 : (if (spGet (fun _ => none) x.blocks b).isSome = true then s else _ : State) = s0 at lands ⊢
    have entered : SeqStays q s s0 := by
      rw [← hs0]
      split
      · exact .refl s
      · exact (seqStays_setSeq s q _).trans ⟨id, .of_regs rfl⟩
    have wrote := entered.trans (seqStays_ringWrite s0 q b r (x.nextOff b r) bs (bs.length / 4096 + 2))
    rcases hw : s0.ringWrite q b r (x.nextOff b r) bs (bs.length / 4096 + 2) with ⟨s1, _ | w⟩
    · rw [hw] at wrote
      obtain ⟨y, hy⟩ := Option.isSome_iff_exists.1 (wrote.live here)
      dsimp only at hy ⊢
      rw [hy, if_pos rfl]
      dsimp only
      rw [State.get, (onlyTrack_rotateLook _ _ _ : _ = _)]
      refine (get_blockCame_entered s1 q b y _).trans ?_
      have same : s1.get SK_RING_STAT_RECEIVED = s.get SK_RING_STAT_RECEIVED := wrote.regs.get (by decide)
      exact congrArg (fun n => min (n + 1) (2 ^ SK_RING_STAT_RECEIVED.w - 1)) same
    · rw [hw] at lands
      cases lands

theorem onlyQueued_ringForward (s : State) (hops q b r : Nat) (bs : List Byte) (last : Bool) :
    OnlyQueued s (s.ringForward hops q b r bs last) := by
  unfold State.ringForward
  split
  · exact .refl s
  · exact (onlyQueued_svE2e s _).trans (onlyQueued_svQueue _ _ rfl)

/-! ### RING_BLOCK and BLOCK_FETCH (R409, R410) -/

section RingBlock

variable {m : SvHead} {q : Fin 1024} {b r : Nat} {bs : List Byte} {last : Bool} {s : State}

theorem ringSeq_atDelivery (h : SvHead) (cls : Nat) (s : State) (q : Nat) : (AtDelivery h cls s).ringSeq q = s.ringSeq q := by
  rw [State.ringSeq, State.ringSeq, State.seq?, State.seq?, atDelivery_sk]

/-- A piece for which there is room goes on, and lands. -/
theorem svDeliver_ringBlock {u : State} {h : SvHead} {q : Nat} {e : MemErr} (lands : (u.ringLand h.src q b r bs last).2 = true) :
    u.svDeliver h (.ringBlock q b r bs last) e =
      (((u.ringForward h.hops q b r bs last).ringLand h.src q b r bs last).1.rotateLook q none, true) :=
  if_pos lands

theorem ringBlock_absent (ho : InOrder m 3 s) (hl : s.ringSeq q = none) : Completes (.ringBlock m q b r bs last) s fun t =>
    t.mem = s.mem ∧ t.sk = s.sk ∧ t.sv.full = [] ∧ .svCredit m.port m.lseq.toNat false 3 (svUnits m.len) ∈ t.outbox := by
  have live : (AtDelivery m 3 s).ringSeq q = none := (ringSeq_atDelivery m 3 s q).trans hl
  have sent := onlyQueued_ringForward (AtDelivery m 3 s) m.hops q b r bs last
  have gone : ((AtDelivery m 3 s).ringForward m.hops q b r bs last).ringSeq q = none := by
    rwa [State.ringSeq, State.seq?, sent.sk]
  have acts : (AtDelivery m 3 s).svDeliver m (.ringBlock q b r bs last) {} =
      (((AtDelivery m 3 s).ringForward m.hops q b r bs last).rotateLook q none, true) := by
    rw [svDeliver_ringBlock (by rw [ringLand_absent live]), ringLand_absent gone]
  have looked := onlyTrack_rotateLook ((AtDelivery m 3 s).ringForward m.hops q b r bs last) q none
  have sv := (congrArg State.sv looked :)
  refine ⟨_, exec_delivered rfl ho rfl acts, ?_, ?_, ?_, ?_⟩
  · exact ((congrArg State.mem looked :).trans sent.mem).trans (atDelivery_mem m 3 s)
  · exact ((congrArg State.sk looked :).trans sent.sk).trans (atDelivery_sk m 3 s)
  · exact ((congrArg Sv.full sv).trans sent.full).trans ho.full
  · have number : (spGet (fun _ => {}) (((AtDelivery m 3 s).ringForward m.hops q b r bs last).rotateLook q none).sv.ports
        m.port).rxLseq = m.lseq.toNat := by
      rw [sv]
      exact (sent.rxLseq _).trans (atDelivery_rxLseq m 3 s)
    exact number ▸ List.mem_cons_self

theorem ringBlock_waits {x : Seq} (ho : InOrder m 3 s) (hl : s.ringSeq q = some x)
    (hb : spGet (fun _ => none) x.blocks b = none) (hw : s.get SK_RING_CFG_WINDOW ≤ x.ringHeld) :
    Completes (.ringBlock m q b r bs last) s fun t => t.sk = s.sk ∧ t.sv.full = [⟨m, .ringBlock q b r bs last⟩] ∧
      t.outbox = s.outbox := by
  have stuck : (AtDelivery m 3 s).ringLand m.src q b r bs last = (AtDelivery m 3 s, false) :=
    ringLand_full ((ringSeq_atDelivery m 3 s q).trans hl) hb (by rwa [atDelivery_get m 3 s (by decide)])
  have acts : (AtDelivery m 3 s).svDeliver m (.ringBlock q b r bs last) {} = (AtDelivery m 3 s, false) := by
    simp [State.svDeliver, stuck]
  exact ⟨_, exec_waits rfl ho rfl acts, atDelivery_sk m 3 s, congrArg (· ++ [_]) ho.full, atDelivery_outbox m 3 s⟩

theorem ringBlock_counts {x : Seq} (ho : InOrder m 3 s) (hl : s.ringSeq q = some x) (ends : last = true)
    (new : x.visits b = false) (lands : ((AtDelivery m 3 s).ringLand m.src q b r bs last).2 = true)
    (after : (((AtDelivery m 3 s).ringForward m.hops q b r bs last).ringLand m.src q b r bs last).2 = true) :
    Completes (.ringBlock m q b r bs last) s fun t => t.get SK_RING_STAT_RECEIVED =
      min (s.get SK_RING_STAT_RECEIVED + 1) (2 ^ SK_RING_STAT_RECEIVED.w - 1) := by
  subst ends
  have sent := onlyQueued_ringForward (AtDelivery m 3 s) m.hops q b r bs true
  have live : ((AtDelivery m 3 s).ringForward m.hops q b r bs true).ringSeq q = some x := by
    rw [State.ringSeq, State.seq?, sent.sk]
    exact (ringSeq_atDelivery m 3 s q).trans hl
  have count : ((AtDelivery m 3 s).ringForward m.hops q b r bs true).get SK_RING_STAT_RECEIVED = s.get SK_RING_STAT_RECEIVED :=
    (get_of_regs sent.regs _).trans (atDelivery_get m 3 s (by decide))
  have looked := onlyTrack_rotateLook
    (((AtDelivery m 3 s).ringForward m.hops q b r bs true).ringLand m.src q b r bs true).1 q none
  have kept := (congrArg (fun v : State => v.get SK_RING_STAT_RECEIVED) looked :)
  refine ⟨_, exec_delivered rfl ho rfl (svDeliver_ringBlock lands), ?_⟩
  rw [← count, ← get_ringLand_last live new after]
  exact kept

theorem blockFetch_absent (ho : InOrder m 3 s) (hl : s.ringSeq q = none) :
    Completes (.blockFetch m q b) s fun t => t.sv.tx = s.sv.tx ∧ t.mem = s.mem := by
  have idle : (AtDelivery m 3 s).answerFetch m.src q b = AtDelivery m 3 s := by
    have live := (ringSeq_atDelivery m 3 s q).trans hl
    rw [State.ringSeq] at live
    rw [State.answerFetch, live]
  have acts : (AtDelivery m 3 s).svDeliver m (.blockFetch q b) {} = (AtDelivery m 3 s, true) := congrArg (·, true) idle
  exact ⟨_, exec_delivered rfl ho rfl acts, atDelivery_tx m 3 s, atDelivery_mem m 3 s⟩

theorem blockFetch_sends {x : Seq} (ho : InOrder m 3 s) (hl : s.ringSeq q = some x) (hx : x.regions ≠ []) :
    Completes (.blockFetch m q b) s fun t => ∃ j d, Sends m.src (.ringBlock q b j d true) t := by
  have answers : (AtDelivery m 3 s).answerFetch m.src q b =
      (AtDelivery m 3 s).sendBlock (fun s msg => s.svSend m.src msg) q b x := by
    have live := (ringSeq_atDelivery m 3 s q).trans hl
    rw [State.ringSeq] at live
    rw [State.answerFetch, live]
  have acts : (AtDelivery m 3 s).svDeliver m (.blockFetch q b) {} = (_, true) := congrArg (·, true) answers
  obtain ⟨j, d, sent⟩ := sends_sendBlock (sendsTo_svSend m.src) (AtDelivery m 3 s) q b hx
  exact ⟨_, exec_delivered rfl ho rfl acts, j, d, sent.of_sv rfl⟩

end RingBlock

end Sys2Proof.Machine
end

section
/-! Blocks of a ring sequence: rotated and released (R398, R409), and the statement about all the traffic (O60). -/

namespace Sys2Proof.Machine

open Reg

/-! ### KV_PIN ROTATE (R409) -/

theorem onlyAccessed_foreign (s : State) (i : Nat) (x : Seq) (bs : List Nat) : OnlyAccessed s (s.foreign i x bs).1 := by
  induction bs generalizing s with
  | nil => exact .refl s
  | cons b bs ih =>
    have owner : OnlyAccessed s (s.ringOwner i x b).1 := by
      have read := onlyAccessed_tenantRead s i x.tenant ((x.ownerVa + 2 * b) % 2 ^ 48) 2 {}
      unfold State.ringOwner
      dsimp only
      split <;> exact read
    unfold State.foreign
    split
    · next ho =>
      rw [ho] at owner
      exact owner
    · next s1 o ho =>
      rw [ho] at owner
      have others := ih s1
      split
      · next hr =>
        rw [hr] at others
        exact owner.trans others
      · next hr =>
        rw [hr] at others
        exact owner.trans others

section Rotate

variable {r : Fin 10} {n : BitVec 16} {c : TkCmd} {x : Seq} {s u : State}

/-- The blocks that a ROTATE or a RELEASE names. -/
def TkCmd.ringBlocks (c : TkCmd) : List Nat := (List.range (c.u 24 4 - c.u 20 4)).map (c.u 20 4 + ·)

theorem kvPinRotate_faults {f : Nat} (he : Executes r n (isPin 3) c s) (hc : s.cmdCode c = none) (hx : s.ringCmd c = .ok x)
    (hf : s.foreign skIid x c.ringBlocks = (u, .error f)) : Completes (.kvPinRotate r n) s fun t => t = u.complete c f 0 := by
  have read := onlyAccessed_foreign s skIid x c.ringBlocks
  rw [hf] at read
  rw [TkCmd.ringBlocks] at hf
  have ends : State.kvRotate c s = u.complete c f 0 := by
    simp only [State.kvRotate, hx, hf]
  exact completes_complete (exec_executes rfl he hc ends) read.pending read.boot rfl

/-- The own blocks of a ROTATE. -/
def ownBlocks (c : TkCmd) (fs : List Foreign) : List Nat := c.ringBlocks.filter fun b => !(fs.any fun f => f.block == b)

/-- The blocks that a ROTATE waits for. -/
def lackBlocks (x : Seq) (fs : List Foreign) : List Nat := (fs.map (·.block)).filter fun b => !x.visits b

/-- The state in which a ROTATE's own blocks have left. -/
def State.rotated (u : State) (c : TkCmd) (x : Seq) (fs : List Foreign) : State :=
  (ownBlocks c fs).foldl (fun s b => s.sendBlock (fun s m => s.svNeighbour 0 m) (c.u 16 2) b x) u

theorem exec_kvPinRotate {fs : List Foreign} (he : Executes r n (isPin 3) c s) (hc : s.cmdCode c = none)
    (hx : s.ringCmd c = .ok x) (hf : s.foreign skIid x c.ringBlocks = (u, .ok fs)) : exec (.kvPinRotate r n) s =
      s.done (((u.rotated c x fs).putCmd { c with phase := .running, waits := lackBlocks x fs }).rotateLook (c.u 16 2) none) := by
  rw [TkCmd.ringBlocks] at hf
  refine exec_executes rfl he hc ?_
  simp only [State.kvRotate, hx, hf]
  rfl

theorem kvPinRotate_sends {fs : List Foreign} (he : Executes r n (isPin 3) c s) (hc : s.cmdCode c = none)
    (hx : s.ringCmd c = .ok x) (hf : s.foreign skIid x c.ringBlocks = (u, .ok fs)) (hr : x.regions ≠ []) :
    Completes (.kvPinRotate r n) s fun t => ∀ b ∈ c.ringBlocks, (∀ f ∈ fs, f.block ≠ b) →
      ∃ j d, Sends ((u.svDev + 1) % u.svMembers) (.ringBlock (c.u 16 2) b j d true) t := by
  refine ⟨_, exec_kvPinRotate he hc hx hf, fun b hb own => ?_⟩
  have mine : b ∈ ownBlocks c fs := List.mem_filter.2 ⟨hb, by simpa using own⟩
  obtain ⟨j, d, sent⟩ := sends_sendBlocks sendsTo_svNeighbour (c.u 16 2) hr u mine
  have looked := onlyTrack_rotateLook ((u.rotated c x fs).putCmd { c with phase := .running, waits := lackBlocks x fs })
    (c.u 16 2) none
  exact ⟨j, d, sent.of_sv (congrArg State.sv looked :)⟩

/-- While a block is lacking, looking again leaves each running ROTATE as it is. -/
theorem mem_rotateLook {c' : TkCmd} {q : Nat} (lacks : c'.waits ≠ [])
    (same : ∀ y ∈ s.track.store, y.phase = .running → y = c') (hc : c' ∈ s.track.store) :
    c' ∈ (s.rotateLook q none).track.store := by
  have waits : (c'.waits.filter fun b => some b != none) = c'.waits := by simp
  have keeps (t : State) (h : c' ∈ t.track.store) : c' ∈ (t.putCmd c').track.store :=
    List.mem_map.2 ⟨c', h, by simp⟩
  unfold State.rotateLook
  generalize hl : s.track.store.filter _ = l
  have all : ∀ y ∈ l, y = c' := fun y hy => by
    rw [← hl] at hy
    obtain ⟨here, looks⟩ := List.mem_filter.1 hy
    simp only [Bool.and_eq_true, beq_iff_eq] at looks
    obtain ⟨⟨-, runs⟩, -⟩ := looks
    exact same y here runs
  clear hl
  suffices h : ∀ t : State, c' ∈ t.track.store → c' ∈ (l.foldl _ t).track.store from h s hc
  induction l with
  | nil => exact fun _ h => h
  | cons y l ih =>
    intro t h
    obtain rfl := all y List.mem_cons_self
    refine ih (fun z hz => all z (List.mem_cons_of_mem _ hz)) _ ?_
    dsimp only
    rw [waits, if_neg (by simp [lacks])]
    exact keeps t h

theorem kvPinRotate_waits {fs : List Foreign} (he : Executes r n (isPin 3) c s) (hc : s.cmdCode c = none)
    (hx : s.ringCmd c = .ok x) (hf : s.foreign skIid x c.ringBlocks = (u, .ok fs))
    (idle : ∀ y ∈ u.track.store, y.phase ≠ .running) (lacks : lackBlocks x fs ≠ []) (stored : c ∈ u.track.store) :
    Completes (.kvPinRotate r n) s fun t =>
      ∃ c' ∈ t.track.store, c'.csn = c.csn ∧ c'.phase = .running ∧ c'.waits = lackBlocks x fs := by
  have track : (u.rotated c x fs).track = u.track := (onlyServed_sendBlocks sendsTo_svNeighbour (c.u 16 2) x u _).track
  have put (y : TkCmd) : y ∈ ((u.rotated c x fs).putCmd { c with phase := .running, waits := lackBlocks x fs }).track.store ↔
      ∃ z ∈ u.track.store,
        (if z.req == c.req && z.csn == c.csn then { c with phase := .running, waits := lackBlocks x fs } else z) = y := by
    rw [← track]
    exact List.mem_map
  refine ⟨_, exec_kvPinRotate he hc hx hf, { c with phase := .running, waits := lackBlocks x fs }, ?_, rfl, rfl, rfl⟩
  refine mem_rotateLook lacks (fun y hy runs => ?_) ((put _).2 ⟨c, stored, by simp⟩)
  obtain ⟨z, hz, rfl⟩ := (put y).1 hy
  by_cases named : (z.req == c.req && z.csn == c.csn) = true
  · rw [if_pos named]
  · rw [if_neg named] at runs
    exact absurd runs (idle z hz)

end Rotate

/-! ### KV_PIN RELEASE (R409) -/

/-- Block b of sequence q is ABSENT. -/
def BlockAbsent (q b : Nat) (s : State) : Prop := ∀ y, s.seq? q = some y → spGet (fun _ => none) y.blocks b = none

/-- A block that leaves is ABSENT, and one that was ABSENT stays so. -/
theorem blockAbsent_dropBlock {s : State} {q a b : Nat} (h : a = b ∨ BlockAbsent q b s) : BlockAbsent q b (s.dropBlock q a) := by
  intro y hy
  unfold State.dropBlock at hy
  split at hy
  · next free =>
    rw [free] at hy
    cases hy
  · next x hx =>
    split at hy
    · next absent =>
      obtain rfl := Option.some.inj (hx.symm.trans hy)
      rcases h with rfl | h
      · exact absent
      · exact h x hx
    · dsimp only at hy
      rw [(OnlySkeins.foldl onlySkeins_dropRef _ _).seq?, (OnlySkeins.foldl onlySkeins_dropPin _ _).seq?, seq?_setSeq] at hy
      obtain rfl := Option.some.inj hy
      dsimp only
      rw [spGet_spPut]
      split
      · rfl
      · next other => exact h.elim (fun e => absurd e other) fun h => h x hx

theorem blockAbsent_dropBlocks {s : State} {q b : Nat} {l : List Nat} (h : b ∈ l ∨ BlockAbsent q b s) :
    BlockAbsent q b (l.foldl (fun s a => s.dropBlock q a) s) := by
  induction l generalizing s with
  | nil => exact h.resolve_left List.not_mem_nil
  | cons a l ih =>
    refine ih ?_
    rcases h with named | absent
    · rcases List.mem_cons.1 named with rfl | later
      · exact .inr (blockAbsent_dropBlock (.inl rfl))
      · exact .inl later
    · exact .inr (blockAbsent_dropBlock (.inr absent))

theorem mem_of_spGet_some {α : Type} {m : Sparse (Option α)} {k : Nat} {v : α} (h : spGet (fun _ => none) m k = some v) :
    (k, some v) ∈ m := by
  induction m with
  | nil => cases h
  | cons p r ih =>
    obtain ⟨i, w⟩ := p
    rw [spGet] at h
    split at h
    · next e => rw [e, h]; exact List.mem_cons_self
    · exact List.mem_cons_of_mem _ (ih h)

theorem kvPinRelease_absent {r : Fin 10} {n : BitVec 16} {c : TkCmd} {x : Seq} {s : State} (he : Executes r n (isPin 4) c s)
    (hc : s.cmdCode c = none) (hx : s.ringCmd c = .ok x) (hf : s.sv.full = []) :
    Completes (.kvPinRelease r n) s fun t => ∀ b y, c.u 20 4 ≤ b → b < c.u 24 4 → x.visits b = true →
      t.seq? (c.u 16 2) = some y → spGet (fun _ => none) y.blocks b = none := by
  let bs := x.blocks.filterMap fun p => if c.u 20 4 ≤ p.1 ∧ p.1 < c.u 24 4 ∧ x.visits p.1 then some p.1 else none
  let v := bs.foldl (fun s b => s.dropBlock (c.u 16 2) b) s
  have sv : v.sv = s.sv := by
    have kept (l : List Nat) (t : State) : (l.foldl (fun s b => s.dropBlock (c.u 16 2) b) t).sv = t.sv := by
      induction l generalizing t with
      | nil => rfl
      | cons b l ih => exact (ih _).trans (congrArg State.sv (dropBlock_sk t _ b) :)
    exact kept bs s
  have released : State.kvRelease c s = v.complete c 0 (c.u 16 2) := by
    simp only [State.kvRelease, hx]
    rfl
  have emptied : (s.runCmd r n (isPin 4) State.kvRelease).sv.full = [] := by
    rw [runCmd_executes he hc, released]
    exact (congrArg Sv.full sv).trans hf
  have goes : (s.runCmd r n (isPin 4) State.kvRelease).ringRetry =
      (v.complete c 0 (c.u 16 2)).setSv fun w => { w with full := [] } := by
    rw [State.ringRetry, emptied, runCmd_executes he hc, released]
    rfl
  refine ⟨_, congrArg s.done goes, fun b y low high visits hy => ?_⟩
  have named : b ∈ bs := by
    rcases hb : spGet (fun _ => none) x.blocks b with _ | blk
    · rw [Seq.visits, hb] at visits
      cases visits
    · exact List.mem_filterMap.2 ⟨(b, blk), mem_of_spGet_some hb, if_pos ⟨low, high, visits⟩⟩
  exact blockAbsent_dropBlocks (.inl named) y hy

/-! ### The statement -/

/-- Settles O60: a message in order acts at once; each row has the effect of its own operation, and a message that does not go stale is
held by a port until it is acknowledged. -/
theorem mirrorPoolAndRingTraffic : Obligations.MirrorPoolAndRingTraffic := by
  unfold Obligations.MirrorPoolAndRingTraffic
  exact ⟨fun m a ls e s ho => ⟨mirrorWr_refused ho, mirrorWr_writes ho, mirrorWr_clashes ho⟩,
    fun m a st s ho => ⟨mirrorAck_takes ho, fun c => mirrorAck_completes ho,
      fun d bad => ⟨poolRdData_ignored ho, poolWrAck_ignored ho⟩⟩,
    fun m a n ls k e s ho => ⟨fun c => poolRd_refused ho, poolRd_reads ho, fun c => poolWr_refused ho, poolWr_writes ho⟩,
    fun m q b r bs last s ho => ⟨ringBlock_absent ho, fun x => ringBlock_waits ho,
      fun x => ringBlock_counts ho, blockFetch_absent ho, fun x => blockFetch_sends ho⟩,
    fun s => ⟨resilver_idle, fun g z r => resilver_sends⟩,
    fun r n c x s hc hx hf => ⟨fun he => ⟨fun u f => kvPinRotate_faults he hc hx, fun u fs found idle =>
      ⟨kvPinRotate_sends he hc hx found, kvPinRotate_waits he hc hx found idle⟩⟩, fun he => kvPinRelease_absent he hc hx hf⟩⟩

end Sys2Proof.Machine
end

section
/-! The bytes and poison marks of the memories: what the Reel cache, reads and writes of lines, and poisoning leave of them
(R426-R432, R470). -/

namespace Sys2Proof.Machine

open Reg

/-! ### Sparse arrays -/

/-- A read of an array from which a property of the index has picked the entries. -/
theorem spGet_filter {α : Type} {d : Nat → α} (m : Sparse α) (p : Nat → Bool) (k : Nat) :
    spGet d (m.filter fun q => p q.1) k = if p k then spGet d m k else d k := by
  induction m with
  | nil => simp
  | cons q r ih =>
    obtain ⟨i, v⟩ := q
    cases hp : p i with
    | false =>
      rw [List.filter_cons_of_neg (by simp [hp]), ih]
      by_cases e : i = k
      · rw [← e, hp]; rfl
      · rw [spGet, if_neg e]
    | true =>
      rw [List.filter_cons_of_pos (by simp [hp])]
      by_cases e : i = k
      · rw [← e, hp]; simp [spGet]
      · rw [spGet, if_neg e, ih, spGet, if_neg e]

/-- The bytes that wait for the Reel are put on it: each is what the Reel then holds, and every other byte is as before. -/
theorem spGet_foldPut_waiting (l : Sparse (Option Byte)) (r : Sparse Byte) (k : Nat) (h : spWf (fun _ => none) l = true) :
    spGet (fun _ => 0) (l.foldl (fun r p => spPut (fun _ => 0) r p.1 (p.2.getD 0)) r) k =
      (spGet (fun _ => none) l k).getD (spGet (fun _ => 0) r k) := by
  induction l generalizing r with
  | nil => rfl
  | cons p l ih =>
    obtain ⟨i, v⟩ := p
    obtain ⟨present, above, rest⟩ := spWf_cons.1 h
    obtain ⟨b, rfl⟩ := Option.ne_none_iff_exists'.1 present
    rw [List.foldl_cons, ih _ rest, spGet_spPut, spGet]
    by_cases e : i = k
    · rw [if_pos e, if_pos e, spGet_lt l k (e ▸ above)]; rfl
    · rw [if_neg e, if_neg e]

/-! ### The Reel cache moves data without changing them (R429-R431) -/

/-- The byte of the memory at a DPA. -/
def Mem.byte (m : Mem) (a : Nat) : Byte :=
  if isReel a then (spGet (fun _ => none) m.reelNew a).getD (spGet (fun _ => 0) m.reel a) else spGet (fun _ => 0) m.bob a

theorem byteAt_eq_byte (s : State) (a : Nat) : s.byteAt a = s.mem.byte a := rfl

/-- `n` holds the bytes and the poison marks of `m`. -/
structure Mem.SameData (m n : Mem) : Prop where
  byte : ∀ a, n.byte a = m.byte a
  poison : n.poison = m.poison

namespace Mem

theorem SameData.refl (m : Mem) : SameData m m := ⟨fun _ => rfl, rfl⟩

theorem SameData.trans {m n o : Mem} (h : SameData m n) (k : SameData n o) : SameData m o :=
  ⟨fun a => (k.byte a).trans (h.byte a), k.poison.trans h.poison⟩

/-- A line that reaches the Reel reads as it did while it waited. -/
theorem sameData_toReel (m : Mem) (l : Nat) (h : m.wf = true) : SameData m (m.toReel l) := by
  obtain ⟨-, -, waiting, -⟩ := m.wf_iff.1 h
  have left (a : Nat) := spGet_filter (d := fun _ => none) m.reelNew (fun i => i / 16384 != l) a
  have moved (a : Nat) := spGet_filter (d := fun _ => none) m.reelNew (fun i => i / 16384 == l) a
  refine ⟨fun a => ?_, rfl⟩
  simp only [byte, toReel]
  rw [spGet_foldPut_waiting _ _ _ (spWf_filter _ _ waiting), left, moved]
  by_cases e : a / 16384 = l <;> simp [e]

theorem sameData_toReels (ls : List Nat) (m : Mem) (h : m.wf = true) : SameData m (ls.foldl toReel m) := by
  induction ls generalizing m with
  | nil => exact .refl m
  | cons l r ih => exact (m.sameData_toReel l h).trans (ih _ (m.wf_toReel l h))

theorem sameData_drain (m : Mem) (h : m.wf = true) : SameData m m.drain := by
  unfold drain
  split
  · exact .refl m
  · obtain ⟨byte, poison⟩ := m.sameData_toReel _ h
    exact ⟨byte, poison⟩

theorem sameData_evict (m : Mem) (x : Option (Nat × Bool)) (h : m.wf = true) : SameData m (m.evict x) := by
  unfold evict
  split
  · obtain ⟨byte, poison⟩ := m.sameData_drain h
    split
    · exact ⟨byte, poison⟩
    · exact ⟨fun _ => rfl, rfl⟩
  · exact .refl m

theorem sameData_clean (m : Mem) (ls : List Nat) (h : m.wf = true) : SameData m (m.clean ls) := by
  unfold clean
  refine SameData.trans ?_ (sameData_toReels ls _ h)
  exact ⟨fun _ => rfl, rfl⟩

end Mem

theorem sameData_reelTouch (s : State) (l : Nat) (wr : Bool) (h : s.mem.wf = true) : s.mem.SameData (s.reelTouch l wr).mem := by
  unfold State.reelTouch
  dsimp only
  split
  · exact ⟨fun _ => rfl, rfl⟩
  · split
    · split
      · obtain ⟨byte, poison⟩ := Mem.sameData_evict { s.mem with wb := s.mem.wb.filter (· != l) } _ h
        exact ⟨byte, poison⟩
      · exact .refl _
    · obtain ⟨byte, poison⟩ := Mem.sameData_evict { s.mem with filling := l :: s.mem.filling.filter (· != l) } _ h
      exact ⟨byte, poison⟩

theorem sameData_reelTouches (a : Nat) (wr : Bool) (l : List Nat) (s : State) (h : s.mem.wf = true) :
    s.mem.SameData (l.foldl (fun s i => s.reelTouch (a + i) wr) s).mem := by
  induction l generalizing s with
  | nil => exact .refl _
  | cons x r ih => exact (sameData_reelTouch s _ wr h).trans (ih _ (mem_reelTouch s _ wr h))

theorem sameData_reelSpan (s : State) (a n : Nat) (wr : Bool) (h : s.mem.wf = true) : s.mem.SameData (s.reelSpan a n wr).mem := by
  unfold State.reelSpan
  split
  · cases wr with
    | false => exact sameData_reelTouches _ false _ s h
    | true => exact sameData_reelTouches _ true _ (s.putB MC_PWR_STAT_OFF_READY false) h
  · exact .refl _

end Sys2Proof.Machine
end

section
/-! Accesses to lines keep the bytes and the registers of the Pool's ranges; writes where there is no protection, and reads that meet
no error (R426, R427, R457). -/

namespace Sys2Proof.Machine

open Reg

/-! ### Accesses to lines (R426, R427) -/

/-- `t` has the bytes of `s`, and the registers of the Pool's ranges. -/
structure DataKept (s t : State) : Prop where
  bytes : ∀ a, t.byteAt a = s.byteAt a
  ranges : ∀ o, 0xA01000 ≤ o → o < 0xA03000 → t.reg o = s.reg o

namespace DataKept

variable {s t u : State}

theorem refl (s : State) : DataKept s s := ⟨fun _ => rfl, fun _ _ _ => rfl⟩

theorem trans (h : DataKept s t) (k : DataKept t u) : DataKept s u :=
  ⟨fun a => (k.bytes a).trans (h.bytes a), fun o low high => (k.ranges o low high).trans (h.ranges o low high)⟩

theorem setReg (h : DataKept s t) {o : Nat} (v : Word) (ho : o < 0xA01000 ∨ 0xA03000 ≤ o) : DataKept s (t.setReg o v) :=
  h.trans ⟨fun _ => rfl, fun _ _ _ => reg_setReg_ne t v (by omega)⟩

theorem bump (h : DataKept s t) {f : Fld} (n : Nat) (hf : f.off < 0xA01000 ∨ 0xA03000 ≤ f.off) : DataKept s (t.bump f n) :=
  h.setReg _ hf

theorem report (h : DataKept s t) (c i : Nat) : DataKept s (t.report c i) :=
  h.trans ⟨fun a => by simp only [byteAt_eq_byte, (onlyRegs_report t c i).mem],
    fun _ low _ => reg_report (by simp only [GLB_FAULT_COUNT]; omega) t c i⟩

theorem setPoison (h : DataKept s t) (l : Nat) (b : Bool) : DataKept s (t.setPoison l b) :=
  h.trans ⟨fun _ => rfl, fun _ _ _ => rfl⟩

theorem poisonLines (h : DataKept s t) (l n : Nat) : DataKept s (t.poisonLines l n) := by
  induction n generalizing t l with
  | zero => exact h
  | succ n ih => exact ih (h.setPoison l true) _

end DataKept

theorem reg_reelTouch (s : State) (l : Nat) (wr : Bool) {o : Nat} (low : 0xA01000 ≤ o) : (s.reelTouch l wr).reg o = s.reg o := by
  unfold State.reelTouch
  dsimp only
  split
  · rfl
  · split
    · split <;> rfl
    · exact reg_bump_ne _ _ (by simp only [whole, MEM_RC_MISS]; omega)

theorem dataKept_reelSpan (s : State) (a n : Nat) (wr : Bool) (h : s.mem.wf = true) : DataKept s (s.reelSpan a n wr) := by
  refine ⟨(sameData_reelSpan s a n wr h).byte, fun o low high => ?_⟩
  have touches (l : List Nat) (t : State) : (l.foldl (fun s i => s.reelTouch (a / 16384 + i) wr) t).reg o = t.reg o := by
    induction l generalizing t with
    | nil => rfl
    | cons x r ih => exact (ih _).trans (reg_reelTouch t _ wr low)
  unfold State.reelSpan
  split
  · rw [touches]
    split
    · exact reg_putB_ne _ _ (by simp only [MC_PWR_STAT_OFF_READY, MC_PWR_STAT]; omega)
    · rfl
  · rfl

theorem dataKept_eccUe (s : State) (i l : Nat) : DataKept s (s.eccUe i l) := by
  have few := bobbinOf_lt (l * 64)
  unfold State.eccUe
  split
  · exact ((DataKept.refl s).bump _ (by decide)).report _ _
  · exact ((((DataKept.refl s).bump _ (by simp only [whole, MEM_ECC_UE]; omega)).setReg _
      (by simp only [MEM_ECC_ADDR_LO]; omega)).setReg _ (by simp only [MEM_ECC_ADDR_LO]; omega)).report _ _

theorem dataKept_recover (s : State) (i l : Nat) (e : MemErr) : DataKept s (s.recover i l e).1 := by
  have told (c : Nat) : DataKept s (s.report c i) := (DataKept.refl s).report c i
  unfold State.recover State.recoverBy
  split
  · dsimp only
    split
    · split
      · exact told _
      · exact (DataKept.refl s).bump _ (by decide)
    · split
      · split
        · exact told _
        · exact .refl s
      · exact .refl s
  · exact .refl s

theorem dataKept_lineRead (s : State) (i l : Nat) (e : MemErr) : DataKept s (s.lineRead i l e).1 := by
  have few := bobbinOf_lt (l * 64)
  have tried := (dataKept_eccUe s i l).trans (dataKept_recover _ i l e)
  unfold State.lineRead
  dsimp only
  split
  · exact .refl s
  · split
    · split
      · dsimp only
        exact tried.poisonLines _ _
      · exact tried
    · split
      · split
        · exact (DataKept.refl s).bump _ (by decide)
        · exact (DataKept.refl s).bump _ (by simp only [whole, MEM_ECC_CE]; omega)
      · exact .refl s

theorem dataKept_lineWrite (s : State) (i l : Nat) (w : Bool) (e : MemErr) : DataKept s (s.lineWrite i l w e) := by
  unfold State.lineWrite
  split
  · exact (DataKept.refl s).setPoison l false
  · dsimp only
    split
    · exact (dataKept_lineRead s i l e).setPoison l true
    · exact dataKept_lineRead s i l e

theorem dataKept_linesWrite (s : State) (i a n l : Nat) (e : MemErr) (k : Nat) : DataKept s (s.linesWrite i a n l e k) := by
  induction k generalizing s l with
  | zero => exact .refl s
  | succ k ih => exact (dataKept_lineWrite s i l _ e).trans (ih _ _)

/-! ### A write where there is no protection (R427, R457) -/

theorem firstIdx_eq_none (p : Nat → Bool) (n : Nat) : firstIdx p n = none ↔ ∀ i, i < n → p i = false := by
  induction n with
  | zero => simp [firstIdx]
  | succ n ih =>
    rw [Nat.forall_lt_succ_right, ← ih, firstIdx]
    cases firstIdx p n with
    | some k => simp
    | none => cases p n <;> simp

theorem protOf_eq_none (s : State) (a : Nat) : s.protOf a = none ↔
    (∀ r, r < 16 → s.rgnHas r a = false) ∧ ∀ x, x < 32 → s.extHas x a = false := by
  rw [State.protOf, Option.or_eq_none_iff, Option.map_eq_none_iff, Option.map_eq_none_iff, firstIdx_eq_none, firstIdx_eq_none]

theorem rgnHas_congr {s t : State} {r : Nat} (base : t.reg (PL_RGN_BASE r) = s.reg (PL_RGN_BASE r))
    (size : t.reg (PL_RGN_SIZE r) = s.reg (PL_RGN_SIZE r)) (a : Nat) : t.rgnHas r a = s.rgnHas r a := by
  rw [State.rgnHas, State.rgnHas, base, size]

theorem extHas_congr {s t : State} {x : Nat} (base : t.reg (PL_EXT_BASE x) = s.reg (PL_EXT_BASE x))
    (size : t.reg (PL_EXT_SIZE x) = s.reg (PL_EXT_SIZE x)) (state : t.reg (PL_EXT_STATE x) = s.reg (PL_EXT_STATE x)) (a : Nat) :
    t.extHas x a = s.extHas x a := by
  have free : t.get (PL_EXT_STATE_STATE x) = s.get (PL_EXT_STATE_STATE x) := get_congr state
  rw [State.extHas, State.extHas, base, size, free]

/-- Where no range holds a DPA, none does after the lines have been accessed. -/
theorem DataKept.protOf {s t : State} (h : DataKept s t) {a : Nat} (hp : s.protOf a = none) : t.protOf a = none := by
  obtain ⟨regions, extents⟩ := (protOf_eq_none s a).1 hp
  refine (protOf_eq_none t a).2 ⟨fun r few => ?_, fun x few => ?_⟩
  · have kept (o : Nat) (ho : 0xA01000 + 0x20 * r ≤ o ∧ o < 0xA01020 + 0x20 * r) := h.ranges o (by omega) (by omega)
    exact (rgnHas_congr (kept _ (by simp only [PL_RGN_BASE]; omega)) (kept _ (by simp only [PL_RGN_SIZE]; omega)) a).trans
      (regions r few)
  · have kept (o : Nat) (ho : 0xA02000 + 0x10 * x ≤ o ∧ o < 0xA02010 + 0x10 * x) := h.ranges o (by omega) (by omega)
    exact (extHas_congr (kept _ (by simp only [PL_EXT_BASE]; omega)) (kept _ (by simp only [PL_EXT_SIZE]; omega))
      (kept _ (by simp only [PL_EXT_STATE]; omega)) a).trans (extents x few)

/-- A write outside every range of the Pool places its bytes and no other. -/
theorem dpaWrite_unprotected {s : State} {a : Nat} (i : Nat) (bs : List Byte) (e : MemErr) (h : s.mem.wf = true)
    (hp : s.protOf a = none) : (∀ j, j < bs.length → (s.dpaWrite i a bs e).byteAt (a + j) = bs.getD j 0) ∧
      ∀ b, b < a ∨ a + bs.length ≤ b → (s.dpaWrite i a bs e).byteAt b = s.byteAt b := by
  let t := (s.reelSpan a bs.length true).linesWrite i a bs.length (a / 64) e ((a + bs.length - 1) / 64 - a / 64 + 1)
  have lines : DataKept s t := (dataKept_reelSpan s a _ true h).trans (dataKept_linesWrite _ i a _ _ e _)
  cases bs with
  | nil => exact ⟨fun j few => absurd few (Nat.not_lt_zero j), fun _ _ => rfl⟩
  | cons x r =>
    have free : ({ t with mem := t.mem.puts a (x :: r) } : State).protOf a = none := lines.protOf hp
    have writes : s.dpaWrite i a (x :: r) e = { t with mem := t.mem.puts a (x :: r) } := by
      rw [State.dpaWrite, if_neg (by simp)]
      dsimp only
      rw [free]
    rw [writes]
    exact ⟨fun j few => byteAt_puts_in _ t a j few, fun b out => (byteAt_puts_out _ t a b out).trans (lines.bytes b)⟩

/-! ### Poison marks -/

theorem poisoned_setPoison (s : State) (l j : Nat) (b : Bool) : (s.setPoison l b).poisoned j = if l = j then b else s.poisoned j :=
  spGet_spPut _ _ _ _

/-- The lines that are poisoned after `n` lines from `l` on have been. -/
theorem poisoned_poisonLines (s : State) (l n j : Nat) :
    (s.poisonLines l n).poisoned j = (decide (l ≤ j ∧ j < l + n) || s.poisoned j) := by
  induction n generalizing s l with
  | zero => simp [State.poisonLines]
  | succ n ih =>
    rw [State.poisonLines, ih, poisoned_setPoison]
    by_cases e : l = j
    · simp [e]
    · have same : (l + 1 ≤ j ∧ j < l + 1 + n) ↔ (l ≤ j ∧ j < l + (n + 1)) := by omega
      rw [if_neg e, decide_eq_decide.2 same]

/-- A poisoned run of lines holds every line of a run of bytes. -/
theorem poisoned_span (s : State) {a n i : Nat} (h : i < n) :
    (s.poisonLines (a / 64) ((a + n - 1) / 64 - a / 64 + 1)).poisoned ((a + i) / 64) = true := by
  rw [poisoned_poisonLines, decide_eq_true (by omega), Bool.true_or]

/-! ### A read that meets no error -/

/-- Lines without poison and without an error of ECC deliver what they hold. -/
theorem linesRead_clean {s : State} {l n : Nat} (i : Nat) (h : ∀ j, l ≤ j → j < l + n → s.poisoned j = false) :
    s.linesRead i l {} n = (s, []) := by
  induction n generalizing l with
  | zero => rfl
  | succ n ih =>
    have line : s.lineRead i l {} = (s, false) := by
      rw [State.lineRead, h l (Nat.le_refl l) (by omega)]
      rfl
    rw [State.linesRead, line]
    dsimp only
    rw [ih fun j low high => h j (by omega) (by omega)]
    rfl

theorem bytesAt_congr {s t : State} (h : ∀ b, t.byteAt b = s.byteAt b) (a n : Nat) : t.bytesAt a n = s.bytesAt a n := by
  induction n generalizing a with
  | zero => rfl
  | succ n ih => rw [State.bytesAt, State.bytesAt, h, ih]

/-- A read that meets neither poison nor an error brings its lines into the Reel cache and returns the bytes. -/
theorem dpaRead_clean {s : State} {a n : Nat} (i : Nat) (h : s.mem.wf = true) (hn : 1 ≤ n)
    (clean : ∀ j, j < n → s.poisoned ((a + j) / 64) = false) :
    s.dpaRead i a n {} = (s.reelSpan a n false, s.bytesAt a n, []) := by
  obtain ⟨byte, poison⟩ := sameData_reelSpan s a n false h
  have lines : (s.reelSpan a n false).linesRead i (a / 64) {} ((a + n - 1) / 64 - a / 64 + 1) = (s.reelSpan a n false, []) := by
    refine linesRead_clean i fun j low high => ?_
    have held : j = (a + (max (j * 64) a - a)) / 64 := by omega
    rw [State.poisoned, poison, held]
    exact clean _ (by omega)
  rw [State.dpaRead, if_neg (by omega)]
  dsimp only
  rw [lines, bytesAt_congr byte]

end Sys2Proof.Machine
end

section
/-! The pool window: its checks, and what an admitted and a refused request come to (R474, R532-R534; O52). -/

namespace Sys2Proof.Machine

open Reg

/-! ### The checks of an access look past the fault registers (R457, R532, R538) -/

section Checks

variable {s t : State} (regs : ∀ o, 0x18 < o → t.reg o = s.reg o)

include regs

theorem fenceOk_kept (boot : t.boot = s.boot) (i a n : Nat) (wr : Bool) : t.fenceOk i a n wr = s.fenceOk i a n wr := by
  have entry (e : Nat) : t.fenceEntry e i a n wr = s.fenceEntry e i a n wr := by
    have admits := regs (if wr then HI_FENCE_WR e else HI_FENCE_RD e) (by simp only [HI_FENCE_WR, HI_FENCE_RD]; split <;> omega)
    rw [State.fenceEntry, State.fenceEntry, admits, regs (HI_FENCE_FIRST e) (by simp only [HI_FENCE_FIRST]; omega),
      regs (HI_FENCE_LAST e) (by simp only [HI_FENCE_LAST]; omega)]
  simp only [State.fenceOk, State.locked, boot, entry]

theorem rgnHas_kept (r a : Nat) : t.rgnHas r a = s.rgnHas r a :=
  rgnHas_congr (regs _ (by simp only [PL_RGN_BASE]; omega)) (regs _ (by simp only [PL_RGN_SIZE]; omega)) a

theorem extHas_kept (x a : Nat) : t.extHas x a = s.extHas x a :=
  extHas_congr (regs _ (by simp only [PL_EXT_BASE]; omega)) (regs _ (by simp only [PL_EXT_SIZE]; omega))
    (regs _ (by simp only [PL_EXT_STATE]; omega)) a

theorem protOf_kept (a : Nat) : t.protOf a = s.protOf a := by
  have rgn : t.rgnProt = s.rgnProt := by
    funext r
    simp (disch := omega) only [State.rgnProt, State.is, State.get, PL_RGN_BASE, PL_RGN_CFG, PL_RGN_CFG_PROT, PL_RGN_CFG_ERR_MODE, regs]
  have ext : t.extProt = s.extProt := by
    funext x
    simp (disch := omega) only [State.extProt, State.is, State.get, PL_EXT_BASE, PL_EXT_STATE, PL_EXT_STATE_PROT,
      PL_EXT_STATE_ERR_MODE, regs]
  simp only [State.protOf, rgn, ext, rgnHas_kept regs, extHas_kept regs]

theorem poolCheck_kept (pool : t.pool = s.pool) (w : Who) (a : Nat) (wr : Bool) : t.poolCheck w a wr = s.poolCheck w a wr := by
  have region (r : Nat) : t.rgnDenies r w wr = s.rgnDenies r w wr := by
    simp (disch := omega) only [State.rgnDenies, State.rgnState, State.get, PL_RGN_CFG, PL_RGN_CFG_STATE, PL_RGN_CFG_WRITER,
      PL_RGN_READERS, pool, regs]
  have extent (x : Nat) : t.extDenies x w wr = s.extDenies x w wr := by
    have state {f : Fld} (hf : f.off = PL_EXT_STATE x) : t.get f = s.get f :=
      get_congr (regs _ (by rw [hf]; simp only [PL_EXT_STATE]; omega))
    unfold State.extDenies State.is
    rw [state (f := PL_EXT_STATE_STATE x) rfl, state (f := PL_EXT_STATE_HOLDER x) rfl, state (f := PL_EXT_STATE_WR x) rfl]
  have on : t.is PL_CTL_EN = s.is PL_CTL_EN := is_congr (regs _ (by decide))
  simp only [State.poolCheck, on, region, extent, rgnHas_kept regs, extHas_kept regs, protOf_kept regs]

theorem pwinCheck_kept (pool : t.pool = s.pool) (boot : t.boot = s.boot) (k off n : Nat) (wr : Bool) :
    t.pwinCheck k off n wr = s.pwinCheck k off n wr := by
  have size : t.get MEM_RC_CFG_SIZE = s.get MEM_RC_CFG_SIZE := get_congr (regs _ (by decide))
  have backed (a : Nat) : t.pwinBacked a = s.pwinBacked a := by
    rw [State.pwinBacked, State.pwinBacked, State.isBobData, State.isBobData, State.cacheBytes, State.cacheBytes, size]
  have base := regs (HI_PWIN_BASE k) (by simp only [HI_PWIN_BASE]; omega)
  have long := regs (HI_PWIN_SIZE k) (by simp only [HI_PWIN_SIZE]; omega)
  simp only [State.pwinCheck, State.dpaCheck, backed, base, long, fenceOk_kept regs boot, poolCheck_kept regs pool]

end Checks

/-! ### The pool window (R474, R532, R534) -/

/-- Lines that are poisoned: no more than their marks changes. -/
theorem poisonLines_eq (s : State) (l n : Nat) : ∃ p, s.poisonLines l n = { s with mem := { s.mem with poison := p } } := by
  induction n generalizing s l with
  | zero => exact ⟨s.mem.poison, rfl⟩
  | succ n ih => exact ih (s.setPoison l true) (l + 1)

section Window

variable {s : State} {k : Fin 8} {off n : Nat} {data : List Byte} {ep : Bool} {e : MemErr}

/-- The DPA of an offset in the pool window of function k. -/
def State.pwinAddr (s : State) (k off : Nat) : Nat := 2 ^ 21 * ((s.reg (HI_PWIN_BASE k)).toNat % 2 ^ 19) + off

theorem pwinAccess_refused {wr : Bool} (hq : s.pwinReq k off n wr data = true) {c : Nat} (hc : s.pwinCheck k off n wr = some c) :
    s.pwinAccess k off wr n data false e = s.pwinRefuse k wr n c := by
  rw [State.pwinAccess, hq, Bool.and_false, if_neg (by decide)]
  dsimp only
  rw [if_neg (by decide), hc]

theorem pwinAccess_reads (hq : s.pwinReq k off n false data = true) (hc : s.pwinCheck k off n false = none) :
    s.pwinAccess k off false n data ep e = s.pwinRead k (s.pwinAddr k off) n e := by
  rw [State.pwinAccess, hq, Bool.false_and, if_neg (by decide)]
  dsimp only
  rw [if_neg (by decide), hc]
  rfl

/-- The report of a write with EP set (R534). -/
def State.epReported (s : State) (k : Nat) (ep : Bool) : State := if ep then s.report 0x9008 k else s

theorem onlyRegs_epReported (s : State) (k : Nat) (ep : Bool) : OnlyRegs s (s.epReported k ep) := by
  unfold State.epReported
  split
  · exact onlyRegs_report s _ _
  · exact .refl s

theorem reg_epReported (s : State) (k : Nat) (ep : Bool) {o : Nat} (h : 0x18 < o) : (s.epReported k ep).reg o = s.reg o := by
  unfold State.epReported
  split
  · exact reg_report h s _ _
  · rfl

/-- A write that the checks admit goes to its DPA, after its report. -/
theorem pwinAccess_writes (hq : s.pwinReq k off n true data = true) (hc : s.pwinCheck k off n true = none) :
    s.pwinAccess k off true n data ep e = (s.epReported k ep).pwinWrite k (s.pwinAddr k off) data ep e := by
  have only := onlyRegs_epReported s k ep
  have admitted := (pwinCheck_kept (fun _ => reg_epReported s k ep) only.pool only.boot k off n true).trans hc
  rw [State.pwinAccess, hq, if_neg (by decide), Bool.true_and, ← State.epReported]
  dsimp only
  rw [admitted, if_pos rfl, State.pwinAddr, reg_epReported _ _ _ (by simp only [HI_PWIN_BASE]; omega)]

/-- A request has at least one byte, and a write brings as many as it names. -/
theorem pwinReq_bytes {wr : Bool} (hq : s.pwinReq k off n wr data = true) : 1 ≤ n ∧ (wr = true → data.length = n) := by
  simp only [State.pwinReq, Bool.and_eq_true, decide_eq_true_eq] at hq
  obtain ⟨⟨⟨present, -⟩, long⟩, -⟩ := hq
  exact ⟨present, fun w => by simpa [w] using long⟩

theorem pwinWrite_eq {k a : Nat} : s.pwinWrite k a data ep e =
    if ep && !data.isEmpty then (s.dpaWrite k a data e).poisonLines (a / 64) ((a + data.length - 1) / 64 - a / 64 + 1)
    else s.dpaWrite k a data e := rfl

theorem byteAt_pwinWrite {k a : Nat} (b : Nat) : (s.pwinWrite k a data ep e).byteAt b = (s.dpaWrite k a data e).byteAt b := by
  rw [pwinWrite_eq]
  split
  · exact ((DataKept.refl _).poisonLines _ _).bytes b
  · rfl

theorem pwinRefuse_frame (s : State) (k n c : Nat) (wr : Bool) :
    OnlyAccessed s (s.pwinRefuse k wr n c) ∧ (s.pwinRefuse k wr n c).mem = s.mem := by
  have told : OnlyAccessed s (if c = 0x900B then (s.report c k).bump HI_DENY_CNT_REGION else s.dpaRefuse c k) ∧
      (if c = 0x900B then (s.report c k).bump HI_DENY_CNT_REGION else s.dpaRefuse c k).mem = s.mem := by
    split
    · exact ⟨((OnlyWalked.refl s).report c k).accessed.trans rfl, (onlyRegs_report s c k).mem⟩
    · exact ⟨(onlyWalked_dpaRefuse s c k).accessed, dpaRefuse_mem s c k⟩
  unfold State.pwinRefuse
  dsimp only
  split
  · exact told
  · exact ⟨told.1.trans rfl, told.2⟩

theorem onlyAccessed_pwinWrite (s : State) (k a : Nat) (data : List Byte) (ep : Bool) (e : MemErr) :
    OnlyAccessed s (s.pwinWrite k a data ep e) := by
  have writes := onlyAccessed_dpaWrite s k a data e true
  rw [pwinWrite_eq]
  split
  · exact writes.trans (onlyWalked_poisonLines _ _ _).accessed
  · exact writes

/-- What a read delivers goes out, after a report where a line is poisoned. -/
theorem pwinRead_frame (s : State) (k a n : Nat) (e : MemErr) :
    OnlyAccessed (s.dpaRead k a n e).1 (s.pwinRead k a n e) ∧ (s.pwinRead k a n e).mem = (s.dpaRead k a n e).1.mem := by
  unfold State.pwinRead
  rcases s.dpaRead k a n e with ⟨t, bs, p⟩
  have told := (onlyWalked_took t).report 0x7020 k
  have mem : (t.took.report 0x7020 k).mem = t.mem := (onlyRegs_report t.took _ _).mem
  dsimp only
  split
  · exact ⟨rfl, rfl⟩
  · split
    · exact ⟨told.accessed.trans rfl, mem⟩
    · exact ⟨told.accessed.trans rfl, mem⟩

theorem onlyAccessed_epReported (s : State) (k : Nat) (ep : Bool) : OnlyAccessed s (s.epReported k ep) := by
  unfold State.epReported
  split
  · exact ((OnlyWalked.refl s).report _ _).accessed
  · exact .refl s

theorem mem_pwinWrite (s : State) (k a : Nat) (data : List Byte) (ep : Bool) (e : MemErr) (h : s.mem.wf = true) :
    (s.pwinWrite k a data ep e).mem.wf = true := by
  have writes := mem_dpaWrite s k a data e true h
  rw [pwinWrite_eq]
  split
  · exact mem_poisonLines _ _ _ writes
  · exact writes

/-- A request through the pool window touches what accesses to memory do, and keeps the canonical form. -/
theorem pwinAccess_frame (s : State) (k off : Nat) (wr : Bool) (n : Nat) (data : List Byte) (ep : Bool) (e : MemErr) :
    OnlyAccessed s (s.pwinAccess k off wr n data ep e) ∧ (s.mem.wf = true → (s.pwinAccess k off wr n data ep e).mem.wf = true) := by
  have told := onlyAccessed_epReported s k (wr && ep)
  have mem := (onlyRegs_epReported s k (wr && ep)).mem
  unfold State.pwinAccess
  rw [← State.epReported]
  generalize s.epReported k (wr && ep) = u at told mem ⊢
  rw [← mem]
  dsimp only
  split
  · exact ⟨.refl s, fun h => mem ▸ h⟩
  · split
    · obtain ⟨refused, same⟩ := pwinRefuse_frame u k n _ wr
      exact ⟨told.trans refused, fun h => same ▸ h⟩
    · split
      · exact ⟨told.trans (onlyAccessed_pwinWrite u k _ data ep e), mem_pwinWrite u k _ data ep e⟩
      · obtain ⟨sent, same⟩ := pwinRead_frame u k (2 ^ 21 * ((u.reg (HI_PWIN_BASE k)).toNat % 2 ^ 19) + off) n e
        exact ⟨told.trans ((onlyWalked_dpaRead u k _ n e).accessed.trans sent), fun h => same ▸ mem_dpaRead u k _ n e h⟩

/-! ### POOL_WINDOW_ACCESS (R532, R534) -/

theorem completes_poolWindow {wr : Bool} {p : State → Prop} (h : p (s.pwinAccess k off wr n data ep e)) :
    Completes (.poolWindowAccess k off wr n data ep e) s p := by
  have only := (pwinAccess_frame s k off wr n data ep e).1
  exact completes_of_kept rfl only.pending only.boot h

theorem poolWindow_writes (h : s.mem.wf = true) (hq : s.pwinReq k off n true data = true) (hc : s.pwinCheck k off n true = none)
    (hp : s.protOf (s.pwinAddr k off) = none) : Completes (.poolWindowAccess k off true n data ep e) s fun t =>
      (∀ i, i < n → t.byteAt (s.pwinAddr k off + i) = data.getD i 0) ∧
      (∀ b, b < s.pwinAddr k off ∨ s.pwinAddr k off + n ≤ b → t.byteAt b = s.byteAt b) ∧
      (ep = true → ∀ i, i < n → t.poisoned ((s.pwinAddr k off + i) / 64) = true) := by
  obtain ⟨present, long⟩ := pwinReq_bytes hq
  obtain rfl := long rfl
  have mem := (onlyRegs_epReported s k ep).mem
  have free := (protOf_kept (fun _ => reg_epReported s k ep) (s.pwinAddr k off)).trans hp
  obtain ⟨inside, outside⟩ := dpaWrite_unprotected k data e (mem ▸ h) free
  apply completes_poolWindow
  rw [pwinAccess_writes hq hc]
  refine ⟨fun i few => (byteAt_pwinWrite _).trans (inside i few), fun b out => ?_, fun poisons i few => ?_⟩
  · rw [byteAt_pwinWrite, outside b out, byteAt_eq_byte, mem]
    rfl
  · have full : data.isEmpty = false := List.isEmpty_eq_false_iff.2 (List.length_pos_iff.1 present)
    rw [pwinWrite_eq, poisons, full, if_pos (by decide)]
    exact poisoned_span _ few

theorem poolWindow_reads (h : s.mem.wf = true) (hq : s.pwinReq k off n false data = true) (hc : s.pwinCheck k off n false = none)
    (clean : ∀ i, i < n → s.poisoned ((s.pwinAddr k off + i) / 64) = false) :
    Completes (.poolWindowAccess k off false n data ep {}) s fun t =>
      t.outbox = .poolData k.val (s.bytesAt (s.pwinAddr k off) n) false :: s.outbox ∧ ∀ b, t.byteAt b = s.byteAt b := by
  have reads : s.pwinRead k (s.pwinAddr k off) n {} =
      (s.reelSpan (s.pwinAddr k off) n false).emit (.poolData k (s.bytesAt (s.pwinAddr k off) n) false) := by
    rw [State.pwinRead, dpaRead_clean k h (pwinReq_bytes hq).1 clean]
    rfl
  have same := (onlyWalked_reelSpan s (s.pwinAddr k off) n false).rest
  apply completes_poolWindow
  rw [pwinAccess_reads hq hc, reads]
  exact ⟨congrArg (_ :: ·) (congrArg State.outbox same :), (sameData_reelSpan s _ n false h).byte⟩

theorem poolWindow_refused {wr : Bool} (hq : s.pwinReq k off n wr data = true) (hc : s.pwinCheck k off n wr = some 0x900B) :
    Completes (.poolWindowAccess k off wr n data false e) s fun t =>
      t.mem = s.mem ∧ t.reg GLB_FAULT_LAST = BitVec.ofNat 32 (0x900B + k.val * 0x10000) := by
  have told : ((s.report 0x900B k).bump HI_DENY_CNT_REGION).reg GLB_FAULT_LAST = BitVec.ofNat 32 (0x900B + k.val * 0x10000) := by
    rw [reg_bump_ne _ _ (by decide), report_last, faultWord, Nat.mod_eq_of_lt (by omega), Nat.mul_comm]
  apply completes_poolWindow
  rw [pwinAccess_refused hq hc]
  refine ⟨(pwinRefuse_frame s k n _ wr).2, ?_⟩
  rw [State.pwinRefuse, if_pos rfl]
  cases wr with
  | true => exact told
  | false => exact told

end Window

end Sys2Proof.Machine
end

section
/-! The commands of the Reel cache and scrub, and the ATU's invalidation and fault FIFO (R430-R432, R442-R446; O52). -/

namespace Sys2Proof.Machine

open Reg

/-! ### The Reel cache (R430-R432) -/

theorem writebackDrain_drains {s : State} {l : Nat} {rest : List Nat} (h : s.mem.wf = true) (hw : s.mem.wb = l :: rest) :
    Completes .writebackDrain s fun t =>
      t.mem.wb = rest ∧ (∀ b, t.byteAt b = s.byteAt b) ∧ t = { s with mem := t.mem } := by
  refine completes_of_kept rfl rfl rfl ⟨?_, (s.mem.sameData_drain h).byte, rfl⟩
  simp only [Mem.drain, hw]

theorem reelFlush_sets {iid : Iid} {s : State} (h : s.writeOk iid MEM_RC_CTL = true) : Completes (.reelFlush iid) s fun t =>
    t.is MEM_RC_CTL_FLUSH = true ∧ t.is MEM_STATUS_FLUSHING = true ∧ t.mem = { s.mem with flush := s.mem.unwritten } := by
  refine completes_of_kept (congrArg s.done (writeWith_ok h _)) rfl rfl ⟨?_, is_putB _ _ _ (by decide) rfl, rfl⟩
  exact (is_setReg_ne _ _ (by decide)).trans (is_putB _ _ _ (by decide) rfl)

/-- Lines that move to the Reel leave the cache and the write-back buffer alone. -/
theorem Mem.unwritten_toReels (ls : List Nat) (m : Mem) : (ls.foldl Mem.toReel m).unwritten = m.unwritten := by
  induction ls generalizing m with
  | nil => rfl
  | cons l r ih => exact ih _

/-- A line that has been written back is neither dirty nor waiting. -/
theorem Mem.unwritten_clean (m : Mem) {ls : List Nat} {l : Nat} (h : l ∈ ls) : l ∉ (m.clean ls).unwritten := by
  unfold Mem.clean
  dsimp only
  rw [Mem.unwritten_toReels]
  simp only [Mem.unwritten, Mem.dirtyLines, List.mem_append, List.mem_flatMap, List.mem_map, List.mem_filter, not_or]
  refine ⟨?_, by simp [h]⟩
  rintro ⟨_, ⟨p, -, rfl⟩, ⟨_, d⟩, ⟨hm, dirty⟩, rfl⟩
  obtain ⟨w, -, hw⟩ := List.mem_map.1 hm
  split at hw
  · cases hw
    cases dirty
  · next out =>
    cases hw
    exact out (List.contains_iff_mem.2 h)

theorem onlyPower_offReady (s : State) : OnlyPower s s.offReady := by
  unfold State.offReady
  split <;> rfl

theorem reg_offReady (s : State) {o : Nat} (h : o < 0xF00000) : s.offReady.reg o = s.reg o := by
  have ready := reg_putB_ne s (f := MC_PWR_STAT_OFF_READY) true (q := o) (by simp only [MC_PWR_STAT_OFF_READY, MC_PWR_STAT]; omega)
  have done := reg_putB_ne (s.putB MC_PWR_STAT_OFF_READY true) (f := MC_PWR_REQ_PREP_OFF) false (q := o)
    (by simp only [MC_PWR_REQ_PREP_OFF, MC_PWR_REQ]; omega)
  unfold State.offReady
  split
  · exact done.trans ready
  · rfl

theorem reelFlushed_eq {s : State} (h : s.is MEM_RC_CTL_FLUSH = true) : s.reelFlushed =
    (State.putB { s with mem := { s.mem.clean s.mem.flush with flush := [] } } MEM_RC_CTL_FLUSH false).putB MEM_STATUS_FLUSHING false := by
  rw [State.reelFlushed, h]
  rfl

theorem reelFlushDone_ends {s : State} (h : s.mem.wf = true) (hf : s.is MEM_RC_CTL_FLUSH = true) : Completes .reelFlushDone s fun t =>
    t.is MEM_RC_CTL_FLUSH = false ∧ t.is MEM_STATUS_FLUSHING = false ∧ t.mem.flush = [] ∧ (∀ b, t.byteAt b = s.byteAt b) ∧
    ∀ l ∈ s.mem.flush, l ∉ t.mem.unwritten := by
  have power := onlyPower_offReady s.reelFlushed
  have regs {f : Fld} (hf : f.off < 0xF00000) := is_congr (reg_offReady s.reelFlushed hf)
  have mem : s.reelFlushed.offReady.mem = { s.mem.clean s.mem.flush with flush := [] } :=
    ((congrArg State.mem power :).trans (congrArg State.mem (reelFlushed_eq hf) :))
  refine completes_of_kept rfl (power.pending.trans ?_) (power.boot.trans ?_) ⟨?_, ?_, ?_, fun b => ?_, fun l flushed => ?_⟩
  · rw [reelFlushed_eq hf]; rfl
  · rw [reelFlushed_eq hf]; rfl
  · rw [regs (by decide), reelFlushed_eq hf]
    exact (is_setReg_ne _ _ (by decide)).trans (is_putB _ _ _ (by decide) rfl)
  · rw [regs (by decide), reelFlushed_eq hf]
    exact is_putB _ _ _ (by decide) rfl
  · rw [mem]
  · rw [byteAt_eq_byte, mem]
    exact (s.mem.sameData_clean s.mem.flush h).byte b
  · rw [mem]
    exact s.mem.unwritten_clean flushed

/-- The fill of a line has ended. -/
def State.endFill (s : State) (l : Nat) : State := { s with mem := { s.mem with filling := s.mem.filling.filter (· != l) } }

theorem reelFilled_eq {s : State} {l : Nat} (h : s.mem.filling.contains l = true) (ok : Bool) : s.reelFilled l ok =
    if ok then s.endFill l else (((s.endFill l).bump MEM_REEL_ERR_UE).report 0x5020 26).poisonLines (l * 256) 256 := by
  rw [State.reelFilled, h, if_neg (by decide)]
  dsimp only [State.endFill]

theorem reelFill_succeeds {s : State} {l : Nat} (h : s.mem.filling.contains l = true) : Completes (.reelFillComplete l true) s fun t =>
    t = { s with mem := { s.mem with filling := s.mem.filling.filter (· != l) } } :=
  completes_of_kept (congrArg s.done (reelFilled_eq h true)) rfl rfl rfl

theorem reelFill_fails {s : State} {l : Nat} (h : s.mem.filling.contains l = true) : Completes (.reelFillComplete l false) s fun t =>
    t.reg GLB_FAULT_LAST = 0x1A5020 ∧ l ∉ t.mem.filling ∧ (∀ i, i < 256 → t.poisoned (l * 256 + i) = true) ∧
    ∀ b, t.byteAt b = s.byteAt b := by
  have told : OnlyRegs (s.endFill l) (((s.endFill l).bump MEM_REEL_ERR_UE).report 0x5020 26) := ((OnlyRegs.refl _).bump _ _).report _ _
  have last := report_last ((s.endFill l).bump MEM_REEL_ERR_UE) 0x5020 26
  have ends : exec (.reelFillComplete l false) s = s.done _ := congrArg s.done (reelFilled_eq h false)
  rw [if_neg (by decide)] at ends
  generalize ((s.endFill l).bump MEM_REEL_ERR_UE).report 0x5020 26 = v at told last ends
  obtain ⟨marks, marked⟩ := poisonLines_eq v (l * 256) 256
  refine completes_of_kept ends ?_ ?_ ⟨?_, ?_, fun i few => ?_, fun b => ?_⟩
  · rw [marked]; exact told.pending
  · rw [marked]; exact told.boot
  · rw [marked]; exact last
  · rw [marked, told.mem]
    simp [State.endFill]
  · rw [poisoned_poisonLines, decide_eq_true (by omega), Bool.true_or]
  · rw [((DataKept.refl v).poisonLines (l * 256) 256).bytes, byteAt_eq_byte, told.mem]
    rfl

/-! ### Scrub (R446) -/

/-- `t` differs from `s` in registers, the count of lines scrubbed and the power state alone. -/
def OnlyScrubbed (s t : State) : Prop :=
  t = { s with regs := t.regs, mem := { s.mem with scrubbed := t.mem.scrubbed }, pwr := t.pwr }

namespace OnlyScrubbed

variable {s t u : State}

theorem trans (h : OnlyScrubbed s t) (k : OnlyScrubbed t u) : OnlyScrubbed s u := by
  unfold OnlyScrubbed at *
  rw [k, h]

theorem mem (h : OnlyScrubbed s t) : t.mem = { s.mem with scrubbed := t.mem.scrubbed } := (congrArg State.mem h :)

theorem pending (h : OnlyScrubbed s t) : t.pending = s.pending := (congrArg State.pending h :)

theorem boot (h : OnlyScrubbed s t) : t.boot = s.boot := (congrArg State.boot h :)

end OnlyScrubbed

theorem scrubFloor_frame (s : State) : OnlyScrubbed s s.scrubFloor ∧ s.scrubFloor.mem = s.mem ∧
    ∀ o, MC_BG_STAT ≠ o → s.scrubFloor.reg o = s.reg o := by
  unfold State.scrubFloor
  extract_lets start due force pwr
  split
  · exact ⟨rfl, rfl, fun o ne => reg_bump_ne _ _ ne⟩
  · exact ⟨rfl, rfl, fun _ _ => rfl⟩

theorem scrubNext_frame (s : State) : OnlyScrubbed s s.scrubNext ∧ ∀ o, MEM_SCRUB_STAT ≠ o → s.scrubNext.reg o = s.reg o := by
  unfold State.scrubNext
  dsimp only
  split
  · exact ⟨rfl, fun o ne => (reg_put_ne _ _ ne).trans (reg_put_ne _ _ ne)⟩
  · exact ⟨rfl, fun o ne => reg_put_ne _ _ ne⟩

theorem scrubNext_scrubbed {s : State} (h : s.mem.scrubbed + 1 < scrubLines) : s.scrubNext.mem.scrubbed = s.mem.scrubbed + 1 := by
  have more : decide (scrubLines ≤ s.mem.scrubbed + 1) = false := decide_eq_false (Nat.not_le.2 h)
  unfold State.scrubNext
  dsimp only
  rw [more]
  rfl

theorem scrubStep_frame (s : State) : OnlyScrubbed s s.scrubStep ∧
    ∀ o, MEM_SCRUB_STAT ≠ o → MC_BG_STAT ≠ o → s.scrubStep.reg o = s.reg o := by
  obtain ⟨floor, -, floorRegs⟩ := scrubFloor_frame s
  obtain ⟨next, nextRegs⟩ := scrubNext_frame s.scrubFloor
  have regs (o : Nat) (stat : MEM_SCRUB_STAT ≠ o) (bg : MC_BG_STAT ≠ o) := (nextRegs o stat).trans (floorRegs o bg)
  unfold State.scrubStep
  dsimp only
  split
  · exact ⟨(floor.trans next).trans rfl, regs⟩
  · exact ⟨floor.trans next, regs⟩

theorem scrubStep_mem {s : State} (h : s.mem.scrubbed + 1 < scrubLines) :
    s.scrubStep.mem = { s.mem with scrubbed := s.mem.scrubbed + 1 } := by
  have floor : s.scrubFloor.mem = s.mem := (scrubFloor_frame s).2.1
  have next : s.scrubFloor.scrubNext.mem.scrubbed = s.mem.scrubbed + 1 := by
    rw [scrubNext_scrubbed (by rw [floor]; exact h), floor]
  have goes : s.scrubStep = s.scrubFloor.scrubNext := if_neg (by rw [next]; omega)
  rw [goes, (scrubNext_frame _).1.mem, next, floor]

/-- What a line that scrub has read brings (R426, R446). -/
def State.scrubFound (s : State) (l : Nat) : Ecc → State
  | .ok => s
  | .corrected => s.bump (whole (MEM_ECC_CE (bobbinOf (l * 64))))
  | .uncorrectable =>
    if s.poisoned l then s
    else (((s.bump (whole (MEM_ECC_UE (bobbinOf (l * 64))))).setPoison l true).setPair MEM_SCRUB_UE_LO (l * 64)).report 0x5011 27

theorem scrub_eq (s : State) (l : Nat) (f : Ecc) : s.scrub l f =
    if !s.is MEM_SCRUB_CFG_EN || decide (2 ≤ s.get MC_PWR_STAT_STATE) then s else s.scrubStep.scrubFound l f := by
  cases f <;> rfl

section Scrub

variable {s : State} (l : Nat) (hs : s.is MEM_SCRUB_CFG_EN = true) (hp : s.get MC_PWR_STAT_STATE < 2)

include hs hp

theorem completes_scrub {f : Ecc} {p : State → Prop} (pending : (s.scrubStep.scrubFound l f).pending = s.scrubStep.pending)
    (boot : (s.scrubStep.scrubFound l f).boot = s.scrubStep.boot) (h : p (s.scrubStep.scrubFound l f)) :
    Completes (.scrubLine l f) s p := by
  have only := (scrubStep_frame s).1
  have goes : s.scrub l f = s.scrubStep.scrubFound l f := by
    rw [scrub_eq, hs, decide_eq_false (Nat.not_le.2 hp), if_neg (by decide)]
  exact completes_of_kept (congrArg s.done goes) (pending.trans only.pending) (boot.trans only.boot) h

variable (hn : s.mem.scrubbed + 1 < scrubLines)

include hn

theorem scrubLine_ok : Completes (.scrubLine l .ok) s fun t => t.mem = { s.mem with scrubbed := s.mem.scrubbed + 1 } :=
  completes_scrub l hs hp rfl rfl (scrubStep_mem hn)

theorem scrubLine_corrected : Completes (.scrubLine l .corrected) s fun t =>
    t.mem = { s.mem with scrubbed := s.mem.scrubbed + 1 } ∧
    (t.reg (MEM_ECC_CE (bobbinOf (l * 64)))).toNat = min ((s.reg (MEM_ECC_CE (bobbinOf (l * 64)))).toNat + 1) 0xFFFFFFFF := by
  have count := (scrubStep_frame s).2 (MEM_ECC_CE (bobbinOf (l * 64))) (by simp only [MEM_SCRUB_STAT, MEM_ECC_CE]; omega)
    (by have := bobbinOf_lt (l * 64); simp only [MC_BG_STAT, MEM_ECC_CE]; omega)
  refine completes_scrub l hs hp rfl rfl ⟨scrubStep_mem hn, ?_⟩
  rw [State.scrubFound, ← get_whole, get_bump _ _ _ (by simp [whole]), get_whole, count]
  rfl

theorem scrubLine_uncorrectable (fresh : s.poisoned l = false) : Completes (.scrubLine l .uncorrectable) s fun t =>
    t.poisoned l = true ∧ t.reg GLB_FAULT_LAST = 0x1B5011 ∧ t.pair MEM_SCRUB_UE_LO = l * 64 % 2 ^ 64 ∧
    ∀ b, t.byteAt b = s.byteAt b := by
  let u := (((s.scrubStep.bump (whole (MEM_ECC_UE (bobbinOf (l * 64))))).setPoison l true).setPair MEM_SCRUB_UE_LO (l * 64))
  have mem := scrubStep_mem hn
  have told : OnlyRegs u (u.report 0x5011 27) := onlyRegs_report u _ _
  have clean : s.scrubStep.poisoned l = false := by
    rw [State.poisoned, mem]
    exact fresh
  have found : s.scrubStep.scrubFound l .uncorrectable = u.report 0x5011 27 := by
    rw [State.scrubFound, clean, if_neg (by decide)]
  have marked : (u.report 0x5011 27).mem = (s.scrubStep.setPoison l true).mem := told.mem
  have latched : (u.report 0x5011 27).pair MEM_SCRUB_UE_LO = u.pair MEM_SCRUB_UE_LO :=
    pair_congr (reg_report (by decide) u _ _) (reg_report (by decide) u _ _)
  refine completes_scrub l hs hp (found ▸ told.pending) (found ▸ told.boot) ?_
  rw [found]
  refine ⟨?_, report_last u _ _, latched.trans (pair_setPair _ _ _), fun b => ?_⟩
  · rw [State.poisoned, marked]
    exact (poisoned_setPoison s.scrubStep l l true).trans (if_pos rfl)
  · have same : s.scrubStep.byteAt b = s.byteAt b := by
      rw [byteAt_eq_byte, mem]
      rfl
    rw [byteAt_eq_byte, marked]
    exact (((DataKept.refl s.scrubStep).setPoison l true).bytes b).trans same

end Scrub

end Sys2Proof.Machine
end

section
/-! The canonical form through the commands of the memory; the ATU's invalidation and fault FIFO (R442-R445), and the statement about
the memory (O52). -/

namespace Sys2Proof.Machine

open Reg

/-! ### The canonical form -/

theorem memory_wf_iff (s : State) : Memory.wf s = true ↔
    s.mem.wf = true ∧ spWf fsUnset s.fs = true ∧ spWf (fun _ => false) s.fsBad = true := by
  simp [Memory.wf, and_assoc]

/-- What a command leaves has the canonical form where its effect keeps that of the memories and leaves the Frame Store alone. -/
theorem memory_wf_next {c : Instr} {s t u : State} (h : Memory.wf s = true) (ht : exec c s = .next t) (he : exec c s = s.done u)
    (mem : s.mem.wf = true → u.mem.wf = true) (fs : u.fs = s.fs) (bad : u.fsBad = s.fsBad) : Memory.wf t = true := by
  obtain ⟨memory, store, marks⟩ := (memory_wf_iff s).1 h
  cases he.symm.trans ht
  exact (memory_wf_iff _).2 ⟨mem memory, fs ▸ store, bad ▸ marks⟩

theorem memory_wf_accessed {c : Instr} {s t u : State} (h : Memory.wf s = true) (ht : exec c s = .next t) (he : exec c s = s.done u)
    (only : OnlyAccessed s u) (mem : s.mem.wf = true → u.mem.wf = true) : Memory.wf t = true :=
  memory_wf_next h ht he mem (congrArg State.fs only :) (congrArg State.fsBad only :)

theorem onlyWalked_reelFilled (s : State) (l : Nat) (ok : Bool) : OnlyWalked s (s.reelFilled l ok) := by
  cases h : s.mem.filling.contains l with
  | false =>
    rw [State.reelFilled, h]
    exact .refl s
  | true =>
    have ended : OnlyWalked s (s.endFill l) := onlyWalked_mem s _
    have told := (ended.bump (f := MEM_REEL_ERR_UE) 1 (by decide)).report 0x5020 26
    rw [reelFilled_eq h]
    split
    · exact ended
    · exact told.trans (onlyWalked_poisonLines _ _ _)

theorem onlyAccessed_reelFlushed (s : State) : OnlyAccessed s s.reelFlushed := by
  unfold State.reelFlushed
  split <;> rfl

/-- An admitted write has its effect; any other is refused. -/
theorem writeWith_cases (s : State) (iid : Iid) (off : Nat) (f : State → State) :
    s.writeWith iid off f = f s ∨ ∃ c, s.writeWith iid off f = s.refuse c iid.toNat := by
  unfold State.writeWith
  split
  · exact .inr ⟨_, rfl⟩
  · split
    · split
      · exact .inr ⟨_, rfl⟩
      · exact .inl rfl
    · exact .inl rfl

theorem scrubFound_frame (s : State) (l : Nat) (f : Ecc) : OnlyAccessed s (s.scrubFound l f) ∧
    (s.mem.wf = true → (s.scrubFound l f).mem.wf = true) := by
  cases f with
  | ok => exact ⟨.refl s, id⟩
  | corrected => exact ⟨rfl, id⟩
  | uncorrectable =>
    rw [State.scrubFound]
    split
    · exact ⟨.refl s, id⟩
    · refine ⟨OnlyAccessed.report ?_ _ _, fun h => ?_⟩
      · rfl
      · rw [(onlyRegs_report _ _ _).mem]
        exact mem_setPoison (s.bump (whole (MEM_ECC_UE (bobbinOf (l * 64))))) l true h

theorem scrub_frame (s : State) (l : Nat) (f : Ecc) : (s.mem.wf = true → (s.scrub l f).mem.wf = true) ∧
    (s.scrub l f).fs = s.fs ∧ (s.scrub l f).fsBad = s.fsBad := by
  have step := (scrubStep_frame s).1
  obtain ⟨found, form⟩ := scrubFound_frame s.scrubStep l f
  rw [scrub_eq]
  split
  · exact ⟨id, rfl, rfl⟩
  · refine ⟨fun h => form ?_, ?_, ?_⟩
    · rw [step.mem]
      exact h
    · exact (congrArg State.fs found :).trans (congrArg State.fs step :)
    · exact (congrArg State.fsBad found :).trans (congrArg State.fsBad step :)

/-- The commands of the memory and accesses through the pool window keep the canonical form. -/
theorem memory_wf_kept {c : Instr} {s t : State} (h : Memory.wf s = true) (ht : exec c s = .next t)
    (hc : c = .writebackDrain ∨ c = .reelFlushDone ∨ (∃ i, c = .reelFlush i) ∨ (∃ l ok, c = .reelFillComplete l ok) ∨
      (∃ l f, c = .scrubLine l f) ∨ ∃ k off wr len data ep e, c = .poolWindowAccess k off wr len data ep e) :
    Memory.wf t = true := by
  rcases hc with rfl | rfl | ⟨iid, rfl⟩ | ⟨l, ok, rfl⟩ | ⟨l, f, rfl⟩ | ⟨k, off, wr, n, data, ep, e, rfl⟩
  · exact memory_wf_accessed h ht rfl (onlyWalked_mem s _).accessed s.mem.wf_drain
  · have flushed := onlyAccessed_reelFlushed s
    have power := onlyPower_offReady s.reelFlushed
    refine memory_wf_next h ht rfl (fun wf => ?_) ?_ ?_
    · rw [show s.reelFlushed.offReady.mem = s.reelFlushed.mem from (congrArg State.mem power :)]
      exact mem_reelFlushed s wf
    · exact (congrArg State.fs power :).trans (congrArg State.fs flushed :)
    · exact (congrArg State.fsBad power :).trans (congrArg State.fsBad flushed :)
  · obtain admitted | ⟨code, refused⟩ := writeWith_cases s iid MEM_RC_CTL State.reelFlush
    · exact memory_wf_accessed h ht (congrArg s.done admitted) rfl id
    · have only := onlyRegs_refuse s code iid.toNat
      exact memory_wf_next h ht (congrArg s.done refused) (fun wf => only.mem ▸ wf) only.fs only.fsBad
  · exact memory_wf_accessed h ht rfl (onlyWalked_reelFilled s l ok).accessed (mem_reelFilled s l ok)
  · obtain ⟨mem, fs, bad⟩ := scrub_frame s l f
    exact memory_wf_next h ht rfl mem fs bad
  · obtain ⟨only, mem⟩ := pwinAccess_frame s k off wr n data ep e
    exact memory_wf_accessed h ht rfl only mem

/-! ### The ATU's invalidation (R442, R443) -/

/-- AT_INV_CTL takes ALL, and PAGES where it is in range. -/
def State.invRange (s : State) (k : Nat) (v : Word) : State :=
  if v.toNat % 2 ^ 20 = 0 then s.putB (AT_INV_CTL_ALL k) (v.getLsbD 30)
  else (s.putB (AT_INV_CTL_ALL k) (v.getLsbD 30)).put (AT_INV_CTL_PAGES k) v.toNat

theorem onlyRegs_invRange (s : State) (k : Nat) (v : Word) : OnlyRegs s (s.invRange k v) := by
  unfold State.invRange
  split
  · exact (OnlyRegs.refl s).putB _ _
  · exact ((OnlyRegs.refl s).putB _ _).put _ _

theorem is_invRange_all (s : State) (k : Nat) (v : Word) : (s.invRange k v).is (AT_INV_CTL_ALL k) = v.getLsbD 30 := by
  have set := is_putB s (AT_INV_CTL_ALL k) (v.getLsbD 30) (by simp [AT_INV_CTL_ALL]) rfl
  unfold State.invRange
  split
  · exact set
  · exact (is_put_ne _ _ _ _ (by simp [AT_INV_CTL_PAGES]) (by simp [AT_INV_CTL_PAGES, AT_INV_CTL_ALL])).trans set

/-- An invalidation that starts removes the pinned mappings in its range, and counts them. -/
theorem atInvCtl_go (s : State) (k : Nat) {v : Word} (go : v.getLsbD 31 = true) : s.atInvCtl k v =
    (State.bump { s.invRange k v with atu := { (s.invRange k v).atu with
      pts := (s.invRange k v).atu.pts.filter fun p => !(s.invRange k v).invHits k p } } AT_STAT_PIN_LOST
      ((s.invRange k v).atu.pts.filter fun p => (s.invRange k v).invHits k p).length).putB (AT_INV_CTL_GO k) true := by
  rw [State.atInvCtl, go]
  rfl

theorem atuInvalidate_all {iid : Iid} {k : Fin 8} {v : Word} {s : State} (h : s.writeOk iid (AT_INV_CTL k) = true)
    (all : v.getLsbD 30 = true) (go : v.getLsbD 31 = true) : Completes (.atuInvalidate iid k v) s fun t =>
      t.is (AT_INV_CTL_GO k) = true ∧ t.atu = { s.atu with pts := s.atu.pts.filter fun p => !(p.tenant == k.val) } := by
  have only := onlyRegs_invRange s k v
  have hits (p : PtsEntry) : (s.invRange k v).invHits k p = (p.tenant == k.val) := by
    rw [State.invHits, is_invRange_all, all, Bool.true_or, Bool.and_true]
  have starts := (congrArg s.done (writeWith_ok h _) : exec (.atuInvalidate iid k v) s = s.done (s.atInvCtl k v))
  rw [atInvCtl_go s k go] at starts
  simp only [hits] at starts
  refine completes_of_kept starts only.pending only.boot ⟨is_putB _ _ _ (by simp [AT_INV_CTL_GO]) rfl, ?_⟩
  rw [← only.atu]
  rfl

theorem atuInvalidateDone_clears (k : Fin 8) (s : State) : Completes (.atuInvalidateDone k) s fun t =>
    OnlyRegs s t ∧ t.is (AT_INV_CTL_GO k) = false ∧ RegsKept [AT_INV_CTL k] s t := by
  have only : OnlyRegs s (s.putB (AT_INV_CTL_GO k) false) := (OnlyRegs.refl s).putB _ _
  refine completes_of_onlyRegs rfl only ⟨only, is_putB _ _ _ (by simp [AT_INV_CTL_GO]) rfl, fun o other => reg_putB_ne _ _ ?_⟩
  exact fun same => other (List.mem_singleton.2 same.symm)

/-! ### The ATU's fault FIFO (R444, R445) -/

theorem faultInfo_row (k : Fin 8) :
    regRow (AT_FAULT_INFO k) = some { base := 0x801020, dims := [(8, 0x100)], tenant := true } ∧ isLatched (AT_FAULT_INFO k) = false := by
  revert k
  decide

theorem viewOf_atu (s : State) {o : Nat} (h : o / 0x100000 = 8) : viewOf s o = atView s o := by
  have noI2c : ¬ (0x206000 ≤ o ∧ o < 0x206400) := by omega
  simp [viewOf, h, noI2c]

/-- AT_FAULT_INFO shows the oldest fault, its reason lowest. -/
theorem view_faultInfo {s : State} {k : Fin 8} {f : AtuFault} {rest : List AtuFault}
    (h : spGet (fun _ => []) s.atu.faults k = f :: rest) : s.view (AT_FAULT_INFO k) =
      BitVec.ofNat 32 (f.reason + f.level * 16 + (if f.write then 2 ^ 6 else 0) + f.iid * 256 + 2 ^ 15) := by
  have low : 0x801000 ≤ AT_FAULT_INFO k ∧ AT_FAULT_INFO k < 0x801800 := by
    simp only [AT_FAULT_INFO]
    omega
  have tenant : (AT_FAULT_INFO k - 0x801000) / 0x100 = k := by
    simp only [AT_FAULT_INFO]
    omega
  have shown : atView s (AT_FAULT_INFO k) =
      some (f.reason + f.level * 16 + (if f.write then 2 ^ 6 else 0) + f.iid * 256 + 2 ^ 15) := by
    simp only [atView, tenant, h, List.head?_cons, Option.map_some, Option.getD_some]
    rw [if_neg (by simp only [AT_PTS_USED]; omega), if_neg (by simp only [AT_STATUS]; omega), if_neg (by omega), if_pos trivial]
  rw [State.view, viewOf_atu s (by omega), shown]

theorem atuFaultPop_pops {iid : Iid} {k : Fin 8} {f : AtuFault} {rest : List AtuFault} {s : State}
    (h : s.readOk iid (AT_FAULT_INFO k) = true) (hq : spGet (fun _ => []) s.atu.faults k = f :: rest) :
    Completes (.atuFaultPop iid k) s fun t => spGet (fun _ => []) t.atu.faults k = rest ∧ t.atu.pts = s.atu.pts ∧
      ∃ d, t.outbox = .readData iid (AT_FAULT_INFO k) d :: s.outbox ∧ d.toNat % 16 = f.reason % 16 := by
  obtain ⟨row, notLatched⟩ := faultInfo_row k
  have atu : (s.readOut iid (AT_FAULT_INFO k)).atu = s.atu := by
    rw [State.readOut, latchAll_eq]
    rfl
  have pops : exec (.atuFaultPop iid k) s = s.done ((s.readOut iid (AT_FAULT_INFO k)).atFaultPop k) := by
    show s.done (s.readWith iid (AT_FAULT_INFO k) fun s => s.atFaultPop k) = _
    rw [readWith_ok h, readReg_eq_readOut row rfl rfl notLatched]
  refine completes_of_kept pops (readOut_pending _ _ _) (readOut_boot _ _ _)
    ⟨?_, (congrArg Atu.pts atu :), _, readOut_outbox s iid (AT_FAULT_INFO k), ?_⟩
  · refine (spGet_spPut_same _ _ _).trans ?_
    rw [atu, hq]
    rfl
  · rw [view_faultInfo hq, ofNat_zeroExtend, BitVec.toNat_ofNat]
    split <;> omega

/-! ### The statement -/

/-- Settles O52: the Reel cache moves lines without changing a byte or a poison mark, so a write outside every protected range changes
just its own bytes and a read returns what stands there; scrub, the fills and the flush act on marks and counts, and the ATU's
invalidation on the mappings of its tenant. -/
theorem memoryHoldsWhatIsWritten : Obligations.MemoryHoldsWhatIsWritten := by
  unfold Obligations.MemoryHoldsWhatIsWritten
  have memory {s : State} (h : Memory.wf s = true) : s.mem.wf = true := ((memory_wf_iff s).1 h).1
  refine ⟨fun k off n data ep e s h => ⟨poolWindow_writes (memory h), ?_, ?_⟩, fun l rest s h => writebackDrain_drains (memory h),
    fun iid s => reelFlush_sets, fun s h => reelFlushDone_ends (memory h), fun l s h => ⟨reelFill_succeeds h, reelFill_fails h⟩,
    fun l s hs hp hn => ⟨scrubLine_ok l hs hp hn, scrubLine_corrected l hs hp hn, scrubLine_uncorrectable l hs hp hn⟩,
    fun c s t => memory_wf_kept, fun iid k v s => atuInvalidate_all, atuInvalidateDone_clears,
    fun iid k f rest s => atuFaultPop_pops⟩
  · rintro hq hc rfl clean
    exact poolWindow_reads (memory h) hq hc clean
  · rintro wr hq hc rfl
    exact poolWindow_refused hq hc

end Sys2Proof.Machine
end

section
/-! Register accesses that a check of R554 refuses, in the order of the checks (O8 to O11). -/

namespace Sys2Proof.Machine

open Reg

/-! ### The checks in their order (R554) -/

theorem regCheck_reserved {s : State} {iid : Nat} (off size : Nat) (wr : Bool) (h : 28 ≤ iid) :
    s.regCheck iid off size wr = some 0x9007 := by
  rw [State.regCheck, if_pos h]

section Checks

variable {s : State} {iid off size : Nat} {wr : Bool}

/-- Past the Initiator ID and the width, an access to the register blocks but for the squares is decided by the page and then by
the register's row. -/
theorem regCheck_register (hi : iid < 28) (hw : widthOk off size = true) (ho : off < 0x1000000) (hq : isSquare off = false) :
    s.regCheck iid off size wr =
      if s.pageOk iid off wr = false then some 0x9004
      else match regRow off with
        | none => some 0x900B
        | some r =>
          if wr && !s.classOk iid off r then some 0x9004 else if !s.indexOk iid off wr r then some 0x9005 else none := by
  rw [State.regCheck, if_neg (Nat.not_le.2 hi), hw, if_neg (by simp), if_pos ho, hq]
  cases s.pageOk iid off wr <;> rfl

variable (hi : iid < 28) (hw : widthOk off size = true) (ho : off < 0x1000000) (hq : isSquare off = false)
include hi hw ho hq

theorem regCheck_page (hp : s.pageOk iid off wr = false) : s.regCheck iid off size wr = some 0x9004 := by
  rw [regCheck_register hi hw ho hq, if_pos hp]

theorem regCheck_unassigned (hp : s.pageOk iid off wr = true) (hr : regRow off = none) :
    s.regCheck iid off size wr = some 0x900B := by
  rw [regCheck_register hi hw ho hq, if_neg (by simp [hp]), hr]

theorem regCheck_class {r : RegRow} (hr : regRow off = some r) (hc : s.classOk iid off r = false) :
    s.regCheck iid off size true = some 0x9004 := by
  rw [regCheck_register hi hw ho hq, hr]
  split
  · rfl
  · simp [hc]

theorem regCheck_index {r : RegRow} (hp : s.pageOk iid off wr = true) (hr : regRow off = some r)
    (hc : wr = true → s.classOk iid off r = true) (hx : s.indexOk iid off wr r = false) :
    s.regCheck iid off size wr = some 0x9005 := by
  have passes : (wr && !s.classOk iid off r) = false := by cases wr <;> simp_all
  rw [regCheck_register hi hw ho hq, if_neg (by simp [hp]), hr]
  simp [passes, hx]

end Checks

/-! ### Any refused access -/

theorem completes_refusedWrite {iid : Iid} {off size code : Nat} {s : State} (v : BitVec 64)
    (h : s.regCheck iid.toNat off size true = some code) : Completes (.registerWrite iid off size v) s (Denied code iid.toNat s) :=
  completes_denied (exec_registerWrite_refused v h)

theorem completes_refusedRead {iid : Iid} {off size code : Nat} {s : State} (h : s.regCheck iid.toNat off size false = some code) :
    Completes (.loReadLatch iid off size) s (DeniedRead code iid.toNat off s) :=
  completes_deniedRead (congrArg s.done (busRead_refused h))

theorem completes_refusedRc {iid : Iid} {off code : Nat} {s : State} (h : s.regCheck iid.toNat off 4 false = some code) :
    Completes (.rcRead iid off) s (DeniedRead code iid.toNat off s) :=
  completes_deniedRead (congrArg s.done (busRead_refused h))

/-- Settles O8: the Initiator ID is the first check of R554. -/
theorem reservedInitiatorRefused : Obligations.ReservedInitiatorRefused := by
  unfold Obligations.ReservedInitiatorRefused
  intro iid off size v s h
  have check (size : Nat) (wr : Bool) := regCheck_reserved (s := s) off size wr h
  exact ⟨completes_refusedWrite v (check size true), completes_refusedRead (check size false), completes_refusedRc (check 4 false)⟩

/-- Settles O9: where no row lies, the page check is the last that can refuse before 0x900B. -/
theorem unassignedOffsetRefused : Obligations.UnassignedOffsetRefused := by
  unfold Obligations.UnassignedOffsetRefused
  intro iid off size v s hi ho hq hr
  refine ⟨fun hw hp => ?_, fun hw hp => ?_, fun hw hp => ?_, fun hw hp => ?_, fun hw => ⟨?_, ?_⟩⟩
  · exact completes_refusedWrite v (regCheck_unassigned hi hw ho hq hp hr)
  · exact completes_refusedRead (regCheck_unassigned hi hw ho hq hp hr)
  · exact completes_refusedWrite v (regCheck_page hi hw ho hq hp)
  · exact completes_refusedRead (regCheck_page hi hw ho hq hp)
  · exact completes_refusedWrite v (regCheck_wrong_width true hi hw)
  · exact completes_refusedRead (regCheck_wrong_width false hi hw)

/-- Settles O10: past the Initiator ID and the width come the page, for a write the class, and then the index. -/
theorem pageClassAndIndexRefusals : Obligations.PageClassAndIndexRefusals := by
  unfold Obligations.PageClassAndIndexRefusals
  intro iid off v s r hi ho h4 hq hr
  have hw : widthOk off 4 = true := by simp [widthOk, h4]
  refine ⟨?_, fun hp => ?_, fun hp hc hx => ?_, fun hp hx => ?_⟩
  · rintro (hp | hc)
    · exact completes_refusedWrite v (regCheck_page hi hw ho hq hp)
    · exact completes_refusedWrite v (regCheck_class hi hw ho hq hr hc)
  · have check := regCheck_page (wr := false) hi hw ho hq hp
    exact ⟨completes_refusedRead check, completes_refusedRc check⟩
  · exact completes_refusedWrite v (regCheck_index hi hw ho hq hp hr (fun _ => hc) hx)
  · have check := regCheck_index (wr := false) hi hw ho hq hp hr (fun h => Bool.noConfusion h) hx
    exact ⟨completes_refusedRead check, completes_refusedRc check⟩

/-! ### Commands that are an access of one register -/

theorem readWith_refused {s : State} {iid : Iid} {off code : Nat} (h : s.regCheck iid.toNat off 4 false = some code)
    (f : State → State) : s.readWith iid off f = s.refuseRead code iid.toNat off := by
  rw [State.readWith, h]

/-- A command that reads one register refuses as any read does. -/
theorem exec_refusedRead {c : Instr} {iid : Iid} {off code : Nat} {s : State} (ht : readTarget c = some (iid, off))
    (h : s.regCheck iid.toNat off 4 false = some code) : exec c s = s.done (s.refuseRead code iid.toNat off) := by
  cases c
  case rcRead =>
    cases ht
    exact congrArg s.done (busRead_refused h)
  case tsFifoPop =>
    cases ht
    show s.done (match State.regCheck _ _ _ _ _ with | some c => _ | none => _) = _
    rw [h]
  case trackClaim =>
    cases ht
    show s.done (match State.regCheck _ _ _ _ _ with | some c => _ | none => _) = _
    rw [h]
  all_goals cases ht
  all_goals exact congrArg s.done (readWith_refused h _)

/-- A command that writes one register goes by `writeWith`. -/
theorem exec_writeTarget {c : Instr} {iid : Iid} {off : Nat} (s : State) (ht : writeTarget c = some (iid, off)) :
    ∃ f, exec c s = s.done (s.writeWith iid off f) ∨ exec c s = s.booted (s.writeWith iid off f) := by
  cases c
  case warmReset i =>
    cases i with
    | none => cases ht
    | some i =>
      cases ht
      exact ⟨_, .inr rfl⟩
  case configLock =>
    cases ht
    exact ⟨_, .inr rfl⟩
  case recoveryLoad =>
    cases ht
    exact ⟨_, .inr rfl⟩
  case rollbackCommit =>
    cases ht
    exact ⟨_, .inr rfl⟩
  all_goals cases ht
  all_goals exact ⟨_, .inl rfl⟩

/-- Settles O11: each of these commands makes the checks of R554 before it has an effect. -/
theorem refusedAccessesHaveNoEffect : Obligations.RefusedAccessesHaveNoEffect := by
  unfold Obligations.RefusedAccessesHaveNoEffect
  refine ⟨fun c iid off code s ht h => completes_deniedRead (exec_refusedRead ht h), fun c iid off code s ht h => ?_⟩
  obtain ⟨f, eq⟩ := exec_writeTarget s ht
  rw [writeWith_refused h f, booted_eq _ _ (refuse_pending _ _ _), refuse_done, or_self] at eq
  exact completes_denied (eq.trans (refuse_done _ _ _).symm)

end Sys2Proof.Machine
end

section
/-! Start-up (O2 to O6): a command is either one of start-up's, or keeps the lock, FUSE_RB and the stage as they were. -/

namespace Sys2Proof.Machine

open Reg

/-! ### The two forms of a command -/

/-- The effect of a command that start-up lets change what it has settled (R642-R653); none of any other command. -/
def startEffect (s : State) : Instr → Option State
  | .coldReset straps flash => some (s.coldStart straps flash)
  | .warmReset iid => some (s.warmAsk iid)
  | .powerGoodRise rail => some (s.goodRise rail)
  | .bobbinTrainingDone ok => some (s.trainDone ok.toNat)
  | .refereeResetRelease => some s.refOut
  | .configLock iid v => some (s.writeWith iid MC_LOCK fun s => s.lockWrite iid.toNat v)
  | .recoveryLoad iid v ok version => some (s.writeWith iid MC_RECOV_GO fun s => s.recoverWrite v ok version)
  | .rollbackCommit iid v => some (s.writeWith iid MC_BOOT_CTL fun s => s.rollbackWrite iid.toNat v)
  | .registerWrite iid off size v => if isStart off && size == 4 then some (s.startWrite iid off (v.setWidth 32)) else none
  | _ => none

theorem exec_of_startEffect {c : Instr} {s u : State} (h : startEffect s c = some u) : exec c s = s.booted u := by
  cases c
  case registerWrite iid off size v =>
    show execRegisterWrite iid off size v s = _
    simp only [startEffect] at h
    unfold execRegisterWrite
    split at h
    · rw [if_pos ‹_›, Option.some.inj h]
    · cases h
  all_goals cases h
  all_goals rfl

/-- Every other command leaves start-up's state as it was. -/
theorem exec_of_no_startEffect {c : Instr} {s : State} (h : startEffect s c = none) : ∃ u, exec c s = s.done u := by
  cases c
  case registerWrite iid off size v =>
    refine ⟨s.busWrite iid off size v, ?_⟩
    show execRegisterWrite iid off size v s = _
    simp only [startEffect] at h
    unfold execRegisterWrite
    split at h
    · cases h
    · rw [if_neg ‹_›]
  all_goals cases h
  all_goals exact ⟨_, rfl⟩


/-! ### What start-up's operations make of its state -/

@[simp] theorem boot_reportIf (s : State) (b : Bool) (c i : Nat) : (s.reportIf b c i).boot = s.boot := by
  cases b <;> simp [State.reportIf]

@[simp] theorem boot_strapCfg (s : State) : s.strapCfg.boot = s.boot := by
  unfold State.strapCfg
  dsimp only
  split <;> simp

@[simp] theorem boot_paenoRuns (s : State) : s.paenoRuns.boot = s.boot := by
  simp [State.paenoRuns]

@[simp] theorem boot_enterRecovery (s : State) : s.enterRecovery.boot = { s.boot with stage := 0, recovery := true } := by
  simp [State.enterRecovery]

@[simp] theorem boot_refRelease (s : State) : s.refRelease.boot = s.boot := by
  unfold State.refRelease
  split <;> simp

/-- Start-up has begun anew under the fuses `fuse`: the lock is clear and no stage past 2 is reached. -/
def Restarted (fuse : Nat) (b : Boot) : Prop := b.lock = false ∧ b.fuse = fuse ∧ b.stage ≤ 2

/-- The boot ROM decides the stage, at most 2, and the image; the lock and FUSE_RB are not its. -/
theorem restarted_bootRom {s : State} (h : s.boot.lock = false) : Restarted s.boot.fuse s.bootRom.boot := by
  unfold State.bootRom
  dsimp only
  split
  · refine ⟨by simpa using h, by simp, ?_⟩
    simp only [boot_paenoRuns, setBoot_boot]
    split <;> omega
  · simp [Restarted, h]

theorem rollback_bootRom {s : State} (h : s.boot.rollback < 64) : s.bootRom.boot.rollback < 64 := by
  unfold State.bootRom
  dsimp only
  split
  · simpa using s.boot.flash.rollback.isLt
  · simpa using h

/-- A cold reset clears the lock and keeps FUSE_RB (R645). -/
theorem restarted_coldStart (s : State) (x : Straps) (f : BootFlash) : Restarted s.boot.fuse (s.coldStart x f).boot := by
  unfold State.coldStart
  dsimp only
  split
  · exact ⟨rfl, rfl, Nat.zero_le 2⟩
  · exact restarted_bootRom rfl

theorem rollback_coldStart (s : State) (x : Straps) (f : BootFlash) : (s.coldStart x f).boot.rollback < 64 := by
  unfold State.coldStart
  dsimp only
  split
  · exact Nat.zero_lt_succ 63
  · exact rollback_bootRom (Nat.zero_lt_succ 63)

/-- A warm reset does so too (R646). -/
theorem restarted_warmStart (s : State) : Restarted s.boot.fuse s.warmStart.boot := restarted_bootRom rfl

theorem rollback_warmStart {s : State} (h : s.boot.rollback < 64) : s.warmStart.boot.rollback < 64 := rollback_bootRom h

/-! ### What a command can make of start-up's state -/

/-- The commands that reset the device (R645, R646). -/
def Resets (c : Instr) : Prop :=
  (∃ x f, c = .coldReset x f) ∨ (∃ i, c = .warmReset i ∧ (i = none ∨ i = some 9)) ∨
    ∃ v : BitVec 64, v.getLsbD 0 = true ∧ c = .registerWrite 9 MC_RST_CTL 4 v

/-- The commands that write 1 to bit 0 of a start-up register. -/
def WritesOne (iid : Iid) (cmd : Word → Instr) (off : Nat) (c : Instr) : Prop :=
  (∃ v : Word, v.getLsbD 0 = true ∧ c = cmd v) ∨ ∃ v : BitVec 64, v.getLsbD 0 = true ∧ c = .registerWrite iid off 4 v

/-- Start-up's state after a command: after a reset, after the lock, after a commit of ROLLBACK, or with the lock and FUSE_RB as
they were, at stage 5 only where it was there. -/
inductive BootStep (s : State) (c : Instr) (b : Boot) : Prop
  | reset (src : Resets c) (anew : Restarted s.boot.fuse b) (small : s.boot.rollback < 64 → b.rollback < 64)
  | lock (src : WritesOne 9 (.configLock 9) MC_LOCK c) (eq : b = { s.boot with lock := true, stage := 5 })
  | commit (iid : Iid) (valid : s.is MC_PWR_OWNER_VALID = true) (owner : s.get MC_PWR_OWNER_TENANT = iid.toNat)
      (src : WritesOne iid (.rollbackCommit iid) MC_BOOT_CTL c) (eq : b = { s.boot with fuse := max s.boot.fuse s.boot.rollback })
  | other (lock : b.lock = s.boot.lock) (fuse : b.fuse = s.boot.fuse)
      (stage : (s.boot.lock = true ↔ s.boot.stage = 5) → (b.stage = 5 ↔ s.boot.stage = 5))
      (small : s.boot.fuse < 64 → s.boot.rollback < 64 → b.rollback < 64)

theorem BootStep.kept (s : State) (c : Instr) : BootStep s c s.boot := .other rfl rfl (fun _ => Iff.rfl) fun _ h => h

theorem bootStep_writeWith {s : State} {c : Instr} {iid : Iid} {off : Nat} {f : State → State} (h : BootStep s c (f s).boot) :
    BootStep s c (s.writeWith iid off f).boot := by
  rcases writeWith_cases s iid off f with e | ⟨code, e⟩
  · exact e ▸ h
  · rw [e, refuse_boot]
    exact .kept s c

theorem bootStep_lockWrite {s : State} {c : Instr} {iid : Iid} {v : Word}
    (src : iid = 9 → v.getLsbD 0 = true → WritesOne 9 (.configLock 9) MC_LOCK c) : BootStep s c (s.lockWrite iid.toNat v).boot := by
  unfold State.lockWrite
  split
  · rename_i h
    exact .lock (src (BitVec.eq_of_toNat_eq h.1) h.2) rfl
  · exact .kept s c

theorem bootStep_rollbackWrite {s : State} {c : Instr} {iid : Iid} {v : Word}
    (src : v.getLsbD 0 = true → WritesOne iid (.rollbackCommit iid) MC_BOOT_CTL c) :
    BootStep s c (s.rollbackWrite iid.toNat v).boot := by
  unfold State.rollbackWrite
  split
  · rename_i h
    exact .commit iid h.1 h.2.1 (src h.2.2) rfl
  · exact .kept s c

theorem bootStep_warmStart {s : State} {c : Instr} (src : Resets c) : BootStep s c s.warmStart.boot :=
  .reset src (restarted_warmStart s) rollback_warmStart

theorem bootStep_startWrite {s : State} {iid : Iid} {off : Nat} {v : BitVec 64} (h : isStart off = true) :
    BootStep s (.registerWrite iid off 4 v) (s.startWrite iid off (v.setWidth 32)).boot := by
  have bit : (v.setWidth 32).getLsbD 0 = v.getLsbD 0 := by simp
  refine bootStep_writeWith ?_
  split_ifs with isLock isBoot isNine
  · exact bootStep_lockWrite fun i b => .inr ⟨v, bit ▸ b, by rw [i, isLock]⟩
  · exact bootStep_rollbackWrite fun b => .inr ⟨v, bit ▸ b, by rw [isBoot]⟩
  · have isReset : off = MC_RST_CTL := by simpa [isStart, isLock, isBoot] using h
    exact bootStep_warmStart (.inr (.inr ⟨v, bit ▸ isNine.2, by rw [isNine.1, isReset]⟩))
  · exact .kept s _

theorem bootStep_warmAsk (s : State) (i : Option Iid) : BootStep s (.warmReset i) (s.warmAsk i).boot := by
  cases i with
  | none => exact bootStep_warmStart (.inr (.inl ⟨none, rfl, .inl rfl⟩))
  | some i =>
    refine bootStep_writeWith ?_
    split
    · rename_i h
      exact bootStep_warmStart (.inr (.inl ⟨some i, rfl, .inr (h ▸ rfl)⟩))
    · exact .kept s _

theorem bootStep_goodRise (s : State) (c : Instr) (r : Nat) : BootStep s c (s.goodRise r).boot := by
  unfold State.goodRise
  dsimp only
  split_ifs with off early good last
  · exact .kept s c
  · exact .kept s c
  · have one : s.boot.stage = 1 := by simpa using early
    exact .other rfl rfl (fun _ => by simp [one]) fun _ h => h
  · exact .kept s c
  · exact .kept s c

/-- A report for each stack leaves start-up's state alone. -/
@[simp] theorem boot_reports (l : List Nat) (s : State) (c i : Nat) : (l.foldl (fun s _ => s.report c i) s).boot = s.boot := by
  induction l generalizing s with
  | nil => rfl
  | cons x r ih => rw [List.foldl_cons, ih, report_boot]

theorem boot_trained (s : State) : s.trained.boot = { s.boot with stage := if s.ref.running then 4 else 3 } := by
  unfold State.trained
  split <;> simp_all

theorem bootStep_trainDone (s : State) (c : Instr) (ok : Nat) : BootStep s c (s.trainDone ok).boot := by
  unfold State.trainDone
  dsimp only
  split_ifs with past all once
  · exact .kept s c
  · have early : s.boot.stage < 3 := by simp_all
    rw [boot_trained, put_boot]
    exact .other rfl rfl (fun _ => by dsimp only; split <;> omega) fun _ h => h
  · exact .other rfl rfl (fun _ => Iff.rfl) fun _ h => h
  · have early : s.boot.stage < 3 := by simp_all
    rw [boot_enterRecovery, boot_reports, put_boot]
    exact .other rfl rfl (fun _ => by dsimp only; omega) fun _ h => h

theorem bootStep_refOut (s : State) (c : Instr) : BootStep s c s.refOut.boot := by
  unfold State.refOut
  split
  · rename_i three
    rw [setBoot_boot, boot_refRelease]
    exact .other rfl rfl (fun _ => by simp [three]) fun _ h => h
  · rw [boot_refRelease]
    exact .kept s c

theorem bootStep_recoverWrite (s : State) (c : Instr) (v : Word) (ok : Bool) (version : Word) :
    BootStep s c (s.recoverWrite v ok version).boot := by
  unfold State.recoverWrite
  split
  · exact .kept s c
  · split
    · rw [report_boot]
      exact .kept s c
    · have clear : s.boot.lock = false := by simp_all
      rw [boot_paenoRuns, setBoot_boot, took_boot]
      refine .other rfl rfl (fun inv => ?_) fun hf _ => max_lt hf (Nat.mod_lt _ (by decide))
      have stage : s.boot.stage ≠ 5 := fun e => by simp [clear, e] at inv
      dsimp only
      split_ifs <;> omega

/-- What a command of start-up makes of start-up's state. -/
theorem bootStep_startEffect {s u : State} {c : Instr} (h : startEffect s c = some u) : BootStep s c u.boot := by
  cases c
  case coldReset x f =>
    cases h
    exact .reset (.inl ⟨x, f, rfl⟩) (restarted_coldStart s x f) fun _ => rollback_coldStart s x f
  case warmReset i =>
    cases h
    exact bootStep_warmAsk s i
  case powerGoodRise r =>
    cases h
    exact bootStep_goodRise s _ r
  case bobbinTrainingDone ok =>
    cases h
    exact bootStep_trainDone s _ ok.toNat
  case refereeResetRelease =>
    cases h
    exact bootStep_refOut s _
  case configLock iid v =>
    cases h
    exact bootStep_writeWith (bootStep_lockWrite fun i b => .inl ⟨v, b, by rw [i]⟩)
  case recoveryLoad iid v ok version =>
    cases h
    exact bootStep_writeWith (bootStep_recoverWrite s _ v ok version)
  case rollbackCommit iid v =>
    cases h
    exact bootStep_writeWith (bootStep_rollbackWrite fun b => .inl ⟨v, b, rfl⟩)
  case registerWrite iid off size v =>
    simp only [startEffect] at h
    split at h
    · obtain ⟨start, rfl⟩ : isStart off = true ∧ size = 4 := by simp_all
      cases h
      exact bootStep_startWrite start
    · cases h
  all_goals cases h

/-- What any command makes of start-up's state. -/
theorem bootStep_exec {s t : State} {c : Instr} (h : exec c s = .next t) : BootStep s c t.boot := by
  cases e : startEffect s c with
  | none =>
    obtain ⟨u, eq⟩ := exec_of_no_startEffect e
    cases eq.symm.trans h
    exact .kept s c
  | some u =>
    have eq := (booted_next s u).symm.trans ((exec_of_startEffect e).symm.trans h)
    have eqn := Host.Outcome.next.inj eq
    have boot : u.boot = t.boot := by rw [← eqn]
    exact boot ▸ bootStep_startEffect e

/-! ### The statements -/

/-- Settles O2: each command ends in `done` or in `booted`, and both restore the queue. -/
theorem everyCommandAnswersNext : Obligations.EveryCommandAnswersNext := by
  unfold Obligations.EveryCommandAnswersNext
  intro c s
  cases e : startEffect s c with
  | none =>
    obtain ⟨u, eq⟩ := exec_of_no_startEffect e
    exact ⟨_, eq, rfl⟩
  | some u => exact ⟨_, exec_of_startEffect e, rfl⟩

theorem BootStep.bootInv {s t : State} {c : Instr} (h : BootStep s c t.boot) (inv : BootInv s) : BootInv t := by
  obtain ⟨lockAt5, fuse64, rollback64⟩ := inv
  cases h with
  | reset src anew small =>
    obtain ⟨lock, fuse, stage⟩ := anew
    exact ⟨by simp only [lock, Bool.false_eq_true, false_iff]; omega, fuse ▸ fuse64, small rollback64⟩
  | lock src eq =>
    rw [BootInv, eq]
    exact ⟨by simp, fuse64, rollback64⟩
  | commit iid valid owner src eq =>
    rw [BootInv, eq]
    exact ⟨lockAt5, max_lt fuse64 rollback64, rollback64⟩
  | other lock fuse stage small => exact ⟨lock ▸ lockAt5.trans (stage lockAt5).symm, fuse ▸ fuse64, small fuse64 rollback64⟩

/-- Settles O3: each way in which a command may change start-up's state keeps the invariant, and an idle cycle changes none of it. -/
theorem bootInvariantKept : Obligations.BootInvariantKept := by
  unfold Obligations.BootInvariantKept
  intro s t inv h
  unfold step at h
  split at h
  · cases h
    exact inv
  · exact (bootStep_exec h).bootInv inv

/-- Settles O4: at reset the stage is 0 and every count is 0. -/
theorem bootInvariantAtReset : Obligations.BootInvariantAtReset := by
  unfold Obligations.BootInvariantAtReset
  exact ⟨by decide, by decide, by decide⟩

/-- Settles O5: of the ways in which a command may change start-up's state, one sets the lock and one clears it. -/
theorem lockClearsOnlyAtReset : Obligations.LockClearsOnlyAtReset := by
  unfold Obligations.LockClearsOnlyAtReset
  refine ⟨fun c s t h clear set => ?_, fun c s t h set clear => ?_, fun iid v s bit => ?_⟩
  · cases bootStep_exec h with
    | reset src anew small => simp [anew.1] at set
    | lock src eq => exact src
    | commit iid valid owner src eq => simp [eq, clear] at set
    | other lock fuse stage small => simp [lock, clear] at set
  · cases bootStep_exec h with
    | reset src anew small => exact src
    | lock src eq => simp [eq] at clear
    | commit iid valid owner src eq => simp [eq, set] at clear
    | other lock fuse stage small => simp [lock, set] at clear
  · refine ⟨_, booted_next _ _, ?_⟩
    have none_ : s.lockWrite iid.toNat v = s := if_neg fun h => Bool.noConfusion (bit.symm.trans h.2)
    rcases writeWith_cases s iid MC_LOCK fun s => s.lockWrite iid.toNat v with e | ⟨code, e⟩
    · exact congrArg (fun u => u.boot.lock) (e.trans none_)
    · exact congrArg Boot.lock ((congrArg State.boot e).trans (refuse_boot _ _ _))

/-- Settles O6: of the ways in which a command may change start-up's state, only the commit of ROLLBACK changes FUSE_RB, to the
larger of the two. -/
theorem fuseRisesOnlyByRollbackCommit : Obligations.FuseRisesOnlyByRollbackCommit := by
  unfold Obligations.FuseRisesOnlyByRollbackCommit
  intro c s t h
  cases bootStep_exec h with
  | reset src anew small => exact ⟨anew.2.1.ge, fun ne => absurd anew.2.1.symm ne⟩
  | lock src eq => simp [eq]
  | commit iid valid owner src eq =>
    rw [eq]
    refine ⟨le_max_left _ _, fun ne => ⟨?_, valid, iid, owner, src⟩⟩
    rcases max_choice s.boot.fuse s.boot.rollback with m | m
    · exact absurd m.symm ne
    · exact m
  | other lock fuse stage small => exact ⟨fuse.ge, fun ne => absurd fuse.symm ne⟩

end Sys2Proof.Machine
end

section
/-! Commands of the Track are checked, and then have their effects (R493-R506; O48). -/

namespace Sys2Proof.Machine

open Reg

/-! ### A command that fails its checks -/

/-- Each row executes by `runCmd`; those that wait for their unit's EN do not where the command completes with a code. -/
theorem exec_trackRow {q : (Fin 10 → BitVec 16 → Instr) × (TkCmd → Bool)} (hq : q ∈ trackRows) (r : Fin 10) (n : BitVec 16)
    (s : State) : ∃ p f, exec (q.1 r n) s = s.done (s.runCmd r n p f) ∧
      ∀ c, (s.cmdCode c).isSome = true → q.2 c = true → p c = true := by
  simp only [trackRows, List.mem_cons, List.not_mem_nil, or_false] at hq
  rcases hq with rfl | rfl | rfl | rfl | rfl | rfl | rfl | rfl | rfl | rfl | rfl | rfl | rfl | rfl | rfl | rfl | rfl | rfl | rfl |
    rfl | rfl | rfl | rfl | rfl
  all_goals exact ⟨_, _, rfl, fun c hc h => by simpa [hc] using h⟩

theorem runCmd_code {r : Fin 10} {n : BitVec 16} {p : TkCmd → Bool} {c : TkCmd} {code : Nat} {s : State}
    (h : Executes r n p c s) (hc : s.cmdCode c = some code) (f : TkCmd → State → State) : s.runCmd r n p f = s.fail c code 0 := by
  obtain ⟨named, row, may, next⟩ := h
  simp [State.runCmd, named, row, may, next, hc]

theorem trackRow_fails {q : (Fin 10 → BitVec 16 → Instr) × (TkCmd → Bool)} (hq : q ∈ trackRows) {r : Fin 10} {n : BitVec 16}
    {c : TkCmd} {code : Nat} {s : State} (h : Executes r n q.2 c s) (hc : s.cmdCode c = some code) :
    Completes (q.1 r n) s fun t => t = s.fail c code 0 := by
  obtain ⟨p, f, he, hp⟩ := exec_trackRow hq r n s
  obtain ⟨named, row, may, next⟩ := h
  exact completes_fail (he.trans (congrArg s.done (runCmd_code ⟨named, hp c (by simp [hc]) row, may, next⟩ hc f)))

/-! ### NOP, FENCE, TIME_EVENT and the start of a COPY -/

/-- A command that starts goes on in the store, and nothing else changes. -/
theorem completes_startCmd {i : Instr} {c : TkCmd} {s : State} (h : exec i s = s.done (s.startCmd c)) :
    Completes i s fun t => t = s.startCmd c := completes_of_kept h rfl rfl rfl

section Executes

variable {r : Fin 10} {n : BitVec 16} {c : TkCmd} {s : State} (hc : s.cmdCode c = none)
include hc

theorem nop_completes (h : Executes r n (isOp 0x00) c s) : Completes (.nop r n) s fun t => t = s.complete c 0 0 := by
  obtain ⟨named, row, may, next⟩ := h
  exact completes_complete (exec_executes rfl ⟨named, by simp [row], may, next⟩ hc rfl) rfl rfl rfl

theorem fence_completes (h : Executes r n (isOp 0x04) c s) : Completes (.fence r n) s fun t => t = s.complete c 0 0 :=
  completes_complete (exec_executes rfl h hc rfl) rfl rfl rfl

theorem timeEvent_passed (h : Executes r n (isOp 0x05) c s) (h0 : c.u 16 1 = 0) (late : c.u 24 8 < s.now) :
    Completes (.timeEvent r n) s fun t => t = s.complete c 0x8009 (c.u 24 8) := by
  refine completes_complete (exec_executes rfl h hc ?_) rfl rfl rfl
  simp [State.timeEvent, h0, late]

theorem timeEvent_waits (h : Executes r n (isOp 0x05) c s) (h0 : c.u 16 1 = 0) (ahead : s.now ≤ c.u 24 8) :
    Completes (.timeEvent r n) s fun t => t = s.startCmd c := by
  refine completes_startCmd (exec_executes rfl h hc ?_)
  simp [State.timeEvent, h0, Nat.not_lt.2 ahead]

theorem copy_starts {k : Nat} (h : Executes r n (isOp 0x03) c s) (hk : c.tenant = some k)
    (open_ : c.u 16 1 ≠ 2 ∨ s.fsWindow k (c.u 24 8) (c.u 20 4) = true) : Completes (.copy r n) s fun t => t = s.startCmd c := by
  refine completes_startCmd (exec_executes rfl h hc ?_)
  simp only [State.copyStart, hk]
  rw [if_neg]
  rintro ⟨two, shut⟩
  exact open_.elim (fun ne => ne two) fun o => Bool.noConfusion (shut.symm.trans o)

theorem copy_outside {k : Nat} (h : Executes r n (isOp 0x03) c s) (hk : c.tenant = some k) (two : c.u 16 1 = 2)
    (shut : s.fsWindow k (c.u 24 8) (c.u 20 4) = false) :
    Completes (.copy r n) s fun t => t = (s.bump HI_DENY_CNT_REGION).fail c 0x9006 0 := by
  have eq : State.copyStart c s = (s.bump HI_DENY_CNT_REGION).fail c 0x9006 0 := by
    simp only [State.copyStart, hk]
    rw [if_pos ⟨two, shut⟩]
  exact completes_of_kept (exec_executes rfl h hc eq) ((fail_pending _ _ _ _).trans (bump_pending _ _ _))
    ((fail_boot _ _ _ _).trans (bump_boot _ _ _)) rfl

/-! ### TABLE_STAGE, TABLE_COMMIT and LACE_COMMIT -/

theorem tableStage_wrongLength (h : Executes r n (isOp 0x08) c s) (len : c.u 32 4 ≠ kindLength (c.u 16 1)) :
    Completes (.tableStage r n) s fun t => t = s.fail c 0x8008 0 :=
  completes_fail (exec_executes rfl h hc (if_pos len))

end Executes

/-- The expansion's check touches the Weft and its pins alone. -/
theorem onlyBanks_expCheck (s : State) : OnlyBanks s s.expCheck := by
  unfold State.expCheck
  split
  · rfl
  · split
    · rfl
    · exact OnlyBanks.trans (t := s.setWeft fun w => { w with exp := none }) rfl (onlyBanks_emptyBank _ _)

theorem OnlyBanks.track {s t : State} (h : OnlyBanks s t) : t.track = s.track := (congrArg State.track h :)

theorem OnlyBanks.regs {s t : State} (h : OnlyBanks s t) : t.regs = s.regs := (congrArg State.regs h :)

theorem OnlyBanks.pending {s t : State} (h : OnlyBanks s t) : t.pending = s.pending := (congrArg State.pending h :)

theorem OnlyBanks.boot {s t : State} (h : OnlyBanks s t) : t.boot = s.boot := (congrArg State.boot h :)

theorem OnlyBanks.hg {s t : State} (h : OnlyBanks s t) : t.hg = s.hg := (congrArg State.hg h :)

section Executes

variable {r : Fin 10} {n : BitVec 16} {c : TkCmd} {s : State} (hc : s.cmdCode c = none)
include hc

/-- A table that passes every check lies in its slot, and the command completes with its kind. -/
theorem tableStage_stages {k : Nat} {x : VRes} {u : State} (h : Executes r n (isOp 0x08) c s)
    (len : c.u 32 4 = kindLength (c.u 16 1)) (slot : s.slotFor (c.u 16 1) (c.u 20 4) = true) (hk : c.tenant = some k)
    (read : s.tenantRead c.req k (c.u 24 8) (kindLength (c.u 16 1)) {} = (u, x)) (fault : x.fault = none)
    (poison : x.poison = false) (passes : u.tableCheck (c.u 16 1) x.bytes = none) :
    Completes (.tableStage r n) s fun t => ⟨c.u 16 1, c.u 20 4, x.bytes, u.track.stageOrd⟩ ∈ t.track.staged ∧
      t.tkRecs c.req = u.tkRecs c.req ++ [c.record 0 (c.u 16 1) false] := by
  have only : OnlyAccessed s u := by
    simpa only [read] using onlyAccessed_tenantRead s c.req k (c.u 24 8) (kindLength (c.u 16 1)) {}
  have eq : State.stageTable c s = ((u.putStaged (c.u 16 1) (c.u 20 4) x.bytes).complete c 0 (c.u 16 1)).expCheck := by
    simp only [State.stageTable, len, slot, hk, read, fault, poison, passes, ne_eq, not_true_eq_false, if_false, Bool.not_true,
      Bool.false_eq_true, Option.orElse_none]
  have banks := onlyBanks_expCheck ((u.putStaged (c.u 16 1) (c.u 20 4) x.bytes).complete c 0 (c.u 16 1))
  refine completes_of_kept (exec_executes rfl h hc eq) (banks.pending.trans only.pending) (banks.boot.trans only.boot) ⟨?_, ?_⟩
  · rw [banks.track]
    exact List.mem_append_right _ (List.mem_singleton_self _)
  · rw [State.tkRecs, banks.track]
    exact tkRecs_complete _ _ _ _

end Executes

/-- The commit that TABLE_COMMIT makes. -/
def State.commitOf (s : State) (c : TkCmd) : Commit :=
  ⟨c.req, c.csn, c.u 16 1, c.u 20 4, if s.turnsRun then some (c.u 24 8) else none, 0, false⟩

/-- TABLE_COMMIT names no staged table and no fields. -/
def State.commitBare (s : State) (c : TkCmd) : Bool :=
  !(c.u 16 1).testBit 4 && ({ s with track := { s.track with commit := some (s.commitOf c) } }).carriedTabs.isEmpty

theorem commitTables_eq (s : State) (c : TkCmd) : s.commitTables c =
    if s.commitBare c then s.fail c 0x8001 0
    else if s.turnsRun && decide (c.u 24 8 < s.hg.nextTurn) then s.fail c 0x8007 0
    else ((s.setTrack fun t => { t with commit := some (s.commitOf c) }).startCmd c).expCheck.commitPoll := rfl

/-- A commit for a turn to come is not polled. -/
theorem commitPoll_turn {s : State} {x : Commit} (hx : s.track.commit = some x) (ht : x.target.isSome = true) : s.commitPoll = s := by
  simp [State.commitPoll, hx, ht]

section Executes

variable {r : Fin 10} {n : BitVec 16} {c : TkCmd} {s : State} (hc : s.cmdCode c = none)
include hc

section TableCommit

variable (h : Executes r n (isOp 0x09) c s)
include h

theorem tableCommit_bare (bare : s.commitBare c = true) : Completes (.tableCommit r n) s fun t => t = s.fail c 0x8001 0 :=
  completes_fail (exec_executes rfl h hc (if_pos bare))

theorem tableCommit_gone (named : s.commitBare c = false) (run : s.turnsRun = true) (gone : c.u 24 8 < s.hg.nextTurn) :
    Completes (.tableCommit r n) s fun t => t = s.fail c 0x8007 0 := by
  refine completes_fail (exec_executes rfl h hc ?_)
  rw [commitTables_eq, if_neg (by simp [named]), if_pos (by simp [run, gone])]

theorem tableCommit_pends (named : s.commitBare c = false) (run : s.turnsRun = true) (ahead : s.hg.nextTurn ≤ c.u 24 8) :
    Completes (.tableCommit r n) s fun t => t.track.commit = some (s.commitOf c) ∧ t.regs = s.regs := by
  have banks := onlyBanks_expCheck ((s.setTrack fun t => { t with commit := some (s.commitOf c) }).startCmd c)
  have commit : ((s.setTrack fun t => { t with commit := some (s.commitOf c) }).startCmd c).expCheck.track.commit =
      some (s.commitOf c) := congrArg Track.commit banks.track
  have eq : s.commitTables c = ((s.setTrack fun t => { t with commit := some (s.commitOf c) }).startCmd c).expCheck := by
    rw [commitTables_eq, if_neg (by simp [named]), if_neg (by simp [ahead]), commitPoll_turn commit (by simp [State.commitOf, run])]
  exact completes_of_kept (exec_executes rfl h hc eq) banks.pending banks.boot ⟨commit, banks.regs⟩

end TableCommit

theorem laceCommit_arms (h : Executes r n (isOp 0x20) c s) : Completes (.laceCommit r n) s fun t =>
    (t.lace (c.u 16 1)).armed = some (c.u 17 1, c.req, c.csn) ∧ t.is (TE_LACE_STAT_COMMIT_ARMED (c.u 16 1)) = true := by
  refine completes_of_kept (exec_executes rfl h hc rfl) (putB_pending _ _ _) (putB_boot _ _ _) ⟨?_, ?_⟩
  · exact congrArg Lace.armed (spGet_spPut_same _ _ _)
  · exact is_putB _ _ _ (by simp [TE_LACE_STAT_COMMIT_ARMED]) rfl

end Executes

/-! ### TIME_EVENT_REACHED and COPY_GRANULE -/

theorem timeEventReached_completes {r : Fin 10} {n : BitVec 16} {c : TkCmd} {s : State} (named : s.cmd? r n = some c)
    (run : c.phase = .running) (row : isOp 0x05 c = true) (h0 : c.u 16 1 = 0) :
    Completes (.timeEventReached r n) s fun t => t = (s.advanceTo (c.u 24 8 * 256)).complete c 0 (c.u 24 8) := by
  have eq : s.timeReached r n = (s.advanceTo (c.u 24 8 * 256)).complete c 0 (c.u 24 8) := by
    simp [State.timeReached, named, run, row, h0]
  have only := onlyHg_advanceTo s (c.u 24 8 * 256)
  exact completes_complete (congrArg s.done eq) (congrArg State.pending only :) (congrArg State.boot only :) rfl

theorem onlyAccessed_dpaRefuse (s : State) (c i : Nat) : OnlyAccessed s (s.dpaRefuse c i) := (onlyWalked_dpaRefuse s c i).accessed

theorem onlyAccessed_vaMap (s : State) (i t : Nat) (wr : Bool) (e : MemErr) (k va n : Nat) :
    OnlyAccessed s (s.vaMap i t wr e k va n).1 := by
  induction k generalizing s va n with
  | zero => exact OnlyAccessed.refl s
  | succ k ih =>
    unfold State.vaMap
    dsimp only
    split
    · exact OnlyAccessed.refl s
    · have first := onlyAccessed_xlate s i t va wr e
      split <;> rename_i x
      · simpa only [x] using first
      · simp only [x] at first
        split <;> rename_i code _
        · have rest := first.trans (ih _ (va + inPage va n) (n - inPage va n))
          split <;> (rename_i y; simpa only [y] using rest)
        · split
          · have rest :=
              (first.trans (onlyAccessed_dpaRefuse _ code i)).trans (ih _ (va + inPage va n) (n - inPage va n))
            split <;> (rename_i y; simpa only [y] using rest)
          · exact first.trans (onlyAccessed_dpaRefuse _ _ _)

theorem onlyAccessed_writePieces (s : State) (i : Nat) (e : MemErr) (ps : List (Option Nat × Nat)) (x : Load) :
    OnlyAccessed s (s.writePieces i e ps x) := by
  induction ps generalizing s x with
  | nil => exact OnlyAccessed.refl s
  | cons p r ih =>
    obtain ⟨_ | a, n⟩ := p
    · exact ih _ _
    · refine (onlyAccessed_dpaWrite s i a (x.bytes.take n) e true).trans (OnlyAccessed.trans ?_ (ih _ _))
      refine OnlyAccessed.foldl (fun u q => ?_) (OnlyAccessed.refl _) _
      split
      · rfl
      · rfl

/-- A COPY goes on or completes; only the Track shows it. -/
theorem onlyTrack_copyEnd (s : State) (c : TkCmd) : s.copyEnd c = { s with track := (s.copyEnd c).track } := by
  unfold State.copyEnd
  split <;> rfl

section CopyGranule

variable {r : Fin 10} {n : BitVec 16} {c : TkCmd} {k : Nat} {host : List Byte} {e : MemErr} {s : State}
  (named : s.cmd? r n = some c) (run : c.phase = .running) (row : isOp 0x03 c = true) (h1 : c.u 16 1 = 1) (h0 : c.u 17 1 = 0)
  (some_ : 0 < c.granule) (len : host.length = c.granule) (hk : c.tenant = some k)
include named run row h1 h0 some_ len hk

/-- A granule from HOST goes through the tenant's function. -/
theorem copyNext_host : s.copyNext r n host e = if s.is (HI_FUNC_STAT_DISABLED k) then s else s.copyGranule c k host e := by
  cases off : s.is (HI_FUNC_STAT_DISABLED k) <;>
    simp [State.copyNext, named, run, row, h1, h0, Nat.pos_iff_ne_zero.1 some_, len, hk, State.hostReach, off]

theorem copyGranule_disabled (off : s.is (HI_FUNC_STAT_DISABLED k) = true) : exec (.copyGranule r n host e) s = .next s := by
  refine (congrArg s.done ?_).trans (done_self s)
  rw [copyNext_host named run row h1 h0 some_ len hk, if_pos off]

theorem copyGranule_writes {u : State} {ps : List (Option Nat × Nat)} (on : s.is (HI_FUNC_STAT_DISABLED k) = false)
    (map : s.vaMap c.req k true e 3 (c.u 32 8 + c.done) c.granule = (u, .ok ps)) :
    Completes (.copyGranule r n host e) s fun t =>
      let v := u.writePieces c.req e ps { bytes := host, marks := List.replicate c.granule false }
      t = v.copyEnd { c with done := c.done + c.granule, waits := c.waits ++ v.pool.mirrorWait.drop u.pool.mirrorWait.length } := by
  have walked : OnlyAccessed s u := by simpa only [map] using onlyAccessed_vaMap s c.req k true e 3 (c.u 32 8 + c.done) c.granule
  have wrote := walked.trans
    (onlyAccessed_writePieces u c.req e ps { bytes := host, marks := List.replicate c.granule false })
  have eq : s.copyNext r n host e = u.copyToDevice c c.granule e ps { bytes := host, marks := List.replicate c.granule false } := by
    rw [copyNext_host named run row h1 h0 some_ len hk, if_neg (by simp [on])]
    simp [State.copyGranule, State.copySource, State.copyLoad, h1, h0, map]
  refine completes_of_kept (congrArg s.done eq) ?_ ?_ rfl
  · exact (congrArg State.pending (onlyTrack_copyEnd _ _)).trans wrote.pending
  · exact (congrArg State.boot (onlyTrack_copyEnd _ _)).trans wrote.boot

theorem copyGranule_suspends {u : State} {code : Nat} (on : s.is (HI_FUNC_STAT_DISABLED k) = false)
    (map : s.vaMap c.req k true e 3 (c.u 32 8 + c.done) c.granule = (u, .error code)) :
    Completes (.copyGranule r n host e) s fun t => t = (u.putCmd { c with phase := .suspended }).notice c code c.done := by
  have walked : OnlyAccessed s u := by simpa only [map] using onlyAccessed_vaMap s c.req k true e 3 (c.u 32 8 + c.done) c.granule
  have eq : s.copyNext r n host e = u.copySuspend c code := by
    rw [copyNext_host named run row h1 h0 some_ len hk, if_neg (by simp [on])]
    simp [State.copyGranule, State.copySource, h1, h0, map]
  exact completes_of_kept (congrArg s.done eq) walked.pending walked.boot rfl

end CopyGranule

/-- Settles O48: what fails its checks completes with their code; past them each command has the effect of its own operation. -/
theorem trackCommandsComplete : Obligations.TrackCommandsComplete := by
  unfold Obligations.TrackCommandsComplete
  refine ⟨fun q hq r n c code s h hc => trackRow_fails hq h hc,
    fun c st v s => ⟨rfl, tkRecs_complete s c st v, rfl⟩,
    fun r n c s hc => ⟨nop_completes hc, fence_completes hc,
      fun h h0 => ⟨timeEvent_passed hc h h0, timeEvent_waits hc h h0⟩,
      fun h k hk => ⟨copy_starts hc h hk, copy_outside hc h hk⟩,
      tableStage_wrongLength hc,
      fun k x u h len slot hk read fault poison passes => tableStage_stages hc h len slot hk read fault poison passes,
      fun h => ⟨tableCommit_bare hc h, tableCommit_gone hc h, tableCommit_pends hc h⟩, laceCommit_arms hc⟩,
    fun r n c s named run => ⟨timeEventReached_completes named run, fun host e k ps u row h1 h0 some_ len hk => ⟨?_, ?_, ?_⟩⟩⟩
  · exact copyGranule_disabled named run row h1 h0 some_ len hk
  · exact copyGranule_writes named run row h1 h0 some_ len hk
  · exact fun code => copyGranule_suspends named run row h1 h0 some_ len hk

end Sys2Proof.Machine
end

section
/-! Bits of a register after a write of one of its fields, the size of a command's fields, and what an MSI-X message leaves. -/

namespace Sys2Proof.Machine

open Reg

theorem testBit_setBits (v lo w x i : Nat) :
    (setBits v lo w x).testBit i = if lo ≤ i ∧ i < lo + w then x.testBit (i - lo) else v.testBit i := by
  have low : v % 2 ^ lo < 2 ^ lo := Nat.mod_lt _ (Nat.two_pow_pos lo)
  have mid : 2 ^ lo * (x % 2 ^ w) + v % 2 ^ lo < 2 ^ (lo + w) := by
    have : x % 2 ^ w + 1 ≤ 2 ^ w := Nat.mod_lt _ (Nat.two_pow_pos w)
    calc 2 ^ lo * (x % 2 ^ w) + v % 2 ^ lo < 2 ^ lo * (x % 2 ^ w + 1) := by rw [Nat.mul_add_one]; omega
      _ ≤ 2 ^ lo * 2 ^ w := Nat.mul_le_mul_left _ this
      _ = 2 ^ (lo + w) := (pow_add 2 lo w).symm
  have parts : setBits v lo w x = 2 ^ (lo + w) * (v / 2 ^ (lo + w)) + (2 ^ lo * (x % 2 ^ w) + v % 2 ^ lo) := by
    rw [setBits_eq, Nat.mul_comm (v / _), Nat.mul_comm (x % _), Nat.add_assoc]
  rw [parts, Nat.testBit_two_pow_mul_add _ mid, Nat.testBit_two_pow_mul_add _ low, Nat.testBit_mod_two_pow,
    Nat.testBit_mod_two_pow, Nat.testBit_div_two_pow]
  rcases Nat.lt_or_ge i lo with below | at_
  · simp [below, Nat.lt_add_right w below, Nat.not_le.2 below]
  · rcases Nat.lt_or_ge i (lo + w) with inside | above
    · simp [inside, at_, Nat.not_lt.2 at_, Nat.sub_lt_left_of_lt_add at_ inside]
    · simp [above, Nat.not_lt.2 above]

/-- A field's write changes the field's bits and no others. -/
theorem getLsbD_put (s : State) (f : Fld) (v : Nat) (i : Nat) (h : f.lo + f.w ≤ 32) :
    ((s.put f v).reg f.off).getLsbD i =
      if f.lo ≤ i ∧ i < f.lo + f.w then v.testBit (i - f.lo) else (s.reg f.off).getLsbD i := by
  rw [BitVec.getLsbD, toNat_put s f v h, testBit_setBits]
  rfl

theorem leNat_lt (l : List Byte) : leNat l < 256 ^ l.length := by
  induction l with
  | nil => exact Nat.one_pos
  | cons b r ih =>
    have byte := b.isLt
    rw [leNat, List.length_cons, pow_succ]
    omega

/-- A field of `n` bytes is below 256 ^ n. -/
theorem u_lt (c : TkCmd) (off n : Nat) : c.u off n < 256 ^ n := by
  refine (leNat_lt _).trans_le (Nat.pow_le_pow_right (by decide) ?_)
  simp

/-- An MSI-X message leaves the device or is held. -/
theorem msix_frame (s : State) (t v : Nat) :
    s.msix t v = { s with outbox := (s.msix t v).outbox, hostFns := (s.msix t v).hostFns } := by
  unfold State.msix
  split <;> rfl

end Sys2Proof.Machine
end

section
/-! The Pool's regions and extents (R456-R469; O53). -/

namespace Sys2Proof.Machine

open Reg

/-! ### Regions (R456-R460) -/

theorem exec_regionStateWrite {iid : Iid} {r : Fin 16} {s : State} (v : Word) (h : s.writeOk iid (PL_RGN_CFG r) = true) :
    exec (.regionStateWrite iid r v) s = s.done (s.rgnWrite iid.toNat (PL_RGN_CFG r) v) :=
  congrArg s.done (writeWith_ok h _)

theorem rgnWrite_other {s : State} {i : Nat} (off : Nat) (v : Word) (h : s.isFm i = false) : s.rgnWrite i off v = s.report 0x7001 i := by
  simp [State.rgnWrite, h]

theorem rgnWrite_cfg {s : State} {i : Nat} (r : Nat) (v : Word) (h : s.isFm i = true) : s.rgnWrite i (PL_RGN_CFG r) v = s.rgnCfg i r v := by
  have index : (PL_RGN_CFG r - 0xA01000) / 0x20 = r := by
    rw [PL_RGN_CFG]
    omega
  simp [State.rgnWrite, h, index]

section Region

variable {iid : Iid} {r : Fin 16} {v : Word} {s : State} (hw : s.writeOk iid (PL_RGN_CFG r) = true)
include hw

theorem regionStateWrite_other (h : s.isFm iid.toNat = false) : Completes (.regionStateWrite iid r v) s fun t => OnlyRegs s t ∧
    t.reg GLB_FAULT_LAST = BitVec.ofNat 32 (0x7001 + iid.toNat * 0x10000) ∧
    RegsKept [GLB_FAULT_FIRST, GLB_FAULT_LAST, GLB_FAULT_COUNT] s t :=
  completes_report _ ((exec_regionStateWrite v hw).trans (congrArg s.done (rgnWrite_other _ v h)))

variable (h : s.isFm iid.toNat = true)
include h

/-- The fabric manager's write is the region's own operation. -/
theorem exec_regionCfg : exec (.regionStateWrite iid r v) s = s.done (s.rgnCfg iid.toNat r v) :=
  (exec_regionStateWrite v hw).trans (congrArg s.done (rgnWrite_cfg r v h))

end Region

/-- The other fields of a closed region's PL_RGN_CFG take the bits written. -/
def State.rgnFields (s : State) (r : Nat) (v : Word) : State :=
  s.setReg (PL_RGN_CFG r) ((s.reg (PL_RGN_CFG r) &&& ~~~ BitVec.ofNat 32 rgnCfgMask) ||| (v &&& BitVec.ofNat 32 rgnCfgMask))

/-- A region shows a new state, with no drain. -/
def State.rgnShows (s : State) (r st : Nat) : State :=
  ({ s with pool := { s.pool with next := spPut (fun _ => none) s.pool.next r none } }.put (PL_RGN_CFG_STATE r) st).putB
    (PL_RGN_STAT_DRAINING r) false

theorem rgnStat_ne_cfg (r q : Nat) : PL_RGN_STAT r ≠ PL_RGN_CFG q := by
  simp only [PL_RGN_STAT, PL_RGN_CFG]
  omega

theorem state_rgnShows (s : State) (r st : Nat) : (s.rgnShows r st).get (PL_RGN_CFG_STATE r) = st % 4 := by
  rw [State.rgnShows, State.putB, get_put_ne _ _ _ _ (by simp [PL_RGN_STAT_DRAINING]) (.inl (rgnStat_ne_cfg r r)),
    get_put _ _ _ (by simp [PL_RGN_CFG_STATE])]
  rfl

theorem draining_rgnShows (s : State) (r st : Nat) : (s.rgnShows r st).is (PL_RGN_STAT_DRAINING r) = false :=
  is_putB _ _ _ (by simp [PL_RGN_STAT_DRAINING]) rfl

theorem next_rgnShows (s : State) (r st : Nat) : spGet (fun _ => none) (s.rgnShows r st).pool.next r = none :=
  spGet_spPut_same s.pool.next r none

/-- The other fields of PL_RGN_CFG do not change with STATE. -/
theorem fields_rgnShows (s : State) (r st : Nat) :
    (s.rgnShows r st).reg (PL_RGN_CFG r) &&& BitVec.ofNat 32 rgnCfgMask = s.reg (PL_RGN_CFG r) &&& BitVec.ofNat 32 rgnCfgMask := by
  rw [State.rgnShows, reg_putB_ne _ _ (rgnStat_ne_cfg r r)]
  refine BitVec.eq_of_getLsbD_eq fun i _ => ?_
  have bits := getLsbD_put { s with pool := { s.pool with next := spPut (fun _ => none) s.pool.next r none } } (PL_RGN_CFG_STATE r) st i
    (by simp [PL_RGN_CFG_STATE])
  rw [BitVec.getLsbD_and, BitVec.getLsbD_and]
  refine (congrArg (· && _) bits).trans ?_
  split
  · rename_i low
    have masked : (BitVec.ofNat 32 rgnCfgMask).getLsbD i = false := by
      obtain rfl | rfl : i = 0 ∨ i = 1 := by simp only [PL_RGN_CFG_STATE] at low; omega
      · rfl
      · rfl
    rw [masked, Bool.and_false, Bool.and_false]
  · rfl

theorem fields_rgnFields (s : State) (r : Nat) (v : Word) :
    (s.rgnFields r v).reg (PL_RGN_CFG r) &&& BitVec.ofNat 32 rgnCfgMask = v &&& BitVec.ofNat 32 rgnCfgMask := by
  rw [State.rgnFields, reg_setReg_same]
  ext i
  simp only [BitVec.getElem_and, BitVec.getElem_or, BitVec.getElem_not]
  cases (BitVec.ofNat 32 rgnCfgMask)[i] <;> simp

theorem rgnCfg_loads {s : State} {r : Nat} {v : Word} (i : Nat) (h0 : s.get (PL_RGN_CFG_STATE r) = 0) (hv : v.toNat % 4 = 1)
    (ok : (s.rgnFields r v).rangeCheck r ((s.rgnFields r v).reg (PL_RGN_BASE r)).toNat ((s.rgnFields r v).reg (PL_RGN_SIZE r)).toNat
      ((s.rgnFields r v).get (PL_RGN_CFG_PROT r)) = none) :
    s.rgnCfg i r v = (s.rgnFields r v).rgnShows r 1 := by
  unfold State.rgnFields at ok
  simp only [State.rgnCfg, h0, hv, ok, if_true, if_false, ne_eq, not_true_eq_false, one_ne_zero]
  rfl

theorem rgnCfg_badRange {s : State} {r c : Nat} {v : Word} (i : Nat) (h0 : s.get (PL_RGN_CFG_STATE r) = 0) (hv : v.toNat % 4 = 1)
    (bad : (s.rgnFields r v).rangeCheck r ((s.rgnFields r v).reg (PL_RGN_BASE r)).toNat
      ((s.rgnFields r v).reg (PL_RGN_SIZE r)).toNat ((s.rgnFields r v).get (PL_RGN_CFG_PROT r)) = some c) :
    s.rgnCfg i r v = s.report c i := by
  unfold State.rgnFields at bad
  simp only [State.rgnCfg, h0, hv, bad, if_true, if_false, ne_eq, not_true_eq_false, one_ne_zero]

/-- A region's drain towards a new state begins. -/
def State.rgnDrains (s : State) (r st : Nat) : State :=
  { s with pool := { s.pool with next := spPut (fun _ => none) s.pool.next r (some st) } }.putB (PL_RGN_STAT_DRAINING r) true

theorem rgnCfg_seals {s : State} {r : Nat} {v : Word} (i : Nat) (h1 : s.get (PL_RGN_CFG_STATE r) = 1) (hv : v.toNat % 4 = 2)
    (same : s.reg (PL_RGN_CFG r) &&& BitVec.ofNat 32 rgnCfgMask = v &&& BitVec.ofNat 32 rgnCfgMask) :
    s.rgnCfg i r v = s.rgnDrains r 2 := by
  simp [State.rgnCfg, h1, hv, same, rgnMove, State.rgnGo, State.rgnDrains]

/-- A move that R459 does not have is reported, and so is a change of another field beside it. -/
theorem rgnCfg_unsealed {s : State} {r : Nat} {v : Word} (i : Nat) (h2 : s.get (PL_RGN_CFG_STATE r) = 2) (hv : v.toNat % 4 = 1) :
    s.rgnCfg i r v = s.report 0x7004 i := by
  simp only [State.rgnCfg, h2, hv, rgnMove]
  cases hm : (s.reg (PL_RGN_CFG r) &&& BitVec.ofNat 32 rgnCfgMask) != (v &&& BitVec.ofNat 32 rgnCfgMask) <;> rfl

/-- CODE of GLB_FAULT_LAST after a report. -/
theorem code_report (s : State) (c i : Nat) : ((s.report c i).reg GLB_FAULT_LAST).toNat % 65536 = c % 65536 := by
  rw [report_last, faultWord, BitVec.toNat_ofNat]
  omega

theorem completes_regionReport {i : Instr} {r c j : Nat} {s : State} (h : exec i s = s.done (s.report c j)) :
    Completes i s fun t => t.reg (PL_RGN_CFG r) = s.reg (PL_RGN_CFG r) ∧ (t.reg GLB_FAULT_LAST).toNat % 65536 = c % 65536 :=
  completes_of_onlyRegs h (onlyRegs_report _ _ _) ⟨reg_report (by simp only [PL_RGN_CFG, GLB_FAULT_COUNT]; omega) _ _ _, code_report _ _ _⟩

section Region

variable {iid : Iid} {r : Fin 16} {v : Word} {s : State} (hw : s.writeOk iid (PL_RGN_CFG r) = true) (h : s.isFm iid.toNat = true)
include hw h

theorem regionStateWrite_loads (h0 : s.get (PL_RGN_CFG_STATE r) = 0) (hv : v.toNat % 4 = 1)
    (ok : (s.rgnFields r v).rangeCheck r ((s.rgnFields r v).reg (PL_RGN_BASE r)).toNat ((s.rgnFields r v).reg (PL_RGN_SIZE r)).toNat
      ((s.rgnFields r v).get (PL_RGN_CFG_PROT r)) = none) :
    Completes (.regionStateWrite iid r v) s fun t => t.get (PL_RGN_CFG_STATE r) = 1 ∧ t.is (PL_RGN_STAT_DRAINING r) = false ∧
      t.reg (PL_RGN_CFG r) &&& BitVec.ofNat 32 rgnCfgMask = v &&& BitVec.ofNat 32 rgnCfgMask :=
  completes_of_kept ((exec_regionCfg hw h).trans (congrArg s.done (rgnCfg_loads _ h0 hv ok))) rfl rfl
    ⟨state_rgnShows _ _ _, draining_rgnShows _ _ _, (fields_rgnShows _ _ _).trans (fields_rgnFields s r v)⟩

theorem regionStateWrite_seals (h1 : s.get (PL_RGN_CFG_STATE r) = 1) (hv : v.toNat % 4 = 2)
    (same : s.reg (PL_RGN_CFG r) &&& BitVec.ofNat 32 rgnCfgMask = v &&& BitVec.ofNat 32 rgnCfgMask) :
    Completes (.regionStateWrite iid r v) s fun t => t.get (PL_RGN_CFG_STATE r) = 1 ∧ t.is (PL_RGN_STAT_DRAINING r) = true ∧
      spGet (fun _ => none) t.pool.next r = some 2 := by
  refine completes_of_kept ((exec_regionCfg hw h).trans (congrArg s.done (rgnCfg_seals _ h1 hv same))) rfl rfl ⟨?_, ?_, ?_⟩
  · refine (get_put_ne _ _ _ _ (by simp [PL_RGN_STAT_DRAINING]) (.inl (rgnStat_ne_cfg r r))).trans h1
  · exact is_putB _ _ _ (by simp [PL_RGN_STAT_DRAINING]) rfl
  · exact spGet_spPut_same s.pool.next r (some 2)

end Region

/-- A drain ends in the state that it was for; sealing writes lines back before. -/
theorem regionDrainComplete_shows {r : Fin 16} {st : Nat} {s : State} (next : spGet (fun _ => none) s.pool.next r = some st)
    (small : st < 4) : Completes (.regionDrainComplete r) s fun t => t.get (PL_RGN_CFG_STATE r) = st ∧
      t.is (PL_RGN_STAT_DRAINING r) = false ∧ spGet (fun _ => none) t.pool.next r = none := by
  obtain ⟨m, eq⟩ : ∃ m, s.rgnDrained r = State.rgnShows { s with mem := m } r st := by
    by_cases two : st = 2
    · exact ⟨_, by simp [State.rgnDrained, next, two, State.rgnShows]; rfl⟩
    · exact ⟨s.mem, by simp [State.rgnDrained, next, two, State.rgnShows]⟩
  exact completes_of_kept (congrArg s.done eq) rfl rfl
    ⟨(state_rgnShows _ _ _).trans (Nat.mod_eq_of_lt small), draining_rgnShows _ _ _, next_rgnShows _ _ _⟩

/-! ### Extents (R462-R469) -/

theorem onlyRegs_extState (s : State) (x st : Nat) : OnlyRegs s (s.extState x st) := ((OnlyRegs.refl s).put _ _).putB _ _

theorem status_ne_extState (x : Nat) : PL_STATUS ≠ PL_EXT_STATE x := by
  simp only [PL_STATUS, PL_EXT_STATE]
  omega

theorem state_extState (s : State) (x st : Nat) : (s.extState x st).get (PL_EXT_STATE_STATE x) = st % 4 :=
  (get_put_ne _ _ _ _ (by decide) (.inl (status_ne_extState x))).trans (get_put _ _ _ (by simp [PL_EXT_STATE_STATE]))

/-- The fields beside STATE stay. -/
theorem holder_extState (s : State) (x st : Nat) : (s.extState x st).get (PL_EXT_STATE_HOLDER x) = s.get (PL_EXT_STATE_HOLDER x) :=
  (get_put_ne _ _ _ _ (by decide) (.inl (status_ne_extState x))).trans
    (get_put_ne _ _ _ _ (by simp [PL_EXT_STATE_STATE]) (.inr (by simp [PL_EXT_STATE_STATE, PL_EXT_STATE_HOLDER])))

/-- PL_STATUS.REVOKING shows an extent that is being revoked. -/
theorem revoking_extState (s : State) {x : Nat} (h : x < 32) : (s.extState x 3).is PL_STATUS_REVOKING = true := by
  refine (is_putB _ _ _ (by decide) rfl).trans (List.any_eq_true.2 ⟨x, List.mem_range.2 h, beq_iff_eq.2 ?_⟩)
  exact get_put _ _ _ (by simp [PL_EXT_STATE_STATE])

theorem ext_setExt (s : State) (x : Nat) (e : Ext) : (s.setExt x e).ext x = e := spGet_spPut_same _ _ _

theorem ext_of_pool {s t : State} (h : t.pool = s.pool) (x : Nat) : t.ext x = s.ext x := by simp only [State.ext, h]

theorem tkRecs_of_track {s t : State} (h : t.track = s.track) (r : Nat) : t.tkRecs r = s.tkRecs r := by simp only [State.tkRecs, h]

/-- A pool command executes like any other while PL_CTL.EN is 1. -/
theorem poolCmd_executes {r : Fin 10} {n : BitVec 16} {c : TkCmd} {s : State} {op : Nat} {f : TkCmd → State → State}
    (h : Executes r n (isOp op) c s) (hc : s.cmdCode c = none) (en : s.is PL_CTL_EN = true) : s.poolCmd r n op f = f c s := by
  obtain ⟨named, row, may, next⟩ := h
  exact runCmd_executes ⟨named, by simp [row, en], may, next⟩ hc

theorem reg_complete (s : State) (c : TkCmd) (a b o : Nat) : (s.complete c a b).reg o = s.reg o := rfl

theorem get_complete (s : State) (c : TkCmd) (a b : Nat) (f : Fld) : (s.complete c a b).get f = s.get f := rfl

/-! ### EXTENT_GRANT (R463) -/

/-- The generation that follows one. -/
def nextGen (gen : Nat) : Nat := if gen = 0xFFFF then 1 else gen + 1

theorem nextGen_lt {gen : Nat} (h : gen < 65536) : nextGen gen < 65536 := by
  unfold nextGen
  split <;> omega

/-- What PL_EXT_STATE holds once command c has been granted its extent under generation g. -/
def grantWord (c : TkCmd) (g : Nat) : Nat :=
  1 + c.u 18 1 / 2 % 4 * 4 + c.u 18 1 / 8 % 2 * 16 + c.u 18 1 % 2 * 32 + c.u 17 1 * 256 + g * 65536

theorem grantWord_fields (c : TkCmd) {g : Nat} (h : g < 65536) :
    grantWord c g < 2 ^ 32 ∧ bitsOf (grantWord c g) 0 2 = 1 ∧ bitsOf (grantWord c g) 16 16 = g := by
  have holder : c.u 17 1 < 256 := u_lt c 17 1
  have low : 1 + c.u 18 1 / 2 % 4 * 4 + c.u 18 1 / 8 % 2 * 16 + c.u 18 1 % 2 * 32 + c.u 17 1 * 256 < 65536 := by omega
  refine ⟨?_, ?_, ?_⟩
  · unfold grantWord
    omega
  · unfold grantWord bitsOf
    omega
  · simp only [grantWord, bitsOf, Nat.reducePow]
    rw [Nat.add_mul_div_right _ _ (by decide), Nat.div_eq_of_lt low, Nat.zero_add, Nat.mod_eq_of_lt h]

/-- The extent of command c is granted. -/
def State.extGranted (s : State) (c : TkCmd) (g : Nat) : State :=
  (((s.setReg (PL_EXT_BASE (c.u 16 1)) (BitVec.ofNat 32 (c.u 20 4))).setReg (PL_EXT_SIZE (c.u 16 1))
    (BitVec.ofNat 32 (c.u 24 4))).setReg (PL_EXT_STATE (c.u 16 1)) (BitVec.ofNat 32 (grantWord c g))).setExt (c.u 16 1) {}

section Granted

variable (s : State) (c : TkCmd) (g : Nat)

theorem fields_extGranted {g : Nat} (h : g < 65536) :
    (s.extGranted c g).get (PL_EXT_STATE_STATE (c.u 16 1)) = 1 ∧ (s.extGranted c g).get (PL_EXT_STATE_GEN (c.u 16 1)) = g := by
  obtain ⟨small, state, gen⟩ := grantWord_fields c h
  have word : ((s.extGranted c g).reg (PL_EXT_STATE (c.u 16 1))).toNat = grantWord c g := by
    rw [State.extGranted, setExt_reg, reg_setReg_same, BitVec.toNat_ofNat, Nat.mod_eq_of_lt small]
  simp only [State.get, PL_EXT_STATE_STATE, PL_EXT_STATE_GEN, word]
  exact ⟨state, gen⟩

theorem base_extGranted : ((s.extGranted c g).reg (PL_EXT_BASE (c.u 16 1))).toNat = c.u 20 4 := by
  have word : c.u 20 4 < 2 ^ 32 := u_lt c 20 4
  rw [State.extGranted, setExt_reg, reg_setReg_ne _ _ (by simp [PL_EXT_STATE, PL_EXT_BASE]),
    reg_setReg_ne _ _ (by simp [PL_EXT_SIZE, PL_EXT_BASE]), reg_setReg_same, BitVec.toNat_ofNat, Nat.mod_eq_of_lt word]

theorem size_extGranted : ((s.extGranted c g).reg (PL_EXT_SIZE (c.u 16 1))).toNat = c.u 24 4 := by
  have word : c.u 24 4 < 2 ^ 32 := u_lt c 24 4
  rw [State.extGranted, setExt_reg, reg_setReg_ne _ _ (by simp [PL_EXT_STATE, PL_EXT_SIZE]), reg_setReg_same, BitVec.toNat_ofNat,
    Nat.mod_eq_of_lt word]

end Granted

section Extents

variable {r : Fin 10} {n : BitVec 16} {c : TkCmd} {s : State} (hc : s.cmdCode c = none) (en : s.is PL_CTL_EN = true)
include hc en

section Grant

variable (h : Executes r n (isOp 0x18) c s) (fm : s.is PL_FM_VALID = true)
include h fm

theorem extentGrant_taken (held : s.get (PL_EXT_STATE_STATE (c.u 16 1)) ≠ 0) :
    Completes (.extentGrant r n) s fun t => t = s.fail c 0x7003 0 := by
  refine completes_fail (congrArg s.done ((poolCmd_executes h hc en).trans ?_))
  simp only [State.extGrant, fm, held, Bool.not_true, Bool.false_eq_true, if_false, ne_eq, not_false_eq_true, if_true]

theorem extentGrant_gives (free : s.get (PL_EXT_STATE_STATE (c.u 16 1)) = 0)
    (ok : s.rangeCheck 16 (c.u 20 4) (c.u 24 4) (c.u 18 1 / 2 % 4) = none) :
    Completes (.extentGrant r n) s fun t =>
      t.get (PL_EXT_STATE_STATE (c.u 16 1)) = 1 ∧
      t.get (PL_EXT_STATE_GEN (c.u 16 1)) = nextGen (s.get (PL_EXT_STATE_GEN (c.u 16 1))) ∧
      (t.reg (PL_EXT_BASE (c.u 16 1))).toNat = c.u 20 4 ∧ (t.reg (PL_EXT_SIZE (c.u 16 1))).toNat = c.u 24 4 ∧
      t.tkRecs c.req = s.tkRecs c.req ++ [c.record 0 (nextGen (s.get (PL_EXT_STATE_GEN (c.u 16 1)))) false] := by
  have next := nextGen_lt (bitsOf_lt (s.reg (PL_EXT_STATE (c.u 16 1))).toNat 16 16)
  have eq : State.extGrant c s = (s.extGranted c (nextGen (s.get (PL_EXT_STATE_GEN (c.u 16 1))))).complete c 0
      (nextGen (s.get (PL_EXT_STATE_GEN (c.u 16 1)))) := by
    simp only [State.extGrant, fm, free, ok, Bool.not_true, Bool.false_eq_true, if_false, ne_eq, not_true_eq_false]
    rfl
  obtain ⟨state, gen⟩ := fields_extGranted s c next
  refine completes_complete (congrArg s.done ((poolCmd_executes h hc en).trans eq)) rfl rfl ?_
  simp only [get_complete, reg_complete]
  exact ⟨state, gen, base_extGranted s c _, size_extGranted s c _, tkRecs_complete _ _ _ _⟩

end Grant

section Recall

variable (h : Executes r n (isOp 0x19) c s)
include h

theorem extentRecall_stale (other : c.u 18 2 ≠ s.get (PL_EXT_STATE_GEN (c.u 16 1))) :
    Completes (.extentRecall r n) s fun t => t = s.fail c 0x7010 (c.u 18 2) := by
  refine completes_fail (congrArg s.done ((poolCmd_executes h hc en).trans ?_))
  simp only [State.extRecall, if_pos (Or.inl other : _ ∨ s.get (PL_EXT_STATE_STATE (c.u 16 1)) = 0)]

/-- The recall has begun: its command waits, and the extent's grace runs from now. -/
def State.extRecalled (s : State) (c : TkCmd) : State :=
  (s.extWait c (c.u 16 1) 0).setExt (c.u 16 1)
    { (s.extWait c (c.u 16 1) 0).ext (c.u 16 1) with recalled := true, graceFrom := s.hg.dt }

omit hc en h in
theorem extRecall_granted (held : c.u 18 2 = s.get (PL_EXT_STATE_GEN (c.u 16 1))) (st : s.get (PL_EXT_STATE_STATE (c.u 16 1)) = 1) :
    State.extRecall c s = if c.u 17 1 = 1 then (s.extRecalled c).extState (c.u 16 1) 3
      else ((s.extRecalled c).extState (c.u 16 1) 2).extNotice (c.u 16 1) := by
  simp only [State.extRecall, held, st, ne_eq, not_true_eq_false, false_or, if_false, one_ne_zero]
  rfl

variable (held : c.u 18 2 = s.get (PL_EXT_STATE_GEN (c.u 16 1))) (st : s.get (PL_EXT_STATE_STATE (c.u 16 1)) = 1) (hx : c.u 16 1 < 32)
include held st hx

theorem extentRecall_forced (force : c.u 17 1 = 1) : Completes (.extentRecall r n) s fun t =>
    t.get (PL_EXT_STATE_STATE (c.u 16 1)) = 3 ∧ t.is PL_STATUS_REVOKING = true ∧ t.tkRecs c.req = s.tkRecs c.req := by
  have only := onlyRegs_extState (s.extRecalled c) (c.u 16 1) 3
  refine completes_of_kept (congrArg s.done ((poolCmd_executes h hc en).trans ((extRecall_granted held st).trans (if_pos force))))
    only.pending only.boot ⟨state_extState _ _ _, revoking_extState _ hx, ?_⟩
  exact tkRecs_of_track only.track c.req

omit hc en h held st hx in
/-- The notice to a tenant of this device sets its bit of PL_NOTICE. -/
theorem extNotice_local {u : State} {x : Nat} (here : (u.get (PL_EXT_STATE_HOLDER x)).testBit 3 = false) :
    ∃ v, u.extNotice x = State.msix (u.setReg (PL_NOTICE (u.get (PL_EXT_STATE_HOLDER x) % 8))
      (u.reg (PL_NOTICE (u.get (PL_EXT_STATE_HOLDER x) % 8)) ||| BitVec.twoPow 32 x)) (u.get (PL_EXT_STATE_HOLDER x) % 8) v :=
  ⟨_, by simp only [State.extNotice, here, Bool.false_eq_true, if_false]; rfl⟩

theorem extentRecall_notifies (unforced : c.u 17 1 = 0) (here : (s.get (PL_EXT_STATE_HOLDER (c.u 16 1))).testBit 3 = false) :
    Completes (.extentRecall r n) s fun t => t.get (PL_EXT_STATE_STATE (c.u 16 1)) = 2 ∧ (t.ext (c.u 16 1)).graceFrom = s.hg.dt ∧
      (t.reg (PL_NOTICE (s.get (PL_EXT_STATE_HOLDER (c.u 16 1)) % 8))).getLsbD (c.u 16 1) = true ∧ t.tkRecs c.req = s.tkRecs c.req := by
  have only := onlyRegs_extState (s.extRecalled c) (c.u 16 1) 2
  have holder : ((s.extRecalled c).extState (c.u 16 1) 2).get (PL_EXT_STATE_HOLDER (c.u 16 1)) =
      s.get (PL_EXT_STATE_HOLDER (c.u 16 1)) := holder_extState _ _ _
  obtain ⟨v, notice⟩ := extNotice_local (u := (s.extRecalled c).extState (c.u 16 1) 2) (x := c.u 16 1) (by rw [holder, here])
  rw [holder] at notice
  have state := state_extState (s.extRecalled c) (c.u 16 1) 2
  have grace : ((s.extRecalled c).ext (c.u 16 1)).graceFrom = s.hg.dt := congrArg Ext.graceFrom (ext_setExt _ _ _)
  have recs : (s.extRecalled c).tkRecs c.req = s.tkRecs c.req := rfl
  have row := (poolCmd_executes h hc en).trans ((extRecall_granted held st).trans ((if_neg (by omega)).trans notice))
  have pending : (s.extRecalled c).pending = s.pending := rfl
  have boot : (s.extRecalled c).boot = s.boot := rfl
  generalize (s.extRecalled c).extState (c.u 16 1) 2 = u at only state row
  have small : s.get (PL_EXT_STATE_HOLDER (c.u 16 1)) % 8 < 8 := Nat.mod_lt _ (by decide)
  generalize s.get (PL_EXT_STATE_HOLDER (c.u 16 1)) % 8 = k at row small ⊢
  have sent := msix_frame (u.setReg (PL_NOTICE k) (u.reg (PL_NOTICE k) ||| BitVec.twoPow 32 (c.u 16 1))) k v
  have reg (o : Nat) := (msix_keeps (u.setReg (PL_NOTICE k) (u.reg (PL_NOTICE k) ||| BitVec.twoPow 32 (c.u 16 1))) k v).2 o
  refine completes_of_kept (congrArg s.done row) ((congrArg State.pending sent).trans (only.pending.trans pending))
    ((congrArg State.boot sent).trans (only.boot.trans boot)) ⟨?_, ?_, ?_, ?_⟩
  · rw [State.get, reg, reg_setReg_ne _ _ (by simp only [PL_NOTICE, PL_EXT_STATE_STATE, PL_EXT_STATE]; omega)]
    exact state
  · exact (congrArg Ext.graceFrom (ext_of_pool ((congrArg State.pool sent).trans only.pool) _)).trans grace
  · rw [reg, reg_setReg_same, BitVec.getLsbD_or, BitVec.getLsbD_twoPow]
    simp [hx]
  · exact (tkRecs_of_track ((congrArg State.track sent).trans only.track) _).trans recs

end Recall

section Release

variable (h : Executes r n (isOp 0x1A) c s)
include h

theorem extentRelease_stale (other : c.u 18 2 ≠ s.get (PL_EXT_STATE_GEN (c.u 16 1))) :
    Completes (.extentRelease r n) s fun t => t = s.fail c 0x7011 (c.u 18 2) := by
  refine completes_fail (congrArg s.done ((poolCmd_executes h hc en).trans ?_))
  simp only [State.extRelease, if_pos other]

theorem extentRelease_waits (held : c.u 18 2 = s.get (PL_EXT_STATE_GEN (c.u 16 1)))
    (own : some (holderOf (s.get (PL_EXT_STATE_HOLDER (c.u 16 1)))) = c.tenant) (st : s.get (PL_EXT_STATE_STATE (c.u 16 1)) = 1) :
    Completes (.extentRelease r n) s fun t => t.get (PL_EXT_STATE_STATE (c.u 16 1)) = 3 ∧
      (t.ext (c.u 16 1)).waiters = (s.ext (c.u 16 1)).waiters ++ [(c.req, c.csn, 0)] ∧ t.tkRecs c.req = s.tkRecs c.req := by
  have eq : State.extRelease c s = (s.extWait c (c.u 16 1) 0).extState (c.u 16 1) 3 := by
    simp only [State.extRelease, held, own, st, ne_eq, not_true_eq_false, if_false, if_true, one_ne_zero]
  have only := onlyRegs_extState (s.extWait c (c.u 16 1) 0) (c.u 16 1) 3
  refine completes_of_kept (congrArg s.done ((poolCmd_executes h hc en).trans eq)) only.pending only.boot
    ⟨state_extState _ _ _, ?_, tkRecs_of_track only.track c.req⟩
  exact congrArg Ext.waiters ((ext_of_pool only.pool _).trans (ext_setExt s (c.u 16 1) _))

end Release

end Extents

/-! ### The end of a grace and of a revocation (R464-R466) -/

theorem recallGraceExpiry_revokes {x : Fin 32} {s : State} (st : s.get (PL_EXT_STATE_STATE x) = 2) :
    Completes (.recallGraceExpiry x) s fun t => t.get (PL_EXT_STATE_STATE x) = 3 ∧ t.is PL_STATUS_REVOKING = true ∧ t.ext x = s.ext x := by
  have eq : s.graceEnds x = (s.advanceTo ((s.ext x).graceFrom + (s.reg PL_RECALL_GRACE).toNat * 256000)).extState x 3 := by
    simp only [State.graceEnds, st, ne_eq, not_true_eq_false, if_false]
  generalize (s.ext x).graceFrom + (s.reg PL_RECALL_GRACE).toNat * 256000 = u at eq
  have only := onlyRegs_extState (s.advanceTo u) x 3
  have time := onlyHg_advanceTo s u
  exact completes_of_kept (congrArg s.done eq) (only.pending.trans (congrArg State.pending time :))
    (only.boot.trans (congrArg State.boot time :)) ⟨state_extState _ _ _, revoking_extState _ x.isLt,
      ext_of_pool (only.pool.trans (congrArg State.pool time :)) _⟩

theorem recallGraceExpiry_idle {x : Fin 32} {s : State} (st : s.get (PL_EXT_STATE_STATE x) ≠ 2) :
    exec (.recallGraceExpiry x) s = .next s :=
  (congrArg s.done (if_pos st)).trans (done_self s)

/-- Waiting commands that complete change the Track alone. -/
theorem wake_frame (s : State) (g : Nat) (l : List (Nat × BitVec 16 × Nat)) : s.wake g l = { s with track := (s.wake g l).track } := by
  induction l generalizing s with
  | nil => rfl
  | cons w rest ih =>
    obtain ⟨r, n, code⟩ := w
    unfold State.wake
    split
    · exact ih _
    · exact ih s

theorem revocationComplete_frees {x : Fin 32} {s : State} (st : s.get (PL_EXT_STATE_STATE x) = 3) :
    Completes (.revocationComplete x) s fun t => t.get (PL_EXT_STATE_STATE x) = 0 ∧ (t.ext x).waiters = [] ∧
      (t.reg (PL_NOTICE (s.get (PL_EXT_STATE_HOLDER x) % 8))).getLsbD x = false := by
  have small : s.get (PL_EXT_STATE_HOLDER x) % 8 < 8 := Nat.mod_lt _ (by decide)
  have hx := x.isLt
  generalize hk : s.get (PL_EXT_STATE_HOLDER x) % 8 = k at small ⊢
  have only := (onlyRegs_extState s x 0).setReg (PL_NOTICE k) (s.reg (PL_NOTICE k) &&& ~~~ BitVec.twoPow 32 x)
  have state := state_extState s x 0
  have eq : ∃ e g l, e.waiters = [] ∧ s.revoked x =
      (((s.extState x 0).setReg (PL_NOTICE k) (s.reg (PL_NOTICE k) &&& ~~~ BitVec.twoPow 32 x)).setExt x e).wake g l := by
    refine ⟨_, _, _, ?_, by simp only [State.revoked, st, hk, ne_eq, not_true_eq_false, if_false]; rfl⟩
    rfl
  obtain ⟨e, g, l, none_, eq⟩ := eq
  have woken := wake_frame (((s.extState x 0).setReg (PL_NOTICE k) (s.reg (PL_NOTICE k) &&& ~~~ BitVec.twoPow 32 x)).setExt x e) g l
  have reg (o : Nat) : (s.revoked x).reg o =
      ((s.extState x 0).setReg (PL_NOTICE k) (s.reg (PL_NOTICE k) &&& ~~~ BitVec.twoPow 32 x)).reg o := by
    rw [eq, woken]
    rfl
  refine completes_of_kept (t := s.revoked x) rfl ?_ ?_ ⟨?_, ?_, ?_⟩
  · rw [eq, woken]
    exact only.pending
  · rw [eq, woken]
    exact only.boot
  · rw [State.get, reg, reg_setReg_ne _ _ (by simp only [PL_NOTICE, PL_EXT_STATE_STATE, PL_EXT_STATE]; omega)]
    exact state
  · rw [eq, woken]
    exact (congrArg Ext.waiters (ext_setExt _ _ e)).trans none_
  · rw [reg, reg_setReg_same, BitVec.getLsbD_and, BitVec.getLsbD_not, BitVec.getLsbD_twoPow]
    simp [hx]

/-- Settles O53: a region's moves are those of R459, an extent's those of R463 to R468; a command that waits completes only where
its extent is free again. -/
theorem poolSharesAndRevokes : Obligations.PoolSharesAndRevokes := by
  unfold Obligations.PoolSharesAndRevokes
  refine ⟨fun iid r v s hw => ⟨regionStateWrite_other hw, fun h h0 hv => ⟨regionStateWrite_loads hw h h0 hv, fun c bad => ?_⟩,
      regionStateWrite_seals hw, fun h h2 hv => ?_⟩,
    fun r st s => regionDrainComplete_shows,
    fun r n c s hc en hx => ⟨fun h fm => ⟨extentGrant_taken hc en h fm, extentGrant_gives hc en h fm⟩,
      fun h => ⟨extentRecall_stale hc en h, fun held st => ⟨extentRecall_forced hc en h held st hx,
        extentRecall_notifies hc en h held st hx⟩⟩,
      fun h => ⟨extentRelease_stale hc en h, extentRelease_waits hc en h⟩⟩,
    fun x s => ⟨recallGraceExpiry_revokes, recallGraceExpiry_idle, revocationComplete_frees⟩⟩
  · exact completes_regionReport ((exec_regionCfg hw h).trans (congrArg s.done (rgnCfg_badRange _ h0 hv bad)))
  · exact completes_regionReport ((exec_regionCfg hw h).trans (congrArg s.done (rgnCfg_unsealed _ h2 hv)))

end Sys2Proof.Machine
end

section
/-! What the end of a tenant's work leaves of the Host Interface, the Selvedge, the Referee and the MC, and of a fault that stands in
GLB_FAULT_FIRST (R469, R514). -/

namespace Sys2Proof.Machine

open Reg

/-- No register, nothing of the power states, and nothing that is known of other devices has changed. -/
structure Still (s t : State) : Prop where
  regs : t.regs = s.regs
  pwr : t.pwr = s.pwr
  peers : t.sv.peers = s.sv.peers

namespace Still

variable {s t u : State}

theorem refl (s : State) : Still s s := ⟨rfl, rfl, rfl⟩

theorem trans (h : Still s t) (k : Still t u) : Still s u :=
  ⟨k.regs.trans h.regs, k.pwr.trans h.pwr, k.peers.trans h.peers⟩

/-- What leaves the rest still may follow what does. -/
theorem before (k : Still t u) (h : Still s t) : Still s u := h.trans k

theorem foldl {α : Type} {f : State → α → State} (h : Still s t) (hf : ∀ u a, Still u (f u a)) (as : List α) :
    Still s (as.foldl f t) := by
  induction as generalizing t with
  | nil => exact h
  | cons a as ih => exact ih (h.trans (hf t a))

end Still

/-- A fault in GLB_FAULT_FIRST stands, and the registers from the Host Interface's block on but those of a list, the power states and
what is known of other devices are as they were. -/
structure HostKept (l : List Nat) (s t : State) : Prop where
  first : s.reg GLB_FAULT_FIRST ≠ 0 → t.reg GLB_FAULT_FIRST = s.reg GLB_FAULT_FIRST
  regs : ∀ o, o ∉ l → 0xC00000 ≤ o → t.reg o = s.reg o
  pwr : t.pwr = s.pwr
  peers : t.sv.peers = s.sv.peers

namespace HostKept

variable {l : List Nat} {s t u : State}

theorem refl (l : List Nat) (s : State) : HostKept l s s := ⟨fun _ => rfl, fun _ _ _ => rfl, rfl, rfl⟩

theorem trans (h : HostKept l s t) (k : HostKept l t u) : HostKept l s u :=
  ⟨fun f => (k.first (by rwa [h.first f])).trans (h.first f), fun o out low => (k.regs o out low).trans (h.regs o out low),
    k.pwr.trans h.pwr, k.peers.trans h.peers⟩

theorem mono {m : List Nat} (h : HostKept l s t) (sub : l ⊆ m) : HostKept m s t :=
  ⟨h.first, fun o out low => h.regs o (fun i => out (sub i)) low, h.pwr, h.peers⟩

theorem still (h : Still s t) : HostKept l s t :=
  ⟨fun _ => reg_of_regs h.regs _, fun o _ _ => reg_of_regs h.regs o, h.pwr, h.peers⟩

theorem setReg (h : HostKept l s t) {o : Nat} (v : Word) (ho : o ∈ l ∨ o < 0xC00000) (hf : GLB_FAULT_FIRST < o) :
    HostKept l s (t.setReg o v) := by
  refine ⟨fun f => (reg_setReg_ne t v hf.ne').trans (h.first f),
    fun q out low => (reg_setReg_ne t v ?_).trans (h.regs q out low), h.pwr, h.peers⟩
  rintro rfl
  exact ho.elim out (by omega)

theorem put (h : HostKept l s t) {f : Fld} (v : Nat) (ho : f.off ∈ l ∨ f.off < 0xC00000) (hf : GLB_FAULT_FIRST < f.off) :
    HostKept l s (t.put f v) := h.setReg _ ho hf

theorem putB (h : HostKept l s t) {f : Fld} (b : Bool) (ho : f.off ∈ l ∨ f.off < 0xC00000) (hf : GLB_FAULT_FIRST < f.off) :
    HostKept l s (t.putB f b) := h.setReg _ ho hf

theorem bump (h : HostKept l s t) {f : Fld} (n : Nat) (ho : f.off ∈ l ∨ f.off < 0xC00000) (hf : GLB_FAULT_FIRST < f.off) :
    HostKept l s (t.bump f n) := h.setReg _ ho hf

theorem report (h : HostKept l s t) (c i : Nat) : HostKept l s (t.report c i) := by
  refine h.trans ⟨fun f => ?_, fun o _ low => reg_report (by simp only [GLB_FAULT_COUNT]; omega) _ _ _, report_pwr t c i,
    congrArg Sv.peers (report_sv t c i)⟩
  rw [report_first, if_neg f]

theorem foldl {α : Type} {f : State → α → State} {as : List α} (hf : ∀ a ∈ as, ∀ u, HostKept l u (f u a)) (h : HostKept l s t) :
    HostKept l s (as.foldl f t) := by
  induction as generalizing t with
  | nil => exact h
  | cons a as ih => exact ih (fun b hb => hf b (List.mem_cons_of_mem a hb)) (h.trans (hf a List.mem_cons_self t))

theorem get (h : HostKept l s t) {f : Fld} (out : f.off ∉ l) (low : 0xC00000 ≤ f.off) : t.get f = s.get f := by
  rw [State.get, State.get, h.regs _ out low]

theorem is (h : HostKept l s t) {f : Fld} (out : f.off ∉ l) (low : 0xC00000 ≤ f.off) : t.is f = s.is f := by
  rw [State.is, State.is, h.get out low]

end HostKept

/-! ### The operations that end a tenant's work -/

section LoseTenant

variable (l : List Nat) (s : State)

theorem hostKept_extState {x : Nat} (st : Nat) (h : x < 32) : HostKept l s (s.extState x st) := by
  refine (HostKept.put (HostKept.refl l s) st (.inr ?_) ?_).putB _ (.inr (by decide)) (by decide)
  all_goals simp only [PL_EXT_STATE_STATE, PL_EXT_STATE, GLB_FAULT_FIRST]; omega

theorem still_msix (t v : Nat) : Still s (s.msix t v) := by
  rw [msix_frame]
  exact ⟨rfl, rfl, rfl⟩

theorem hostKept_holderLost (p : Nat → Bool) : HostKept l s (s.holderLost p) := by
  have revoked : HostKept l s ((s.heldBy p).foldl (fun s x => (s.extState x 3).report 0x7009 poolIid) s) := by
    refine HostKept.foldl (fun x hx u => (hostKept_extState l u 3 ?_).report _ _) (HostKept.refl l s)
    exact List.mem_range.1 (List.mem_filter.1 hx).1
  unfold State.holderLost
  dsimp only
  split
  · exact revoked
  · exact revoked.trans (HostKept.still (still_msix _ _ _))

/-- The head's move touches the squares alone. -/
theorem still_moveHead (k : Nat) : Still s (s.moveHead k) := by
  induction k generalizing s with
  | zero => exact .refl s
  | succ k ih =>
    unfold State.moveHead
    split
    · exact (ih _).before ⟨rfl, rfl, rfl⟩
    · exact .refl s

theorem still_passSquare (n : Nat) : Still s (s.passSquare n) := by
  unfold State.passSquare
  split
  · exact (still_moveHead _ _).before ⟨rfl, rfl, rfl⟩
  · exact ⟨rfl, rfl, rfl⟩

theorem still_finish (r : Nat) (c : BitVec 16) : Still s (s.finish r c) := ⟨rfl, rfl, rfl⟩

theorem hostKept_voidSquares (t : Nat) : HostKept l s (s.voidSquares t) := by
  refine HostKept.foldl (fun p _ u => ?_) (HostKept.refl l s)
  refine ((HostKept.refl l u).bump (f := whole TK_VOID_CNT) 1 (.inr (by decide)) (by decide)).trans (HostKept.still ?_)
  exact (still_passSquare _ _).trans (still_finish _ _ _)

theorem still_cancelLaunch (t : Nat) : Still s (s.cancelLaunch t) := by
  unfold State.cancelLaunch
  split
  · split <;> exact ⟨rfl, rfl, rfl⟩
  · exact .refl s

theorem still_expCheck : Still s s.expCheck := by
  unfold State.expCheck State.emptyBank
  split
  · exact .refl s
  · split
    · exact .refl s
    · split <;> exact ⟨rfl, rfl, rfl⟩

theorem still_cancelCommit (t : Nat) : Still s (s.cancelCommit t) := by
  unfold State.cancelCommit
  split
  · split
    · exact (still_expCheck _).before ⟨rfl, rfl, rfl⟩
    · exact .refl s
  · exact .refl s

theorem hostKept_disarmLaces (t : Nat) : HostKept l s (s.disarmLaces t) := by
  refine HostKept.foldl (fun k hk u => ?_) (HostKept.refl l s)
  have small := List.mem_range.1 hk
  split
  · have moved : HostKept l u (u.setLace k { u.lace k with armed := none }) := HostKept.still ⟨rfl, rfl, rfl⟩
    refine moved.putB _ (.inr ?_) ?_
    all_goals simp only [TE_LACE_STAT_COMMIT_ARMED, TE_LACE_STAT, GLB_FAULT_FIRST]; omega
  · exact HostKept.refl l u

theorem still_endCommands (t : Nat) : Still s (s.endCommands t) := by
  unfold State.endCommands
  refine Still.foldl ?_ (fun u c => still_finish u t c) _
  exact ⟨rfl, rfl, rfl⟩

theorem still_complete (c : TkCmd) (a b : Nat) : Still s (s.complete c a b) := ⟨rfl, rfl, rfl⟩

theorem still_graphGone (k : Nat) (cs : List TkCmd) : Still s (s.graphGone k cs) := by
  induction cs generalizing s with
  | nil => exact .refl s
  | cons c cs ih => exact (still_complete s c 0 0).trans (ih _)

theorem still_freeGraph (k : Nat) : Still s (s.freeGraph k) := by
  unfold State.freeGraph
  split
  · split
    · exact (still_graphGone _ _ _).before ⟨rfl, rfl, rfl⟩
    · exact .refl s
  · exact .refl s

theorem still_discard (h : Nat) (st : ActSt) : Still s (s.discard h st) := by
  unfold State.discard
  split
  · exact .refl s
  · split
    · exact ⟨rfl, rfl, rfl⟩
    · exact (still_freeGraph _ _).before ⟨rfl, rfl, rfl⟩

theorem still_endGraph (k : Nat) : Still s (s.endGraph k) := by
  unfold State.endGraph
  split
  · exact .refl s
  · refine (still_freeGraph _ _).before (Still.foldl ?_ (fun u h => ?_) _)
    · exact ⟨rfl, rfl, rfl⟩
    · split
      · exact still_discard _ _ _
      · exact .refl u

theorem hostKept_endTenant (t : Nat) : HostKept l s (s.endTenant t) := by
  have cancelled := (still_cancelLaunch (s.voidSquares t) t).trans (still_cancelCommit _ t)
  have ended := (((hostKept_voidSquares l s t).trans (HostKept.still cancelled)).trans (hostKept_disarmLaces l _ t)).trans
    (HostKept.still (still_endCommands _ t))
  exact HostKept.foldl (fun g _ u => HostKept.still (still_endGraph u _)) ended

/-- A tenant's work ends. -/
theorem hostKept_loseTenant (t : Nat) : HostKept l s (s.loseTenant t) :=
  (hostKept_holderLost l s _).trans (hostKept_endTenant l _ t)

end LoseTenant

/-! ### What the answer of a command that leaves the start-up's record alone shows -/

section Answered

variable (t : State) (p : List Instr) (b : Boot)

theorem reg_answered (o : Nat) : State.reg { t with pending := p, boot := b } o = t.reg o := rfl

theorem get_answered (f : Fld) : State.get { t with pending := p, boot := b } f = t.get f := rfl

theorem is_answered (f : Fld) : State.is { t with pending := p, boot := b } f = t.is f := rfl

theorem hostFn_answered (k : Nat) : State.hostFn { t with pending := p, boot := b } k = t.hostFn k := rfl

end Answered

/-! ### A function's state (R547-R549) -/

theorem stat_low (k : Nat) : 0xC00000 ≤ HI_FUNC_STAT k ∧ GLB_FAULT_FIRST < HI_FUNC_STAT k ∧ HI_FUNC_STAT k ≠ HI_STATUS := by
  simp only [HI_FUNC_STAT, GLB_FAULT_FIRST, HI_STATUS]
  omega

theorem stat_inj {j k : Nat} (h : j ≠ k) : HI_FUNC_STAT j ≠ HI_FUNC_STAT k := by
  simp only [HI_FUNC_STAT]
  omega

/-- The flags of a function that is disabled, absent and without enables. -/
structure FnOff (k : Nat) (t : State) : Prop where
  disabled : t.is (HI_FUNC_STAT_DISABLED k) = true
  present : t.is (HI_FUNC_STAT_PRESENT k) = false
  mse : t.is (HI_FUNC_STAT_MSE k) = false
  bme : t.is (HI_FUNC_STAT_BME k) = false

theorem FnOff.of_reg {k : Nat} {s t : State} (h : FnOff k s) (e : t.reg (HI_FUNC_STAT k) = s.reg (HI_FUNC_STAT k)) : FnOff k t :=
  ⟨(is_congr e).trans h.disabled, (is_congr e).trans h.present, (is_congr e).trans h.mse, (is_congr e).trans h.bme⟩

/-- The registers that R549 resets. -/
def fnOffs (k : Nat) : List Nat :=
  [TK_CQ_BASE_LO k, TK_CQ_BASE_HI k, TK_CQ_CFG k, TK_CQ_HEAD k, TK_CQ_TAIL k,
    AT_TEN_CTL k, AT_ROOT_LO k, AT_ROOT_HI k, AT_INV_VA_LO k, AT_INV_VA_HI k, AT_INV_CTL k, AT_FAULT_STAT k]

theorem reg_resetAll (offs : List Nat) (s : State) (o : Nat) :
    (offs.foldl (fun s o => s.setReg o (regReset o)) s).reg o = if o ∈ offs then regReset o else s.reg o := by
  induction offs generalizing s with
  | nil => rfl
  | cons q offs ih =>
    rw [List.foldl_cons, ih, reg_setReg]
    by_cases e : q = o
    · simp [e]
    · simp [e, Ne.symm e]

theorem onlyRegs_resetAll (offs : List Nat) (s : State) : OnlyRegs s (offs.foldl (fun s o => s.setReg o (regReset o)) s) := by
  induction offs generalizing s with
  | nil => rfl
  | cons q offs ih => exact OnlyRegs.trans (t := s.setReg q (regReset q)) rfl (ih _)

theorem regs_fnRegs (s : State) (k : Nat) : (s.fnRegs k).regs = ((fnOffs k).foldl (fun s o => s.setReg o (regReset o)) s).regs := rfl

theorem pwr_fnRegs (s : State) (k : Nat) : (s.fnRegs k).pwr = s.pwr := by
  unfold State.fnRegs
  extract_lets offs s1 s2
  have reset : OnlyRegs s s1 := onlyRegs_resetAll offs s
  clear_value s1
  rw [setTrack_pwr]
  exact reset.pwr

theorem sv_fnRegs (s : State) (k : Nat) : (s.fnRegs k).sv = s.sv := by
  unfold State.fnRegs
  extract_lets offs s1 s2
  have reset : OnlyRegs s s1 := onlyRegs_resetAll offs s
  clear_value s1
  rw [setTrack_sv]
  exact reset.sv

theorem reg_fnRegs (s : State) (k o : Nat) : (s.fnRegs k).reg o = if o ∈ fnOffs k then regReset o else s.reg o := by
  rw [State.reg, regs_fnRegs, ← reg_resetAll]
  rfl

theorem fnOffs_range {k o : Nat} (hk : k < 8) (h : o ∈ fnOffs k) : 0x800000 ≤ o ∧ o < 0xC00000 := by
  simp only [fnOffs, List.mem_cons, List.not_mem_nil, or_false, TK_CQ_BASE_LO, TK_CQ_BASE_HI, TK_CQ_CFG, TK_CQ_HEAD, TK_CQ_TAIL,
    AT_TEN_CTL, AT_ROOT_LO, AT_ROOT_HI, AT_INV_VA_LO, AT_INV_VA_HI, AT_INV_CTL, AT_FAULT_STAT] at h
  omega

theorem hostKept_fnRegs (l : List Nat) (s : State) {k : Nat} (hk : k < 8) : HostKept l s (s.fnRegs k) := by
  refine ⟨fun _ => ?_, fun o _ low => ?_, ?_, ?_⟩
  · rw [reg_fnRegs, if_neg fun h => absurd (fnOffs_range hk h).1 (by decide)]
  · rw [reg_fnRegs, if_neg fun h => absurd (fnOffs_range hk h).2 (by omega)]
  · exact pwr_fnRegs s k
  · rw [sv_fnRegs]

/-- A function's configuration space after its reset, and its flags. -/
def State.fnCleared (s : State) (k : Nat) : State :=
  ((s.fnConfig k).putB (HI_FUNC_STAT_PRESENT k) false).putB (HI_FUNC_STAT_DISABLED k) true

theorem hostKept_fnCleared (s : State) (k : Nat) : HostKept [HI_FUNC_STAT k] s (s.fnCleared k) := by
  obtain ⟨-, high, -⟩ := stat_low k
  have own : HI_FUNC_STAT k ∈ [HI_FUNC_STAT k] ∨ HI_FUNC_STAT k < 0xC00000 := .inl (List.mem_singleton_self _)
  have config : HostKept [HI_FUNC_STAT k] s (s.fnConfig k) :=
    (((HostKept.refl _ s).putB (f := HI_FUNC_STAT_MSE k) false own high).putB (f := HI_FUNC_STAT_BME k) false own high).trans
      (HostKept.still ⟨rfl, rfl, rfl⟩)
  exact (config.putB (f := HI_FUNC_STAT_PRESENT k) false own high).putB (f := HI_FUNC_STAT_DISABLED k) true own high

theorem fnOff_fnCleared (s : State) (k : Nat) : FnOff k (s.fnCleared k) := by
  refine ⟨?_, ?_, ?_, ?_⟩ <;>
    simp [State.fnCleared, State.fnConfig, is_putB, is_putB_ne, HI_FUNC_STAT_DISABLED, HI_FUNC_STAT_PRESENT, HI_FUNC_STAT_MSE,
      HI_FUNC_STAT_BME]

theorem flr_fnCleared (s : State) (k : Nat) : (s.fnCleared k).is (HI_FUNC_STAT_FLR k) = s.is (HI_FUNC_STAT_FLR k) := by
  simp [State.fnCleared, State.fnConfig, is_putB_ne, HI_FUNC_STAT_DISABLED, HI_FUNC_STAT_PRESENT, HI_FUNC_STAT_MSE,
    HI_FUNC_STAT_BME, HI_FUNC_STAT_FLR]

section Reset

variable (s : State) {k : Nat} (hk : k < 8)
include hk

/-- After its flags are cleared, a function's reset leaves the Host Interface alone. -/
theorem hostKept_fnEnded : HostKept [] (s.fnCleared k) (s.fnReset k) :=
  (hostKept_loseTenant [] _ k).trans (hostKept_fnRegs [] _ hk)

theorem stat_fnReset : (s.fnReset k).reg (HI_FUNC_STAT k) = (s.fnCleared k).reg (HI_FUNC_STAT k) :=
  (hostKept_fnEnded s hk).regs _ List.not_mem_nil (stat_low k).1

theorem fnOff_fnReset : FnOff k (s.fnReset k) := (fnOff_fnCleared s k).of_reg (stat_fnReset s hk)

theorem flr_fnReset : (s.fnReset k).is (HI_FUNC_STAT_FLR k) = s.is (HI_FUNC_STAT_FLR k) :=
  (is_congr (stat_fnReset s hk)).trans (flr_fnCleared s k)

theorem hostKept_fnReset : HostKept [HI_FUNC_STAT k] s (s.fnReset k) :=
  (hostKept_fnCleared s k).trans ((hostKept_fnEnded s hk).mono (List.nil_subset _))

end Reset

/-- The queue and the ATU of a function hold their reset values. -/
structure FnRegs (k : Nat) (t : State) : Prop where
  cfg : t.reg (TK_CQ_CFG k) = regReset (TK_CQ_CFG k)
  head : t.reg (TK_CQ_HEAD k) = regReset (TK_CQ_HEAD k)
  ctl : t.reg (AT_TEN_CTL k) = regReset (AT_TEN_CTL k)
  root : t.reg (AT_ROOT_LO k) = regReset (AT_ROOT_LO k)

theorem fnRegs_resets (s : State) (k : Nat) : FnRegs k (s.fnRegs k) := by
  refine ⟨?_, ?_, ?_, ?_⟩ <;> rw [reg_fnRegs, if_pos (by simp [fnOffs])]

/-! ### FUNCTION_ENABLE -/

/-- What linkUp leaves: its port is up, and of the registers only HI_STATUS may change. -/
theorem linkUp_up (s : State) {p : Nat} (hp : p < 2) : ((s.linkUp p).reg HI_STATUS).getLsbD (8 * p) = true := by
  unfold State.linkUp
  dsimp only
  split
  · assumption
  · rw [show ∀ (u : State) (w : Pwr), State.reg { u with pwr := w } HI_STATUS = u.reg HI_STATUS from fun _ _ => rfl, reg_setReg_same,
      BitVec.getLsbD_ofNat, testBit_setBits, testBit_setBits, testBit_setBits]
    simp
    omega

theorem linkUp_kept (s : State) (p : Nat) : (∀ o, HI_STATUS ≠ o → (s.linkUp p).reg o = s.reg o) ∧ (s.linkUp p).hostFns = s.hostFns := by
  unfold State.linkUp
  dsimp only
  split
  · exact ⟨fun _ _ => rfl, rfl⟩
  · exact ⟨fun o ho => (reg_setReg_ne s.took _ ho).trans (took_reg s o), rfl⟩

/-- The function's flags once it is enabled. -/
def State.fnFlags (s : State) (k : Nat) : State :=
  (((s.putB (HI_FUNC_STAT_MSE k) true).putB (HI_FUNC_STAT_BME k) true).putB (HI_FUNC_STAT_PRESENT k) true).putB
    (HI_FUNC_STAT_DISABLED k) false

/-- The flags that an enabled function shows. -/
structure FnUp (k : Nat) (t : State) : Prop where
  disabled : t.is (HI_FUNC_STAT_DISABLED k) = false
  present : t.is (HI_FUNC_STAT_PRESENT k) = true
  mse : t.is (HI_FUNC_STAT_MSE k) = true
  bme : t.is (HI_FUNC_STAT_BME k) = true

theorem fnUp_fnFlags (s : State) (k : Nat) : FnUp k (s.fnFlags k) := by
  refine ⟨?_, ?_, ?_, ?_⟩ <;>
    simp [State.fnFlags, is_putB, is_putB_ne, HI_FUNC_STAT_DISABLED, HI_FUNC_STAT_PRESENT, HI_FUNC_STAT_MSE, HI_FUNC_STAT_BME]

theorem reg_fnFlags (s : State) {k o : Nat} (h : HI_FUNC_STAT k ≠ o) : (s.fnFlags k).reg o = s.reg o :=
  (reg_setReg_ne _ _ h).trans ((reg_setReg_ne _ _ h).trans ((reg_setReg_ne _ _ h).trans (reg_setReg_ne _ _ h)))

/-- What an enabled function's host takes from its MSI-X control word. -/
def HostFn.enabled (x : HostFn) (msix fmask : Bool) : HostFn := { x with msixEn := msix, fmask := fmask }

theorem fnEnable_on {s : State} {k : Nat} {mse bme vfe : Bool} (msix fmask : Bool) (on : fnOn k mse bme vfe = true)
    (ready : s.is (HI_FUNC_STAT_FLR k) = false) :
    s.fnEnable k mse bme vfe msix fmask =
      ((s.linkUp (k / 4)).fnFlags k).setHostFn k (((s.linkUp (k / 4)).hostFn k).enabled msix fmask) := by
  unfold State.fnEnable
  rw [on, ready, if_neg (by decide)]
  rfl

theorem fnEnable_off {s : State} {k : Nat} {mse bme vfe : Bool} (msix fmask : Bool)
    (h : fnOn k mse bme vfe = false ∨ s.is (HI_FUNC_STAT_FLR k) = true) : s.fnEnable k mse bme vfe msix fmask = s := by
  unfold State.fnEnable
  rw [if_pos]
  rcases h with h | h <;> simp [h]

theorem hostFn_linkUp (s : State) (p j : Nat) : (s.linkUp p).hostFn j = s.hostFn j := by
  rw [State.hostFn, (linkUp_kept s p).2, State.hostFn]

theorem functionEnable_on {s : State} (k : Fin 8) {mse bme vfe : Bool} (msix fmask : Bool) (on : fnOn k mse bme vfe = true)
    (ready : s.is (HI_FUNC_STAT_FLR k) = false) : Completes (.functionEnable k mse bme vfe msix fmask) s fun t =>
      t.is (HI_FUNC_STAT_DISABLED k) = false ∧ t.is (HI_FUNC_STAT_PRESENT k) = true ∧ t.is (HI_FUNC_STAT_MSE k) = true ∧
      t.is (HI_FUNC_STAT_BME k) = true ∧ t.hostFn k = { s.hostFn k with msixEn := msix, fmask := fmask } ∧
      (t.reg HI_STATUS).getLsbD (8 * (k.val / 4)) = true ∧
      ∀ j : Fin 8, j ≠ k → t.reg (HI_FUNC_STAT j) = s.reg (HI_FUNC_STAT j) ∧ t.hostFn j = s.hostFn j := by
  refine done_completes (congrArg s.done (fnEnable_on msix fmask on ready)) ?_
  simp only [reg_answered, is_answered, hostFn_answered, setHostFn_reg, setHostFn_is]
  have up := fnUp_fnFlags (s.linkUp (k / 4)) k
  obtain ⟨-, -, ne⟩ := stat_low k
  refine ⟨up.disabled, up.present, up.mse, up.bme, ?_, ?_, fun j jk => ⟨?_, ?_⟩⟩
  · refine (spGet_spPut_same _ _ _).trans ?_
    rw [hostFn_linkUp]
    rfl
  · exact (congrArg (BitVec.getLsbD · _) (reg_fnFlags _ ne)).trans (linkUp_up s (by omega))
  · exact (reg_fnFlags _ (stat_inj fun e => jk (Fin.ext e.symm))).trans ((linkUp_kept s _).1 _ (stat_low j).2.2.symm)
  · exact (spGet_spPut_ne _ _ fun e => jk (Fin.ext e.symm)).trans (hostFn_linkUp s _ j)

/-! ### FUNCTION_DISABLE and FUNCTION_LEVEL_RESET -/

/-- A report that finds no fault in GLB_FAULT_FIRST stands there after whatever keeps a fault that stands. -/
theorem first_after_report {l : List Nat} {s t : State} {c i : Nat} (none : s.reg GLB_FAULT_FIRST = 0) (nonzero : faultWord c i ≠ 0)
    (h : HostKept l (s.report c i) t) : t.reg GLB_FAULT_FIRST = faultWord c i := by
  have stands : (s.report c i).reg GLB_FAULT_FIRST = faultWord c i := by rw [report_first, if_pos none]
  exact (h.first (by rwa [stands])).trans stands

theorem faultWord_fn (c : Nat) (k : Fin 8) : faultWord c k = BitVec.ofNat 32 (c + k.val * 0x10000) := by
  rw [faultWord, Nat.mod_eq_of_lt (by omega), Nat.mul_comm]

/-- The function's flags and enables as FUNCTION_DISABLE sets them. -/
def State.fnDown (s : State) (k : Nat) (mse bme : Bool) : State :=
  (((s.putB (HI_FUNC_STAT_MSE k) mse).putB (HI_FUNC_STAT_BME k) bme).putB (HI_FUNC_STAT_DISABLED k) true).putB
    (HI_FUNC_STAT_PRESENT k) false

theorem fnDown_flags (s : State) (k : Nat) (mse bme : Bool) :
    (s.fnDown k mse bme).is (HI_FUNC_STAT_DISABLED k) = true ∧ (s.fnDown k mse bme).is (HI_FUNC_STAT_PRESENT k) = false ∧
      (s.fnDown k mse bme).is (HI_FUNC_STAT_MSE k) = mse ∧ (s.fnDown k mse bme).is (HI_FUNC_STAT_BME k) = bme := by
  refine ⟨?_, ?_, ?_, ?_⟩ <;>
    simp [State.fnDown, is_putB, is_putB_ne, HI_FUNC_STAT_DISABLED, HI_FUNC_STAT_PRESENT, HI_FUNC_STAT_MSE, HI_FUNC_STAT_BME]

theorem first_fnDown (s : State) (k : Nat) (mse bme : Bool) : (s.fnDown k mse bme).reg GLB_FAULT_FIRST = s.reg GLB_FAULT_FIRST := by
  have ne := (stat_low k).2.1.ne'
  exact (reg_setReg_ne _ _ ne).trans ((reg_setReg_ne _ _ ne).trans ((reg_setReg_ne _ _ ne).trans (reg_setReg_ne _ _ ne)))

theorem fnDisable_eq {s : State} {k : Nat} {mse bme vfe : Bool} (off : fnOn k mse bme vfe = false) :
    s.fnDisable k mse bme vfe = if s.is (HI_FUNC_STAT_DISABLED k) then s.fnDown k mse bme
      else ((s.fnDown k mse bme).report 0x9009 k).loseTenant k := by
  unfold State.fnDisable State.disableFn
  rw [off, if_neg (by decide)]
  have same : ((s.putB (HI_FUNC_STAT_MSE k) mse).putB (HI_FUNC_STAT_BME k) bme).is (HI_FUNC_STAT_DISABLED k) =
      s.is (HI_FUNC_STAT_DISABLED k) := by
    simp [is_putB_ne, HI_FUNC_STAT_DISABLED, HI_FUNC_STAT_MSE, HI_FUNC_STAT_BME]
  rw [same]
  rfl

/-- However the function was, its flags are those of FUNCTION_DISABLE. -/
theorem stat_fnDisable {s : State} {k : Nat} {mse bme vfe : Bool} (off : fnOn k mse bme vfe = false) :
    (s.fnDisable k mse bme vfe).reg (HI_FUNC_STAT k) = (s.fnDown k mse bme).reg (HI_FUNC_STAT k) := by
  rw [fnDisable_eq off]
  split
  · rfl
  · exact (((HostKept.refl [] _).report 0x9009 k).trans (hostKept_loseTenant [] _ k)).regs _ List.not_mem_nil (stat_low k).1

theorem faultWord_disabled_ne (k : Fin 8) : faultWord 0x9009 k ≠ 0 := by
  decide +revert

theorem functionDisable_off {s : State} (k : Fin 8) {mse bme vfe : Bool} (off : fnOn k mse bme vfe = false) :
    Completes (.functionDisable k mse bme vfe) s fun t =>
      t.is (HI_FUNC_STAT_DISABLED k) = true ∧ t.is (HI_FUNC_STAT_PRESENT k) = false ∧ t.is (HI_FUNC_STAT_MSE k) = mse ∧
      t.is (HI_FUNC_STAT_BME k) = bme ∧
      (s.is (HI_FUNC_STAT_DISABLED k) = false → s.reg GLB_FAULT_FIRST = 0 →
        t.reg GLB_FAULT_FIRST = BitVec.ofNat 32 (0x9009 + k.val * 0x10000)) := by
  refine done_completes (t := s.fnDisable k mse bme vfe) rfl ?_
  simp only [reg_answered, is_answered]
  have stat := stat_fnDisable (s := s) off
  obtain ⟨disabled, present, hm, hb⟩ := fnDown_flags s k mse bme
  refine ⟨(is_congr stat).trans disabled, (is_congr stat).trans present, (is_congr stat).trans hm, (is_congr stat).trans hb,
    fun was none => ?_⟩
  rw [← faultWord_fn]
  refine first_after_report (s := s.fnDown k mse bme) (l := []) ((first_fnDown s k mse bme).trans none) (faultWord_disabled_ne k) ?_
  rw [fnDisable_eq off, was, if_neg (by decide)]
  exact hostKept_loseTenant _ _ _

theorem is_putB_flr (s : State) (k : Nat) (b : Bool) : (s.putB (HI_FUNC_STAT_FLR k) b).is (HI_FUNC_STAT_FLR k) = b := by
  simp [is_putB, HI_FUNC_STAT_FLR]

/-- The function's state as its Function Level Reset begins. -/
def State.flrBegun (s : State) (k : Nat) : State :=
  (if s.is (HI_FUNC_STAT_DISABLED k) then s else s.report 0x9009 k).putB (HI_FUNC_STAT_FLR k) true

theorem fnLevelReset_eq (s : State) (k : Nat) : s.fnLevelReset k = (s.flrBegun k).fnReset k := rfl

theorem functionLevelReset_resets (k : Fin 8) (s : State) : Completes (.functionLevelReset k) s fun t =>
    t.is (HI_FUNC_STAT_DISABLED k) = true ∧ t.is (HI_FUNC_STAT_FLR k) = true ∧ t.is (HI_FUNC_STAT_PRESENT k) = false ∧
    t.is (HI_FUNC_STAT_MSE k) = false ∧ t.is (HI_FUNC_STAT_BME k) = false ∧ t.reg (TK_CQ_CFG k) = regReset (TK_CQ_CFG k) ∧
    t.reg (TK_CQ_HEAD k) = regReset (TK_CQ_HEAD k) ∧ t.reg (AT_TEN_CTL k) = regReset (AT_TEN_CTL k) ∧
    t.reg (AT_ROOT_LO k) = regReset (AT_ROOT_LO k) ∧
    (s.is (HI_FUNC_STAT_DISABLED k) = false → s.reg GLB_FAULT_FIRST = 0 →
      t.reg GLB_FAULT_FIRST = BitVec.ofNat 32 (0x9009 + k.val * 0x10000)) := by
  refine done_completes (t := s.fnLevelReset k) rfl ?_
  simp only [reg_answered, is_answered]
  rw [fnLevelReset_eq]
  have off := fnOff_fnReset (s.flrBegun k) k.isLt
  have regs : FnRegs k ((s.flrBegun k).fnReset k) := fnRegs_resets _ _
  have flr : ((s.flrBegun k).fnReset k).is (HI_FUNC_STAT_FLR k) = true :=
    (flr_fnReset (s.flrBegun k) k.isLt).trans (is_putB_flr _ _ true)
  refine ⟨off.disabled, flr, off.present, off.mse, off.bme, regs.cfg, regs.head, regs.ctl, regs.root, fun was none => ?_⟩
  rw [← faultWord_fn]
  refine first_after_report (l := [HI_FUNC_STAT k]) none (faultWord_disabled_ne k) ?_
  have begun : s.flrBegun k = (s.report 0x9009 k).putB (HI_FUNC_STAT_FLR k) true := by
    rw [State.flrBegun, was, if_neg (by decide)]
  rw [begun]
  exact ((HostKept.refl _ _).putB (f := HI_FUNC_STAT_FLR k) true (.inl (List.mem_singleton_self _)) (stat_low k).2.1).trans
    (hostKept_fnReset _ k.isLt)

theorem functionLevelResetDone_clears {k : Fin 8} {s : State} (flr : s.is (HI_FUNC_STAT_FLR k) = true) :
    Completes (.functionLevelResetDone k) s fun t =>
      t.is (HI_FUNC_STAT_FLR k) = false ∧ t.is (HI_FUNC_STAT_DISABLED k) = s.is (HI_FUNC_STAT_DISABLED k) ∧
      t.reg (TK_CQ_CFG k) = regReset (TK_CQ_CFG k) ∧ t.reg (AT_TEN_CTL k) = regReset (AT_TEN_CTL k) := by
  have done : s.fnResetDone k = (s.putB (HI_FUNC_STAT_FLR k) false).fnRegs k := if_pos flr
  refine done_completes (t := (s.putB (HI_FUNC_STAT_FLR k) false).fnRegs k) (congrArg s.done done) ?_
  simp only [reg_answered, is_answered]
  have kept := hostKept_fnRegs [] (s.putB (HI_FUNC_STAT_FLR k) false) k.isLt
  have regs := fnRegs_resets (s.putB (HI_FUNC_STAT_FLR k) false) k
  refine ⟨?_, ?_, regs.cfg, regs.ctl⟩
  · exact (kept.is (f := HI_FUNC_STAT_FLR k) List.not_mem_nil (stat_low k).1).trans (is_putB_flr _ _ false)
  · exact (kept.is (f := HI_FUNC_STAT_DISABLED k) List.not_mem_nil (stat_low k).1).trans
      (by simp [is_putB_ne, HI_FUNC_STAT_DISABLED, HI_FUNC_STAT_FLR])

/-! ### LINK_DOWN (R548, R556) -/

/-- The functions of a port are reset one after the other: each of them stays off, and the other registers are as they were. -/
theorem fnResets (p : Nat) (hp : p < 2) {n : Nat} (hn : n ≤ 4) (s : State) :
    let t := (List.range n).foldl (fun s i => s.fnReset (4 * p + i)) s
    HostKept ((List.range n).map fun i => HI_FUNC_STAT (4 * p + i)) s t ∧ ∀ i < n, FnOff (4 * p + i) t := by
  induction n with
  | zero => exact ⟨HostKept.refl _ _, fun i h => absurd h (Nat.not_lt_zero i)⟩
  | succ n ih =>
    obtain ⟨kept, offs⟩ := ih (by omega)
    have small : 4 * p + n < 8 := by omega
    rw [List.range_succ, List.foldl_append, List.map_append]
    refine ⟨(kept.mono (List.subset_append_left _ _)).trans ((hostKept_fnReset _ small).mono (List.subset_append_right _ _)),
      fun i hi => ?_⟩
    rcases Nat.lt_succ_iff_lt_or_eq.1 hi with lt | rfl
    · refine (offs i lt).of_reg ((hostKept_fnReset _ small).regs _ ?_ (stat_low _).1)
      rw [List.mem_singleton]
      exact stat_inj (by omega)
    · exact fnOff_fnReset _ small

/-- The link's bits of HI_STATUS are cleared. -/
def State.linkCleared (s : State) (p : Nat) : State :=
  s.setReg HI_STATUS (BitVec.ofNat 32 (setBits (s.reg HI_STATUS).toNat (8 * p) 7 0))

theorem linkLost_up {s : State} {p : Nat} (up : (s.reg HI_STATUS).getLsbD (8 * p) = true) :
    s.linkLost p = (List.range 4).foldl (fun s i => s.fnReset (4 * p + i)) ((s.linkCleared p).report 0x900A (4 * p)) := by
  unfold State.linkLost
  rw [up, if_neg (by decide)]
  rfl

theorem linkLost_down {s : State} {p : Nat} (down : (s.reg HI_STATUS).getLsbD (8 * p) = false) : s.linkLost p = s := by
  unfold State.linkLost
  rw [down, if_pos (by decide)]

theorem linkCleared_bit (s : State) (p : Nat) : ((s.linkCleared p).reg HI_STATUS).getLsbD (8 * p) = false := by
  rw [State.linkCleared, reg_setReg_same, BitVec.getLsbD_ofNat, testBit_setBits, if_pos (by omega)]
  simp

theorem faultWord_link_ne (p : Fin 2) : faultWord 0x900A (4 * p.val) ≠ 0 := by
  decide +revert

theorem faultWord_link (p : Fin 2) : faultWord 0x900A (4 * p.val) = BitVec.ofNat 32 (0x900A + 4 * p.val * 0x10000) := by
  rw [faultWord, Nat.mod_eq_of_lt (by omega), Nat.mul_comm]

theorem linkDown_up {p : Fin 2} {s : State} (up : (s.reg HI_STATUS).getLsbD (8 * p) = true) : Completes (.linkDown p) s fun t =>
    (t.reg HI_STATUS).getLsbD (8 * p) = false ∧
    (∀ i : Fin 4, t.is (HI_FUNC_STAT_DISABLED (4 * p.val + i)) = true ∧ t.is (HI_FUNC_STAT_PRESENT (4 * p.val + i)) = false) ∧
    (s.reg GLB_FAULT_FIRST = 0 → t.reg GLB_FAULT_FIRST = BitVec.ofNat 32 (0x900A + 4 * p.val * 0x10000)) := by
  refine done_completes (congrArg s.done (linkLost_up up)) ?_
  simp only [reg_answered, is_answered]
  obtain ⟨kept, offs⟩ := fnResets p p.isLt (le_refl 4) ((s.linkCleared p).report 0x900A (4 * p))
  refine ⟨?_, fun i => ⟨(offs i i.isLt).disabled, (offs i i.isLt).present⟩, fun none => ?_⟩
  · have apart : HI_STATUS ∉ (List.range 4).map fun i => HI_FUNC_STAT (4 * p.val + i) := by
      rw [List.mem_map]
      rintro ⟨i, -, e⟩
      exact (stat_low _).2.2 e
    rw [kept.regs HI_STATUS apart (by decide), reg_report (by decide)]
    exact linkCleared_bit s p
  · rw [← faultWord_link]
    exact first_after_report ((reg_setReg_ne s _ (by decide)).trans none) (faultWord_link_ne p) kept

/-- Settles O54: one lemma per command, over what the end of a tenant's work leaves alone (HostKept). -/
theorem functionsComeAndGo : Obligations.FunctionsComeAndGo := by
  unfold Obligations.FunctionsComeAndGo
  refine ⟨fun k mse bme vfe msix fmask s => ⟨?_, ?_, ?_, ?_⟩, fun k s => ⟨?_, ?_, ?_⟩, fun p s => ⟨?_, ?_⟩⟩
  · exact fun on ready => functionEnable_on k msix fmask on ready
  · exact fun h => (congrArg s.done (fnEnable_off msix fmask h)).trans (done_self s)
  · exact fun off => functionDisable_off k off
  · exact fun on => (congrArg s.done (if_pos on)).trans (done_self s)
  · exact functionLevelReset_resets k s
  · exact fun flr => functionLevelResetDone_clears flr
  · exact fun flr => (congrArg s.done (if_neg (by rw [flr]; decide))).trans (done_self s)
  · exact fun up => linkDown_up up
  · exact fun down => (congrArg s.done (linkLost_down down)).trans (done_self s)

end Sys2Proof.Machine
end

section
/-! What a message that leaves on the Selvedge link leaves alone, whether it goes stale or not (R562-R568). -/

namespace Sys2Proof.Machine

open Reg

/-! ### The contents of a port -/

/-- The port's contents differ only in what waits, what has been sent, and what has been told of it. -/
def SvPort.Rest (x y : SvPort) : Prop :=
  y = { x with queue := y.queue, unacked := y.unacked, lseq := y.lseq, credit := y.credit, staleSaid := y.staleSaid }

namespace SvPort.Rest

variable {x y z : SvPort}

theorem refl (x : SvPort) : SvPort.Rest x x := rfl

/-- What sending touches may take any value. -/
theorem of (x : SvPort) (queue unacked : List SvTx) (lseq : Nat) (credit : List Nat) (said : Bool) :
    SvPort.Rest x { x with queue := queue, unacked := unacked, lseq := lseq, credit := credit, staleSaid := said } := rfl

theorem trans (h : SvPort.Rest x y) (k : SvPort.Rest y z) : SvPort.Rest x z := by
  rw [SvPort.Rest] at *
  rw [k, h]

theorem locked (h : SvPort.Rest x y) : y.locked = x.locked := (congrArg SvPort.locked h :)
theorem bad (h : SvPort.Rest x y) : y.bad = x.bad := (congrArg SvPort.bad h :)
theorem blk (h : SvPort.Rest x y) : y.blk = x.blk := (congrArg SvPort.blk h :)
theorem desk (h : SvPort.Rest x y) : y.desk = x.desk := (congrArg SvPort.desk h :)
theorem retry (h : SvPort.Rest x y) : y.retry = x.retry := (congrArg SvPort.retry h :)
theorem rxLseq (h : SvPort.Rest x y) : y.rxLseq = x.rxLseq := (congrArg SvPort.rxLseq h :)
theorem ofs (h : SvPort.Rest x y) : y.ofs = x.ofs := (congrArg SvPort.ofs h :)
theorem timeAt (h : SvPort.Rest x y) : y.timeAt = x.timeAt := (congrArg SvPort.timeAt h :)
theorem calAt (h : SvPort.Rest x y) : y.calAt = x.calAt := (congrArg SvPort.calAt h :)

end SvPort.Rest

theorem svStart_rest (now : Nat) (l : List SvTx) (x : SvPort) (held : List Nat) : SvPort.Rest x (svStart now x held l).1 := by
  induction l generalizing x held with
  | nil => rfl
  | cons a r ih =>
    unfold svStart
    dsimp only
    split
    · exact (ih x _).trans (SvPort.Rest.of _ _ _ _ _ _)
    · exact (SvPort.Rest.of x _ _ _ _ _).trans (ih _ held)

/-! ### The frame -/

/-- The registers of the Host Interface's block and above that sending writes: the ports' counts of errors. -/
def sentOffs : List Nat := [SV_PORT_ERR 0, SV_PORT_ERR 1]

/-- `t` differs from `s` only in what sending a message touches: the E2E numbers, what the ports hold and have told, what has left,
the ports' counts of errors, and the report of stale messages. -/
structure OnlyLink (s t : State) : Prop where
  rest : t = { s with regs := t.regs, sv := { s.sv with ports := t.sv.ports, tx := t.sv.tx }, outbox := t.outbox }
  host : HostKept sentOffs s t
  ports : ∀ p, (s.svPort p).Rest (t.svPort p)

namespace OnlyLink

variable {s t u : State}

theorem refl (s : State) : OnlyLink s s := ⟨rfl, HostKept.refl _ s, fun _ => rfl⟩

theorem trans (h : OnlyLink s t) (k : OnlyLink t u) : OnlyLink s u :=
  ⟨by rw [k.rest, h.rest], h.host.trans k.host, fun p => (h.ports p).trans (k.ports p)⟩

theorem hg (h : OnlyLink s t) : t.hg = s.hg := (congrArg State.hg h.rest :)
theorem pwr (h : OnlyLink s t) : t.pwr = s.pwr := (congrArg State.pwr h.rest :)
theorem boot (h : OnlyLink s t) : t.boot = s.boot := (congrArg State.boot h.rest :)
theorem eng (h : OnlyLink s t) : t.eng = s.eng := (congrArg State.eng h.rest :)
theorem peer (h : OnlyLink s t) (d : Nat) : t.svPeer d = s.svPeer d := (congrArg (State.svPeer · d) h.rest :)
theorem early (h : OnlyLink s t) : t.sv.early = s.sv.early := (congrArg (·.sv.early) h.rest :)
theorem full (h : OnlyLink s t) : t.sv.full = s.sv.full := (congrArg (·.sv.full) h.rest :)
theorem hbSeq (h : OnlyLink s t) : t.sv.hbSeq = s.sv.hbSeq := (congrArg (·.sv.hbSeq) h.rest :)
theorem hbAt (h : OnlyLink s t) : t.sv.hbAt = s.sv.hbAt := (congrArg (·.sv.hbAt) h.rest :)
theorem give (h : OnlyLink s t) : t.sv.give = s.sv.give := (congrArg (·.sv.give) h.rest :)
theorem take (h : OnlyLink s t) : t.sv.take = s.sv.take := (congrArg (·.sv.take) h.rest :)

theorem reg (h : OnlyLink s t) {o : Nat} (out : o ∉ sentOffs) (low : 0xC00000 ≤ o) : t.reg o = s.reg o := h.host.regs o out low
theorem get (h : OnlyLink s t) {f : Fld} (out : f.off ∉ sentOffs) (low : 0xC00000 ≤ f.off) : t.get f = s.get f := h.host.get out low
theorem is (h : OnlyLink s t) {f : Fld} (out : f.off ∉ sentOffs) (low : 0xC00000 ≤ f.off) : t.is f = s.is f := h.host.is out low

/-- New contents of a port that keep what sending keeps. -/
theorem setPort (s : State) {p : Nat} {x : SvPort} (hx : (s.svPort p).Rest x) : OnlyLink s (s.setSvPort p x) := by
  refine ⟨rfl, HostKept.still ⟨rfl, rfl, rfl⟩, fun q => ?_⟩
  rw [svPort_setSvPort]
  split
  · next e => exact e ▸ hx
  · rfl

theorem of_onlyRegs (h : OnlyRegs s t) (k : HostKept sentOffs s t) : OnlyLink s t :=
  ⟨by rw [h], k, fun p => by rw [h]; rfl⟩

theorem emit (h : OnlyLink s t) (x : Out) : OnlyLink s (t.emit x) := h.trans ⟨rfl, HostKept.still ⟨rfl, rfl, rfl⟩, fun _ => rfl⟩

theorem report (h : OnlyLink s t) (c i : Nat) : OnlyLink s (t.report c i) :=
  h.trans (.of_onlyRegs (onlyRegs_report t c i) ((HostKept.refl _ t).report c i))

theorem bumpErr (h : OnlyLink s t) {f : Fld} (n : Nat) (hf : f.off ∈ sentOffs) : OnlyLink s (t.bump f n) := by
  refine h.trans ⟨rfl, (HostKept.refl _ t).bump n (.inl hf) ?_, fun _ => rfl⟩
  simp only [sentOffs, List.mem_cons, List.not_mem_nil, or_false, SV_PORT_ERR, GLB_FAULT_FIRST] at *
  omega

theorem foldl {α : Type} {f : State → α → State} (h : OnlyLink s t) (hf : ∀ u a, OnlyLink u (f u a)) (l : List α) :
    OnlyLink s (l.foldl f t) := by
  induction l generalizing t with
  | nil => exact h
  | cons a r ih => exact ih (h.trans (hf t a))

end OnlyLink

theorem err_mem {p : Nat} (hp : p < 2) : SV_PORT_ERR p ∈ sentOffs := by
  match p with
  | 0 => exact List.mem_cons_self
  | 1 => exact List.mem_cons_of_mem _ List.mem_cons_self

theorem err_lt {o : Nat} (h : o ∈ sentOffs) : o = 0xD00108 ∨ o = 0xD00148 := by
  simpa [sentOffs, SV_PORT_ERR] using h

/-! ### Sending -/

theorem onlyLink_svPump (s : State) (p : Nat) : OnlyLink s (s.svPump p) := by
  unfold State.svPump
  dsimp only
  split
  · exact .refl s
  · exact (OnlyLink.setPort s (svStart_rest _ _ _ _)).foldl (fun u m => (OnlyLink.refl u).emit _) _

theorem onlyLink_svQueue (s : State) {p : Nat} (hp : p < 2) (m : SvTx) : OnlyLink s (s.svQueue p m) := by
  unfold State.svQueue
  dsimp only
  split
  · have counted : OnlyLink s (s.bump (SV_PORT_ERR_STALE p)) := (OnlyLink.refl s).bumpErr 1 (err_mem hp)
    split
    · exact counted
    · exact (counted.trans (OnlyLink.setPort _ (.of _ _ _ _ _ _))).report _ _
  · exact (OnlyLink.setPort s (.of _ _ _ _ _ _)).trans (onlyLink_svPump _ p)

theorem onlyLink_svE2e (s : State) (key : Nat) : OnlyLink s (s.svE2e key).1 := ⟨rfl, HostKept.still ⟨rfl, rfl, rfl⟩, fun _ => rfl⟩

theorem onlyLink_svSend (s : State) (d : Nat) (m : SvMsg) : OnlyLink s (s.svSend d m) :=
  (onlyLink_svE2e s _).trans (onlyLink_svQueue _ (svRoute_lt _ _) _)

theorem onlyLink_svNeighbour (s : State) {p : Nat} (hp : p < 2) (m : SvMsg) : OnlyLink s (s.svNeighbour p m) :=
  (onlyLink_svE2e s _).trans (onlyLink_svQueue _ hp _)

theorem onlyLink_svBcast (s : State) {p : Nat} (hp : p < 2) (m : SvMsg) : OnlyLink s (s.svBcast p m) :=
  (onlyLink_svE2e s _).trans (onlyLink_svQueue _ hp _)

theorem onlyLink_svMove (s : State) (p : Nat) : OnlyLink s (s.svMove p) := by
  unfold State.svMove
  dsimp only
  split
  · exact (OnlyLink.setPort s (.of _ _ _ _ _ _)).foldl (fun u m => onlyLink_svQueue u (by omega) m) _
  · exact OnlyLink.setPort s (.of _ _ _ _ _ _)

/-! ### The other port -/

theorem svPort_emits (q : Nat) (f : SvTx → Out) (l : List SvTx) (s : State) :
    (l.foldl (fun s m => s.emit (f m)) s).svPort q = s.svPort q := by
  induction l generalizing s with
  | nil => rfl
  | cons a r ih => exact ih _

theorem svPort_svPump_ne (s : State) {p q : Nat} (h : p ≠ q) : (s.svPump p).svPort q = s.svPort q := by
  unfold State.svPump
  dsimp only
  split
  · rfl
  · rw [svPort_emits, svPort_setSvPort, if_neg h]

theorem svPort_report (s : State) (c i q : Nat) : (s.report c i).svPort q = s.svPort q := by
  rw [State.svPort, report_sv, State.svPort]

theorem svPort_svQueue_ne (s : State) {p q : Nat} (h : p ≠ q) (m : SvTx) : (s.svQueue p m).svPort q = s.svPort q := by
  have set (t : State) (x : SvPort) : (t.setSvPort p x).svPort q = t.svPort q := by rw [svPort_setSvPort, if_neg h]
  unfold State.svQueue
  dsimp only
  split
  · split
    · rfl
    · exact (svPort_report _ _ _ _).trans (set (s.bump (SV_PORT_ERR_STALE p)) _)
  · exact (svPort_svPump_ne _ h).trans (set _ _)

end Sys2Proof.Machine
end

section
/-! The ports of the Selvedge link: what each of their operations reaches (R559-R569, R584, R587). -/

namespace Sys2Proof.Machine

open Reg

/-! ### What an answer shows of the Selvedge -/

section Answered

variable (t : State) (l : List Instr) (b : Boot)

theorem svPort_answered (p : Nat) : State.svPort { t with pending := l, boot := b } p = t.svPort p := rfl

theorem svState_answered (p : Nat) : State.svState { t with pending := l, boot := b } p = t.svState p := rfl

theorem svPeer_answered (d : Nat) : State.svPeer { t with pending := l, boot := b } d = t.svPeer d := rfl

end Answered

/-! ### A change of a port's contents, and of its registers -/

section ModSvPort

variable (s : State) (p : Nat) (f : SvPort → SvPort)

theorem svPort_modSvPort : (s.modSvPort p f).svPort p = f (s.svPort p) := (svPort_setSvPort _ _ _ _).trans (if_pos rfl)

theorem reg_modSvPort (o : Nat) : (s.modSvPort p f).reg o = s.reg o := rfl

theorem svState_modSvPort (q : Nat) : (s.modSvPort p f).svState q = s.svState q := rfl

theorem svState_advanceTo (t q : Nat) : (s.advanceTo t).svState q = s.svState q := get_congr (reg_advanceTo s t _)

theorem svMembers_advanceTo (t : Nat) : (s.advanceTo t).svMembers = s.svMembers :=
  congrArg (max 1) (get_congr (f := SV_CFG_MEMBERS) (reg_advanceTo s t _))

end ModSvPort

/-- What the registers of port p say that its operations read: whether it is enabled, and whether the device stands alone. -/
structure SameSetup (p : Nat) (s t : State) : Prop where
  ctl : t.reg (SV_PORT_CTL p) = s.reg (SV_PORT_CTL p)
  cfg : t.reg SV_CFG = s.reg SV_CFG

namespace SameSetup

variable {p : Nat} {s t u : State}

theorem trans (h : SameSetup p s t) (k : SameSetup p t u) : SameSetup p s u := ⟨k.ctl.trans h.ctl, k.cfg.trans h.cfg⟩

theorem en (h : SameSetup p s t) : t.is (SV_PORT_CTL_EN p) = s.is (SV_PORT_CTL_EN p) := is_congr h.ctl

theorem members (h : SameSetup p s t) : t.svMembers = s.svMembers := congrArg (max 1) (get_congr (f := SV_CFG_MEMBERS) h.cfg)

/-- A register that is neither may change. -/
theorem of_ne (h : ∀ o, o = SV_PORT_CTL p ∨ o = SV_CFG → t.reg o = s.reg o) : SameSetup p s t := ⟨h _ (.inl rfl), h _ (.inr rfl)⟩

end SameSetup

theorem sameSetup_advanceTo (s : State) (p t : Nat) : SameSetup p s (s.advanceTo t) := ⟨reg_advanceTo s t _, reg_advanceTo s t _⟩

theorem AfterLoss.of_setup {p : Nat} {s t u : State} (h : AfterLoss p t u) (k : SameSetup p s t) : AfterLoss p s u := by
  rw [AfterLoss, k.en, k.members] at h
  exact h

theorem AfterLoss.of_state {p : Nat} {s t u : State} (h : AfterLoss p s t) (e : u.svState p = t.svState p) : AfterLoss p s u :=
  e.trans h

/-! ### Entering a state, and losing the lanes -/

section States

variable (s : State) (p : Nat)

theorem svState_svEnter {st : Nat} (h : st < 8) : (s.svEnter p st).svState p = st :=
  (get_put s (SV_PORT_STAT_STATE p) st (Nat.le_of_ble_eq_true rfl)).trans (Nat.mod_eq_of_lt h)

theorem reg_svEnter (st : Nat) {o : Nat} (h : SV_PORT_STAT p ≠ o) : (s.svEnter p st).reg o = s.reg o := reg_put_ne s st h

theorem lanes_svEnter (st : Nat) : (s.svEnter p st).get (SV_PORT_STAT_LANES_LOCKED p) = s.get (SV_PORT_STAT_LANES_LOCKED p) :=
  get_put_ne s _ _ _ (Nat.le_of_ble_eq_true rfl) (.inr (.inl (Nat.le_of_ble_eq_true rfl)))

theorem svPort_svEnter (st : Nat) : (s.svEnter p st).svPort p = { s.svPort p with since := s.hg.dt } := svPort_modSvPort _ _ _

theorem svState_svUnlock : (s.svUnlock p).svState p = s.svState p :=
  get_put_ne s _ _ _ (Nat.le_of_ble_eq_true rfl) (.inr (.inr (Nat.le_of_ble_eq_true rfl)))

theorem lanes_svUnlock : (s.svUnlock p).get (SV_PORT_STAT_LANES_LOCKED p) = 0 :=
  get_put s (SV_PORT_STAT_LANES_LOCKED p) 0 (Nat.le_of_ble_eq_true rfl)

theorem reg_svUnlock {o : Nat} (h : SV_PORT_STAT p ≠ o) : (s.svUnlock p).reg o = s.reg o := reg_put_ne s 0 h

theorem svPort_svUnlock : (s.svUnlock p).svPort p = { s.svPort p with blk := 0, desk := false } := svPort_modSvPort _ _ _

/-- The port as it goes DOWN, before its messages are moved. -/
def State.svFallen : State :=
  ((s.svEnter p 0).svUnlock p).modSvPort p fun x => { x with
    locked := false, lseq := 0, rxLseq := 4095, credit := [0, 0, 0, 0], calRx := none, bad := false, ofs := none }

theorem svState_svFallen : (s.svFallen p).svState p = 0 := (svState_svUnlock _ p).trans (svState_svEnter s p (by decide))

theorem lanes_svFallen : (s.svFallen p).get (SV_PORT_STAT_LANES_LOCKED p) = 0 := lanes_svUnlock _ p

theorem reg_svFallen {o : Nat} (h : SV_PORT_STAT p ≠ o) : (s.svFallen p).reg o = s.reg o :=
  (reg_svUnlock _ p h).trans (reg_svEnter s p 0 h)

end States

theorem stat_out {p : Nat} (hp : p < 2) : SV_PORT_STAT p ∉ sentOffs ∧ 0xC00000 ≤ SV_PORT_STAT p := by
  refine ⟨fun h => ?_, ?_⟩
  · have := err_lt h
    simp only [SV_PORT_STAT] at this
    omega
  · simp only [SV_PORT_STAT]
    omega

namespace OnlyLink

variable {s t : State} {p : Nat}

theorem svState (h : OnlyLink s t) (hp : p < 2) : t.svState p = s.svState p := h.get (stat_out hp).1 (stat_out hp).2

theorem lanes (h : OnlyLink s t) (hp : p < 2) : t.get (SV_PORT_STAT_LANES_LOCKED p) = s.get (SV_PORT_STAT_LANES_LOCKED p) :=
  h.get (stat_out hp).1 (stat_out hp).2

theorem setup (h : OnlyLink s t) (hp : p < 2) : SameSetup p s t := by
  refine ⟨h.reg (fun i => ?_) ?_, h.reg (by decide) (by decide)⟩
  · have := err_lt i
    simp only [SV_PORT_CTL] at this
    omega
  · simp only [SV_PORT_CTL]
    omega

end OnlyLink

section Fall

variable (s : State) (p : Nat)

theorem sameSetup_svFallen : SameSetup p s (s.svFallen p) := by
  refine .of_ne fun o ho => reg_svFallen s p ?_
  simp only [SV_PORT_STAT, SV_PORT_CTL, SV_CFG] at *
  omega

/-- A port that goes DOWN changes by its fall, and by what the move of its messages touches. -/
theorem onlyLink_svFall (code : Option Nat) : OnlyLink (s.svFallen p) (s.svFall p code) := by
  cases code with
  | none => exact onlyLink_svMove _ p
  | some c => exact (onlyLink_svMove (s.svFallen p) p).report c (svIid p)

theorem last_svFall (c : Nat) : (s.svFall p (some c)).reg GLB_FAULT_LAST = faultWord c (svIid p) := report_last _ _ _

theorem unacked_svMove : ((s.svMove p).svPort p).unacked = [] := by
  have away (l : List SvTx) (u : State) (h : 1 - p ≠ p) :
      (l.foldl (fun s m => s.svQueue (1 - p) m) u).svPort p = u.svPort p := by
    induction l generalizing u with
    | nil => rfl
    | cons a r ih => exact (ih _).trans (svPort_svQueue_ne u h a)
  unfold State.svMove
  dsimp only
  split
  · rw [away _ _ (by omega), svPort_setSvPort, if_pos rfl]
  · rw [svPort_setSvPort, if_pos rfl]

theorem unacked_svFall (code : Option Nat) : ((s.svFall p code).svPort p).unacked = [] := by
  cases code with
  | none => exact unacked_svMove _ p
  | some c => exact (congrArg SvPort.unacked (svPort_report _ _ _ _)).trans (unacked_svMove _ p)

/-- DOWN is left for TRAIN where the port is enabled and the device does not stand alone (R569). -/
theorem svState_svTrain : (s.svTrain p).svState p =
    if s.is (SV_PORT_CTL_EN p) = true ∧ s.svMembers ≠ 1 ∧ s.svState p = 0 then 1 else s.svState p := by
  unfold State.svTrain
  split
  · exact svState_svEnter s p (by decide)
  · rfl

theorem reg_svTrain {o : Nat} (h : SV_PORT_STAT p ≠ o) : (s.svTrain p).reg o = s.reg o := by
  unfold State.svTrain
  split
  · exact reg_svEnter s p 1 h
  · rfl

variable {p} (hp : p < 2)
include hp

theorem svState_svFall (code : Option Nat) : (s.svFall p code).svState p = 0 :=
  ((onlyLink_svFall s p code).svState hp).trans (svState_svFallen s p)

theorem lanes_svFall (code : Option Nat) : (s.svFall p code).get (SV_PORT_STAT_LANES_LOCKED p) = 0 :=
  ((onlyLink_svFall s p code).lanes hp).trans (lanes_svFallen s p)

theorem sameSetup_svFall (code : Option Nat) : SameSetup p s (s.svFall p code) :=
  (sameSetup_svFallen s p).trans ((onlyLink_svFall s p code).setup hp)

/-- After a loss the port trains again (R561). -/
theorem afterLoss_svDown (code : Nat) : AfterLoss p s (s.svDown p code) := by
  have setup := sameSetup_svFall s hp (some code)
  rw [AfterLoss, State.svDown, svState_svTrain, setup.en, setup.members, svState_svFall s hp]
  simp only [and_true]

theorem last_svDown (code : Nat) : (s.svDown p code).reg GLB_FAULT_LAST = faultWord code (svIid p) := by
  refine (reg_svTrain _ p ?_).trans (last_svFall s p code)
  simp only [SV_PORT_STAT, GLB_FAULT_LAST]
  omega

end Fall

theorem faultWord_port (c : Nat) (p : Fin 2) : faultWord c (svIid p) = BitVec.ofNat 32 (c + (24 + p.val) * 0x10000) := by
  rw [faultWord, svIid, Nat.mod_eq_of_lt (by omega), Nat.mul_comm]

end Sys2Proof.Machine
end

section
/-! The ports of the Selvedge link train, recalibrate, replay and fall (O58). -/

namespace Sys2Proof.Machine

open Reg

/-! ### SV_PORT_CTL (R561, R569) -/

section Ctl

variable {s : State} {p : Fin 2}

theorem en_putB (b : Bool) : (s.putB (SV_PORT_CTL_EN p) b).is (SV_PORT_CTL_EN p) = b :=
  is_putB s _ b (Nat.le_of_ble_eq_true rfl) rfl

theorem state_putB_en (b : Bool) : (s.putB (SV_PORT_CTL_EN p) b).svState p = s.svState p := by
  refine get_congr (reg_putB_ne s b ?_)
  simp only [SV_PORT_CTL_EN, SV_PORT_CTL, SV_PORT_STAT_STATE, SV_PORT_STAT]
  omega

theorem members_putB_en (b : Bool) : (s.putB (SV_PORT_CTL_EN p) b).svMembers = s.svMembers := by
  refine congrArg (max 1) (get_congr (f := SV_CFG_MEMBERS) (reg_putB_ne s b ?_))
  simp only [SV_PORT_CTL_EN, SV_PORT_CTL, SV_CFG_MEMBERS, SV_CFG]
  omega

theorem en_svTrain (t : State) : (t.svTrain p).is (SV_PORT_CTL_EN p) = t.is (SV_PORT_CTL_EN p) := by
  refine is_congr (reg_svTrain t p ?_)
  simp only [SV_PORT_STAT, SV_PORT_CTL_EN, SV_PORT_CTL]
  omega

theorem svPortWrite_one : s.svPortWrite p 1 =
    if (s.svPort p).retry.isSome then s.putB (SV_PORT_CTL_EN p) true else (s.putB (SV_PORT_CTL_EN p) true).svTrain p := rfl

theorem svPortWrite_zero : s.svPortWrite p 0 =
    ((s.putB (SV_PORT_CTL_EN p) false).svFall p none).modSvPort p fun x => { x with retry := none } := rfl

theorem en_svPortWrite_one : (s.svPortWrite p 1).is (SV_PORT_CTL_EN p) = true := by
  rw [svPortWrite_one]
  split
  · exact en_putB true
  · exact (en_svTrain _).trans (en_putB true)

theorem svPortEnable_trains {iid : Iid} (h : s.writeOk iid (SV_PORT_CTL p) = true) (down : s.svState p = 0) (many : s.svMembers ≠ 1)
    (fresh : (s.svPort p).retry = none) : Completes (.svPortEnable iid p) s fun t =>
      t.is (SV_PORT_CTL_EN p) = true ∧ t.svState p = 1 := by
  refine done_completes (congrArg s.done (writeWith_ok h _)) ?_
  simp only [is_answered, svState_answered]
  refine ⟨en_svPortWrite_one, ?_⟩
  rw [svPortWrite_one, fresh, if_neg (by decide), svState_svTrain, if_pos]
  exact ⟨en_putB true, by rwa [members_putB_en], by rwa [state_putB_en]⟩

theorem svPortEnable_alone {iid : Iid} (h : s.writeOk iid (SV_PORT_CTL p) = true) (alone : s.svMembers = 1) :
    Completes (.svPortEnable iid p) s fun t => t.is (SV_PORT_CTL_EN p) = true ∧ t.svState p = s.svState p := by
  refine done_completes (congrArg s.done (writeWith_ok h _)) ?_
  simp only [is_answered, svState_answered]
  refine ⟨en_svPortWrite_one, ?_⟩
  rw [svPortWrite_one]
  split
  · exact state_putB_en true
  · rw [svState_svTrain, members_putB_en, if_neg (by simp [alone]), state_putB_en]

theorem svPortDisable_falls {iid : Iid} (h : s.writeOk iid (SV_PORT_CTL p) = true) : Completes (.svPortDisable iid p) s fun t =>
    t.is (SV_PORT_CTL_EN p) = false ∧ t.svState p = 0 ∧ t.get (SV_PORT_STAT_LANES_LOCKED p) = 0 ∧ (t.svPort p).retry = none ∧
      (t.svPort p).unacked = [] := by
  refine done_completes (congrArg s.done (writeWith_ok h _)) ?_
  simp only [is_answered, get_answered, svState_answered, svPort_answered]
  rw [svPortWrite_zero, svPort_modSvPort]
  refine ⟨?_, svState_svFall _ p.isLt none, lanes_svFall _ p.isLt none, rfl, unacked_svFall _ p none⟩
  exact (sameSetup_svFall _ p.isLt none).en.trans (en_putB false)

end Ctl

/-! ### Training (R561) -/

section Train

variable {p : Fin 2} {s : State}

theorem laneTrainingDone_aligns (h : s.svState p = 1) : Completes (.laneTrainingDone p) s fun t =>
    t.svState p = 2 ∧ (t.svPort p).locked = true := by
  refine done_completes (congrArg s.done (if_pos h)) ?_
  simp only [svState_answered, svPort_answered, svPort_modSvPort, svState_modSvPort]
  exact ⟨svState_svEnter s p (by decide), trivial⟩

/-- The instant at which the state's time is over. -/
def State.trainEnd (s : State) (p : Nat) : Nat := (s.svPort p).since + (if s.svState p = 1 then 10000000 else 5000000) * 256

theorem svTrainFail_eq (h : s.svState p = 1 ∨ s.svState p = 2) :
    s.svTrainFail p = ((s.advanceTo (s.trainEnd p)).svFall p (some 0xA001)).modSvPort p fun x =>
      { x with retry := some ((s.advanceTo (s.trainEnd p)).hg.dt + 100000000 * 256) } := by
  unfold State.svTrainFail
  dsimp only
  rw [if_neg (by omega)]
  rfl

theorem hg_svFall (u : State) (q : Nat) (code : Option Nat) : (u.svFall q code).hg = u.hg := (onlyLink_svFall u q code).hg

theorem linkTrainFail_falls (h : s.svState p = 1 ∨ s.svState p = 2) : Completes (.linkTrainFail p) s fun t => t.svState p = 0 ∧
    t.reg GLB_FAULT_LAST = BitVec.ofNat 32 (0xA001 + (24 + p.val) * 0x10000) ∧
    (t.svPort p).retry = some (t.hg.dt + 100000000 * 256) := by
  refine done_completes (congrArg s.done (svTrainFail_eq h)) ?_
  simp only [svState_answered, svPort_answered, reg_answered, svPort_modSvPort, reg_modSvPort, svState_modSvPort]
  refine ⟨svState_svFall _ p.isLt _, (last_svFall _ _ _).trans (faultWord_port _ p), ?_⟩
  exact congrArg (fun v : Hg => some (v.dt + 100000000 * 256)) (hg_svFall _ _ _).symm

theorem svTrainFail_idle (h : s.svState p ≠ 1) (k : s.svState p ≠ 2) : s.svTrainFail p = s := if_pos ⟨h, k⟩

theorem svRetry_due {x : Nat} (h : (s.svPort p).retry = some x) (down : s.svState p = 0) (en : s.is (SV_PORT_CTL_EN p) = true) :
    s.svRetry p = (s.advanceTo x).svTrain p := by
  unfold State.svRetry
  rw [h]
  exact if_pos ⟨down, en⟩

theorem svTrainRetry_trains {x : Nat} (h : (s.svPort p).retry = some x) (down : s.svState p = 0)
    (en : s.is (SV_PORT_CTL_EN p) = true) (many : s.svMembers ≠ 1) : Completes (.svTrainRetry p) s fun t =>
      t.svState p = 1 ∧ (t.svPort p).retry = none := by
  have go : (s.advanceTo x).is (SV_PORT_CTL_EN p) = true ∧ (s.advanceTo x).svMembers ≠ 1 ∧ (s.advanceTo x).svState p = 0 := by
    rw [is_congr (reg_advanceTo s x _), svMembers_advanceTo, svState_advanceTo]
    exact ⟨en, many, down⟩
  refine done_completes (congrArg s.done ((svRetry_due h down en).trans (if_pos go))) ?_
  simp only [svState_answered, svPort_answered, svPort_modSvPort, svState_modSvPort]
  exact ⟨svState_svEnter _ p (by decide), trivial⟩

theorem svRetry_none (h : (s.svPort p).retry = none) : s.svRetry p = s := by
  unfold State.svRetry
  rw [h]

/-- The port as SV_INIT_DONE makes it, before what waited is sent. -/
def State.svIsUp (s : State) (p : Nat) : State :=
  (s.svEnter p 4).modSvPort p fun x => { x with
    credit := (List.range 4).map svCap, lseq := 0, rxLseq := 4095, timeAt := s.hg.dt, calAt := s.hg.dt }

theorem onlyLink_sent (u : State) (p : Nat) : OnlyLink u (if u.svUsable (1 - p) then u else u.svMove (1 - p)) := by
  split
  · exact .refl u
  · exact onlyLink_svMove u _

/-- A HELLO leaves the ports as sending does; the device's state alone may change beside. -/
theorem svHello_port (u : State) {q : Nat} (hq : q < 2) : (∀ r, (u.svPort r).Rest ((u.svHello q).svPort r)) ∧
    ∀ r, r < 2 → (u.svHello q).svState r = u.svState r := by
  unfold State.svHello
  split
  · have put : ∀ r, r < 2 → (u.put SV_STATUS_STATE 1).svState r = u.svState r := fun r _ => by
      refine get_congr (reg_put_ne u 1 ?_)
      simp only [SV_STATUS_STATE, SV_STATUS, SV_PORT_STAT_STATE, SV_PORT_STAT]
      omega
    split
    · have sent := onlyLink_svBcast (u.put SV_STATUS_STATE 1) hq u.ownHello
      exact ⟨sent.ports, fun r hr => (sent.svState hr).trans (put r hr)⟩
    · have sent := onlyLink_svBcast u hq u.ownHello
      exact ⟨sent.ports, fun r hr => sent.svState hr⟩
  · exact ⟨fun _ => .refl _, fun _ _ => rfl⟩

theorem svInitDone_up (h : s.svState p = 3) : Completes (.svInitDone p) s fun t => t.svState p = 4 ∧ (t.svPort p).calAt = s.hg.dt ∧
    (t.svPort p).timeAt = s.hg.dt ∧ (t.svPort p).rxLseq = 4095 := by
  refine done_completes (t := s.svUp p) rfl ?_
  simp only [svState_answered, svPort_answered]
  have sent := onlyLink_sent (s.svIsUp p) p
  generalize hv : (if (s.svIsUp p).svUsable (1 - p) then s.svIsUp p else (s.svIsUp p).svMove (1 - p)) = v at sent
  have up : s.svUp p = (v.svHello p).svPump p := by
    rw [← hv]
    exact if_neg (by simp [h])
  have pumped := onlyLink_svPump (v.svHello p) p
  obtain ⟨ports, states⟩ := svHello_port v p.isLt
  have rest := ((sent.ports p).trans (ports p)).trans (pumped.ports p)
  have port : (s.svIsUp p).svPort p = { s.svPort p with
      since := s.hg.dt, credit := (List.range 4).map svCap, lseq := 0, rxLseq := 4095, timeAt := s.hg.dt, calAt := s.hg.dt } := by
    rw [State.svIsUp, svPort_modSvPort, svPort_svEnter]
  rw [up]
  refine ⟨?_, rest.calAt.trans (congrArg _ port), rest.timeAt.trans (congrArg _ port), rest.rxLseq.trans (congrArg _ port)⟩
  rw [pumped.svState p.isLt, states p p.isLt, sent.svState p.isLt]
  exact svState_svEnter s p (by decide)

end Train

/-! ### Recalibration (R561) -/

section Cal

variable {p : Fin 2} {s : State}

/-- The port in CAL. -/
def State.svInCal (s : State) (p : Nat) : State := ((s.svEnter p 5).svUnlock p).modSvPort p fun x => { x with calAt := s.hg.dt }

theorem svCal_up (h : s.svState p = 4) : s.svCal p = (s.svInCal p).emit (.svCal p) := if_neg (by simp [h])

theorem svState_svInCal (s : State) (p : Nat) : (s.svInCal p).svState p = 5 :=
  (svState_svUnlock _ p).trans (svState_svEnter s p (by decide))

theorem selvedgeCal_begins (h : s.svState p = 4) : Completes (.selvedgeCal p) s fun t => t.svState p = 5 ∧
    t.get (SV_PORT_STAT_LANES_LOCKED p) = 0 ∧ t.outbox = .svCal p :: s.outbox := by
  refine done_completes (congrArg s.done (svCal_up h)) ⟨?_, ?_, rfl⟩
  · exact svState_svInCal s p
  · exact lanes_svUnlock (s.svEnter p 5) p

theorem calTimeout_falls (h : s.svState p = 5) : Completes (.calTimeout p) s fun t => AfterLoss p s t ∧
    t.reg GLB_FAULT_LAST = BitVec.ofNat 32 (0xA002 + (24 + p.val) * 0x10000) := by
  refine done_completes (congrArg s.done (if_pos h)) ⟨?_, ?_⟩
  · exact ((afterLoss_svDown _ p.isLt 0xA002).of_setup (sameSetup_advanceTo s p _)).of_state (svState_answered _ _ _ _)
  · rw [reg_answered, last_svDown _ p.isLt, faultWord_port]

theorem calReceive_ignores (h : s.svUsable p = true) : Completes (.calReceive p) s fun t =>
    (t.svPort p).calRx = some s.hg.dt ∧ t.svIgnores p = true := by
  refine done_completes (congrArg s.done (if_pos h)) ?_
  have port : (s.modSvPort p fun x => { x with calRx := some s.hg.dt }).svPort p =
      { s.svPort p with calRx := some s.hg.dt } := svPort_modSvPort _ _ _
  simp only [State.svIgnores, svPort_answered, port]
  refine ⟨trivial, decide_eq_true ?_⟩
  exact Nat.lt_add_of_pos_right (by decide)

end Cal

/-! ### Lanes (R559, R561) -/

section Lanes

variable {p : Fin 2} {l : Fin 4} {s : State}

theorem svLanes_iff {q : Nat} : s.svLanes q = true ↔ 2 ≤ s.svState q := decide_eq_true_iff

theorem lanes_idle (h : s.svState p < 2) : exec (.laneBlockLock p l) s = .next s ∧ exec (.laneBlockLockLoss p l) s = .next s ∧
    exec (.laneMarkerLockLoss p l) s = .next s ∧ ∀ d, exec (.laneMarkerLock p l d) s = .next s := by
  have none : s.svLanes p = false := decide_eq_false (by omega)
  have kept {t : State} (e : t = s) : s.done t = .next s := by rw [e, done_self]
  refine ⟨kept ?_, kept ?_, kept ?_, fun d => kept ?_⟩
  · simp [State.svBlockLock, none]
  · simp [State.svLaneLoss, none]
  · simp [State.svLaneLoss, none]
  · simp [State.svMarkerLock, none]

theorem testBit_setBits_one (v i : Nat) : (setBits v i 1 1).testBit i = true := by
  rw [testBit_setBits, if_pos (by omega)]
  simp

theorem testBit_setBits_zero (v i : Nat) : (setBits v i 1 0).testBit i = false := by
  rw [testBit_setBits, if_pos (by omega)]
  simp

/-- A bit of a four-bit field, set or cleared, leaves four bits. -/
theorem setBits_lanes_lt : ∀ v < 16, ∀ l < 4, ∀ b < 2, setBits v l 1 b < 16 := by
  decide

theorem laneBlockLock_locks (h : 2 ≤ s.svState p) : Completes (.laneBlockLock p l) s fun t =>
    (t.svPort p).blk.testBit l = true ∧ t.svState p = s.svState p := by
  refine done_completes (congrArg s.done (if_pos (svLanes_iff.2 h))) ?_
  simp only [svState_answered, svPort_answered, svPort_modSvPort, svState_modSvPort]
  exact ⟨testBit_setBits_one _ _, trivial⟩

theorem svState_emits (q : Nat) {α : Type} (f : α → Out) (as : List α) (s : State) :
    (as.foldl (fun s a => s.emit (f a)) s).svState q = s.svState q := by
  induction as generalizing s with
  | nil => rfl
  | cons a r ih => exact ih _

theorem lanes_emits (q : Nat) {α : Type} (f : α → Out) (as : List α) (s : State) :
    (as.foldl (fun s a => s.emit (f a)) s).get (SV_PORT_STAT_LANES_LOCKED q) = s.get (SV_PORT_STAT_LANES_LOCKED q) := by
  induction as generalizing s with
  | nil => rfl
  | cons a r ih => exact ih _

/-- The state that a port with all its lanes locked goes to. -/
def alignedTo (st : Nat) : Nat := if st = 2 then 3 else if st = 5 then 4 else st

theorem svAligned_waits {u : State} (h : ¬ (u.get (SV_PORT_STAT_LANES_LOCKED p) = 15 ∧ (u.svPort p).desk = true)) :
    u.svAligned p = u :=
  if_pos (by rwa [not_and_or, Bool.not_eq_true] at h)

theorem svAligned_all {u : State} (lanes : u.get (SV_PORT_STAT_LANES_LOCKED p) = 15) (desk : (u.svPort p).desk = true) :
    u.svAligned p =
      if u.svState p = 2 then (List.range 4).foldl (fun s c => s.emit (.svCredit p 4095 false c (svCap c))) (u.svEnter p 3)
      else if u.svState p = 5 then (u.svEnter p 4).svPump p else u :=
  if_neg (by simp [lanes, desk])

/-- With four lanes locked and deskewed ALIGN is left for INIT and CAL for UP; the lanes stay as they are. -/
theorem svAligned_goes (u : State) : (u.svAligned p).get (SV_PORT_STAT_LANES_LOCKED p) = u.get (SV_PORT_STAT_LANES_LOCKED p) ∧
    (u.svAligned p).svState p = if u.get (SV_PORT_STAT_LANES_LOCKED p) = 15 ∧ (u.svPort p).desk = true then alignedTo (u.svState p)
      else u.svState p := by
  by_cases all : u.get (SV_PORT_STAT_LANES_LOCKED p) = 15 ∧ (u.svPort p).desk = true
  · rw [svAligned_all all.1 all.2, if_pos all, alignedTo]
    split
    · exact ⟨(lanes_emits _ _ _ _).trans (lanes_svEnter u p 3), (svState_emits _ _ _ _).trans (svState_svEnter u p (by decide))⟩
    · split
      · have sent := onlyLink_svPump (u.svEnter p 4) p
        exact ⟨(sent.lanes p.isLt).trans (lanes_svEnter u p 4), (sent.svState p.isLt).trans (svState_svEnter u p (by decide))⟩
      · exact ⟨rfl, rfl⟩
  · rw [svAligned_waits all, if_neg all]
    exact ⟨rfl, rfl⟩

/-- A lane's marker lock, before the port looks whether it may go on. -/
def State.svMarked (s : State) (p l : Nat) (desk : Bool) : State :=
  (s.put (SV_PORT_STAT_LANES_LOCKED p) (setBits (s.get (SV_PORT_STAT_LANES_LOCKED p)) l 1 1)).modSvPort p fun x => { x with desk := desk }

theorem lanes_put (u : State) {x : Nat} (h : x < 16) :
    (u.put (SV_PORT_STAT_LANES_LOCKED p) x).get (SV_PORT_STAT_LANES_LOCKED p) = x :=
  (get_put u (SV_PORT_STAT_LANES_LOCKED p) x (Nat.le_of_ble_eq_true rfl)).trans (Nat.mod_eq_of_lt h)

theorem svState_put_lanes (u : State) (x : Nat) : (u.put (SV_PORT_STAT_LANES_LOCKED p) x).svState p = u.svState p :=
  get_put_ne u _ _ _ (Nat.le_of_ble_eq_true rfl) (.inr (.inr (Nat.le_of_ble_eq_true rfl)))

theorem lanes_lt (u : State) : u.get (SV_PORT_STAT_LANES_LOCKED p) < 16 := bitsOf_lt _ _ _

theorem laneMarkerLock_locks (h : 2 ≤ s.svState p) {d : Bool} (blk : (s.svPort p).blk.testBit l = true) :
    let x := setBits (s.get (SV_PORT_STAT_LANES_LOCKED p)) l 1 1
    Completes (.laneMarkerLock p l d) s fun t => t.get (SV_PORT_STAT_LANES_LOCKED p) = x ∧
      t.svState p = if x = 15 ∧ d = true then (if s.svState p = 2 then 3 else if s.svState p = 5 then 4 else s.svState p)
        else s.svState p := by
  intro x
  have marked : s.svMarkerLock p l d = (s.svMarked p l d).svAligned p := if_pos (by simp [svLanes_iff.2 h, blk])
  refine done_completes (congrArg s.done marked) ?_
  simp only [get_answered, svState_answered]
  obtain ⟨lanes, state⟩ := svAligned_goes (p := p) (s.svMarked p l d)
  have now : (s.svMarked p l d).get (SV_PORT_STAT_LANES_LOCKED p) = x := lanes_put s (setBits_lanes_lt _ (lanes_lt s) l l.isLt 1 (by decide))
  have desk : ((s.svMarked p l d).svPort p).desk = d := congrArg SvPort.desk (svPort_modSvPort _ _ _)
  have was : (s.svMarked p l d).svState p = s.svState p := svState_put_lanes s x
  rw [now, desk, was] at state
  exact ⟨lanes.trans now, state⟩

/-- A lane's lock is lost, before the port falls. -/
def State.svLost (s : State) (p l : Nat) (block : Bool) : State :=
  let s1 := s.put (SV_PORT_STAT_LANES_LOCKED p) (setBits (s.get (SV_PORT_STAT_LANES_LOCKED p)) l 1 0)
  if block then s1.modSvPort p fun x => { x with blk := setBits x.blk l 1 0 } else s1

theorem reg_svLost (s : State) (p l : Nat) (block : Bool) (o : Nat) : (s.svLost p l block).reg o =
    (s.put (SV_PORT_STAT_LANES_LOCKED p) (setBits (s.get (SV_PORT_STAT_LANES_LOCKED p)) l 1 0)).reg o := by
  unfold State.svLost
  dsimp only
  split <;> rfl

theorem svLaneLoss_eq (h : 2 ≤ s.svState p) (block : Bool) : s.svLaneLoss p l block =
    if s.svState p = 4 ∧ s.svIgnores p = false then (s.svLost p l block).svDown p 0xA002 else s.svLost p l block :=
  if_neg (by simp [svLanes_iff.2 h])

/-- The two losses of a lane's lock act alike. -/
theorem laneLoss_done {c : Instr} (h : c = .laneBlockLockLoss p l ∨ c = .laneMarkerLockLoss p l) :
    ∃ block, exec c s = s.done (s.svLaneLoss p l block) := by
  rcases h with rfl | rfl
  · exact ⟨true, rfl⟩
  · exact ⟨false, rfl⟩

theorem laneLoss_stays {c : Instr} (hc : c = .laneBlockLockLoss p l ∨ c = .laneMarkerLockLoss p l) (h : 2 ≤ s.svState p)
    (stays : s.svState p ≠ 4 ∨ s.svIgnores p = true) : Completes c s fun t => t.svState p = s.svState p ∧
      (t.get (SV_PORT_STAT_LANES_LOCKED p)).testBit l = false := by
  obtain ⟨block, done⟩ := laneLoss_done (s := s) hc
  rw [svLaneLoss_eq h, if_neg (by rcases stays with k | k <;> simp [k])] at done
  refine done_completes done ?_
  simp only [get_answered, svState_answered]
  refine ⟨(get_congr (reg_svLost s p l block _)).trans (svState_put_lanes s _), ?_⟩
  rw [get_congr (reg_svLost s p l block _), lanes_put s (setBits_lanes_lt _ (lanes_lt s) l l.isLt 0 (by decide))]
  exact testBit_setBits_zero _ _

theorem laneLoss_falls {c : Instr} (hc : c = .laneBlockLockLoss p l ∨ c = .laneMarkerLockLoss p l) (up : s.svState p = 4)
    (heeds : s.svIgnores p = false) : Completes c s fun t => AfterLoss p s t ∧
      t.reg GLB_FAULT_LAST = BitVec.ofNat 32 (0xA002 + (24 + p.val) * 0x10000) := by
  obtain ⟨block, done⟩ := laneLoss_done (s := s) hc
  rw [svLaneLoss_eq (by omega), if_pos ⟨up, heeds⟩] at done
  have setup : SameSetup p s (s.svLost p l block) := by
    refine .of_ne fun o ho => (reg_svLost s p l block o).trans (reg_put_ne s _ ?_)
    simp only [SV_PORT_STAT_LANES_LOCKED, SV_PORT_STAT, SV_PORT_CTL, SV_CFG] at *
    omega
  refine done_completes done ⟨?_, ?_⟩
  · exact ((afterLoss_svDown _ p.isLt 0xA002).of_setup setup).of_state (svState_answered _ _ _ _)
  · rw [reg_answered, last_svDown _ p.isLt, faultWord_port]

end Lanes

/-! ### Credits and replay (R564, R565) -/

section Credit

variable {p : Fin 2} {s : State}

/-- Every ROTATE that looks again leaves all but the Track as it was. -/
theorem onlyTrack_rotateAll (s : State) : OnlyTrack s s.rotateAll := by
  have fold (qs : List Nat) (u : State) (h : OnlyTrack s u) : OnlyTrack s (qs.foldl (fun s q => s.rotateLook q none) u) := by
    induction qs generalizing u with
    | nil => exact h
    | cons q r ih => exact ih _ (h.trans (onlyTrack_rotateLook u q none))
  exact fold _ s rfl

theorem svPort_rotateAll (s : State) (q : Nat) : s.rotateAll.svPort q = s.svPort q := by
  rw [onlyTrack_rotateAll s]
  rfl

theorem reg_rotateAll (s : State) (o : Nat) : s.rotateAll.reg o = s.reg o := by
  rw [onlyTrack_rotateAll s]
  rfl

/-- The end of a detachment leaves the ports as they were. -/
theorem detachDone_kept (u : State) : (∀ q, u.detachDone.svPort q = u.svPort q) ∧
    ∀ o, o ≠ SV_STATUS → o ≠ PL_STATUS → u.detachDone.reg o = u.reg o := by
  unfold State.detachDone
  dsimp only
  split
  · refine ⟨fun _ => rfl, fun o status twin => ?_⟩
    exact (reg_setReg_ne _ _ twin.symm).trans ((reg_setReg_ne _ _ status.symm).trans (reg_setReg_ne _ _ status.symm))
  · exact ⟨fun _ => rfl, fun _ _ _ => rfl⟩

theorem svStart_nil {x : SvPort} (h : x.queue = []) (now : Nat) (held : List Nat) : (svStart now x held []).1 = x := by
  unfold svStart
  rw [← h]

/-- A port with nothing that waits starts nothing. -/
theorem svPump_idle {u : State} {q : Nat} (h : (u.svPort q).queue = []) :
    (u.svPump q).svPort q = u.svPort q ∧ ∀ o, (u.svPump q).reg o = u.reg o := by
  unfold State.svPump
  dsimp only
  split
  · exact ⟨rfl, fun _ => rfl⟩
  · rw [h]
    refine ⟨?_, fun _ => rfl⟩
    exact (svPort_setSvPort _ _ _ _).trans ((if_pos rfl).trans (svStart_nil h _ _))

/-- The port's contents once an acknowledgement has been taken. -/
def SvPort.acked (x : SvPort) (again : List SvTx) (cls units : Nat) : SvPort :=
  { x with
    unacked := again
    credit := (List.range 4).map fun k => x.credit.getD k 0 + (if k = cls then units else 0) }

/-- What is not acknowledged, one more time tried. -/
def tried (l : List SvTx) : List SvTx := l.map fun m => { m with tries := m.tries + 1 }

theorem length_tried (l : List SvTx) : (tried l).length = l.length := List.length_map _

theorem tried_often (l : List SvTx) : ((tried l).any fun m => decide (8 ≤ m.tries)) = true ↔ ∃ m ∈ l, 7 ≤ m.tries := by
  simp [tried]

/-- What an acknowledgement leaves of a port that is not acknowledged, and what happens to the rest. -/
abbrev ackLeft (s : State) (p : Nat) (ack : BitVec 16) : List SvTx := dropAcked (ack.toNat % 4096) (s.svPort p).unacked

section Taken

variable {ack : BitVec 16} {cls units : Nat}

theorem svCreditIn_ack (h : s.svUsable p = true) (nak : ack.getLsbD 15 = false) : s.svCreditIn p ack.toNat cls units =
    ((s.setSvPort p ((s.svPort p).acked (ackLeft s p ack) cls units)).svPump p).detachDone := by
  have bit : ack.toNat.testBit 15 = false := nak
  unfold State.svCreditIn
  rw [if_neg (by simp [h])]
  simp only [bit]
  rfl

/-- The state in which what a NAK names is sent again, or the port falls. -/
def State.svNaked (s : State) (p : Nat) (ack : BitVec 16) (cls units : Nat) : State :=
  (s.setSvPort p ((s.svPort p).acked (tried (ackLeft s p ack)) cls units)).bump (SV_PORT_ERR_REPLAY p) (tried (ackLeft s p ack)).length

theorem svCreditIn_nak (h : s.svUsable p = true) (nak : ack.getLsbD 15 = true) : s.svCreditIn p ack.toNat cls units =
    if (tried (ackLeft s p ack)).any fun m => decide (8 ≤ m.tries) then (s.svNaked p ack cls units).svDown p 0xA004
    else (((tried (ackLeft s p ack)).foldl (fun s m => s.emit (.svMsg p m)) (s.svNaked p ack cls units)).svPump p).detachDone := by
  have bit : ack.toNat.testBit 15 = true := nak
  unfold State.svCreditIn
  rw [if_neg (by simp [h])]
  simp only [bit]
  rfl

end Taken

theorem status_ne {q : Nat} : SV_PORT_STAT q ≠ SV_STATUS ∧ SV_PORT_STAT q ≠ PL_STATUS ∧ SV_PORT_ERR q ≠ SV_STATUS ∧
    SV_PORT_ERR q ≠ PL_STATUS := by
  simp only [SV_PORT_STAT, SV_PORT_ERR, SV_STATUS, PL_STATUS]
  omega

theorem credit_acked (x : SvPort) (again : List SvTx) (cls : Fin 4) (units : Nat) :
    (x.acked again cls units).credit.getD cls 0 = x.credit.getD cls 0 + units := by
  simp [SvPort.acked, List.getD_eq_getElem?_getD]

theorem svPort_setSvPort_same (u : State) (q : Nat) (x : SvPort) : (u.setSvPort q x).svPort q = x :=
  (svPort_setSvPort _ _ _ _).trans (if_pos rfl)

theorem creditBlock_ack {ack units : BitVec 16} {cls : Fin 4} (h : s.svUsable p = true) (idle : (s.svPort p).queue = [])
    (nak : ack.getLsbD 15 = false) : Completes (.creditBlock p ack cls units) s fun t =>
      (t.svPort p).unacked = ackLeft s p ack ∧
      (t.svPort p).credit.getD cls 0 = (s.svPort p).credit.getD cls 0 + units.toNat ∧ t.svState p = s.svState p := by
  refine done_completes (t := (s.svCreditIn p ack.toNat cls units.toNat).rotateAll) rfl ?_
  simp only [svPort_answered, svState_answered]
  have port := svPort_setSvPort_same s p ((s.svPort p).acked (ackLeft s p ack) cls units.toNat)
  obtain ⟨pump, regs⟩ := svPump_idle (q := p) ((congrArg SvPort.queue port).trans idle)
  obtain ⟨ports, others⟩ := detachDone_kept ((s.setSvPort p ((s.svPort p).acked (ackLeft s p ack) cls units.toNat)).svPump p)
  have now : ((s.svCreditIn p ack.toNat cls units.toNat).rotateAll).svPort p =
      (s.svPort p).acked (ackLeft s p ack) cls units.toNat := by
    rw [svPort_rotateAll, svCreditIn_ack h nak, ports, pump, port]
  refine ⟨congrArg SvPort.unacked now, (congrArg (fun x : SvPort => x.credit.getD cls 0) now).trans (credit_acked _ _ _ _), ?_⟩
  refine get_congr ?_
  rw [reg_rotateAll, svCreditIn_ack h nak, others (SV_PORT_STAT_STATE p).off status_ne.1 status_ne.2.1, regs]
  rfl

theorem creditBlock_nak {ack units : BitVec 16} {cls : Fin 4} (h : s.svUsable p = true) (idle : (s.svPort p).queue = [])
    (nak : ack.getLsbD 15 = true) (few : ∀ m ∈ ackLeft s p ack, m.tries < 7) : Completes (.creditBlock p ack cls units) s fun t =>
      (t.svPort p).unacked = tried (ackLeft s p ack) ∧
      t.get (SV_PORT_ERR_REPLAY p) =
        min (s.get (SV_PORT_ERR_REPLAY p) + (ackLeft s p ack).length) (2 ^ (SV_PORT_ERR_REPLAY p).w - 1) := by
  refine done_completes (t := (s.svCreditIn p ack.toNat cls units.toNat).rotateAll) rfl ?_
  simp only [svPort_answered, get_answered]
  have again : s.svCreditIn p ack.toNat cls units.toNat = (((tried (ackLeft s p ack)).foldl (fun s m => s.emit (.svMsg p m))
      (s.svNaked p ack cls units.toNat)).svPump p).detachDone := by
    rw [svCreditIn_nak h nak, if_neg]
    rw [tried_often]
    rintro ⟨m, mem, often⟩
    have := few m mem
    omega
  have sent : ∀ o, ((tried (ackLeft s p ack)).foldl (fun s m => s.emit (.svMsg p m)) (s.svNaked p ack cls units.toNat)).reg o =
      (s.svNaked p ack cls units.toNat).reg o := fun o => by
    generalize tried (ackLeft s p ack) = ms
    generalize s.svNaked p ack cls units.toNat = u
    induction ms generalizing u with
    | nil => rfl
    | cons m r ih => exact ih _
  have port : ((tried (ackLeft s p ack)).foldl (fun s m => s.emit (.svMsg p m)) (s.svNaked p ack cls units.toNat)).svPort p =
      (s.svPort p).acked (tried (ackLeft s p ack)) cls units.toNat := by
    rw [svPort_emits]
    exact svPort_setSvPort_same s p _
  obtain ⟨pump, regs⟩ := svPump_idle (q := p) ((congrArg SvPort.queue port).trans idle)
  obtain ⟨ports, others⟩ := detachDone_kept
    (((tried (ackLeft s p ack)).foldl (fun s m => s.emit (.svMsg p m)) (s.svNaked p ack cls units.toNat)).svPump p)
  constructor
  · rw [svPort_rotateAll, again, ports, pump, port]
    rfl
  · rw [get_congr (t := (s.svCreditIn p ack.toNat cls units.toNat).rotateAll) (s := s.svNaked p ack cls units.toNat), State.svNaked,
      get_bump _ _ _ (Nat.le_of_ble_eq_true rfl), length_tried]
    · rfl
    · rw [reg_rotateAll, again, others (SV_PORT_ERR_REPLAY p).off status_ne.2.2.1 status_ne.2.2.2, regs, sent]

theorem creditBlock_falls {ack units : BitVec 16} {cls : Fin 4} (h : s.svUsable p = true) (nak : ack.getLsbD 15 = true)
    (often : ∃ m ∈ ackLeft s p ack, 7 ≤ m.tries) : Completes (.creditBlock p ack cls units) s fun t => AfterLoss p s t := by
  refine done_completes (t := (s.svCreditIn p ack.toNat cls units.toNat).rotateAll) rfl ?_
  have falls : s.svCreditIn p ack.toNat cls units.toNat = (s.svNaked p ack cls units.toNat).svDown p 0xA004 := by
    rw [svCreditIn_nak h nak, if_pos ((tried_often _).2 often)]
  have setup : SameSetup p s (s.svNaked p ack cls units.toNat) := by
    refine .of_ne fun o ho => reg_bump_ne _ _ ?_
    simp only [SV_PORT_ERR_REPLAY, SV_PORT_ERR, SV_PORT_CTL, SV_CFG] at *
    omega
  refine ((afterLoss_svDown (s.svNaked p ack cls units.toNat) p.isLt 0xA004).of_setup setup).of_state ?_
  rw [svState_answered]
  exact get_congr (by rw [reg_rotateAll, falls])

end Credit

/-! ### Transmit lock (R568) -/

section Pll

variable {p : Fin 2} {s : State}

/-- The port once its stale messages are gone. -/
def SvPort.unstaled (x : SvPort) : SvPort := { x with queue := x.queue.filter fun m => !m.msg.stale, staleSaid := true }

/-- The state in which stale messages have been dropped and counted. -/
def State.svDropped (s : State) (p : Nat) : State :=
  ((s.advanceTo ((s.svPort p).lostAt + 200000 * 256)).setSvPort p (s.svPort p).unstaled).bump (SV_PORT_ERR_STALE p)
    ((s.svPort p).queue.filter fun m => m.msg.stale).length

theorem svStaleDrop_drops (off : (s.svPort p).locked = false) (some_ : (s.svPort p).queue.any (fun m => m.msg.stale) = true) :
    s.svStaleDrop p = if (s.svPort p).staleSaid then s.svDropped p else (s.svDropped p).report 0xA031 (svIid p) := by
  have many : ((s.svPort p).queue.filter fun m => m.msg.stale).length ≠ 0 := by
    rw [Ne, List.length_eq_zero_iff, List.filter_eq_nil_iff]
    simpa using some_
  unfold State.svStaleDrop
  dsimp only
  rw [if_neg (by simpa [off] using many)]
  rfl

theorem svPort_svDropped (s : State) (p : Nat) : (s.svDropped p).svPort p = (s.svPort p).unstaled := svPort_setSvPort_same _ p _

theorem txStaleDrop_drops (off : (s.svPort p).locked = false) (some_ : (s.svPort p).queue.any (fun m => m.msg.stale) = true) :
    Completes (.txStaleDrop p) s fun t =>
      (t.svPort p).queue = (s.svPort p).queue.filter (fun m => !m.msg.stale) ∧ (t.svPort p).staleSaid = true ∧
      ((s.svPort p).staleSaid = false → t.reg GLB_FAULT_LAST = BitVec.ofNat 32 (0xA031 + (24 + p.val) * 0x10000)) := by
  refine done_completes (congrArg s.done (svStaleDrop_drops off some_)) ?_
  simp only [svPort_answered, reg_answered]
  have port : (if (s.svPort p).staleSaid then s.svDropped p else (s.svDropped p).report 0xA031 (svIid p)).svPort p =
      (s.svPort p).unstaled := by
    split
    · exact svPort_svDropped s p
    · exact (svPort_report _ _ _ _).trans (svPort_svDropped s p)
  refine ⟨congrArg SvPort.queue port, congrArg SvPort.staleSaid port, fun fresh => ?_⟩
  rw [fresh, if_neg (by decide), report_last, faultWord_port]

theorem txStaleDrop_locked (on : (s.svPort p).locked = true) : exec (.txStaleDrop p) s = .next s :=
  (congrArg s.done (if_pos (by simp [on]))).trans (done_self s)

theorem svTxPllLockLoss_loses (on : (s.svPort p).locked = true) : Completes (.svTxPllLockLoss p) s fun t =>
    (t.svPort p).locked = false ∧ (t.svPort p).lostAt = s.hg.dt ∧ t.svState p = s.svState p := by
  refine done_completes (congrArg s.done (if_pos on)) ?_
  simp only [svPort_answered, svState_answered, svPort_modSvPort, svState_modSvPort, and_self]

theorem svTxPllLockReturn_locks (p : Fin 2) (s : State) : Completes (.svTxPllLockReturn p) s fun t =>
    (t.svPort p).locked = true ∧ t.svState p = s.svState p := by
  refine done_completes (t := s.svPllBack p) rfl ?_
  simp only [svPort_answered, svState_answered]
  have sent := onlyLink_svPump (s.modSvPort p fun x => { x with locked := true }) p
  exact ⟨(sent.ports p).locked.trans (congrArg SvPort.locked (svPort_modSvPort _ _ _)), sent.svState p.isLt⟩

end Pll

/-- Settles O58: each operation of a port by its own lemma, over what sending and a fall leave alone (OnlyLink, AfterLoss). -/
theorem selvedgePortsTrainAndRecover : Obligations.SelvedgePortsTrainAndRecover := by
  unfold Obligations.SelvedgePortsTrainAndRecover
  have idle {s t : State} (e : t = s) : s.done t = .next s := by rw [e, done_self]
  refine ⟨fun iid p s h => ⟨?_, ?_, ?_⟩, fun p s => ⟨?_, ?_, ?_, ?_, ?_, ?_, ?_, ?_, ?_, ?_, ?_, ?_, ?_, ?_⟩,
    fun p l s => ⟨?_, fun lanes => ⟨?_, ?_, ?_⟩⟩, fun p ack units cls s h => ⟨?_, ?_, ?_⟩, fun p s => ⟨?_, ?_, ?_, ?_⟩⟩
  · exact svPortEnable_trains h
  · exact svPortEnable_alone h
  · exact svPortDisable_falls h
  · exact laneTrainingDone_aligns
  · exact fun k => idle (if_neg k)
  · exact linkTrainFail_falls
  · exact fun h k => idle (svTrainFail_idle h k)
  · exact fun x h down en many => svTrainRetry_trains h down en many
  · exact fun h => idle (svRetry_none h)
  · exact svInitDone_up
  · exact fun h => idle (if_pos h)
  · exact selvedgeCal_begins
  · exact fun h => idle (if_pos h)
  · exact calTimeout_falls
  · exact fun h => idle (if_neg h)
  · exact calReceive_ignores
  · exact fun h => idle (if_neg (by simp [h]))
  · exact lanes_idle
  · exact laneBlockLock_locks lanes
  · exact fun d blk => laneMarkerLock_locks lanes blk
  · exact fun c hc => ⟨laneLoss_stays hc lanes, laneLoss_falls hc⟩
  · exact creditBlock_ack h
  · exact creditBlock_nak h
  · exact creditBlock_falls h
  · exact txStaleDrop_drops
  · exact fun on => ⟨txStaleDrop_locked on, svTxPllLockLoss_loses on⟩
  · exact fun off => idle (if_neg (by simp [off]))
  · exact svTxPllLockReturn_locks p s

end Sys2Proof.Machine
end

section
/-! The loss of the links ends the frames on the wire (R225), and gives LM_VIEW_SEQ of each back its value (R214): a frame whose view is
none of the device's refutes O56 and O57. -/

namespace Sys2Proof.Machine

open Reg

/-- A frame whose view is none of the four of R211: the place of its LM_VIEW_SEQ is that of MC_PWR_STAT, and the value that a cut gives
back has MOVING set. -/
def awryFrame : LmFrame :=
  { view := 0xA00E0, run := 0, turn := 0, since := 0, tenant := 0, va := 0, rows := 1, rowBytes := 4, fmt := 0, emb := [], seqWas := 8 }

theorem viewSeq_awryFrame : LM_VIEW_SEQ awryFrame.view = MC_PWR_STAT := rfl

/-- Port 0 holds its lock and is sending the awry frame; Link and its power are on. -/
def awryState : State :=
  State.put { State.reset with
    loom := { State.reset.loom with
      ports := spPut (fun _ => {}) State.reset.loom.ports 0 { wire := some (awryFrame, 1, 0), locked := true } } }
    MC_RAIL_STAT_EN 4 |>.put MC_RAIL_STAT_PG 4

/-- The entry into DOZE is in progress. -/
def awryEntry : State := awryState.setPwr fun w => { w with entering := some 3 }

/-- The cut comes after the register says that no entry or exit is in progress. -/
theorem moving_railFault : (awryState.railFault 2).is MC_PWR_STAT_MOVING = true := by decide +kernel

theorem moving_entryDone : awryEntry.entryDone.is MC_PWR_STAT_MOVING = true := by decide +kernel

theorem is_of_done {s u t : State} (h : s.done u = .next t) (f : Fld) : t.is f = u.is f := by
  cases h
  rfl

/-- Refutes O56: after a fault of the link rail MC_PWR_STAT.MOVING is set where the Loom sends a frame whose view number is none of the
four. The statement holds such a state possible; no run of the device queues such a frame. -/
theorem not_railsTrainingAndReel : ¬ Obligations.RailsTrainingAndReel := by
  unfold Obligations.RailsTrainingAndReel
  rintro ⟨rails, -⟩
  obtain ⟨-, enabled⟩ := rails 2 awryState
  obtain ⟨-, faults⟩ := enabled (by decide +kernel)
  obtain ⟨t, ht, -, -, -, still, -⟩ := faults
  exact absurd (still.symm.trans ((is_of_done ht _).trans moving_railFault)) (by decide)

/-- Refutes O57: MC_PWR_STAT.MOVING is set once an entry is done that takes the links away, where the Loom sends a frame whose view
number is none of the four. The statement holds such a state possible; no run of the device queues such a frame. -/
theorem not_powerStatesWakesAndUpkeep : ¬ Obligations.PowerStatesWakesAndUpkeep := by
  unfold Obligations.PowerStatesWakesAndUpkeep
  rintro ⟨states, -⟩
  obtain ⟨-, -, entered, -⟩ := states awryEntry
  obtain ⟨t, ht, -, still, -⟩ := entered 3 rfl (by decide)
  exact absurd (still.symm.trans ((is_of_done ht _).trans moving_entryDone)) (by decide)

end Sys2Proof.Machine
end

section
/-! What the loss of a device leaves alone beside the device itself: what is known of the devices, SV_STATUS, and a fault that stands in
GLB_FAULT_FIRST (R410, R469, R572, R574, R589). -/

namespace Sys2Proof.Machine

open Reg

/-- What is known of other devices, SV_STATUS, and a fault that stands in GLB_FAULT_FIRST are as they were. -/
structure PeersKept (s t : State) : Prop where
  peers : t.sv.peers = s.sv.peers
  status : t.reg SV_STATUS = s.reg SV_STATUS
  first : s.reg GLB_FAULT_FIRST ≠ 0 → t.reg GLB_FAULT_FIRST = s.reg GLB_FAULT_FIRST

namespace PeersKept

variable {s t u : State}

theorem refl (s : State) : PeersKept s s := ⟨rfl, rfl, fun _ => rfl⟩

theorem trans (h : PeersKept s t) (k : PeersKept t u) : PeersKept s u :=
  ⟨k.peers.trans h.peers, k.status.trans h.status, fun f => (k.first (by rwa [h.first f])).trans (h.first f)⟩

theorem host {l : List Nat} (h : HostKept l s t) (out : SV_STATUS ∉ l) : PeersKept s t :=
  ⟨h.peers, h.regs SV_STATUS out (by decide), h.first⟩

theorem still (h : Still s t) : PeersKept s t := host (HostKept.still (l := []) h) List.not_mem_nil

theorem link (h : OnlyLink s t) : PeersKept s t := host h.host (by decide)

theorem setReg (h : PeersKept s t) {o : Nat} (v : Word) (hs : o ≠ SV_STATUS) (hf : o ≠ GLB_FAULT_FIRST) : PeersKept s (t.setReg o v) :=
  h.trans ⟨rfl, reg_setReg_ne t v hs, fun _ => reg_setReg_ne t v hf⟩

theorem bump (h : PeersKept s t) {f : Fld} (n : Nat) (hs : f.off ≠ SV_STATUS) (hf : f.off ≠ GLB_FAULT_FIRST) :
    PeersKept s (t.bump f n) := h.setReg _ hs hf

theorem putB (h : PeersKept s t) {f : Fld} (b : Bool) (hs : f.off ≠ SV_STATUS) (hf : f.off ≠ GLB_FAULT_FIRST) :
    PeersKept s (t.putB f b) := h.setReg _ hs hf

theorem report (h : PeersKept s t) (c i : Nat) : PeersKept s (t.report c i) :=
  h.trans (host ((HostKept.refl [] t).report c i) List.not_mem_nil)

theorem foldl {α : Type} {f : State → α → State} (h : PeersKept s t) (hf : ∀ u a, PeersKept u (f u a)) (as : List α) :
    PeersKept s (as.foldl f t) := by
  induction as generalizing t with
  | nil => exact h
  | cons a as ih => exact ih (h.trans (hf t a))

theorem peer (h : PeersKept s t) (d : Nat) : t.svPeer d = s.svPeer d := by rw [State.svPeer, h.peers, State.svPeer]

end PeersKept

/-! ### Reads of memory (R426-R432) -/

section Reads

theorem peersKept_dpaRefuse (s : State) (c i : Nat) : PeersKept s (s.dpaRefuse c i) := by
  have told := (PeersKept.refl s).report c i
  unfold State.dpaRefuse
  dsimp only
  split
  · exact told.bump _ (by decide) (by decide)
  · exact told.bump _ (by decide) (by decide)

theorem peersKept_reelTouch (s : State) (l : Nat) (wr : Bool) : PeersKept s (s.reelTouch l wr) := by
  have moved (m : Mem) : PeersKept s { s with mem := m } := .still ⟨rfl, rfl, rfl⟩
  unfold State.reelTouch
  dsimp only
  split
  · exact moved _
  · split
    · split <;> exact moved _
    · exact (moved _).bump _ (by decide) (by decide)

theorem peersKept_reelSpan (s : State) (a n : Nat) (wr : Bool) : PeersKept s (s.reelSpan a n wr) := by
  unfold State.reelSpan
  split
  · refine PeersKept.foldl ?_ (fun u i => peersKept_reelTouch u _ wr) _
    split
    · exact (PeersKept.refl s).putB false (by decide) (by decide)
    · exact .refl s
  · exact .refl s

theorem ecc_ne {b : Nat} (h : b < 4) : MEM_ECC_UE b ≠ SV_STATUS ∧ MEM_ECC_UE b ≠ GLB_FAULT_FIRST ∧ MEM_ECC_ADDR_LO b ≠ SV_STATUS ∧
    MEM_ECC_ADDR_LO b ≠ GLB_FAULT_FIRST ∧ MEM_ECC_ADDR_LO b + 4 ≠ SV_STATUS ∧ MEM_ECC_ADDR_LO b + 4 ≠ GLB_FAULT_FIRST ∧
    MEM_ECC_CE b ≠ SV_STATUS ∧ MEM_ECC_CE b ≠ GLB_FAULT_FIRST := by
  decide +revert

theorem peersKept_eccUe (s : State) (i l : Nat) : PeersKept s (s.eccUe i l) := by
  obtain ⟨us, uf, as, af, bs, bf, -, -⟩ := ecc_ne (bobbinOf_lt (l * 64))
  unfold State.eccUe
  split
  · exact ((PeersKept.refl s).bump _ (by decide) (by decide)).report _ _
  · exact ((((PeersKept.refl s).bump _ us uf).setReg _ as af).setReg _ bs bf).report _ _

theorem peersKept_recover (s : State) (i l : Nat) (e : MemErr) : PeersKept s (s.recover i l e).1 := by
  have told (c : Nat) : PeersKept s (s.report c i) := (PeersKept.refl s).report c i
  unfold State.recover State.recoverBy
  split
  · dsimp only
    split
    · split
      · exact told _
      · exact (PeersKept.refl s).bump _ (by decide) (by decide)
    · split
      · split
        · exact told _
        · exact .refl s
      · exact .refl s
  · exact .refl s

theorem peersKept_poisonLines (s : State) (l n : Nat) : PeersKept s (s.poisonLines l n) := by
  induction n generalizing s l with
  | zero => exact .refl s
  | succ n ih => exact (PeersKept.still (s := s) (t := s.setPoison l true) ⟨rfl, rfl, rfl⟩).trans (ih _ (l + 1))

theorem peersKept_lineRead (s : State) (i l : Nat) (e : MemErr) : PeersKept s (s.lineRead i l e).1 := by
  obtain ⟨-, -, -, -, -, -, cs, cf⟩ := ecc_ne (bobbinOf_lt (l * 64))
  have tried := (peersKept_eccUe s i l).trans (peersKept_recover _ i l e)
  unfold State.lineRead
  dsimp only
  split
  · exact .refl s
  · split
    · split
      · dsimp only
        exact tried.trans (peersKept_poisonLines _ _ _)
      · exact tried
    · split
      · split
        · exact (PeersKept.refl s).bump _ (by decide) (by decide)
        · exact (PeersKept.refl s).bump _ cs cf
      · exact .refl s

theorem peersKept_linesRead (s : State) (i l : Nat) (e : MemErr) (n : Nat) : PeersKept s (s.linesRead i l e n).1 := by
  induction n generalizing s l with
  | zero => exact .refl s
  | succ n ih => exact (peersKept_lineRead s i l e).trans (ih _ _)

theorem peersKept_dpaRead (s : State) (i a n : Nat) (e : MemErr) : PeersKept s (s.dpaRead i a n e).1 := by
  unfold State.dpaRead
  split
  · exact .refl s
  · exact (peersKept_reelSpan s a n false).trans (peersKept_linesRead _ _ _ _ _)

end Reads

/-! ### Reads for a tenant (R434-R445) -/

section TenantReads

theorem peersKept_tableRead (s : State) (t a : Nat) (e : MemErr) : PeersKept s (s.tableRead t a e).1 := by
  unfold State.tableRead
  split
  · exact peersKept_dpaRefuse _ _ _
  · exact peersKept_dpaRead _ _ _ _ _

theorem still_leafOf (s : State) (va a n : Nat) : Still s (s.leafOf va a n).1 := by
  unfold State.leafOf
  dsimp only
  split
  · exact .refl s
  · split
    · exact .refl s
    · split
      · exact .refl s
      · split
        · exact .refl s
        · exact ⟨rfl, rfl, rfl⟩

theorem peersKept_walkFrom (s : State) (t va : Nat) (e : MemErr) (n base up : Nat) :
    PeersKept s (s.walkFrom t va e n base up).1 := by
  induction n generalizing s base up with
  | zero => exact .refl s
  | succ n ih =>
    have read := peersKept_tableRead s t (base + vaIndex va (4 - n) * 8) e
    unfold State.walkFrom
    dsimp only
    split
    · exact .refl s
    · rcases hr : s.tableRead t (base + vaIndex va (4 - n) * 8) e with ⟨s1, _ | entry⟩
      · rw [hr] at read
        exact read
      · replace read : PeersKept s s1 := by simpa only [hr] using read
        dsimp only
        split
        · exact read
        · split
          · exact read.trans (.still (still_leafOf _ _ _ _))
          · split
            · exact read
            · exact read.trans (ih _ _ _)

theorem peersKept_walk (s : State) (t va : Nat) (e : MemErr) : PeersKept s (s.walk t va e).1 := by
  unfold State.walk
  split
  · exact .refl s
  · exact ((PeersKept.refl s).bump _ (by decide) (by decide)).trans (peersKept_walkFrom _ _ _ _ _ _ _)

theorem faultStat_ne (t : Nat) : AT_FAULT_STAT t ≠ SV_STATUS ∧ AT_FAULT_STAT t ≠ GLB_FAULT_FIRST := by
  simp only [AT_FAULT_STAT, SV_STATUS, GLB_FAULT_FIRST]
  omega

theorem peersKept_atuFault (s : State) (t : Nat) (f : AtuFault) : PeersKept s (s.atuFault t f) := by
  obtain ⟨hs, hf⟩ := faultStat_ne t
  have told := (PeersKept.refl s).report (faultCode f.reason) f.iid
  unfold State.atuFault
  dsimp only
  split
  · exact (told.putB (f := AT_FAULT_STAT_OVF t) true hs hf).report _ _
  · exact told.trans (.still ⟨rfl, rfl, rfl⟩)

theorem peersKept_xlate (s : State) (i t va : Nat) (wr : Bool) (e : MemErr) : PeersKept s (s.xlate i t va wr e).1 := by
  have walked := peersKept_walk s t (va % 2 ^ 48) e
  unfold State.xlate
  dsimp only
  rcases hw : s.walk t (va % 2 ^ 48) e with ⟨s1, l | _⟩
  · replace walked : PeersKept s s1 := by simpa only [hw] using walked
    dsimp only
    generalize (if wr = true then l.wr else l.rd) = ok
    split
    · exact walked
    · exact walked.trans (peersKept_atuFault _ _ _)
  · replace walked : PeersKept s s1 := by simpa only [hw] using walked
    exact walked.trans (peersKept_atuFault _ _ _)

/-- One page of a tenant's read, once it is translated. -/
theorem peersKept_vaRead (s : State) (i t : Nat) (e : MemErr) (k va n : Nat) : PeersKept s (s.vaRead i t e k va n).1 := by
  induction k generalizing s va n with
  | zero => exact .refl s
  | succ k ih =>
    have mapped := peersKept_xlate s i t va false e
    unfold State.vaRead
    dsimp only
    split
    · exact .refl s
    · rcases hx : s.xlate i t va false e with ⟨s1, c | a⟩
      · replace mapped : PeersKept s s1 := by simpa only [hx] using mapped
        exact mapped
      · replace mapped : PeersKept s s1 := by simpa only [hx] using mapped
        dsimp only
        split
        · exact (mapped.trans (peersKept_dpaRefuse _ _ _)).trans (ih _ _ _)
        · exact (mapped.trans (peersKept_dpaRead _ _ _ _ _)).trans (ih _ _ _)

theorem peersKept_ringOwner (s : State) (i : Nat) (x : Seq) (b : Nat) : PeersKept s (s.ringOwner i x b).1 := by
  have read : PeersKept s (s.tenantRead i x.tenant ((x.ownerVa + 2 * b) % 2 ^ 48) 2 {}).1 := peersKept_vaRead _ _ _ _ _ _ _
  unfold State.ringOwner
  split
  next s1 r hr =>
    replace read : PeersKept s s1 := by simpa only [hr] using read
    split <;> exact read

theorem peersKept_foreign (s : State) (i : Nat) (x : Seq) (bs : List Nat) : PeersKept s (s.foreign i x bs).1 := by
  induction bs generalizing s with
  | nil => exact .refl s
  | cons b r ih =>
    have owner := peersKept_ringOwner s i x b
    unfold State.foreign
    rcases ho : s.ringOwner i x b with ⟨s1, f | o⟩
    · replace owner : PeersKept s s1 := by simpa only [ho] using owner
      exact owner
    · replace owner : PeersKept s s1 := by simpa only [ho] using owner
      have rest := ih s1
      dsimp only
      rcases hf : s1.foreign i x r with ⟨s2, f | fs⟩
      · replace rest : PeersKept s1 s2 := by simpa only [hf] using rest
        exact owner.trans rest
      · replace rest : PeersKept s1 s2 := by simpa only [hf] using rest
        exact owner.trans rest

end TenantReads

/-! ### Blocks of a lost device are fetched again (R410) -/

section Ring

theorem still_actNotice (s : State) (k h i b c : Nat) : Still s (s.actNotice k h i b c) := by
  unfold State.actNotice
  split <;> exact ⟨rfl, rfl, rfl⟩

theorem still_holdFiring (s : State) (h c : Nat) : Still s (s.holdFiring h c) := by
  unfold State.holdFiring
  split
  · exact .refl s
  · split
    · exact still_discard _ _ _
    · exact (still_actNotice _ _ _ _ _ _).before ⟨rfl, rfl, rfl⟩

theorem peersKept_blockGone (s : State) (q b : Nat) : PeersKept s (s.blockGone q b) := by
  refine PeersKept.foldl (.refl s) (fun u h => ?_) _
  split
  · split
    · exact ((PeersKept.refl u).report _ _).trans (.still (still_holdFiring _ _ _))
    · exact .refl u
  · exact .refl u

theorem peersKept_fetchMirror {s t : State} {q : Nat} {f : Foreign} (h : s.fetchMirror q f = some t) : PeersKept s t := by
  unfold State.fetchMirror at h
  split at h
  · cases h
    refine PeersKept.trans (.still ?_) (.link (onlyLink_svSend _ _ _))
    exact ⟨rfl, rfl, rfl⟩
  · cases h

theorem peersKept_refetch (s : State) (q b : Nat) (said : Bool) : PeersKept s (s.refetch q b said) := by
  unfold State.refetch
  split
  · exact .refl s
  · next x _ =>
    have read := peersKept_foreign s skIid x [b]
    split
    · next s1 f hf =>
      replace read : PeersKept s s1 := by simpa only [hf] using read
      split
      · next s2 fetched =>
        have asked := read.trans (peersKept_fetchMirror fetched)
        split
        · exact asked.report _ _
        · exact asked
      · exact read.trans (peersKept_blockGone _ _ _)
    · next s1 _ _ hf =>
      replace read : PeersKept s s1 := by simpa only [hf] using read
      exact read.trans (peersKept_blockGone _ _ _)

theorem still_dropBlock (s : State) (q b : Nat) : Still s (s.dropBlock q b) := by
  rw [dropBlock_sk]
  exact ⟨rfl, rfl, rfl⟩

theorem peersKept_ringLost (d q : Nat) (s : State) : PeersKept s (State.ringLost d q s) := by
  unfold State.ringLost
  split
  · exact .refl s
  · extract_lets arr ask s1 s2
    have noted : PeersKept s s1 := .still ⟨rfl, rfl, rfl⟩
    refine PeersKept.foldl (noted.foldl (fun u b => ?_) _) (fun u b => peersKept_refetch u q b false) _
    exact (PeersKept.still (still_dropBlock u q b)).trans (peersKept_refetch _ q b true)

theorem peersKept_ringLose (s : State) (d : Nat) : PeersKept s (s.ringLose d) :=
  PeersKept.foldl (.refl s) (fun u q => peersKept_ringLost d q u) _

end Ring

/-! ### What was mirrored to a lost twin, and what was on its way (R473, R589) -/

section Lost

theorem peersKept_degraded (s : State) (p : Prot) (a : Nat) : PeersKept s (s.degraded p a) := by
  have marked (u : State) (few : p.range < 16) : PeersKept u (u.putB (PL_RGN_STAT_DEGRADED p.range) true) := by
    refine (PeersKept.refl u).putB _ ?_ ?_ <;>
      simp only [PL_RGN_STAT_DEGRADED, PL_RGN_STAT, SV_STATUS, GLB_FAULT_FIRST] <;> omega
  unfold State.degraded
  extract_lets said pool s1 s2
  have noted : PeersKept s s1 := .still ⟨rfl, rfl, rfl⟩
  have known : PeersKept s s2 := by
    dsimp only [s2]
    split
    · next few => exact noted.trans (marked s1 few)
    · exact noted
  split
  · exact known
  · exact known.report _ _

theorem still_copyEnd (s : State) (c : TkCmd) : Still s (s.copyEnd c) := by
  unfold State.copyEnd
  split
  · exact still_complete _ _ _ _
  · exact ⟨rfl, rfl, rfl⟩

theorem peersKept_mirrorLose (s : State) : PeersKept s s.mirrorLose := by
  unfold State.mirrorLose
  refine PeersKept.foldl ?_ (fun u c => .still (still_copyEnd u _)) _
  refine PeersKept.trans (PeersKept.foldl (.refl s) (fun u a => ?_) _) (.still ⟨rfl, rfl, rfl⟩)
  split
  · exact peersKept_degraded _ _ _
  · exact .refl u

theorem still_setSv (s : State) (f : Sv → Sv) (h : (f s.sv).peers = s.sv.peers) : Still s (s.setSv f) := ⟨rfl, rfl, h⟩

theorem still_svForget (s : State) (d : Nat) : Still s (s.svForget d) := by
  unfold State.svForget
  extract_lets far s1 mine gone s2
  have emptied : Still s s2 := ⟨rfl, rfl, rfl⟩
  exact emptied.foldl (f := fun s h => s.svAck h.head.port h.msg.cls (svUnits h.head.len)) (fun u h => ⟨rfl, rfl, rfl⟩) gone

/-- The state in which device d has just been declared lost. -/
def State.svGone (s : State) (d : Nat) : State :=
  ((s.setSvPeer d { s.svPeer d with lost := true, staleSaid := false, owner := false }).put SV_STATUS_LIVE
    (setBits (s.get SV_STATUS_LIVE) d 1 0)).report 0xA012 24

/-- The state in which all that waited for device d, or came from it, has been given up. -/
def State.svLeft (s : State) (d : Nat) : State :=
  ((s.svForget d).holderLost fun h => h.testBit 3 && h / 16 % 8 == d).ringLose d

theorem svLose_eq {s : State} {d : Nat} (h : (s.svPeer d).lost = false) : s.svLose d =
    if s.is SV_CFG_TWIN && d == s.twinDev then
      ((((s.svGone d).svLeft d).putB PL_STATUS_TWIN false).mirrorLose).setSv fun v =>
        { v with take := none, widow := v.widow || (s.svPeer d).owner }
    else (s.svGone d).svLeft d :=
  if_neg (by simp [h])

theorem peersKept_svLeft (s : State) (d : Nat) : PeersKept s (s.svLeft d) :=
  ((PeersKept.still (still_svForget s d)).trans (PeersKept.host (hostKept_holderLost [] _ _) List.not_mem_nil)).trans
    (peersKept_ringLose _ d)

/-- What follows once a device has been declared lost leaves what is known of it. -/
theorem peersKept_svLose {s : State} {d : Nat} (h : (s.svPeer d).lost = false) : PeersKept (s.svGone d) (s.svLose d) := by
  have left := peersKept_svLeft (s.svGone d) d
  rw [svLose_eq h]
  split
  · have parted := (left.putB (f := PL_STATUS_TWIN) false (by decide) (by decide)).trans (peersKept_mirrorLose _)
    exact parted.trans (.still (still_setSv _ _ rfl))
  · exact left

end Lost

end Sys2Proof.Machine
end

section
/-! Messages of the Selvedge link act: pairing, heartbeats, time, trigger ownership, notices and detachment (O59). -/

namespace Sys2Proof.Machine

open Reg

/-! ### Arrival (R562-R566) -/

/-- The state in which a message's link number has been taken. -/
def State.taken (s : State) (m : SvHead) : State := s.modSvPort m.port fun x => { x with rxLseq := m.lseq.toNat }

/-- The state in which a message for this device alone acts: it may have woken the device (R662). -/
def State.woken (s : State) (m : SvHead) : State := (s.taken m).recordWake 7

section Arrival

variable {m : SvHead} {s : State} {msg : SvMsg} {e : MemErr}

theorem svPort_taken (s : State) (m : SvHead) : (s.taken m).svPort m.port = { s.svPort m.port with rxLseq := m.lseq.toNat } :=
  svPort_modSvPort _ _ _

theorem svLink_arrives {cls : Nat} (h : Arrives m cls s) (f : State → State) : s.svLink m cls f = f (s.taken m) := by
  obtain ⟨up, room, crc, next, -⟩ := h
  have usable : (!(s.svState m.port == 4 || s.svState m.port == 5)) = false := by
    rcases up with up | up <;> simp [up]
  rw [State.svLink, usable, if_neg Bool.false_ne_true, if_neg (by omega), crc, if_neg (by decide), if_neg (not_not.2 next)]
  rfl

theorem good_taken {cls : Nat} (h : Arrives m cls s) : ((s.taken m).svPort m.port).bad = false := by
  obtain ⟨-, -, -, -, good⟩ := h
  rw [svPort_taken]
  exact good

/-- A broadcast goes on in its direction, and acts. -/
theorem svRx_bcast (h : Arrives m msg.cls s) (all : m.bcast = true) :
    s.svRx m msg e = ((s.taken m).svSpread m msg).svTake ⟨m, msg⟩ e := by
  unfold State.svRx
  rw [svLink_arrives h]
  dsimp only
  rw [good_taken h, Bool.false_and, if_neg Bool.false_ne_true, all, if_pos rfl, State.svOrdered]
  simp only [all, Bool.true_or, if_true]

/-- A message for this device alone comes to the end-to-end order. -/
theorem svRx_ours (h : Arrives m msg.cls s) (ours : ForUs m s) : s.svRx m msg e = (s.woken m).svOrdered ⟨m, msg⟩ e := by
  obtain ⟨single, dst⟩ := ours
  unfold State.svRx
  rw [svLink_arrives h]
  dsimp only
  rw [good_taken h, Bool.false_and, if_neg Bool.false_ne_true, single, if_neg Bool.false_ne_true,
    if_pos (show m.dst.val = (s.taken m).svDev from dst)]
  rfl

/-- One that is not kept for its end-to-end order acts at once. -/
theorem svRx_loose (h : Arrives m msg.cls s) (ours : ForUs m s) (loose : msg.loose = true) :
    s.svRx m msg e = (s.woken m).svTake ⟨m, msg⟩ e := by
  rw [svRx_ours h ours, State.svOrdered]
  simp only [loose, Bool.or_true, if_true]

/-- A message of class 0 acts, and its units are given back. -/
theorem svTake_acts {u v : State} (hc : msg.cls = 0) (hd : u.svDeliver m msg e = (v, true)) :
    u.svTake ⟨m, msg⟩ e = v.svAck m.port 0 (svUnits m.len) := by
  rw [State.svTake, State.svRing, if_neg (by simp [hc]), hd]
  simp only [hc]

theorem onlyLink_svSpread (u : State) (m : SvHead) (msg : SvMsg) : OnlyLink u (u.svSpread m msg) := by
  unfold State.svSpread State.svForward
  split
  · exact onlyLink_svQueue u (by omega) _
  · exact .refl u

/-! What an acknowledgement leaves: all but what has left the device. -/

section Ack

variable (u : State) (p cls units : Nat)

theorem reg_svAck (o : Nat) : (u.svAck p cls units).reg o = u.reg o := rfl

theorem get_svAck (f : Fld) : (u.svAck p cls units).get f = u.get f := rfl

theorem pair_svAck (o : Nat) : (u.svAck p cls units).pair o = u.pair o := rfl

theorem sv_svAck : (u.svAck p cls units).sv = u.sv := rfl

theorem svPeer_svAck (d : Nat) : (u.svAck p cls units).svPeer d = u.svPeer d := rfl

theorem svPort_svAck (q : Nat) : (u.svAck p cls units).svPort q = u.svPort q := rfl

theorem outbox_svAck : (u.svAck p cls units).outbox = .svCredit p (u.svPort p).rxLseq false cls units :: u.outbox := rfl

end Ack

/-! What the wake reason leaves. -/

theorem onlyPower_woken (s : State) (m : SvHead) : OnlyPower (s.taken m) (s.woken m) := onlyPower_recordWake _ _

theorem reg_woken (s : State) (m : SvHead) {o : Nat} (h : o < 0xF00000) : (s.woken m).reg o = s.reg o := reg_recordWake _ 7 h

theorem sv_woken (s : State) (m : SvHead) : (s.woken m).sv = (s.taken m).sv := (congrArg State.sv (onlyPower_woken s m) :)

theorem hg_woken (s : State) (m : SvHead) : (s.woken m).hg = s.hg := (onlyPower_woken s m).hg

theorem outbox_woken (s : State) (m : SvHead) : (s.woken m).outbox = s.outbox := (congrArg State.outbox (onlyPower_woken s m) :)

theorem now_woken (s : State) (m : SvHead) : (s.woken m).now = s.now := by rw [State.now, hg_woken, State.now]

theorem svPort_woken (s : State) (m : SvHead) :
    (s.woken m).svPort m.port = { s.svPort m.port with rxLseq := m.lseq.toNat } := by
  rw [State.svPort, sv_woken]
  exact svPort_taken s m

theorem svPeer_woken (s : State) (m : SvHead) (d : Nat) : (s.woken m).svPeer d = s.svPeer d := by
  rw [State.svPeer, sv_woken]
  rfl

end Arrival

/-! ### What an answer shows -/

section Answered

variable (t : State) (l : List Instr) (b : Boot)

theorem sv_answered : State.sv { t with pending := l, boot := b } = t.sv := rfl

theorem pair_answered (o : Nat) : State.pair { t with pending := l, boot := b } o = t.pair o := rfl

theorem outbox_answered : State.outbox { t with pending := l, boot := b } = t.outbox := rfl

end Answered

/-! ### BAD_MSG, and a CRC that fails (R563, R565) -/

theorem badMsg_counts {m : SvHead} {b : Byte} {s : State} (h : Arrives m 0 s) : Completes (.badMsg m b) s fun t =>
    t.get (SV_PORT_ERR_BAD_MSG m.port) = min (s.get (SV_PORT_ERR_BAD_MSG m.port) + 1) (2 ^ (SV_PORT_ERR_BAD_MSG m.port).w - 1) ∧
    (t.svPort m.port).rxLseq = m.lseq.toNat ∧ t.outbox = .svCredit m.port m.lseq.toNat false 0 (svUnits m.len) :: s.outbox ∧
    RegsKept [SV_PORT_ERR m.port] s t := by
  have port : (((s.taken m).bump (SV_PORT_ERR_BAD_MSG m.port)).svPort m.port).rxLseq = m.lseq.toNat :=
    congrArg SvPort.rxLseq (svPort_taken s m)
  refine done_completes (congrArg s.done (svLink_arrives h _)) ⟨?_, port, ?_, fun o out => ?_⟩
  · exact get_bump (s.taken m) _ 1 (Nat.le_of_ble_eq_true rfl)
  · rw [outbox_answered, outbox_svAck, port]
    rfl
  · exact reg_bump_ne (s.taken m) 1 fun e => out (List.mem_singleton.2 e.symm)

theorem heartbeat_crc {m : SvHead} {s : State} (up : s.svState m.port = 4) (room : s.svHeldUnits m.port 0 + svUnits m.len ≤ svCap 0)
    (crc : m.crcOk = false) (seq : Word) (live : Byte) (o : Bool) (e pe tu : BitVec 64) (ru : Bool) :
    Completes (.heartbeat m seq live o e pe tu ru) s fun t => t.sv = s.sv ∧ RegsKept [SV_PORT_ERR m.port] s t ∧
      t.outbox = .svCredit m.port (s.svPort m.port).rxLseq true 0 0 :: s.outbox := by
  have nak (f : State → State) : s.svLink m 0 f =
      (s.bump (SV_PORT_ERR_CRC m.port)).emit (.svCredit m.port (s.svPort m.port).rxLseq true 0 0) := by
    rw [State.svLink, up, if_neg (by decide), if_neg (by omega), crc, if_pos (by decide)]
  refine done_completes (congrArg s.done (nak _)) ⟨rfl, fun o out => ?_, rfl⟩
  exact reg_bump_ne s 1 fun e => out (List.mem_singleton.2 e.symm)

/-! ### HELLO (R570, R573) -/

theorem svPeer_setSvPeer (s : State) (d k : Nat) (x : SvPeer) : (s.setSvPeer d x).svPeer k = if d = k then x else s.svPeer k :=
  spGet_spPut _ _ _ _

section Hello

/-- The registers that a HELLO of this device, and what it brings about, may change beside the ports' counts. -/
def helloOffs : List Nat := SV_STATUS :: sentOffs

theorem hostKept_link {s t : State} (h : OnlyLink s t) : HostKept helloOffs s t := h.host.mono (List.subset_cons_self _ _)

theorem hostKept_svHello (s : State) {p : Nat} (hp : p < 2) : HostKept helloOffs s (s.svHello p) := by
  have put : HostKept helloOffs s (s.put SV_STATUS_STATE 1) :=
    (HostKept.refl _ s).put 1 (.inl List.mem_cons_self) (by decide)
  unfold State.svHello
  split
  · split
    · exact put.trans (hostKept_link (onlyLink_svBcast _ hp _))
    · exact hostKept_link (onlyLink_svBcast _ hp _)
  · exact .refl _ s

theorem hostKept_twinPaired (s : State) : HostKept helloOffs s s.twinPaired := by
  unfold State.twinPaired
  extract_lets lead pool s0 s1
  have cleared : HostKept helloOffs s s0 := .still ⟨rfl, rfl, rfl⟩
  have twin := cleared.putB (f := PL_STATUS_TWIN) true (.inr (by decide)) (by decide)
  have owner := twin.putB (f := SV_STATUS_OWNER) lead (.inl List.mem_cons_self) (by decide)
  have pins : HostKept helloOffs s s1 := owner.setReg (o := HG_TRIG_OE) _ (.inr (by decide)) (by decide)
  exact pins.trans (.still (still_setSv _ _ rfl))

theorem hostKept_svPaired (s : State) : HostKept helloOffs s s.svPaired := by
  have put : HostKept helloOffs s (s.put SV_STATUS_STATE 2) :=
    (HostKept.refl _ s).put 2 (.inl List.mem_cons_self) (by decide)
  unfold State.svPaired
  dsimp only
  split
  · split
    · exact put.trans (hostKept_twinPaired _)
    · exact put
  · exact .refl _ s

variable {m : SvHead} {s : State} {d : Fin 8} {n : BitVec 4} {twin role : Bool} {st : Byte}

theorem hostKept_svNext (u : State) (m : SvHead) (d : Nat) : HostKept [SV_PORT_STAT m.port] u (u.svNext m d) := by
  have low : GLB_FAULT_FIRST < SV_PORT_STAT m.port := by
    simp only [GLB_FAULT_FIRST, SV_PORT_STAT]
    omega
  have noted (b : Bool) : HostKept [SV_PORT_STAT m.port] u
      ((u.put (SV_PORT_STAT_NEIGHBOUR m.port) d).modSvPort m.port fun x => { x with bad := b }) :=
    ((HostKept.refl _ u).put (f := SV_PORT_STAT_NEIGHBOUR m.port) d (.inl (List.mem_singleton_self _)) low).trans (.still ⟨rfl, rfl, rfl⟩)
  unfold State.svNext
  dsimp only
  split
  · exact .refl _ u
  · split
    · exact (noted _).report _ _
    · exact noted _

theorem neighbour_svNext (u : State) (m : SvHead) (d : Fin 8) (h : m.hops = 0) :
    (u.svNext m d).get (SV_PORT_STAT_NEIGHBOUR m.port) = d := by
  have put : (u.put (SV_PORT_STAT_NEIGHBOUR m.port) d).get (SV_PORT_STAT_NEIGHBOUR m.port) = d :=
    (get_put u (SV_PORT_STAT_NEIGHBOUR m.port) d (Nat.le_of_ble_eq_true rfl)).trans (Nat.mod_eq_of_lt d.isLt)
  have high : GLB_FAULT_COUNT < (SV_PORT_STAT_NEIGHBOUR m.port).off := by
    simp only [GLB_FAULT_COUNT, SV_PORT_STAT_NEIGHBOUR, SV_PORT_STAT]
    omega
  unfold State.svNext
  dsimp only
  rw [if_neg (by simp [h])]
  split
  · exact (get_congr (reg_report high _ _ _)).trans put
  · exact put

/-- A HELLO fits: it is of another member that agrees on the members, the twin, the role and the stepping. -/
structure Fits (d : Fin 8) (n : BitVec 4) (twin role : Bool) (st : Byte) (s : State) : Prop where
  fresh : (s.svPeer d).hello = none
  other : d.val ≠ s.svDev
  members : n.toNat = s.svMembers
  paired : twin = s.is SV_CFG_TWIN
  stepping : st.toNat = Config.stepping
  opposite : twin = true → role ≠ s.is SV_CFG_ROLE

/-- What SV_CFG says is the same. -/
theorem Fits.of_kept {l : List Nat} {u : State} (h : Fits d n twin role st s) (k : HostKept l s u) (out : SV_CFG ∉ l) :
    Fits d n twin role st u := by
  have cfg := k.regs SV_CFG out (by decide)
  have dev : u.svDev = s.svDev := get_congr (f := SV_CFG_DEV_ID) cfg
  have members : u.svMembers = s.svMembers := congrArg (max 1) (get_congr (f := SV_CFG_MEMBERS) cfg)
  have twins : u.is SV_CFG_TWIN = s.is SV_CFG_TWIN := is_congr cfg
  have roles : u.is SV_CFG_ROLE = s.is SV_CFG_ROLE := is_congr cfg
  refine ⟨?_, by rw [dev]; exact h.other, h.members.trans members.symm, h.paired.trans twins.symm, h.stepping, fun t => ?_⟩
  · rw [State.svPeer, k.peers]
    exact h.fresh
  · rw [roles]
    exact h.opposite t

theorem place_congr {u v : State} (h : v.reg SV_CFG = u.reg SV_CFG) (m : SvHead) : v.svPlace m = u.svPlace m := by
  have dev : v.svDev = u.svDev := get_congr (f := SV_CFG_DEV_ID) h
  have members : v.svMembers = u.svMembers := congrArg (max 1) (get_congr (f := SV_CFG_MEMBERS) h)
  rw [State.svPlace, State.svPlace, dev, members]

/-- The peer as a HELLO that fits leaves it. -/
def helloPeer (n : BitVec 4) (twin role : Bool) (st : Byte) (place now : Nat) : SvPeer :=
  { hello := some (n.toNat, twin, role, st.toNat, place), hbAt := some now }

/-- The state in which a HELLO that fits is recorded. -/
def State.greeted (u : State) (m : SvHead) (d : Fin 8) (n : BitVec 4) (twin role : Bool) (st : Byte) : State :=
  (u.svNext m d).setSvPeer d (helloPeer n twin role st ((u.svNext m d).svPlace m) u.hg.dt)

theorem svHelloIn_fits {u : State} (h : Fits d n twin role st (u.svNext m d)) :
    u.svHelloIn m d n.toNat twin role st.toNat = (if ((u.svNext m d).svPeer d).lost then
      (u.greeted m d n twin role st).svHello m.port else u.greeted m d n twin role st).svPaired := by
  obtain ⟨fresh, other, members, twins, stepping, roles⟩ := h
  unfold State.svHelloIn
  dsimp only
  rw [if_neg]
  · rfl
  · rw [fresh]
    have apart : (twin && role == (u.svNext m d).is SV_CFG_ROLE) = false := by
      cases twin with
      | false => rfl
      | true => simpa using roles rfl
    simp [other, members, ← twins, stepping, apart]

/-- Once a HELLO is recorded, what it brings about leaves what is known and the port's status. -/
theorem hostKept_svHelloIn {u : State} (h : Fits d n twin role st (u.svNext m d)) :
    HostKept helloOffs (u.greeted m d n twin role st) (u.svHelloIn m d n.toNat twin role st.toNat) := by
  rw [svHelloIn_fits h]
  refine HostKept.trans ?_ (hostKept_svPaired _)
  split
  · exact hostKept_svHello _ m.port.isLt
  · exact .refl _ _

theorem stat_helloOffs (p : Fin 2) : SV_PORT_STAT p ∉ helloOffs ∧ 0xC00000 ≤ SV_PORT_STAT p ∧ SV_CFG ∉ [SV_PORT_STAT p] := by
  decide +revert

theorem hello_recorded (h : Arrives m 0 s) (all : m.bcast = true) (fits : Fits d n twin role st s) :
    Completes (.hello m d n twin role st) s fun t =>
      (t.svPeer d).hello = some (n.toNat, twin, role, st.toNat, s.svPlace m) ∧ (t.svPeer d).lost = false ∧
      (m.hops = 0 → t.get (SV_PORT_STAT_NEIGHBOUR m.port) = d) := by
  obtain ⟨statOut, statLow, cfgOut⟩ := stat_helloOffs m.port
  have spread := onlyLink_svSpread (s.taken m) m (.hello d n.toNat twin role st.toNat)
  generalize hu : (s.taken m).svSpread m (.hello d n.toNat twin role st.toNat) = u at spread
  have next := hostKept_svNext u m d
  have arrived : Fits d n twin role st (u.svNext m d) :=
    (Fits.of_kept (s := s.taken m) ⟨fits.1, fits.2, fits.3, fits.4, fits.5, fits.6⟩ spread.host (by decide)).of_kept next cfgOut
  have after := hostKept_svHelloIn (m := m) arrived
  have rx : s.svRx m (.hello d n.toNat twin role st.toNat) =
      (u.svHelloIn m d n.toNat twin role st.toNat).svAck m.port 0 (svUnits m.len) := by
    rw [svRx_bcast h all, hu]
    exact svTake_acts rfl rfl
  have peer : (u.svHelloIn m d n.toNat twin role st.toNat).svPeer d =
      helloPeer n twin role st ((u.svNext m d).svPlace m) u.hg.dt := by
    rw [State.svPeer, after.peers]
    exact (svPeer_setSvPeer _ _ _ _).trans (if_pos rfl)
  have place : (u.svNext m d).svPlace m = s.svPlace m :=
    (place_congr (next.regs SV_CFG cfgOut (by decide)) m).trans (place_congr (spread.reg (by decide) (by decide)) m)
  refine done_completes (congrArg s.done rx) ?_
  simp only [svPeer_answered, get_answered, svPeer_svAck, get_svAck]
  rw [peer, place]
  refine ⟨rfl, rfl, fun near => ?_⟩
  exact (after.get statOut statLow).trans (neighbour_svNext u m d near)

/-- A HELLO that does not fit is reported (R570). -/
theorem svHelloIn_unfit {u : State} (h : d.val = u.svDev ∨ n.toNat ≠ u.svMembers ∨ twin ≠ u.is SV_CFG_TWIN ∨
    st.toNat ≠ Config.stepping) : u.svHelloIn m d n.toNat twin role st.toNat = (u.svNext m d).report 0xA010 (svIid m.port) := by
  have cfg := (hostKept_svNext u m d).regs SV_CFG (stat_helloOffs m.port).2.2 (by decide)
  rw [← show (u.svNext m d).svDev = u.svDev from get_congr (f := SV_CFG_DEV_ID) cfg,
    ← show (u.svNext m d).svMembers = u.svMembers from congrArg (max 1) (get_congr (f := SV_CFG_MEMBERS) cfg),
    ← show (u.svNext m d).is SV_CFG_TWIN = u.is SV_CFG_TWIN from is_congr cfg] at h
  unfold State.svHelloIn
  dsimp only
  generalize u.svNext m d = v at h ⊢
  rw [if_pos]
  rcases h with h | h | h | h <;> simp [h]

theorem hello_refused (h : Arrives m 0 s) (all : m.bcast = true)
    (unfit : d.val = s.svDev ∨ n.toNat ≠ s.svMembers ∨ twin ≠ s.is SV_CFG_TWIN ∨ st.toNat ≠ Config.stepping) :
    Completes (.hello m d n twin role st) s fun t =>
      t.reg GLB_FAULT_LAST = BitVec.ofNat 32 (0xA010 + (24 + m.port.val) * 0x10000) ∧ t.svPeer d = s.svPeer d := by
  have spread := onlyLink_svSpread (s.taken m) m (.hello d n.toNat twin role st.toNat)
  generalize hu : (s.taken m).svSpread m (.hello d n.toNat twin role st.toNat) = u at spread
  have cfg : u.reg SV_CFG = s.reg SV_CFG := spread.reg (by decide) (by decide)
  rw [← show u.svDev = s.svDev from get_congr (f := SV_CFG_DEV_ID) cfg,
    ← show u.svMembers = s.svMembers from congrArg (max 1) (get_congr (f := SV_CFG_MEMBERS) cfg),
    ← show u.is SV_CFG_TWIN = s.is SV_CFG_TWIN from is_congr cfg] at unfit
  have rx : s.svRx m (.hello d n.toNat twin role st.toNat) =
      ((u.svNext m d).report 0xA010 (svIid m.port)).svAck m.port 0 (svUnits m.len) := by
    rw [svRx_bcast h all, hu]
    exact svTake_acts rfl (congrArg (·, true) (svHelloIn_unfit unfit))
  refine done_completes (congrArg s.done rx) ?_
  simp only [svPeer_answered, reg_answered, svPeer_svAck, reg_svAck]
  refine ⟨(report_last _ _ _).trans (faultWord_port _ _), ?_⟩
  rw [State.svPeer, report_sv, (hostKept_svNext u m d).peers]
  exact spread.peer d

end Hello

end Sys2Proof.Machine
end

section
/-! Heartbeats, time, trigger ownership, notices and detachment (O59). -/

namespace Sys2Proof.Machine

open Reg

/-! ### Heartbeats (R572, R573) -/

theorem testBit_mod_lane {v : Nat} (d : Fin 8) : (v % 2 ^ 8).testBit d = v.testBit d := by
  rw [Nat.testBit_mod_two_pow, decide_eq_true d.isLt, Bool.true_and]

/-- A bit of SV_STATUS.LIVE after it has been written. -/
theorem live_put (u : State) (d : Fin 8) (v : Nat) : ((u.put SV_STATUS_LIVE v).get SV_STATUS_LIVE).testBit d = v.testBit d := by
  rw [get_put u SV_STATUS_LIVE v (by decide)]
  exact testBit_mod_lane d

section Heartbeat

variable {m : SvHead} {seq : Word} {live : Byte} {o ru : Bool} {e pe tu : BitVec 64} {s : State}

/-- What is known of a device that has sent a HEARTBEAT. -/
def beatPeer (x : SvPeer) (now : Nat) (o : Bool) (e pe tu : BitVec 64) (ru : Bool) : SvPeer :=
  { x with hbAt := some now, owner := o, epoch := e.toNat, per := pe.toNat, turn := tu.toNat, run := ru }

/-- A HEARTBEAT acts where the messages before it have been passed on. -/
theorem heartbeat_done (h : Arrives m 0 s) (all : m.bcast = true) : ∃ u, OnlyLink (s.taken m) u ∧
    exec (.heartbeat m seq live o e pe tu ru) s =
      s.done ((u.hbIn m.src live.toNat o e.toNat pe.toNat tu.toNat ru).svAck m.port 0 (svUnits m.len)) := by
  refine ⟨_, onlyLink_svSpread (s.taken m) m (.heartbeat seq.toNat live.toNat o e.toNat pe.toNat tu.toNat ru), congrArg s.done ?_⟩
  rw [svRx_bcast h all]
  exact svTake_acts rfl rfl

theorem hbIn_live {u : State} (other : m.src.val ≠ u.svDev) (here : (u.svPeer m.src).lost = false) :
    u.hbIn m.src live.toNat o e.toNat pe.toNat tu.toNat ru =
      (u.setSvPeer m.src (beatPeer (u.svPeer m.src) u.hg.dt o e pe tu ru)).put SV_STATUS_LIVE
        (setBits (u.get SV_STATUS_LIVE) m.src 1 1) := by
  unfold State.hbIn
  dsimp only
  rw [if_neg other, if_neg (by simp [here])]
  rfl

theorem hbIn_lost {u : State} (other : m.src.val ≠ u.svDev) (gone : (u.svPeer m.src).lost = true)
    (fresh : (u.svPeer m.src).staleSaid = false) : u.hbIn m.src live.toNat o e.toNat pe.toNat tu.toNat ru =
      (u.setSvPeer m.src { u.svPeer m.src with staleSaid := true }).report 0xA013 24 := by
  unfold State.hbIn
  dsimp only
  rw [if_neg other, if_pos gone, if_neg (by simp [fresh])]

theorem dev_link {u : State} (h : OnlyLink (s.taken m) u) : u.svDev = s.svDev := h.get (f := SV_CFG_DEV_ID) (by decide) (by decide)

theorem heartbeat_live (h : Arrives m 0 s) (all : m.bcast = true) (other : m.src.val ≠ s.svDev)
    (here : (s.svPeer m.src).lost = false) : Completes (.heartbeat m seq live o e pe tu ru) s fun t =>
      t.svPeer m.src = { s.svPeer m.src with
        hbAt := some s.hg.dt, owner := o, epoch := e.toNat, per := pe.toNat, turn := tu.toNat, run := ru } ∧
      (t.get SV_STATUS_LIVE).testBit m.src = true := by
  obtain ⟨u, link, done⟩ := heartbeat_done (seq := seq) (live := live) (o := o) (e := e) (pe := pe) (tu := tu) (ru := ru) h all
  have peer : u.svPeer m.src = s.svPeer m.src := link.peer m.src
  have dt : u.hg.dt = s.hg.dt := congrArg Hg.dt link.hg
  rw [hbIn_live (by rwa [dev_link link]) (by rwa [peer])] at done
  refine done_completes done ?_
  simp only [svPeer_answered, get_answered, svPeer_svAck, get_svAck]
  constructor
  · refine (svPeer_setSvPeer u m.src m.src _).trans ?_
    rw [if_pos rfl, peer, dt]
    rfl
  · rw [live_put]
    exact testBit_setBits_one _ _

theorem heartbeat_lost (h : Arrives m 0 s) (all : m.bcast = true) (other : m.src.val ≠ s.svDev)
    (gone : (s.svPeer m.src).lost = true) (fresh : (s.svPeer m.src).staleSaid = false) :
    Completes (.heartbeat m seq live o e pe tu ru) s fun t =>
      t.reg GLB_FAULT_LAST = 0x18A013 ∧ t.svPeer m.src = { s.svPeer m.src with staleSaid := true } := by
  obtain ⟨u, link, done⟩ := heartbeat_done (seq := seq) (live := live) (o := o) (e := e) (pe := pe) (tu := tu) (ru := ru) h all
  have peer : u.svPeer m.src = s.svPeer m.src := link.peer m.src
  rw [hbIn_lost (by rwa [dev_link link]) (by rwa [peer]) (by rwa [peer])] at done
  refine done_completes done ?_
  simp only [svPeer_answered, reg_answered, svPeer_svAck, reg_svAck]
  refine ⟨report_last _ _ _, ?_⟩
  rw [State.svPeer, report_sv]
  refine (svPeer_setSvPeer u m.src m.src _).trans ?_
  rw [if_pos rfl, peer]

end Heartbeat

/-! ### HEARTBEAT_SEND and HEARTBEAT_LOSS (R572, R585) -/

theorem heartbeatSend_counts {s : State} (en : s.is SV_CTL_EN = true) (many : s.svMembers ≠ 1) : Completes .heartbeatSend s fun t =>
    t.sv.hbSeq = (s.sv.hbSeq + 1) % 2 ^ 32 ∧ t.sv.hbAt = t.hg.dt := by
  let s1 := s.advanceTo (s.sv.hbAt + s.get SV_HB_CFG_PER * 256000)
  let s2 := s1.setSv fun v => { v with hbSeq := (v.hbSeq + 1) % 2 ^ 32, hbAt := s1.hg.dt }
  have sent : OnlyLink s2 s.hbSend := by
    have each (u : State) {p : Nat} (hp : p < 2) (msg : SvMsg) : OnlyLink u (if u.svUsable p then u.svBcast p msg else u) := by
      split
      · exact onlyLink_svBcast u hp msg
      · exact .refl u
    have both (msg : SvMsg) : OnlyLink s2 ([0, 1].foldl (fun u p => if u.svUsable p then u.svBcast p msg else u) s2) :=
      (each s2 (p := 0) (by decide) msg).trans (each _ (p := 1) (by decide) msg)
    unfold State.hbSend
    rw [if_neg (by simp [en, many])]
    dsimp only
    exact both _
  have sv : s1.sv = s.sv := by
    dsimp only [s1]
    rw [onlyHg_advanceTo]
  refine done_completes (t := s.hbSend) rfl ?_
  dsimp only
  constructor
  · rw [sent.hbSeq]
    exact congrArg (fun v : Sv => (v.hbSeq + 1) % 2 ^ 32) sv
  · rw [sent.hbAt, sent.hg]
    rfl

section Loss

variable {s : State} {d : Fin 8}

theorem svPeer_svGone (s : State) (d : Nat) :
    (s.svGone d).svPeer d = { s.svPeer d with lost := true, staleSaid := false, owner := false } := by
  rw [State.svPeer, State.svGone, report_sv]
  exact (svPeer_setSvPeer s d d _).trans (if_pos rfl)

theorem live_svGone (s : State) (d : Fin 8) : ((s.svGone d).get SV_STATUS_LIVE).testBit d = false := by
  rw [State.svGone, get_congr (reg_report (by decide) _ _ _), live_put]
  exact testBit_setBits_zero _ _

theorem first_svGone (h : s.reg GLB_FAULT_FIRST = 0) : (s.svGone d).reg GLB_FAULT_FIRST = 0x18A012 := by
  have before : (State.put (s.setSvPeer d { s.svPeer d with lost := true, staleSaid := false, owner := false }) SV_STATUS_LIVE
      (setBits (s.get SV_STATUS_LIVE) d 1 0)).reg GLB_FAULT_FIRST = 0 := (reg_put_ne _ _ (by decide)).trans h
  rw [State.svGone, report_first, if_pos before]
  rfl

/-- A device that was not lost is, once it has been declared so; its fault stands where none did. -/
theorem svLose_loses (h : (s.svPeer d).lost = false) : ((s.svLose d).svPeer d).lost = true ∧
    ((s.svLose d).get SV_STATUS_LIVE).testBit d = false ∧
    (s.reg GLB_FAULT_FIRST = 0 → (s.svLose d).reg GLB_FAULT_FIRST = 0x18A012) := by
  have kept := peersKept_svLose h
  refine ⟨?_, ?_, fun none => ?_⟩
  · rw [kept.peer, svPeer_svGone]
  · rw [get_congr kept.status]
    exact live_svGone s d
  · have stands := first_svGone (d := d) none
    exact (kept.first (by rw [stands]; decide)).trans stands

theorem svPeer_advanceTo (s : State) (t d : Nat) : (s.advanceTo t).svPeer d = s.svPeer d := by
  rw [onlyHg_advanceTo]
  rfl

/-- The instant at which a device whose last HEARTBEAT came at `at_` is lost. -/
def State.beatEnd (s : State) (at_ : Nat) : Nat := at_ + s.get SV_HB_CFG_PER * s.get SV_HB_CFG_MISS * 256000

theorem hbLost_due {at_ : Nat} (last : (s.svPeer d).hbAt = some at_) (here : (s.svPeer d).lost = false) (other : d.val ≠ s.svDev) :
    s.hbLost d = (s.advanceTo (s.beatEnd at_)).svLose d := by
  unfold State.hbLost
  dsimp only
  rw [last]
  exact if_neg (by simp [here, other])

theorem heartbeatLoss_loses {at_ : Nat} (last : (s.svPeer d).hbAt = some at_) (here : (s.svPeer d).lost = false)
    (other : d.val ≠ s.svDev) : Completes (.heartbeatLoss d) s fun t => (t.svPeer d).lost = true ∧
      (t.get SV_STATUS_LIVE).testBit d = false ∧
      (at_ + s.get SV_HB_CFG_PER * s.get SV_HB_CFG_MISS * 256000 ≤ s.hg.dt → s.reg GLB_FAULT_FIRST = 0 →
        t.reg GLB_FAULT_FIRST = 0x18A012) := by
  refine done_completes (congrArg s.done (hbLost_due last here other)) ?_
  simp only [svPeer_answered, get_answered, reg_answered]
  obtain ⟨lost, live, first⟩ := svLose_loses (s := s.advanceTo (s.beatEnd at_)) (d := d) (by rwa [svPeer_advanceTo])
  exact ⟨lost, live, fun _ none => first ((reg_advanceTo _ _ _).trans none)⟩

end Loss

/-! ### TIME_EXCHANGE_SEND and TIME (R567) -/

section Time

variable {m : SvHead} {s : State} {t1 t2 t3 : Nat}

theorem timeExchangeSend_restarts {p : Fin 2} (up : s.svState p = 4) : Completes (.timeExchangeSend p) s fun t =>
    (t.svPort p).timeAt = t.hg.dt := by
  let s1 := s.advanceTo ((s.svPort p).timeAt + 125000000 * 256)
  have goes : s.timeSend p = (s1.modSvPort p fun x => { x with timeAt := s1.hg.dt }).svNeighbour p (.time false 0 0 0) :=
    if_neg (by simp [up])
  have sent := onlyLink_svNeighbour (s1.modSvPort p fun x => { x with timeAt := s1.hg.dt }) p.isLt (.time false 0 0 0)
  refine done_completes (congrArg s.done goes) ?_
  simp only [svPort_answered]
  rw [(sent.ports p).timeAt, svPort_modSvPort, sent.hg]
  rfl

theorem timeExchangeSend_idle {p : Fin 2} (h : s.svState p ≠ 4) : exec (.timeExchangeSend p) s = .next s :=
  (congrArg s.done (if_pos h)).trans (done_self s)

/-- Offset and delay of an answer. -/
def timeDelay (now t1 t2 t3 : Nat) : Int := (((now : Int) - t1) - ((t3 : Int) - t2)) / 2

def timeOfs (now t1 t2 t3 : Nat) : Int := (((t2 : Int) - t1) - ((now : Int) - t3)) / 2

/-- The registers and the port as an answer leaves them, before a jump is reported. -/
def State.timed (u : State) (p t1 t2 t3 : Nat) : State :=
  ((u.setPair (SV_PEER_OFS_LO p) (unsign 64 (timeOfs u.now t1 t2 t3))).setReg (SV_PEER_DELAY p)
    (BitVec.ofNat 32 (unsign 32 (timeDelay u.now t1 t2 t3)))).modSvPort p fun x => { x with ofs := some (timeOfs u.now t1 t2 t3) }

theorem timeIn_answer (u : State) (p : Nat) : ∃ b, u.timeIn p true t1 t2 t3 = (u.timed p t1 t2 t3).reportIf b 0xA022 (svIid p) := by
  unfold State.timeIn
  dsimp only
  rw [if_neg (by decide)]
  split
  · next o _ => exact ⟨decide (100 < (timeOfs u.now t1 t2 t3 - o).natAbs), by simp only [State.reportIf, decide_eq_true_eq]; rfl⟩
  · exact ⟨false, rfl⟩

theorem unsign_lt (x : Int) : unsign 64 x < 2 ^ 64 := by
  unfold unsign
  have := Int.emod_lt_of_pos x (b := 2 ^ 64) (by decide)
  have := Int.emod_nonneg x (b := 2 ^ 64) (by decide)
  omega

/-- Where an answer's offset and delay stand. -/
theorem timed_regs (u : State) (p : Fin 2) : (u.timed p t1 t2 t3).pair (SV_PEER_OFS_LO p) = unsign 64 (timeOfs u.now t1 t2 t3) ∧
    (u.timed p t1 t2 t3).reg (SV_PEER_DELAY p) = BitVec.ofNat 32 (unsign 32 (timeDelay u.now t1 t2 t3)) ∧
    ((u.timed p t1 t2 t3).svPort p).ofs = some (timeOfs u.now t1 t2 t3) := by
  have apart : SV_PEER_DELAY p ≠ SV_PEER_OFS_LO p ∧ SV_PEER_DELAY p ≠ SV_PEER_OFS_LO p + 4 := by
    simp only [SV_PEER_DELAY, SV_PEER_OFS_LO]
    omega
  refine ⟨?_, reg_setReg_same _ _ _, congrArg SvPort.ofs (svPort_modSvPort _ _ _)⟩
  refine (pair_congr (reg_setReg_ne _ _ apart.1) (reg_setReg_ne _ _ apart.2)).trans ?_
  rw [pair_setPair, Nat.mod_eq_of_lt (unsign_lt _)]

theorem time_answer (h : Arrives m 0 s) (ours : ForUs m s) : Completes (.time m true t1 t2 t3) s fun t =>
    t.pair (SV_PEER_OFS_LO m.port) = unsign 64 (timeOfs s.now t1 t2 t3) ∧
    t.reg (SV_PEER_DELAY m.port) = BitVec.ofNat 32 (unsign 32 (timeDelay s.now t1 t2 t3)) ∧
    (t.svPort m.port).ofs = some (timeOfs s.now t1 t2 t3) := by
  obtain ⟨b, answer⟩ := timeIn_answer (t1 := t1) (t2 := t2) (t3 := t3) (s.woken m) m.port
  have rx : s.svRx m (.time true t1 t2 t3) =
      (((s.woken m).timed m.port t1 t2 t3).reportIf b 0xA022 (svIid m.port)).svAck m.port 0 (svUnits m.len) := by
    rw [svRx_loose h ours rfl]
    exact svTake_acts rfl (congrArg (·, true) answer)
  refine done_completes (congrArg s.done rx) ?_
  simp only [pair_answered, reg_answered, svPort_answered, pair_svAck, reg_svAck, svPort_svAck]
  obtain ⟨pair, delay, ofs⟩ := timed_regs (t1 := t1) (t2 := t2) (t3 := t3) (s.woken m) m.port
  rw [now_woken] at pair delay ofs
  have high : 0x100000 ≤ SV_PEER_OFS_LO m.port ∧ GLB_FAULT_COUNT < SV_PEER_DELAY m.port := by
    simp only [SV_PEER_OFS_LO, SV_PEER_DELAY, GLB_FAULT_COUNT]
    omega
  cases b with
  | false => exact ⟨pair, delay, ofs⟩
  | true =>
    refine ⟨(pair_report high.1 _ _ _).trans pair, (reg_report high.2 _ _ _).trans delay, ?_⟩
    exact (congrArg SvPort.ofs (svPort_report _ _ _ _)).trans ofs

/-- A port that is UP, locked and in ring order sends what can start (R564). -/
theorem svPump_up {v : State} {p : Nat} {y : SvPort} (port : v.svPort p = y) (up : v.svState p = 4) (locked : y.locked = true)
    (good : y.bad = false) : v.svPump p =
      (svStart v.now y [] y.queue).2.foldl (fun s m => s.emit (.svMsg p m)) (v.setSvPort p (svStart v.now y [] y.queue).1) := by
  unfold State.svPump
  dsimp only
  rw [port, if_neg (by simp [up, locked, good])]

/-- A port with one message that waits. -/
def SvPort.waits (y : SvPort) (x : SvTx) : SvPort := { y with queue := [x] }

/-- With nothing that waits and a credit it sends a small message at once. -/
theorem svQueue_sends {u : State} {p : Nat} {x : SvTx} (up : u.svState p = 4) (locked : (u.svPort p).locked = true)
    (good : (u.svPort p).bad = false) (idle : (u.svPort p).queue = []) (none : (u.svPort p).unacked = [])
    (credit : svUnits x.msg.blocks ≤ (u.svPort p).credit.getD x.msg.cls 0) :
    Out.svMsg p { x with lseq := (u.svPort p).lseq, msg := x.msg.start u.now } ∈ (u.svQueue p x).outbox := by
  have queued : u.svQueue p x = (u.setSvPort p ((u.svPort p).waits x)).svPump p := by
    simp [State.svQueue, locked, idle, SvPort.waits]
  have started : (svStart u.now ((u.svPort p).waits x) [] [x]).2 =
      [{ x with lseq := (u.svPort p).lseq, msg := x.msg.start u.now }] := by
    unfold svStart
    dsimp only
    rw [if_neg (by simpa [none, SvPort.waits] using credit)]
    rfl
  have now : (u.setSvPort p ((u.svPort p).waits x)).now = u.now := rfl
  rw [queued, svPump_up (svPort_setSvPort_same u p ((u.svPort p).waits x)) up locked good, now]
  change _ ∈ ((svStart u.now ((u.svPort p).waits x) [] [x]).2.foldl (fun (s : State) m => s.emit (.svMsg p m)) _).outbox
  rw [started]
  exact List.mem_cons_self

theorem units_time (a : Bool) (t1 t2 t3 : Nat) : svUnits (SvMsg.time a t1 t2 t3).blocks = 1 := by
  simp [svUnits, SvMsg.blocks]

theorem time_request (h : Arrives m 0 s) (ours : ForUs m s) (up : s.svState m.port = 4) (locked : (s.svPort m.port).locked = true)
    (idle : (s.svPort m.port).queue = []) (none : (s.svPort m.port).unacked = []) (credit : 1 ≤ (s.svPort m.port).credit.getD 0 0) :
    Completes (.time m false t1 t2 t3) s fun t => ∃ x, .svMsg m.port.val x ∈ t.outbox ∧ x.msg = .time true t1 s.now s.now := by
  have rx : s.svRx m (.time false t1 t2 t3) =
      ((s.woken m).svNeighbour m.port (.time true t1 (s.woken m).now 0)).svAck m.port 0 (svUnits m.len) := by
    rw [svRx_loose h ours rfl]
    exact svTake_acts rfl rfl
  obtain ⟨-, -, -, -, good⟩ := h
  refine done_completes (congrArg s.done rx) ?_
  let u := ((s.woken m).svE2e (svKey (if m.port.val = 0 then ((s.woken m).svDev + 1) % (s.woken m).svMembers
    else ((s.woken m).svDev + (s.woken m).svMembers - 1) % (s.woken m).svMembers) (.time true t1 (s.woken m).now 0))).1
  have port : u.svPort m.port = { s.svPort m.port with rxLseq := m.lseq.toNat } := svPort_woken s m
  have state : u.svState m.port = 4 := by
    refine (get_congr (reg_woken s m ?_)).trans up
    simp only [SV_PORT_STAT_STATE, SV_PORT_STAT]
    omega
  have sends (x : SvTx) (answer : x.msg = .time true t1 (s.woken m).now 0) :=
    svQueue_sends (u := u) (p := m.port) (x := x) state (by rwa [port]) (by rwa [port]) (by rwa [port]) (by rwa [port])
      (by rw [port, answer, units_time]; exact credit)
  refine ⟨_, List.mem_cons_of_mem _ (sends _ rfl), ?_⟩
  exact congrArg (fun n => SvMsg.time true t1 n n) (now_woken s m)

end Time

end Sys2Proof.Machine
end

section
/-! The twin's turn of the triggers, departure, and notices in end-to-end order (O59). -/

namespace Sys2Proof.Machine

open Reg

/-! ### HANDOVER and DETACH (R574, R577) -/

section Loose

variable {m : SvHead} {turn : Word} {mask : BitVec 16} {s : State}

/-- The turn T of the twin's numbering has passed (R577). -/
def State.turnGone (s : State) (T : Nat) : Bool := s.turnsRun && decide (T < s.leadTurn s.hg.nextTurn)

theorem turnGone_woken (s : State) (m : SvHead) (T : Nat) : (s.woken m).turnGone T = s.turnGone T := by
  have active : (s.woken m).is HG_TURN_CTL_ACTIVE = s.is HG_TURN_CTL_ACTIVE := is_congr (reg_woken s m (by decide))
  have started : (s.woken m).is HG_TURN_CTL_STARTED = s.is HG_TURN_CTL_STARTED := is_congr (reg_woken s m (by decide))
  have role : (s.woken m).is SV_CFG_ROLE = s.is SV_CFG_ROLE := is_congr (reg_woken s m (by decide))
  have peer : (s.woken m).reg SV_PEER_TURN = s.reg SV_PEER_TURN := reg_woken s m (by decide)
  have lead (N : Nat) : (s.woken m).leadTurn N = s.leadTurn N := by
    rw [State.leadTurn, State.leadTurn, role, peer]
  simp only [State.turnGone, State.turnsRun, hg_woken, active, started, lead]

theorem handover_acts (h : Arrives m 0 s) (ours : ForUs m s) : exec (.handover m turn mask) s =
    s.done (((s.woken m).handoverIn m.port turn.toNat mask.toNat).svAck m.port 0 (svUnits m.len)) := by
  refine congrArg s.done ?_
  rw [svRx_loose h ours rfl]
  exact svTake_acts rfl rfl

theorem handover_waits (h : Arrives m 0 s) (ours : ForUs m s) (ahead : s.turnGone turn.toNat = false) :
    Completes (.handover m turn mask) s fun t => t.sv.take = some (turn.toNat, mask.toNat) := by
  have taken : (s.woken m).handoverIn m.port turn.toNat mask.toNat =
      (s.woken m).setSv fun v => { v with take := some (turn.toNat, mask.toNat) } :=
    if_neg (Bool.not_eq_true _ ▸ (turnGone_woken s m _).trans ahead)
  refine done_completes (handover_acts h ours) ?_
  rw [sv_answered, sv_svAck, taken]
  rfl

theorem handover_late (h : Arrives m 0 s) (ours : ForUs m s) (gone : s.turnGone turn.toNat = true) :
    Completes (.handover m turn mask) s fun t => t.sv.take = s.sv.take ∧
      t.reg GLB_FAULT_LAST = BitVec.ofNat 32 (0xA021 + (24 + m.port.val) * 0x10000) := by
  have told : (s.woken m).handoverIn m.port turn.toNat mask.toNat = (s.woken m).report 0xA021 (svIid m.port) :=
    if_pos ((turnGone_woken s m _).trans gone)
  refine done_completes (handover_acts h ours) ?_
  simp only [sv_svAck, told, report_sv, sv_woken]
  exact ⟨rfl, (report_last _ _ _).trans (faultWord_port _ _)⟩

theorem detach_loses (h : Arrives m 0 s) (ours : ForUs m s) (here : (s.svPeer m.src).lost = false) :
    Completes (.detach m) s fun t => (t.svPeer m.src).lost = true ∧ (t.get SV_STATUS_LIVE).testBit m.src = false := by
  have rx : s.svRx m .detach = ((s.woken m).svLose m.src).svAck m.port 0 (svUnits m.len) := by
    rw [svRx_loose h ours rfl]
    exact svTake_acts rfl rfl
  obtain ⟨lost, live, -⟩ := svLose_loses (s := s.woken m) (d := m.src) (by rwa [svPeer_woken])
  refine done_completes (congrArg s.done rx) ?_
  simp only [svPeer_answered, get_answered, svPeer_svAck, get_svAck]
  exact ⟨lost, live⟩

end Loose

/-! ### NOTICE (R465, R566) -/

section Notice

variable {m : SvHead} {s : State} {x g : Nat}

/-- In class 0 only notices are kept for their end-to-end order. -/
theorem ordered_notice {msg : SvMsg} (c : msg.cls = 0) (h : msg.loose = false) : ∃ x g, msg = .notice x g := by
  cases msg with
  | notice x g => exact ⟨x, g, rfl⟩
  | hello | heartbeat | time | handover | detach => cases h
  | mirrorWr | mirrorAck | poolRd | poolRdData | poolWr | poolWrAck | ringBlock | blockFetch => cases c

theorem svTake_notice (u : State) (m : SvHead) (x g : Nat) (e : MemErr) :
    u.svTake ⟨m, .notice x g⟩ e = (u.emit (.noticeIn m.src x g)).svAck m.port 0 (svUnits m.len) := svTake_acts rfl rfl

/-- The notices that follow take nothing back that has left. -/
theorem mem_svFollow {o : Out} (src k : Nat) {u : State} (h : o ∈ u.outbox) : o ∈ (u.svFollow src 0 k).outbox := by
  induction k generalizing u with
  | zero => exact h
  | succ k ih =>
    unfold State.svFollow
    dsimp only
    split
    · exact h
    · next held found =>
      have due := List.find?_some found
      simp only [Bool.and_eq_true, Bool.not_eq_true', beq_iff_eq] at due
      obtain ⟨⟨⟨-, cls⟩, -⟩, kept⟩ := due
      obtain ⟨x, g, notice⟩ := ordered_notice cls kept
      obtain ⟨head, msg⟩ := held
      subst notice
      refine ih ?_
      rw [svTake_notice]
      exact List.mem_cons_of_mem _ (List.mem_cons_of_mem _ h)

/-- How far ahead of its order a message of class 0 from m's source is. -/
def State.e2eAhead (s : State) (m : SvHead) : Nat := (m.e2e.toNat + 65536 - s.svNextE2e m.src 0) % 65536

theorem e2eAhead_woken (s : State) (m : SvHead) : (s.woken m).e2eAhead m = s.e2eAhead m := by
  rw [State.e2eAhead, State.svNextE2e, sv_woken]
  rfl

/-- What an acknowledgement says of a message that has just arrived. -/
theorem credit_woken {u : State} (h : u.sv.ports = (s.woken m).sv.ports) (units : Nat) :
    (u.svAck m.port 0 units).outbox = .svCredit m.port m.lseq.toNat false 0 units :: u.outbox := by
  have port : u.svPort m.port = { s.svPort m.port with rxLseq := m.lseq.toNat } := by
    rw [State.svPort, h]
    exact svPort_woken s m
  rw [outbox_svAck, port]

theorem svOrdered_notice {u : State} (single : m.bcast = false) : u.svOrdered ⟨m, .notice x g⟩ {} =
    if u.e2eAhead m = 0 then ((u.svGotE2e m.src 0).svTake ⟨m, .notice x g⟩ {}).svFollow m.src 0 u.sv.early.length
    else if u.e2eAhead m < 32768 ∧ !(u.sv.early.any fun h => h.head.src == m.src && h.msg.cls == 0 && h.head.e2e == m.e2e) then
      (u.setSv fun v => { v with early := v.early ++ [⟨m, .notice x g⟩] }).svAck m.port 0 0
    else u.svAck m.port 0 (svUnits m.len) := by
  unfold State.svOrdered
  dsimp only
  rw [if_neg (by simp [single, SvMsg.loose, SvMsg.stale])]
  rfl

theorem notice_reaches (h : Arrives m 0 s) (ours : ForUs m s) (due : s.e2eAhead m = 0) :
    .noticeIn m.src x g ∈ (s.svRx m (.notice x g)).outbox := by
  rw [svRx_ours h ours, svOrdered_notice ours.1, e2eAhead_woken, if_pos due, svTake_notice]
  exact mem_svFollow _ _ (List.mem_cons_of_mem _ List.mem_cons_self)

theorem notice_early (h : Arrives m 0 s) (ours : ForUs m s) (after : 0 < s.e2eAhead m) (near : s.e2eAhead m < 32768)
    (none : ∀ h ∈ s.sv.early, h.head.src ≠ m.src) :
    (s.svRx m (.notice x g)).sv.early = s.sv.early ++ [⟨m, .notice x g⟩] ∧
    (s.svRx m (.notice x g)).outbox = .svCredit m.port m.lseq.toNat false 0 0 :: s.outbox := by
  have early : (s.woken m).sv.early = s.sv.early := by
    rw [sv_woken]
    rfl
  have new : (s.sv.early.any fun h => h.head.src == m.src && h.msg.cls == 0 && h.head.e2e == m.e2e) = false :=
    List.any_eq_false.2 fun held mem => by simp [none held mem]
  rw [svRx_ours h ours, svOrdered_notice ours.1, e2eAhead_woken, if_neg (by omega), if_pos ⟨near, by rw [early, new]; rfl⟩]
  refine ⟨?_, ?_⟩
  · rw [sv_svAck]
    exact congrArg (· ++ [_]) early
  · exact (credit_woken (u := (s.woken m).setSv _) rfl 0).trans (congrArg (_ :: ·) (outbox_woken s m))

theorem notice_again (h : Arrives m 0 s) (ours : ForUs m s) (past : 32768 ≤ s.e2eAhead m) :
    (s.svRx m (.notice x g)).sv.early = s.sv.early ∧
    (s.svRx m (.notice x g)).outbox = .svCredit m.port m.lseq.toNat false 0 (svUnits m.len) :: s.outbox := by
  rw [svRx_ours h ours, svOrdered_notice ours.1, e2eAhead_woken, if_neg (by omega), if_neg (by omega)]
  refine ⟨?_, ?_⟩
  · rw [sv_svAck, sv_woken]
    rfl
  · rw [credit_woken (s := s) rfl, outbox_woken]

end Notice

end Sys2Proof.Machine
end

section
/-! What Initiator ID 9 asks of the Selvedge: to hand the triggers over, to begin, and to leave (O59). -/

namespace Sys2Proof.Machine

open Reg

/-! ### What waits at a port is sent, or goes on waiting (R564, R568) -/

section Started

variable {now : Nat} {t : SvTx}

theorem mem_svStart_unacked (l : List SvTx) (x : SvPort) (held : List Nat) (h : t ∈ x.unacked) :
    t ∈ (svStart now x held l).1.unacked := by
  induction l generalizing x held with
  | nil => exact h
  | cons a r ih =>
    unfold svStart
    dsimp only
    split
    · exact ih x _ h
    · exact ih _ held (List.mem_append_left _ h)

/-- A message of the queue waits still, or it has started. -/
theorem mem_svStart (l : List SvTx) (x : SvPort) (held : List Nat) (h : t ∈ l) : t ∈ (svStart now x held l).1.queue ∨
    ∃ n, { t with lseq := n, msg := t.msg.start now } ∈ (svStart now x held l).1.unacked := by
  induction l generalizing x held with
  | nil => cases h
  | cons a r ih =>
    unfold svStart
    dsimp only
    split
    · rcases List.mem_cons.1 h with rfl | later
      · exact .inl List.mem_cons_self
      · exact (ih x _ later).imp_left (List.mem_cons_of_mem a)
    · rcases List.mem_cons.1 h with rfl | later
      · exact .inr ⟨x.lseq, mem_svStart_unacked r _ held (List.mem_append_right _ (List.mem_singleton_self _))⟩
      · exact ih _ held later

theorem holds_svPump {u : State} {p : Nat} (h : t ∈ (u.svPort p).queue) (fixed : ∀ now, t.msg.start now = t.msg) :
    ((u.svPump p).svPort p).Holds t.dst t.msg := by
  unfold State.svPump
  dsimp only
  split
  · exact ⟨t, rfl, rfl, .inl h⟩
  · rw [svPort_emits, svPort_setSvPort_same]
    rcases mem_svStart (now := u.now) _ (u.svPort p) [] h with waits | ⟨n, sent⟩
    · exact ⟨t, rfl, rfl, .inl waits⟩
    · exact ⟨{ t with lseq := n, msg := t.msg.start u.now }, fixed u.now, rfl, .inr sent⟩

/-- With the transmit lock held no message is dropped, whether it goes stale or not. -/
theorem sends_svQueue_locked {u : State} {p : Fin 2} (locked : (u.svPort p).locked = true) (fixed : ∀ now, t.msg.start now = t.msg) :
    Sends t.dst t.msg (u.svQueue p t) := by
  have queued : u.svQueue p t = (u.setSvPort p { u.svPort p with queue := (u.svPort p).queue ++ [t] }).svPump p := by
    simp [State.svQueue, locked]
  rw [queued]
  refine sends_iff.2 ⟨p, holds_svPump ?_ fixed⟩
  rw [svPort_setSvPort_same]
  exact List.mem_append_right _ (List.mem_singleton_self t)

end Started

/-! ### TRIGGER_HANDOVER (R577) -/

section Handover

variable {iid : Iid} {v : Word} {s : State}

theorem triggerHandover_gives (h : s.writeOk iid SV_HANDOVER = true) (nine : iid = 9) (owner : s.is SV_STATUS_OWNER = true)
    (twin : s.is SV_CFG_TWIN = true) : Completes (.triggerHandover iid v) s fun t => t.sv.give = some (v.toNat, s.trigMask) ∧
      ((∀ p : Fin 2, (s.svPort p).locked = true) → Sends s.twinDev (.handover v.toNat s.trigMask) t) := by
  subst nine
  let given := s.setSv fun x => { x with give := some (v.toNat, s.trigMask) }
  have acts : exec (.triggerHandover 9 v) s = s.done (given.svSend s.twinDev (.handover v.toNat s.trigMask)) :=
    congrArg s.done ((writeWith_ok h _).trans (if_pos ⟨rfl, owner, twin⟩))
  refine done_completes acts ⟨?_, fun locked => Sends.of_sv ?_ (sv_answered _ _ _)⟩
  · rw [sv_answered, (onlyLink_svSend given _ _).give]
    rfl
  · let u := (given.svE2e (svKey s.twinDev (.handover v.toNat s.trigMask))).1
    exact sends_svQueue_locked (u := u) (p := ⟨u.svRoute s.twinDev, svRoute_lt _ _⟩)
      (t := { msg := .handover v.toNat s.trigMask, src := u.svDev, dst := s.twinDev, e2e := _ }) (locked _) fun _ => rfl

theorem triggerHandover_idle (h : s.writeOk iid SV_HANDOVER = true)
    (other : ¬ (iid = 9 ∧ s.is SV_STATUS_OWNER = true ∧ s.is SV_CFG_TWIN = true)) : exec (.triggerHandover iid v) s = .next s := by
  have idle : s.handoverWrite iid.toNat v.toNat = s :=
    if_neg fun ⟨nine, rest⟩ => other ⟨BitVec.eq_of_toNat_eq nine, rest⟩
  exact (congrArg s.done ((writeWith_ok h _).trans idle)).trans (done_self s)

end Handover

/-! ### SV_ENABLE and SV_DETACH (R570, R574) -/

section Control

variable {iid : Iid} {s : State}

theorem hbAt_svHello (u : State) {p : Nat} (hp : p < 2) : (u.svHello p).sv.hbAt = u.sv.hbAt := by
  unfold State.svHello
  split
  · split
    · exact (onlyLink_svBcast _ hp _).hbAt
    · exact (onlyLink_svBcast _ hp _).hbAt
  · rfl

theorem hbAt_svPaired (u : State) : u.svPaired.sv.hbAt = u.sv.hbAt := by
  unfold State.svPaired
  dsimp only
  split
  · split <;> rfl
  · rfl

/-- The state in which the device has just been enabled. -/
def State.svBegun (s : State) : State := (s.putB SV_CTL_EN true).setSv fun v => { v with hbAt := s.hg.dt }

theorem svEnable_begins (h : s.writeOk iid SV_CTL = true) (nine : iid = 9) (off : s.is SV_CTL_EN = false) :
    Completes (.svEnable iid) s fun t => t.is SV_CTL_EN = true ∧ t.sv.hbAt = s.hg.dt := by
  subst nine
  have on : s.svEnableWrite true = ((s.svBegun.svHello 0).svHello 1).svPaired := by
    rw [State.svEnableWrite, off]
    rfl
  have acts : exec (.svEnable 9) s = s.done ((s.svBegun.svHello 0).svHello 1).svPaired :=
    congrArg s.done ((writeWith_ok h _).trans on)
  have said := (hostKept_svHello s.svBegun (p := 0) (by decide)).trans (hostKept_svHello _ (p := 1) (by decide))
  refine done_completes acts ?_
  rw [is_answered, sv_answered]
  constructor
  · exact ((said.trans (hostKept_svPaired _)).is (by decide) (by decide)).trans (is_putB s SV_CTL_EN true (by decide) rfl)
  · rw [hbAt_svPaired, hbAt_svHello _ (by decide), hbAt_svHello _ (by decide)]
    rfl

/-- A device that leaves either waits for its DETACH to be acknowledged, or is alone (R574). -/
def Leaving (t : State) : Prop := t.sv.detaching = true ∨
  (t.sv.detaching = false ∧ t.get SV_STATUS_STATE = 0 ∧ t.get SV_STATUS_LIVE = 0 ∧ t.is PL_STATUS_TWIN = false ∧ t.sv.peers = [])

/-- The registers as a device that has left leaves them. -/
def State.alone (u : State) : State := ((u.put SV_STATUS_STATE 0).put SV_STATUS_LIVE 0).putB PL_STATUS_TWIN false

theorem alone_status (u : State) : u.alone.get SV_STATUS_STATE = 0 ∧ u.alone.get SV_STATUS_LIVE = 0 ∧
    u.alone.is PL_STATUS_TWIN = false := by
  have kept : u.alone.reg SV_STATUS = ((u.put SV_STATUS_STATE 0).put SV_STATUS_LIVE 0).reg SV_STATUS := reg_putB_ne _ _ (by decide)
  refine ⟨?_, ?_, is_putB _ _ _ (by decide) rfl⟩
  · rw [get_congr (f := SV_STATUS_STATE) kept, get_put_ne _ SV_STATUS_LIVE _ _ (by decide) (by decide)]
    exact get_put u SV_STATUS_STATE 0 (by decide)
  · rw [get_congr (f := SV_STATUS_LIVE) kept]
    exact get_put _ SV_STATUS_LIVE 0 (by decide)

theorem detachDone_leaving {u : State} (h : u.sv.detaching = true) : Leaving u.detachDone := by
  have eq : u.detachDone = u ∨ u.detachDone = u.alone.setSv fun v => { v with detaching := false, peers := [] } := by
    unfold State.detachDone
    dsimp only
    split
    · exact .inr rfl
    · exact .inl rfl
  rcases eq with eq | eq
  · rw [eq]
    exact .inl h
  · obtain ⟨state, live, twin⟩ := alone_status u
    rw [eq]
    exact .inr ⟨rfl, state, live, twin, rfl⟩

theorem svDetachWrite_leaving (u : State) : Leaving u.svDetachWrite := detachDone_leaving rfl

theorem svDetach_leaves (h : s.writeOk iid SV_CTL = true) (nine : iid = 9) : Completes (.svDetach iid) s Leaving := by
  subst nine
  have asks : (s.reg SV_CTL ||| 2).getLsbD 1 = true := by simp
  have write : s.svCtlWrite 9 (s.reg SV_CTL ||| 2) = (s.svEnableWrite ((s.reg SV_CTL ||| 2).getLsbD 0)).svDetachWrite := if_pos asks
  refine done_completes (congrArg s.done ((writeWith_ok h _).trans write)) ?_
  exact svDetachWrite_leaving _

theorem svCtlWrite_other (h : iid ≠ 9) (v : Word) : s.svCtlWrite iid.toNat v = s := if_pos fun e => h (BitVec.eq_of_toNat_eq e)

theorem svControl_idle (h : s.writeOk iid SV_CTL = true) (other : iid ≠ 9) :
    exec (.svEnable iid) s = .next s ∧ exec (.svDetach iid) s = .next s := by
  have idle (v : Word) : s.done (s.writeWith iid SV_CTL fun s => s.svCtlWrite iid.toNat v) = .next s :=
    (congrArg s.done ((writeWith_ok h _).trans (svCtlWrite_other other v))).trans (done_self s)
  exact ⟨idle 1, idle _⟩

end Control

/-- Settles O59: each message is taken through the link's checks and the two orders to the function that acts on it, and what follows
it, such as the HELLO that answers, what a lost device leaves behind, or a pairing, keeps what the statement names. -/
theorem selvedgeMessagesAct : Obligations.SelvedgeMessagesAct := by
  unfold Obligations.SelvedgeMessagesAct
  refine ⟨fun m b s => ⟨badMsg_counts, heartbeat_crc⟩, ?_, ?_, fun s => heartbeatSend_counts, fun d a s => heartbeatLoss_loses,
    fun p s => ⟨timeExchangeSend_restarts, timeExchangeSend_idle⟩, ?_, ?_, fun iid v s => ⟨fun h => ?_, fun h => ?_⟩⟩
  · intro m d n twin role st s h all
    exact ⟨fun fresh other members twins step roles => hello_recorded h all ⟨fresh, other, members, twins, step, roles⟩,
      hello_refused h all⟩
  · intro m seq live o e pe tu ru s h all other
    exact ⟨heartbeat_live h all other, heartbeat_lost h all other⟩
  · intro m t1 t2 t3 s h ours
    exact ⟨time_answer h ours, time_request h ours⟩
  · intro m turn mask s h ours
    refine ⟨handover_waits h ours, handover_late h ours, detach_loses h ours, fun x gen => ⟨fun due => ?_, fun after near none => ?_,
      fun past => ?_⟩⟩
    · exact done_completes rfl (notice_reaches h ours due)
    · exact done_completes rfl (notice_early h ours after near none)
    · exact done_completes rfl (notice_again h ours past)
  · exact ⟨triggerHandover_gives h, triggerHandover_idle h⟩
  · exact ⟨svEnable_begins h, svDetach_leaves h, svControl_idle h⟩

end Sys2Proof.Machine
end
